-- ==== Sys2Proof/Word.lean ====
section
/-! DEFINITION. The word types of the tray and its plainest numbers (R8, R13, R36). -/

namespace Sys2Proof

/-- A 32-bit register, scalar or ring word. -/
abbrev Word := BitVec 32

/-- A byte (R8). -/
abbrev Byte := BitVec 8

/-- A die number, 0 to 7 (R19). -/
abbrev DieNo := Fin 8

/-- A management core, MC0 to MC3. -/
abbrev McNo := Fin 4

/-- A hasp link of one die, HL0 to HL47 (R28). -/
abbrev LinkNo := Fin 48

/-- A requester number of R55: 10 bits. -/
abbrev Requester := Fin 1024

end Sys2Proof
end

