-- ==== Sys2Proof/Syntax.lean ====
section
/-! DEFINITION. The commands of the tray: one constructor for each row of spec/opcode_table.json. The table gives its
rows no operands; those here are the model's (notes/assumptions/6.md). -/

namespace Sys2Proof

/-- A firmware bundle: its bytes, laid out as R144 and R145 state. What the cryptographic checks of it find is the environment's:
`sigOk` says whether the signature verifies under the key of KEY_INDEX, `digestOk` whether the body of section i matches its DIGEST.
[DEDUCED, log entry 25] -/
structure Bundle where
  bytes : List Byte
  sigOk : Bool
  digestOk : List Bool
  deriving DecidableEq, Repr


/-- A firmware core: MCk, or W0 or W1 of a die (R142). -/
inductive Core where
  | mc (k : McNo)
  | warden (die : DieNo) (k : Fin 2)
  deriving DecidableEq, Repr


/-- A Clachasel writer of event records that has no write window (R567). -/
inductive Writer where
  | supervisor | fence | block
  deriving DecidableEq, Repr


/-- How the bus ends a two-wire transaction: with every byte moved, with a NACK, or with SDA held low (R548). The controller itself
tells LEN and PEC_ERR from the bytes. -/
inductive TwEnd where
  | done | nackAddr | nackData | arbLost
  deriving DecidableEq, Repr


/-- Units of 32 bytes, by die-local address / 32, in which the reads of a command find an error (R270, R272): the
environment's choice. -/
structure Ecc where
  corrected : List Nat
  bad : List Nat
  deriving DecidableEq, Repr

/-- An agent of R279, the host apart. -/
inductive Agent where
  | warden (k : Fin 2)
  | gate (k : Fin 256)
  | streamLocal (id : BitVec 16)
  | streamArrival (id : BitVec 16) (src : DieNo)
  | keys | scan | training
  deriving DecidableEq, Repr

/-- A memory access: a read of some bytes, or a write of the bytes given. -/
inductive MemOp where
  | read (length : BitVec 32)
  | write (data : List Byte)
  deriving DecidableEq, Repr


/-- A logical tumbler of a die (R17, R175). -/
structure Tumbler where
  die : DieNo
  row : Fin 64
  col : Fin 64
  deriving DecidableEq, Repr


/-- The IDENT message as the CCB carries it (R310, "CCB layout"). -/
structure Ident where
  tag : BitVec 64
  tray : BitVec 64
  die : BitVec 8
  link : BitVec 8
  reach : BitVec 8
  member : BitVec 8
  version : BitVec 8
  deriving DecidableEq, Repr

/-- A codeword as it reaches the receiver (R304, R312, R315): the 272 symbols of each lane; the time of its arrival, on the converter's
scale, and the arrival of its marked word after the die's own boundary for the marker's beat, both in eighths of a tile cycle; and the
turnaround that a reply to a probe in it will carry: the environment's choice. -/
structure Codeword where
  lane0 : List (BitVec 10)
  lane1 : List (BitVec 10)
  time : BitVec 64
  arrival : BitVec 64
  turnaround : BitVec 32
  deriving DecidableEq, Repr


/-- A unit that the TUMBLER test checks (R667). -/
inductive TestUnit where
  | mac | scalar | bank | port | passthru | bay
  deriving DecidableEq, Repr

/-- The code of a unit, as FIRST_UNIT. -/
def TestUnit.code : TestUnit → Nat
  | .mac => 0
  | .scalar => 1
  | .bank => 2
  | .port => 3
  | .passthru => 4
  | .bay => 5

/-- A failure of the TUMBLER test: physical column, row, unit (R667). -/
structure TumblerFailure where
  col : Fin 68
  row : Fin 64
  unit : TestUnit
  deriving DecidableEq, Repr

/-- What the LINK test measures of a link (R669): the SNR of both lanes, and the symbols corrected over the span. -/
structure LinkSpan where
  link : LinkNo
  snr0 : BitVec 8
  snr1 : BitVec 8
  corrected : Nat
  deriving DecidableEq, Repr


/-- A frame of the supervisor line as received (R600): bytes 1 to 4, the payload, and the CRC at its end. -/
structure Frame where
  dst : BitVec 8
  src : BitVec 8
  type : BitVec 8
  seq : BitVec 8
  payload : List Byte
  crc : BitVec 16
  deriving DecidableEq, Repr

/-- What happens to a frame that MC3 serves: it is received, or MC3 serves it at the head of its queue (R608). -/
inductive FrameEvent where
  | received (frame : Frame)
  | served
  deriving DecidableEq, Repr

/-- A command: an operation on the tray or an event that happens to it. [DESIGN CHOICE, log entry 6] -/
inductive Instr where
  /-- R46: A write to a register that has no row of its own is checked against offset, byte enables, lock, shadow and requester, and is applied or discarded. -/
  | registerWrite (req : Requester) (chip : Fin 9) (offset : BitVec 24) (enables : BitVec 4) (value : BitVec 32) (collide : Bool)
      (high : Option (BitVec 4 × BitVec 32))
  /-- R33: An access to a reserved BAR0 range reads 0 or is discarded, sets ACCESS_ERR and records an event. -/
  | reservedRangeAccess (req : Requester) (chip : Fin 9) (offset : BitVec 24) (write : Bool) (value : BitVec 32)
  /-- R48: A read of the low word of a 64-bit pair captures the high word for that requester. -/
  | lowWordRead (req : Requester) (chip : Fin 9) (offset : BitVec 24) (enables : BitVec 4) (high : Option (BitVec 4))
  /-- R48: A write of the low word of a 64-bit pair is held in the requester's staging register. -/
  | lowWordWrite (req : Requester) (chip : Fin 9) (offset : BitVec 24) (value : BitVec 32)
  /-- R48: A write of the high word loads both halves from staging, or is discarded if nothing is staged. -/
  | highWordWrite (req : Requester) (chip : Fin 9) (offset : BitVec 24) (value : BitVec 32)
  /-- R56: Writing 1 to PAGE_LOCK.LOCK locks every LK field of the page from the next cycle. -/
  | pageLock (req : Requester) (chip : Fin 9) (page : Fin 4096)
  /-- R60: PAGE_CTRL.SOFT_RESET returns the block's run-time state and resettable fields to their Reset values and cancels any pending commit. -/
  | softReset (req : Requester) (chip : Fin 9) (page : Fin 4096)
  /-- R60: The soft reset ends, RESETTING clears and a pending ENABLE change takes effect. -/
  | softResetEnd (chip : Fin 9) (page : Fin 4096)
  /-- R65: A write of PAGE_GEN + 1 to PAGE_COMMIT checks the shadow set and accepts it or sets CFG_MISMATCH. -/
  | commitRequest (req : Requester) (chip : Fin 9) (page : Fin 4096) (value : BitVec 32)
  /-- R66: An accepted shadow set is applied as one unit at its boundary, PAGE_GEN counts up and COMMITTED is set. -/
  | commitApply (chip : Fin 9) (page : Fin 4096)
  /-- R34: A host BAR2 access reaches STAGE or is refused with all ones, a discard, a fault record and an event. -/
  | bar2Access (die : DieNo) (offset : BitVec 64) (op : MemOp) (ecc : Ecc)
  /-- R126: PERST#, hot reset or link down resets one endpoint's PCIe controller and configuration space only. -/
  | pcieReset (endpoint : Fin 9)
  /-- R80: 12V_SB becomes good and the standby sequencer brings up the Clachasel supplies in order. -/
  | standbySupplyGood
  /-- R132: 12V_SB is lost and the tray goes to OFF. -/
  | standbySupplyLost
  /-- R123: VDDC has been good for 1 ms, power-on reset is released and the standby ROM starts. -/
  | powerOnResetRelease
  /-- R602: SLOT_ID[6:0] is latched 10 µs after the release of power-on reset and ADDR_VALID is set. -/
  | slotIdLatch (pins : BitVec 7)
  /-- R121: The Clachasel core PLL loses lock and the core clock falls back to the 25 MHz reference. -/
  | corePllLoss
  /-- R121: The core PLL relocks and two-wire and supervisor-line timing resume. -/
  | corePllRelock
  /-- R122: A die PLL in use loses lock; the die asserts DIE_FAULT_n and counts the loss. -/
  | diePllLoss (die : DieNo) (pll : Fin 11)
  /-- R141: A sideband frame is received and its CRC checked, with resends on failure. -/
  | sidebandFrame (die : DieNo) (crcGood : Bool)
  /-- R134: MAIN_ON closes the main switch and enables IBC0 to IBC3. -/
  | mainOn (req : Requester)
  /-- R132: MAIN_OFF opens the main switch, and is discarded unless every die reads OFF. -/
  | mainOff (req : Requester)
  /-- R86: UP starts the rails of the dies in DIE_MASK in ascending order, STAGGER apart. -/
  | up (req : Requester)
  /-- R88: DOWN takes down the rails of the dies in DIE_MASK, discarded for a die not in die reset. -/
  | down (req : Requester)
  /-- R83: SETPT_OK confirms the setpoint tables are loaded and the remaining rails follow. -/
  | setptOk (req : Requester)
  /-- R83: A rail reports power-good and the next rail is enabled GAP_US later. -/
  | railPowerGood (die : DieNo)
  /-- R83: In power-down a rail falls below 10 % or its wait expires and the next rail is turned off. -/
  | railOffStep (die : DieNo)
  /-- R85: A rail fails to report power-good within PG_TIMEOUT and the die's rails are taken down with RAIL_FAULT recorded. -/
  | pgTimeout (die : DieNo)
  /-- R85: MC0 does not set SETPT_OK within 20 ms and the die's rails are taken down. -/
  | setptTimeout (die : DieNo)
  /-- R87: A rail that is up loses power-good; TRIP_n is asserted and the die's rails go down. -/
  | railPgLoss (die : DieNo) (rail : Fin 9)
  /-- R89: An intermediate bus converter faults or loses power-good and IBC_LOST is set. -/
  | ibcLost (converter : Fin 4)
  /-- R113: The 48 V input stays below 38.0 V for 10 µs; every die trips, rails go down and the recorder flushes. -/
  | powerFailAssert
  /-- R115: The input has been above 40.0 V for 100 ms and power-fail is released, returning the tray to MGMT_READY or STANDBY. -/
  | powerFailRelease
  /-- R641: Input current above IIN_TRIP for 50 µs trips every die, takes rails down and opens the main switch. -/
  | inputOvercurrent (amps : BitVec 8)
  /-- R94: A management core claims a free hinge-mailbox slot through its posting window, or reads BUSY. -/
  | mbxClaim (req : Requester) (core : McNo)
  /-- R93: SEND writes the slot payload and then CTRL with VALID = 1 to the die over the sideband. -/
  | send (req : Requester) (core : McNo)
  /-- R112: RELEASE clears VALID and frees the slot, and is discarded before a terminal status. -/
  | mbxRelease (req : Requester) (core : McNo)
  /-- R99: A die checks an OP_CHANGE request and accepts or refuses it, starting to lock its idle clock source. -/
  | opChange (die : DieNo) (slot : Fin 8)
  /-- R105: A die checks a THROTTLE request that inserts idle beats at every sync hinge from H. -/
  | throttle (die : DieNo) (slot : Fin 8)
  /-- R663: A die checks a TEST_SLOT request naming the tests to run at sync hinge H. -/
  | testSlot (die : DieNo) (slot : Fin 8)
  /-- R429: A die checks an OP_FORCE request for a forced change of operating point at sync hinge H. -/
  | opForce (die : DieNo) (slot : Fin 8)
  /-- R92: The idle clock source locks to the requested frequency. -/
  | idlePllLock (die : DieNo)
  /-- R101: The sequencer receives AT_HINGE and on a rise drives OPSEL_n to the target. -/
  | atHinge (die : DieNo)
  /-- R101: After the slew time the sequencer checks power-good and sends VOLT_OK or records event 0x3204. -/
  | voltCheck (die : DieNo) (powerGood : Bool)
  /-- R102: The die receives VOLT_OK for a transition ID. -/
  | voltOk (die : DieNo)
  /-- R102: The hold at a hinge ends; the die switches frequency or posts VOLT_LATE. -/
  | holdEnd (die : DieNo)
  /-- R103: On a drop the sequencer receives F_DONE and drives OPSEL_n down. -/
  | fDone (die : DieNo)
  /-- R132: MC3 writes the next tray state, accepted only for the listed transitions. -/
  | transReq (req : Requester) (new : BitVec 3)
  /-- R138: TRAY_RST.ARM opens a 1 ms window for FIRE from the same requester. -/
  | arm (req : Requester)
  /-- R136: An armed FIRE starts a tray reset: every die trips, rails go down, the recorder flushes and the ROM restarts. -/
  | fire (req : Requester)
  /-- R129: The standby ROM releases MC0 to MC3 once the bundle check has passed and every leak comparator has released. -/
  | coresRelease
  /-- R131: A management core sets its CORE_READY bit when its image has started. -/
  | coreReady (core : McNo)
  /-- R131: CORE_READY is incomplete 500 ms after release; the cores are held and STBY_CAUSE is CORE_START. -/
  | coreStartTimeout
  /-- R133: A die fails to record DIE_READY within DIE_READY_TO and is tripped and removed from DIE_INSERV. -/
  | dieReadyTimeout (die : DieNo)
  /-- R147: FETCH reads the bundle from the host into staging memory by DMA. -/
  | fetch (req : Requester)
  /-- R147: A bundle fetch ends, successfully or with FETCH_ERR. -/
  | fetchDone (bundle : Bundle) (pcieError : Bool)
  /-- R130: CHECK starts the signature and format check of the staged bundle. -/
  | bundleCheck (req : Requester)
  /-- R146: The bundle check ends with a verdict, setting BUNDLE_OK or SIG_BAD and copying the management images. -/
  | bundleCheckDone
  /-- R151: A write to IMG_DATA stores a word of the warden image at IMG_ADDR and advances IMG_ADDR. -/
  | imgData (req : Requester) (die : DieNo) (value : BitVec 32)
  /-- R152: RELEASE_W0 or RELEASE_W1 checks the image header and starts the warden core at ENTRY. -/
  | wardenRelease (req : Requester) (die : DieNo) (core : Fin 2)
  /-- R153: A write of 0xA5C3 to WDT_KICK by the guarded core reloads the watchdog count. -/
  | wdtKick (req : Requester) (core : Core) (value : BitVec 16)
  /-- R155: A watchdog reaches 0; the core is held in reset, its resources are released and an event is recorded. -/
  | watchdogFire (core : Core)
  /-- R155: A core restarts at RESTART 64 cycles after its watchdog fired, or is held past RESTART_LIMIT. -/
  | coreRestart (core : Core)
  /-- R162: A host write to CMDk posts a command with CTX_TAG, time and sequence number and sets PEND_MAP bit k. -/
  | cmdPost (req : Requester) (k : Fin 32) (value : BitVec 32)
  /-- R163: A posted command not served within 1 ms sets CMD_LATE and records event 0x3030. -/
  | cmdLate (k : Fin 20)
  /-- R160: MC3 swaps the emulated page banks; PUB_SEQ counts up and PUB_TIME takes the snapshot time. -/
  | publishSwap (vin : BitVec 16) (iin : BitVec 8)
  /-- R161: Tray time exceeds PUB_TIME by 50 ms and EMU_STATUS.STALE rises. -/
  | stale
  /-- R165: MC3 serves CMD0: MC0 issues MAIN_ON and brings up the dies. -/
  | bringup
  /-- R165: MC3 serves CMD1 and MC0 takes main power down. -/
  | powerDown
  /-- R165: MC3 serves CMD2, setting the context number in force and moving the tray to CONTEXT_OPEN. -/
  | ctxOpen
  /-- R165: MC3 serves CMD3 and the tray returns to DIES_READY. -/
  | ctxClose
  /-- R495: MC3 serves CMD4 and clears a zone's TRIP_LATCH, refused while it is level-held. -/
  | clearTrip
  /-- R495: MC3 serves CMD5 and commits a zone's THROTTLE limit. -/
  | setThrottle
  /-- R495: MC3 serves CMD6 and sets a zone's FORECAST_MS. -/
  | setForecast
  /-- R495: MC3 serves CMD7 and returns a sensor to NO_SAMPLE, clearing its counts and ring. -/
  | clearSensor
  /-- R528: MC3 serves CMD8 and sets a fan group's HOST_FLOOR. -/
  | setFanFloor
  /-- R528: MC3 serves CMD9 and sets a pump's HOST_FLOOR. -/
  | setPumpFloor
  /-- R528: MC3 serves CMD10 and clears a fan, pump or flow FAULT once its condition has ended. -/
  | clearCoolFault
  /-- R528: MC3 serves CMD11 and returns every HOST_FLOOR to 0. -/
  | clearHostFloors
  /-- R672: MC3 serves CMD12 and adds self-tests pending at MC0 for the named dies. -/
  | testRequest
  /-- R672: MC3 serves CMD13 and clears MC0's pending tests for the named dies. -/
  | testCancel
  /-- R672: MC3 serves CMD14 and has the named AFE engines calibrated. -/
  | afeCalibrate
  /-- R672: MC3 serves CMD15 and sets the interval of automatic TUMBLER tests. -/
  | setTestPeriod
  /-- R588: MC3 serves CMD16 and triggers an event recorder flush. -/
  | flush
  /-- R588: MC3 serves CMD17 and sets an event code's rate class. -/
  | setClass
  /-- R588: MC3 serves CMD18 and sets FLUSH_MARK. -/
  | setFlushMark
  /-- R588: MC3 serves CMD19 and clears the flash fault, resuming flushes. -/
  | clearFlashFault
  /-- R184: OUTER accumulates the outer product of two lane groups into an accumulator tile. -/
  | outer (t : Tumbler)
  /-- R184: MM4 accumulates a 4 x 4 by 4 x 4 FP8 or INT8 matrix product into a tile quadrant. -/
  | mm4 (t : Tumbler)
  /-- R184: ACCRD copies a tile row into a vector register. -/
  | accrd (t : Tumbler)
  /-- R184: ACCWR writes a vector register into a tile row. -/
  | accwr (t : Tumbler)
  /-- R184: PACK8 converts eight lanes to bytes and writes one lane group of VD. -/
  | pack8 (t : Tumbler)
  /-- R184: PACK16 converts eight FP32 lanes to BF16 and writes one half of VD. -/
  | pack16 (t : Tumbler)
  /-- R184: UNPACK widens eight elements to FP32 or INT32 lanes. -/
  | unpack (t : Tumbler)
  /-- R184: VADD adds two vector registers lane by lane. -/
  | vadd (t : Tumbler)
  /-- R184: VSUB subtracts two vector registers lane by lane. -/
  | vsub (t : Tumbler)
  /-- R184: VMUL multiplies two vector registers lane by lane. -/
  | vmul (t : Tumbler)
  /-- R184: VMAX takes the lane-wise maximum of two vector registers. -/
  | vmax (t : Tumbler)
  /-- R184: VMIN takes the lane-wise minimum of two vector registers. -/
  | vmin (t : Tumbler)
  /-- R184: VMOV copies VA to VD. -/
  | vmov (t : Tumbler)
  /-- R186: BLD loads a bay line into half of a vector register. -/
  | bld (t : Tumbler) (corrected bad : BitVec 4)
  /-- R186: BST stores half of a vector register into a bay line. -/
  | bst (t : Tumbler)
  /-- R186: BLDS loads one word of a bay line into a scalar register. -/
  | blds (t : Tumbler) (corrected bad : BitVec 4)
  /-- R186: BSTS stores a scalar register into one word of a bay line. -/
  | bsts (t : Tumbler)
  /-- R192: ADD writes Sa + Sb. -/
  | add (t : Tumbler)
  /-- R192: SUB writes Sa − Sb. -/
  | sub (t : Tumbler)
  /-- R192: ADDI writes Sa plus a sign-extended immediate. -/
  | addi (t : Tumbler)
  /-- R192: AND writes the bitwise AND of Sa and Sb. -/
  | and (t : Tumbler)
  /-- R192: OR writes the bitwise OR of Sa and Sb. -/
  | or (t : Tumbler)
  /-- R192: XOR writes the bitwise XOR of Sa and Sb. -/
  | xor (t : Tumbler)
  /-- R192: SHL shifts Sa left by Sb[4:0]. -/
  | shl (t : Tumbler)
  /-- R192: SHR shifts Sa right logically by Sb[4:0]. -/
  | shr (t : Tumbler)
  /-- R192: SRA shifts Sa right arithmetically by Sb[4:0]. -/
  | sra (t : Tumbler)
  /-- R192: MOVI writes a sign-extended immediate. -/
  | movi (t : Tumbler)
  /-- R192: ORI writes Sa OR a zero-extended immediate. -/
  | ori (t : Tumbler)
  /-- R192: SHLI shifts Sa left by an immediate. -/
  | shli (t : Tumbler)
  /-- R192: FADD adds two FP32 scalars. -/
  | fadd (t : Tumbler)
  /-- R192: FSUB subtracts two FP32 scalars. -/
  | fsub (t : Tumbler)
  /-- R192: CMPEQ writes Sa = Sb to a predicate. -/
  | cmpeq (t : Tumbler)
  /-- R192: CMPLT writes the signed Sa < Sb to a predicate. -/
  | cmplt (t : Tumbler)
  /-- R192: CMPLTU writes the unsigned Sa < Sb to a predicate. -/
  | cmpltu (t : Tumbler)
  /-- R192: FCMPLT writes an FP32 less-than compare to a predicate. -/
  | fcmplt (t : Tumbler)
  /-- R192: FCMPEQ writes an FP32 equality compare to a predicate. -/
  | fcmpeq (t : Tumbler)
  /-- R192: CMPEQI writes Sa = imm to a predicate. -/
  | cmpeqi (t : Tumbler)
  /-- R192: PAND writes the AND of two predicates. -/
  | pand (t : Tumbler)
  /-- R192: POR writes the OR of two predicates. -/
  | por (t : Tumbler)
  /-- R192: PNOT writes the inverse of a predicate. -/
  | pnot (t : Tumbler)
  /-- R192: LOOPI sets a loop counter's start address and count. -/
  | loopi (t : Tumbler)
  /-- R192: ITOF converts Sa to FP32. -/
  | itof (t : Tumbler)
  /-- R192: FTOI converts Sa to INT32. -/
  | ftoi (t : Tumbler)
  /-- R182: SEQ NEXT advances the sequencer to the next address. -/
  | next (t : Tumbler)
  /-- R182: LOOP_END returns to the loop start and decrements the count, or falls through at 0. -/
  | loopEnd (t : Tumbler)
  /-- R182: HALT makes the tumbler issue the all-NOP word for the rest of the section. -/
  | halt (t : Tumbler)
  /-- R188: A vector word is sent on each neighbour port and keyway tap marked in OMASK. -/
  | vectorRouteSend (t : Tumbler)
  /-- R189: The word presented at the INSEL port is captured into a vector register. -/
  | vectorRouteCapture (t : Tumbler)
  /-- R190: SOE drives S[SOR] onto the scalar keyway with valid 1. -/
  | scalarRouteSend (t : Tumbler)
  /-- R190: SIE captures a valid scalar word into S[SIR] and writes the valid bit to P5. -/
  | scalarRouteCapture (t : Tumbler)
  /-- R191: CTL 1 captures the control-network predicate bit into P7. -/
  | ctlCapturePredicate (t : Tumbler)
  /-- R191: CTL 2 drives P6 onto the control network. -/
  | ctlDrivePredicate (t : Tumbler)
  /-- R191: CTL 3 captures the 8-bit control token into S15. -/
  | ctlCaptureToken (t : Tumbler)
  /-- R191: CTL 4 drives S15[7:0] as the control token. -/
  | ctlDriveToken (t : Tumbler)
  /-- R220: W0 writes FUSE_COL_g once ever, taking effect at the next die reset. -/
  | fuseCol (req : Requester) (die : DieNo) (group : Fin 4) (column : BitVec 5)
  /-- R245: CHECK starts the keyring checker on the keyring at KRING.BASE. -/
  | keyringCheck (req : Requester) (die : DieNo)
  /-- R245: The keyring check ends, setting VERIFIED or writing the refusal record and event 0x1410. -/
  | keyringCheckDone (die : DieNo) (ecc : Ecc)
  /-- R247: LOAD starts loading key NEXT_KEY into the shadow banks, switches and gate units. -/
  | load (req : Requester) (die : DieNo) (key : BitVec 12)
  /-- R247: The shadow load completes and SHADOW_READY is set. -/
  | shadowReady (die : DieNo) (cycles : BitVec 16) (ecc : Ecc)
  /-- R244: A gate unit SEND step removes the oldest ingress word and drives it. -/
  | guSend (die : DieNo) (gate : Fin 256) (step : Fin 16)
  /-- R244: A gate unit TAKE step captures the presented word into egress. -/
  | guTake (die : DieNo) (gate : Fin 256) (step : Fin 16)
  /-- R243: A gate unit's memory side completes the read of an ingress chunk into its queue. -/
  | guIngressChunk (die : DieNo) (gate : Fin 256) (ecc : Ecc)
  /-- R253: A gate unit's egress write to deep memory is acknowledged. -/
  | guEgressAck (die : DieNo) (gate : Fin 256) (ecc : Ecc)
  /-- R249: A gate unit's freeze request drops the array clock enable. -/
  | globalFreeze (die : DieNo) (gate : Fin 256) (step : Fin 16)
  /-- R249: No freeze request stands and the clock enable rises. -/
  | freezeEnd (die : DieNo) (cycles : BitVec 32) (held : List (Nat × Nat))
  /-- R251: A freeze lasts beyond FREEZE_LIMIT; event 0x1412 and a fault record, and the context goes to FAULTED. -/
  | freezeLimit (die : DieNo) (gate : Fin 256) (cycles : BitVec 32) (held : List (Nat × Nat))
  /-- R252: The section has issued SECTION_CYCLES enabled cycles and the quiesce begins. -/
  | sectionEnd (die : DieNo)
  /-- R253: Q_pipe has passed and every egress word is acknowledged, ending the quiesce. -/
  | quiesceEnd (die : DieNo) (enabled total : BitVec 24)
  /-- R254: The hinge runs: flags snapshot, configurations swap, banks flip and commits apply. -/
  | hinge (die : DieNo) (waited : BitVec 32)
  /-- R224: The skip phase ends; the new SKIP_g is applied, the group locks and event 0x1401 is recorded. -/
  | skipPhaseComplete (die : DieNo) (cycles : BitVec 32) (ecc : Ecc)
  /-- R255: At the release beat plus idle beats the next key starts at cycle 0 and new slot tables apply. -/
  | keyStart (die : DieNo) (waited : BitVec 24)
  /-- R365: The stretch accumulator reaches 1.0 and the array clock enable is held low for one cycle. -/
  | stretchCycle (die : DieNo)
  /-- R279: An agent's deep-memory access is checked against the windows and performed or refused. -/
  | memoryAccess (die : DieNo) (agent : Agent) (address : BitVec 40) (op : MemOp) (ecc : Ecc)
  /-- R271: The patrol scrubber reads and rewrites one 256-byte unit per stack every 10 µs. -/
  | scrubRead (die : DieNo) (stack : Fin 4) (ecc : Ecc)
  /-- R271: The controller issues refresh at the interval tREFI. -/
  | refresh (die : DieNo) (stack : Fin 4)
  /-- R271: The stack's temperature is read every 1 ms and tREFI is set. -/
  | stackTempRead (die : DieNo) (stack : Fin 4) (celsius : BitVec 8)
  /-- R278: Setting a window's EN checks base, limit and partition, else leaves EN 0 with CFG_MISMATCH. -/
  | windowEnable (req : Requester) (die : DieNo) (window : Fin 16) (rights : BitVec 3)
  /-- R284: INIT builds the heap free lists if the pools fit. -/
  | heapInit (req : Requester) (die : DieNo)
  /-- R284: The free lists are built and INITED is set. -/
  | heapInitDone (die : DieNo)
  /-- R288: A call-window ALLOC requests a block of a class from the allocator. -/
  | alloc (req : Requester) (die : DieNo) (window : Fin 3)
  /-- R288: A call-window FREE returns the block named in ARG. -/
  | free (req : Requester) (die : DieNo) (window : Fin 3)
  /-- R287: A gate unit takes a control token requesting ALLOC into Hh. -/
  | guAllocToken (die : DieNo) (gate : Fin 256)
  /-- R287: A gate unit takes a control token requesting FREE of Hh. -/
  | guFreeToken (die : DieNo) (gate : Fin 256)
  /-- R292: The allocator serves the requests of one warden cycle, FREEs first, then ALLOCs by requester number. -/
  | allocatorServe (die : DieNo)
  /-- R309: EN = 1 starts link training at DETECT. -/
  | linkEnable (req : Requester) (die : DieNo) (link : LinkNo)
  /-- R328: EN = 0 takes the link to DISABLED. -/
  | linkDisable (req : Requester) (die : DieNo) (link : LinkNo)
  /-- R328: RETRAIN takes a link to DETECT, refused in FENCED or before ISOLATE_HOLD. -/
  | retrain (req : Requester) (die : DieNo) (link : LinkNo)
  /-- R308: Signal has been present on both lanes for 100 µs and the link enters EQUALISE. -/
  | signalDetect (die : DieNo) (link : LinkNo)
  /-- R308: Both ends have adapted and the link enters FEC_ALIGN. -/
  | equaliseDone (die : DieNo) (link : LinkNo) (swapped partnerPrecodes : Bool) (snr0 snr1 : BitVec 8)
  /-- R308: 64 consecutive codewords decode cleanly and the link enters IDENT. -/
  | fecAlignDone (die : DieNo) (link : LinkNo)
  /-- R312: 64 round trips are measured, D is set and the link enters BEAT_LOCK. -/
  | delayDone (die : DieNo) (link : LinkNo)
  /-- R316: The beat is locked on the link and it goes UP. -/
  | beatLockDone (die : DieNo) (link : LinkNo)
  /-- R308: A training state exceeds its bound, counting a failure or going to FAILED. -/
  | trainTimeout (die : DieNo) (link : LinkNo)
  /-- R308: 10 ms after a training failure the link returns to DETECT. -/
  | trainRetry (die : DieNo) (link : LinkNo)
  /-- R310: The partner's IDENT is received and checked against tag, tray, expected partner, reach, member and version. -/
  | ident (die : DieNo) (link : LinkNo) (ident : Ident)
  /-- R308: The partner's IDENT_OK is received. -/
  | identOk (die : DieNo) (link : LinkNo)
  /-- R311: The partner sends REFUSE and the link is refused as PEER_REFUSED. -/
  | refuse (die : DieNo) (link : LinkNo) (code : BitVec 8)
  /-- R312: A delay probe is received and answered with the turnaround. -/
  | delayReq (die : DieNo) (link : LinkNo) (stamp : BitVec 64) (turnaround : BitVec 32)
  /-- R312: A probe reply is received and a round trip is measured. -/
  | delayRsp (die : DieNo) (link : LinkNo) (stamp : BitVec 64) (turnaround : BitVec 32) (time : BitVec 64)
  /-- R313: The partner's depth and parent indication are received. -/
  | beatInfo (die : DieNo) (link : LinkNo) (depth : BitVec 8) (parent : Bool)
  /-- R307: A codeword is decoded, its CCB checked and its slot words and messages delivered. -/
  | codewordReceive (die : DieNo) (link : LinkNo) (word : Codeword)
  /-- R315: A beat marker arrives and updates the phase error on the parent link. -/
  | beatMarker (die : DieNo) (link : LinkNo) (beat : BitVec 56) (phase : BitVec 8) (stepped locked : Bool) (arrival : BitVec 64)
  /-- R315: The die's beat ends and the next begins, with any slip or step applied. -/
  | beatBoundary (die : DieNo)
  /-- R318: READY(k) is received from a timing child; the die forwards READY or the root names the release beat. -/
  | ready (die : DieNo) (link : LinkNo) (k : BitVec 32)
  /-- R318: RELEASE(k, beat) is received and forwarded to the children. -/
  | release (die : DieNo) (link : LinkNo) (k : BitVec 32) (beat : BitVec 56)
  /-- R320: RELEASE(k) has not arrived within RELEASE_TO; event 0x170A and the context goes FAULTED. -/
  | releaseTimeout (die : DieNo)
  /-- R321: Signal is absent for 1 µs and the link goes LOST. -/
  | los (die : DieNo) (link : LinkNo)
  /-- R321: 8 consecutive uncorrectable codewords take the link to LOST. -/
  | fecUnlock (die : DieNo) (link : LinkNo)
  /-- R321: No beat marker for 4 local beats takes the link to LOST. -/
  | markerMiss (die : DieNo) (link : LinkNo)
  /-- R321: A good CCB carries LINK_DOWN and the link goes LOST. -/
  | peerDown (die : DieNo) (link : LinkNo)
  /-- R321: A good CCB carries ISOLATING and the link goes LOST. -/
  | peerIsolated (die : DieNo) (link : LinkNo)
  /-- R322: 10 ms after LOST, a link with AUTO_RETRAIN returns to DETECT. -/
  | autoRetrain (die : DieNo) (link : LinkNo)
  /-- R324: A CCB carrying FENCED takes the link to PEER_FENCED. -/
  | peerFenced (die : DieNo) (link : LinkNo)
  /-- R324: The partner stops sending FENCED and PEER_FENCED ends. -/
  | peerFencedEnd (die : DieNo) (link : LinkNo)
  /-- R404: A FAULT_FWD fragment arrives at die 0 and a record is written when all four have arrived. -/
  | faultFwd (die : DieNo) (link : LinkNo) (fragment : Fin 4) (seq : BitVec 6) (words : List (BitVec 32))
  /-- R404: A forwarded record's fragments are incomplete after 1 ms and it is dropped. -/
  | faultFwdTimeout (src : DieNo) (seq : BitVec 6)
  /-- R340: WRITE copies the staged bytes into descriptor DSEL, or refuses with a REASON. -/
  | sdescWrite (req : Requester) (die : DieNo)
  /-- R340: READ copies descriptor DSEL into STAGE0-STAGE15. -/
  | sdescRead (req : Requester) (die : DieNo)
  /-- R347: A write of POST_ID starts one transfer of a POSTED sending stream. -/
  | postId (req : Requester) (die : DieNo) (id : BitVec 16)
  /-- R351: An assigned slot comes round and the sender spends a credit to send a chunk, or sends idle. -/
  | slotSend (die : DieNo) (link : LinkNo) (slot : Fin 8) (idle : BitVec 10) (phase : BitVec 8) (time : BitVec 64) (ecc : Ecc)
  /-- R352: A whole chunk arrives and is written, discarded as a duplicate, or counted as a violation. -/
  | chunkArrival (die : DieNo) (link : LinkNo) (beat : Nat) (slot : Fin 8) (id seq : BitVec 16) (data : List Byte)
  /-- R352: An arriving chunk's write is acknowledged and its credit is returned. -/
  | chunkWriteAck (die : DieNo) (link : LinkNo)
  /-- R355: Returned credits arrive in a CCB and are added, or are a credit violation. -/
  | creditReturn (die : DieNo) (link : LinkNo) (credits : BitVec 8)
  /-- R354: A NAK arrives, restoring a credit and resending from the named chunk. -/
  | nak (die : DieNo) (link : LinkNo) (beat : BitVec 8) (slot : Fin 8)
  /-- R363: The partner's SWITCH beat is received for an alternate set. -/
  | switch (die : DieNo) (link : LinkNo) (beat : BitVec 32)
  /-- R363: The switch beat arrives and the alternate records take effect, fenced streams resume and the stretch starts. -/
  | switchBeat (die : DieNo)
  /-- R363: No partner SWITCH 4 beats before the own switch beat; event 0x1804 is recorded. -/
  | switchWaitExpiry (die : DieNo) (link : LinkNo)
  /-- R367: The partner's READMIT k is received and the later value is taken. -/
  | readmit (die : DieNo) (link : LinkNo) (k : BitVec 32)
  /-- R358: W1 advances SCQ_CONS, freeing room for waiting completions. -/
  | scqCons (req : Requester) (die : DieNo) (value : BitVec 16)
  /-- R368: A transfer is incomplete after XFER_TO and completes TIMEOUT, halting the stream. -/
  | xferTo (die : DieNo) (id : BitVec 16)
  /-- R368: A sending link holds no credit for CREDIT_TO and is isolated with CREDIT_VIOL. -/
  | creditTo (die : DieNo) (link : LinkNo)
  /-- R368: A completion waits beyond SCQ_TO; event 0x1806 and a stream-fault record. -/
  | scqTo (die : DieNo)
  /-- R383: OPEN checks the die's state, number, partitions, rings, fence and wardens and opens the context. -/
  | openCtx (req : Requester) (die : DieNo)
  /-- R384: SERVE checks the keyring and heap and starts loading the bay images. -/
  | serve (req : Requester) (die : DieNo)
  /-- R384: The bay images are loaded and the context enters SERVING. -/
  | bayImageLoaded (die : DieNo) (ecc : Ecc)
  /-- R385: DRAIN enters DRAINING and aborts runs entering at or after DRAIN_SYNC. -/
  | drain (req : Requester) (die : DieNo)
  /-- R388: CLOSE stops the array, abandons copies and discards completions. -/
  | close (req : Requester) (die : DieNo)
  /-- R388: Closing ends, heap and carve-out lock are cleared and the context reads CLOSED. -/
  | closeDone (die : DieNo)
  /-- R390: SUB_PUSH copies the staged descriptor into the submission ring, or is discarded. -/
  | subPush (req : Requester) (die : DieNo)
  /-- R391: The run controller takes a descriptor from the ring and checks and admits or refuses it. -/
  | runTake (die : DieNo)
  /-- R395: A run's input copy ends and the entry key's SHADOW_READY may be set. -/
  | inputCopyDone (die : DieNo) (ecc : Ecc)
  /-- R396: A run's output copy is acknowledged and the run's completion record is written. -/
  | outputCopyDone (die : DieNo) (ecc : Ecc)
  /-- R398: The host advances CQ_CONS, freeing room for waiting completions. -/
  | cqCons (req : Requester) (die : DieNo) (value : BitVec 16)
  /-- R402: The host advances FQ_CONS on the tray fault ring. -/
  | fqCons (req : Requester) (die : DieNo) (value : BitVec 16)
  /-- R405: FWD_POP removes the oldest record from FWDQ. -/
  | fwdPop (req : Requester) (die : DieNo)
  /-- R423: OUT scans the selected regions into a SCAN slot, at once or at the next hinge. -/
  | scanOut (req : Requester) (die : DieNo)
  /-- R426: IN checks an image and writes its selected regions back. -/
  | scanIn (req : Requester) (die : DieNo) (ecc : Ecc)
  /-- R425: A scan completes, setting VALID_MAP and recording 0x1440 or 0x1441. -/
  | scanDone (die : DieNo) (cycles : BitVec 24)
  /-- R429: In a forced change the tile PLL locks at the target and the clock is released. -/
  | tilePllLock (die : DieNo) (ecc : Ecc)
  /-- R445: ENABLE of AFECTL waits for AFE_LOCK and calibrates both engines. -/
  | afeEnable (req : Requester)
  /-- R465: CAL0 or CAL1 starts a calibration of its engine after the running round. -/
  | calibrate (req : Requester) (engines : BitVec 2)
  /-- R447: A calibration ends, storing offsets and gains or keeping the old ones with CAL_FAIL. -/
  | calibrationDone (engine : Fin 2) (zero full : List (BitVec 24)) (tia : List (BitVec 32))
  /-- R450: A write of REQ posts a measurement request for a profile. -/
  | afeRequest (req : Requester) (port : Fin 5) (profile : BitVec 6)
  /-- R451: A round starts, snapshots and checks its profile and switches the crosspoint. -/
  | roundStart (engine : Fin 2)
  /-- R453: A conversion of a round ends and the next phase or the answer follows. -/
  | conversionDone (engine : Fin 2) (code : BitVec 32) (outA outB : Bool)
  /-- R470: AFE_LOCK falls; running rounds are abandoned and requests are answered STALE and ABANDONED. -/
  | afeClockLost
  /-- R478: FEED evaluates a sensor sample, updating its state, value, rate and zones. -/
  | feed (req : Requester) (window : Fin 2)
  /-- R482: A sensor's last sample exceeds MAX_AGE and it goes STALE. -/
  | sensorStale (sensor : Fin 48)
  /-- R493: MC1 asks for one more throttle step when a forecast runs short. -/
  | throttleStep (zone : Fin 16)
  /-- R494: Zones have stayed cool for RELEASE_MS and MC1 asks for I to fall. -/
  | throttleRelease (zone : Fin 16)
  /-- R487: A zone at TRIP makes MC0 assert FENCE_n of its dies within 10 ms. -/
  | zoneTripFence (zone : Fin 16)
  /-- R509: The cooling controller computes zone demands and fan and pump duties. -/
  | controlPeriod
  /-- R507: A PWM period starts and a new duty takes effect. -/
  | pwmPeriod
  /-- R508: A tachometer rising edge updates the channel's speed. -/
  | tachEdge (channel : Fin 14) (us width : Nat)
  /-- R516: An armed fan or pump stays below TACH_MIN for TACH_TIME and FAULT is set with a boost. -/
  | tachFault (channel : Fin 14)
  /-- R517: A flow pulse is counted in the sliding window. -/
  | flowPulse (input : Fin 2)
  /-- R517: An armed flow input stays below FLOW_MIN for FLOW_TIME, boosting both pumps. -/
  | flowFault (input : Fin 2)
  /-- R518: A W1C clear of a cooling FAULT ends its boost once the condition has ended. -/
  | faultClear (req : Requester) (channel : Fin 16)
  /-- R523: A leak line current crosses a comparator threshold and the 20 ms filter starts. -/
  | leakCrossing (channel : Fin 4) (current : Nat)
  /-- R523: A crossing has lasted 20 ms and the comparator changes side. -/
  | leakFilterDone (channel : Fin 4) (leak : Bool)
  /-- R524: The leak-settle wait ends and unreleased channels are UNPROVEN with their trip latched. -/
  | leakSettleEnd
  /-- R527: MC2 measures each leak channel's current once per second and sets WARN. -/
  | leakMeasure (channel : Fin 4) (value : Nat) (ovr : Bool)
  /-- R543: ENABLE checks the timing set and, if it passes, runs bus recovery. -/
  | twoWireEnable (req : Requester) (bus : Fin 6)
  /-- R544: CLAIM grants a free two-wire bus to the core or answers BUSY. -/
  | twClaim (req : Requester) (bus : Fin 6) (core : McNo)
  /-- R545: RELEASE by the owner returns the controller to its reset-safe state. -/
  | twRelease (req : Requester) (bus : Fin 6) (core : McNo)
  /-- R547: GO with OP WRITE sends WLEN bytes to the target. -/
  | twWrite (req : Requester) (bus : Fin 6) (pec : Bool) (address : BitVec 7) (segment : Fin 8)
  /-- R547: GO with OP READ reads RLEN bytes into RXBUF. -/
  | twRead (req : Requester) (bus : Fin 6) (pec : Bool) (address : BitVec 7) (segment : Fin 8)
  /-- R547: GO with OP WRITE_READ writes bytes then reads after a repeated START. -/
  | writeRead (req : Requester) (bus : Fin 6) (pec : Bool) (address : BitVec 7) (segment : Fin 8)
  /-- R547: GO with OP BLOCK_READ writes bytes then reads a count and that many bytes. -/
  | blockRead (req : Requester) (bus : Fin 6) (pec : Bool) (address : BitVec 7) (segment : Fin 8)
  /-- R548: A two-wire transaction ends with a result, followed by recovery where named. -/
  | transactionEnd (bus : Fin 6) (result : TwEnd) (count : Fin 257) (data : List Byte) (blockCount pec : Byte)
  /-- R550: ABORT ends a running transaction at once and recovery follows. -/
  | abort (req : Requester) (bus : Fin 6)
  /-- R549: A target stretches SCL beyond STRETCH_MAX and the transaction ends with STRETCH. -/
  | stretchTimeout (bus : Fin 6)
  /-- R549: A transaction has not ended after XFER_MAX and ends with TIMEOUT. -/
  | transactionTimeout (bus : Fin 6)
  /-- R552: Bus recovery ends in success, or in SEG_STUCK or BUS_STUCK. -/
  | recoveryEnd (bus : Fin 6) (ok scl trunkHigh : Bool)
  /-- R553: CLEAR_STUCK clears BUS_STUCK and SEG_STUCK and recovers the trunk. -/
  | clearStuck (req : Requester) (bus : Fin 6)
  /-- R568: A writer presents an event record, which is admitted, suppressed or refused BUSY. -/
  | recordPresent (writer : Writer) (code : BitVec 16) (origin : BitVec 24) (arg0 arg1 : BitVec 32) (aux : BitVec 16) (waiting : Fin 17)
  /-- R572: A die record arrives over the sideband and its TIME is reconstructed from AGE. -/
  | dieRecord (die : DieNo)
  /-- R569: RESERVE reserves a ring slot with SEQ and TIME for a management core's record. -/
  | reserve (req : Requester) (core : McNo)
  /-- R569: COMMIT copies the payload into the reserved slot and marks it valid. -/
  | commit (req : Requester) (core : McNo)
  /-- R569: CANCEL voids the reserved slot and records event 0x3803. -/
  | cancel (req : Requester) (core : McNo)
  /-- R569: A reservation held for 1 ms without COMMIT is voided. -/
  | reservationTimeout (core : McNo)
  /-- R574: Every 32 ticks each code's bucket gains RATE/1,024 tokens. -/
  | bucketRefill
  /-- R576: A sweep admits one record per code with a non-zero suppressed count. -/
  | sweep
  /-- R580: EVREC.FLUSH triggers a flush to the end. -/
  | evrecFlush (req : Requester)
  /-- R583: CLEAR_FLASH_FAULT clears the fault, re-erases the next blocks and resumes flushing. -/
  | evrecClearFlashFault (req : Requester)
  /-- R579: A flash page program completes and the next program or mark write follows. -/
  | pageProgramDone (ok : Bool)
  /-- R581: A block erase ends and a paused flush resumes. -/
  | eraseDone (ok : Bool)
  /-- R583: An erase has not ended within 3 s; FLASH_FAULT is set and flushing stops. -/
  | eraseTimeout
  /-- R582: 7.0 ms after power-fail assertion no further program starts. -/
  | pfFlushLimit
  /-- R584: The recorder finds the last valid flash record, sets HEAD and admits event 0x3806. -/
  | startupSearchDone
  /-- R585: A write of RD_SEQ copies a ring slot and sets RD_STATUS. -/
  | rdSeq (req : Requester) (window : Fin 5) (seq : BitVec 32)
  /-- R587: A write of FL_SEQ starts a read of a flash slot. -/
  | flSeq (req : Requester) (window : Fin 5) (seq : BitVec 32)
  /-- R587: A flash slot read completes and FL_STATUS is set. -/
  | flashReadDone (window : Fin 5) (read : Option (List (BitVec 32)))
  /-- R573: CM_SET sets CM_CODE's class, refused for class-0 codes. -/
  | cmSet (req : Requester)
  /-- R601: A frame with framing or CRC error is discarded and counted. -/
  | frameError (framing : Bool)
  /-- R606: Hardware answers a PING frame with tray status. -/
  | ping (frame : Frame)
  /-- R606: MC3 answers a STATUS frame with tray and die summary. -/
  | status (event : FrameEvent)
  /-- R607: An OP_SET frame has MC0 post OP_CHANGE or OP_FORCE to every die in service. -/
  | opSet (event : FrameEvent)
  /-- R607: A THROTTLE frame has MC0 post THROTTLE to every die in service. -/
  | throttleFrame (event : FrameEvent)
  /-- R607: A TEST_SLOT frame has MC0 post TEST_SLOT to every die in service. -/
  | testSlotFrame (event : FrameEvent)
  /-- R616: A TIME broadcast makes MC3 step the calendar forward or slew it. -/
  | time (event : FrameEvent)
  /-- R619: A SET_TAG frame writes INST_TAG once, guarded by TRAY_ID. -/
  | setTag (event : FrameEvent)
  /-- R621: A matching RESET_ARM frame writes CSYS.ARM. -/
  | resetArm (frame : Frame)
  /-- R621: A matching RESET_FIRE frame writes CSYS.FIRE. -/
  | resetFire (frame : Frame)
  /-- R608: MC3 has not committed a reply within 1,000 µs and hardware answers BUSY. -/
  | replyDeadline
  /-- R608: TX_COMMIT sends the reply to the head frame and pops it. -/
  | txCommit (req : Requester)
  /-- R608: RX_POP removes the head frame of the receive queue. -/
  | rxPop (req : Requester)
  /-- R599: A transmitted bit mismatch abandons the reply and counts a collision. -/
  | collision
  /-- R611: 2.000 s without a valid frame sets SILENT and drives cooling to full. -/
  | silence
  /-- R615: The calendar adds a tick, or omits one in 32 while SLEW counts down. -/
  | calendarTick
  /-- R614: A load of the calendar pair is applied only if not earlier than tray time. -/
  | calendarLoad (req : Requester) (value : BitVec 64)
  /-- R615: A write of SLEW sets the count of ticks to omit. -/
  | slew (req : Requester) (ticks : BitVec 24)
  /-- R613: VDDIO_H crosses 3.00 V and the calendar changes supply without losing a tick. -/
  | supplySwitchover (millivolts : BitVec 16)
  /-- R617: VBAT is sampled once per second and BAT_LOW is set or cleared. -/
  | vbatSample (millivolts : BitVec 16)
  /-- R623: A write to REVOKEk revokes or permanently keeps signing key k. -/
  | revoke (req : Requester) (key : Fin 4) (value : BitVec 1)
  /-- R633: MC0 asserts FENCE_n through FENCE_SET. -/
  | fenceSet (req : Requester) (mask : BitVec 8)
  /-- R633: MC0 asserts TRIP_n through TRIP_SET. -/
  | tripSet (req : Requester) (mask : BitVec 8)
  /-- R635: TRIP_REL releases TRIP_n for a die that is UP and not fenced. -/
  | tripRel (req : Requester) (mask : BitVec 8)
  /-- R26: FENCE_n reaches die n, which runs to its next hinge, quiesces, fences its links and refuses doorbells. -/
  | fenceAssert (die : DieNo)
  /-- R40: TRIP_n stops die n's clocks at once and holds it in die reset. -/
  | tripAssert (die : DieNo)
  /-- R641: THERM_ALERT_n rises; it is latched, recorded and cooling goes to full. -/
  | thermAlert (die : DieNo)
  /-- R641: THERM_ALERT_n held for TA_FENCE asserts FENCE_n. -/
  | thermAlertFence (die : DieNo)
  /-- R641: THERM_ALERT_n held for TA_TRIP asserts TRIP_n. -/
  | thermAlertTrip (die : DieNo)
  /-- R640: DIE_FAULT_n rises; the supervisor latches it and asserts FENCE_n within 2 µs. -/
  | dieFault (die : DieNo)
  /-- R637: FENCED_n is not set within FENCE_TO and TRIP_n is asserted. -/
  | fenceTo (die : DieNo)
  /-- R642: A write of a hard-limit supervisor limit takes effect at once and spends the field. -/
  | limitWrite (req : Requester) (word : Fin 4) (value : BitVec 32)
  /-- R647: FORM_GO checks the requested seven-die form change and sets FORM_STATE. -/
  | formGo (req : Requester) (die : DieNo)
  /-- R652: CLAIM grants a free semaphore or answers BUSY. -/
  | semClaim (req : Requester) (core : McNo)
  /-- R652: RELEASE by the owner frees the semaphore. -/
  | semRelease (req : Requester) (core : McNo)
  /-- R662: A write of REQ_TESTS ORs in requested tests and records event 0x2450 on change from 0. -/
  | reqTests (req : Requester) (die : DieNo) (tests : BitVec 3)
  /-- R668: The TUMBLER test ends and W0 acts on FAILED_COLS. -/
  | tumblerTestDone (die : DieNo) (failures : List TumblerFailure) (fixed : BitVec 32)
  /-- R669: The LINK test ends and marginal links are marked. -/
  | linkTestDone (die : DieNo) (spans : List LinkSpan)
  /-- R670: The MEMORY test ends and MT_CUR advances by the bytes covered. -/
  | memoryTestDone (die : DieNo) (units : BitVec 32) (ecc : Ecc)
  /-- R668: The automatic test interval expires and MC0 requests TUMBLER on every die. -/
  | testPeriodTimer
  /-- R671: 3,600 s or a 10 °C board move makes MC1 recalibrate an AFE engine. -/
  | afeCalPeriod (engine : Fin 2)
  /-- R683: A cage's MOD_3V3 load exceeds its limit for 1 ms and the cage supply is switched off. -/
  | cageOvercurrent (cage : Fin 16)
  /-- R683: Every 1 s a switched-off cage supply is retried. -/
  | cageRetry (cage : Fin 16)
  /-- R470: CCLK.AFE_LOCK rises, at ENABLE or after a loss, and both engines calibrate before serving rounds. -/
  | afePllLock
  /-- R641: THERM_ALERT_n is deasserted as the junction falls below 102 °C, clearing the TA_FENCE and TA_TRIP counts. -/
  | thermAlertRelease (die : DieNo)
  /-- R694: Both VDDIO_H and VBAT fall below 1.80 V, the calendar domain resets, tray time restarts at 0 and CAL_VALID clears. -/
  | calendarDomainReset
  /-- R134: After MAIN_ON the main bus ramp completes and IBC0 to IBC3 report power-good, so MAIN reads up and IBC_OK is set. -/
  | mainBusUp
  /-- R639: An HBM3E stack leaves the trained state, setting DFAULT.CAUSE.HBM and asserting DIE_FAULT_n. -/
  | hbmStackUntrained (die : DieNo) (stack : Fin 4)
  /-- R134: After TRIP_n is released the die PLLs lock and the fuse load completes, setting FUSES_LOADED so the endpoint can train. -/
  | dieFuseLoadDone (die : DieNo)
  deriving DecidableEq, Repr

end Sys2Proof
end

