-- ==== Sys2Proof/Decode.lean ====
section
/-! DEFINITION. Decoding: spec/opcode_table.json gives no row any bits, so no word spells a command. -/

namespace Sys2Proof

/-- The command a word of `nbits` bits spells: none, for the table's rows have no bits. [DESIGN CHOICE, log entry 8] -/
def decodeTableWord (_nbits _w : Nat) : Option Instr := none

end Sys2Proof
end

