-- ==== Sys2Proof/Config.lean ====
section
/-! DEFINITION. What the spec leaves to an implementation, and the free values: what the spec leaves open while the
machine goes on. Nothing constrains a free value (notes/assumptions/3.md). -/

namespace Sys2Proof.Config

/-- A free value: a 32-bit pattern the spec leaves open. State.freeCtr numbers the uses. -/
opaque freeValue : Nat → BitVec 32

/-- PAGE_REV of a page, by its block code + 65,536 times its chip: a stepping of the factory and a constant the spec does not state
(notes/assumptions/3.md). -/
opaque pageRev : Nat → BitVec 32

/-- Whether the NaN that a tumbler's floating-point operation produces has its sign set, by a number for the operation and
its operands: R193 gives both patterns, and R196 does not say which (notes/assumptions/20.md). -/
opaque nanSign : Nat → List Nat → Bool

/-- Whether VMAX or VMIN of two lanes that compare equal gives the second: of -0 and +0 R184 does not say which
(notes/assumptions/20.md). -/
opaque zeroTie : Bool → Nat → Nat → Bool

/-- A number that the tray's FRU record holds and the spec does not state, by a number of the model's own for it
(notes/assumptions/64.md, notes/assumptions/66.md). -/
opaque fruRecord : Nat → BitVec 32

/-- What a deep-memory byte that nothing has written reads as (DESIGN CHOICE, notes/assumptions/4.md). -/
def unwrittenByte : BitVec 8 := 0

end Sys2Proof.Config
end

