-- ==== Sys2Proof/Machine/Reg.lean ====
section
/-! DEFINITION. What a register field is: its place, width, access kind (R14), reset value (R15), writers (R52),
and whether it is shadowed (R62). A field of one chip and one index is a `Field`; its key is its bit address. -/

namespace Sys2Proof.Machine

/-- The access kinds of R14 (spec/00_scope.md). -/
inductive Access where
  | rw | ro | wo | w1c | w1s | sc | cnt | lk | otw | fuse
  deriving DecidableEq, Repr

/-- The reset domains of R59 that the owning chapters name. -/
inductive Domain where
  | die | por | tray | cal
  deriving DecidableEq, Repr

/-- A field of a field table. Field number `i` of an array lies at
`off + pstride * (i / per) + stride * (i % per)`. -/
structure Reg where
  off : Nat
  lo : Nat
  width : Nat
  kind : Access
  reset : Nat
  count : Nat
  stride : Nat
  per : Nat
  pstride : Nat
  shadowed : Bool
  writers : List Nat
  eachWriter : List Nat
  resets : List Nat
  factory : Bool
  internal : Bool
  deriving DecidableEq, Repr

/-- One field of one chip: the key it is stored under, its width and what it reads after reset. -/
structure Field where
  key : Nat
  width : Nat
  reset : Nat
  factory : Bool
  deriving DecidableEq, Repr

/-- A page or a row of equal pages, 4 KiB apart (R45). -/
structure Page where
  base : Nat
  pages : Nat
  block : Nat
  domain : Domain
  regs : List Reg
  deriving DecidableEq, Repr

/-- A single field. [DESIGN CHOICE, log entry 1] -/
def reg (off lo width : Nat) (kind : Access) (reset : Nat) : Reg :=
  ⟨off, lo, width, kind, reset, 1, 0, 1, 0, false, [], [], [], false, false⟩

/-- An array of `count` fields. -/
def Reg.arr (r : Reg) (count stride : Nat) (per : Nat := count) (pstride : Nat := 0) : Reg :=
  { r with count := count, stride := stride, per := per, pstride := pstride }

/-- A shadowed field (R62). -/
def Reg.shadow (r : Reg) : Reg := { r with shadowed := true }

/-- A field that accepts writes only from the requesters named (R52). -/
def Reg.only (r : Reg) (ws : List Nat) : Reg := { r with writers := ws }

/-- An array each of whose fields has one writer (R52). -/
def Reg.each (r : Reg) (ws : List Nat) : Reg := { r with eachWriter := ws }

/-- An array whose fields have reset values of their own. -/
def Reg.inits (r : Reg) (vs : List Nat) : Reg := { r with resets := vs }

/-- A field whose reset value is `F`: it is read from the factory store (R15). [DESIGN CHOICE, log entry 2] -/
def Reg.fac (r : Reg) : Reg := { r with factory := true }

/-- A field of the model's own, internal to an engine: no page shows it. [DESIGN CHOICE, log entry 1] -/
def ireg (off width reset : Nat) : Reg :=
  { reg (off * 4) 0 width .ro reset with internal := true }

/-- An array of internal fields. [DESIGN CHOICE, log entry 1] -/
def iarr (off width reset count : Nat) : Reg := (ireg off width reset).arr count 4

/-- The key of the field at BAR0 offset `off`, bit `lo`, of a chip. [DESIGN CHOICE, log entry 10] -/
def fieldKey (chip off lo : Nat) : Nat := chip * 536870912 + off * 32 + lo

/-- The BAR0 offset of field `i` of an array. -/
def Reg.offset (r : Reg) (i : Nat) : Nat := r.off + r.pstride * (i / r.per) + r.stride * (i % r.per)

/-- The chip number internal fields are kept under. -/
def Reg.chipOf (r : Reg) (chip : Nat) : Nat := if r.internal then chip + 16 else chip

/-- Field `i` of a register of a chip. -/
def Reg.at (r : Reg) (chip i : Nat) : Field :=
  { key := fieldKey (r.chipOf chip) (r.offset i) r.lo, width := r.width,
    reset := r.resets.getD i r.reset, factory := r.factory }

/-- The field of a chip, for a register that is no array. -/
def Reg.on (r : Reg) (chip : Nat) : Field := r.at chip 0

/-- The chip number of the Clachasel. -/
def clachasel : Nat := 8

/-- A field of the Clachasel. -/
def Reg.cl (r : Reg) : Field := r.at clachasel 0

/-- Field `i` of an array of the Clachasel. -/
def Reg.clAt (r : Reg) (i : Nat) : Field := r.at clachasel i

end Sys2Proof.Machine
end

