-- ==== Sys2Proof/Machine/RegsClachasel.lean ====
section
/-! DEFINITION. The register fields of every page of the Clachasel, one definition a field, from the field tables of spec/. -/

namespace Sys2Proof.Machine

/-! Page CSYS, spec/04_start_of_day.md. -/
namespace CSYS
/-- 1 STANDBY, 2 MGMT_READY, 3 RAILS_UP, 4 DIES_READY, 5 CONTEXT_OPEN, 6 SERVING -/
def TRAY_STATE : Reg := reg 0x40 0 3 .ro 1
/-- 0 NONE, 1 SIG_BAD, 2 LEAK_UNPROVEN, 3 CORE_START, 4 DIES_SHORT -/
def STBY_CAUSE : Reg := reg 0x40 8 4 .ro 0
/-- Bit k: LKk unproven, under R129 -/
def LEAK_CH : Reg := reg 0x40 16 4 .ro 0
/-- The bundle check of this standby period passed -/
def BUNDLE_OK : Reg := reg 0x40 24 1 .ro 0
/-- Bit k: MCk has started -/
def CORE_READY : Reg := reg 0x44 0 4 .ro 0
/-- Bit n: die n has recorded DIE_READY -/
def DIE_READY : Reg := reg 0x44 8 8 .ro 0
/-- Bit n: die n is in service, under R133 -/
def DIE_INSERV : Reg := reg 0x44 16 8 .ro 0
/-- Arms a tray reset, under R138 -/
def ARM : Reg := reg 0x48 0 1 .sc 0
/-- Fires an armed tray reset -/
def FIRE : Reg := reg 0x48 1 1 .sc 0
/-- Next tray state. Written by MC3 only, under R132. -/
def TRANS_REQ : Reg := reg 0x4C 0 3 .wo 0 |>.only [4]
/-- ms allowed from TRIP_n release to DIE_READY -/
def DIE_READY_TO : Reg := reg 0x50 0 16 .rw 0x7D0
/-- The page: base, pages, block code, reset domain, fields. -/
def page : Page :=
  ⟨0, 1, 0x2000, .por, [ TRAY_STATE, STBY_CAUSE, LEAK_CH, BUNDLE_OK, CORE_READY, DIE_READY, DIE_INSERV, ARM, FIRE, TRANS_REQ, DIE_READY_TO ]⟩
end CSYS

/-! Page CCLK, spec/04_start_of_day.md. -/
namespace CCLK
/-- Core PLL locked -/
def CORE_LOCK : Reg := reg 0x1040 0 1 .ro 0
/-- Core clock in fallback, under R121. Level-held while unlocked. -/
def CORE_FALLBACK : Reg := reg 0x1040 1 1 .w1c 0
/-- AFE PLL locked -/
def AFE_LOCK : Reg := reg 0x1040 2 1 .ro 0
/-- Supervisor-line PLL locked -/
def SUPV_LOCK : Reg := reg 0x1040 3 1 .ro 0
/-- Calendar oscillator running -/
def CAL_RUN : Reg := reg 0x1040 4 1 .ro 0
/-- The page: base, pages, block code, reset domain, fields. -/
def page : Page :=
  ⟨0x1000, 1, 0x2001, .por, [ CORE_LOCK, CORE_FALLBACK, AFE_LOCK, SUPV_LOCK, CAL_RUN ]⟩
end CCLK

/-! Page CRST, spec/04_start_of_day.md. -/
namespace CRST
/-- The last reset was a power-on reset -/
def POR : Reg := reg 0x2040 0 1 .ro 1
/-- The last tray reset came from the host -/
def TRAY_HOST : Reg := reg 0x2040 1 1 .ro 0
/-- The last tray reset came from the supervisor line -/
def TRAY_SUPV : Reg := reg 0x2040 2 1 .ro 0
/-- Tray resets since power-on -/
def TRAY_RESETS : Reg := reg 0x2044 0 16 .cnt 0
/-- Byte k: watchdog resets of MCk, each saturating at 0xFF -/
def MC_WDT : Reg := reg 0x2048 0 32 .cnt 0
/-- The page: base, pages, block code, reset domain, fields. -/
def page : Page :=
  ⟨0x2000, 1, 0x2002, .por, [ POR, TRAY_HOST, TRAY_SUPV, TRAY_RESETS, MC_WDT ]⟩
end CRST

/-! Page CSB, spec/04_start_of_day.md. -/
namespace CSB
/-- Sideband of die n is exchanging frames -/
def UP : Reg := reg 0x3040 0 1 .ro 0 |>.arr 8 4
/-- Marked down under R141. Level-held until a frame succeeds. -/
def DOWN : Reg := reg 0x3040 1 1 .w1c 0 |>.arr 8 4
/-- SB_IRQ_n is asserted -/
def IRQ : Reg := reg 0x3040 2 1 .ro 0 |>.arr 8 4
/-- Frames with a bad CRC -/
def CRC_ERR : Reg := reg 0x3040 8 8 .cnt 0 |>.arr 8 4
/-- Bit n enables the sideband of die n -/
def ENABLE : Reg := reg 0x3060 0 8 .rw 0xFF
/-- The page: base, pages, block code, reset domain, fields. -/
def page : Page :=
  ⟨0x3000, 1, 0x2003, .tray, [ UP, DOWN, IRQ, CRC_ERR, ENABLE ]⟩
end CSB

/-! Page SEQ, spec/03_rails.md. -/
namespace SEQ
/-- Close the main switch and enable IBC0 to IBC3 -/
def MAIN_ON : Reg := reg 0x8040 0 1 .sc 0
/-- Open the main switch. Discarded unless every die reads OFF. -/
def MAIN_OFF : Reg := reg 0x8040 1 1 .sc 0
/-- Bring up the dies in DIE_MASK -/
def UP : Reg := reg 0x8040 2 1 .sc 0
/-- Take down the dies in DIE_MASK, under R88 -/
def DOWN : Reg := reg 0x8040 3 1 .sc 0
/-- Setpoint tables loaded (order 3 of R83) -/
def SETPT_OK : Reg := reg 0x8040 4 1 .sc 0
/-- Bit n selects die n -/
def DIE_MASK : Reg := reg 0x8040 8 8 .rw 0
/-- 0 off, 1 ramping, 2 up, 3 fault -/
def MAIN : Reg := reg 0x8044 0 2 .ro 0
/-- 3 bits per die from bit 8: 0 OFF, 1 RAMP_UP, 2 UP, 3 RAMP_DOWN, 4 TRIPPED -/
def DIE_STATE : Reg := reg 0x8044 8 24 .ro 0
/-- µs from power-good to the next enable. Minimum 100. -/
def GAP_US : Reg := reg 0x8048 0 8 .lk 0xC8
/-- In units of 100 µs -/
def PG_TIMEOUT : Reg := reg 0x8048 8 8 .lk 0x32
/-- In units of 100 µs -/
def STAGGER : Reg := reg 0x8048 16 8 .lk 0x14
/-- Register RAIL_FAULT. Order number of R83, 1–8, of the first failing step: a rail, or 3 for a SETPT_OK timeout under R85. 0 means no fault. -/
def RAIL_FAULT_RAIL : Reg := reg 0x804C 0 4 .ro 0
/-- Die of that rail -/
def RAIL_FAULT_DIE : Reg := reg 0x804C 4 3 .ro 0
/-- RAIL and DIE hold a fault -/
def RAIL_FAULT_VALID : Reg := reg 0x804C 8 1 .w1c 0
/-- Cause: power-good timeout under R85 -/
def RAIL_FAULT_TIMEOUT : Reg := reg 0x804C 9 1 .ro 0
/-- Cause: power-good loss under R87 -/
def RAIL_FAULT_LOST : Reg := reg 0x804C 10 1 .ro 0
/-- Converter k is up -/
def IBC_OK : Reg := reg 0x8050 0 4 .ro 0
/-- Converter k was lost, under R89 -/
def IBC_LOST : Reg := reg 0x8050 4 4 .w1c 0
/-- The page: base, pages, block code, reset domain, fields. -/
def page : Page :=
  ⟨0x8000, 1, 0x2100, .por, [ MAIN_ON, MAIN_OFF, UP, DOWN, SETPT_OK, DIE_MASK, MAIN, DIE_STATE, GAP_US, PG_TIMEOUT, STAGGER, RAIL_FAULT_RAIL, RAIL_FAULT_DIE, RAIL_FAULT_VALID, RAIL_FAULT_TIMEOUT, RAIL_FAULT_LOST, IBC_OK, IBC_LOST ]⟩
end SEQ

/-! Page OPCTL, spec/03_rails.md. -/
namespace OPCTL
/-- 0 rack-coordinated, 1 tray-local, under R98 -/
def MODE : Reg := reg 0x9040 0 1 .lk 0
/-- Die n's running point -/
def RUN_OP : Reg := reg 0x9044 0 3 .ro 0 |>.arr 8 4
/-- Code driven on OPSEL_n -/
def OPSEL : Reg := reg 0x9044 4 3 .ro 0 |>.arr 8 4
/-- Current transition ID -/
def TID : Reg := reg 0x9044 8 8 .ro 0 |>.arr 8 4
/-- A slew is in progress -/
def SLEWING : Reg := reg 0x9044 16 1 .ro 0 |>.arr 8 4
/-- Die n, point k setpoint in mV, valid after order 3 -/
def VCORE_MV : Reg := reg 0x9100 0 10 .ro 0 |>.arr 64 4 8 0x20
/-- As above, for VSRAM -/
def VSRAM_MV : Reg := reg 0x9100 16 10 .ro 0 |>.arr 64 4 8 0x20
/-- The page: base, pages, block code, reset domain, fields. -/
def page : Page :=
  ⟨0x9000, 1, 0x2101, .por, [ MODE, RUN_OP, OPSEL, TID, SLEWING, VCORE_MV, VSRAM_MV ]⟩
end OPCTL

/-! Page MBXPOST, spec/03_rails.md. -/
namespace MBXPOST
/-- Target die -/
def DIE : Reg := reg 0xA040 0 3 .rw 0 |>.arr 4 0x20 |>.each [1, 2, 3, 4]
/-- Claim a free slot -/
def CLAIM : Reg := reg 0xA040 8 1 .sc 0 |>.arr 4 0x20 |>.each [1, 2, 3, 4]
/-- Claimed slot 0–7, or 0xFF (BUSY) -/
def SLOT : Reg := reg 0xA040 16 8 .ro 0xFF |>.arr 4 0x20
/-- SLOT is valid -/
def CLAIM_DONE : Reg := reg 0xA040 24 1 .ro 0 |>.arr 4 0x20
/-- Payload, laid out as in the die slot -/
def PARAM : Reg := reg 0xA044 0 32 .rw 0 |>.arr 4 0x20 |>.each [1, 2, 3, 4]
/-- Payload, laid out as in the die slot -/
def HINGE : Reg := reg 0xA048 0 32 .rw 0 |>.arr 4 0x20 |>.each [1, 2, 3, 4]
/-- Payload, laid out as in the die slot -/
def TAG : Reg := reg 0xA04C 0 32 .rw 0 |>.arr 4 0x20 |>.each [1, 2, 3, 4]
/-- Kind to send -/
def KIND : Reg := reg 0xA050 4 4 .rw 0 |>.arr 4 0x20 |>.each [1, 2, 3, 4]
/-- Write the payload, then CTRL with VALID = 1 -/
def SEND : Reg := reg 0xA050 0 1 .sc 0 |>.arr 4 0x20 |>.each [1, 2, 3, 4]
/-- Mirror of the die slot's STATUS -/
def STATUS : Reg := reg 0xA054 0 4 .ro 0 |>.arr 4 0x20
/-- Mirror of the die slot's TID -/
def TID : Reg := reg 0xA054 8 8 .ro 0 |>.arr 4 0x20
/-- Clear VALID and free the slot. Discarded before a terminal status. -/
def RELEASE : Reg := reg 0xA058 0 1 .sc 0 |>.arr 4 0x20 |>.each [1, 2, 3, 4]
/-- The page: base, pages, block code, reset domain, fields. -/
def page : Page :=
  ⟨0xA000, 1, 0x2102, .por, [ DIE, CLAIM, SLOT, CLAIM_DONE, PARAM, HINGE, TAG, KIND, SEND, STATUS, TID, RELEASE ]⟩
end MBXPOST

/-! Page PFAIL, spec/03_rails.md. -/
namespace PFAIL
/-- Power-fail asserted, under R113 -/
def PF_NOW : Reg := reg 0xB040 0 1 .ro 0
/-- Power-fail was asserted since last cleared. Level-held while PF_NOW is 1. -/
def PF_SEEN : Reg := reg 0xB040 1 1 .w1c 0
/-- 48 V input in 10 mV units, updated every 1 ms -/
def VIN : Reg := reg 0xB044 0 16 .ro 0
/-- Power-fail assertions since power-on -/
def PF_COUNT : Reg := reg 0xB048 0 16 .cnt 0
/-- The page: base, pages, block code, reset domain, fields. -/
def page : Page :=
  ⟨0xB000, 1, 0x2103, .por, [ PF_NOW, PF_SEEN, VIN, PF_COUNT ]⟩
end PFAIL

/-! Page BLOAD, spec/05_firmware.md. -/
namespace BLOAD
/-- Host address of the bundle, a 64-bit pair under R48 -/
def SRC_LO : Reg := reg 0x10040 0 32 .rw 0
/-- Host address of the bundle, a 64-bit pair under R48 -/
def SRC_HI : Reg := reg 0x10044 0 32 .rw 0
/-- Bundle size S in bytes -/
def LEN : Reg := reg 0x10048 0 25 .rw 0
/-- Fetch the bundle into staging memory, under R147 -/
def FETCH : Reg := reg 0x1004C 0 1 .sc 0
/-- Start the check of R130 and R146 -/
def CHECK : Reg := reg 0x1004C 1 1 .sc 0
/-- A fetch is running -/
def FETCHING : Reg := reg 0x10050 0 1 .ro 0
/-- Staging memory holds LEN bytes -/
def FETCHED : Reg := reg 0x10050 1 1 .ro 0
/-- A check is running -/
def CHECKING : Reg := reg 0x10050 2 1 .ro 0
/-- 0 NONE, 1 OK, 2 SIG_BAD, 3 FORMAT, 4 SECTIONS, 5 DIGEST, 6 IMAGE, 7 FETCH_ERR -/
def VERDICT : Reg := reg 0x10050 4 4 .ro 0
/-- Bundle ID, valid when VERDICT is OK -/
def BUNDLE_ID_LO : Reg := reg 0x10054 0 32 .ro 0
/-- Bundle ID, valid when VERDICT is OK -/
def BUNDLE_ID_HI : Reg := reg 0x10058 0 32 .ro 0
/-- Low word of KEY_INDEX of the verified bundle -/
def KEY_INDEX : Reg := reg 0x1005C 0 32 .ro 0
/-- Checks run since tray reset -/
def CHECKS : Reg := reg 0x10060 0 16 .cnt 0
/-- The page: base, pages, block code, reset domain, fields. -/
def page : Page :=
  ⟨0x10000, 1, 0x2200, .tray, [ SRC_LO, SRC_HI, LEN, FETCH, CHECK, FETCHING, FETCHED, CHECKING, VERDICT, BUNDLE_ID_LO, BUNDLE_ID_HI, KEY_INDEX, CHECKS ]⟩
end BLOAD

/-! Page MCCTL, spec/05_firmware.md. -/
namespace MCCTL
/-- Released and not in core reset -/
def RUNNING : Reg := reg 0x11040 0 1 .ro 0 |>.arr 4 0x20
/-- Held under R156 -/
def HELD : Reg := reg 0x11040 1 1 .ro 0 |>.arr 4 0x20
/-- Watchdog fires in the last 10 s -/
def FIRES_10S : Reg := reg 0x11040 8 8 .ro 0 |>.arr 4 0x20
/-- Timeout in 10 µs units, under R154; written by MCk only -/
def WDT_TIMEOUT : Reg := reg 0x11044 0 20 .lk 0x2710 |>.arr 4 0x20 |>.each [1, 2, 3, 4]
/-- 0xA5C3 reloads the count; written by MCk only -/
def WDT_KICK : Reg := reg 0x11048 0 16 .wo 0 |>.arr 4 0x20 |>.each [1, 2, 3, 4]
/-- Count remaining, in 10 µs units -/
def WDT_REMAIN : Reg := reg 0x1104C 0 20 .ro 0 |>.arr 4 0x20
/-- RESTART offset in force -/
def RESTART_PC : Reg := reg 0x11050 0 18 .ro 0 |>.arr 4 0x20
/-- 0 release, 1 watchdog -/
def LAST_CAUSE : Reg := reg 0x11054 0 1 .ro 0 |>.arr 4 0x20
/-- Fires within 10 s before a core is held -/
def RESTART_LIMIT : Reg := reg 0x110C0 0 4 .lk 3
/-- The page: base, pages, block code, reset domain, fields. -/
def page : Page :=
  ⟨0x11000, 1, 0x2201, .tray, [ RUNNING, HELD, FIRES_10S, WDT_TIMEOUT, WDT_KICK, WDT_REMAIN, RESTART_PC, LAST_CAUSE, RESTART_LIMIT ]⟩
end MCCTL

/-! Page EMU, spec/05_firmware.md. -/
namespace EMU
/-- The page is served, under R159 -/
def SERVED : Reg := reg 0x80040 0 1 .ro 0
/-- MC3 is running and not held -/
def MC3_RUN : Reg := reg 0x80040 1 1 .ro 0
/-- Under R161 -/
def STALE : Reg := reg 0x80040 2 1 .ro 0
/-- Bit k: CMDk posted and not yet served -/
def PEND_MAP : Reg := reg 0x80044 0 20 .ro 0
/-- Context number attached to each posted command -/
def CTX_TAG : Reg := reg 0x80048 0 16 .rw 0
/-- Sequence number of the last posted command -/
def LAST_SEQ : Reg := reg 0x8004C 0 16 .ro 0
/-- Its register index -/
def LAST_CMD : Reg := reg 0x8004C 16 5 .ro 0
/-- Posts a command, under R162 -/
def CMD : Reg := reg 0x80080 0 32 .wo 0 |>.arr 20 4
/-- Value in force for CMDk, published -/
def VAL : Reg := reg 0x80100 0 32 .ro 0 |>.arr 20 4
/-- Under R164 -/
def RESULT_CODE : Reg := reg 0x80180 0 4 .ro 0 |>.arr 20 4
/-- Sequence number the code refers to -/
def RESULT_SEQ : Reg := reg 0x80180 16 16 .ro 0 |>.arr 20 4
/-- Snapshot count, under R160 -/
def PUB_SEQ : Reg := reg 0x80200 0 32 .ro 0
/-- Tray time of the snapshot, a pair under R48 -/
def PUB_TIME_LO : Reg := reg 0x80208 0 32 .ro 0
/-- Tray time of the snapshot, a pair under R48 -/
def PUB_TIME_HI : Reg := reg 0x8020C 0 32 .ro 0
/-- Published bundle ID -/
def BUNDLE_ID_LO : Reg := reg 0x80210 0 32 .ro 0
/-- Published bundle ID -/
def BUNDLE_ID_HI : Reg := reg 0x80214 0 32 .ro 0
/-- As CSYS.TRAY_STATE at the snapshot -/
def TRAY_STATE : Reg := reg 0x80218 0 3 .ro 0
/-- As CSYS.STBY_CAUSE at the snapshot -/
def STBY_CAUSE : Reg := reg 0x80218 8 4 .ro 0
/-- Context number in force; 0x0000 for none -/
def CTX_NUM : Reg := reg 0x8021C 0 16 .ro 0
/-- Published summary words -/
def SUM_TEMP : Reg := reg 0x80400 0 32 .ro 0 |>.arr 128 4
/-- Published summary words -/
def SUM_COOL : Reg := reg 0x80600 0 32 .ro 0 |>.arr 128 4
/-- Published summary words -/
def SUM_OP : Reg := reg 0x80800 0 32 .ro 0 |>.arr 64 4
/-- Published summary words -/
def SUM_EVREC : Reg := reg 0x80900 0 32 .ro 0 |>.arr 64 4
/-- Published summary words -/
def SUM_TEST : Reg := reg 0x80A00 0 32 .ro 0 |>.arr 64 4
/-- The page: base, pages, block code, reset domain, fields. -/
def page : Page :=
  ⟨0x80000, 1, 0x2F00, .tray, [ SERVED, MC3_RUN, STALE, PEND_MAP, CTX_TAG, LAST_SEQ, LAST_CMD, CMD, VAL, RESULT_CODE, RESULT_SEQ, PUB_SEQ, PUB_TIME_LO, PUB_TIME_HI, BUNDLE_ID_LO, BUNDLE_ID_HI, TRAY_STATE, STBY_CAUSE, CTX_NUM, SUM_TEMP, SUM_COOL, SUM_OP, SUM_EVREC, SUM_TEST ]⟩
end EMU

/-! Page AFECTL, spec/14_afe.md. -/
namespace AFECTL
/-- Calibrate CE0 or CE1, under R465 -/
def CAL0 : Reg := reg 0x18040 0 1 .sc 0 |>.only [1, 2, 3, 4]
/-- Calibrate CE0 or CE1, under R465 -/
def CAL1 : Reg := reg 0x18040 1 1 .sc 0 |>.only [1, 2, 3, 4]
/-- A calibration is running -/
def CAL0_BUSY : Reg := reg 0x18044 0 1 .ro 0
/-- A calibration is running -/
def CAL1_BUSY : Reg := reg 0x18044 1 1 .ro 0
/-- Under R447 -/
def CE0_UNCAL : Reg := reg 0x18044 2 1 .ro 0
/-- Under R447 -/
def CE1_UNCAL : Reg := reg 0x18044 3 1 .ro 0
/-- A round is running -/
def CE0_ROUND : Reg := reg 0x18044 4 1 .ro 0
/-- A round is running -/
def CE1_ROUND : Reg := reg 0x18044 5 1 .ro 0
/-- Requests queued -/
def CE0_QUEUE : Reg := reg 0x18044 8 3 .ro 0
/-- Requests queued -/
def CE1_QUEUE : Reg := reg 0x18044 12 3 .ro 0
/-- Profile of the running round -/
def CE0_PROFILE : Reg := reg 0x18048 0 6 .ro 0
/-- Profile of the running round -/
def CE1_PROFILE : Reg := reg 0x18048 8 6 .ro 0
/-- Bit k: AXk is held in a source role, under R452 -/
def PINS_CE0 : Reg := reg 0x1804C 0 32 .ro 0
/-- Bit k: AXk is held in a source role, under R452 -/
def PINS_CE1 : Reg := reg 0x18050 0 32 .ro 0
/-- 0 free, 1 CE0, 2 CE1 -/
def IEXA_OWNER : Reg := reg 0x18054 0 2 .ro 0
/-- 0 free, 1 CE0, 2 CE1 -/
def IEXB_OWNER : Reg := reg 0x18054 2 2 .ro 0
/-- Bit k: CEk holds VBIAS -/
def VBIAS_USERS : Reg := reg 0x18054 4 2 .ro 0
/-- As the profile's VBIAS code -/
def VBIAS_LEVEL : Reg := reg 0x18054 6 2 .ro 0
/-- Under R462 -/
def NEXT_SEQ : Reg := reg 0x18058 0 32 .ro 0
/-- Rounds started -/
def ROUNDS : Reg := reg 0x1805C 0 32 .cnt 0
/-- Under R452 -/
def PIN_WAITS : Reg := reg 0x18060 0 32 .cnt 0
/-- Under R466 and R470 -/
def STALE_ANSWERS : Reg := reg 0x18064 0 32 .cnt 0
/-- Under R449 -/
def BAD_PROFILES : Reg := reg 0x18068 0 32 .cnt 0
/-- Stored result selected -/
def SSEL : Reg := reg 0x1806C 0 6 .rw 0
/-- Stored result of MP[SSEL], laid out as a port's +0x08 to +0x1C -/
def S_VALUE : Reg := reg 0x18070 0 32 .ro 0
/-- Stored result of MP[SSEL], laid out as a port's +0x08 to +0x1C -/
def S_RAW : Reg := reg 0x18074 0 32 .ro 0
/-- Stored result of MP[SSEL], laid out as a port's +0x08 to +0x1C -/
def S_SEQ : Reg := reg 0x18078 0 32 .ro 0
/-- Stored result of MP[SSEL], laid out as a port's +0x08 to +0x1C -/
def S_FLAGS : Reg := reg 0x1807C 0 32 .ro 0
/-- Stored result of MP[SSEL], laid out as a port's +0x08 to +0x1C -/
def S_TIME_LO : Reg := reg 0x18080 0 32 .ro 0
/-- Stored result of MP[SSEL], laid out as a port's +0x08 to +0x1C -/
def S_TIME_HI : Reg := reg 0x18084 0 32 .ro 0
/-- Measured current of code c, for c from 1 to 7, binary32 A -/
def IEXA_TRIM : Reg := reg 0x180A0 0 32 .fuse 0 |>.arr 7 4 |>.fac
/-- As above, for IEXB -/
def IEXB_TRIM : Reg := reg 0x180C0 0 32 .fuse 0 |>.arr 7 4 |>.fac
/-- Measured level of code v, binary32 V -/
def VBIAS_TRIM : Reg := reg 0x180E0 0 32 .fuse 0 |>.arr 3 4 |>.fac
/-- Measured feedback resistance r, binary32 Ω -/
def RF_TRIM : Reg := reg 0x180F0 0 32 .fuse 0 |>.arr 5 4 |>.fac
/-- Measured VREF, binary32 V -/
def VREF_TRIM : Reg := reg 0x18104 0 32 .fuse 0 |>.fac
/-- Offset code, signed -/
def CE0_OFS : Reg := reg 0x18120 0 32 .ro 0 |>.arr 8 4
/-- Offset code, signed -/
def CE1_OFS : Reg := reg 0x18160 0 32 .ro 0 |>.arr 8 4
/-- Gain factor, binary32 -/
def CE0_GAIN : Reg := reg 0x18140 0 32 .ro 0x3F800000 |>.arr 8 4
/-- Gain factor, binary32 -/
def CE1_GAIN : Reg := reg 0x18180 0 32 .ro 0x3F800000 |>.arr 8 4
/-- Offset current, binary32 A -/
def TIA_OFS : Reg := reg 0x181A0 0 32 .ro 0 |>.arr 5 4
/-- The page: base, pages, block code, reset domain, fields. -/
def page : Page :=
  ⟨0x18000, 1, 0x2300, .tray, [ CAL0, CAL1, CAL0_BUSY, CAL1_BUSY, CE0_UNCAL, CE1_UNCAL, CE0_ROUND, CE1_ROUND, CE0_QUEUE, CE1_QUEUE, CE0_PROFILE, CE1_PROFILE, PINS_CE0, PINS_CE1, IEXA_OWNER, IEXB_OWNER, VBIAS_USERS, VBIAS_LEVEL, NEXT_SEQ, ROUNDS, PIN_WAITS, STALE_ANSWERS, BAD_PROFILES, SSEL, S_VALUE, S_RAW, S_SEQ, S_FLAGS, S_TIME_LO, S_TIME_HI, IEXA_TRIM, IEXB_TRIM, VBIAS_TRIM, RF_TRIM, VREF_TRIM, CE0_OFS, CE1_OFS, CE0_GAIN, CE1_GAIN, TIA_OFS ]⟩
end AFECTL

/-! Page AFEPORT, spec/14_afe.md. -/
namespace AFEPORT
/-- Posts a request for this profile, under R450 -/
def REQ : Reg := reg 0x19040 0 6 .wo 0 |>.arr 5 0x20 4 0x1000 |>.each [1, 2, 3, 4, 48]
/-- A request is posted and not answered -/
def BUSY : Reg := reg 0x19044 0 1 .ro 0 |>.arr 5 0x20 4 0x1000
/-- It waits in its engine's queue -/
def QUEUED : Reg := reg 0x19044 1 1 .ro 0 |>.arr 5 0x20 4 0x1000
/-- Its round is running -/
def RUNNING : Reg := reg 0x19044 2 1 .ro 0 |>.arr 5 0x20 4 0x1000
/-- Binary32, under R460 -/
def VALUE : Reg := reg 0x19048 0 32 .ro 0 |>.arr 5 0x20 4 0x1000
/-- Under R462 -/
def RAW : Reg := reg 0x1904C 0 32 .ro 0 |>.arr 5 0x20 4 0x1000
/-- Under R462 -/
def SEQ : Reg := reg 0x19050 0 32 .ro 0 |>.arr 5 0x20 4 0x1000
/-- Under R463 -/
def FLAGS : Reg := reg 0x19054 0 11 .ro 0 |>.arr 5 0x20 4 0x1000
/-- Reason of R449 -/
def REASON : Reg := reg 0x19054 12 4 .ro 0 |>.arr 5 0x20 4 0x1000
/-- Profile answered -/
def PROFILE : Reg := reg 0x19054 16 6 .ro 0 |>.arr 5 0x20 4 0x1000
/-- Tray time, a pair under R48 -/
def TIME_LO : Reg := reg 0x19058 0 32 .ro 0 |>.arr 5 0x20 4 0x1000
/-- Tray time, a pair under R48 -/
def TIME_HI : Reg := reg 0x1905C 0 32 .ro 0 |>.arr 5 0x20 4 0x1000
/-- The page: base, pages, block code, reset domain, fields. -/
def page : Page :=
  ⟨0x19000, 1, 0x2301, .tray, [ REQ, BUSY, QUEUED, RUNNING, VALUE, RAW, SEQ, FLAGS, REASON, PROFILE, TIME_LO, TIME_HI ]⟩
end AFEPORT

/-! Page AFEHOST, spec/14_afe.md: one port, laid out as a port of AFEPORT, port 4 of its arrays. -/
namespace AFEHOST
/-- The page: base, pages, block code, reset domain, fields. -/
def page : Page :=
  ⟨0x1A000, 1, 0x2302, .tray, AFEPORT.page.regs⟩
end AFEHOST

/-! Page AFEPROF, spec/14_afe.md. -/
namespace AFEPROF
/-- Word i mod 4 of profile MP[i/4], R448 -/
def WORD : Reg := reg 0x1B040 0 32 .rw 0 |>.arr 256 4 |>.only [1, 2, 3, 4]
/-- The page: base, pages, block code, reset domain, fields. -/
def page : Page :=
  ⟨0x1B000, 1, 0x2303, .tray, [ WORD ]⟩
end AFEPROF

/-! Page AFECOEF, spec/14_afe.md. -/
namespace AFECOEF
/-- Word of CS0-CS7, R458 -/
def FACTORY : Reg := reg 0x1C040 0 32 .fuse 0 |>.arr 256 4 |>.fac
/-- Word of CS8-CS15, R458 -/
def SET0 : Reg := reg 0x1C440 0 32 .rw 0 |>.arr 256 4 |>.shadow |>.only [1, 2, 3, 4]
/-- Word of CS16-CS31, R458 -/
def SET1 : Reg := reg 0x1D040 0 32 .rw 0 |>.arr 512 4 |>.shadow |>.only [1, 2, 3, 4]
/-- The page: base, pages, block code, reset domain, fields. -/
def page : Page :=
  ⟨0x1C000, 2, 0x2304, .tray, [ FACTORY, SET0, SET1 ]⟩
end AFECOEF

/-! Page TCFG, spec/15_temperature.md. -/
namespace TCFG
/-- Sensor enabled -/
def EN : Reg := reg 0x20040 0 1 .rw 0 |>.arr 48 0x20 |>.shadow |>.only [1, 2, 3, 4]
/-- 1 MC1, 2 MC2 -/
def FEEDER : Reg := reg 0x20040 1 2 .rw 0 |>.arr 48 0x20 |>.shadow |>.only [1, 2, 3, 4]
/-- Under R484 -/
def RATE_WIN : Reg := reg 0x20040 4 3 .rw 3 |>.arr 48 0x20 |>.shadow |>.only [1, 2, 3, 4]
/-- Under R479 -/
def OS_COUNT : Reg := reg 0x20040 8 4 .rw 2 |>.arr 48 0x20 |>.shadow |>.only [1, 2, 3, 4]
/-- Under R480 -/
def SUSPECT_COUNT : Reg := reg 0x20040 16 8 .rw 8 |>.arr 48 0x20 |>.shadow |>.only [1, 2, 3, 4]
/-- Under R481 -/
def RECOVER_COUNT : Reg := reg 0x20040 24 8 .rw 0x40 |>.arr 48 0x20 |>.shadow |>.only [1, 2, 3, 4]
/-- First neighbour -/
def NB0 : Reg := reg 0x20044 0 6 .rw 0 |>.arr 48 0x20 |>.shadow |>.only [1, 2, 3, 4]
/-- First neighbour -/
def NB0_EN : Reg := reg 0x20044 7 1 .rw 0 |>.arr 48 0x20 |>.shadow |>.only [1, 2, 3, 4]
/-- Second neighbour -/
def NB1 : Reg := reg 0x20044 8 6 .rw 0 |>.arr 48 0x20 |>.shadow |>.only [1, 2, 3, 4]
/-- Second neighbour -/
def NB1_EN : Reg := reg 0x20044 15 1 .rw 0 |>.arr 48 0x20 |>.shadow |>.only [1, 2, 3, 4]
/-- Third neighbour -/
def NB2 : Reg := reg 0x20044 16 6 .rw 0 |>.arr 48 0x20 |>.shadow |>.only [1, 2, 3, 4]
/-- Third neighbour -/
def NB2_EN : Reg := reg 0x20044 23 1 .rw 0 |>.arr 48 0x20 |>.shadow |>.only [1, 2, 3, 4]
/-- Signed, 1/16 °C -/
def RANGE_MIN : Reg := reg 0x20048 0 16 .rw 0 |>.arr 48 0x20 |>.shadow |>.only [1, 2, 3, 4]
/-- Signed, 1/16 °C -/
def RANGE_MAX : Reg := reg 0x20048 16 16 .rw 0 |>.arr 48 0x20 |>.shadow |>.only [1, 2, 3, 4]
/-- 1/16 °C (12 °C) -/
def BAND : Reg := reg 0x2004C 0 16 .rw 0xC0 |>.arr 48 0x20 |>.shadow |>.only [1, 2, 3, 4]
/-- 1/16 °C (5 °C) -/
def MARGIN : Reg := reg 0x2004C 16 16 .rw 0x50 |>.arr 48 0x20 |>.shadow |>.only [1, 2, 3, 4]
/-- ms, under R482. MC1 loads the values of R475. -/
def MAX_AGE : Reg := reg 0x20050 0 16 .rw 0x64 |>.arr 48 0x20 |>.shadow |>.only [1, 2, 3, 4]
/-- The page: base, pages, block code, reset domain, fields. -/
def page : Page :=
  ⟨0x20000, 1, 0x2400, .tray, [ EN, FEEDER, RATE_WIN, OS_COUNT, SUSPECT_COUNT, RECOVER_COUNT, NB0, NB0_EN, NB1, NB1_EN, NB2, NB2_EN, RANGE_MIN, RANGE_MAX, BAND, MARGIN, MAX_AGE ]⟩
end TCFG

/-! Page TSTAT, spec/15_temperature.md. -/
namespace TSTAT
/-- Sensor fed -/
def F_SEL : Reg := reg 0x21040 0 6 .rw 0 |>.arr 2 0x20 |>.each [2, 3]
/-- Binary32 °C -/
def F_VALUE : Reg := reg 0x21044 0 32 .rw 0 |>.arr 2 0x20 |>.each [2, 3]
/-- As R463 -/
def F_AFE_FLAGS : Reg := reg 0x21048 0 11 .rw 0 |>.arr 2 0x20 |>.each [2, 3]
/-- The two-wire read failed -/
def F_SRC_FAULT : Reg := reg 0x21048 16 1 .rw 0 |>.arr 2 0x20 |>.each [2, 3]
/-- Tray time of the sample, a pair under R48 -/
def F_TIME_LO : Reg := reg 0x2104C 0 32 .rw 0 |>.arr 2 0x20 |>.each [2, 3]
/-- Tray time of the sample, a pair under R48 -/
def F_TIME_HI : Reg := reg 0x21050 0 32 .rw 0 |>.arr 2 0x20 |>.each [2, 3]
/-- Evaluate, under R478 -/
def F_FEED : Reg := reg 0x21054 0 1 .sc 0 |>.arr 2 0x20 |>.each [2, 3]
/-- 0 none, 1 taken, 2 repeat, 3 wrong feeder, 4 sensor off, 5 not later -/
def F_OUTCOME : Reg := reg 0x21058 0 3 .ro 0 |>.arr 2 0x20
/-- Effective value, under R483 -/
def VALUE : Reg := reg 0x21080 0 16 .ro 0 |>.arr 48 8
/-- 0 OFF, 1 NO_SAMPLE, 2 OK, 3 SUSPECT, 4 OPEN_SHORT, 5 STALE -/
def STATE : Reg := reg 0x21080 16 3 .ro 0 |>.arr 48 8
/-- Under R479 and R484 -/
def DEGRADED : Reg := reg 0x21080 19 1 .ro 0 |>.arr 48 8
/-- Under R479 and R484 -/
def RATE_VALID : Reg := reg 0x21080 20 1 .ro 0 |>.arr 48 8
/-- Current disagree, open-or-short or recover count -/
def COUNT : Reg := reg 0x21080 24 8 .ro 0 |>.arr 48 8
/-- Last raw sample; r -/
def RAW : Reg := reg 0x21084 0 16 .ro 0 |>.arr 48 8
/-- Last raw sample; r -/
def RATE : Reg := reg 0x21084 16 16 .ro 0 |>.arr 48 8
/-- Feeds taken -/
def FEEDS : Reg := reg 0x21200 0 32 .cnt 0
/-- Feeds discarded under R478 -/
def DISCARDS : Reg := reg 0x21204 0 32 .cnt 0
/-- The page: base, pages, block code, reset domain, fields. -/
def page : Page :=
  ⟨0x21000, 1, 0x2401, .tray, [ F_SEL, F_VALUE, F_AFE_FLAGS, F_SRC_FAULT, F_TIME_LO, F_TIME_HI, F_FEED, F_OUTCOME, VALUE, STATE, DEGRADED, RATE_VALID, COUNT, RAW, RATE, FEEDS, DISCARDS ]⟩
end TSTAT

/-! Page TZONE, spec/15_temperature.md. -/
namespace TZONE
/-- 1/16 °C -/
def WARN : Reg := reg 0x22040 0 16 .rw 0 |>.arr 16 0x40 8 0x1000 |>.shadow |>.only [1, 2, 3, 4]
/-- 1/16 °C -/
def THROTTLE : Reg := reg 0x22040 16 16 .rw 0 |>.arr 16 0x40 8 0x1000 |>.shadow |>.only [1, 2, 3, 4]
/-- 1/16 °C -/
def TRIP : Reg := reg 0x22044 0 16 .rw 0 |>.arr 16 0x40 8 0x1000 |>.shadow |>.only [1, 2, 3, 4]
/-- 1/16 °C -/
def HYST : Reg := reg 0x22044 16 16 .rw 0 |>.arr 16 0x40 8 0x1000 |>.shadow |>.only [1, 2, 3, 4]
/-- 1/256 °C/s -/
def RATE_LIMIT : Reg := reg 0x22048 0 16 .rw 0xFFFF |>.arr 16 0x40 8 0x1000 |>.shadow |>.only [1, 2, 3, 4]
/-- Zone enabled -/
def ZEN : Reg := reg 0x22048 16 1 .rw 0 |>.arr 16 0x40 8 0x1000 |>.shadow |>.only [1, 2, 3, 4]
/-- Bit k: TSk is a member -/
def MEMBERS_LO : Reg := reg 0x2204C 0 32 .rw 0 |>.arr 16 0x40 8 0x1000 |>.shadow |>.only [1, 2, 3, 4]
/-- Bit k: TSk is a member -/
def MEMBERS_HI : Reg := reg 0x22050 0 16 .rw 0 |>.arr 16 0x40 8 0x1000 |>.shadow |>.only [1, 2, 3, 4]
/-- Bit n: die n -/
def DIES : Reg := reg 0x22054 0 8 .rw 0 |>.arr 16 0x40 8 0x1000 |>.shadow |>.only [1, 2, 3, 4]
/-- Under R493 -/
def FORECAST_MS : Reg := reg 0x22058 0 16 .rw 0x7D0 |>.arr 16 0x40 8 0x1000 |>.only [1, 2, 3, 4]
/-- Under R493 -/
def LEAD_HINGES : Reg := reg 0x22058 16 8 .rw 8 |>.arr 16 0x40 8 0x1000 |>.only [1, 2, 3, 4]
/-- Beats -/
def IDLE_STEP : Reg := reg 0x2205C 0 8 .rw 0x20 |>.arr 16 0x40 8 0x1000 |>.only [1, 2, 3, 4]
/-- Beats -/
def IDLE_MAX : Reg := reg 0x2205C 8 8 .rw 0x80 |>.arr 16 0x40 8 0x1000 |>.only [1, 2, 3, 4]
/-- Under R494 -/
def RELEASE_MS : Reg := reg 0x2205C 16 16 .rw 0x2710 |>.arr 16 0x40 8 0x1000 |>.only [1, 2, 3, 4]
/-- Under R485 -/
def T_Z : Reg := reg 0x22060 0 16 .ro 0 |>.arr 16 0x40 8 0x1000
/-- Under R486 -/
def LEVEL : Reg := reg 0x22060 16 2 .ro 3 |>.arr 16 0x40 8 0x1000
/-- Under R486 -/
def RATE_HIGH : Reg := reg 0x22060 18 1 .ro 0 |>.arr 16 0x40 8 0x1000
/-- Under R487; level-held -/
def TRIP_LATCH : Reg := reg 0x22060 19 1 .w1c 1 |>.arr 16 0x40 8 0x1000 |>.only [1, 2, 3, 4]
/-- Under R485 -/
def NO_DATA : Reg := reg 0x22060 20 1 .ro 1 |>.arr 16 0x40 8 0x1000
/-- Under R485 and R492 -/
def R_Z : Reg := reg 0x22064 0 16 .ro 0 |>.arr 16 0x40 8 0x1000
/-- Under R485 and R492 -/
def TTT : Reg := reg 0x22064 16 16 .ro 0xFFFF |>.arr 16 0x40 8 0x1000
/-- Member giving T_z -/
def HOT_SENSOR : Reg := reg 0x22068 0 6 .ro 0 |>.arr 16 0x40 8 0x1000
/-- The page: base, pages, block code, reset domain, fields. -/
def page : Page :=
  ⟨0x22000, 2, 0x2402, .tray, [ WARN, THROTTLE, TRIP, HYST, RATE_LIMIT, ZEN, MEMBERS_LO, MEMBERS_HI, DIES, FORECAST_MS, LEAD_HINGES, IDLE_STEP, IDLE_MAX, RELEASE_MS, T_Z, LEVEL, RATE_HIGH, TRIP_LATCH, NO_DATA, R_Z, TTT, HOT_SENSOR ]⟩
end TZONE

/-! Page TALERT, spec/15_temperature.md. -/
namespace TALERT
/-- Bit n: THERM_ALERT_n is asserted -/
def ALERT_NOW : Reg := reg 0x24040 0 8 .ro 0
/-- Bit n: it was asserted since last cleared; level-held -/
def ALERT_SEEN : Reg := reg 0x24040 8 8 .w1c 0
/-- Bit n: die n was refused under R490 -/
def HELD_AT_RELEASE : Reg := reg 0x24040 16 8 .ro 0
/-- Rising edges of THERM_ALERT_n -/
def ALERTS : Reg := reg 0x24044 0 16 .cnt 0 |>.arr 8 4
/-- The page: base, pages, block code, reset domain, fields. -/
def page : Page :=
  ⟨0x24000, 1, 0x2403, .tray, [ ALERT_NOW, ALERT_SEEN, HELD_AT_RELEASE, ALERTS ]⟩
end TALERT

/-! Page CFAN, spec/16_cooling.md. -/
namespace CFAN
/-- Bit k: FANk fitted -/
def FAN_FIT : Reg := reg 0x28040 0 12 .fuse 0 |>.fac
/-- Bit p: fitted -/
def PUMP_FIT : Reg := reg 0x28040 12 2 .fuse 0 |>.fac
/-- Bit p: fitted -/
def FLOW_FIT : Reg := reg 0x28040 14 2 .fuse 0 |>.fac
/-- Bit n: LKn fitted -/
def LK_FIT : Reg := reg 0x28040 16 4 .fuse 0 |>.fac
/-- ms, 50–2,000 -/
def CTRL_PERIOD : Reg := reg 0x28044 0 11 .rw 0xFA |>.only [1, 2, 3, 4]
/-- Units per period, 1–1,000 -/
def DOWN_SLEW : Reg := reg 0x28044 16 10 .rw 0x14 |>.only [1, 2, 3, 4]
/-- Under R514 -/
def RUN : Reg := reg 0x28044 31 1 .rw 0 |>.only [1, 2, 3, 4]
/-- Rows 4, 3, 3 and 2 of R514 in force -/
def STANDBY_REGIME : Reg := reg 0x28048 0 1 .ro 1
/-- Rows 4, 3, 3 and 2 of R514 in force -/
def SUPV_OVERRIDE : Reg := reg 0x28048 1 1 .ro 0
/-- Rows 4, 3, 3 and 2 of R514 in force -/
def THERM_OVERRIDE : Reg := reg 0x28048 2 1 .ro 0
/-- Rows 4, 3, 3 and 2 of R514 in force -/
def LEAK_TRIP : Reg := reg 0x28048 3 1 .ro 0
/-- Under R516 -/
def TACH_ARM : Reg := reg 0x2804C 0 10 .rw 0xC8 |>.only [1, 2, 3, 4]
/-- Units of 100 ms -/
def SPINUP : Reg := reg 0x2804C 16 8 .rw 0x14 |>.only [1, 2, 3, 4]
/-- Units of 100 ms -/
def TACH_TIME : Reg := reg 0x2804C 24 8 .rw 0x1E |>.only [1, 2, 3, 4]
/-- Bit z: Zz feeds FGg -/
def ZONES : Reg := reg 0x28080 0 16 .rw 0 |>.arr 4 0x10 |>.shadow |>.only [1, 2, 3, 4]
/-- Under R512 -/
def FLOOR : Reg := reg 0x28084 0 10 .rw 0x12C |>.arr 4 0x10 |>.shadow |>.only [1, 2, 3, 4]
/-- Set only by MC1 on CMD8 and CMD11 -/
def HOST_FLOOR : Reg := reg 0x28084 16 10 .rw 0 |>.arr 4 0x10 |>.shadow |>.only [2]
/-- Target duty -/
def TARGET : Reg := reg 0x28088 0 10 .ro 0 |>.arr 4 0x10
/-- Row of R514 in force -/
def ROW : Reg := reg 0x28088 10 3 .ro 4 |>.arr 4 0x10
/-- rpm -/
def TACH_MIN : Reg := reg 0x28088 16 16 .rw 0x5DC |>.arr 4 0x10 |>.only [1, 2, 3, 4]
/-- Duty driven on FANk -/
def DUTY : Reg := reg 0x28100 0 10 .ro 0 |>.arr 12 8
/-- Under R516; level-held -/
def FAULT : Reg := reg 0x28100 16 1 .w1c 0 |>.arr 12 8
/-- Under R516 -/
def ARMED : Reg := reg 0x28100 17 1 .ro 0 |>.arr 12 8
/-- Pulses per revolution, 1–4 -/
def PPR : Reg := reg 0x28100 24 3 .rw 2 |>.arr 12 8 |>.only [1, 2, 3, 4]
/-- Under R508 -/
def RPM : Reg := reg 0x28104 0 16 .ro 0 |>.arr 12 8
/-- The page: base, pages, block code, reset domain, fields. -/
def page : Page :=
  ⟨0x28000, 1, 0x2500, .tray, [ FAN_FIT, PUMP_FIT, FLOW_FIT, LK_FIT, CTRL_PERIOD, DOWN_SLEW, RUN, STANDBY_REGIME, SUPV_OVERRIDE, THERM_OVERRIDE, LEAK_TRIP, TACH_ARM, SPINUP, TACH_TIME, ZONES, FLOOR, HOST_FLOOR, TARGET, ROW, TACH_MIN, DUTY, FAULT, ARMED, PPR, RPM ]⟩
end CFAN

/-! Page CPUMP, spec/16_cooling.md. -/
namespace CPUMP
/-- Bit z: Zz feeds PUMPp -/
def ZONES : Reg := reg 0x29040 0 16 .rw 0 |>.arr 2 0x10 |>.shadow |>.only [1, 2, 3, 4]
/-- Under R512 -/
def FLOOR : Reg := reg 0x29044 0 10 .rw 0x190 |>.arr 2 0x10 |>.shadow |>.only [1, 2, 3, 4]
/-- Under R512 -/
def HOST_FLOOR : Reg := reg 0x29044 16 10 .rw 0 |>.arr 2 0x10 |>.shadow |>.only [2]
/-- Duty driven -/
def DUTY : Reg := reg 0x29048 0 10 .ro 0 |>.arr 2 0x10
/-- Under R516 -/
def FAULT : Reg := reg 0x29048 16 1 .w1c 0 |>.arr 2 0x10
/-- Under R516 -/
def ARMED : Reg := reg 0x29048 17 1 .ro 0 |>.arr 2 0x10
/-- Pulses per revolution -/
def PPR : Reg := reg 0x29048 24 3 .rw 2 |>.arr 2 0x10 |>.only [1, 2, 3, 4]
/-- rpm -/
def RPM : Reg := reg 0x2904C 0 16 .ro 0 |>.arr 2 0x10
/-- rpm -/
def TACH_MIN : Reg := reg 0x2904C 16 16 .rw 0x3E8 |>.arr 2 0x10 |>.only [1, 2, 3, 4]
/-- Pulses per litre -/
def FLOW_K : Reg := reg 0x29080 0 16 .rw 0x564 |>.arr 2 0x10 |>.only [1, 2, 3, 4]
/-- mL/min, under R517 -/
def FL_RATE : Reg := reg 0x29084 0 16 .ro 0 |>.arr 2 0x10
/-- Under R517 -/
def FL_FAULT : Reg := reg 0x29084 16 1 .w1c 0 |>.arr 2 0x10
/-- Under R517 -/
def FL_ARMED : Reg := reg 0x29084 17 1 .ro 0 |>.arr 2 0x10
/-- mL/min -/
def FLOW_MIN : Reg := reg 0x29088 0 16 .rw 0xFA0 |>.arr 2 0x10 |>.only [1, 2, 3, 4]
/-- Units of 100 ms -/
def FLOW_TIME : Reg := reg 0x29088 16 8 .rw 0x14 |>.arr 2 0x10 |>.only [1, 2, 3, 4]
/-- Under R519 -/
def FLOW_PROVEN : Reg := reg 0x290A0 0 1 .ro 0
/-- The page: base, pages, block code, reset domain, fields. -/
def page : Page :=
  ⟨0x29000, 1, 0x2501, .tray, [ ZONES, FLOOR, HOST_FLOOR, DUTY, FAULT, ARMED, PPR, RPM, TACH_MIN, FLOW_K, FL_RATE, FL_FAULT, FL_ARMED, FLOW_MIN, FLOW_TIME, FLOW_PROVEN ]⟩
end CPUMP

/-! Page CDEM, spec/16_cooling.md. -/
namespace CDEM
/-- 0 curve, 1 PI -/
def MODE : Reg := reg 0x2A040 0 1 .rw 0 |>.arr 16 0x20 |>.shadow |>.only [1, 2, 3, 4]
/-- Under R509 -/
def DMIN : Reg := reg 0x2A040 16 10 .rw 0xC8 |>.arr 16 0x20 |>.shadow |>.only [1, 2, 3, 4]
/-- Under R509 -/
def DMAX : Reg := reg 0x2A044 0 10 .rw 0x3E8 |>.arr 16 0x20 |>.shadow |>.only [1, 2, 3, 4]
/-- 1/16 °C -/
def SETPOINT : Reg := reg 0x2A044 16 16 .rw 0 |>.arr 16 0x20 |>.shadow |>.only [1, 2, 3, 4]
/-- Curve point i, for i = 0–3 -/
def T : Reg := reg 0x2A048 0 16 .rw 0 |>.arr 64 4 4 0x20 |>.shadow |>.only [1, 2, 3, 4]
/-- Curve point i, for i = 0–3 -/
def D : Reg := reg 0x2A048 16 10 .rw 0 |>.arr 64 4 4 0x20 |>.shadow |>.only [1, 2, 3, 4]
/-- Under R511 -/
def KP : Reg := reg 0x2A058 0 16 .rw 0 |>.arr 16 0x20 |>.shadow |>.only [1, 2, 3, 4]
/-- Under R511 -/
def KI : Reg := reg 0x2A058 16 16 .rw 0 |>.arr 16 0x20 |>.shadow |>.only [1, 2, 3, 4]
/-- Last demand -/
def DEMAND : Reg := reg 0x2A05C 0 10 .ro 0 |>.arr 16 0x20
/-- Integer part of I -/
def I_Z : Reg := reg 0x2A05C 16 10 .ro 0 |>.arr 16 0x20
/-- The page: base, pages, block code, reset domain, fields. -/
def page : Page :=
  ⟨0x2A000, 1, 0x2502, .tray, [ MODE, DMIN, DMAX, SETPOINT, T, D, KP, KI, DEMAND, I_Z ]⟩
end CDEM

/-! Page CLEAK, spec/16_cooling.md. -/
namespace CLEAK
/-- Leak comparator on its alarm side -/
def ALARM : Reg := reg 0x2B040 0 1 .ro 1 |>.arr 4 4
/-- Open comparator on its alarm side -/
def OPEN : Reg := reg 0x2B040 1 1 .ro 1 |>.arr 4 4
/-- Under R523 -/
def RELEASED : Reg := reg 0x2B040 2 1 .ro 0 |>.arr 4 4
/-- Leak trip latched on this channel -/
def TRIPPED : Reg := reg 0x2B040 3 1 .ro 0 |>.arr 4 4
/-- Under R524 -/
def UNPROVEN : Reg := reg 0x2B040 4 1 .ro 0 |>.arr 4 4
/-- Under R527; written by MC2 -/
def WARN : Reg := reg 0x2B040 5 1 .ro 0 |>.arr 4 4
/-- Under R523 -/
def GLITCHES : Reg := reg 0x2B050 0 16 .cnt 0 |>.arr 4 4 |>.only [1, 2, 3, 4]
/-- Units of 100 ms, 5–100; 0 means 20 (2 s) -/
def LEAK_SETTLE : Reg := reg 0x2B060 0 8 .fuse 0 |>.fac
/-- Units of 10 nA, under R527 -/
def LEAK_WARN : Reg := reg 0x2B064 0 16 .rw 0x258 |>.only [1, 2, 3, 4]
/-- The page: base, pages, block code, reset domain, fields. -/
def page : Page :=
  ⟨0x2B000, 1, 0x2503, .tray, [ ALARM, OPEN, RELEASED, TRIPPED, UNPROVEN, WARN, GLITCHES, LEAK_SETTLE, LEAK_WARN ]⟩
end CLEAK

/-! Page TW, spec/17_two_wire.md. -/
namespace TW
/-- 0 100 kHz, 1 400 kHz, 2 1 MHz, 3 reserved -/
def SPEED : Reg := reg 0x30040 0 2 .rw 0 |>.arr 6 0 1 0x1000 |>.only [1, 2, 3, 4]
/-- Input filter, core cycles -/
def FILT : Reg := reg 0x30040 8 4 .rw 0xA |>.arr 6 0 1 0x1000 |>.only [1, 2, 3, 4]
/-- Core cycles, under R543 -/
def TLOW : Reg := reg 0x30044 0 12 .rw 0x3E8 |>.arr 6 0 1 0x1000 |>.only [1, 2, 3, 4]
/-- Core cycles, under R543 -/
def THIGH : Reg := reg 0x30044 16 12 .rw 0x334 |>.arr 6 0 1 0x1000 |>.only [1, 2, 3, 4]
/-- Core cycles -/
def TSU_DAT : Reg := reg 0x30048 0 12 .rw 0x32 |>.arr 6 0 1 0x1000 |>.only [1, 2, 3, 4]
/-- Core cycles -/
def THD_DAT : Reg := reg 0x30048 16 12 .rw 0x3C |>.arr 6 0 1 0x1000 |>.only [1, 2, 3, 4]
/-- Core cycles -/
def TSU_STA : Reg := reg 0x3004C 0 12 .rw 0x3AC |>.arr 6 0 1 0x1000 |>.only [1, 2, 3, 4]
/-- Core cycles -/
def THD_STA : Reg := reg 0x3004C 16 12 .rw 0x320 |>.arr 6 0 1 0x1000 |>.only [1, 2, 3, 4]
/-- Core cycles -/
def TSU_STO : Reg := reg 0x30050 0 12 .rw 0x320 |>.arr 6 0 1 0x1000 |>.only [1, 2, 3, 4]
/-- Core cycles -/
def TBUF : Reg := reg 0x30050 16 12 .rw 0x3AC |>.arr 6 0 1 0x1000 |>.only [1, 2, 3, 4]
/-- Core cycles, release to V_IH -/
def TRISE : Reg := reg 0x30054 0 10 .rw 0x11C |>.arr 6 0 1 0x1000 |>.only [1, 2, 3, 4]
/-- 10 µs units, under R549 -/
def STRETCH_MAX : Reg := reg 0x30058 0 16 .rw 0x9C4 |>.arr 6 0 1 0x1000 |>.only [1, 2, 3, 4] |>.inits [2500, 2500, 2500, 200, 200, 2500]
/-- ms, under R549 -/
def XFER_MAX : Reg := reg 0x30058 16 16 .rw 0x32 |>.arr 6 0 1 0x1000 |>.only [1, 2, 3, 4]
/-- MCk claims the bus, under R544; written by MCk only -/
def CLAIM : Reg := reg 0x30060 0 1 .sc 0 |>.arr 24 4 4 0x1000 |>.each [1, 2, 3, 4]
/-- Under R545 -/
def RELEASE : Reg := reg 0x30060 1 1 .sc 0 |>.arr 24 4 4 0x1000 |>.each [1, 2, 3, 4]
/-- 0 NONE, 1 GRANTED, 2 BUSY, 3 RELEASED -/
def CLAIM_RESULT : Reg := reg 0x30060 8 2 .ro 0 |>.arr 24 4 4 0x1000
/-- Requester number of the owner -/
def OWNER : Reg := reg 0x30070 0 10 .ro 0 |>.arr 6 0 1 0x1000
/-- An owner is recorded -/
def OWNED : Reg := reg 0x30070 16 1 .ro 0 |>.arr 6 0 1 0x1000
/-- Under R547 and R548; owner only -/
def GO : Reg := reg 0x30074 0 1 .sc 0 |>.arr 6 0 1 0x1000
/-- Under R550; owner only -/
def ABORT : Reg := reg 0x30074 1 1 .sc 0 |>.arr 6 0 1 0x1000
/-- Under R547 -/
def OP : Reg := reg 0x30074 4 3 .rw 0 |>.arr 6 0 1 0x1000
/-- Use PEC -/
def PEC : Reg := reg 0x30074 7 1 .rw 0 |>.arr 6 0 1 0x1000
/-- 7-bit target address -/
def ADDR : Reg := reg 0x30074 8 7 .rw 0 |>.arr 6 0 1 0x1000
/-- Segment, under R538 -/
def SEG : Reg := reg 0x30074 16 3 .rw 0 |>.arr 6 0 1 0x1000
/-- 0–256 -/
def WLEN : Reg := reg 0x30078 0 9 .rw 0 |>.arr 6 0 1 0x1000
/-- 0–256 -/
def RLEN : Reg := reg 0x30078 16 9 .rw 0 |>.arr 6 0 1 0x1000
/-- 0 DISABLED, 1 RECOVERING, 2 IDLE, 3 RUNNING, 4 STUCK -/
def STATE : Reg := reg 0x3007C 0 3 .ro 0 |>.arr 6 0 1 0x1000
/-- Under R548 -/
def RESULT : Reg := reg 0x3007C 8 4 .ro 0 |>.arr 6 0 1 0x1000
/-- Refusal reason of R548 -/
def REASON : Reg := reg 0x3007C 12 3 .ro 0 |>.arr 6 0 1 0x1000
/-- Data bytes transferred -/
def XCOUNT : Reg := reg 0x3007C 16 9 .ro 0 |>.arr 6 0 1 0x1000
/-- Block count received -/
def RXCOUNT : Reg := reg 0x30080 0 8 .ro 0 |>.arr 6 0 1 0x1000
/-- PEC byte received -/
def PEC_RX : Reg := reg 0x30080 8 8 .ro 0 |>.arr 6 0 1 0x1000
/-- Under R552 -/
def BUS_STUCK : Reg := reg 0x30084 0 1 .ro 0 |>.arr 6 0 1 0x1000
/-- 1 SDA, 2 SCL -/
def CAUSE : Reg := reg 0x30084 1 2 .ro 0 |>.arr 6 0 1 0x1000
/-- Bit s: segment s isolated -/
def SEG_STUCK : Reg := reg 0x30084 8 8 .ro 0 |>.arr 6 0 1 0x1000
/-- Under R553; MC0–MC3 only -/
def CLEAR_STUCK : Reg := reg 0x30084 16 1 .sc 0 |>.arr 6 0 1 0x1000 |>.only [1, 2, 3, 4]
/-- Bit s: segment s fitted, under R537 -/
def SEG_FIT : Reg := reg 0x30084 24 8 .fuse 0 |>.arr 6 0 1 0x1000 |>.fac
/-- Transactions started -/
def TRANSACTIONS : Reg := reg 0x30088 0 32 .cnt 0 |>.arr 6 0 1 0x1000
/-- NACK_ADDR and NACK_DATA results -/
def NACKS : Reg := reg 0x3008C 0 32 .cnt 0 |>.arr 6 0 1 0x1000
/-- Results 5–9 -/
def FAILS : Reg := reg 0x30090 0 32 .cnt 0 |>.arr 6 0 1 0x1000
/-- Under R551 -/
def RECOVERIES : Reg := reg 0x30094 0 32 .cnt 0 |>.arr 6 0 1 0x1000
/-- Write bytes, byte i at 0x100 + i; owner only -/
def TXBUF : Reg := reg 0x30100 0 32 .rw 0 |>.arr 384 4 64 0x1000
/-- Read bytes, byte i at 0x200 + i -/
def RXBUF : Reg := reg 0x30200 0 32 .ro 0 |>.arr 384 4 64 0x1000
/-- The page: base, pages, block code, reset domain, fields. -/
def page : Page :=
  ⟨0x30000, 6, 0x2600, .tray, [ SPEED, FILT, TLOW, THIGH, TSU_DAT, THD_DAT, TSU_STA, THD_STA, TSU_STO, TBUF, TRISE, STRETCH_MAX, XFER_MAX, CLAIM, RELEASE, CLAIM_RESULT, OWNER, OWNED, GO, ABORT, OP, PEC, ADDR, SEG, WLEN, RLEN, STATE, RESULT, REASON, XCOUNT, RXCOUNT, PEC_RX, BUS_STUCK, CAUSE, SEG_STUCK, CLEAR_STUCK, SEG_FIT, TRANSACTIONS, NACKS, FAILS, RECOVERIES, TXBUF, RXBUF ]⟩
end TW

/-! Page EVREC, spec/18_event_recorder.md. -/
namespace EVREC
/-- Next SEQ, under R567 -/
def HEAD : Reg := reg 0x38040 0 32 .ro 0
/-- Under R586 -/
def COMMITTED_TO : Reg := reg 0x38044 0 32 .ro 0
/-- Under R568 -/
def FLUSH_NEXT : Reg := reg 0x38048 0 32 .ro 0
/-- Under R585 -/
def OLDEST : Reg := reg 0x3804C 0 32 .ro 0
/-- Under R584 -/
def START_SEQ : Reg := reg 0x38050 0 32 .ro 0
/-- 8–96, under R580 -/
def FLUSH_MARK : Reg := reg 0x38054 0 7 .rw 0x40 |>.only [1, 2, 3, 4]
/-- s, 1–3,600, under R576 -/
def SWEEP_S : Reg := reg 0x38054 16 12 .rw 0xA |>.only [1, 2, 3, 4]
/-- Under R580 -/
def FLUSH : Reg := reg 0x38058 0 1 .sc 0 |>.only [1, 2, 3, 4]
/-- Under R583 -/
def CLEAR_FLASH_FAULT : Reg := reg 0x38058 1 1 .sc 0 |>.only [1, 2, 3, 4]
/-- Recorder state -/
def FLUSHING : Reg := reg 0x3805C 0 1 .ro 0
/-- Recorder state -/
def PF_FLUSH : Reg := reg 0x3805C 1 1 .ro 0
/-- Recorder state -/
def TO_END : Reg := reg 0x3805C 2 1 .ro 0
/-- Recorder state -/
def ERASING : Reg := reg 0x3805C 3 1 .ro 0
/-- Recorder state -/
def ERASE_WAIT : Reg := reg 0x3805C 4 1 .ro 0
/-- Recorder state -/
def FLASH_FAULT : Reg := reg 0x3805C 5 1 .ro 0
/-- Recorder state -/
def SCANNING : Reg := reg 0x3805C 6 1 .ro 1
/-- Under R568 -/
def FREE : Reg := reg 0x38060 0 13 .ro 0
/-- Under R568 -/
def LOST : Reg := reg 0x38064 0 32 .cnt 0
/-- Under R567 -/
def BAD_CODE : Reg := reg 0x38068 0 32 .cnt 0
/-- Under R574 -/
def SUPPRESSED_TOTAL : Reg := reg 0x3806C 0 32 .cnt 0
/-- Flushes started -/
def FLUSHES : Reg := reg 0x38070 0 32 .cnt 0
/-- Under R581 -/
def ERASE_WAITS : Reg := reg 0x38074 0 16 .cnt 0
/-- The page: base, pages, block code, reset domain, fields. -/
def page : Page :=
  ⟨0x38000, 1, 0x2700, .por, [ HEAD, COMMITTED_TO, FLUSH_NEXT, OLDEST, START_SEQ, FLUSH_MARK, SWEEP_S, FLUSH, CLEAR_FLASH_FAULT, FLUSHING, PF_FLUSH, TO_END, ERASING, ERASE_WAIT, FLASH_FAULT, SCANNING, FREE, LOST, BAD_CODE, SUPPRESSED_TOTAL, FLUSHES, ERASE_WAITS ]⟩
end EVREC

/-! Page EVWIN, spec/18_event_recorder.md. -/
namespace EVWIN
/-- Under R569 -/
def CODE : Reg := reg 0x39040 0 16 .rw 0 |>.arr 4 0x20 |>.each [1, 2, 3, 4]
/-- As R564 -/
def ORIGIN : Reg := reg 0x39044 0 24 .rw 0 |>.arr 4 0x20 |>.each [1, 2, 3, 4]
/-- Payload -/
def AUX : Reg := reg 0x39048 0 16 .rw 0 |>.arr 4 0x20 |>.each [1, 2, 3, 4]
/-- Payload -/
def ARG0 : Reg := reg 0x3904C 0 32 .rw 0 |>.arr 4 0x20 |>.each [1, 2, 3, 4]
/-- Payload -/
def ARG1 : Reg := reg 0x39050 0 32 .rw 0 |>.arr 4 0x20 |>.each [1, 2, 3, 4]
/-- Under R569 -/
def RESERVE : Reg := reg 0x39054 0 1 .sc 0 |>.arr 4 0x20 |>.each [1, 2, 3, 4]
/-- Under R569 -/
def COMMIT : Reg := reg 0x39054 1 1 .sc 0 |>.arr 4 0x20 |>.each [1, 2, 3, 4]
/-- Under R569 -/
def CANCEL : Reg := reg 0x39054 2 1 .sc 0 |>.arr 4 0x20 |>.each [1, 2, 3, 4]
/-- 0 NONE, 1 RESERVED, 2 BUSY, 3 SUPPRESSED, 4 BAD_CODE, 5 COMMITTED, 6 VOIDED -/
def RESULT : Reg := reg 0x39058 0 3 .ro 0 |>.arr 4 0x20
/-- SEQ reserved -/
def SEQ : Reg := reg 0x3905C 0 32 .ro 0 |>.arr 4 0x20
/-- The page: base, pages, block code, reset domain, fields. -/
def page : Page :=
  ⟨0x39000, 1, 0x2701, .por, [ CODE, ORIGIN, AUX, ARG0, ARG1, RESERVE, COMMIT, CANCEL, RESULT, SEQ ]⟩
end EVWIN

/-! Page EVREAD, spec/18_event_recorder.md. -/
namespace EVREAD
/-- Under R585 -/
def RD_SEQ : Reg := reg 0x3A040 0 32 .rw 0 |>.arr 5 0x80 |>.each [1, 2, 3, 4, 48]
/-- Under R585 -/
def RD_STATUS : Reg := reg 0x3A044 0 2 .ro 0 |>.arr 5 0x80
/-- Record bytes 4i to 4i + 3 -/
def RD_DATA : Reg := reg 0x3A048 0 32 .ro 0 |>.arr 40 4 8 0x80
/-- Under R587 -/
def FL_SEQ : Reg := reg 0x3A080 0 32 .rw 0 |>.arr 5 0x80 |>.each [1, 2, 3, 4, 48]
/-- Under R587 -/
def FL_STATUS : Reg := reg 0x3A084 0 3 .ro 0 |>.arr 5 0x80
/-- Under R587 -/
def FL_PENDING : Reg := reg 0x3A084 8 1 .ro 0 |>.arr 5 0x80
/-- Flash slot bytes -/
def FL_DATA : Reg := reg 0x3A088 0 32 .ro 0 |>.arr 40 4 8 0x80
/-- The page: base, pages, block code, reset domain, fields. -/
def page : Page :=
  ⟨0x3A000, 1, 0x2702, .por, [ RD_SEQ, RD_STATUS, RD_DATA, FL_SEQ, FL_STATUS, FL_PENDING, FL_DATA ]⟩
end EVREAD

/-! Page EVRATE, spec/18_event_recorder.md. -/
namespace EVRATE
/-- Under R573 -/
def RATE : Reg := reg 0x3B040 0 13 .rw 0 |>.arr 3 8 |>.only [1, 2, 3, 4] |>.inits [16, 1, 256]
/-- Under R573 -/
def BURST : Reg := reg 0x3B044 0 11 .rw 0 |>.arr 3 8 |>.only [1, 2, 3, 4] |>.inits [32, 4, 256]
/-- Code selected -/
def CM_CODE : Reg := reg 0x3B080 0 16 .rw 0 |>.only [1, 2, 3, 4]
/-- Class to set -/
def CM_CLASS : Reg := reg 0x3B084 0 2 .rw 0 |>.only [1, 2, 3, 4]
/-- Sets CM_CODE to CM_CLASS; refused under R573 with ACCESS_ERR -/
def CM_SET : Reg := reg 0x3B088 0 1 .sc 0 |>.only [1, 2, 3, 4]
/-- Class of CM_CODE -/
def CM_NOW : Reg := reg 0x3B08C 0 2 .ro 0
/-- Suppressed count of CM_CODE -/
def CM_SUPPRESSED : Reg := reg 0x3B08C 16 16 .ro 0
/-- The page: base, pages, block code, reset domain, fields. -/
def page : Page :=
  ⟨0x3B000, 1, 0x2703, .por, [ RATE, BURST, CM_CODE, CM_CLASS, CM_SET, CM_NOW, CM_SUPPRESSED ]⟩
end EVRATE

/-! Page SUPV, spec/19_supervisor_trust.md. -/
namespace SUPV
/-- Address latched under R602 -/
def SLOT_ID : Reg := reg 0x40040 0 7 .ro 0
/-- Under R602 -/
def ADDR_VALID : Reg := reg 0x40040 8 1 .ro 0
/-- Under R611 -/
def SILENT : Reg := reg 0x40044 0 1 .ro 0
/-- Silence since last cleared; level-held while SILENT -/
def SILENCE_SEEN : Reg := reg 0x40044 1 1 .w1c 0 |>.only [1, 2, 3, 4]
/-- Tray time of the last valid frame, a pair under R48 -/
def LAST_VALID_LO : Reg := reg 0x40048 0 32 .ro 0
/-- Tray time of the last valid frame, a pair under R48 -/
def LAST_VALID_HI : Reg := reg 0x4004C 0 32 .ro 0
/-- Valid frames -/
def FRAMES_OK : Reg := reg 0x40050 0 32 .cnt 0
/-- Under R601 -/
def CRC_ERR : Reg := reg 0x40054 0 16 .cnt 0
/-- Under R601 -/
def FRAMING : Reg := reg 0x40054 16 16 .cnt 0
/-- Under R599 and R610 -/
def COLLISIONS : Reg := reg 0x40058 0 16 .cnt 0
/-- Under R599 and R610 -/
def DUPLICATES : Reg := reg 0x40058 16 16 .cnt 0
/-- Under R608 -/
def BUSY_REPLIES : Reg := reg 0x4005C 0 16 .cnt 0
/-- Frames queued for MC3 -/
def RXQ_FILL : Reg := reg 0x40080 0 3 .ro 0
/-- Removes the head frame -/
def RX_POP : Reg := reg 0x40084 0 1 .sc 0 |>.only [4]
/-- Head frame -/
def RX_DST : Reg := reg 0x40088 0 8 .ro 0
/-- Head frame -/
def RX_SRC : Reg := reg 0x40088 8 8 .ro 0
/-- Head frame -/
def RX_TYPE : Reg := reg 0x40088 16 8 .ro 0
/-- Head frame -/
def RX_SEQ : Reg := reg 0x40088 24 8 .ro 0
/-- Its LEN -/
def RX_LEN : Reg := reg 0x4008C 0 8 .ro 0
/-- Under R616, a pair under R48 -/
def RX_END_TIME_LO : Reg := reg 0x40090 0 32 .ro 0
/-- Under R616, a pair under R48 -/
def RX_END_TIME_HI : Reg := reg 0x40094 0 32 .ro 0
/-- Payload, byte i at 0x100 + i -/
def RX_DATA : Reg := reg 0x40100 0 32 .ro 0 |>.arr 60 4
/-- Reply payload length, 1–240 -/
def TX_LEN : Reg := reg 0x40200 0 8 .rw 0 |>.only [4]
/-- Send the reply to the head frame, and pop it -/
def TX_COMMIT : Reg := reg 0x40204 0 1 .sc 0 |>.only [4]
/-- Reply payload, STATUS at 0x300 -/
def TX_DATA : Reg := reg 0x40300 0 32 .rw 0 |>.arr 60 4 |>.only [4]
/-- The page: base, pages, block code, reset domain, fields. -/
def page : Page :=
  ⟨0x40000, 1, 0x2800, .por, [ SLOT_ID, ADDR_VALID, SILENT, SILENCE_SEEN, LAST_VALID_LO, LAST_VALID_HI, FRAMES_OK, CRC_ERR, FRAMING, COLLISIONS, DUPLICATES, BUSY_REPLIES, RXQ_FILL, RX_POP, RX_DST, RX_SRC, RX_TYPE, RX_SEQ, RX_LEN, RX_END_TIME_LO, RX_END_TIME_HI, RX_DATA, TX_LEN, TX_COMMIT, TX_DATA ]⟩
end SUPV

/-! Page CAL, spec/19_supervisor_trust.md. -/
namespace CAL
/-- Reads tray time; a write loads it under R69 and R614 -/
def TIME_LO : Reg := reg 0x41040 0 32 .rw 0 |>.only [1, 2, 3, 4]
/-- Reads tray time; a write loads it under R69 and R614 -/
def TIME_HI : Reg := reg 0x41044 0 32 .rw 0 |>.only [1, 2, 3, 4]
/-- Under R615 -/
def SLEW : Reg := reg 0x41048 0 24 .rw 0 |>.only [1, 2, 3, 4]
/-- Under R613 and R614 -/
def CAL_VALID : Reg := reg 0x4104C 0 1 .ro 0
/-- Under R613 -/
def ON_VBAT : Reg := reg 0x4104C 1 1 .ro 0
/-- Under R617 -/
def BAT_LOW : Reg := reg 0x4104C 2 1 .ro 0
/-- 0 coin cell, 1 supercapacitor -/
def BAT_KIND : Reg := reg 0x4104C 8 1 .fuse 0 |>.fac
/-- Applied loads -/
def LOADS : Reg := reg 0x41050 0 16 .cnt 0
/-- The page: base, pages, block code, reset domain, fields. -/
def page : Page :=
  ⟨0x41000, 1, 0x2801, .cal, [ TIME_LO, TIME_HI, SLEW, CAL_VALID, ON_VBAT, BAT_LOW, BAT_KIND, LOADS ]⟩
end CAL

/-! Page TRAYID, spec/19_supervisor_trust.md. -/
namespace TRAYID
/-- Under R618 -/
def TRAY_ID_LO : Reg := reg 0x42040 0 32 .fuse 0 |>.fac
/-- Under R618 -/
def TRAY_ID_HI : Reg := reg 0x42044 0 32 .fuse 0 |>.fac
/-- Under R618; MC3 only -/
def INST_TAG_LO : Reg := reg 0x42048 0 32 .fuse 0 |>.only [4] |>.fac
/-- Under R618; MC3 only -/
def INST_TAG_HI : Reg := reg 0x4204C 0 32 .fuse 0 |>.only [4] |>.fac
/-- INST_TAG is written -/
def TAG_SET : Reg := reg 0x42050 0 1 .ro 0 |>.fac
/-- 0x01 ADV-T8L, 0x02 ADV-T8A -/
def VARIANT : Reg := reg 0x42050 8 8 .ro 0 |>.fac
/-- Under R623, for k = 0–3 -/
def REVOKE : Reg := reg 0x42054 0 1 .fuse 0 |>.arr 4 4 |>.only [1, 2, 3, 4] |>.fac
/-- Under R622 -/
def KEY_IN_FORCE : Reg := reg 0x42064 0 2 .ro 0
/-- The page: base, pages, block code, reset domain, fields. -/
def page : Page :=
  ⟨0x42000, 1, 0x2802, .por, [ TRAY_ID_LO, TRAY_ID_HI, INST_TAG_LO, INST_TAG_HI, TAG_SET, VARIANT, REVOKE, KEY_IN_FORCE ]⟩
end TRAYID

/-! Page HLS, spec/20_failure.md. -/
namespace HLS
/-- 0.1 µA, under R522 and R642 -/
def LEAK_TRIP : Reg := reg 0x48040 0 10 .otw 0x96 |>.only [1, 2, 3, 4]
/-- 0.1 µA -/
def LEAK_REL : Reg := reg 0x48040 16 10 .otw 0x50 |>.only [1, 2, 3, 4]
/-- ms -/
def TA_FENCE : Reg := reg 0x48044 0 10 .otw 0x32 |>.only [1, 2, 3, 4]
/-- ms -/
def TA_TRIP : Reg := reg 0x48044 16 14 .otw 0x3E8 |>.only [1, 2, 3, 4]
/-- A -/
def IIN_TRIP : Reg := reg 0x48048 0 8 .otw 0xBE |>.only [1, 2, 3, 4]
/-- ms, under R637 -/
def FENCE_TO : Reg := reg 0x4804C 0 14 .otw 0x64 |>.only [1, 2, 3, 4]
/-- A leak trip is latched -/
def LEAK_TRIPPED : Reg := reg 0x48050 0 1 .ro 0
/-- Power-fail has tripped the tray since the last start -/
def PF_TRIPPED : Reg := reg 0x48050 1 1 .ro 0
/-- The input-current limit has tripped the tray -/
def IIN_TRIPPED : Reg := reg 0x48050 2 1 .ro 0
/-- Copy of SUPV.SILENT -/
def SILENT : Reg := reg 0x48050 3 1 .ro 0
/-- Bit n: THERM_ALERT_n is being counted -/
def TA_ACTIVE : Reg := reg 0x48050 8 8 .ro 0
/-- Bit k: the limit at position k of the table of R642 has been written -/
def LIMITS_SET : Reg := reg 0x48054 0 6 .ro 0
/-- Input current in A, updated every 1 ms -/
def IIN : Reg := reg 0x48058 0 8 .ro 0
/-- The page: base, pages, block code, reset domain, fields. -/
def page : Page :=
  ⟨0x48000, 1, 0x2900, .por, [ LEAK_TRIP, LEAK_REL, TA_FENCE, TA_TRIP, IIN_TRIP, FENCE_TO, LEAK_TRIPPED, PF_TRIPPED, IIN_TRIPPED, SILENT, TA_ACTIVE, LIMITS_SET, IIN ]⟩
end HLS

/-! Page FENCE, spec/20_failure.md. -/
namespace FENCE
/-- Bit n asserts FENCE_n; MC0 only -/
def FENCE_SET : Reg := reg 0x49040 0 8 .wo 0 |>.only [1]
/-- Bit n asserts TRIP_n; MC0 only -/
def TRIP_SET : Reg := reg 0x49044 0 8 .wo 0 |>.only [1]
/-- Bit n releases TRIP_n under R635; MC0 only -/
def TRIP_REL : Reg := reg 0x49044 8 8 .wo 0 |>.only [1]
/-- Bit n: FENCE_n is asserted -/
def FENCE_NOW : Reg := reg 0x49048 0 8 .ro 0
/-- Bit n: TRIP_n is asserted -/
def TRIP_NOW : Reg := reg 0x49048 8 8 .ro 0xFF
/-- Bit n: FENCED_n, under R636 -/
def FENCED : Reg := reg 0x49048 16 8 .ro 0
/-- 0 none, 1 MC0, 2 DIE_FAULT, 3 THERM_ALERT, 4 OOS -/
def FENCE_SRC : Reg := reg 0x4904C 0 3 .ro 0 |>.arr 8 4
/-- 0 none, 1 MC0, 2 FENCE_TO, 3 THERM_ALERT, 4 rail loss, 5 tray-wide trip -/
def TRIP_SRC : Reg := reg 0x4904C 4 3 .ro 0 |>.arr 8 4
/-- Under R634 -/
def LOST : Reg := reg 0x4904C 16 1 .ro 0 |>.arr 8 4
/-- Under R645 -/
def OOS : Reg := reg 0x49070 0 1 .ro 0
/-- 0 none, 1 DIES_SHORT, 2 MC_HELD, 3 LEAK, 4 POWER_FAIL, 5 INPUT_OC -/
def OOS_CAUSE : Reg := reg 0x49070 8 4 .ro 0
/-- Fence assertions since tray reset -/
def FENCES : Reg := reg 0x49074 0 16 .cnt 0
/-- The page: base, pages, block code, reset domain, fields. -/
def page : Page :=
  ⟨0x49000, 1, 0x2901, .tray, [ FENCE_SET, TRIP_SET, TRIP_REL, FENCE_NOW, TRIP_NOW, FENCED, FENCE_SRC, TRIP_SRC, LOST, OOS, OOS_CAUSE, FENCES ]⟩
end FENCE

/-! Page OWN, spec/20_failure.md. -/
namespace OWN
/-- Owner of semaphore k, for k = 0–15 -/
def SEM_OWNER : Reg := reg 0x4A040 0 10 .ro 0 |>.arr 16 4
/-- Semaphore k is held -/
def SEM_HELD : Reg := reg 0x4A040 16 1 .ro 0 |>.arr 16 4
/-- Semaphore named -/
def SEM : Reg := reg 0x4A080 0 4 .rw 0 |>.arr 4 4 |>.each [1, 2, 3, 4]
/-- Under R652 -/
def CLAIM : Reg := reg 0x4A080 8 1 .sc 0 |>.arr 4 4 |>.each [1, 2, 3, 4]
/-- Under R652 -/
def RELEASE : Reg := reg 0x4A080 9 1 .sc 0 |>.arr 4 4 |>.each [1, 2, 3, 4]
/-- 0 NONE, 1 GRANTED, 2 BUSY, 3 RELEASED -/
def RESULT : Reg := reg 0x4A080 16 2 .ro 0 |>.arr 4 4
/-- Requester number of the last core whose resources were released -/
def LAST_CORE : Reg := reg 0x4A0C0 0 10 .ro 0
/-- [16] two-wire, [17] reservation, [18] mailbox, [19] semaphore -/
def LAST_KINDS : Reg := reg 0x4A0C0 16 4 .ro 0
/-- Releases under R651 -/
def RELEASES : Reg := reg 0x4A0C4 0 16 .cnt 0
/-- The page: base, pages, block code, reset domain, fields. -/
def page : Page :=
  ⟨0x4A000, 1, 0x2902, .tray, [ SEM_OWNER, SEM_HELD, SEM, CLAIM, RELEASE, RESULT, LAST_CORE, LAST_KINDS, RELEASES ]⟩
end OWN

end Sys2Proof.Machine
end

