-- ==== Sys2Proof/Machine/RegsDie.lean ====
section
/-! DEFINITION. The register fields of every page of an Obiapen die, one definition a field, from the field tables of spec/. -/

namespace Sys2Proof.Machine

/-! Page DSYS, spec/04_start_of_day.md. -/
namespace DSYS
/-- Die number, from board position under R19 -/
def DIE_NUM : Reg := reg 0x40 0 3 .ro 0 |>.fac
/-- 0x01 Obiapen, 0x02 Obiapen-S -/
def MEMBER : Reg := reg 0x40 8 8 .ro 0 |>.fac
/-- Logical columns: 64 -/
def LOG_COLS : Reg := reg 0x44 0 8 .ro 0 |>.fac
/-- Logical rows: 64 -/
def LOG_ROWS : Reg := reg 0x44 8 8 .ro 0 |>.fac
/-- Column groups: 4 -/
def CGROUPS : Reg := reg 0x44 16 4 .ro 0 |>.fac
/-- Stacks: 4 -/
def HBM_STACKS : Reg := reg 0x44 20 4 .ro 0 |>.fac
/-- GiB per stack: 24 -/
def STACK_GIB : Reg := reg 0x44 24 8 .ro 0 |>.fac
/-- 256 -/
def GATE_UNITS : Reg := reg 0x48 0 10 .ro 0 |>.fac
/-- 48 -/
def HASP_LINKS : Reg := reg 0x48 16 6 .ro 0 |>.fac
/-- 65,536 -/
def DESCRIPTORS : Reg := reg 0x4C 0 17 .ro 0 |>.fac
/-- Design power in W: 850 -/
def DESIGN_W : Reg := reg 0x50 0 16 .ro 0 |>.fac
/-- 64-bit die serial number, read under R48 -/
def SERIAL_LO : Reg := reg 0x54 0 32 .ro 0 |>.fac
/-- 64-bit die serial number, read under R48 -/
def SERIAL_HI : Reg := reg 0x58 0 32 .ro 0 |>.fac
/-- The page: base, pages, block code, reset domain, fields. -/
def page : Page :=
  ⟨0, 1, 0x1000, .die, [ DIE_NUM, MEMBER, LOG_COLS, LOG_ROWS, CGROUPS, HBM_STACKS, STACK_GIB, GATE_UNITS, HASP_LINKS, DESCRIPTORS, DESIGN_W, SERIAL_LO, SERIAL_HI ]⟩
end DSYS

/-! Page DCLK, spec/04_start_of_day.md. -/
namespace DCLK
/-- Tile PLL locked -/
def TILE_LOCK : Reg := reg 0x1040 0 1 .ro 0
/-- Bit k: link PLL k locked -/
def LG_LOCK : Reg := reg 0x1040 1 6 .ro 0
/-- HBM PLL locked -/
def HBM_LOCK : Reg := reg 0x1040 7 1 .ro 0
/-- Warden PLL locked -/
def WARDEN_LOCK : Reg := reg 0x1040 8 1 .ro 0
/-- PCIe PLL locked -/
def PCIE_LOCK : Reg := reg 0x1040 9 1 .ro 0
/-- Tile clock in force, in MHz -/
def TILE_MHZ : Reg := reg 0x1044 0 12 .ro 0x1F4
/-- Losses of lock under R122 -/
def LOL_COUNT : Reg := reg 0x1048 0 16 .cnt 0
/-- The page: base, pages, block code, reset domain, fields. -/
def page : Page :=
  ⟨0x1000, 1, 0x1001, .die, [ TILE_LOCK, LG_LOCK, HBM_LOCK, WARDEN_LOCK, PCIE_LOCK, TILE_MHZ, LOL_COUNT ]⟩
end DCLK

/-! Page DRST, spec/04_start_of_day.md. -/
namespace DRST
/-- This die reset followed rails coming up -/
def FIRST_POWER : Reg := reg 0x2040 0 1 .ro 1
/-- DIE_READY has been recorded -/
def READY_SENT : Reg := reg 0x2040 1 1 .ro 0
/-- PCIe resets of this endpoint since die reset -/
def PCIE_RESETS : Reg := reg 0x2044 0 16 .cnt 0
/-- The page: base, pages, block code, reset domain, fields. -/
def page : Page :=
  ⟨0x2000, 1, 0x1002, .die, [ FIRST_POWER, READY_SENT, PCIE_RESETS ]⟩
end DRST

/-! Page DFUSE, spec/04_start_of_day.md. -/
namespace DFUSE
/-- Signed VCORE offset in 5 mV steps, −8 to +12, under R90 -/
def VTRIM : Reg := reg 0x3040 0 8 .fuse 0 |>.fac
/-- The fuse load is complete -/
def FUSES_LOADED : Reg := reg 0x3040 31 1 .ro 0
/-- The page: base, pages, block code, reset domain, fields. -/
def page : Page :=
  ⟨0x3000, 1, 0x1003, .die, [ VTRIM, FUSES_LOADED ]⟩
end DFUSE

/-! Page HMBX, spec/03_rails.md. -/
namespace HMBX
/-- Sync hinges passed since context open -/
def SYNC_NOW : Reg := reg 0x4040 0 32 .ro 0
/-- Running point -/
def RUN_OP : Reg := reg 0x4044 0 3 .ro 0
/-- Idle beats in force, under R105 -/
def IDLE_BEATS : Reg := reg 0x4044 8 8 .ro 0
/-- A hold is in progress -/
def HOLD_ACTIVE : Reg := reg 0x4044 24 1 .ro 0
/-- The idle clock source is locked -/
def PLL_READY : Reg := reg 0x4044 25 1 .ro 0
/-- Target point -/
def S_TARGET_OP : Reg := reg 0x4080 0 3 .rw 0 |>.arr 8 0x10 |>.only [480]
/-- For THROTTLE -/
def S_IDLE_BEATS : Reg := reg 0x4080 8 8 .rw 0 |>.arr 8 0x10 |>.only [480]
/-- Hold time, under R104 -/
def S_HOLD_US : Reg := reg 0x4080 16 16 .rw 0 |>.arr 8 0x10 |>.only [480]
/-- Target sync hinge -/
def S_H : Reg := reg 0x4084 0 32 .rw 0 |>.arr 8 0x10 |>.only [480]
/-- Context number -/
def S_CONTEXT : Reg := reg 0x4088 0 16 .rw 0 |>.arr 8 0x10 |>.only [480]
/-- Transition ID -/
def S_TID : Reg := reg 0x4088 16 8 .rw 0 |>.arr 8 0x10 |>.only [480]
/-- Written last, under R93 -/
def S_VALID : Reg := reg 0x408C 0 1 .rw 0 |>.arr 8 0x10 |>.only [480]
/-- 0x1 OP_CHANGE, 0x2 THROTTLE, 0x3 TEST_SLOT as "Self-test and calibration in service" states, 0x4 OP_FORCE -/
def S_KIND : Reg := reg 0x408C 4 4 .rw 0 |>.arr 8 0x10 |>.only [480]
/-- 0 EMPTY, 1 ACCEPTED, 2 DONE, 3 REFUSED_LATE, 4 REFUSED_STALE, 5 REFUSED_BAD, 6 DISCARDED, 7 SUPERSEDED, 8 VOLT_LATE -/
def R_STATUS : Reg := reg 0x4100 0 4 .ro 0 |>.arr 8 4
/-- Transition ID the status refers to -/
def R_TID : Reg := reg 0x4100 8 8 .ro 0 |>.arr 8 4
/-- For DONE, bits [15:0] of the hinge at which the request took effect -/
def R_DETAIL : Reg := reg 0x4100 16 16 .ro 0 |>.arr 8 4
/-- The page: base, pages, block code, reset domain, fields. -/
def page : Page :=
  ⟨0x4000, 1, 0x1004, .die, [ SYNC_NOW, RUN_OP, IDLE_BEATS, HOLD_ACTIVE, PLL_READY, S_TARGET_OP, S_IDLE_BEATS, S_HOLD_US, S_H, S_CONTEXT, S_TID, S_VALID, S_KIND, R_STATUS, R_TID, R_DETAIL ]⟩
end HMBX

/-! Page WLOAD, spec/05_firmware.md. -/
namespace WLOAD
/-- Release W0, under R152 -/
def RELEASE_W0 : Reg := reg 0x500040 0 1 .sc 0
/-- Release W1 -/
def RELEASE_W1 : Reg := reg 0x500040 1 1 .sc 0
/-- The core is released and not in core reset -/
def W0_RUN : Reg := reg 0x500044 0 1 .ro 0
/-- The core is released and not in core reset -/
def W1_RUN : Reg := reg 0x500044 1 1 .ro 0
/-- Release refused for an invalid image header -/
def W0_BAD : Reg := reg 0x500044 2 1 .ro 0
/-- Release refused for an invalid image header -/
def W1_BAD : Reg := reg 0x500044 3 1 .ro 0
/-- Held under R156 -/
def W0_HELD : Reg := reg 0x500044 4 1 .ro 0
/-- Held under R156 -/
def W1_HELD : Reg := reg 0x500044 5 1 .ro 0
/-- 0 W0, 1 W1 -/
def IMG_SEL : Reg := reg 0x500048 0 1 .rw 0
/-- Byte offset in the selected core's SRAM; multiple of 4. Reads 0x4_0000 after the last word of the SRAM, under R151. -/
def IMG_ADDR : Reg := reg 0x50004C 0 19 .rw 0
/-- Stores a word at IMG_ADDR, which then counts up by 4 -/
def IMG_DATA : Reg := reg 0x500050 0 32 .wo 0
/-- BUNDLE_ID from the W0 image header -/
def BID_W0_LO : Reg := reg 0x500054 0 32 .ro 0
/-- BUNDLE_ID from the W0 image header -/
def BID_W0_HI : Reg := reg 0x500058 0 32 .ro 0
/-- BUNDLE_ID from the W1 image header -/
def BID_W1_LO : Reg := reg 0x50005C 0 32 .ro 0
/-- BUNDLE_ID from the W1 image header -/
def BID_W1_HI : Reg := reg 0x500060 0 32 .ro 0
/-- Fires within 10 s before a warden core is held -/
def RESTART_LIMIT : Reg := reg 0x500064 0 4 .lk 3
/-- The page: base, pages, block code, reset domain, fields. -/
def page : Page :=
  ⟨0x500000, 1, 0x1500, .die, [ RELEASE_W0, RELEASE_W1, W0_RUN, W1_RUN, W0_BAD, W1_BAD, W0_HELD, W1_HELD, IMG_SEL, IMG_ADDR, IMG_DATA, BID_W0_LO, BID_W0_HI, BID_W1_LO, BID_W1_HI, RESTART_LIMIT ]⟩
end WLOAD

/-! Page WCORE, spec/05_firmware.md. -/
namespace WCORE
/-- Timeout in 10 µs units, under R154 -/
def WDT_TIMEOUT : Reg := reg 0x501040 0 20 .lk 0x1388 |>.arr 2 0 1 0x1000 |>.each [0, 1]
/-- 0xA5C3 reloads the count -/
def WDT_KICK : Reg := reg 0x501044 0 16 .wo 0 |>.arr 2 0 1 0x1000 |>.each [0, 1]
/-- Count remaining -/
def WDT_REMAIN : Reg := reg 0x501048 0 20 .ro 0 |>.arr 2 0 1 0x1000
/-- Watchdog fires since die reset -/
def WDT_FIRES : Reg := reg 0x50104C 0 16 .cnt 0 |>.arr 2 0 1 0x1000
/-- RESTART offset in force -/
def RESTART_PC : Reg := reg 0x501050 0 18 .ro 0 |>.arr 2 0 1 0x1000
/-- 0 release, 1 watchdog -/
def LAST_CAUSE : Reg := reg 0x501054 0 1 .ro 0 |>.arr 2 0 1 0x1000
/-- The page: base, pages, block code, reset domain, fields. -/
def page : Page :=
  ⟨0x501000, 2, 0x1501, .die, [ WDT_TIMEOUT, WDT_KICK, WDT_REMAIN, WDT_FIRES, RESTART_PC, LAST_CAUSE ]⟩
end WCORE

/-! Page TARITH, spec/06_tumbler.md. -/
namespace TARITH
/-- OR of the flags of every section since last cleared -/
def SUM_FLAGS : Reg := reg 0x4F0040 0 5 .w1c 0
/-- OR of the flags of the last section -/
def LAST_FLAGS : Reg := reg 0x4F0044 0 5 .ro 0
/-- Number of tumblers with any flag in the last section -/
def LAST_COUNT : Reg := reg 0x4F0044 16 13 .ro 0
/-- Logical column of the lowest row-major flagged tumbler -/
def FIRST_COL : Reg := reg 0x4F0048 0 6 .ro 0
/-- Its logical row -/
def FIRST_ROW : Reg := reg 0x4F0048 8 6 .ro 0
/-- FIRST_COL and FIRST_ROW name a tumbler -/
def FIRST_VALID : Reg := reg 0x4F0048 16 1 .ro 0
/-- Sections in which any flag was set -/
def SECTIONS_FLAGGED : Reg := reg 0x4F004C 0 32 .cnt 0
/-- Bit k: flag k records event 0x1601, under R198 -/
def EVENT_MASK : Reg := reg 0x4F0050 0 5 .rw 0x1B
/-- The page: base, pages, block code, reset domain, fields. -/
def page : Page :=
  ⟨0x4F0000, 1, 0x14F0, .die, [ SUM_FLAGS, LAST_FLAGS, LAST_COUNT, FIRST_COL, FIRST_ROW, FIRST_VALID, SECTIONS_FLAGGED, EVENT_MASK ]⟩
end TARITH

/-! Page TPROBE, spec/06_tumbler.md. -/
namespace TPROBE
/-- Logical column selected -/
def COL : Reg := reg 0x4F1040 0 6 .rw 0
/-- Logical row selected -/
def ROW : Reg := reg 0x4F1040 8 6 .rw 0
/-- The tumbler's flags in the last section -/
def FLAGS : Reg := reg 0x4F1044 0 5 .ro 0
/-- The tumbler had reached HALT -/
def HALTED : Reg := reg 0x4F1044 8 1 .ro 0
/-- Address of the tumbler's last issued micro-word -/
def ADDR : Reg := reg 0x4F1044 16 11 .ro 0
/-- Bank active in the section: 0 A, 1 B -/
def BANK : Reg := reg 0x4F1044 31 1 .ro 0
/-- L0 count -/
def L0_COUNT : Reg := reg 0x4F1048 0 14 .ro 0
/-- L0 start address -/
def L0_START : Reg := reg 0x4F1048 16 11 .ro 0
/-- L1 count -/
def L1_COUNT : Reg := reg 0x4F104C 0 14 .ro 0
/-- L1 start address -/
def L1_START : Reg := reg 0x4F104C 16 11 .ro 0
/-- The page: base, pages, block code, reset domain, fields. -/
def page : Page :=
  ⟨0x4F1000, 1, 0x14F1, .die, [ COL, ROW, FLAGS, HALTED, ADDR, BANK, L0_COUNT, L0_START, L1_COUNT, L1_START ]⟩
end TPROBE

/-! Page KWAY, spec/07_keyway.md. -/
namespace KWAY
/-- Vector route entries in the active key -/
def ROUTES_V : Reg := reg 0x420040 0 12 .ro 0
/-- Scalar route entries -/
def ROUTES_S : Reg := reg 0x420044 0 12 .ro 0
/-- Control route entries -/
def ROUTES_C : Reg := reg 0x420048 0 12 .ro 0
/-- Most vector channels used on any one link -/
def PEAK_CH_V : Reg := reg 0x42004C 0 4 .ro 0
/-- Most scalar channels used on any one link -/
def PEAK_CH_S : Reg := reg 0x42004C 8 5 .ro 0
/-- Most control channels used on any one link -/
def PEAK_CH_C : Reg := reg 0x42004C 16 3 .ro 0
/-- Words driven onto taps that no route serves, under R211 -/
def UNROUTED_DRIVES : Reg := reg 0x420050 0 32 .cnt 0
/-- Captures from taps that no route serves -/
def UNROUTED_CAPTURES : Reg := reg 0x420054 0 32 .cnt 0
/-- The page: base, pages, block code, reset domain, fields. -/
def page : Page :=
  ⟨0x420000, 1, 0x1420, .die, [ ROUTES_V, ROUTES_S, ROUTES_C, PEAK_CH_V, PEAK_CH_S, PEAK_CH_C, UNROUTED_DRIVES, UNROUTED_CAPTURES ]⟩
end KWAY

/-! Page CSKIP, spec/07_keyway.md. -/
namespace CSKIP
/-- Skipped physical column within group g, under R217 and R219. Written by W0 only. -/
def SKIP : Reg := reg 0x430040 0 5 .rw 0 |>.arr 4 4 |>.shadow |>.only [0] |>.fac
/-- Bit g: group g is locked, under R219 and R226 -/
def LOCKED : Reg := reg 0x430050 0 4 .ro 0 |>.fac
/-- Bit g: FUSE_COL_g is written -/
def FUSED : Reg := reg 0x430050 4 4 .ro 0 |>.fac
/-- Bit g: group g changed in service -/
def CHANGED : Reg := reg 0x430050 8 4 .ro 0
/-- The skip phase is running -/
def SKIPPING : Reg := reg 0x430050 16 1 .ro 0
/-- Failed column of each group, written under R220. 0x1F means unwritten. -/
def FUSE_COL_0 : Reg := reg 0x430054 0 5 .fuse 0 |>.only [0] |>.fac
/-- Failed column of each group, written under R220. 0x1F means unwritten. -/
def FUSE_COL_1 : Reg := reg 0x430054 8 5 .fuse 0 |>.only [0] |>.fac
/-- Failed column of each group, written under R220. 0x1F means unwritten. -/
def FUSE_COL_2 : Reg := reg 0x430054 16 5 .fuse 0 |>.only [0] |>.fac
/-- Failed column of each group, written under R220. 0x1F means unwritten. -/
def FUSE_COL_3 : Reg := reg 0x430054 24 5 .fuse 0 |>.only [0] |>.fac
/-- Enabled tile cycles of the last skip phase, freeze cycles included -/
def LAST_PHASE_CYCLES : Reg := reg 0x430058 0 32 .ro 0
/-- Skip phases completed since die reset -/
def SKIP_CHANGES : Reg := reg 0x43005C 0 16 .cnt 0
/-- Test slots too short under R223 -/
def DEFERRALS : Reg := reg 0x430060 0 16 .cnt 0
/-- The page: base, pages, block code, reset domain, fields. -/
def page : Page :=
  ⟨0x430000, 1, 0x1430, .die, [ SKIP, LOCKED, FUSED, CHANGED, SKIPPING, FUSE_COL_0, FUSE_COL_1, FUSE_COL_2, FUSE_COL_3, LAST_PHASE_CYCLES, SKIP_CHANGES, DEFERRALS ]⟩
end CSKIP

/-! Page ARRAY, spec/08_keys_hinges.md. -/
namespace ARRAY
/-- Key to load -/
def NEXT_KEY : Reg := reg 0x400040 0 12 .rw 0 |>.only [0]
/-- Start the load, under R247 -/
def LOAD : Reg := reg 0x400040 16 1 .sc 0 |>.only [0]
/-- Key in the active bank -/
def ACTIVE_KEY : Reg := reg 0x400044 0 12 .ro 0
/-- Key in, or loading into, the shadow bank -/
def SHADOW_KEY : Reg := reg 0x400044 12 12 .ro 0
/-- The shadow load is complete -/
def SHADOW_READY : Reg := reg 0x400044 24 1 .ro 0
/-- A load is running -/
def LOADING : Reg := reg 0x400044 25 1 .ro 0
/-- 0 idle, 1 section, 2 quiesce, 3 load wait, 4 swap, 5 mailbox actions, 6 release wait, 7 stopped -/
def PHASE : Reg := reg 0x400044 26 3 .ro 0
/-- The clock enable is low -/
def FROZEN : Reg := reg 0x400044 31 1 .ro 0
/-- Enabled cycles since cycle 0 of the active key -/
def SECTION_CYCLE : Reg := reg 0x400048 0 32 .ro 0
/-- Hinges passed -/
def HINGES : Reg := reg 0x40004C 0 32 .cnt 0
/-- Enabled cycles of the last quiesce -/
def LAST_QUIESCE : Reg := reg 0x400050 0 24 .ro 0
/-- Tile cycles from Step 6 to the next key's start at the last sync hinge -/
def LAST_RELEASE_WAIT : Reg := reg 0x400054 0 24 .ro 0
/-- Under R254 -/
def LOAD_WAIT_CYCLES : Reg := reg 0x400058 0 32 .cnt 0
/-- Under R250 -/
def FREEZE_TOTAL : Reg := reg 0x40005C 0 32 .cnt 0
/-- µs, from 100 to 10,000,000; under R251 -/
def FREEZE_LIMIT : Reg := reg 0x400060 0 24 .lk 0x2710
/-- 0xF normal form; n is the variant for lost die n -/
def FORM : Reg := reg 0x400064 0 4 .ro 0xF
/-- The page: base, pages, block code, reset domain, fields. -/
def page : Page :=
  ⟨0x400000, 1, 0x1400, .die, [ NEXT_KEY, LOAD, ACTIVE_KEY, SHADOW_KEY, SHADOW_READY, LOADING, PHASE, FROZEN, SECTION_CYCLE, HINGES, LAST_QUIESCE, LAST_RELEASE_WAIT, LOAD_WAIT_CYCLES, FREEZE_TOTAL, FREEZE_LIMIT, FORM ]⟩
end ARRAY

/-! Page KRING, spec/08_keys_hinges.md. -/
namespace KRING
/-- Die-local address of the header, a pair under R48; [39:32] in BASE_HI. Writable only under R245. -/
def BASE_LO : Reg := reg 0x401040 0 32 .rw 0 |>.only [0]
/-- Die-local address of the header, a pair under R48; [39:32] in BASE_HI. Writable only under R245. -/
def BASE_HI : Reg := reg 0x401044 0 32 .rw 0 |>.only [0]
/-- Start the check of R245. Discarded while a check runs. -/
def CHECK : Reg := reg 0x401048 0 1 .sc 0 |>.only [0]
/-- A check is running -/
def CHECKING : Reg := reg 0x40104C 0 1 .ro 0
/-- The keyring has passed -/
def VERIFIED : Reg := reg 0x40104C 1 1 .ro 0
/-- 0 none; otherwise the code of R245 -/
def VERDICT : Reg := reg 0x40104C 8 8 .ro 0
/-- From the header -/
def NKEYS : Reg := reg 0x401050 0 13 .ro 0
/-- From the header -/
def MIN_SYNC_BEATS : Reg := reg 0x401054 0 32 .ro 0
/-- From the header -/
def KEYRING_ID_LO : Reg := reg 0x401058 0 32 .ro 0
/-- From the header -/
def KEYRING_ID_HI : Reg := reg 0x40105C 0 32 .ro 0
/-- Bit n: the variant for lost die n is present -/
def VARIANTS : Reg := reg 0x401060 0 8 .ro 0
/-- The page: base, pages, block code, reset domain, fields. -/
def page : Page :=
  ⟨0x401000, 1, 0x1401, .die, [ BASE_LO, BASE_HI, CHECK, CHECKING, VERIFIED, VERDICT, NKEYS, MIN_SYNC_BEATS, KEYRING_ID_LO, KEYRING_ID_HI, VARIANTS ]⟩
end KRING

/-! Page KLOAD, spec/08_keys_hinges.md. -/
namespace KLOAD
/-- Refusal code -/
def CODE : Reg := reg 0x402040 0 8 .ro 0
/-- The record holds a refusal -/
def VALID : Reg := reg 0x402040 8 1 .w1c 0
/-- 1 refused by a load; 0 refused by the keyring check -/
def AT_LOAD : Reg := reg 0x402040 9 1 .ro 0
/-- Key number -/
def KEY : Reg := reg 0x402044 0 12 .ro 0
/-- 0xF normal form; n a variant -/
def FORM : Reg := reg 0x402044 12 4 .ro 0
/-- Logical column, if POS_VALID -/
def COL : Reg := reg 0x402048 0 6 .ro 0
/-- Logical row -/
def ROW : Reg := reg 0x402048 8 6 .ro 0
/-- COL and ROW name a tumbler -/
def POS_VALID : Reg := reg 0x402048 14 1 .ro 0
/-- Micro-word address, route entry, gate unit or step index concerned -/
def ENTRY : Reg := reg 0x402048 16 16 .ro 0
/-- Loads completed -/
def LOADS : Reg := reg 0x40204C 0 32 .cnt 0
/-- Tile cycles of the last load -/
def LAST_LOAD_CYCLES : Reg := reg 0x402050 0 16 .ro 0
/-- The page: base, pages, block code, reset domain, fields. -/
def page : Page :=
  ⟨0x402000, 1, 0x1402, .die, [ CODE, VALID, AT_LOAD, KEY, FORM, COL, ROW, POS_VALID, ENTRY, LOADS, LAST_LOAD_CYCLES ]⟩
end KLOAD

/-! Page GATE, spec/08_keys_hinges.md. -/
namespace GATE
/-- Gate unit selected -/
def GUSEL : Reg := reg 0x410040 0 8 .rw 0
/-- Entries in the ingress part -/
def IN_FILL : Reg := reg 0x410044 0 12 .ro 0
/-- Entries in the egress part -/
def EG_FILL : Reg := reg 0x410044 16 12 .ro 0
/-- The gate unit has a record in the active key -/
def ACTIVE : Reg := reg 0x410044 31 1 .ro 0
/-- Freeze cycles held for a SEND, under R250 -/
def FREEZE_UNDER : Reg := reg 0x410048 0 32 .cnt 0
/-- Freeze cycles held for a TAKE -/
def FREEZE_OVER : Reg := reg 0x41004C 0 32 .cnt 0
/-- Ingress words discarded under R261 -/
def LEFTOVER : Reg := reg 0x410050 0 32 .cnt 0
/-- Gate unit with the most freeze cycles in the last section -/
def TOP_GU : Reg := reg 0x410054 0 8 .ro 0
/-- Its freeze cycles in that section -/
def TOP_CYCLES : Reg := reg 0x410054 8 24 .ro 0
/-- Gate unit whose request held the freeze at the limit of R251 -/
def LIMIT_GU : Reg := reg 0x410058 0 8 .ro 0
/-- The page: base, pages, block code, reset domain, fields. -/
def page : Page :=
  ⟨0x410000, 1, 0x1410, .die, [ GUSEL, IN_FILL, EG_FILL, ACTIVE, FREEZE_UNDER, FREEZE_OVER, LEFTOVER, TOP_GU, TOP_CYCLES, LIMIT_GU ]⟩
end GATE

/-! Page HBM, spec/09_memory.md. -/
namespace HBM
/-- Stack k is trained -/
def TRAINED : Reg := reg 0x300040 0 1 .ro 0 |>.arr 4 0x10
/-- Stack temperature in °C -/
def TEMP : Reg := reg 0x300040 8 8 .ro 0 |>.arr 4 0x10
/-- 0 3.9 µs, 1 1.95 µs, 2 0.975 µs, under R271 -/
def TREFI : Reg := reg 0x300040 16 2 .ro 0 |>.arr 4 0x10
/-- Correctable errors, under R272 -/
def CE : Reg := reg 0x300044 0 32 .cnt 0 |>.arr 4 0x10
/-- Uncorrectable errors -/
def UE : Reg := reg 0x300048 0 16 .cnt 0 |>.arr 4 0x10
/-- Completed scrub passes -/
def SCRUB_PASSES : Reg := reg 0x30004C 0 16 .cnt 0 |>.arr 4 0x10
/-- The page: base, pages, block code, reset domain, fields. -/
def page : Page :=
  ⟨0x300000, 1, 0x1300, .die, [ TRAINED, TEMP, TREFI, CE, UE, SCRUB_PASSES ]⟩
end HBM

/-! Page PART, spec/09_memory.md. -/
namespace PART
/-- Base in 64 KiB units, under R274 and R275 -/
def BASE : Reg := reg 0x301040 0 24 .rw 0 |>.arr 6 8 |>.shadow
/-- Size in 64 KiB units -/
def SIZE : Reg := reg 0x301044 0 24 .rw 0 |>.arr 6 8 |>.shadow
/-- Under R275 -/
def CARVE_LOCKED : Reg := reg 0x301070 0 1 .ro 0
/-- The page: base, pages, block code, reset domain, fields. -/
def page : Page :=
  ⟨0x301000, 1, 0x1301, .die, [ BASE, SIZE, CARVE_LOCKED ]⟩
end PART

/-! Page WIN, spec/09_memory.md. -/
namespace WIN
/-- First 64 KiB unit -/
def BASE : Reg := reg 0x302040 0 24 .rw 0 |>.arr 16 0x10
/-- Last 64 KiB unit, inclusive -/
def LIMIT : Reg := reg 0x302044 0 24 .rw 0 |>.arr 16 0x10
/-- Rights, under R278 -/
def R : Reg := reg 0x302048 0 1 .rw 0 |>.arr 16 0x10
/-- Rights, under R278 -/
def W : Reg := reg 0x302048 1 1 .rw 0 |>.arr 16 0x10
/-- Rights, under R278 -/
def X : Reg := reg 0x302048 2 1 .rw 0 |>.arr 16 0x10
/-- Window enabled -/
def EN : Reg := reg 0x302048 31 1 .rw 0 |>.arr 16 0x10
/-- The page: base, pages, block code, reset domain, fields. -/
def page : Page :=
  ⟨0x302000, 1, 0x1302, .die, [ BASE, LIMIT, R, W, X, EN ]⟩
end WIN

/-! Page HEAP, spec/09_memory.md. -/
namespace HEAP
/-- Blocks of class n, under R283 -/
def COUNT : Reg := reg 0x303040 0 17 .rw 0 |>.arr 9 4
/-- Build the free lists, under R284. W1 only. -/
def INIT : Reg := reg 0x303064 0 1 .sc 0 |>.only [1]
/-- The lists are built -/
def INITED : Reg := reg 0x303068 0 1 .ro 0
/-- Free blocks of class n -/
def FREE : Reg := reg 0x303080 0 17 .ro 0 |>.arr 9 4
/-- ALLOCs answered NONE or BUSY -/
def NONE_COUNT : Reg := reg 0x3030A4 0 32 .cnt 0
/-- Class for ALLOC -/
def W_CLASS : Reg := reg 0x303100 0 4 .rw 0 |>.arr 3 0x10 |>.each [0, 1, 512]
/-- Request a block -/
def W_ALLOC : Reg := reg 0x303100 8 1 .sc 0 |>.arr 3 0x10 |>.each [0, 1, 512]
/-- Free the block named in ARG -/
def W_FREE : Reg := reg 0x303100 9 1 .sc 0 |>.arr 3 0x10 |>.each [0, 1, 512]
/-- Handle to free -/
def W_ARG : Reg := reg 0x303104 0 32 .rw 0 |>.arr 3 0x10 |>.each [0, 1, 512]
/-- Handle; 0x4000_0000 for NONE; 0x2000_0000 for BUSY; 0x1000_0000 for REFUSED; 0x8000_0000 for a FREE done -/
def W_RESULT : Reg := reg 0x303108 0 32 .ro 0 |>.arr 3 0x10
/-- The page: base, pages, block code, reset domain, fields. -/
def page : Page :=
  ⟨0x303000, 1, 0x1303, .die, [ COUNT, INIT, INITED, FREE, NONE_COUNT, W_CLASS, W_ALLOC, W_FREE, W_ARG, W_RESULT ]⟩
end HEAP

/-! Page MFAULT, spec/09_memory.md. -/
namespace MFAULT
/-- Copy of the first memory-fault record body, under R282 -/
def RECORD : Reg := reg 0x304040 0 32 .ro 0 |>.arr 8 4
/-- RECORD holds a record -/
def VALID : Reg := reg 0x304060 0 1 .w1c 0
/-- Memory faults of every kind, suppressed ones included -/
def TOTAL : Reg := reg 0x304064 0 32 .cnt 0
/-- The page: base, pages, block code, reset domain, fields. -/
def page : Page :=
  ⟨0x304000, 1, 0x1304, .die, [ RECORD, VALID, TOTAL ]⟩
end MFAULT

/-! Page MERR, spec/09_memory.md. -/
namespace MERR
/-- Corrected bay words, under R266 -/
def BAY_CE : Reg := reg 0x305040 0 32 .cnt 0
/-- Uncorrectable bay words -/
def BAY_UE : Reg := reg 0x305044 0 16 .cnt 0
/-- Line of the last uncorrectable bay error -/
def BAY_LINE : Reg := reg 0x305048 0 15 .ro 0
/-- Logical row × 64 + column of that error -/
def BAY_POS : Reg := reg 0x305048 16 12 .ro 0
/-- Address of the last uncorrectable unit, a pair under R48; [39:32] in HI -/
def HBM_UE_ADDR_LO : Reg := reg 0x305050 0 32 .ro 0
/-- Address of the last uncorrectable unit, a pair under R48; [39:32] in HI -/
def HBM_UE_ADDR_HI : Reg := reg 0x305054 0 32 .ro 0
/-- The page: base, pages, block code, reset domain, fields. -/
def page : Page :=
  ⟨0x305000, 1, 0x1305, .die, [ BAY_CE, BAY_UE, BAY_LINE, BAY_POS, HBM_UE_ADDR_LO, HBM_UE_ADDR_HI ]⟩
end MERR

/-! Page HL, spec/10_hasp_links.md. -/
namespace HL
/-- Under R328 -/
def EN : Reg := reg 0x100040 0 1 .rw 0 |>.arr 48 0 1 0x1000 |>.only [1, 512]
/-- Under R326 and R328 -/
def RETRAIN : Reg := reg 0x100040 1 1 .sc 0 |>.arr 48 0 1 0x1000 |>.only [1, 512]
/-- Under R322 -/
def AUTO_RETRAIN : Reg := reg 0x100040 2 1 .rw 1 |>.arr 48 0 1 0x1000 |>.only [1, 512]
/-- Under R303 -/
def PRECODE_ALLOW : Reg := reg 0x100040 3 1 .rw 1 |>.arr 48 0 1 0x1000 |>.only [1, 512]
/-- 0 DISABLED, 1 DETECT, 2 EQUALISE, 3 FEC_ALIGN, 4 IDENT, 5 DELAY, 6 BEAT_LOCK, 7 UP, 8 LOST, 9 REFUSED, 10 ISOLATED, 11 FENCED, 12 PEER_FENCED, 13 FAILED -/
def STATE : Reg := reg 0x100044 0 4 .ro 0 |>.arr 48 0 1 0x1000
/-- Cause of the last LOST or ISOLATED, or the refusal code -/
def CAUSE : Reg := reg 0x100044 8 4 .ro 0 |>.arr 48 0 1 0x1000
/-- Under R308 -/
def RETRIES : Reg := reg 0x100044 16 4 .ro 0 |>.arr 48 0 1 0x1000
/-- Under R308 -/
def TRAIN_LIMIT : Reg := reg 0x100044 24 4 .lk 8 |>.arr 48 0 1 0x1000
/-- Expected partner tray, a pair under R48 -/
def EXP_TRAY_LO : Reg := reg 0x100048 0 32 .rw 0 |>.arr 48 0 1 0x1000 |>.only [1, 512]
/-- Expected partner tray, a pair under R48 -/
def EXP_TRAY_HI : Reg := reg 0x10004C 0 32 .rw 0 |>.arr 48 0 1 0x1000 |>.only [1, 512]
/-- Expected partner die -/
def EXP_DIE : Reg := reg 0x100050 0 3 .rw 0 |>.arr 48 0 1 0x1000 |>.only [1, 512]
/-- Expected partner link -/
def EXP_LINK : Reg := reg 0x100050 8 6 .rw 0 |>.arr 48 0 1 0x1000 |>.only [1, 512]
/-- Check code 4 of R310 -/
def EXP_VALID : Reg := reg 0x100050 16 1 .rw 0 |>.arr 48 0 1 0x1000 |>.only [1, 512]
/-- Partner's claimed tray, a pair under R48 -/
def PEER_TRAY_LO : Reg := reg 0x100054 0 32 .ro 0 |>.arr 48 0 1 0x1000
/-- Partner's claimed tray, a pair under R48 -/
def PEER_TRAY_HI : Reg := reg 0x100058 0 32 .ro 0 |>.arr 48 0 1 0x1000
/-- Claimed die -/
def PEER_DIE : Reg := reg 0x10005C 0 3 .ro 0 |>.arr 48 0 1 0x1000
/-- Claimed link -/
def PEER_LINK : Reg := reg 0x10005C 8 6 .ro 0 |>.arr 48 0 1 0x1000
/-- 0 on-tray, 1 backplane, 2 cable -/
def PEER_REACH : Reg := reg 0x10005C 16 2 .ro 0 |>.arr 48 0 1 0x1000
/-- D in eighths of a tile cycle, under R312 -/
def DELAY : Reg := reg 0x100060 0 24 .ro 0 |>.arr 48 0 1 0x1000
/-- Codewords received with no error -/
def CW_GOOD : Reg := reg 0x100064 0 32 .cnt 0 |>.arr 48 0 1 0x1000
/-- Codewords corrected -/
def CW_CORR : Reg := reg 0x100068 0 32 .cnt 0 |>.arr 48 0 1 0x1000
/-- Uncorrectable codewords -/
def CW_UE : Reg := reg 0x10006C 0 32 .cnt 0 |>.arr 48 0 1 0x1000
/-- Symbols corrected -/
def SYM_CORR : Reg := reg 0x100070 0 32 .cnt 0 |>.arr 48 0 1 0x1000
/-- Under R307 -/
def CRC_ERR : Reg := reg 0x100074 0 16 .cnt 0 |>.arr 48 0 1 0x1000
/-- Under R325 -/
def SLOT_VIOL : Reg := reg 0x100078 0 16 .cnt 0 |>.arr 48 0 1 0x1000
/-- Under R325 -/
def CREDIT_VIOL : Reg := reg 0x10007C 0 16 .cnt 0 |>.arr 48 0 1 0x1000
/-- Under R325 -/
def UE_LIMIT : Reg := reg 0x100080 0 8 .lk 8 |>.arr 48 0 1 0x1000
/-- Under R325 -/
def SLOT_LIMIT : Reg := reg 0x100080 8 8 .lk 0 |>.arr 48 0 1 0x1000 |>.inits [8, 8, 8, 8, 8, 8, 8, 8, 8, 8, 8, 8, 8, 8, 8, 8, 8, 8, 8, 8, 8, 8, 8, 8, 8, 8, 8, 8, 0, 0, 0, 0, 0, 0, 0, 0, 0, 0, 0, 0, 0, 0, 0, 0, 0, 0, 0, 0]
/-- Thousands of corrected symbols per ms -/
def CE_WARN : Reg := reg 0x100080 16 16 .lk 0x1F4 |>.arr 48 0 1 0x1000
/-- ms, under R326 -/
def ISOLATE_HOLD : Reg := reg 0x100084 0 16 .lk 0x2710 |>.arr 48 0 1 0x1000
/-- Entries to LOST -/
def LOSSES : Reg := reg 0x100088 0 16 .cnt 0 |>.arr 48 0 1 0x1000
/-- Lane state in force -/
def LANE_SWAP : Reg := reg 0x10008C 0 1 .ro 0 |>.arr 48 0 1 0x1000
/-- Lane state in force -/
def PRECODE_ON : Reg := reg 0x10008C 1 1 .ro 0 |>.arr 48 0 1 0x1000
/-- Receiver signal-to-noise of each lane, in 0.25 dB -/
def SNR_0 : Reg := reg 0x10008C 8 8 .ro 0 |>.arr 48 0 1 0x1000
/-- Receiver signal-to-noise of each lane, in 0.25 dB -/
def SNR_1 : Reg := reg 0x10008C 16 8 .ro 0 |>.arr 48 0 1 0x1000
/-- The page: base, pages, block code, reset domain, fields. -/
def page : Page :=
  ⟨0x100000, 48, 0x1100, .die, [ EN, RETRAIN, AUTO_RETRAIN, PRECODE_ALLOW, STATE, CAUSE, RETRIES, TRAIN_LIMIT, EXP_TRAY_LO, EXP_TRAY_HI, EXP_DIE, EXP_LINK, EXP_VALID, PEER_TRAY_LO, PEER_TRAY_HI, PEER_DIE, PEER_LINK, PEER_REACH, DELAY, CW_GOOD, CW_CORR, CW_UE, SYM_CORR, CRC_ERR, SLOT_VIOL, CREDIT_VIOL, UE_LIMIT, SLOT_LIMIT, CE_WARN, ISOLATE_HOLD, LOSSES, LANE_SWAP, PRECODE_ON, SNR_0, SNR_1 ]⟩
end HL

/-! Page BEAT, spec/10_hasp_links.md. -/
namespace BEAT
/-- 0 CHILD, 1 ROOT, 2 ROOT_STANDBY, under R313 -/
def ROLE : Reg := reg 0x130040 0 2 .lk 0
/-- Parent link -/
def PARENT : Reg := reg 0x130040 8 6 .lk 0
/-- Alternate parent link -/
def ALT_PARENT : Reg := reg 0x130040 16 6 .lk 0
/-- ALT_PARENT is in use -/
def ALT_VALID : Reg := reg 0x130040 24 1 .lk 0
/-- Under R313 -/
def DEPTH : Reg := reg 0x130044 0 5 .ro 0
/-- 0 UNLOCKED, 1 LOCKING, 2 LOCKED, 3 FREE_RUN -/
def LOCK : Reg := reg 0x130044 8 3 .ro 0
/-- Beat number, [55:32] in BEAT_HI, a pair under R48 -/
def BEAT_LO : Reg := reg 0x130048 0 32 .ro 0
/-- Beat number, [55:32] in BEAT_HI, a pair under R48 -/
def BEAT_HI : Reg := reg 0x13004C 0 32 .ro 0
/-- e of R315, signed, in eighths -/
def PHASE_ERR : Reg := reg 0x130050 0 16 .ro 0
/-- Beats lengthened -/
def SLIPS_LONG : Reg := reg 0x130054 0 32 .cnt 0
/-- Beats shortened -/
def SLIPS_SHORT : Reg := reg 0x130058 0 32 .cnt 0
/-- Tile cycles, under R318 and R319 -/
def RELEASE_LEAD : Reg := reg 0x13005C 0 16 .lk 0x80
/-- ms, under R320 -/
def RELEASE_TO : Reg := reg 0x130060 0 16 .lk 0xC8
/-- Last k reported ready -/
def READY_K : Reg := reg 0x130064 0 32 .ro 0
/-- Last k released -/
def RELEASE_K : Reg := reg 0x130068 0 32 .ro 0
/-- Its release beat, a pair under R48 -/
def RELEASE_BEAT_LO : Reg := reg 0x13006C 0 32 .ro 0
/-- Its release beat, a pair under R48 -/
def RELEASE_BEAT_HI : Reg := reg 0x130070 0 32 .ro 0
/-- Bit k: HLk leads to a timing child -/
def CHILDREN_LO : Reg := reg 0x130074 0 32 .ro 0
/-- Bit k: HL(32 + k) leads to a timing child -/
def CHILDREN_HI : Reg := reg 0x130078 0 16 .ro 0
/-- The page: base, pages, block code, reset domain, fields. -/
def page : Page :=
  ⟨0x130000, 1, 0x1130, .die, [ ROLE, PARENT, ALT_PARENT, ALT_VALID, DEPTH, LOCK, BEAT_LO, BEAT_HI, PHASE_ERR, SLIPS_LONG, SLIPS_SHORT, RELEASE_LEAD, RELEASE_TO, READY_K, RELEASE_K, RELEASE_BEAT_LO, RELEASE_BEAT_HI, CHILDREN_LO, CHILDREN_HI ]⟩
end BEAT

/-! Page HLID, spec/10_hasp_links.md. -/
namespace HLID
/-- The tray's installation tag, copied by the driver under R309 -/
def INST_TAG_LO : Reg := reg 0x131040 0 32 .otw 0 |>.only [1, 512]
/-- The tray's installation tag, copied by the driver under R309 -/
def INST_TAG_HI : Reg := reg 0x131044 0 32 .otw 0 |>.only [1, 512]
/-- The tray identity -/
def TRAY_ID_LO : Reg := reg 0x131048 0 32 .otw 0 |>.only [1, 512]
/-- The tray identity -/
def TRAY_ID_HI : Reg := reg 0x13104C 0 32 .otw 0 |>.only [1, 512]
/-- INST_TAG is written -/
def TAG_SET : Reg := reg 0x131050 0 1 .ro 0
/-- TRAY_ID is written -/
def TRAY_SET : Reg := reg 0x131050 1 1 .ro 0
/-- Bit m: die m is in service on the tray, under R309. Written by the driver before W1 is released. The die's own bit is ignored. -/
def PEER_MASK : Reg := reg 0x131054 0 8 .rw 0 |>.only [1, 512]
/-- The page: base, pages, block code, reset domain, fields. -/
def page : Page :=
  ⟨0x131000, 1, 0x1131, .die, [ INST_TAG_LO, INST_TAG_HI, TRAY_ID_LO, TRAY_ID_HI, TAG_SET, TRAY_SET, PEER_MASK ]⟩
end HLID

/-! Page STRM, spec/11_streams.md. -/
namespace STRM
/-- Posts a transfer, under R347 -/
def POST_ID : Reg := reg 0x200040 0 16 .wo 0 |>.only [1]
/-- Directory entry selected; 0x7F for the normal form -/
def ALT_SET : Reg := reg 0x200044 0 7 .ro 0x7F
/-- A switch beat has not yet passed -/
def SWITCH_PENDING : Reg := reg 0x200044 8 1 .ro 0
/-- Under R362 -/
def NO_ALT : Reg := reg 0x200044 9 1 .ro 0
/-- S in force, under R365 -/
def STRETCH : Reg := reg 0x200048 0 32 .ro 0x10000
/-- Out links, [47:32] in OUT_HI -/
def OUT_LO : Reg := reg 0x20004C 0 32 .ro 0
/-- Out links, [47:32] in OUT_HI -/
def OUT_HI : Reg := reg 0x200050 0 32 .ro 0
/-- Send transfers in flight -/
def INFLIGHT : Reg := reg 0x200054 0 10 .ro 0
/-- SCQ base, a pair under R48 -/
def SCQ_BASE_LO : Reg := reg 0x200058 0 32 .lk 0 |>.only [1]
/-- SCQ base, a pair under R48 -/
def SCQ_BASE_HI : Reg := reg 0x20005C 0 32 .lk 0 |>.only [1]
/-- 6 to 16 -/
def SCQ_LOG2 : Reg := reg 0x200060 0 5 .lk 6 |>.only [1]
/-- Next record written -/
def SCQ_PROD : Reg := reg 0x200064 0 16 .ro 0
/-- Next record W1 will read -/
def SCQ_CONS : Reg := reg 0x200068 0 16 .rw 0 |>.only [1]
/-- µs -/
def XFER_TO : Reg := reg 0x20006C 0 24 .lk 0x2710
/-- Under R368 -/
def RESEND_LIMIT : Reg := reg 0x200070 0 4 .lk 4
/-- µs -/
def CREDIT_TO : Reg := reg 0x200070 8 16 .lk 0x64
/-- µs -/
def SCQ_TO : Reg := reg 0x200074 0 16 .lk 0x3E8
/-- Under R365 -/
def STRETCH_CYCLES : Reg := reg 0x200078 0 32 .cnt 0
/-- Records written -/
def COMPLETIONS : Reg := reg 0x20007C 0 32 .cnt 0
/-- Records with STATUS other than DONE -/
def ERRORS : Reg := reg 0x200080 0 32 .cnt 0
/-- The page: base, pages, block code, reset domain, fields. -/
def page : Page :=
  ⟨0x200000, 1, 0x1200, .die, [ POST_ID, ALT_SET, SWITCH_PENDING, NO_ALT, STRETCH, OUT_LO, OUT_HI, INFLIGHT, SCQ_BASE_LO, SCQ_BASE_HI, SCQ_LOG2, SCQ_PROD, SCQ_CONS, XFER_TO, RESEND_LIMIT, CREDIT_TO, SCQ_TO, STRETCH_CYCLES, COMPLETIONS, ERRORS ]⟩
end STRM

/-! Page SDESC, spec/11_streams.md. -/
namespace SDESC
/-- Descriptor selected -/
def DSEL : Reg := reg 0x201040 0 16 .rw 0 |>.only [1]
/-- Under R340 -/
def WRITE : Reg := reg 0x201044 0 1 .sc 0 |>.only [1]
/-- Copy descriptor DSEL into STAGE0–STAGE15 -/
def READ : Reg := reg 0x201044 1 1 .sc 0 |>.only [1]
/-- The last WRITE was refused -/
def REFUSED : Reg := reg 0x201048 0 1 .ro 0
/-- Under R340 -/
def REASON : Reg := reg 0x201048 1 3 .ro 0
/-- Descriptor bytes 4i to 4i + 3, for i from 0 to 15 -/
def STAGE : Reg := reg 0x201080 0 32 .rw 0 |>.arr 16 4 |>.only [1]
/-- The page: base, pages, block code, reset domain, fields. -/
def page : Page :=
  ⟨0x201000, 1, 0x1201, .die, [ DSEL, WRITE, READ, REFUSED, REASON, STAGE ]⟩
end SDESC

/-! Page SLINK, spec/11_streams.md. -/
namespace SLINK
/-- Link selected -/
def LSEL : Reg := reg 0x202040 0 6 .rw 0
/-- Credits held, under R351 -/
def CREDITS : Reg := reg 0x202044 0 7 .ro 0
/-- Arrival buffer units in use -/
def BUF_FILL : Reg := reg 0x202044 8 7 .ro 0
/-- 0 in service, 1 out, 2 readmission pending -/
def SSTATE : Reg := reg 0x202044 16 2 .ro 1
/-- Period of the table in force -/
def PERIOD : Reg := reg 0x202048 0 8 .ro 0
/-- Key whose record is in force -/
def TABLE_KEY : Reg := reg 0x202048 16 12 .ro 0
/-- The record in force comes from an alternate set -/
def ALT_REC : Reg := reg 0x202048 28 1 .ro 0
/-- Chunks sent again on this link -/
def RESENT : Reg := reg 0x20204C 0 32 .cnt 0
/-- Under R353 -/
def NAKS_SENT : Reg := reg 0x202050 0 32 .cnt 0
/-- Under R354 -/
def NAKS_IGNORED : Reg := reg 0x202054 0 32 .cnt 0
/-- Slots sent idle for lack of a credit -/
def CREDIT_WAIT : Reg := reg 0x202058 0 32 .cnt 0
/-- The page: base, pages, block code, reset domain, fields. -/
def page : Page :=
  ⟨0x202000, 1, 0x1202, .die, [ LSEL, CREDITS, BUF_FILL, SSTATE, PERIOD, TABLE_KEY, ALT_REC, RESENT, NAKS_SENT, NAKS_IGNORED, CREDIT_WAIT ]⟩
end SLINK

/-! Page CTX, spec/12_context_runs.md. -/
namespace CTX
/-- Context number, under R379 -/
def CTX_NUM : Reg := reg 0x600040 0 16 .rw 0
/-- Under R383; host only -/
def OPEN : Reg := reg 0x600044 0 1 .sc 0 |>.only [512]
/-- Under R384; host only -/
def SERVE : Reg := reg 0x600044 1 1 .sc 0 |>.only [512]
/-- Under R385; host only -/
def DRAIN : Reg := reg 0x600044 2 1 .sc 0 |>.only [512]
/-- Under R388; host only -/
def CLOSE : Reg := reg 0x600044 3 1 .sc 0 |>.only [512]
/-- Under R382 -/
def STATE : Reg := reg 0x600048 0 3 .ro 0
/-- Fault cause, under R387 -/
def CAUSE : Reg := reg 0x600048 8 4 .ro 0
/-- Last refusal code: 1 STATE, 2 NUMBER_ZERO, 3 PART_UNCOMMITTED, 4 RINGS, 5 FENCED, 6 WARDEN, 7 KEYRING, 8 HEAP, 9 DRAIN_LATE -/
def REFUSE : Reg := reg 0x600048 16 4 .ro 0
/-- Under R385 -/
def DRAIN_SYNC : Reg := reg 0x60004C 0 32 .rw 0
/-- Contexts opened since die reset -/
def OPENS : Reg := reg 0x600050 0 16 .cnt 0
/-- The page: base, pages, block code, reset domain, fields. -/
def page : Page :=
  ⟨0x600000, 1, 0x1600, .die, [ CTX_NUM, OPEN, SERVE, DRAIN, CLOSE, STATE, CAUSE, REFUSE, DRAIN_SYNC, OPENS ]⟩
end CTX

/-! Page RING, spec/12_context_runs.md. -/
namespace RING
/-- A pair under R48; [39:32] in HI; under R380 -/
def SQ_BASE_LO : Reg := reg 0x601040 0 32 .rw 0
/-- A pair under R48; [39:32] in HI; under R380 -/
def SQ_BASE_HI : Reg := reg 0x601044 0 32 .rw 0
/-- Under R389 -/
def SQ_LOG2 : Reg := reg 0x601048 0 4 .rw 8
/-- Under R390 -/
def SQ_PROD : Reg := reg 0x60104C 0 16 .ro 0
/-- Under R391 -/
def SQ_CONS : Reg := reg 0x60104C 16 16 .ro 0
/-- As SQ_BASE -/
def CQ_BASE_LO : Reg := reg 0x601050 0 32 .rw 0
/-- As SQ_BASE -/
def CQ_BASE_HI : Reg := reg 0x601054 0 32 .rw 0
/-- Under R398 -/
def CQ_LOG2 : Reg := reg 0x601058 0 4 .rw 9
/-- Records written -/
def CQ_PROD : Reg := reg 0x60105C 0 16 .ro 0
/-- Host; under R398 -/
def CQ_CONS : Reg := reg 0x601060 0 16 .rw 0 |>.only [512]
/-- Under R388 -/
def CQ_LOST : Reg := reg 0x601064 0 32 .cnt 0
/-- Descriptor bytes 4i to 4i + 3, for i from 0 to 15; host only -/
def SUB_DATA : Reg := reg 0x601080 0 32 .rw 0 |>.arr 16 4 |>.only [512]
/-- Under R390; host only -/
def SUB_PUSH : Reg := reg 0x6010C0 0 1 .sc 0 |>.only [512]
/-- Record bytes 4i to 4i + 3 at CQ_CONS, for i from 0 to 7 -/
def CQ_VIEW : Reg := reg 0x601100 0 32 .ro 0 |>.arr 8 4
/-- The page: base, pages, block code, reset domain, fields. -/
def page : Page :=
  ⟨0x601000, 1, 0x1601, .die, [ SQ_BASE_LO, SQ_BASE_HI, SQ_LOG2, SQ_PROD, SQ_CONS, CQ_BASE_LO, CQ_BASE_HI, CQ_LOG2, CQ_PROD, CQ_CONS, CQ_LOST, SUB_DATA, SUB_PUSH, CQ_VIEW ]⟩
end RING

/-! Page FAULT, spec/12_context_runs.md. -/
namespace FAULT
/-- Die 0 only; a pair under R48; under R380 -/
def FQ_BASE_LO : Reg := reg 0x602040 0 32 .rw 0
/-- Die 0 only; a pair under R48; under R380 -/
def FQ_BASE_HI : Reg := reg 0x602044 0 32 .rw 0
/-- Under R402 -/
def FQ_LOG2 : Reg := reg 0x602048 0 4 .rw 0xA
/-- Records written -/
def FQ_PROD : Reg := reg 0x60204C 0 16 .ro 0
/-- Host -/
def FQ_CONS : Reg := reg 0x602050 0 16 .rw 0 |>.only [512]
/-- Under R404 and R405 -/
def FQ_LOST : Reg := reg 0x602054 0 32 .cnt 0
/-- Records in FWDQ -/
def FWD_FILL : Reg := reg 0x602058 0 7 .ro 0
/-- Under R405 -/
def FWD_LOST : Reg := reg 0x60205C 0 32 .cnt 0
/-- SEQ of the next record -/
def REC_SEQ : Reg := reg 0x602060 0 16 .ro 0
/-- Record at FQ_CONS, for i from 0 to 15 -/
def FQ_VIEW : Reg := reg 0x602080 0 32 .ro 0 |>.arr 16 4
/-- Oldest FWDQ record, for i from 0 to 15 -/
def FWD_VIEW : Reg := reg 0x6020C0 0 32 .ro 0 |>.arr 16 4
/-- Removes the oldest FWDQ record; host only -/
def FWD_POP : Reg := reg 0x602100 0 1 .sc 0 |>.only [512]
/-- The page: base, pages, block code, reset domain, fields. -/
def page : Page :=
  ⟨0x602000, 1, 0x1602, .die, [ FQ_BASE_LO, FQ_BASE_HI, FQ_LOG2, FQ_PROD, FQ_CONS, FQ_LOST, FWD_FILL, FWD_LOST, REC_SEQ, FQ_VIEW, FWD_VIEW, FWD_POP ]⟩
end FAULT

/-! Page RUNS, spec/12_context_runs.md. -/
namespace RUNS
/-- Run-table entries taken -/
def HELD : Reg := reg 0x603040 0 9 .ro 0
/-- Runs carried -/
def CARRIED : Reg := reg 0x603040 16 9 .ro 0
/-- Entry selected -/
def RSEL : Reg := reg 0x603044 0 8 .rw 0
/-- 0 FREE, 1 ADMITTED, 2 COPY_IN, 3 CARRIED, 4 COPY_OUT, 5 RECORD_WAIT -/
def RSTATE : Reg := reg 0x60304C 0 3 .ro 0
/-- RUN_TAG of the entry -/
def RTAG : Reg := reg 0x603050 0 32 .ro 0
/-- Records written with STATUS DONE -/
def RUNS_DONE : Reg := reg 0x603054 0 32 .cnt 0
/-- Records written with STATUS REFUSED -/
def RUNS_REFUSED : Reg := reg 0x603058 0 32 .cnt 0
/-- The page: base, pages, block code, reset domain, fields. -/
def page : Page :=
  ⟨0x603000, 1, 0x1603, .die, [ HELD, CARRIED, RSEL, RSTATE, RTAG, RUNS_DONE, RUNS_REFUSED ]⟩
end RUNS

/-! Page SCAN, spec/13_drain_scan.md. -/
namespace SCAN
/-- Scan out, under R423 -/
def OUT : Reg := reg 0x440040 0 1 .sc 0 |>.only [0, 512]
/-- Scan in, under R426 -/
def IN : Reg := reg 0x440040 1 1 .sc 0 |>.only [0, 512]
/-- Slot for OUT or IN -/
def SLOT : Reg := reg 0x440044 0 8 .rw 1 |>.only [0, 512]
/-- Regions, as R417 numbers them -/
def REGIONS : Reg := reg 0x440044 8 5 .rw 7 |>.only [0, 512]
/-- Under R424 -/
def AUTO_CAPTURE : Reg := reg 0x440048 0 1 .rw 1 |>.only [0, 512]
/-- Slot for the automatic capture; 1 or above -/
def CAPTURE_SLOT : Reg := reg 0x440048 8 8 .rw 1 |>.only [0, 512]
/-- A scan is running -/
def SCANNING : Reg := reg 0x44004C 0 1 .ro 0
/-- A scan-out waits for its hinge -/
def WAITING : Reg := reg 0x44004C 1 1 .ro 0
/-- A forced change is between Steps 1 and 6 of R429 -/
def FORCING : Reg := reg 0x44004C 2 1 .ro 0
/-- 0 OK; codes 1–9 of R426; 10 OCCUPIED -/
def VERDICT : Reg := reg 0x44004C 8 4 .ro 0
/-- Under R416; valid while CARVE_LOCKED is 1 -/
def SLOTS : Reg := reg 0x440050 0 8 .ro 0
/-- Bit s: slot s holds a valid image, for s from 0 to 31 -/
def VALID_MAP : Reg := reg 0x440054 0 32 .w1c 0
/-- Tile cycles spent scanning, under R422 -/
def SCAN_CYCLES : Reg := reg 0x440058 0 32 .cnt 0
/-- Tile cycles of the last scan -/
def LAST_SCAN_CYCLES : Reg := reg 0x44005C 0 24 .ro 0
/-- Forced changes completed -/
def FORCED : Reg := reg 0x440060 0 16 .cnt 0
/-- Longest quiesce since die reset, in enabled cycles -/
def QUIESCE_MAX : Reg := reg 0x440064 0 24 .ro 0
/-- Quiesces beyond QUIESCE_BUDGET, under R253 -/
def QUIESCE_OVER : Reg := reg 0x440068 0 16 .cnt 0
/-- The page: base, pages, block code, reset domain, fields. -/
def page : Page :=
  ⟨0x440000, 1, 0x1440, .die, [ OUT, IN, SLOT, REGIONS, AUTO_CAPTURE, CAPTURE_SLOT, SCANNING, WAITING, FORCING, VERDICT, SLOTS, VALID_MAP, SCAN_CYCLES, LAST_SCAN_CYCLES, FORCED, QUIESCE_MAX, QUIESCE_OVER ]⟩
end SCAN

/-! Page DEVQ, spec/18_event_recorder.md. -/
namespace DEVQ
/-- Records waiting, under R571 -/
def FILL : Reg := reg 0x5040 0 8 .ro 0
/-- Records dropped -/
def LOST : Reg := reg 0x5044 0 32 .cnt 0
/-- Records accepted by the recorder -/
def SENT : Reg := reg 0x5048 0 32 .cnt 0
/-- Records presented again after BUSY -/
def BUSY_RETRIES : Reg := reg 0x504C 0 16 .cnt 0
/-- The page: base, pages, block code, reset domain, fields. -/
def page : Page :=
  ⟨0x5000, 1, 0x1005, .die, [ FILL, LOST, SENT, BUSY_RETRIES ]⟩
end DEVQ

/-! Page DFAULT, spec/20_failure.md. -/
namespace DFAULT
/-- Under R639 -/
def CAUSE : Reg := reg 0x6040 0 6 .ro 0
/-- Under R639 -/
def HBM_UE_LIMIT : Reg := reg 0x6044 0 8 .lk 0x10
/-- Under R646 -/
def LOST_PEERS : Reg := reg 0x6048 0 8 .ro 0
/-- Under R647 -/
def FORM_LOST : Reg := reg 0x6050 0 3 .rw 0 |>.only [512]
/-- Under R647 -/
def FORM_SYNC : Reg := reg 0x6054 0 32 .rw 0 |>.only [512]
/-- Under R647 -/
def FORM_GO : Reg := reg 0x6058 0 1 .sc 0 |>.only [512]
/-- 0 NONE, 1 PENDING, 2 DONE, 3 REFUSED -/
def FORM_STATE : Reg := reg 0x605C 0 2 .ro 0
/-- Code of R647 -/
def FORM_REFUSE : Reg := reg 0x605C 8 4 .ro 0
/-- The page: base, pages, block code, reset domain, fields. -/
def page : Page :=
  ⟨0x6000, 1, 0x1006, .die, [ CAUSE, HBM_UE_LIMIT, LOST_PEERS, FORM_LOST, FORM_SYNC, FORM_GO, FORM_STATE, FORM_REFUSE ]⟩
end DFAULT

/-! Page STEST, spec/21_self_test.md. -/
namespace STEST
/-- [0] TUMBLER, [1] LINK, [2] MEMORY; under R662 -/
def REQ_TESTS : Reg := reg 0x450040 0 3 .rw 0 |>.only [0, 512]
/-- A slot's tests are running -/
def IN_SLOT : Reg := reg 0x450044 0 1 .ro 0
/-- A slot's tests are running -/
def TUMBLER_RUN : Reg := reg 0x450044 1 1 .ro 0
/-- A slot's tests are running -/
def LINK_RUN : Reg := reg 0x450044 2 1 .ro 0
/-- A slot's tests are running -/
def MEM_RUN : Reg := reg 0x450044 3 1 .ro 0
/-- Tests taken at the last slot -/
def LAST_TESTS : Reg := reg 0x450048 0 3 .ro 0
/-- Tests deferred under R665 -/
def LAST_DEFERRED : Reg := reg 0x450048 4 3 .ro 0
/-- Bits [15:0] of the last slot's H -/
def LAST_HINGE : Reg := reg 0x450048 16 16 .ro 0
/-- Bit p: physical column 17g + p failed at the last TUMBLER test -/
def FAILED_COLS : Reg := reg 0x45004C 0 17 .ro 0 |>.arr 4 4
/-- Physical column of the first failure -/
def FIRST_PCOL : Reg := reg 0x45005C 0 7 .ro 0
/-- Its row -/
def FIRST_ROW : Reg := reg 0x45005C 8 6 .ro 0
/-- 0 MAC, 1 SCALAR, 2 BANK, 3 PORT, 4 PASSTHRU, 5 BAY -/
def FIRST_UNIT : Reg := reg 0x45005C 16 3 .ro 0
/-- The fields above name a failure -/
def FIRST_VALID : Reg := reg 0x45005C 31 1 .ro 0
/-- Bay lines rewritten under R667 -/
def BAY_FIXED : Reg := reg 0x450060 0 32 .cnt 0
/-- 0.25 dB units, under R669 -/
def LINK_SNR_MIN : Reg := reg 0x450064 0 8 .rw 0x3C |>.only [0, 1, 512]
/-- Bit k: HLk marginal; [47:32] in HI -/
def MARGINAL_LO : Reg := reg 0x450068 0 32 .ro 0
/-- Bit k: HLk marginal; [47:32] in HI -/
def MARGINAL_HI : Reg := reg 0x45006C 0 32 .ro 0
/-- Next unit, a pair under R48; [39:32] in HI -/
def MT_CUR_LO : Reg := reg 0x450070 0 32 .rw 0 |>.only [0, 1, 512]
/-- Next unit, a pair under R48; [39:32] in HI -/
def MT_CUR_HI : Reg := reg 0x450074 0 32 .rw 0 |>.only [0, 1, 512]
/-- MiB, 1–1,024 -/
def MT_LEN : Reg := reg 0x450078 0 16 .rw 4 |>.only [0, 1, 512]
/-- Under R670 -/
def MT_FAILS : Reg := reg 0x45007C 0 32 .cnt 0
/-- Test slots taken -/
def SLOTS : Reg := reg 0x450080 0 16 .cnt 0
/-- Length of the TUMBLER test -/
def TT_CYCLES : Reg := reg 0x450084 0 16 .ro 0x9200
/-- The page: base, pages, block code, reset domain, fields. -/
def page : Page :=
  ⟨0x450000, 1, 0x1450, .die, [ REQ_TESTS, IN_SLOT, TUMBLER_RUN, LINK_RUN, MEM_RUN, LAST_TESTS, LAST_DEFERRED, LAST_HINGE, FAILED_COLS, FIRST_PCOL, FIRST_ROW, FIRST_UNIT, FIRST_VALID, BAY_FIXED, LINK_SNR_MIN, MARGINAL_LO, MARGINAL_HI, MT_CUR_LO, MT_CUR_HI, MT_LEN, MT_FAILS, SLOTS, TT_CYCLES ]⟩
end STEST

end Sys2Proof.Machine
end

