-- ==== Sys2Proof/Machine/RegMap.lean ====
section
/-! DEFINITION. The register map: every page of each chip (R30, R31 of spec/01_machine.md). -/

namespace Sys2Proof.Machine

/-- The pages of an Obiapen die. -/
def diePages : List Page :=
  [DSYS.page, DCLK.page, DRST.page, DFUSE.page, HMBX.page, WLOAD.page, WCORE.page, TARITH.page, TPROBE.page, KWAY.page, CSKIP.page, ARRAY.page, KRING.page, KLOAD.page, GATE.page, HBM.page, PART.page, WIN.page, HEAP.page, MFAULT.page, MERR.page, HL.page, BEAT.page, HLID.page, STRM.page, SDESC.page, SLINK.page, CTX.page, RING.page, FAULT.page, RUNS.page, SCAN.page, DEVQ.page, DFAULT.page, STEST.page]

/-- The pages of the Clachasel. -/
def clachaselPages : List Page :=
  [CSYS.page, CCLK.page, CRST.page, CSB.page, SEQ.page, OPCTL.page, MBXPOST.page, PFAIL.page, BLOAD.page, MCCTL.page, EMU.page, AFECTL.page, AFEPORT.page, AFEHOST.page, AFEPROF.page, AFECOEF.page, TCFG.page, TSTAT.page, TZONE.page, TALERT.page, CFAN.page, CPUMP.page, CDEM.page, CLEAK.page, TW.page, EVREC.page, EVWIN.page, EVREAD.page, EVRATE.page, SUPV.page, CAL.page, TRAYID.page, HLS.page, FENCE.page, OWN.page]

end Sys2Proof.Machine
end

