-- ==== Sys2Proof/Machine/Factory.lean ====
section
/-! DEFINITION. The factory store: what the fields whose reset value is F, and the factory-written fuses, hold on delivery
(R15). The figures of DSYS are the member figures of R37; the others are named by the model (notes/assumptions/2.md). -/

namespace Sys2Proof.Machine

/-- Factory values, part 0. [DESIGN CHOICE, log entry 2] -/
def factory0 : List (Nat × Nat) :=
  [(2056, 1), (2176, 64), (2184, 64), (2192, 4), (2196, 4), (2200, 24), (2304, 256), (2320, 48)] ++
  [(2432, 65536), (2560, 850), (2688, 1), (140511232, 16), (140511360, 16), (140511488, 16), (140511616, 16), (140511872, 31)] ++
  [(140511880, 31), (140511888, 31), (140511896, 31), (536872960, 1), (536872968, 1), (536873088, 64), (536873096, 64), (536873104, 4)] ++
  [(536873108, 4), (536873112, 24), (536873216, 256), (536873232, 48), (536873344, 65536), (536873472, 850), (536873600, 2), (677382144, 16)] ++
  [(677382272, 16), (677382400, 16), (677382528, 16), (677382784, 31), (677382792, 31), (677382800, 31), (677382808, 31), (1073743872, 2)] ++
  [(1073743880, 1), (1073744000, 64), (1073744008, 64), (1073744016, 4), (1073744020, 4), (1073744024, 24), (1073744128, 256), (1073744144, 48)] ++
  [(1073744256, 65536), (1073744384, 850), (1073744512, 3), (1214253056, 16), (1214253184, 16), (1214253312, 16), (1214253440, 16), (1214253696, 31)] ++
  [(1214253704, 31), (1214253712, 31), (1214253720, 31), (1610614784, 3), (1610614792, 1), (1610614912, 64), (1610614920, 64), (1610614928, 4)] ++
  [(1610614932, 4), (1610614936, 24), (1610615040, 256), (1610615056, 48), (1610615168, 65536), (1610615296, 850), (1610615424, 4), (1751123968, 16)] ++
  [(1751124096, 16), (1751124224, 16), (1751124352, 16), (1751124608, 31), (1751124616, 31), (1751124624, 31), (1751124632, 31), (2147485696, 4)]

/-- Factory values, part 1. [DESIGN CHOICE, log entry 2] -/
def factory1 : List (Nat × Nat) :=
  [(2147485704, 1), (2147485824, 64), (2147485832, 64), (2147485840, 4), (2147485844, 4), (2147485848, 24), (2147485952, 256), (2147485968, 48)] ++
  [(2147486080, 65536), (2147486208, 850), (2147486336, 5), (2287994880, 16), (2287995008, 16), (2287995136, 16), (2287995264, 16), (2287995520, 31)] ++
  [(2287995528, 31), (2287995536, 31), (2287995544, 31), (2684356608, 5), (2684356616, 1), (2684356736, 64), (2684356744, 64), (2684356752, 4)] ++
  [(2684356756, 4), (2684356760, 24), (2684356864, 256), (2684356880, 48), (2684356992, 65536), (2684357120, 850), (2684357248, 6), (2824865792, 16)] ++
  [(2824865920, 16), (2824866048, 16), (2824866176, 16), (2824866432, 31), (2824866440, 31), (2824866448, 31), (2824866456, 31), (3221227520, 6)] ++
  [(3221227528, 1), (3221227648, 64), (3221227656, 64), (3221227664, 4), (3221227668, 4), (3221227672, 24), (3221227776, 256), (3221227792, 48)] ++
  [(3221227904, 65536), (3221228032, 850), (3221228160, 7), (3361736704, 16), (3361736832, 16), (3361736960, 16), (3361737088, 16), (3361737344, 31)] ++
  [(3361737352, 31), (3361737360, 31), (3361737368, 31), (3758098432, 7), (3758098440, 1), (3758098560, 64), (3758098568, 64), (3758098576, 4)] ++
  [(3758098580, 4), (3758098584, 24), (3758098688, 256), (3758098704, 48), (3758098816, 65536), (3758098944, 850), (3758099072, 8), (3898607616, 16)] ++
  [(3898607744, 16), (3898607872, 16), (3898608000, 16), (3898608256, 31), (3898608264, 31), (3898608272, 31), (3898608280, 31), (4298118144, 925353388)]

/-- Factory values, part 2. [DESIGN CHOICE, log entry 2] -/
def factory2 : List (Nat × Nat) :=
  [(4298118272, 933741996), (4298118400, 944879383), (4298118528, 953267991), (4298118656, 961656599), (4298118784, 973279855), (4298118912, 981668463), (4298119168, 925353388), (4298119296, 933741996)] ++
  [(4298119424, 944879383), (4298119552, 953267991), (4298119680, 961656599), (4298119808, 973279855), (4298119936, 981668463), (4298120192, 1050253722), (4298120320, 1063675494), (4298120448, 1067030938)] ++
  [(4298120704, 1148846080), (4298120832, 1176256512), (4298120960, 1203982336), (4298121088, 1232348160), (4298121216, 1259902592), (4298121344, 1067450368)]

/-- Factory values, part 3: the factory coefficient sets CS0, CS1, CS2, CS4 and CS5 (R459), each VALID over every finite x with VALUE = x.
[DESIGN CHOICE, log entry 2] -/
def factory3 : List (Nat × Nat) :=
  [(4298639360, 1), (4298639616, 1065353216), (4298640000, 4286578687), (4298640128, 2139095039), (4298641024, 1065353216)] ++
  [(4298643456, 1), (4298643712, 1065353216), (4298644096, 4286578687), (4298644224, 2139095039), (4298645120, 1065353216)] ++
  [(4298647552, 1), (4298647808, 1065353216), (4298648192, 4286578687), (4298648320, 2139095039), (4298649216, 1065353216)] ++
  [(4298655744, 1), (4298656000, 1065353216), (4298656384, 4286578687), (4298656512, 2139095039), (4298657408, 1065353216)] ++
  [(4298659840, 1), (4298660096, 1065353216), (4298660480, 4286578687), (4298660608, 2139095039), (4298661504, 1065353216)]

/-- Factory values, part 4. [DESIGN CHOICE, log entry 2] -/
def factory4 : List (Nat × Nat) :=
  [(4300212224, 63), (4300212236, 3)] ++
  [(4300212238, 3), (4300212240, 15), (4301394072, 255), (4301656216, 255), (4301787288, 255), (4301918360, 3), (4303620096, 1), (4303620616, 1)]

/-- Factory values, as (field key, value), keys rising, zero values left out. [DESIGN CHOICE, log entry 2] -/
def factoryValues : List (Nat × Nat) :=
  factory0 ++ factory1 ++ factory2 ++ factory3 ++ factory4

end Sys2Proof.Machine
end

