-- ==== Sys2Proof/Machine/State.lean ====
section
/-! DEFINITION. The state of the tray, all of it plain data: the register fields of every page, the internal registers
and queues of every engine, the memories, and the queue of commands that wait. -/

namespace Sys2Proof.Machine

/-- A sparse table: entries (key, value), keys strictly rising. -/
abbrev Store := List (Nat × Nat)

/-- Why the machine stops: no command of the tray stops it, errors are reported in registers and event records (R50).
The one constructor is raised by nothing; it is there because the type must be named. Safe. -/
inductive Fault where
  | halted
  deriving DecidableEq, Repr

/-- Why a command has no meaning. Raised by Dispatch alone, for a command that is not modelled yet. Safe: the machine
stops, and nothing can be proved of what it would have done. -/
inductive Refusal where
  | notModelled (mnemonic : String)
  deriving DecidableEq, Repr

/-- An event record (R563); MARK and CHECK are computed from it. -/
structure Rec where
  seq : Nat := 0
  code : Nat := 0
  flags : Nat := 0
  time : Nat := 0
  origin : Nat := 0
  suppressed : Nat := 0
  aux : Nat := 0
  arg0 : Nat := 0
  arg1 : Nat := 0
  deriving DecidableEq, Repr, Inhabited

/-- What a ring slot holds: a record, a reservation of a management core (R569), or nothing, voided. -/
inductive SlotKind where
  | valid | reserved (core : Nat) | void
  deriving DecidableEq, Repr

/-- A slot of the RAM ring. -/
structure RingSlot where
  kind : SlotKind
  body : Rec
  deriving DecidableEq, Repr

/-- A slot of the flash log: the record, and whether its MARK is written (R579). -/
structure FlashSlot where
  marked : Bool
  body : Rec
  deriving DecidableEq, Repr

/-- A die record in DEVQ (R571): it enters at `entered`, on State.clock. -/
structure DieRec where
  code : Nat
  origin : Nat
  aux : Nat
  arg0 : Nat
  arg1 : Nat
  entered : Nat
  deriving DecidableEq, Repr

/-- A command posted in the emulated page (R162). -/
structure Posted where
  k : Nat
  value : Nat
  tag : Nat
  time : Nat
  seq : Nat
  deriving DecidableEq, Repr

/-- A measurement request in an engine's queue (R450, R451): its port (4 is the host's), its profile, the time it was posted
on State.clock, and whether it has been found waiting for a resource (R452). -/
structure AfeRequest where
  port : Nat
  profile : Nat
  posted : Nat
  waited : Bool := false
  deriving DecidableEq, Repr

/-- A result as a port and the stored results hold it (R462). -/
structure AfeResult where
  value : Nat := 0
  raw : Nat := 0
  seq : Nat := 0
  flags : Nat := 0
  reason : Nat := 0
  profile : Nat := 0
  time : Nat := 0
  deriving DecidableEq, Repr

/-- A conversion still to be made: of the reference profile or of the round's own, in its first or second phase (R453). -/
structure AfePhase where
  isRef : Bool
  second : Bool
  deriving DecidableEq, Repr

/-- A running round (R449 to R455): its snapshot (four words of the profile, four of its reference profile), the conversions
to come, the voltages of the current profile's first phase, t, and the flags gathered. -/
structure AfeRound where
  port : Nat
  profile : Nat
  seq : Nat
  words : List Nat
  refWords : List Nat
  plan : List AfePhase
  first : Nat := 0
  t : Nat := 0
  refFlags : Nat := 0
  flags : Nat := 0
  deriving DecidableEq, Repr

/-- One of the engines CE0 and CE1. -/
structure AfeEngine where
  queue : List AfeRequest := []
  round : Option AfeRound := none
  deriving DecidableEq, Repr

/-- The analog front end: CE0, CE1, and the stored results by profile (R462). -/
structure Afe where
  ce0 : AfeEngine := {}
  ce1 : AfeEngine := {}
  stored : List (Nat × AfeResult) := []
  deriving DecidableEq, Repr

/-- A frame in MC3's receive queue (R608): the tray time at its end (R616), the time it came on State.clock, whether its deadline
passed and BUSY was sent, and whether the requests it asks for have been posted (R607). -/
structure RxFrame where
  frame : Frame
  endTime : Nat
  arrived : Nat
  late : Bool := false
  posted : Bool := false
  deriving DecidableEq, Repr

/-- A file of tumbler registers a write goes to: vector, scalar, predicate, or the tile rows as ACCRD and routes read them. -/
inductive RegFile where
  | vec | scal | pred | row
  deriving DecidableEq, Repr

/-- A write on its way to a register of a tumbler: readable from cycle `due` on (R197), of rank `rank` in the order of R199. -/
structure RegWrite where
  due : Nat
  file : RegFile
  idx : Nat
  lo : Nat
  width : Nat
  value : Nat
  rank : Nat
  deriving DecidableEq, Repr

/-- A logical tumbler (R175). Registers not listed hold 0. `acc` is the tiles as OUTER and MM4 read them, `rows` as ACCRD
and routes do (R197): cell (t, r, c) at 64t + 8r + c. `slots` says which slots of the word of this cycle have issued.
The `p` fields are the snapshot of TPROBE (R198). -/
structure Tum where
  vec : List (Nat × Nat) := []
  scal : List (Nat × Nat) := []
  preds : Nat := 1
  acc : List (Nat × Nat) := []
  rows : List (Nat × Nat) := []
  l0Count : Nat := 0
  l0Start : Nat := 0
  l1Count : Nat := 0
  l1Start : Nat := 0
  loopSet : Nat := 0
  flags : Nat := 0
  addr : Nat := 0
  lastAddr : Nat := 0
  halted : Bool := false
  cycle : Nat := 0
  slots : Nat := 0
  writes : List RegWrite := []
  pFlags : Nat := 0
  pHalted : Bool := false
  pAddr : Nat := 0
  pL0 : Nat := 0
  pL0Start : Nat := 0
  pL1 : Nat := 0
  pL1Start : Nat := 0
  deriving DecidableEq, Repr

/-- An input that words are presented at: a neighbour port, or a keyway tap of one of the three networks. -/
inductive Port where
  | north | east | south | west | vector | scalar | control
  deriving DecidableEq, Repr

/-- A word in flight: presented at the input `port` of a tumbler (64 row + column) or gate unit in cycle `due` only (R205,
R214). A control word is token + 256 * predicate. -/
structure Flight where
  gate : Bool
  dst : Nat
  port : Port
  due : Nat
  value : Nat
  deriving DecidableEq, Repr

/-- A route entry of a key (R212). Hops: 0 N, 1 E, 2 S, 3 W. -/
structure Route where
  net : Nat
  srcGate : Bool
  src : Nat
  dstGate : Bool
  dst : Nat
  hops : List Nat
  lat : Nat
  deriving DecidableEq, Repr

/-- A memory descriptor of a gate unit (R243). -/
structure GateMem where
  egress : Bool
  handle : Bool
  window : Nat
  addr : Nat
  chunk : Nat
  count : Nat
  stride : Int
  deriving DecidableEq, Repr

/-- An array step of a gate unit (R243). -/
structure GateStep where
  start : Nat
  repeats : Nat
  period : Nat
  port : Nat
  take : Bool
  deriving DecidableEq, Repr

/-- A gate-unit record (R243). -/
structure GateProg where
  gate : Nat
  split : Nat
  mems : List GateMem
  steps : List GateStep
  deriving DecidableEq, Repr

/-- A slot table of a key or an alternate set (R342): entry i is TX + 65,536 * RX. -/
structure SlotTable where
  link : Nat
  period : Nat
  key : Nat
  entries : List Nat
  deriving DecidableEq, Repr

/-- A key as loaded: what the banks, the switches, the gate units and the stream engine take from its image (R239, R247).
`map` gives a tumbler's block, `blocks` a block's first word and its number of words, `code` the words that are not 0. -/
structure Key where
  number : Nat
  form : Nat
  sync : Bool
  cycles : Nat
  budget : Nat
  lmax : Nat
  egressMax : Nat
  map : List (Nat × Nat)
  blocks : List (Nat × Nat)
  code : List (Nat × Nat)
  routes : List Route
  gates : List GateProg
  slots : List SlotTable
  deriving DecidableEq, Repr

/-- A gate unit's state: queue parts, pointers (running counts), handles, step and descriptor progress (R242 to R244, R286,
R420). Ingress entries carry the first cycle a SEND may take them in. `ones` is the words of a faulted
descriptor still to be supplied as all ones (R281), `chunks` the chunks done of each descriptor, `skip` the
egress words of a faulted descriptor still to be discarded, `tokens` heap tokens captured and not yet passed on (R287). -/
structure Gate where
  ingress : List (Nat × Nat) := []
  egress : List Nat := []
  inRead : Nat := 0
  inWrite : Nat := 0
  egRead : Nat := 0
  egWrite : Nat := 0
  handles : List (Nat × Nat) := []
  issued : List (Nat × Nat) := []
  chunks : List (Nat × Nat) := []
  ones : Nat := 0
  skip : Nat := 0
  tokens : List Nat := []
  freezeUnder : Nat := 0
  freezeOver : Nat := 0
  leftover : Nat := 0
  secFreeze : Nat := 0
  deriving DecidableEq, Repr

/-- A request at the heap allocator (R287 to R292): the requester number, the handle register for a gate unit, the token's
low bits or the call. -/
structure HeapReq where
  who : Nat
  reg : Nat
  call : Nat
  handle : Nat
  deriving DecidableEq, Repr

/-- Where a run stands; the codes are those of RUNS.RSTATE. -/
inductive RunState where
  | admitted | copyIn | carried | copyOut | recordWait
  deriving DecidableEq, Repr

/-- A run-table entry (R392, R399). `seqNo` orders the runs taken; `status` is the highest status so far; `waits` marks
the run chosen to enter at the next hinge (R394). -/
structure Run where
  tag : Nat
  key : Nat
  flags : Nat
  entry : Nat
  inWin : Nat
  outWin : Nat
  inSrc : Nat
  inDst : Nat
  inLen : Nat
  outLen : Nat
  outSrc : Nat
  outDst : Nat
  state : RunState := .admitted
  seqNo : Nat := 0
  waits : Bool := false
  copied : Bool := false
  status : Nat := 0
  detail : Nat := 0
  arith : Nat := 0
  sections : Nat := 0
  cycles : Nat := 0
  freeze : Nat := 0
  deriving DecidableEq, Repr

/-- A fault record coming together at die 0 (R404). -/
structure Frag where
  src : Nat
  seq : Nat
  parts : List (Nat × List Nat)
  deriving DecidableEq, Repr

/-- An open transfer of a stream: its sequence number, its first chunk, the worst status so far, chunks sent again, the SEQ of its
memory-fault record, whether it has ended before all its chunks were done, and the link that carried its last chunk so far (R347,
R356, R359). -/
structure Xfer where
  seq : Nat
  first : Nat
  status : Nat := 0
  resent : Nat := 0
  record : Option Nat := none
  ended : Bool := false
  link : Option Nat := none
  deriving DecidableEq, Repr

/-- Where a stream stands (STATE [2:0] of R338). -/
inductive StreamState where
  | idle | active | waiting | fenced | halted
  deriving DecidableEq, Repr

/-- A stream: its descriptor's words (R338) and the engine's state. `next` is the next new chunk to send, or E; `resend` the
resend point of a sending stream; `acked` its oldest uncredited chunk, or a receiving stream's oldest unacknowledged one;
`starts` the transfers waiting to start; `tries` how often a chunk was sent again; `naked` a NAK was sent since E last counted up;
`moved` the stream moved links since. -/
structure Stream where
  ctrl : Nat := 0
  base : Nat := 0
  chunks : Nat := 0
  tail : Nat := 0
  step : Nat := 0
  wrap : Nat := 0
  xferSeq : Nat := 0
  next : Nat := 0
  resend : Nat := 0
  acked : Nat := 0
  state : StreamState := .idle
  link : Option Nat := none
  alt : Bool := false
  resends : Nat := 0
  xfers : List Xfer := []
  starts : Nat := 0
  tries : List (Nat × Nat) := []
  naked : Bool := false
  moved : Bool := false
  aborting : Bool := false
  deriving DecidableEq, Repr

/-- A chunk placed in a slot (R354): beat, slot, stream and chunk. -/
structure SlotRec where
  beat : Nat
  slot : Nat
  stream : Nat
  chunk : Nat
  deriving DecidableEq, Repr

/-- A link as the stream engine sees it (SLINK, R345, R351 to R354, R363, R367). `state` is SSTATE; `table` the table in force
and the beat it took effect; `normal` the normal-form table; `recs` the slot records of the last 16 beats; `open_` the chunks
neither credited nor NAKed, oldest first; `due` the credits returned so far; `naks` the NAKs that wait to be sent, as beat and
slot; `acks` stream and chunk of the arrivals whose write is not acknowledged; `switching` a switch beat is to come, `peer` the
partner's, `fixed` it is no longer waited for; `mine` and `theirs` the readmission hinges. -/
structure SLink where
  state : Nat := 1
  credits : Nat := 0
  due : Nat := 0
  naks : List (Nat × Nat) := []
  table : Option SlotTable := none
  since : Nat := 0
  tableKey : Nat := 0
  altRec : Bool := false
  normal : Option SlotTable := none
  normalKey : Nat := 0
  recs : List SlotRec := []
  open_ : List SlotRec := []
  acks : List (Nat × Nat) := []
  resent : Nat := 0
  naksSent : Nat := 0
  naksIgnored : Nat := 0
  creditWait : Nat := 0
  switching : Bool := false
  peer : Option Nat := none
  fixed : Bool := false
  mine : Option Nat := none
  theirs : Option Nat := none
  deriving DecidableEq, Repr

/-- A link's transmitter (R304, R306, R312, R314, R404): the next slot of the beat in progress, 8 where all have gone; the words and the
slot headers of the codeword being filled, its marker as word index, MARKER_PHASE and beat; whether the next marker carries STEPPED;
CW_SEQ; the scrambler's last 58 bits; the turn of the standing messages; probes sent, and codewords until the next; replies that wait,
as stamp and turnaround; the next fragment of the fault record. -/
structure LinkTx where
  slot : Nat := 0
  words : List (Nat × Nat) := []
  headers : List (Nat × Nat) := []
  mark : Option (Nat × Nat × Nat) := none
  stepped : Bool := false
  cwSeq : Nat := 0
  scrambler : Nat := 0
  turn : Nat := 0
  probes : Nat := 0
  probeWait : Nat := 0
  replies : List (Nat × Nat) := []
  fragment : Nat := 0
  deriving DecidableEq, Repr

/-- A link's receiver (R306 to R308, R353): the descrambler's last 58 bits; uncorrectable codewords in a row, and codewords in a row
that are none; the last IDENT and how often it came; the sender's beat, the place after its slot 0 word 0 of the next word, the header
and data of the slot being received, whether it is whole so far, and whether a codeword has been lost since the marker. -/
structure LinkRx where
  descrambler : Nat := 0
  bad : Nat := 0
  clean : Nat := 0
  ident : Option Ident := none
  idents : Nat := 0
  beat : Nat := 0
  place : Option Nat := none
  header : Option (Nat × Nat) := none
  data : List Byte := []
  whole : Bool := false
  gap : Bool := false
  deriving DecidableEq, Repr

/-- What a link remembers of its training and its recent past: the identity fields it took when it entered IDENT (R333); the time on
State.clock at which it took its state, or failed to leave it in time, and the time it left UP (R308, R322, R326, R329); whether the
partner reports LOCKED, and since when both ends do (R308, R316); the times of uncorrectable codewords and slot violations and the
corrected symbols of the last millisecond (R325); round-trip samples (R312); the errors of the last markers in eighths of a tile cycle,
and the latest of them as it stands at the beat in progress (R315); differences between the last markers' beats and the die's own (R316);
the last marker's beat, and the die's beats since (R321); the partner's depth, whether the partner names this link its parent, the hinge
it is ready for (R313, R318); codewords lost since the last marker. -/
structure LinkLog where
  tag : Nat := 0
  tray : Nat := 0
  tagSet : Bool := false
  idOk : Bool := false
  peerOk : Bool := false
  retryWait : Bool := false
  everUp : Bool := false
  entered : Nat := 0
  leftAt : Option Nat := none
  peerLocked : Bool := false
  lockedAt : Option Nat := none
  ue : List Nat := []
  slots : List Nat := []
  corr : List (Nat × Nat) := []
  probes : List Nat := []
  errs : List Int := []
  latest : Option Int := none
  diffs : List Nat := []
  marked : Option Nat := none
  missed : Nat := 0
  peerDepth : Nat := 0
  child : Bool := false
  childReady : Option Nat := none
  lostCw : Nat := 0
  tx : LinkTx := {}
  rx : LinkRx := {}
  deriving DecidableEq, Repr

/-- What one Obiapen die holds beside its registers. [DESIGN CHOICE, log entries 4, 7] -/
structure Die where
  /-- Records waiting for the sideband, oldest first (R571). -/
  devq : List DieRec := []
  /-- SRAM words of the warden cores that are not 0: W0 at word, W1 at 65536 + word (R142). -/
  sram : List (Nat × Nat) := []
  /-- The logical tumblers, by 64 row + column; one not listed is at its reset. -/
  tums : List (Nat × Tum) := []
  /-- Bay lines that are not 0: tumbler * 24,576 + line. -/
  bays : List (Nat × Nat) := []
  /-- The key in the active banks and configurations. -/
  active : Option Key := none
  /-- The key in the shadow banks and configurations. -/
  shadowKey : Option Key := none
  /-- Words in flight on neighbour links and the keyway. -/
  flights : List Flight := []
  /-- The gate units; one not listed is at its reset. -/
  gates : List (Nat × Gate) := []
  /-- Free lists of the heap by class, top block first (R284). -/
  heap : List (Nat × List Nat) := []
  /-- Heap blocks held, class * 65,536 + block: the requester number that holds it, plus 1 (R285). -/
  holders : List (Nat × Nat) := []
  /-- Requests that reached the allocator and wait for its next cycle, in order. -/
  heapQ : List HeapReq := []
  /-- Fault records waiting to be forwarded, as 16 words (R405). -/
  fwdq : List (List Nat) := []
  /-- Fault records of other dies whose fragments are arriving (R404). -/
  frags : List Frag := []
  /-- The run table, by entry (R392). -/
  runs : List (Nat × Run) := []
  /-- Run-table entries whose input copies wait or run, in order (R397). -/
  copyIn : List Nat := []
  /-- Run-table entries whose output copies wait or run, in order (R397). -/
  copyOut : List Nat := []
  /-- Run-table entries whose completion record waits for room, in order (R398). -/
  records : List Nat := []
  /-- Times of the uncorrectable errors of the last second of each stack, on State.clock (R639). -/
  ueTimes : List (Nat × List Nat) := []
  /-- Gate units whose requests hold the freeze that runs, with whether a TAKE is the cause (R249, R250). -/
  freezers : List (Nat × Bool) := []
  /-- The stream descriptors, by stream ID (R338); one not listed is all zero. -/
  streams : List (Nat × Stream) := []
  /-- The links as the stream engine sees them. -/
  slinks : List (Nat × SLink) := []
  /-- What the links remember. -/
  links : List (Nat × LinkLog) := []
  /-- Stream completions that wait for room in the SCQ, oldest first (R358). -/
  scqWait : List (List Nat) := []
  deriving DecidableEq, Repr

/-- A register write being carried out: the word written, and the PAGE_FAULT bits it has set so far, each recorded once (R70,
R71). -/
structure Writing where
  word : Nat
  faults : Nat
  deriving DecidableEq, Repr

/-- The tray. -/
structure State where
  /-- The commands that wait, first in, first out. -/
  pending : List Instr := []
  /-- Microseconds the block has idled: the model's own measure of passing time (notes/assumptions/5.md). -/
  clock : Nat := 0
  /-- Free values used so far: the model's own field (notes/assumptions/3.md). -/
  freeCtr : Nat := 0
  /-- Register fields and internal registers that differ from their reset value, by key. -/
  regs : Store := []
  /-- Shadow copies that differ from the active copy's reset value, by key (R62). -/
  shadow : Store := []
  /-- Factory and fuse fields, kept through every reset (R15, R125). -/
  nv : Store := []
  /-- Keys of the OTW and FUSE fields that are spent (R57). -/
  spent : List Nat := []
  /-- Captured high words: pair key, requester, value (R48). -/
  capture : List (Nat × Nat × Nat) := []
  /-- Staged low words: pair key, requester, value (R48). -/
  staging : List (Nat × Nat × Nat) := []
  /-- The eight dies, by die number; a die not listed is at its reset. -/
  dies : List (Nat × Die) := []
  /-- Deep memory of all dies: tray-global address (R36) and byte, canonical. -/
  mem : List Host.Cell := []
  /-- The recorder's RAM ring, by slot number (R567). -/
  ring : List (Nat × RingSlot) := []
  /-- The flash log, by flash slot (R578); a slot not listed is erased. -/
  flash : List (Nat × FlashSlot) := []
  /-- Flash blocks whose erase is running or waits, in order (R581). -/
  eraseQ : List Nat := []
  /-- Buckets listed on their own: event code, tokens with 16 fractional bits (R574); the others of a class hold its level. -/
  tokens : Store := []
  /-- Suppressed counts by event code (R574). -/
  suppressed : Store := []
  /-- Codes whose class is not the power-on class (R573). -/
  classMap : Store := []
  /-- Records presented before the start-up search ended, oldest first (R584); `entered` holds their tray time. -/
  heldRecs : List DieRec := []
  /-- Intervals between the last rising edges of each tachometer, newest first, in microseconds: FANk at k, PUMPp at 12 + p (R508). -/
  tach : List (Nat × List Nat) := []
  /-- Times of the flow pulses of the last second, newest first, on State.clock (R517). -/
  flowPulses : List (Nat × List Nat) := []
  /-- Open windows of ARM: requester and time on State.clock (R138). -/
  armed : List (Nat × Nat) := []
  /-- The firmware bundle in staging memory (R130, R147). -/
  staged : Option Bundle := none
  /-- SRAM words of the management cores that are not 0: MCk at 65,536 k + word, the 64 KiB they share at 262,144 + word (R142). -/
  mcSram : List (Nat × Nat) := []
  /-- Commands posted in the emulated page and not yet served, oldest first (R162). -/
  posted : List Posted := []
  /-- Times of the watchdog fires of the last 10 s, on State.clock: MCk at k, core i of die n at 16 + 2n + i (R156). -/
  fires : List (Nat × List Nat) := []
  /-- The ring of points of each sensor that is in OK, newest first: value in 1/16 °C as 16 bits, tray time (R484). -/
  rings : List (Nat × List (Nat × Nat)) := []
  /-- The frames that wait for MC3, oldest first (R608). -/
  rxq : List RxFrame := []
  /-- SEQ and CRC of the last frame accepted for MC3 (R610). -/
  lastFrame : Option (Nat × Nat) := none
  /-- Its committed reply payload (R610). -/
  storedReply : Option (List Byte) := none
  /-- The analog front end. -/
  afe : Afe := {}
  /-- The bytes the last memory read delivered, or the register word of the last register read: what the sender sees. -/
  answer : List Byte := []
  /-- The register write that is being carried out: none between commands. The model's own field (notes/assumptions/12.md). -/
  writing : Option Writing := none
  deriving DecidableEq, Repr

/-- The tray right after the release of nothing yet: standby supply off, every field at the value the spec gives for
reset, or at the value the log names. [DESIGN CHOICE, log entries 1, 2, 4, 9] -/
def State.reset : State := { nv := factoryValues }

end Sys2Proof.Machine
end

