-- ==== Sys2Proof/Machine/Ops.lean ====
section
/-! DEFINITION. The shared operations over the state: sparse tables, register fields, the dies, tray time, memory bytes,
free values. -/

namespace Sys2Proof.Machine

/-- The outcome of a command. -/
abbrev Out := Host.Outcome State Fault Refusal

/-! Sparse tables: a list of (key, value), keys rising. -/

/-- The value listed under a key. -/
def aget {α : Type} : List (Nat × α) → Nat → Option α
  | [], _ => none
  | (k, v) :: t, q => if k = q then some v else aget t q

/-- List a value under a key. -/
def aput {α : Type} : List (Nat × α) → Nat → α → List (Nat × α)
  | [], q, w => [(q, w)]
  | (k, v) :: t, q, w =>
    if k = q then (q, w) :: t
    else if q < k then (q, w) :: (k, v) :: t
    else (k, v) :: aput t q w

/-- List nothing under a key. -/
def adel {α : Type} (l : List (Nat × α)) (q : Nat) : List (Nat × α) := l.filter (fun e => e.1 != q)

/-- List a value under a key, or nothing where the value is what an unlisted key reads as. [DESIGN CHOICE, log entry 10] -/
def aputD {α : Type} [DecidableEq α] (l : List (Nat × α)) (q : Nat) (dflt w : α) : List (Nat × α) :=
  if w = dflt then adel l q else aput l q w

/-- Keep the entries whose key passes. -/
def akeep {α : Type} (l : List (Nat × α)) (p : Nat → Bool) : List (Nat × α) := l.filter (fun e => p e.1)

/-! Register fields. -/

/-- What a field holds (the active copy, for a shadowed field). [DESIGN CHOICE, log entry 10] -/
def State.get (s : State) (f : Field) : Nat :=
  if f.factory then (aget s.nv f.key).getD f.reset else (aget s.regs f.key).getD f.reset

/-- Load a field; a value wider than the field keeps its low bits. [DESIGN CHOICE, log entry 10] -/
def State.set (s : State) (f : Field) (v : Nat) : State :=
  if f.factory then { s with nv := aputD s.nv f.key f.reset (v % 2 ^ f.width) }
  else { s with regs := aputD s.regs f.key f.reset (v % 2 ^ f.width) }

/-- The shadow copy of a shadowed field (R62): where none is kept apart, the active copy. -/
def State.getShadow (s : State) (f : Field) : Nat := (aget s.shadow f.key).getD (s.get f)

/-- Write the shadow copy. -/
def State.setShadow (s : State) (f : Field) (v : Nat) : State :=
  { s with shadow := aputD s.shadow f.key (s.get f) (v % 2 ^ f.width) }

/-- A one-bit field as a truth value. -/
def State.is (s : State) (f : Field) : Bool := s.get f != 0

/-- Set a one-bit field from a truth value. -/
def State.put (s : State) (f : Field) (b : Bool) : State := s.set f b.toNat

/-- Bit `n` of a field. -/
def State.bit (s : State) (f : Field) (n : Nat) : Bool := (s.get f).testBit n

/-- A value with bit `n` set or cleared. -/
def withBit (v n : Nat) (b : Bool) : Nat :=
  if v.testBit n = b then v else if b then v + 2 ^ n else v - 2 ^ n

/-- Set or clear bit `n` of a field. -/
def State.setBit (s : State) (f : Field) (n : Nat) (b : Bool) : State := s.set f (withBit (s.get f) n b)

/-- Count `n` more on a CNT field, which saturates at all ones (R73). -/
def State.count (s : State) (f : Field) (n : Nat := 1) : State := s.set f (min (s.get f + n) (2 ^ f.width - 1))

/-- Count up modulo the field's width. -/
def State.wrap (s : State) (f : Field) (n : Nat := 1) : State := s.set f (s.get f + n)

/-- A 64-bit pair of two word registers. -/
def State.pair (s : State) (lo hi : Field) : Nat := s.get hi * 4294967296 + s.get lo

/-- Load a pair. -/
def State.setPair (s : State) (lo hi : Field) (v : Nat) : State := (s.set lo v).set hi (v / 4294967296)

/-- Bits [lo + w - 1 : lo] of a value. -/
def bitsOf (v lo w : Nat) : Nat := v / 2 ^ lo % 2 ^ w

/-- Two's complement: the number a `w`-bit pattern stands for. -/
def toSigned (w v : Nat) : Int := if v % 2 ^ w < 2 ^ (w - 1) then (v % 2 ^ w : Nat) else (v % 2 ^ w : Nat) - (2 ^ w : Nat)

/-- The `w`-bit two's complement pattern of a number. -/
def ofSigned (w : Nat) (i : Int) : Nat := (i % (2 ^ w : Nat)).toNat

/-- A number held between two bounds. -/
def clampI (lo hi i : Int) : Int := max lo (min hi i)

/-- Saturate to a signed `w`-bit number. -/
def satSigned (w : Nat) (i : Int) : Int := clampI (-(2 ^ (w - 1) : Nat)) ((2 ^ (w - 1) : Nat) - 1) i

/-! The dies. -/

/-- What a die holds beside its registers. -/
def State.die (s : State) (d : Nat) : Die := (aget s.dies d).getD {}

/-- Replace what a die holds. -/
def State.setDie (s : State) (d : Nat) (x : Die) : State := { s with dies := aput s.dies d x }

/-- Change what a die holds. -/
def State.onDie (s : State) (d : Nat) (f : Die → Die) : State := s.setDie d (f (s.die d))

/-- The dies of a mask. -/
def diesOf (mask : Nat) : List Nat := (List.range 8).filter (fun n => mask.testBit n)

/-- The number of ones of an 8-bit mask. -/
def popcount (w v : Nat) : Nat := ((List.range w).filter (fun n => v.testBit n)).length

/-- Do something once for each of a list. -/
def State.each (s : State) (l : List Nat) (f : State → Nat → State) : State := l.foldl f s

/-! Tray time (R13). -/

/-- Tray time: [63:15] seconds, [14:0] ticks of 1/32,768 s. [DESIGN CHOICE, log entry 5] -/
def State.trayTime (s : State) : Nat := s.pair CAL.TIME_LO.cl CAL.TIME_HI.cl

/-- Microseconds of a time in ticks, rounded down. -/
def ticksToUs (t : Nat) : Nat := t * 1000000 / 32768

/-- Ticks of a time in microseconds, rounded half up (R572). -/
def usToTicks (us : Nat) : Nat := (us * 32768 * 2 + 1000000) / 2000000

/-! Deep memory, by tray-global address (R36). -/

/-- The tray-global address of a die-local address. -/
def gaddr (d a : Nat) : Nat := d * 1099511627776 + a % 1099511627776

/-- One byte of deep memory. [DESIGN CHOICE, log entry 4] -/
def State.byte (s : State) (a : Nat) : BitVec 8 := (aget s.mem a).getD Config.unwrittenByte

/-- Write one byte of deep memory; memory keeps its canonical form. [DESIGN CHOICE, log entry 4] -/
def State.setByte (s : State) (a : Nat) (b : BitVec 8) : State :=
  { s with mem := aputD s.mem a Config.unwrittenByte b }

/-- `n` bytes from `a` as one little-endian number (R8). -/
def State.load (s : State) (a : Nat) : Nat → Nat
  | 0 => 0
  | n + 1 => (s.byte a).toNat + 256 * s.load (a + 1) n

/-- Store a number as `n` little-endian bytes from `a` (R8). -/
def State.store (s : State) (a : Nat) : Nat → Nat → State
  | 0, _ => s
  | n + 1, v => (s.setByte a (BitVec.ofNat 8 v)).store (a + 1) n (v / 256)

/-- A 32-bit word of a die's deep memory. -/
def State.word (s : State) (d a : Nat) : Nat := s.load (gaddr d a) 4

/-- Store the words of a list, in order, from a die-local address. -/
def State.storeWords (s : State) (d a : Nat) : List Nat → State
  | [] => s
  | w :: t => (s.store (gaddr d a) 4 w).storeWords d (a + 4) t

/-- The words at a die-local address. -/
def State.words (s : State) (d a n : Nat) : List Nat := (List.range n).map (fun i => s.word d (a + 4 * i))

/-- Copy `n` bytes of one die's deep memory to another place of the tray. -/
def State.copyBytes (s : State) (from_ to_ : Nat) : Nat → State
  | 0 => s
  | n + 1 => (s.setByte to_ (s.byte from_)).copyBytes (from_ + 1) (to_ + 1) n

/-- The canonical form of memory: addresses strictly rising, no entry equal to what an unlisted address reads as.
[DESIGN CHOICE, log entry 4] -/
def memWf : List Host.Cell → Bool
  | [] => true
  | [c] => c.2 != Config.unwrittenByte
  | c :: c' :: t => c.2 != Config.unwrittenByte && decide (c.1 < c'.1) && memWf (c' :: t)

/-- The canonical form, of a state. -/
abbrev State.memOk (s : State) : Prop := memWf s.mem = true

/-! Free values. -/

/-- The free value the next use takes. [DESIGN CHOICE, log entry 3] -/
def State.free (s : State) : Nat := (Config.freeValue s.freeCtr).toNat

/-- Count a use of a free value. [DESIGN CHOICE, log entry 3] -/
def State.useFree (s : State) : State := { s with freeCtr := s.freeCtr + 1 }

/-! The header of a page (spec/02_register_pages.md, "Pages"). -/

namespace HDR
/-- PAGE_CTRL.ENABLE. -/
def ENABLE : Reg := reg 0x008 0 1 .rw 0
/-- PAGE_CTRL.VIEW_ACTIVE. -/
def VIEW_ACTIVE : Reg := reg 0x008 2 1 .rw 0
/-- PAGE_STATUS.ENABLED, where a block has a start-up of its own. -/
def ENABLED : Reg := reg 0x00C 0 1 .ro 0
/-- PAGE_STATUS.RESETTING. -/
def RESETTING : Reg := reg 0x00C 1 1 .ro 0
/-- PAGE_STATUS.COMMIT_PENDING. -/
def COMMIT_PENDING : Reg := reg 0x00C 4 1 .ro 0
/-- PAGE_EVENT, all its bits. -/
def EVENT : Reg := reg 0x010 0 32 .w1c 0
/-- PAGE_EVENT_EN. -/
def EVENT_EN : Reg := reg 0x014 0 32 .rw 0
/-- PAGE_LOCK.LOCK. -/
def LOCK : Reg := reg 0x018 0 1 .w1s 0
/-- PAGE_FAULT, bits [3:0]: LOCK_VIOL, CFG_MISMATCH, ACCESS_ERR, COLLIDE. -/
def FAULT : Reg := reg 0x01C 0 4 .w1c 0
/-- PAGE_GEN. -/
def GEN : Reg := reg 0x024 0 32 .ro 0
end HDR

/-- A header field of the page at `base` of a chip. -/
def hdr (r : Reg) (chip base : Nat) : Field := { r with off := r.off + base }.at chip 0

/-- The base of page number `i` of a row of pages. -/
def Page.at (p : Page) (i : Nat) : Nat := p.base + 0x1000 * i

/-- Whether a page is enabled. -/
def State.enabled (s : State) (chip : Nat) (p : Page) (i : Nat := 0) : Bool := s.is (hdr HDR.ENABLE chip (p.at i))

/-- Hardware sets a block event bit of PAGE_EVENT (R72). [DESIGN CHOICE, log entry 67] -/
def State.pageEvent (s : State) (chip : Nat) (p : Page) (bit : Nat) (i : Nat := 0) : State :=
  s.setBit (hdr HDR.EVENT chip (p.at i)) bit true

end Sys2Proof.Machine
end

