-- ==== Sys2Proof/Machine/Recorder.lean ====
section
/-! DEFINITION. The event recorder as every writer uses it: a record's layout, admission, rate limits, flush, and the
queue of die records (R563 to R583 of spec/18_event_recorder.md). -/

namespace Sys2Proof.Machine

namespace RECI
/-- Records lost since the previous 0x3801 (R570). -/
def LOST_SINCE : Reg := ireg 0x100 32 0
/-- Causes of the losses since then: [0] ring full, [1] block input queue full (R570). -/
def LOST_CAUSES : Reg := ireg 0x101 2 0
/-- The page being flushed: 0 none, 1 data program, 2 mark program (R579). -/
def PHASE : Reg := ireg 0x102 2 0
/-- The SEQ after the last record of the page being flushed. -/
def PAGE_END : Reg := ireg 0x103 32 0
/-- The flash block last written into, plus 1 (R581). -/
def BLOCK : Reg := ireg 0x104 11 0
/-- 7.0 ms have passed since power-fail assertion (R582). -/
def PF_LIMIT : Reg := ireg 0x105 1 0
/-- Power-on reset has been released and the recorder runs. -/
def RUNS : Reg := ireg 0x106 1 0
/-- Tokens, with 16 fractional bits, of every bucket of class c = 1 to 3 that is not listed on its own (R574). -/
def LEVEL : Reg := (iarr 0x108 27 0 3).inits [32 * 65536, 4 * 65536, 256 * 65536]
end RECI

namespace DEVQI
/-- Records dropped since the previous 0x2020 (R571). -/
def LOST_SINCE : Reg := ireg 0x100 32 0
/-- The mailbox slots whose result the die has to report: bit k, slot k (R25). -/
def REPORT : Reg := ireg 0x177 8 0
end DEVQI

/-! The record (R563 to R565). -/

/-- ORIGIN of a block: block code, die and instance (R564). -/
def originOf (block die inst : Nat) : Nat := (block % 16384 + die * 16384 + inst * 131072) % 8388608

/-- One step of the CRC-8 of R565, over one bit pattern. -/
def crc8Bits : Nat → Nat → Nat
  | 0, c => c
  | n + 1, c => crc8Bits n (if c < 128 then c * 2 else Nat.xor (c * 2 % 256) 7)

/-- CRC-8, polynomial x^8 + x^2 + x + 1, over bytes (R565). -/
def crc8 (bs : List Nat) : Nat := bs.foldl (fun c b => crc8Bits 8 (Nat.xor c b)) 0

/-- A number as `n` little-endian bytes. -/
def bytesLE : Nat → Nat → List Nat
  | 0, _ => []
  | n + 1, v => v % 256 :: bytesLE n (v / 256)

/-- The 32 bytes of a record, CHECK and MARK given (R563). -/
def Rec.bytesWith (r : Rec) (check mark : Nat) : List Nat :=
  bytesLE 4 r.seq ++ bytesLE 2 r.code ++ [r.flags % 256, check] ++ bytesLE 8 r.time ++ bytesLE 3 r.origin ++ [mark] ++
    bytesLE 2 r.suppressed ++ bytesLE 2 r.aux ++ bytesLE 4 r.arg0 ++ bytesLE 4 r.arg1

/-- CHECK of a record (R565). -/
def Rec.check (r : Rec) : Nat := crc8 (r.bytesWith 0 0x5A)

/-- The eight little-endian words of bytes. -/
def wordsOfBytes : List Nat → List Nat
  | a :: b :: c :: d :: t => (a + 256 * b + 65536 * c + 16777216 * d) :: wordsOfBytes t
  | _ => []

/-- The eight words of a valid record (R563). -/
def Rec.words (r : Rec) : List Nat := wordsOfBytes (r.bytesWith r.check 0x5A)

/-! Rate limiting (R573 to R575). -/

/-- The class of a code: fixed class 0, the class map, or class 1 (R573). -/
def State.classOf (s : State) (code : Nat) : Nat :=
  if 0x4000 ≤ code ∨ (0x3800 ≤ code ∧ code ≤ 0x38FF) then 0 else (aget s.classMap code).getD 1

/-- The full bucket of a class, with 16 fractional bits (R574). -/
def State.fullBucket (s : State) (cls : Nat) : Nat := s.get (EVRATE.BURST.clAt (cls - 1)) * 65536

/-- The tokens of every bucket of a class that is not listed on its own (R574). -/
def State.levelOf (s : State) (cls : Nat) : Nat := s.get (RECI.LEVEL.clAt (cls - 1))

/-- The tokens of a code's bucket (R574). -/
def State.tokensOf (s : State) (code : Nat) : Nat :=
  min ((aget s.tokens code).getD (s.levelOf (s.classOf code))) (s.fullBucket (s.classOf code))

/-- What a bucket of a class holds after a refill: RATE / 1,024 tokens more, up to BURST (R574). -/
def State.refilled (s : State) (cls had : Nat) : Nat := min (had + 64 * s.get (EVRATE.RATE.clAt (cls - 1))) (s.fullBucket cls)

/-- The suppressed count of a code. -/
def State.suppressedOf (s : State) (code : Nat) : Nat := (aget s.suppressed code).getD 0

/-- Whether the rate limit lets an occurrence through (R574). -/
def State.hasToken (s : State) (code : Nat) : Bool := s.classOf code == 0 || decide (65536 ≤ s.tokensOf code)

/-- Spend one token (R574). -/
def State.spendToken (s : State) (code : Nat) : State :=
  if s.classOf code = 0 then s else { s with tokens := aput s.tokens code (s.tokensOf code - 65536) }

/-- An occurrence is suppressed (R574): it counts, saturating in the record at 0xFFFF (R563). [DEDUCED, log entry 59] -/
def State.suppress (s : State) (code : Nat) : State :=
  { s with suppressed := aput s.suppressed code (s.suppressedOf code + 1) }.count EVREC.SUPPRESSED_TOTAL.cl

/-! Admission (R567, R568, R585, R586). -/

/-- Serial distance of two SEQ values modulo 2^32. -/
def seqSub (a b : Nat) : Nat := (a + 4294967296 - b % 4294967296) % 4294967296

/-- FREE of R568. -/
def State.ringFree (s : State) : Nat := 4096 - seqSub (s.get EVREC.HEAD.cl) (s.get EVREC.FLUSH_NEXT.cl)

/-- The SEQ values reserved now (R569). -/
def State.reservedSeqs (s : State) : List Nat :=
  s.ring.filterMap (fun e => match e.2.kind with | .reserved _ => some e.2.body.seq | _ => none)

/-- Bring the registers that follow from the ring up to date: FREE, OLDEST, COMMITTED_TO. -/
def State.ringRegs (s : State) : State :=
  let head := s.get EVREC.HEAD.cl
  let start := s.get EVREC.START_SEQ.cl
  let oldest := if 4096 ≤ seqSub head start then seqSub head 4096 else start
  let firstHeld := s.reservedSeqs.foldl (fun m q => if seqSub q oldest < seqSub m oldest then q else m) head
  ((s.set EVREC.FREE.cl s.ringFree).set EVREC.OLDEST.cl oldest).set EVREC.COMMITTED_TO.cl (seqSub firstHeld 1)

/-- Place a record in the ring: it takes SEQ = HEAD, the suppressed count of its code (R575) and its slot (R567).
[DEDUCED, log entry 59] -/
def State.place (s : State) (kind : SlotKind) (r : Rec) : State :=
  let head := s.get EVREC.HEAD.cl
  let rec' := { r with seq := head, suppressed := min (s.suppressedOf r.code) 0xFFFF }
  ({ s with ring := aput s.ring (head % 4096) ⟨kind, rec'⟩, suppressed := adel s.suppressed r.code }.wrap
    EVREC.HEAD.cl).ringRegs

/-- Whether a slot may be taken (R568). -/
def State.slotFor (s : State) (code : Nat) : Bool :=
  decide (64 < s.ringFree) || (decide (0x4000 ≤ code) && decide (0 < s.ringFree))

/-- A record is lost at admission, with the page's event LOST (R568); the cause is told by the next 0x3801 (R570).
[DEDUCED, log entry 59] -/
def State.loseRecord (s : State) (cause : Nat) : State :=
  (((s.count EVREC.LOST.cl).count (RECI.LOST_SINCE.cl)).setBit RECI.LOST_CAUSES.cl cause true).pageEvent clachasel EVREC.page 9

/-- ORIGIN of the recorder itself. -/
def recorderOrigin : Nat := originOf 0x2700 0 0

/-- Admit event 0x3801 if records were lost (R570). [DEDUCED, log entry 59] -/
def State.tellLost (s : State) : State :=
  if s.get RECI.LOST_SINCE.cl = 0 then s
  else if s.slotFor 0x3801 then
    let r : Rec := ⟨0, 0x3801, 0, s.trayTime, recorderOrigin, 0, s.get RECI.LOST_CAUSES.cl, s.get RECI.LOST_SINCE.cl, 0⟩
    ((s.place .valid r).set RECI.LOST_SINCE.cl 0).set RECI.LOST_CAUSES.cl 0
  else s

/-! Flush (R578 to R583). -/

/-- The flash block of a SEQ (R578). -/
def flashBlock (q : Nat) : Nat := q % 2097152 / 2048

/-- Start an erase of a block unless it is being erased or waits to be (R581). -/
def State.startErase (s : State) (b : Nat) : State :=
  if b % 1024 ∈ s.eraseQ then s else { s with eraseQ := s.eraseQ ++ [b % 1024] }.set EVREC.ERASING.cl 1

/-- Begin the next page of a flush: stop at the end, wait at a reserved slot or at an erase, or start the data program
of the records up to the end of the page (R579, R580, R581). -/
def State.flushPage (s : State) : State :=
  let q := s.get EVREC.FLUSH_NEXT.cl
  let head := s.get EVREC.HEAD.cl
  if s.get EVREC.FLUSHING.cl = 0 ∨ s.get EVREC.FLASH_FAULT.cl = 1 ∨ s.get RECI.PHASE.cl ≠ 0 then s
  else if q = head ∨ s.get RECI.PF_LIMIT.cl = 1 then
    (((s.set EVREC.FLUSHING.cl 0).set EVREC.TO_END.cl 0).set EVREC.ERASE_WAIT.cl 0).set EVREC.PF_FLUSH.cl 0
  else
    let pageEnd := q + (8 - q % 8)
    let held := s.reservedSeqs
    let stop := (List.range 8).foldl (fun e i =>
      let c := q + (7 - i)
      if c % 4294967296 ∈ held ∧ s.get EVREC.PF_FLUSH.cl = 0 then c else e) (min pageEnd (q + seqSub head q))
    if stop = q then s
    else if flashBlock q ∈ s.eraseQ then
      if s.get EVREC.ERASE_WAIT.cl = 1 then s else (s.set EVREC.ERASE_WAIT.cl 1).count EVREC.ERASE_WAITS.cl
    else
      let s := ((s.set EVREC.ERASE_WAIT.cl 0).set RECI.PHASE.cl 1).set RECI.PAGE_END.cl stop
      if s.get RECI.BLOCK.cl = flashBlock q + 1 ∨ s.get EVREC.PF_FLUSH.cl = 1 then s
      else (s.set RECI.BLOCK.cl (flashBlock q + 1)).startErase (flashBlock q + 2)

/-- A sweep: one record for each code with suppressed occurrences, with SWEEP set; a count of lost records goes first (R570,
R576). [DEDUCED, log entry 59] -/
def State.sweep (s : State) : State :=
  s.suppressed.foldl (fun s e =>
    let s := s.tellLost
    if s.slotFor e.1 then s.place .valid { code := e.1, flags := 4, time := s.trayTime } else s.loseRecord 0) s

/-- A flush trigger (R580); `toEnd` for every trigger but FLUSH_MARK. A trigger during a flush joins it (R594).
[DEDUCED, log entry 59] -/
def State.startFlush (s : State) (toEnd : Bool) : State :=
  if s.get EVREC.FLASH_FAULT.cl = 1 ∨ s.get RECI.RUNS.cl = 0 ∨ s.get EVREC.SCANNING.cl = 1 ∨ s.get RECI.PF_LIMIT.cl = 1 then s
  else if s.get EVREC.FLUSHING.cl = 1 then if toEnd then s.set EVREC.TO_END.cl 1 else s
  else if s.get EVREC.HEAD.cl = s.get EVREC.FLUSH_NEXT.cl ∧ s.suppressed = [] then s
  else
    let s := if toEnd then s.sweep else s
    (((s.set EVREC.FLUSHING.cl 1).put EVREC.TO_END.cl toEnd).count EVREC.FLUSHES.cl).flushPage

/-- The flush triggers of an admission: a 0x4xxx record, or the backlog reaching FLUSH_MARK (R580). -/
def State.flushAfter (s : State) (code : Nat) : State :=
  if 0x4000 ≤ code then s.startFlush true
  else if s.get EVREC.FLUSH_MARK.cl ≤ seqSub (s.get EVREC.HEAD.cl) (s.get EVREC.FLUSH_NEXT.cl) then s.startFlush false
  else s.flushPage

/-- What became of a presented record. -/
inductive Admit where
  | admitted | suppressed | busy
  deriving DecidableEq, Repr

/-- Admit, suppress or refuse a record (R568, R574); the record enters the ring as `kind`. -/
def State.admitRecord (s : State) (kind : SlotKind) (r : Rec) : State × Admit :=
  if ¬ s.hasToken r.code then (s.suppress r.code, .suppressed)
  else
    let s := s.tellLost
    if s.slotFor r.code then ((((s.spendToken r.code).place kind r).flushAfter r.code), .admitted) else (s, .busy)

/-- A Clachasel writer that is not a window presents a record: held while the start-up search runs (R584), else
admitted, suppressed, or lost (R568). [DEDUCED, log entry 59] -/
def State.present (s : State) (code origin arg0 arg1 aux : Nat) : State :=
  if s.get RECI.RUNS.cl = 0 then s
  else if s.get EVREC.SCANNING.cl = 1 then
    if s.heldRecs.length < 64 then
      { s with heldRecs := s.heldRecs ++ [⟨code, origin, aux % 65536, arg0 % 4294967296, arg1 % 4294967296, s.trayTime⟩] }
    else s.loseRecord 1
  else
    match s.admitRecord .valid ⟨0, code, 0, s.trayTime, origin, 0, aux % 65536, arg0 % 4294967296, arg1 % 4294967296⟩ with
    | (s, .busy) => s.loseRecord 0
    | (s, _) => s

/-- Clachasel hardware of the block at a page records an event (R70, R564, R566). [DEDUCED, log entry 59] -/
def State.event (s : State) (p : Page) (code : Nat) (arg0 : Nat := 0) (arg1 : Nat := 0) (aux : Nat := 0)
    (inst : Nat := 0) : State :=
  s.present code (originOf p.block 0 inst) arg0 arg1 aux

/-! Reservations (R569). -/

/-- The SEQ that MCk holds reserved. [DEDUCED, log entry 60] -/
def State.reservedBy (s : State) (core : Nat) : Option Nat :=
  s.ring.findSome? (fun e => if e.2.kind = .reserved core then some e.2.body.seq else none)

/-- Void the reservation of MCk with its cause: 1 time limit, 2 CANCEL, 3 core reset; event 0x3803 (R569).
[DEDUCED, log entry 60] -/
def State.voidReservation (s : State) (k cause : Nat) : State :=
  match s.reservedBy k with
  | none => s
  | some q =>
    match aget s.ring (q % 4096) with
    | none => s
    | some slot =>
      let s := { s with ring := aput s.ring (q % 4096) ⟨.void, slot.body⟩ }.ringRegs
      ((s.set (EVWIN.RESULT.clAt k) 6).event EVWIN.page 0x3803 (k + 256 * cause)).flushPage

/-! Die records (R571). -/

/-- DEVQ.FILL follows the queue (R571); SB_IRQ_n is asserted while event records wait or a mailbox result is to be reported
(R25). -/
def State.devqRegs (s : State) (d : Nat) : State :=
  (s.set (DEVQ.FILL.on d) (s.die d).devq.length).put (CSB.IRQ.clAt d) ((s.die d).devq != [] || s.is (DEVQI.REPORT.on d))

/-- A die queues an event record for the sideband (R571); a die held in reset records nothing. [DEDUCED, log entry 59] -/
def State.dieEvent (s : State) (d : Nat) (p : Page) (code : Nat) (arg0 : Nat := 0) (arg1 : Nat := 0) (aux : Nat := 0)
    (inst : Nat := 0) : State :=
  let q := (s.die d).devq
  let lost := s.get (DEVQI.LOST_SINCE.on d)
  let notice : List DieRec :=
    if lost = 0 then [] else [⟨0x2020, originOf DEVQ.page.block d 0, 0, lost, 0, s.clock⟩]
  let r : DieRec := ⟨code, originOf p.block d inst, aux % 65536, arg0 % 4294967296, arg1 % 4294967296, s.clock⟩
  if s.bit FENCE.TRIP_NOW.cl d then s
  else if q.length + notice.length < 128 then
    ((s.onDie d (fun x => { x with devq := q ++ notice ++ [r] })).set (DEVQI.LOST_SINCE.on d) 0).devqRegs d
  else (s.count (DEVQ.LOST.on d)).count (DEVQI.LOST_SINCE.on d)

/-- An event of a page of either chip: chip 8 is the Clachasel. -/
def State.chipEvent (s : State) (chip : Nat) (p : Page) (code : Nat) (arg0 arg1 aux inst : Nat) : State :=
  if chip < 8 then s.dieEvent chip p code arg0 arg1 aux inst else s.event p code arg0 arg1 aux inst

end Sys2Proof.Machine
end

