-- ==== Sys2Proof/Machine/Pages.lean ====
section
/-! DEFINITION. Register pages: which field stands at an offset, reads, PAGE_FAULT and its events, locks, pairs, resets of
domains and of pages (R45 to R79 of spec/02_register_pages.md). -/

namespace Sys2Proof.Machine

/-! Where a field stands. -/

/-- The index of the array element of a register at a BAR0 offset. -/
def Reg.indexAt (r : Reg) (off : Nat) : Option Nat :=
  if off < r.off then none
  else
    let delta := off - r.off
    let hi := if r.pstride = 0 then 0 else delta / r.pstride
    let rest := if r.pstride = 0 then delta else delta % r.pstride
    let lo := if r.stride = 0 then 0 else rest / r.stride
    if rest = lo * r.stride ∧ lo < r.per ∧ hi * r.per + lo < r.count then some (hi * r.per + lo) else none

/-- The pages of a chip: dies 0 to 7, the Clachasel 8. -/
def pagesOf (chip : Nat) : List Page := if chip < 8 then diePages else clachaselPages

/-- The page at a BAR0 offset, with its number in its row. [DEDUCED, log entry 13] -/
def pageAt (chip off : Nat) : Option (Page × Nat) :=
  (pagesOf chip).findSome? (fun p =>
    if p.base ≤ off ∧ off < p.base + 0x1000 * p.pages then some (p, (off - p.base) / 0x1000) else none)

/-- The fields of the register at a BAR0 offset, each with its index. -/
def fieldsAt (p : Page) (off : Nat) : List (Reg × Nat) :=
  p.regs.filterMap (fun r => (r.indexAt off).map (fun i => (r, i)))

/-- Whether a BAR0 offset is in a reserved range (R30, R31, R33). [DEDUCED, log entry 13] -/
def reservedRange (chip off : Nat) : Bool :=
  if chip < 8 then decide (0x700000 ≤ off)
  else decide (0x50000 ≤ off ∧ off < 0x80000) || decide (0x81000 ≤ off)

/-- The first page of a chip's system range (R33). -/
def systemPage (chip : Nat) : Page := if chip < 8 then DSYS.page else CSYS.page

/-- The 64-bit pairs, low register first (R48). -/
def pairsOfDie : List (Reg × Reg) :=
  [(DSYS.SERIAL_LO, DSYS.SERIAL_HI), (WLOAD.BID_W0_LO, WLOAD.BID_W0_HI), (WLOAD.BID_W1_LO, WLOAD.BID_W1_HI),
   (KRING.BASE_LO, KRING.BASE_HI), (KRING.KEYRING_ID_LO, KRING.KEYRING_ID_HI),
   (MERR.HBM_UE_ADDR_LO, MERR.HBM_UE_ADDR_HI), (HL.EXP_TRAY_LO, HL.EXP_TRAY_HI), (HL.PEER_TRAY_LO, HL.PEER_TRAY_HI),
   (BEAT.BEAT_LO, BEAT.BEAT_HI), (BEAT.RELEASE_BEAT_LO, BEAT.RELEASE_BEAT_HI), (HLID.INST_TAG_LO, HLID.INST_TAG_HI),
   (HLID.TRAY_ID_LO, HLID.TRAY_ID_HI), (STRM.OUT_LO, STRM.OUT_HI), (STRM.SCQ_BASE_LO, STRM.SCQ_BASE_HI),
   (RING.SQ_BASE_LO, RING.SQ_BASE_HI), (RING.CQ_BASE_LO, RING.CQ_BASE_HI), (FAULT.FQ_BASE_LO, FAULT.FQ_BASE_HI),
   (STEST.MARGINAL_LO, STEST.MARGINAL_HI), (STEST.MT_CUR_LO, STEST.MT_CUR_HI)]

/-- The 64-bit pairs of the Clachasel (R48). -/
def pairsOfClachasel : List (Reg × Reg) :=
  [(BLOAD.SRC_LO, BLOAD.SRC_HI), (BLOAD.BUNDLE_ID_LO, BLOAD.BUNDLE_ID_HI), (EMU.PUB_TIME_LO, EMU.PUB_TIME_HI),
   (EMU.BUNDLE_ID_LO, EMU.BUNDLE_ID_HI), (AFECTL.S_TIME_LO, AFECTL.S_TIME_HI), (AFEPORT.TIME_LO, AFEPORT.TIME_HI),
   (TSTAT.F_TIME_LO, TSTAT.F_TIME_HI), (SUPV.LAST_VALID_LO, SUPV.LAST_VALID_HI),
   (SUPV.RX_END_TIME_LO, SUPV.RX_END_TIME_HI), (CAL.TIME_LO, CAL.TIME_HI), (TRAYID.TRAY_ID_LO, TRAYID.TRAY_ID_HI),
   (TRAYID.INST_TAG_LO, TRAYID.INST_TAG_HI)]

/-- The pair whose low word stands at an offset, with its index. -/
def lowPairAt (chip off : Nat) : Option (Reg × Reg × Nat) :=
  (if chip < 8 then pairsOfDie else pairsOfClachasel).findSome? (fun p =>
    (p.1.indexAt off).map (fun i => (p.1, p.2, i)))

/-- The pair whose high word stands at an offset, with its index. -/
def highPairAt (chip off : Nat) : Option (Reg × Reg × Nat) :=
  (if chip < 8 then pairsOfDie else pairsOfClachasel).findSome? (fun p =>
    (p.2.indexAt off).map (fun i => (p.1, p.2, i)))

/-! Faults (R70 to R72). -/

/-- The causes of PAGE_FAULT, by bit. -/
inductive FaultBit where
  | lockViol | cfgMismatch | accessErr | collide
  deriving DecidableEq, Repr

/-- The bit of a cause. -/
def FaultBit.num : FaultBit → Nat
  | .lockViol => 0
  | .cfgMismatch => 1
  | .accessErr => 2
  | .collide => 3

/-- Whether the register write being carried out has set this bit already. -/
def State.faultTold (s : State) (b : FaultBit) : Bool :=
  match s.writing with
  | some w => w.faults.testBit b.num
  | none => false

/-- The value written that a fault's record carries: the whole word of the register write being carried out, else the value the
command names (R70). -/
def State.wordWritten (s : State) (value : Nat) : Nat :=
  match s.writing with
  | some w => w.word
  | none => value

/-- The register write being carried out has set a bit. -/
def State.noteFault (s : State) (b : FaultBit) : State :=
  { s with writing := s.writing.map (fun w => { w with faults := withBit w.faults b.num true }) }

/-- A write sets a PAGE_FAULT bit: the bit, PAGE_EVENT.FAULT when it passes from 0 to 1, and an event record with the
requester, the BAR0 offset and the value written; one write records a bit once (R70, R71, R72, R566).
[DEDUCED, log entry 12] -/
def State.pageFault (s : State) (chip : Nat) (p : Page) (inst : Nat) (b : FaultBit) (req off value : Nat) : State :=
  let f := hdr HDR.FAULT chip (p.at inst)
  let s1 := if s.bit f b.num then s else s.pageEvent chip p 0 inst
  let code := (if chip < 8 then 0x2101 else 0x3101) + b.num
  if s.faultTold b then s else ((s1.setBit f b.num true).noteFault b).chipEvent chip p code off (s.wordWritten value) req inst

/-- A fault raised by a command at a register of its page, named by the register. -/
def State.regFault (s : State) (chip : Nat) (p : Page) (r : Reg) (i : Nat) (b : FaultBit) (req value : Nat) : State :=
  s.pageFault chip p ((r.offset i - p.base) / 0x1000) b req (r.offset i) value

/-- The event output of a page: PAGE_EVENT and PAGE_EVENT_EN (R72). -/
def State.eventOut (s : State) (chip : Nat) (p : Page) (inst : Nat) : Bool :=
  Nat.land (s.get (hdr HDR.EVENT chip (p.at inst))) (s.get (hdr HDR.EVENT_EN chip (p.at inst))) != 0

/-- Whether a requester may write a field (R52). -/
def Reg.accepts (r : Reg) (i req : Nat) : Bool :=
  if r.eachWriter ≠ [] then r.eachWriter.getD (i % r.eachWriter.length) 0 == req
  else r.writers == [] || r.writers.contains req

/-- Whether a page is locked (R56). -/
def State.locked (s : State) (chip : Nat) (p : Page) (inst : Nat) : Bool := s.is (hdr HDR.LOCK chip (p.at inst))

/-- Spent fuses are listed by their key + 2^40; no reset clears them (R57). -/
def fuseBase : Nat := 1099511627776

/-- The entry of a FUSE field among the spent ones. -/
def fuseKey (f : Field) : Nat := f.key + fuseBase

/-- Whether a FUSE field can still be written: INST_TAG until it is set (R618), a FUSE_COL_g of 0x1F (R220), a REVOKE (R623), each
once ever; every other was written at the factory and is spent on delivery (R57). -/
def State.fuseOpen (s : State) (chip : Nat) (r : Reg) (i : Nat) : Bool :=
  !s.spent.contains (fuseKey (r.at chip i)) &&
    (if chip < 8 then r.off == CSKIP.FUSE_COL_0.off && s.get (r.at chip i) == 0x1F
    else r.off == TRAYID.REVOKE.off || ((r.off == TRAYID.INST_TAG_LO.off || r.off == TRAYID.INST_TAG_HI.off) && !s.is TRAYID.TAG_SET.cl))

/-- Whether a field is locked or spent: LK on a locked page, OTW once written, FUSE once written (R56, R57). -/
def State.lockedField (s : State) (chip : Nat) (p : Page) (inst : Nat) (r : Reg) (i : Nat) : Bool :=
  (r.kind == .lk && s.locked chip p inst) || (r.kind == .otw && s.spent.contains (r.at chip i).key) ||
    (r.kind == .fuse && !s.fuseOpen chip r i)

/-! Reset of a domain (R59) and of a page (R60). -/

/-- Whether a key lies in the pages of a page row. -/
def Page.holds (p : Page) (chip key : Nat) : Bool :=
  decide (fieldKey chip p.base 0 ≤ key ∧ key < fieldKey chip (p.base + 0x1000 * p.pages) 0)

/-- Internal registers of the domains, by word number: 0x100 up in the power-on (or die) domain, 0x1000 up in the tray
domain, 0x2000 up in the calendar domain, 0x3000 up in none. [DESIGN CHOICE, log entry 10] -/
def internalIn (dom : Domain) (chip key : Nat) : Bool :=
  let lo := match dom with | .die => 0 | .por => 0 | .tray => 0x1000 | .cal => 0x2000
  let hi := match dom with | .die => 0x3000 | .por => 0x1000 | .tray => 0x2000 | .cal => 0x3000
  decide (fieldKey (chip + 16) (4 * lo) 0 ≤ key ∧ key < fieldKey (chip + 16) (4 * hi) 0)

/-- Whether a key belongs to a reset domain of a chip. -/
def inDomain (dom : Domain) (chip key : Nat) : Bool :=
  internalIn dom chip key || (pagesOf chip).any (fun p => p.domain == dom && p.holds chip key)

/-- A reset of a domain: every field at its Reset value, locks and spent OTW fields cleared, PAGE_GEN 0, the shadow set at
Reset values, pending commits cancelled (R59), captures and stagings emptied (R48). [DESIGN CHOICE, log entry 7] -/
def State.resetDomain (s : State) (dom : Domain) (chip : Nat) : State :=
  { s with regs := akeep s.regs (fun k => !inDomain dom chip k), shadow := akeep s.shadow (fun k => !inDomain dom chip k), spent := s.spent.filter (fun k => decide (fuseBase ≤ k) || !inDomain dom chip k), capture := akeep s.capture (fun k => !inDomain dom chip k), staging := akeep s.staging (fun k => !inDomain dom chip k) }

/-- Whether a field is the one of a register definition. -/
def Reg.same (r x : Reg) : Bool := r.off == x.off && r.lo == x.lo

/-- Whether a field is one of a list. -/
def Reg.among (r : Reg) (l : List Reg) : Bool := l.any r.same

/-- The RO fields of a die that show no run-time state of their page's block: PLL locks and training, fuses, lock and spent states,
and the cores that run or are held (R57, R60, R156, R218, R275). [DEDUCED, log entry 16] -/
def standingDie : List Reg :=
  [DCLK.TILE_LOCK, DCLK.LG_LOCK, DCLK.HBM_LOCK, DCLK.WARDEN_LOCK, DCLK.PCIE_LOCK, DRST.FIRST_POWER, DRST.READY_SENT,
   DFUSE.FUSES_LOADED, WLOAD.W0_RUN, WLOAD.W1_RUN, WLOAD.W0_HELD, WLOAD.W1_HELD, WCORE.WDT_REMAIN,
   WCORE.RESTART_PC, CSKIP.LOCKED, CSKIP.FUSED, HBM.TRAINED,
   PART.CARVE_LOCKED, HLID.TAG_SET, HLID.TRAY_SET]

/-- The same of the Clachasel: PLL locks, pins and measured levels, causes of a reset, the cores, SERVED, spent states (R57, R60,
R156, R159). [DEDUCED, log entry 16] -/
def standingClachasel : List Reg :=
  [CCLK.CORE_LOCK, CCLK.AFE_LOCK, CCLK.SUPV_LOCK, CCLK.CAL_RUN, CRST.POR, CRST.TRAY_HOST, CRST.TRAY_SUPV, PFAIL.PF_NOW, PFAIL.VIN,
   MCCTL.RUNNING, MCCTL.HELD, MCCTL.WDT_REMAIN, MCCTL.RESTART_PC, EMU.SERVED, EMU.MC3_RUN, SUPV.SLOT_ID, SUPV.ADDR_VALID, TRAYID.TAG_SET, TALERT.ALERT_NOW,
   HLS.TA_ACTIVE, HLS.LIMITS_SET, HLS.IIN]

/-- Whether a soft reset leaves a field of its page: LK, OTW and FUSE fields, the active copy of shadowed fields, and what is no
run-time state (R60). [DEDUCED, log entry 16] -/
def Reg.standing (r : Reg) (chip : Nat) : Bool :=
  r.shadowed || r.kind == .lk || r.kind == .otw || r.kind == .fuse || r.among (if chip < 8 then standingDie else standingClachasel)

/-- Whether a soft reset keeps a key of its page: PAGE_LOCK, PAGE_GEN, and the fields it leaves (R60). -/
def softKeeps (chip : Nat) (p : Page) (inst key : Nat) : Bool :=
  key == (hdr HDR.LOCK chip (p.at inst)).key || key == (hdr HDR.GEN chip (p.at inst)).key ||
    (fieldsAt p (key % 536870912 / 32 / 4 * 4)).any (fun x => (x.1.at chip x.2).key == key && x.1.standing chip)

/-- Whether a key lies in page `inst` of a row. -/
def inPage (chip : Nat) (p : Page) (inst key : Nat) : Bool :=
  decide (fieldKey chip (p.at inst) 0 ≤ key ∧ key < fieldKey chip (p.at inst + 0x1000) 0)

/-- A soft reset of a page (R60, R79): fields return to their Reset values, the shadow copy is loaded from the active
copy, a pending commit is cancelled, captures and stagings are emptied (R48), RESETTING reads 1. [DEDUCED, log entry 16] -/
def State.softResetPage (s : State) (chip : Nat) (p : Page) (inst : Nat) : State :=
  let s := { s with regs := akeep s.regs (fun k => !inPage chip p inst k || softKeeps chip p inst k), shadow := akeep s.shadow (fun k => !inPage chip p inst k), capture := akeep s.capture (fun k => !inPage chip p inst k), staging := akeep s.staging (fun k => !inPage chip p inst k) }
  s.set (hdr HDR.RESETTING chip (p.at inst)) 1

/-- Whether a page is in soft reset (R61). -/
def State.resetting (s : State) (chip : Nat) (p : Page) (inst : Nat) : Bool :=
  s.is (hdr HDR.RESETTING chip (p.at inst))

/-- The page instance a field of a row of pages lies in. -/
def Reg.instOf (r : Reg) (p : Page) (i : Nat) : Nat := (r.offset i - p.base) / 0x1000

/-- What bars a write that a command carries out: soft reset (R61), then a lock (R58), then the requester (R52). -/
def State.writeBar (s : State) (chip : Nat) (p : Page) (r : Reg) (i req : Nat) : Option FaultBit :=
  if s.resetting chip p (r.instOf p i) then some .accessErr
  else if s.lockedField chip p (r.instOf p i) r i then some .lockViol
  else if r.accepts i req then none else some .accessErr

/-- Whether a write to a field is let through. -/
def State.writable (s : State) (chip : Nat) (p : Page) (r : Reg) (i req : Nat) : Bool := (s.writeBar chip p r i req).isNone

/-- Whether a chip is held in reset: a die by TRIP_n (R41, R123), the Clachasel by power-on reset.
[DESIGN CHOICE, log entry 9; DEDUCED, log entry 14] -/
def State.inReset (s : State) (chip : Nat) : Bool := if chip < 8 then s.bit FENCE.TRIP_NOW.cl chip else !s.is RECI.RUNS.cl

/-- A write that a command carries out: not served by a chip held in reset (R41), let through, or discarded with the fault that
bars it (R52, R58, R61). [DEDUCED, log entry 14] -/
def State.onWrite (s : State) (chip : Nat) (p : Page) (r : Reg) (i req value : Nat) (act : State → State) : State :=
  if s.inReset chip then s
  else
    match s.writeBar chip p r i req with
    | some b => s.regFault chip p r i b req value
    | none => act s

/-- Whether some shadow copy of a page differs from its active copy (R62). -/
def State.shadowDirty (s : State) (chip : Nat) (p : Page) (inst : Nat) : Bool :=
  s.shadow.any (fun e => inPage chip p inst e.1)

/-- Apply the shadow set of a page: every shadow copy becomes active, PAGE_GEN counts up, COMMIT_PENDING clears,
PAGE_EVENT.COMMITTED is set (R66). -/
def State.applyShadow (s : State) (chip : Nat) (p : Page) (inst : Nat) : State :=
  let active := s.shadow.foldl (fun r e => if inPage chip p inst e.1 then aput r e.1 e.2 else r) s.regs
  let active := s.shadow.foldl (fun r e =>
    if inPage chip p inst e.1 && (fieldsAt p (e.1 % 536870912 / 32 / 4 * 4)).any (fun x =>
      (x.1.at chip x.2).key == e.1 && (x.1.at chip x.2).reset == e.2 && !x.1.factory) then adel r e.1 else r) active
  let nv := s.shadow.foldl (fun r e =>
    if inPage chip p inst e.1 && (fieldsAt p (e.1 % 536870912 / 32 / 4 * 4)).any (fun x =>
      (x.1.at chip x.2).key == e.1 && x.1.factory) then aput r e.1 e.2 else r) s.nv
  let s := { s with regs := active, nv := nv, shadow := akeep s.shadow (fun k => !inPage chip p inst k) }
  ((s.set (hdr HDR.COMMIT_PENDING chip (p.at inst)) 0).wrap (hdr HDR.GEN chip (p.at inst))).pageEvent chip p 1 inst

end Sys2Proof.Machine
end

