-- ==== Sys2Proof/Machine/Lines.lean ====
section
/-! DEFINITION. What several commands share of the rails, the mailbox results, the fence and trip lines, die reset and the
out-of-service state (R83, R87, R93, R112, R113, R123 to R125 and R633 to R645). -/

namespace Sys2Proof.Machine

namespace RAILI
/-- Rails of die n that are enabled: bit k, order k of R83. -/
def ON : Reg := iarr 0x200 9 0 8
/-- Rails of die n that report power-good: bit k, order k of R83. -/
def PG : Reg := iarr 0x208 9 0 8
/-- In a ramp up, the order of R83 die n waits at; 0 otherwise. -/
def STEP : Reg := iarr 0x210 4 0 8
/-- In a ramp down, the DIE_STATE it ends in. -/
def FINAL : Reg := iarr 0x218 3 0 8
/-- The main switch opens once the last rail is off. -/
def OPEN_MAIN : Reg := ireg 0x220 1 0
/-- Rails of die n came up since its last die reset (DRST.FIRST_POWER). -/
def FRESH : Reg := iarr 0x228 1 0 8
/-- A tray reset is taking the rails down (R136). -/
def TRAY_RESETTING : Reg := ireg 0x230 1 0
/-- Bit n: TRIP_n was asserted during a hold, and VCORE of die n has not yet fallen below 10 % (R109). -/
def HOLD_TRIP : Reg := ireg 0x231 8 0
/-- Bit n: TRIP_n has been released and DIE_READY_TO of die n runs (R133). -/
def READY_WAIT : Reg := ireg 0x232 8 0
/-- 12V_SB is good. -/
def SB_GOOD : Reg := ireg 0x3000 1 0
/-- The time on State.clock at which the last tray reset was accepted, plus 1 (R137). -/
def RESET_AT : Reg := ireg 0x3004 64 0
end RAILI

namespace MBXI
/-- Owner of slot k of die n, at 8n + k: a requester number, 0 for none (R94, R651). -/
def OWNER : Reg := iarr 0x240 10 0 64
/-- The slot has been sent (R651). -/
def SENT : Reg := iarr 0x280 1 0 64
/-- The slot the window of MCk refers to on die n, at 8k + n: slot + 1, 0 for none. -/
def HELD : Reg := iarr 0x2C0 4 0 32
/-- The result of slot k of die n as the posting hardware shows it, at 8n + k (R112). -/
def SHOWN : Reg := iarr 0x310 4 0 64
/-- Its transition ID. -/
def SHOWN_TID : Reg := iarr 0x350 8 0 64
/-- The status of die n's last mailbox result (R106). -/
def LAST : Reg := iarr 0x390 4 0 8
end MBXI

namespace HOLDI
/-- The kind of the request the die acts on at its sync hinge; 0 for none. -/
def KIND : Reg := ireg 0x164 4 0
/-- Its slot. -/
def SLOT : Reg := ireg 0x165 3 0
end HOLDI

namespace OPI
/-- A power-good check of die n's rise is due (R101). -/
def CHECK : Reg := iarr 0x300 1 0 8
/-- The transition ID of the VOLT_OK on its way to die n, plus 1; 0 for none (R101). -/
def VOLT : Reg := iarr 0x308 9 0 8
end OPI

namespace LINEI
/-- FENCE_n has reached the die (R26). -/
def FENCING : Reg := ireg 0x110 1 0
/-- The die has reached its fenced state (R636). -/
def FENCED : Reg := ireg 0x172 1 0
/-- THERM_ALERT_n is asserted at the die's pin. -/
def THERM : Reg := iarr 0x238 1 0 8
/-- FENCE_n has been asserted since this time on State.clock, plus 1 (R637). -/
def FENCE_SINCE : Reg := iarr 0x1600 64 0 8
/-- TRIP_n was last asserted at this time on State.clock, plus 1 (R654). -/
def TRIP_AT : Reg := iarr 0x1608 64 0 8
/-- THERM_ALERT_n has been asserted since this time on State.clock, plus 1 (R641). -/
def THERM_SINCE : Reg := iarr 0x3A0 64 0 8
/-- DIE_FAULT_n is latched by the supervisor (R640). -/
def FAULT_LATCH : Reg := iarr 0x1240 1 0 8
/-- DIE_FAULT_n is latched by MC2 (R26). -/
def FAULT_MC2 : Reg := iarr 0x1248 1 0 8
end LINEI

/-! Mailbox results. -/

/-- The result codes of HMBX. -/
inductive MbxStatus where
  | empty | accepted | done | refusedLate | refusedStale | refusedBad | discarded | superseded | voltLate
  deriving DecidableEq, Repr

/-- The code of a status. -/
def MbxStatus.code : MbxStatus → Nat
  | .empty => 0
  | .accepted => 1
  | .done => 2
  | .refusedLate => 3
  | .refusedStale => 4
  | .refusedBad => 5
  | .discarded => 6
  | .superseded => 7
  | .voltLate => 8

/-- Whether a code is a terminal status (R112). -/
def mbxTerminal (c : Nat) : Bool := decide (2 ≤ c)

/-- The posting window of MCk shows the slot it refers to on the die its DIE field names (R94, R112).
[DEDUCED, log entry 29] -/
def State.showWindow (s : State) (k : Nat) : State :=
  let d := s.get (MBXPOST.DIE.clAt k)
  let h := s.get (MBXI.HELD.clAt (8 * k + d))
  if h = 0 then
    (((s.set (MBXPOST.SLOT.clAt k) 0xFF).set (MBXPOST.CLAIM_DONE.clAt k) 0).set (MBXPOST.STATUS.clAt k) 0).set (MBXPOST.TID.clAt k) 0
  else
    let s := (s.set (MBXPOST.SLOT.clAt k) (h - 1)).set (MBXPOST.CLAIM_DONE.clAt k) 1
    (s.set (MBXPOST.STATUS.clAt k) (s.get (MBXI.SHOWN.clAt (8 * d + h - 1)))).set (MBXPOST.TID.clAt k) (s.get (MBXI.SHOWN_TID.clAt (8 * d + h - 1)))

/-- The posting hardware takes the result of a slot; the windows that refer to it show it. -/
def State.mirrorWindows (s : State) (d slot status tid : Nat) : State :=
  let s := (s.set (MBXI.SHOWN.clAt (8 * d + slot)) status).set (MBXI.SHOWN_TID.clAt (8 * d + slot)) tid
  let s := s.set (MBXI.LAST.clAt d) status
  s.each (List.range 4) (fun s k =>
    if s.get (MBXPOST.DIE.clAt k) = d ∧ s.get (MBXI.HELD.clAt (8 * k + d)) = slot + 1 then s.showWindow k else s)

/-- Free a mailbox slot at the posting hardware: VALID clears, the result reads EMPTY; a window that referred to it refers to
another slot its core holds on the die, if there is one. [DEDUCED, log entry 29] -/
def State.freeSlot (s : State) (d slot : Nat) : State :=
  let s := (s.set (MBXI.OWNER.clAt (8 * d + slot)) 0).set (MBXI.SENT.clAt (8 * d + slot)) 0
  let s := (s.set (MBXI.SHOWN.clAt (8 * d + slot)) 0).set (MBXI.SHOWN_TID.clAt (8 * d + slot)) 0
  let s := ((s.set (HMBX.S_VALID.at d slot) 0).set (HMBX.R_STATUS.at d slot) 0).set (HMBX.R_TID.at d slot) 0
  let s := ((s.set (HMBX.R_DETAIL.at d slot) 0).setBit (DEVQI.REPORT.on d) slot false).devqRegs d
  s.each (List.range 4) (fun s k =>
    if s.get (MBXI.HELD.clAt (8 * k + d)) = slot + 1 then
      let other := (List.range 8).find? (fun j => s.get (MBXI.OWNER.clAt (8 * d + j)) = k + 1)
      (s.set (MBXI.HELD.clAt (8 * k + d)) (match other with | some j => j + 1 | none => 0)).showWindow k
    else s)

/-- A die posts a result for a slot: the result register, which it then has to report (R25), and event 0x2201 with slot, KIND and
STATUS for every refused status and every DISCARDED (HMBX page). -/
def State.postResult (s : State) (d slot : Nat) (st : MbxStatus) (detail : Nat) : State :=
  let tid := s.get (HMBX.S_TID.at d slot)
  let kind := s.get (HMBX.S_KIND.at d slot)
  let s := ((s.set (HMBX.R_STATUS.at d slot) st.code).set (HMBX.R_TID.at d slot) tid).set (HMBX.R_DETAIL.at d slot) detail
  let s := (s.setBit (DEVQI.REPORT.on d) slot true).devqRegs d
  if st ∈ [.refusedLate, .refusedStale, .refusedBad, .discarded] then
    s.dieEvent d HMBX.page 0x2201 (slot + 256 * kind + 65536 * st.code) else s

/-- The sideband carries the results that a die has to report to the posting hardware, whose windows show them; a slot passed to
owner 0x005 is freed by a terminal status (R25, R94, R651). [DEDUCED, log entry 29] -/
def State.takeResults (s : State) (d : Nat) : State :=
  (s.each ((List.range 8).filter (fun k => s.bit (DEVQI.REPORT.on d) k)) (fun s k =>
    let st := s.get (HMBX.R_STATUS.at d k)
    let s := (s.setBit (DEVQI.REPORT.on d) k false).mirrorWindows d k st (s.get (HMBX.R_TID.at d k))
    if mbxTerminal st ∧ s.get (MBXI.OWNER.clAt (8 * d + k)) = 5 then s.freeSlot d k else s)).devqRegs d

/-- Whether the die acts on the request of a slot: the one its hold is for, or, in PHASE 5, one whose H is the sync hinge it stands at
(R39, R109, R112). -/
def State.actsOn (s : State) (d k : Nat) : Bool :=
  (s.is (HOLDI.KIND.on d) && s.get (HOLDI.SLOT.on d) == k) ||
    (s.get (ARRAY.PHASE.on d) == 5 && s.get (HMBX.S_H.at d k) == s.get (HMBX.SYNC_NOW.on d))

/-- Post DISCARDED to every slot that holds an ACCEPTED request the die does not act on (R39, R109, R112). -/
def State.discardAccepted (s : State) (d : Nat) : State :=
  s.each (List.range 8) (fun s k =>
    if s.get (HMBX.R_STATUS.at d k) = 1 ∧ ¬ s.actsOn d k then s.postResult d k .discarded 0 else s)

/-- The posting hardware shows DISCARDED for every slot of a die whose TRIP_n is asserted (R112). -/
def State.discardTripped (s : State) (d : Nat) : State :=
  s.each (List.range 8) (fun s k =>
    let o := s.get (MBXI.OWNER.clAt (8 * d + k))
    if o = 0 then s
    else
      let s := s.mirrorWindows d k MbxStatus.discarded.code (s.get (HMBX.R_TID.at d k))
      if o = 5 then s.freeSlot d k else s)

/-! Rails (R83, R85). -/

/-- DIE_STATE of die n: 0 OFF, 1 RAMP_UP, 2 UP, 3 RAMP_DOWN, 4 TRIPPED. -/
def State.dieState (s : State) (n : Nat) : Nat := bitsOf (s.get SEQ.DIE_STATE.cl) (3 * n) 3

/-- Set DIE_STATE of die n. -/
def State.setDieState (s : State) (n v : Nat) : State :=
  let old := s.get SEQ.DIE_STATE.cl
  s.set SEQ.DIE_STATE.cl (old - bitsOf old (3 * n) 3 * 2 ^ (3 * n) + v % 8 * 2 ^ (3 * n))

/-- Whether TRIP_n is asserted: die n is in die reset. -/
def State.tripped (s : State) (n : Nat) : Bool := s.bit FENCE.TRIP_NOW.cl n

/-- Whether FENCE_n is asserted. [DEDUCED, log entry 56] -/
def State.fenced (s : State) (n : Nat) : Bool := s.bit FENCE.FENCE_NOW.cl n

/-- The highest rail of a mask, in the order of R83. -/
def topRail (mask : Nat) : Nat := (List.range 9).foldl (fun t k => if mask.testBit k then k else t) 0

/-- The main switch opens with the last rail off (R113, R136). -/
def State.mainOpened (s : State) : State := ((s.set SEQ.MAIN.cl 0).set SEQ.IBC_OK.cl 0).set RAILI.OPEN_MAIN.cl 0

/-- A rail of a die is turned off and ramps down. With VCORE or VSRAM ramping OPSEL_n is 0b000 (R84); a trip in a hold returns it only
once VCORE has fallen below 10 % (R109). -/
def State.turnOff (s : State) (n k : Nat) : State :=
  let s := s.setBit (RAILI.PG.clAt n) k false
  if (k = 5 ∨ k = 4) ∧ ¬ s.bit RAILI.HOLD_TRIP.cl n then s.set (OPCTL.OPSEL.clAt n) 0 else s

/-- The rails of a die are all off: the die reads the state its power-down ends in; FENCE_n deasserts when a DOWN completes
(R633, R638); the main switch opens once the last rail of the tray is off (R113, R136, R641). [DEDUCED, log entry 21] -/
def State.railsOff (s : State) (n : Nat) : State :=
  let final := s.get (RAILI.FINAL.clAt n)
  let s := s.setDieState n final
  let s := if final = 0 then s.setBit FENCE.FENCE_NOW.cl n false else s
  let s := ((s.set (OPCTL.OPSEL.clAt n) 0).set (OPCTL.SLEWING.clAt n) 0).set (OPCTL.RUN_OP.clAt n) 0
  let s := s.setBit RAILI.HOLD_TRIP.cl n false
  if s.is RAILI.OPEN_MAIN.cl ∧ (List.range 8).all (fun k => s.get (RAILI.ON.clAt k) = 0) then
    s.mainOpened
  else s

/-- Take a die's rails down: the highest rail is turned off first (R83). With no rail on, the power-down is complete.
[DEDUCED, log entry 21] -/
def State.railsDown (s : State) (n final : Nat) : State :=
  let final := if s.dieState n = 3 ∧ s.get (RAILI.FINAL.clAt n) = 0 then 0 else final
  let s := (s.set (RAILI.FINAL.clAt n) final).set (RAILI.STEP.clAt n) 0
  let s := s.set (RAILI.FRESH.clAt n) 0
  if s.get (RAILI.ON.clAt n) = 0 then s.railsOff n
  else
    let s := if s.dieState n = 3 then s else s.turnOff n (topRail (s.get (RAILI.ON.clAt n)))
    s.setDieState n 3

/-- Take every die's rails down and open the main switch once the last rail is off (R113, R136, R525, R641). -/
def State.allRailsDown (s : State) (final : Nat) : State :=
  let s := s.set RAILI.OPEN_MAIN.cl 1
  let s := s.each (List.range 8) (fun s n =>
    if s.get (RAILI.ON.clAt n) = 0 then
      if s.dieState n = 1 then s.railsDown n final else s
    else s.railsDown n final)
  if (List.range 8).all (fun k => s.get (RAILI.ON.clAt k) = 0) then
    s.mainOpened
  else s

/-! Die reset (R123, R125). -/

/-- Die reset of die n: its die-reset domain returns to Reset values, SKIP_g to its fuse's value or 16, a group skipped by its
fuse locked (R219, R226, R232); its queues, arrays and memories, undefined afterwards (R125), are emptied
(notes/assumptions/7.md). [DESIGN CHOICE, log entry 7] -/
def State.dieReset (s : State) (n : Nat) : State :=
  let s := s.resetDomain .die n
  let s := { s with dies := adel s.dies n, mem := akeep s.mem (fun a => a / 1099511627776 != n) }
  let s := ((s.set (CSB.IRQ.clAt n) 0).set (OPCTL.RUN_OP.clAt n) 0).set (CSB.UP.clAt n) 0
  let s := (s.set (OPI.CHECK.clAt n) 0).set (OPI.VOLT.clAt n) 0
  let s := (s.set (LINEI.FAULT_LATCH.clAt n) 0).set (LINEI.FAULT_MC2.clAt n) 0
  s.each (List.range 4) (fun s g =>
    let r := [CSKIP.FUSE_COL_0, CSKIP.FUSE_COL_1, CSKIP.FUSE_COL_2, CSKIP.FUSE_COL_3].getD g CSKIP.FUSE_COL_0
    let fuse := s.get (r.on n)
    let written := fuse != 0x1F
    ((s.set (CSKIP.SKIP.at n g) (if written then fuse else 16)).setBit (CSKIP.LOCKED.on n) g written).setBit (CSKIP.FUSED.on n) g written)

/-! Lines (R633, R634, R645, R654). -/

/-- The sources of FENCE_SRC_n and TRIP_SRC_n; the same source numbers the record carries. -/
def State.lineRecord (s : State) (code n src : Nat) : State := s.event FENCE.page code (n + 256 * src)

/-- A line asserted for a die in service: DIE_INSERV loses the die and LOST_n is set (R634). -/
def State.dieLost (s : State) (n : Nat) : State :=
  if s.bit CSYS.DIE_INSERV.cl n then
    (s.setBit CSYS.DIE_INSERV.cl n false).set (FENCE.LOST.clAt n) 1
  else s

/-- The requester number of a source of FENCE_n: MC0's, or the supervisor's (R55). -/
def fenceRank (src : Nat) : Nat := if src = 1 then 1 else 0

/-- The requester number of a source of TRIP_n: MC0's, that of the fence hardware for FENCE_TO, or the supervisor's (R55, R637). -/
def tripRank (src : Nat) : Nat := if src = 1 then 1 else if src = 2 then 5 else 0

/-- FENCE_n is asserted from a source (R633). A line that is asserted stays as it is; asserted in this same cycle by a requester of a
higher number, it takes this source (R654). [DESIGN CHOICE, log entry 67] -/
def State.fenceLine (s : State) (n src : Nat) : State :=
  if s.fenced n then
    if s.get (LINEI.FENCE_SINCE.clAt n) = s.clock + 1 ∧ fenceRank src < fenceRank (s.get (FENCE.FENCE_SRC.clAt n)) then
      s.set (FENCE.FENCE_SRC.clAt n) src
    else s
  else
    let s := ((s.setBit FENCE.FENCE_NOW.cl n true).set (FENCE.FENCE_SRC.clAt n) src).count FENCE.FENCES.cl
    let s := s.set (LINEI.FENCE_SINCE.clAt n) (s.clock + 1)
    ((s.pageEvent clachasel FENCE.page 8).lineRecord 0x4110 n src).dieLost n

/-- TRIP_n is asserted from a source and holds the die in die reset (R26, R633); the posting windows show DISCARDED (R112). Of two
sources in one cycle the one of the lower requester number is named (R654). [DESIGN CHOICE, log entry 67] -/
def State.tripLine (s : State) (n src : Nat) : State :=
  if s.tripped n then
    if s.get (LINEI.TRIP_AT.clAt n) = s.clock + 1 ∧ tripRank src < tripRank (s.get (FENCE.TRIP_SRC.clAt n)) then
      s.set (FENCE.TRIP_SRC.clAt n) src
    else s
  else
    let s := ((s.setBit FENCE.TRIP_NOW.cl n true).set (FENCE.TRIP_SRC.clAt n) src).set (LINEI.TRIP_AT.clAt n) (s.clock + 1)
    let s := (s.setBit RAILI.HOLD_TRIP.cl n (s.is (HMBX.HOLD_ACTIVE.on n))).setBit RAILI.READY_WAIT.cl n false
    (((s.lineRecord 0x4112 n src).dieLost n).discardTripped n).dieReset n

/-- Out of service, with the first cause: every die still in DIE_INSERV is fenced and event 0x4113 is recorded (R645). -/
def State.outOfService (s : State) (cause : Nat) : State :=
  if s.is FENCE.OOS.cl then s
  else
    let s := ((s.set FENCE.OOS.cl 1).set FENCE.OOS_CAUSE.cl cause).pageEvent clachasel FENCE.page 9
    (s.each (diesOf (s.get CSYS.DIE_INSERV.cl)) (fun s n => s.fenceLine n 4)).event FENCE.page 0x4113

/-- Fewer than seven dies in service in DIES_READY or later puts the tray out of service (R645). -/
def State.checkService (s : State) : State :=
  if 4 ≤ s.get CSYS.TRAY_STATE.cl ∧ popcount 8 (s.get CSYS.DIE_INSERV.cl) < 7 then s.outOfService 1 else s

/-- Assert FENCE_n, with what follows for the tray. [DEDUCED, log entry 56] -/
def State.fence (s : State) (n src : Nat) : State := (s.fenceLine n src).checkService

/-- Assert TRIP_n, with what follows for the tray. -/
def State.trip (s : State) (n src : Nat) : State := (s.tripLine n src).checkService

/-- Assert every TRIP_n (R113, R136, R525, R641). -/
def State.tripAll (s : State) (src : Nat) : State := s.each (List.range 8) (fun s n => s.tripLine n src)

/-- A die fault: its cause bit is set, event 0x2031 carries the cause (R639). DIE_FAULT_n follows DFAULT.CAUSE. -/
def State.dieFault (s : State) (d bit : Nat) : State :=
  if s.bit (DFAULT.CAUSE.on d) bit then s
  else (s.setBit (DFAULT.CAUSE.on d) bit true).dieEvent d DFAULT.page 0x2031 bit

/-- Change TRAY_STATE and record event 0x3004 with the old and new states (R132). -/
def State.toTrayState (s : State) (new : Nat) : State :=
  let old := s.get CSYS.TRAY_STATE.cl
  if old = new then s else (s.set CSYS.TRAY_STATE.cl new).event CSYS.page 0x3004 (old + 256 * new)

/-! DIE_READY. -/

/-- The on-tray links of die d to a peer m: links 4j to 4j + 3, where j counts the other dies in order (R28, R301). -/
def onTrayLinks (d m : Nat) : List Nat :=
  let j := if m < d then m else m - 1
  (List.range 4).map (fun i => 4 * j + i)

/-- W0 records DIE_READY once the stacks are trained and every on-tray link to a die of PEER_MASK is UP (R134, R309).
[DEDUCED, log entries 22, 24] -/
def State.dieReady (s : State) (d : Nat) : State :=
  let peers := (diesOf (s.get (HLID.PEER_MASK.on d))).filter (fun m => m != d)
  if s.is (DRST.READY_SENT.on d) ∨ ¬ s.is (WLOAD.W0_RUN.on d) ∨
      ¬ (List.range 4).all (fun k => s.is (HBM.TRAINED.at d k)) ∨
      ¬ peers.all (fun m => (onTrayLinks d m).all (fun l => s.get (HL.STATE.at d l) == 7)) then s
  else (s.set (DRST.READY_SENT.on d) 1).dieEvent d DRST.page 0x2001

end Sys2Proof.Machine
end

