-- ==== Sys2Proof/Machine/Cooling.lean ====
section
/-! DEFINITION. Fans, pumps, flow and leaks (spec/16_cooling.md): precedence of the outputs, the control loop, tachometers,
flow, leak comparators. -/

namespace Sys2Proof.Machine

namespace COOLI
/-- Duty commanded on an output, driven from the next PWM period: FANk at k, PUMPp at 12 + p (R507). -/
def CMD : Reg := iarr 0x1000 10 0 14
/-- Target duty of PUMPp (R512). -/
def PTARGET : Reg := iarr 0x1010 10 0 2
/-- The output has been driven at TACH_ARM or above since this time on State.clock, plus 1; 0 when it is not (R516). -/
def ARM_SINCE : Reg := iarr 0x1020 64 0 14
/-- Both pumps have been driven at 400 or above since this time plus 1; 0 when they are not (R517). -/
def FLOW_SINCE : Reg := ireg 0x1030 64 0
/-- The flow input has read RATE of FLOW_MIN or more since this time plus 1 (R519). -/
def PROVEN_SINCE : Reg := iarr 0x1032 64 0 2
/-- Channel k, numbered as CMD10 numbers them, has met the condition of its FAULT since this time on State.clock, plus 1; 0 when it does
not (R516, R517). -/
def LOW_SINCE : Reg := iarr 0x10A0 64 0 16
/-- The speed computed at the last edge, published at the next control period (R508). -/
def SPEED : Reg := iarr 0x1040 16 0 14
/-- Time of the last rising edge on State.clock (R508). -/
def LAST_EDGE : Reg := iarr 0x1050 64 0 14
/-- I of zone z with 16 fractional bits (R511). -/
def I : Reg := iarr 0x1060 26 0 16
/-- MC0 to MC3 have been released (R129). -/
def RELEASED : Reg := ireg 0x1070 1 0
/-- The leak-settle wait of this standby period ended with a channel unproven: the cores are never released in it (R129). -/
def UNPROVEN : Reg := ireg 0x1071 1 0
end COOLI

namespace LEAKI
/-- Line current of LKn in 10 nA. -/
def CUR : Reg := iarr 0x1080 24 0 4
/-- The leak comparator of LKn has crossed and its 20 ms filter runs since this time on State.clock, plus 1; 0 when it does not (R523). -/
def PEND_LEAK : Reg := iarr 0x1084 64 0 4
/-- The same of the open comparator. -/
def PEND_OPEN : Reg := iarr 0x1088 64 0 4
/-- Last measured current of LKn in 10 nA (R527, R529). -/
def MEAS : Reg := iarr 0x108C 16 0 4
/-- Consecutive results below LEAK_WARN (R527). -/
def BELOW : Reg := iarr 0x1090 4 0 4
/-- The leak comparator of LKn has left its alarm side since the reset (R523). -/
def LEFT_LEAK : Reg := iarr 0x1094 1 0 4
/-- The open comparator of LKn has left its alarm side since the reset. -/
def LEFT_OPEN : Reg := iarr 0x1098 1 0 4
/-- The leak-settle wait has run since this time on State.clock, plus 1 (R524). -/
def SETTLE_SINCE : Reg := ireg 0x109C 64 0
end LEAKI

/-! Output precedence (R514). -/

/-- Whether output k is fitted: fans 0 to 11, pumps 12 and 13 (R504). -/
def State.fitted (s : State) (k : Nat) : Bool :=
  if k < 12 then s.bit CFAN.FAN_FIT.cl k else s.bit CFAN.PUMP_FIT.cl (k - 12)

/-- Whether output k is boosted: a fan by a fault of its group, a pump by a fault of the other pump or by any flow fault
(R516, R517). -/
def State.boosted (s : State) (k : Nat) : Bool :=
  if k < 12 then (List.range 3).any (fun i => s.is (CFAN.FAULT.clAt (3 * (k / 3) + i)))
  else s.is (CPUMP.FAULT.clAt (13 - k)) || s.is (CPUMP.FL_FAULT.clAt 0) || s.is (CPUMP.FL_FAULT.clAt 1)

/-- The row of R514 in force for output k. [DEDUCED, log entry 66] -/
def State.coolRow (s : State) (k : Nat) : Nat :=
  if ¬ s.fitted k then 1
  else if s.is HLS.LEAK_TRIPPED.cl then 2
  else if s.is CFAN.SUPV_OVERRIDE.cl ∨ (List.range 8).any (fun n => s.is (LINEI.THERM.clAt n)) then 3
  else if s.get COOLI.RELEASED.cl = 0 ∨ s.get CFAN.RUN.cl = 0 then 4
  else if s.boosted k then 5
  else 6

/-- The duty a row of R514 sets, for the rows that set one. -/
def rowDuty (row k : Nat) : Option Nat :=
  match row with
  | 1 => some 0
  | 2 => some (if k < 12 then 1000 else 0)
  | 3 => some 1000
  | 4 => some 600
  | 5 => some 1000
  | _ => none

/-- Apply rows 1 to 5 of R514 at the outputs, and show the rows in force (CFAN page). [DEDUCED, log entry 66] -/
def State.coolNow (s : State) : State :=
  let s := s.each (List.range 14) (fun s k =>
    match rowDuty (s.coolRow k) k with
    | some v => s.set (COOLI.CMD.clAt k) v
    | none => s)
  let s := s.each (List.range 4) (fun s g => s.set (CFAN.ROW.clAt g) (s.coolRow (3 * g)))
  let s := s.put CFAN.LEAK_TRIP.cl (s.is HLS.LEAK_TRIPPED.cl)
  let s := s.put CFAN.THERM_OVERRIDE.cl ((List.range 8).any (fun n => s.is (LINEI.THERM.clAt n)))
  s.put CFAN.STANDBY_REGIME.cl (s.get COOLI.RELEASED.cl = 0 ∨ s.get CFAN.RUN.cl = 0)

/-! Zone demand (R509 to R511). -/

/-- Round x / 65536 to the nearest whole number, halves up. -/
def round16 (x : Int) : Int := (x * 2 + 65536) / 131072

/-- The linear interpolation between two points, rounded to the nearest unit, halves up (R510). -/
def interpolate (t t0 d0 t1 d1 : Int) : Int := (2 * (d0 * (t1 - t0) + (d1 - d0) * (t - t0)) + (t1 - t0)) / (2 * (t1 - t0))

/-- A signed 16-bit field. -/
def State.s16 (s : State) (f : Field) : Int := toSigned 16 (s.get f)

/-- The demand of a zone in curve mode (R510). -/
def State.curveDemand (s : State) (z : Nat) : Int :=
  let t := s.s16 (TZONE.T_Z.clAt z)
  let pt := fun i => s.s16 (CDEM.T.clAt (4 * z + i))
  let pd := fun i => (s.get (CDEM.D.clAt (4 * z + i)) : Int)
  if t ≤ pt 0 then pd 0
  else if t ≤ pt 1 then interpolate t (pt 0) (pd 0) (pt 1) (pd 1)
  else if t ≤ pt 2 then interpolate t (pt 1) (pd 1) (pt 2) (pd 2)
  else if t < pt 3 then interpolate t (pt 2) (pd 2) (pt 3) (pd 3)
  else pd 3

/-- One period of the PI loop: the new I, with 16 fractional bits, and the demand (R511). [DEDUCED, log entry 66] -/
def State.piDemand (s : State) (z : Nat) : Int × Int :=
  let e := s.s16 (TZONE.T_Z.clAt z) - s.s16 (CDEM.SETPOINT.clAt z)
  let dmin := (s.get (CDEM.DMIN.clAt z) : Int) * 65536
  let dmax := (s.get (CDEM.DMAX.clAt z) : Int) * 65536
  let p := (s.get (CDEM.KP.clAt z) : Int) * e * 4096
  let dI := (s.get (CDEM.KI.clAt z) : Int) * e * (s.get CFAN.CTRL_PERIOD.cl : Int) * 65536 / 16000
  let i := (s.get (COOLI.I.clAt z) : Int)
  let u0 := p + i + dI
  let dI := if (dmax < u0 ∧ 0 < e) ∨ (u0 < dmin ∧ e < 0) then 0 else dI
  let i := clampI 0 65536000 (i + dI)
  (i, round16 (clampI dmin dmax (p + i)))

/-- The demand of one zone at a control period (R509); a zone with ZEN 0 contributes none. -/
def State.zoneDemand (s : State) (z : Nat) : State :=
  if s.get (TZONE.ZEN.clAt z) = 0 then s.set (CDEM.DEMAND.clAt z) 0
  else if s.get (TZONE.LEVEL.clAt z) = 3 ∨ s.is (TZONE.NO_DATA.clAt z) then s.set (CDEM.DEMAND.clAt z) 1000
  else
    let lo := (s.get (CDEM.DMIN.clAt z) : Int)
    let hi := (s.get (CDEM.DMAX.clAt z) : Int)
    if s.get (CDEM.MODE.clAt z) = 0 then s.set (CDEM.DEMAND.clAt z) (clampI lo hi (s.curveDemand z)).toNat
    else
      let (i, u) := s.piDemand z
      ((s.set (COOLI.I.clAt z) i.toNat).set (CDEM.I_Z.clAt z) (i.toNat / 65536)).set (CDEM.DEMAND.clAt z) (clampI lo hi u).toNat

/-- The highest demand of the zones of a mask. -/
def State.maskDemand (s : State) (mask : Nat) : Nat :=
  (List.range 16).foldl (fun m z => if mask.testBit z then max m (s.get (CDEM.DEMAND.clAt z)) else m) 0

/-- A rise at once, a fall by at most `slew` (R512). -/
def slewTo (slew old new : Nat) : Nat := if old ≤ new then new else max new (old - slew)

/-- The targets of groups and pumps at a control period (R512). [DEDUCED, log entry 66] -/
def State.coolTargets (s : State) : State :=
  let slew := s.get CFAN.DOWN_SLEW.cl
  let s := s.each (List.range 4) (fun s g =>
    let raw := max (s.maskDemand (s.get (CFAN.ZONES.clAt g))) (max (s.get (CFAN.FLOOR.clAt g)) (s.get (CFAN.HOST_FLOOR.clAt g)))
    s.set (CFAN.TARGET.clAt g) (slewTo slew (s.get (CFAN.TARGET.clAt g)) raw))
  s.each (List.range 2) (fun s p =>
    let raw := max (s.maskDemand (s.get (CPUMP.ZONES.clAt p))) (max (s.get (CPUMP.FLOOR.clAt p)) (s.get (CPUMP.HOST_FLOOR.clAt p)))
    s.set (COOLI.PTARGET.clAt p) (slewTo slew (s.get (COOLI.PTARGET.clAt p)) raw))

/-- The target of output k. -/
def State.outputTarget (s : State) (k : Nat) : Nat :=
  if k < 12 then s.get (CFAN.TARGET.clAt (k / 3)) else s.get (COOLI.PTARGET.clAt (k - 12))

/-- Row 6: the duty goes to the target, falling by DOWN_SLEW (R512, R515). [DEDUCED, log entry 66] -/
def State.coolFollow (s : State) : State :=
  s.each (List.range 14) (fun s k =>
    if s.coolRow k = 6 then
      s.set (COOLI.CMD.clAt k) (slewTo (s.get CFAN.DOWN_SLEW.cl) (s.get (COOLI.CMD.clAt k)) (s.outputTarget k))
    else s)

/-! Tachometers and flow (R508, R516, R517, R519). -/

/-- The driven duty of output k. -/
def dutyOf (k : Nat) : Field := if k < 12 then CFAN.DUTY.clAt k else CPUMP.DUTY.clAt (k - 12)

/-- The fields of a tachometer channel: FAULT, ARMED, RPM. -/
def faultOf (k : Nat) : Field := if k < 12 then CFAN.FAULT.clAt k else CPUMP.FAULT.clAt (k - 12)
/-- ARMED of a channel. -/
def armedOf (k : Nat) : Field := if k < 12 then CFAN.ARMED.clAt k else CPUMP.ARMED.clAt (k - 12)
/-- RPM of a channel. -/
def rpmOf (k : Nat) : Field := if k < 12 then CFAN.RPM.clAt k else CPUMP.RPM.clAt (k - 12)
/-- PPR of a channel. -/
def pprOf (k : Nat) : Field := if k < 12 then CFAN.PPR.clAt k else CPUMP.PPR.clAt (k - 12)
/-- TACH_MIN of a channel: of its group, for a fan. -/
def tachMinOf (k : Nat) : Field := if k < 12 then CFAN.TACH_MIN.clAt (k / 3) else CPUMP.TACH_MIN.clAt (k - 12)

/-- The condition of a tachometer fault: armed, and below TACH_MIN (R516). -/
def State.tachLow (s : State) (k : Nat) : Bool := s.is (armedOf k) && decide (s.get (rpmOf k) < s.get (tachMinOf k))

/-- The condition of a flow fault (R517). -/
def State.flowLow (s : State) (f : Nat) : Bool :=
  s.is (CPUMP.FL_ARMED.clAt f) && decide (s.get (CPUMP.FL_RATE.clAt f) < s.get (CPUMP.FLOW_MIN.clAt f))

/-- Whether a time has run since a mark (a time on State.clock plus 1, or 0). -/
def State.heldFor (s : State) (mark : Field) (us : Nat) : Bool :=
  s.get mark != 0 && decide (us ≤ s.clock + 1 - s.get mark)

/-- Keep a mark while a condition holds. -/
def State.markWhile (s : State) (mark : Field) (c : Bool) : State :=
  if c then if s.get mark = 0 then s.set mark (s.clock + 1) else s else s.set mark 0

/-- The condition of the FAULT of a channel, numbered as CMD10 numbers them (R516, R517). -/
def State.coolLow (s : State) (ch : Nat) : Bool := if ch < 14 then s.tachLow ch else s.flowLow (ch - 14)

/-- How long the condition stands before FAULT is set: TACH_TIME or FLOW_TIME, in microseconds. -/
def State.coolTime (s : State) (ch : Nat) : Nat :=
  100000 * (if ch < 14 then s.get CFAN.TACH_TIME.cl else s.get (CPUMP.FLOW_TIME.clAt (ch - 14)))

/-- The time each condition has stood is kept (R516, R517, R531). -/
def State.coolWatch (s : State) : State := s.each (List.range 16) (fun s ch => s.markWhile (COOLI.LOW_SINCE.clAt ch) (s.coolLow ch))

/-- Arming of tachometer and flow checking, from the driven duties (R516, R517). -/
def State.coolArm (s : State) : State :=
  let s := s.each (List.range 14) (fun s k =>
    let s := s.markWhile (COOLI.ARM_SINCE.clAt k) (s.fitted k && decide (s.get CFAN.TACH_ARM.cl ≤ s.get (dutyOf k)))
    s.put (armedOf k) (s.heldFor (COOLI.ARM_SINCE.clAt k) (s.get CFAN.SPINUP.cl * 100000)))
  let s := s.markWhile COOLI.FLOW_SINCE.cl (decide (400 ≤ s.get (dutyOf 12)) && decide (400 ≤ s.get (dutyOf 13)))
  s.each (List.range 2) (fun s f =>
    s.put (CPUMP.FL_ARMED.clAt f) (s.bit CFAN.FLOW_FIT.cl f && s.heldFor COOLI.FLOW_SINCE.cl 5000000))

/-- RATE of a flow input from the pulses of the last second (R517), and the flow proof (R519). -/
def State.flowRate (s : State) (f : Nat) : State :=
  let recent := ((aget s.flowPulses f).getD []).filter (fun t => s.clock < t + 1000000)
  let s := { s with flowPulses := aput s.flowPulses f recent }
  let k := s.get (CPUMP.FLOW_K.clAt f)
  let s := s.set (CPUMP.FL_RATE.clAt f) (if k = 0 then 0 else min 65535 (recent.length * 60000 / k))
  s.markWhile (COOLI.PROVEN_SINCE.clAt f) (decide (s.get (CPUMP.FLOW_MIN.clAt f) ≤ s.get (CPUMP.FL_RATE.clAt f)))

/-- FLOW_PROVEN (R519): on an ADV-T8A, where no flow input is fitted, it reads 1. -/
def State.flowProven (s : State) : State :=
  s.put CPUMP.FLOW_PROVEN.cl (s.get CFAN.FLOW_FIT.cl = 0 ||
    ((List.range 2).all (fun f => !s.bit CFAN.FLOW_FIT.cl f || s.heldFor (COOLI.PROVEN_SINCE.clAt f) 2000000) &&
      (List.range 4).all (fun n => !s.bit CFAN.LK_FIT.cl n || (!s.is (CLEAK.ALARM.clAt n) && !s.is (CLEAK.OPEN.clAt n)))))

/-- Clear a cooling FAULT: it stays while its condition persists; a clear records event 0x3606 and ends the boost (R518,
R535). -/
def State.clearFault (s : State) (f : Field) (p : Page) (held : Bool) : State :=
  if ¬ s.is f ∨ held then s else ((s.set f 0).event p 0x3606).coolNow

/-- One control period: demands, targets, duties, published speeds and rates, arming (R508 to R517). -/
def execControlPeriod (s : State) : Out :=
  let s := s.each (List.range 16) State.zoneDemand
  let s := (s.coolTargets.coolNow).coolFollow
  let s := s.each (List.range 14) (fun s k =>
    s.set (rpmOf k) (if 1000000 ≤ s.clock - s.get (COOLI.LAST_EDGE.clAt k) then 0 else s.get (COOLI.SPEED.clAt k)))
  .next (((s.flowRate 0).flowRate 1).coolArm.coolWatch.flowProven)

/-- A PWM period starts: the commanded duties are driven; an unfitted output is low (R505, R507). -/
def execPwmPeriod (s : State) : Out :=
  .next ((s.each (List.range 14) (fun s k =>
    s.set (dutyOf k) (if s.fitted k then s.get (COOLI.CMD.clAt k) else 0))).coolArm.coolWatch)

/-- A tachometer rising edge, `us` microseconds after the channel's last one, of a pulse `width` microseconds long: pulses
shorter than 10 µs are filtered out; the speed follows from the last PPR intervals (R505, R508). [DEDUCED, log entry 66] -/
def execTachEdge (channel : Fin 14) (us width : Nat) (s : State) : Out :=
  let k := channel.val
  if ¬ s.fitted k ∨ width < 10 then .next s
  else
    let ppr := max 1 (s.get (pprOf k))
    let last := (us :: (aget s.tach k).getD []).take ppr
    let span := last.foldl (· + ·) 0
    let s := { s with tach := aput s.tach k last }.set (COOLI.LAST_EDGE.clAt k) s.clock
    .next (s.set (COOLI.SPEED.clAt k) (if last.length < ppr ∨ span = 0 then 0 else min 65535 (60000000 / span)))

/-- TACH_TIME has passed with an armed channel below TACH_MIN: FAULT, its event and its boost (R516). A channel whose
speed came back is not faulted (R531). [DEDUCED, log entry 66] -/
def execTachFault (channel : Fin 14) (s : State) : Out :=
  let k := channel.val
  if ¬ s.tachLow k ∨ ¬ s.heldFor (COOLI.LOW_SINCE.clAt k) (s.coolTime k) ∨ s.is (faultOf k) then .next s
  else
    let s := s.set (faultOf k) 1
    let s := (if k < 12 then s.event CFAN.page 0x3601 else s.event CPUMP.page 0x3602).pageEvent clachasel CFAN.page 8
    let s := if 12 ≤ k ∧ s.is (CPUMP.FAULT.clAt 0) ∧ s.is (CPUMP.FAULT.clAt 1) then s.event CPUMP.page 0x3605 else s
    .next s.coolNow

/-- A flow pulse is counted in the sliding window (R505, R517). -/
def execFlowPulse (input : Fin 2) (s : State) : Out :=
  let f := input.val
  if ¬ s.bit CFAN.FLOW_FIT.cl f then .next s
  else
    .next (({ s with flowPulses := aput s.flowPulses f (s.clock :: (aget s.flowPulses f).getD []) }.flowRate f).coolWatch.flowProven)

/-- FLOW_TIME has passed with an armed input below FLOW_MIN: FAULT, event 0x3603, both pumps boosted (R517). -/
def execFlowFault (input : Fin 2) (s : State) : Out :=
  let f := input.val
  if ¬ s.flowLow f ∨ ¬ s.heldFor (COOLI.LOW_SINCE.clAt (14 + f)) (s.coolTime (14 + f)) ∨ s.is (CPUMP.FL_FAULT.clAt f) then .next s
  else .next (((s.set (CPUMP.FL_FAULT.clAt f) 1).event CPUMP.page 0x3603).pageEvent clachasel CFAN.page 8).coolNow

/-- A cooling FAULT of channel 0 to 11 FANk, 12 and 13 PUMPp, 14 and 15 FLOWf, as CMD10 numbers them. -/
def State.clearCoolFault (s : State) (ch : Nat) : State :=
  if ch < 12 then s.clearFault (faultOf ch) CFAN.page (s.tachLow ch)
  else if ch < 14 then s.clearFault (faultOf ch) CPUMP.page (s.tachLow ch)
  else s.clearFault (CPUMP.FL_FAULT.clAt (ch - 14)) CPUMP.page (s.flowLow (ch - 14))

/-- The page, the field and its number, of the cooling FAULT of a channel. -/
def coolFaultAt (ch : Nat) : Page × Reg × Nat :=
  if ch < 12 then (CFAN.page, CFAN.FAULT, ch) else if ch < 14 then (CPUMP.page, CPUMP.FAULT, ch - 12) else (CPUMP.page, CPUMP.FL_FAULT, ch - 14)

/-- A W1C clear of a cooling FAULT (R518, R535). -/
def execFaultClear (req : Requester) (channel : Fin 16) (s : State) : Out :=
  let f := coolFaultAt channel.val
  .next (s.onWrite clachasel f.1 f.2.1 f.2.2 req.val (2 ^ f.2.1.lo) (fun s => s.clearCoolFault channel.val))

/-! Leaks (R522 to R527). -/

/-- The release threshold of the leak comparator in 10 nA (R522). -/
def State.leakRelease (s : State) : Nat :=
  let trip := s.get HLS.LEAK_TRIP.cl
  let rel := s.get HLS.LEAK_REL.cl
  10 * (if trip ≤ rel then trip - 10 else rel)

/-- A line current crosses thresholds: the filters of the comparators start, or end as glitches (R522, R523). `current` is
in 10 nA. -/
def execLeakCrossing (channel : Fin 4) (current : Nat) (s : State) : Out :=
  let n := channel.val
  if ¬ s.bit CFAN.LK_FIT.cl n then .next s
  else
    let s := s.set (LEAKI.CUR.clAt n) current
    let leak := if s.is (CLEAK.ALARM.clAt n) then decide (current < s.leakRelease)
      else decide (10 * s.get HLS.LEAK_TRIP.cl ≤ current)
    let op := if s.is (CLEAK.OPEN.clAt n) then decide (200 < current) else decide (current < 100)
    let s := if s.get (LEAKI.PEND_LEAK.clAt n) ≠ 0 ∧ ¬ leak then s.count (CLEAK.GLITCHES.clAt n) else s
    let s := if s.get (LEAKI.PEND_OPEN.clAt n) ≠ 0 ∧ ¬ op then s.count (CLEAK.GLITCHES.clAt n) else s
    .next ((s.markWhile (LEAKI.PEND_LEAK.clAt n) leak).markWhile (LEAKI.PEND_OPEN.clAt n) op)

/-- A leak trip (R525): every die trips, the rails go down, the main switch opens, the recorder flushes with the 0x4xxx
record, row 2 of R514 applies, and the tray is out of service (R645). [DEDUCED, log entry 66] -/
def State.leakTrip (s : State) (n : Nat) : State :=
  let s := ((s.set (CLEAK.TRIPPED.clAt n) 1).set HLS.LEAK_TRIPPED.cl 1).tripAll 5
  (((s.event HLS.page 0x4002 n).coolNow).allRailsDown 4).outOfService 3

/-- A channel is RELEASED once both comparators have left their alarm sides since the reset (R523). -/
def State.leakReleased (s : State) (n : Nat) : State :=
  if s.is (LEAKI.LEFT_LEAK.clAt n) ∧ s.is (LEAKI.LEFT_OPEN.clAt n) then s.set (CLEAK.RELEASED.clAt n) 1 else s

/-- A crossing of the leak comparator (`leak`) or the open comparator has lasted 20 ms: the comparator changes side
(R523, R525, R526). -/
def execLeakFilterDone (channel : Fin 4) (leak : Bool) (s : State) : Out :=
  let n := channel.val
  let pend := if leak then LEAKI.PEND_LEAK.clAt n else LEAKI.PEND_OPEN.clAt n
  let side := if leak then CLEAK.ALARM.clAt n else CLEAK.OPEN.clAt n
  if ¬ s.heldFor pend 20000 then .next s
  else
    let s := (s.set pend 0).pageEvent clachasel CLEAK.page 8
    if s.is side then
      .next (((s.set side 0).set (if leak then LEAKI.LEFT_LEAK.clAt n else LEAKI.LEFT_OPEN.clAt n) 1).leakReleased n).flowProven
    else
      let s := (s.set side 1).flowProven
      if ¬ s.is (CLEAK.RELEASED.clAt n) then .next s
      else if leak then .next (s.leakTrip n)
      else .next (s.event HLS.page 0x4003)

/-- LEAK_SETTLE in microseconds; 0 means 2 s (CLEAK page). -/
def State.leakSettle (s : State) : Nat :=
  let v := s.get CLEAK.LEAK_SETTLE.cl
  100000 * (if v = 0 then 20 else v)

/-- The leak-settle wait ends: unreleased channels are UNPROVEN with their trip latched, and the cores are not released
(R129, R524). -/
def execLeakSettleEnd (s : State) : Out :=
  let bad := (List.range 4).filter (fun n => s.bit CFAN.LK_FIT.cl n && !s.is (CLEAK.RELEASED.clAt n))
  if bad = [] ∨ s.get COOLI.RELEASED.cl = 1 ∨ ¬ s.heldFor LEAKI.SETTLE_SINCE.cl s.leakSettle then .next s
  else
    let s := s.each bad (fun s n =>
      ((s.set (CLEAK.UNPROVEN.clAt n) 1).set (CLEAK.TRIPPED.clAt n) 1).setBit CSYS.LEAK_CH.cl n true)
    let s := s.set COOLI.UNPROVEN.cl 1
    .next ((((s.set HLS.LEAK_TRIPPED.cl 1).set CSYS.STBY_CAUSE.cl 2).event HLS.page 0x4001).coolNow)

/-- MC2 measures a fitted channel: `value` in 10 nA, and whether the result had OVR set (R527). [DEDUCED, log entry 66] -/
def execLeakMeasure (channel : Fin 4) (value : Nat) (ovr : Bool) (s : State) : Out :=
  let n := channel.val
  if ¬ s.bit CFAN.LK_FIT.cl n then .next s
  else
    let s := s.set (LEAKI.MEAS.clAt n) (min value 65535)
    if s.get CLEAK.LEAK_WARN.cl ≤ value ∨ ovr then
      .next (((s.set (CLEAK.WARN.clAt n) 1).set (LEAKI.BELOW.clAt n) 0).event CLEAK.page 0x3610)
    else if 9 ≤ s.get (LEAKI.BELOW.clAt n) then .next ((s.set (LEAKI.BELOW.clAt n) 10).set (CLEAK.WARN.clAt n) 0)
    else .next (s.count (LEAKI.BELOW.clAt n))

end Sys2Proof.Machine
end

