-- ==== Sys2Proof/Machine/Power.lean ====
section
/-! DEFINITION. Supplies, rails, power failure, PLLs, sidebands, tray states, tray reset (spec/03_rails.md, spec/04_start_of_day.md,
spec/22_electrical.md). -/

namespace Sys2Proof.Machine

namespace POWI
/-- The Clachasel supplies that are up: [0] VDDIO_H, [1] VDDIO_L, [2] VDDA, [3] VDDC (R80). -/
def SUPPLIES : Reg := ireg 0x3001 4 0
/-- The calendar domain has been reset since the last power-on: event 0x3904 is due (R613). -/
def CAL_LOST : Reg := ireg 0x3002 1 0
/-- SLOT_ID has been latched since the release of power-on reset (R602, R704). -/
def SLOT_LATCHED : Reg := ireg 0x2F3 1 0
/-- Consecutive bad sideband frames of die n (R141). -/
def SB_FAILS : Reg := iarr 0x1100 3 0 8
/-- Cage c's MOD_3V3 switch is off (R683). -/
def CAGE_OFF : Reg := iarr 0x3010 1 0 16
/-- Context number in force on the management plane (R164). -/
def CTX_NUM : Reg := ireg 0x1110 16 0
/-- Bit n: the last context record of die n said SERVING (R132, R644). -/
def DIE_SERVING : Reg := ireg 0x1111 8 0
/-- The number of the last context since power-on (R165). -/
def LAST_CTX : Reg := ireg 0x2F0 16 0
/-- The time of the last valid supervisor frame, or of the release of power-on reset, on State.clock, plus 1 (R611). -/
def SILENCE_SINCE : Reg := ireg 0x2F1 64 0
end POWI

/-! Rails (R83 to R90). -/

/-- VCORE nominal in mV of an operating point (R90). -/
def vcoreNominal (k : Nat) : Nat := [650, 660, 675, 690, 710, 730, 755, 780].getD k 650

/-- The tile clock of an operating point in MHz (R90); 1.125 GHz and so on. -/
def tileMhz (k : Nat) : Nat := [500, 600, 700, 800, 900, 1000, 1125, 1250].getD k 500

/-- The VCORE setpoint in mV: nominal plus VTRIM, clamped (R90). -/
def vcoreSetpoint (trim : Nat) (k : Nat) : Nat :=
  (clampI 650 900 ((vcoreNominal k : Int) + 5 * toSigned 8 trim)).toNat

/-- Enable rail `k` of die `n`. -/
def State.enableRail (s : State) (n k : Nat) : State :=
  (s.setBit (RAILI.ON.clAt n) k true).set (RAILI.STEP.clAt n) k

/-- MC0's tables for a die: eight setpoints of each rail (R83 order 3, R90). -/
def State.loadSetpoints (s : State) (n : Nat) : State :=
  s.each (List.range 8) (fun s k =>
    let v := vcoreSetpoint (s.get (DFUSE.VTRIM.on n)) k
    (s.set (OPCTL.VCORE_MV.clAt (8 * n + k)) v).set (OPCTL.VSRAM_MV.clAt (8 * n + k)) (max 750 v))

/-- A rail fault is noted while the record is free, with event 0x3205 or 0x4201's cause bits (R85, R87).
[DEDUCED, log entry 21] -/
def State.noteRailFault (s : State) (n order : Nat) (timeout lost : Bool) : State :=
  if s.is SEQ.RAIL_FAULT_VALID.cl then s
  else
    ((((s.set SEQ.RAIL_FAULT_RAIL.cl order).set SEQ.RAIL_FAULT_DIE.cl n).set SEQ.RAIL_FAULT_VALID.cl 1).put
      SEQ.RAIL_FAULT_TIMEOUT.cl timeout).put SEQ.RAIL_FAULT_LOST.cl lost

/-- 12V_SB becomes good: the standby sequencer brings up VDDIO_H, then VDDIO_L and VDDA, then VDDC (R80, R81, R134).
[DESIGN CHOICE, log entry 9] -/
def execStandbySupplyGood (s : State) : Out :=
  .next (((s.set RAILI.SB_GOOD.cl 1).set POWI.SUPPLIES.cl 0xF))

/-- Unfitted leak channels stand on their release sides, and the leak-settle wait of the fitted ones begins (R505, R524). -/
def State.leakInit (s : State) : State :=
  (s.set LEAKI.SETTLE_SINCE.cl (s.clock + 1)).each (List.range 4) (fun s n =>
    if s.bit CFAN.LK_FIT.cl n then s
    else ((s.set (CLEAK.ALARM.clAt n) 0).set (CLEAK.OPEN.clAt n) 0).set (CLEAK.RELEASED.clAt n) 1)

/-- Empty the recorder's power-on state: ring, buckets, class map (R573, R596). -/
def State.recorderOff (s : State) : State :=
  { s with ring := [], tokens := [], suppressed := [], classMap := [], heldRecs := [], eraseQ := [] }

/-- The receive queue's registers show its head (R608, R616). -/
def State.showRx (s : State) : State :=
  let s := s.set SUPV.RXQ_FILL.cl s.rxq.length
  match s.rxq with
  | [] => s
  | x :: _ =>
    let f := x.frame
    let s := ((s.set SUPV.RX_DST.cl f.dst.toNat).set SUPV.RX_SRC.cl f.src.toNat).set SUPV.RX_TYPE.cl f.type.toNat
    let s := (s.set SUPV.RX_SEQ.cl f.seq.toNat).set SUPV.RX_LEN.cl f.payload.length
    let s := s.setPair SUPV.RX_END_TIME_LO.cl SUPV.RX_END_TIME_HI.cl x.endTime
    s.each (List.range 60) (fun s i =>
      s.set (SUPV.RX_DATA.clAt i) ((List.range 4).foldl (fun v j => v + ((f.payload.getD (4 * i + j) 0).toNat) * 256 ^ j) 0))

/-- A reset of MC3 empties the receive queue and discards the stored reply (R628). -/
def State.emptyRx (s : State) : State := { s with rxq := [], lastFrame := none, storedReply := none }.showRx

/-- Empty what the tray-reset domain holds beside registers (R136, R143, R171, R471). [DEDUCED, log entry 23] -/
def State.trayClear (s : State) : State :=
  { s with staged := none, posted := [], afe := {}, rings := [], tach := [], flowPulses := [], fires := [], mcSram := [] }.emptyRx

/-- Every Clachasel domain but the calendar's returns to its Reset values, the windows of ARM with them; the dies are unpowered (R123,
R124). -/
def State.powerOnClear (s : State) : State :=
  let s := ((((s.resetDomain .por clachasel).resetDomain .tray clachasel).recorderOff).trayClear)
  { s with armed := [] }.each (List.range 8) State.dieReset

/-- 12V_SB is lost: the supplies go down in reverse order and the tray is OFF; what power held is gone (R82, R132, R687). -/
def execStandbySupplyLost (s : State) : Out :=
  let s := s.powerOnClear
  .next (((s.set RAILI.SB_GOOD.cl 0).set POWI.SUPPLIES.cl 0).set CSYS.TRAY_STATE.cl 0)

/-- Power-on reset is released, VDDC having been good for 1 ms: every Clachasel domain but the calendar's is at its Reset
values, the standby ROM and the recorder start, the standby regime is in force (R123, R128, R132, R134, R523, R613).
[DESIGN CHOICE, log entry 9] -/
def execPowerOnResetRelease (s : State) : Out :=
  if s.get POWI.SUPPLIES.cl ≠ 0xF then .next s
  else
    let s := s.powerOnClear
    let s := ((s.set RECI.RUNS.cl 1).set CCLK.CORE_LOCK.cl 1).set CCLK.SUPV_LOCK.cl 1
    let s := s.set POWI.SILENCE_SINCE.cl (s.clock + 1)
    let s := (((s.set CCLK.CAL_RUN.cl 1).leakInit).coolNow).flowProven
    let s := s.event CSYS.page 0x3004 (256 * 1)
    .next (if s.is POWI.CAL_LOST.cl then (s.set POWI.CAL_LOST.cl 0).event CAL.page 0x3904 else s)

/-- SLOT_ID[6:0] is latched, once, 10 µs after the release of power-on reset: the pins as the environment gives them. A later change of
the pins has no effect until the next power-on reset (R602, R682, R704). -/
def execSlotIdLatch (pins : BitVec 7) (s : State) : Out :=
  let v := pins.toNat
  .next (if s.get RECI.RUNS.cl = 0 ∨ s.is POWI.SLOT_LATCHED.cl then s
    else ((s.set POWI.SLOT_LATCHED.cl 1).set SUPV.SLOT_ID.cl v).put SUPV.ADDR_VALID.cl (v != 0 && v != 0x7F))

/-- A PCIe reset of one endpoint: its controller and configuration space, which no page shows; a die counts it, but for one held
in die reset (R123, R126). -/
def execPcieReset (endpoint : Fin 9) (s : State) : Out :=
  .next (if endpoint.val < 8 ∧ ¬ s.inReset endpoint.val then s.count (DRST.PCIE_RESETS.on endpoint.val) else s)

/-- The lock bit of a die's PLL: 0 tile, 1 to 6 link PLL 0 to 5, 7 HBM, 8 warden, 9 PCIe, 10 the idle PLL; its field and bit. -/
def pllLock (d pll : Nat) : Field × Nat :=
  match pll with
  | 0 => (DCLK.TILE_LOCK.on d, 0)
  | 7 => (DCLK.HBM_LOCK.on d, 0)
  | 8 => (DCLK.WARDEN_LOCK.on d, 0)
  | 9 => (DCLK.PCIE_LOCK.on d, 0)
  | 10 => (HMBX.PLL_READY.on d, 0)
  | k => (DCLK.LG_LOCK.on d, k - 1)

/-- Whether a change of operating point is pending on a die. -/
def State.changePending (s : State) (d : Nat) : Bool :=
  s.is (HMBX.HOLD_ACTIVE.on d) ||
    (List.range 8).any (fun k => s.get (HMBX.R_STATUS.at d k) = 1 && s.get (HMBX.S_KIND.at d k) % 4 != 2)

/-- A die PLL that has locked, in a die that is not held in reset, loses lock: the lock bit, LOL_COUNT and the die fault, but for the
idle PLL while no change is pending (R122, R123, R639). [DEDUCED, log entry 22] -/
def execDiePllLoss (die : DieNo) (pll : Fin 11) (s : State) : Out :=
  let d := die.val
  let f := pllLock d pll.val
  if s.inReset d ∨ ¬ s.bit f.1 f.2 then .next s
  else
    let t := s.setBit f.1 f.2 false
    if pll.val = 10 ∧ ¬ s.changePending d then .next t else .next ((t.count (DCLK.LOL_COUNT.on d)).dieFault d 0)

/-- A sideband frame arrives and its CRC is checked: a good one carries the mailbox results the die has to report; the fourth failure
in a row marks the sideband DOWN (R25, R141), and the count of failures begins again. [DESIGN CHOICE, log entry 22] -/
def execSidebandFrame (die : DieNo) (crcGood : Bool) (s : State) : Out :=
  let n := die.val
  if ¬ s.bit CSB.ENABLE.cl n then .next s
  else if crcGood then .next (((s.set (POWI.SB_FAILS.clAt n) 0).set (CSB.UP.clAt n) 1).takeResults n)
  else
    let s := s.count (CSB.CRC_ERR.clAt n)
    if s.get (POWI.SB_FAILS.clAt n) < 3 then .next (s.count (POWI.SB_FAILS.clAt n))
    else .next ((((s.set (POWI.SB_FAILS.clAt n) 0).set (CSB.DOWN.clAt n) 1).set (CSB.UP.clAt n) 0).event CSB.page 0x3010)

/-- Whether the sequencer may close the main switch and enable rails: not in the standby regime, which holds until MC0 to MC3 are
released, and not while a tray reset takes power down (R128, R136). [DEDUCED, log entry 21] -/
def State.mayPower (s : State) : Bool := s.is COOLI.RELEASED.cl && !s.is RAILI.TRAY_RESETTING.cl

/-- MAIN_ON closes the main switch and enables the converters (R134); with the bus not off it changes nothing. -/
def State.mainOn (s : State) : State := if s.mayPower ∧ s.get SEQ.MAIN.cl = 0 then s.set SEQ.MAIN.cl 1 else s

/-- MAIN_ON (R134). -/
def execMainOn (req : Requester) (s : State) : Out :=
  .next (s.onWrite clachasel SEQ.page SEQ.MAIN_ON 0 req.val 1 State.mainOn)

/-- MAIN_OFF opens the main switch; it is discarded unless every die reads OFF (SEQ page). [DEDUCED, log entry 21] -/
def execMainOff (req : Requester) (s : State) : Out :=
  .next (s.onWrite clachasel SEQ.page SEQ.MAIN_OFF 0 req.val 2 (fun s =>
    if (List.range 8).all (fun n => s.dieState n = 0) then (s.set SEQ.MAIN.cl 0).set SEQ.IBC_OK.cl 0 else s))

/-- The rails of the dies in DIE_MASK that are off start, in ascending order (R83, R86).
[DEDUCED, log entry 21; DESIGN CHOICE, log entry 67] -/
def State.railsUp (s : State) : State :=
  if ¬ s.mayPower then s
  else s.each (diesOf (s.get SEQ.DIE_MASK.cl)) (fun s n =>
    if s.dieState n = 0 ∨ s.dieState n = 4 then ((s.setDieState n 1).enableRail n 1) else s)

/-- UP brings up the dies in DIE_MASK. -/
def execUp (req : Requester) (s : State) : Out :=
  .next (s.onWrite clachasel SEQ.page SEQ.UP 0 req.val 4 State.railsUp)

/-- DOWN takes down the rails of the dies in DIE_MASK; for a die not in die reset it is discarded with ACCESS_ERR (R88). -/
def execDown (req : Requester) (s : State) : Out :=
  .next (s.onWrite clachasel SEQ.page SEQ.DOWN 0 req.val 8 (fun s =>
    let mask := s.get SEQ.DIE_MASK.cl
    let s := if (diesOf mask).any (fun n => !s.tripped n) then
        s.regFault clachasel SEQ.page SEQ.DOWN 0 .accessErr req.val 8 else s
    s.each (diesOf mask) (fun s n => if s.tripped n then s.railsDown n 0 else s)))

/-- SETPT_OK confirms the tables: VSRAM follows on every die of DIE_MASK that waits at order 3 (R83, R90). -/
def execSetptOk (req : Requester) (s : State) : Out :=
  .next (s.onWrite clachasel SEQ.page SEQ.SETPT_OK 0 req.val 16 (fun s =>
    s.each (diesOf (s.get SEQ.DIE_MASK.cl)) (fun s n =>
      if s.dieState n = 1 ∧ s.get (RAILI.STEP.clAt n) = 3 then (s.loadSetpoints n).enableRail n 4 else s)))

/-- DIE_FAULT_n is latched by the supervisor and by MC2, event 0x4102, FENCE_n within 2 µs; a line that is down, or latched already,
is left (R26, R42, R640). -/
def State.latchDieFault (s : State) (n : Nat) : State :=
  if s.inReset n ∨ s.get (DFAULT.CAUSE.on n) = 0 ∨ s.is (LINEI.FAULT_LATCH.clAt n) then s
  else
    let s := s.set (LINEI.FAULT_LATCH.clAt n) 1
    ((s.set (LINEI.FAULT_MC2.clAt n) 1).event HLS.page 0x4102).fence n 2

/-- THERM_ALERT_n rises: latched by the supervisor and by MC1, recorded, fans and pumps to 100 % (R26, R489, R503, R641). Where
DIE_FAULT_n has risen and is not yet latched, its record goes first (R42). -/
def State.thermRises (s : State) (n : Nat) : State :=
  if s.is (LINEI.THERM.clAt n) ∨ s.get RECI.RUNS.cl = 0 then s
  else
    let s := s.latchDieFault n
    let s := (s.set (LINEI.THERM.clAt n) 1).set (LINEI.THERM_SINCE.clAt n) (s.clock + 1)
    let s := (s.setBit TALERT.ALERT_NOW.cl n true).setBit TALERT.ALERT_SEEN.cl n true
    let s := (s.count (TALERT.ALERTS.clAt n)).setBit HLS.TA_ACTIVE.cl n true
    (s.event HLS.page 0x4101).coolNow

/-- THERM_ALERT_n is deasserted: both counts clear; a fence or a trip stays (R489, R641). -/
def State.thermFalls (s : State) (n : Nat) : State :=
  if ¬ s.is (LINEI.THERM.clAt n) then s
  else
    let s := (s.set (LINEI.THERM.clAt n) 0).set (LINEI.THERM_SINCE.clAt n) 0
    ((s.setBit TALERT.ALERT_NOW.cl n false).setBit HLS.TA_ACTIVE.cl n false).coolNow

/-- A rail reports power-good: the next of R83 follows; after the last the die is UP (R83, R127). With VIO the die's junction comparator
starts, on its alarm side (R489). [DEDUCED, log entry 32] -/
def execRailPowerGood (die : DieNo) (s : State) : Out :=
  let n := die.val
  let k := s.get (RAILI.STEP.clAt n)
  if s.dieState n ≠ 1 ∨ k = 0 ∨ k = 3 then .next s
  else
    let s := s.setBit (RAILI.PG.clAt n) k true
    let s := if k = 1 then s.thermRises n else s
    if k = 8 then .next (((s.set (RAILI.STEP.clAt n) 0).set (RAILI.FRESH.clAt n) 1).setDieState n 2)
    else if k = 2 then .next (s.set (RAILI.STEP.clAt n) 3)
    else .next (s.enableRail n (k + 1))

/-- A rail has not reported power-good within PG_TIMEOUT: the die's rails go down and it ends TRIPPED (R85). -/
def execPgTimeout (die : DieNo) (s : State) : Out :=
  let n := die.val
  let k := s.get (RAILI.STEP.clAt n)
  if s.dieState n ≠ 1 ∨ k = 0 ∨ k = 3 then .next s
  else .next (((s.noteRailFault n k true false).event SEQ.page 0x3205).railsDown n 4)

/-- SETPT_OK has not come within 20 ms of order 3 (R85); TIMEOUT reads 1 for it too. [DESIGN CHOICE, log entry 21] -/
def execSetptTimeout (die : DieNo) (s : State) : Out :=
  let n := die.val
  if s.dieState n ≠ 1 ∨ s.get (RAILI.STEP.clAt n) ≠ 3 then .next s
  else .next (((s.noteRailFault n 3 true false).event SEQ.page 0x3205).railsDown n 4)

/-- A rail that is up loses power-good: TRIP_n, rails down, event 0x4201 with die and rail (R87, R110, R641). `rail` is the
order number of R83. -/
def execRailPgLoss (die : DieNo) (rail : Fin 9) (s : State) : Out :=
  let n := die.val
  if ¬ s.bit (RAILI.PG.clAt n) rail.val then .next s
  else
    let s := (s.noteRailFault n rail.val false true).trip n 4
    .next ((s.railsDown n 4).event HLS.page 0x4201 (n + 256 * rail.val))

/-- A converter faults or loses power-good while the bus is up (R89). -/
def execIbcLost (converter : Fin 4) (s : State) : Out :=
  let k := converter.val
  if s.get SEQ.MAIN.cl ≠ 2 then .next s
  else .next (((s.setBit SEQ.IBC_OK.cl k false).setBit SEQ.IBC_LOST.cl k true).event SEQ.page 0x3206)

/-- The main bus ramp completes: MAIN reads up and every converter's IBC_OK is set (R134). -/
def execMainBusUp (s : State) : Out :=
  if s.get SEQ.MAIN.cl ≠ 1 then .next s else .next ((s.set SEQ.MAIN.cl 2).set SEQ.IBC_OK.cl 0xF)

/-- The tray returns to MGMT_READY: no context is open, so no context number is in force (R132, R164). -/
def State.toMgmt (s : State) : State := (s.set POWI.CTX_NUM.cl 0).toTrayState 2

/-! Power failure and input current (R113 to R115, R582, R593, R641). -/

/-- The power-fail flush: any erase is suspended, reserved slots are passed over (R582, R593). -/
def State.powerFailFlush (s : State) : State :=
  if s.get RECI.RUNS.cl = 0 then s
  else if s.get EVREC.SCANNING.cl = 1 then { s with heldRecs := [] }
  else
    let s := ((s.set EVREC.PF_FLUSH.cl 1).set RECI.PF_LIMIT.cl 0).set EVREC.ERASE_WAIT.cl 0
    if s.get EVREC.FLUSHING.cl = 1 then (s.set EVREC.TO_END.cl 1).flushPage else s.startFlush true

/-- The 48 V input has stayed below 38.0 V for 10 µs: every die trips, event 0x4202, rails down, main switch open after the
last rail, flush; the tray is out of service (R113, R137, R641, R645, R700). -/
def execPowerFailAssert (s : State) : Out :=
  if s.is PFAIL.PF_NOW.cl then .next s
  else
    let s := (((s.set PFAIL.PF_NOW.cl 1).set PFAIL.PF_SEEN.cl 1).count PFAIL.PF_COUNT.cl).set HLS.PF_TRIPPED.cl 1
    let s := ((s.tripAll 5).event HLS.page 0x4202).powerFailFlush
    .next ((s.allRailsDown 4).outOfService 4)

/-- The input has been above 40.0 V for 100 ms: with 12V_SB good throughout, a tray in RAILS_UP or later returns to
MGMT_READY (R113, R115, R132, R137). -/
def execPowerFailRelease (s : State) : Out :=
  if ¬ s.is PFAIL.PF_NOW.cl then .next s
  else
    let s := ((s.set PFAIL.PF_NOW.cl 0).set EVREC.PF_FLUSH.cl 0).set RECI.PF_LIMIT.cl 0
    let s := if 3 ≤ s.get CSYS.TRAY_STATE.cl then s.toMgmt else s
    .next (if s.get EVREC.FLUSHING.cl = 1 then s.flushPage else s)

/-- Input current above IIN_TRIP for 50 µs (R641): every die trips, rails down, main switch open, event 0x4203, flush with
it; out of service (R645). `amps` is the measured current. -/
def execInputOvercurrent (amps : BitVec 8) (s : State) : Out :=
  let s := s.set HLS.IIN.cl amps.toNat
  if amps.toNat ≤ s.get HLS.IIN_TRIP.cl then .next s
  else
    let s := ((s.set HLS.IIN_TRIPPED.cl 1).tripAll 5).event HLS.page 0x4203
    .next ((s.allRailsDown 4).outOfService 5)

/-- A cage's MOD_3V3 load has exceeded its limit for 1 ms: its switch opens (R683). -/
def execCageOvercurrent (cage : Fin 16) (s : State) : Out := .next (s.set (POWI.CAGE_OFF.clAt cage.val) 1)

/-- A switched-off cage supply is tried again (R683). -/
def execCageRetry (cage : Fin 16) (s : State) : Out := .next (s.set (POWI.CAGE_OFF.clAt cage.val) 0)

/-! Tray states (R131 to R133). -/

/-- The condition of a transition of R132 that TRANS_REQ may make. -/
def State.transAllowed (s : State) (new : Nat) : Bool :=
  let inserv := s.get CSYS.DIE_INSERV.cl
  match s.get CSYS.TRAY_STATE.cl, new with
  | 1, 2 => s.get CSYS.CORE_READY.cl == 0xF
  | 2, 3 => s.get SEQ.MAIN.cl == 2 &&
      (diesOf (s.get SEQ.DIE_MASK.cl)).all (fun n => s.dieState n == 2 || s.dieState n == 4) &&
      decide (7 ≤ ((List.range 8).filter (fun n => s.dieState n == 2)).length)
  | 3, 4 => Nat.land inserv (s.get CSYS.DIE_READY.cl) == inserv && decide (7 ≤ popcount 8 inserv)
  | 4, 5 => s.get POWI.CTX_NUM.cl != 0
  | 5, 6 => Nat.land inserv (s.get POWI.DIE_SERVING.cl) == inserv
  | 6, 5 => Nat.land inserv (s.get POWI.DIE_SERVING.cl) != inserv
  | 5, 4 => s.get POWI.CTX_NUM.cl == 0
  | 3, 2 => s.get SEQ.MAIN.cl == 0
  | 4, 2 => s.get SEQ.MAIN.cl == 0
  | _, _ => false

/-- A write of TRANS_REQ: only MC3's, only the transitions of R132 whose condition holds; anything else is discarded with
ACCESS_ERR (R52, R132). -/
def execTransReq (req : Requester) (new : BitVec 3) (s : State) : Out :=
  .next (s.onWrite clachasel CSYS.page CSYS.TRANS_REQ 0 req.val new.toNat (fun s =>
    if s.transAllowed new.toNat then if new = 2 then s.toMgmt else s.toTrayState new.toNat
    else s.regFault clachasel CSYS.page CSYS.TRANS_REQ 0 .accessErr req.val new.toNat))

/-! Tray reset (R136 to R138). -/

/-- ARM: the requester's 1 ms window opens (R138). -/
def State.armReset (s : State) (req : Nat) : State := { s with armed := aput s.armed req s.clock }

/-- Whether a requester's window is open. -/
def State.armOpen (s : State) (req : Nat) : Bool :=
  match aget s.armed req with
  | some t => decide (s.clock ≤ t + 1000)
  | none => false

/-- The end of a tray reset, the rails being down and the main switch open (R136 steps 4 and 5): the recorder flushes as on a fault and
voids the reservations (R580, R596), the tray-reset domain resets, the staged bundle and the posted commands are discarded (R171), the
standby ROM restarts and the tray is in STANDBY. [DEDUCED, log entry 23] -/
def State.trayResetEnd (s : State) : State :=
  let s := (s.each (List.range 4) (fun s k => s.voidReservation k 3)).startFlush true
  let s := (s.resetDomain .tray clachasel).trayClear
  let s := (((s.set CSYS.STBY_CAUSE.cl 0).set CSYS.LEAK_CH.cl 0).set CSYS.BUNDLE_OK.cl 0).set CSYS.CORE_READY.cl 0
  let s := ((s.set CSYS.DIE_READY.cl 0).set CSYS.DIE_INSERV.cl 0).set HLS.LEAK_TRIPPED.cl 0
  let s := (s.set HLS.PF_TRIPPED.cl 0).set HLS.IIN_TRIPPED.cl 0
  let s := s.put CFAN.SUPV_OVERRIDE.cl (s.is SUPV.SILENT.cl)
  let hot := (List.range 8).foldl (fun m n => withBit m n (s.is (LINEI.THERM.clAt n))) 0
  let s := (s.set TALERT.ALERT_NOW.cl hot).set TALERT.ALERT_SEEN.cl hot
  ((((s.set RAILI.TRAY_RESETTING.cl 0).toTrayState 1).leakInit).coolNow).flowProven

/-- The tray reset that runs ends once no rail is on and the main switch is open (R136). -/
def State.tryResetEnd (s : State) : State :=
  if s.is RAILI.TRAY_RESETTING.cl ∧ ¬ s.is RAILI.OPEN_MAIN.cl then s.trayResetEnd else s

/-- A tray reset is fired (R136): every die trips, event 0x3001 with the sources, MC0 to MC3 are held in reset, the rails go down and
the main switch opens; what follows waits for that. One fired while another runs, or in the same cycle, joins it and its source shows
(R136, R137). [DEDUCED, log entry 23] -/
def State.trayReset (s : State) (supv : Bool) : State :=
  let joins := s.is RAILI.TRAY_RESETTING.cl || s.get RAILI.RESET_AT.cl == s.clock + 1
  if joins then s.set (if supv then CRST.TRAY_SUPV.cl else CRST.TRAY_HOST.cl) 1
  else
    let s := ((s.put CRST.TRAY_HOST.cl (!supv)).put CRST.TRAY_SUPV.cl supv).set CRST.POR.cl 0
    let s := ((s.count CRST.TRAY_RESETS.cl).set RAILI.RESET_AT.cl (s.clock + 1)).tripAll 5
    let s := s.event CSYS.page 0x3001 (s.get CRST.TRAY_HOST.cl + 2 * s.get CRST.TRAY_SUPV.cl)
    let s := (s.each (List.range 4) (fun s k => s.set (MCCTL.RUNNING.clAt k) 0)).set EMU.MC3_RUN.cl 0
    ((s.set RAILI.TRAY_RESETTING.cl 1).allRailsDown 0).tryResetEnd

/-- In power-down a rail has fallen below 10 %, or its wait is over: the next lower rail is turned off, and OPSEL_n is 0b000 at the
latest with VCORE gone (R83, R84, R109). With VIO gone the die's open-drain lines read deasserted (R686). -/
def execRailOffStep (die : DieNo) (s : State) : Out :=
  let n := die.val
  if s.dieState n ≠ 3 then .next s
  else
    let top := topRail (s.get (RAILI.ON.clAt n))
    let s := (s.setBit (RAILI.ON.clAt n) top false).setBit (RAILI.PG.clAt n) top false
    let s := if top = 5 then (s.set (OPCTL.OPSEL.clAt n) 0).setBit RAILI.HOLD_TRIP.cl n false else s
    let s := if top = 1 then s.thermFalls n else s
    if s.get (RAILI.ON.clAt n) = 0 then .next (s.railsOff n).tryResetEnd
    else .next (s.turnOff n (topRail (s.get (RAILI.ON.clAt n))))

/-- ARM opens a window for FIRE from the same requester (R138). -/
def execArm (req : Requester) (s : State) : Out :=
  .next (s.onWrite clachasel CSYS.page CSYS.ARM 0 req.val 1 (fun s => s.armReset req.val))

/-- FIRE: accepted within 1 ms of ARM from the same requester (R138); an accepted one runs the tray reset. Requester 0x020
is the supervisor line. -/
def State.fireReset (s : State) (req : Nat) : State :=
  if s.armOpen req then { s with armed := adel s.armed req }.trayReset (req = 0x20)
  else s.regFault clachasel CSYS.page CSYS.FIRE 0 .accessErr req 2

/-- FIRE (R138). [DEDUCED, log entry 23] -/
def execFire (req : Requester) (s : State) : Out :=
  .next (s.onWrite clachasel CSYS.page CSYS.FIRE 0 req.val 2 (fun s => s.fireReset req.val))

end Sys2Proof.Machine
end

