-- ==== Sys2Proof/Machine/Firmware.lean ====
section
/-! DEFINITION. Firmware processors, the bundle, the warden load and the emulated page (spec/05_firmware.md, and R129 to R134
of spec/04_start_of_day.md). -/

namespace Sys2Proof.Machine

namespace FWI
/-- The sequence counter of posted commands (R162). -/
def SEQ : Reg := ireg 0x1120 16 0
/-- Wk of the die has been released since the last die reset (R151). -/
def RELEASED : Reg := iarr 0x120 1 0 2
/-- BRINGUP waits for UP: MC0 has taken the bring-up (R134). -/
def BRINGING : Reg := ireg 0x1121 1 0
/-- MC0 to MC3 are held in reset because CORE_READY was incomplete 500 ms after release (R131). -/
def START_HELD : Reg := ireg 0x1122 1 0
/-- Commands posted before MC3 restarted and not yet served: they are served first, in order of sequence number (R170). -/
def REPLAY : Reg := ireg 0x1123 6 0
/-- The value in force of CMDk, published in VAL_k at the next swap (R160, R163). -/
def VAL : Reg := iarr 0x1130 32 0 20
/-- The length that the running fetch took (R147). -/
def FETCH_LEN : Reg := ireg 0x1150 25 0
/-- The watchdog timeout of MCk in force, in 10 µs units (R153, R154). -/
def WDT_MC : Reg := iarr 0x1124 20 10000 4
/-- The watchdog timeout of Wk in force, in 10 µs units (R153, R154). -/
def WDT_W : Reg := iarr 0x124 20 5000 2
/-- The time on State.clock at which the count of MCk was last loaded (R153). -/
def SINCE_MC : Reg := iarr 0x1128 64 0 4
/-- The same for Wk (R153). -/
def SINCE_W : Reg := iarr 0x126 64 0 2
end FWI

/-! The management cores (R129, R131, R153). -/

/-- The fields of a core's watchdog. -/
structure Watch where
  timeout : Field
  force : Field
  remain : Field
  since : Field
  run : Field
  deriving DecidableEq, Repr

/-- The watchdog of MCk. -/
def watchMc (k : Nat) : Watch :=
  ⟨MCCTL.WDT_TIMEOUT.clAt k, FWI.WDT_MC.clAt k, MCCTL.WDT_REMAIN.clAt k, FWI.SINCE_MC.clAt k, MCCTL.RUNNING.clAt k⟩

/-- The watchdog of Wk. -/
def watchW (d k : Nat) : Watch :=
  ⟨WCORE.WDT_TIMEOUT.at d k, FWI.WDT_W.at d k, WCORE.WDT_REMAIN.at d k, FWI.SINCE_W.at d k, if k = 0 then WLOAD.W0_RUN.on d else WLOAD.W1_RUN.on d⟩

/-- The count that is left of a watchdog, in 10 µs units: it counts down while its core runs (R153). -/
def State.watchLeft (s : State) (w : Watch) : Nat :=
  if s.is w.run then s.get w.remain - (s.clock - s.get w.since) / 10 else s.get w.remain

/-- A watchdog is armed, or its count reloaded, with the timeout in force (R153). -/
def State.armWatch (s : State) (w : Watch) : State := (s.set w.remain (s.get w.force)).set w.since s.clock

/-- MCk runs, its watchdog armed (R153); the commands a restarted MC3 finds posted are served in order (R170). -/
def State.runMc (s : State) (k cause : Nat) : State :=
  let s := ((s.set (MCCTL.RUNNING.clAt k) 1).set (MCCTL.LAST_CAUSE.clAt k) cause).armWatch (watchMc k)
  if k = 3 then (s.set EMU.MC3_RUN.cl 1).set FWI.REPLAY.cl (if cause = 1 then s.posted.length else 0) else s

/-- MCk stops: core reset. -/
def State.stopMc (s : State) (k : Nat) : State :=
  let s := s.set (MCCTL.RUNNING.clAt k) 0
  if k = 3 then s.set EMU.MC3_RUN.cl 0 else s

/-- Whether MCk runs. -/
def State.mcRuns (s : State) (k : Nat) : Bool := s.is (MCCTL.RUNNING.clAt k)

/-! The layout of a bundle (R144, R145). -/

/-- A little-endian field of `n` bytes of a bundle (R8, R144). -/
def bundleLe (b : Bundle) (off n : Nat) : Nat :=
  (List.range n).foldr (fun j v => (b.bytes.getD (off + j) 0).toNat + 256 * v) 0

/-- Where the entry of section i begins in a bundle (R144). -/
def sectionAt (i : Nat) : Nat := 0x20 + 64 * i

/-- NSECT of a bundle (R144). -/
def bundleNsect (b : Bundle) : Nat := bundleLe b 6 2

/-- The section of a type: its number, or none (R144). -/
def bundleFind (b : Bundle) (type : Nat) : Option Nat := (List.range (bundleNsect b)).find? (fun i => bundleLe b (sectionAt i) 2 == type)

/-- OFFSET of section i (R144). -/
def bundleOffset (b : Bundle) (i : Nat) : Nat := bundleLe b (sectionAt i + 4) 4

/-- LENGTH of section i (R144). -/
def bundleLength (b : Bundle) (i : Nat) : Nat := bundleLe b (sectionAt i + 8) 4

/-- BUNDLE_ID (R144). -/
def bundleId (b : Bundle) : Nat := bundleLe b 8 8

/-- KEY_INDEX (R144). -/
def bundleKey (b : Bundle) : Nat := bundleLe b (b.bytes.length - 104) 8

/-- The sections every bundle has one of: MC0 to MC3, W0, W1 (R144, R146). -/
def coreSections : List Nat := [0x01, 0x02, 0x03, 0x04, 0x10, 0x11]

/-- A word of the SRAM of MCk, k = 4 for the SRAM they share (R142). -/
def State.mcWord (s : State) (k i : Nat) : Nat := (aget s.mcSram (65536 * k + i)).getD 0

/-- The image of a management core is loaded at SRAM offset 0 (R145). -/
def State.loadImage (s : State) (b : Bundle) (k : Nat) : State :=
  match bundleFind b (k + 1) with
  | none => s
  | some x =>
    { s with mcSram := (List.range ((bundleLength b x + 3) / 4)).foldl (fun m i =>
        aputD m (65536 * k + i) 0 (bundleLe b (bundleOffset b x + 4 * i) (min 4 (bundleLength b x - 4 * i)))) s.mcSram }

/-- 500 ms have passed since release with a CORE_READY bit still 0: MC0 to MC3 are held in reset (R131). -/
def execCoreStartTimeout (s : State) : Out :=
  if s.get COOLI.RELEASED.cl = 0 ∨ s.get CSYS.TRAY_STATE.cl ≠ 1 ∨ s.get CSYS.CORE_READY.cl = 0xF then .next s
  else .next ((((s.each (List.range 4) State.stopMc).set FWI.START_HELD.cl 1).set CSYS.STBY_CAUSE.cl 3).event CSYS.page 0x3005)

/-- DIE_READY_TO has passed since the release of TRIP_n without DIE_READY, whatever became of the die since: MC0 trips it, it leaves
DIE_INSERV, and with fewer than seven left the tray stays in RAILS_UP with DIES_SHORT (R133, R140). -/
def execDieReadyTimeout (die : DieNo) (s : State) : Out :=
  let n := die.val
  if ¬ s.bit RAILI.READY_WAIT.cl n ∨ s.bit CSYS.DIE_READY.cl n then .next s
  else
    let s := (s.trip n 1).event CSYS.page 0x3006
    .next (if s.get CSYS.TRAY_STATE.cl = 3 ∧ popcount 8 (s.get CSYS.DIE_INSERV.cl) < 7 then s.set CSYS.STBY_CAUSE.cl 4
      else s)

/-! The bundle (R144 to R149, R622). -/

/-- Whether FETCH and CHECK are accepted (R147). -/
def State.loadOpen (s : State) : Bool :=
  s.get CSYS.TRAY_STATE.cl == 1 && s.get COOLI.RELEASED.cl == 0 && !s.is RAILI.TRAY_RESETTING.cl

/-- FETCH starts fetching the bundle into staging memory (R147). It is accepted while a check runs too: staging memory is emptied, and
that check ends as one of an empty staging memory. [DESIGN CHOICE, log entry 25] -/
def execFetch (req : Requester) (s : State) : Out :=
  .next (s.onWrite clachasel BLOAD.page BLOAD.FETCH 0 req.val 1 (fun s =>
    if ¬ s.loadOpen ∨ s.get BLOAD.LEN.cl = 0 ∨ 16777216 < s.get BLOAD.LEN.cl then
      s.regFault clachasel BLOAD.page BLOAD.FETCH 0 .accessErr req.val 1
    else
      let t := (s.set BLOAD.FETCHING.cl 1).set FWI.FETCH_LEN.cl (s.get BLOAD.LEN.cl)
      { (t.set BLOAD.FETCHED.cl 0).set BLOAD.VERDICT.cl 0 with staged := none }))

/-- The fetch ends: staging memory holds the LEN bytes that host memory held, or a PCIe error ended it (R147). -/
def execFetchDone (bundle : Bundle) (pcieError : Bool) (s : State) : Out :=
  if ¬ s.is BLOAD.FETCHING.cl then .next s
  else
    let s := s.set BLOAD.FETCHING.cl 0
    if pcieError then .next ((s.set BLOAD.VERDICT.cl 7).event BLOAD.page 0x3007)
    else .next { s.set BLOAD.FETCHED.cl 1 with staged := some { bundle with bytes := bundle.bytes.take (s.get FWI.FETCH_LEN.cl) } }

/-- CHECK starts the check of R130 and R146; it is discarded outside STANDBY, after release, or while a fetch or a check runs
(R147). [DEDUCED, log entry 25] -/
def execBundleCheck (req : Requester) (s : State) : Out :=
  .next (s.onWrite clachasel BLOAD.page BLOAD.CHECK 0 req.val 2 (fun s =>
    if ¬ s.loadOpen ∨ s.is BLOAD.FETCHING.cl ∨ s.is BLOAD.CHECKING.cl then
      s.regFault clachasel BLOAD.page BLOAD.CHECK 0 .accessErr req.val 2
    else (s.set BLOAD.CHECKING.cl 1).count BLOAD.CHECKS.cl))

/-- The section of a core type has a valid image header: MAGIC, LENGTH within its body, BUNDLE_ID, ENTRY and RESTART below LENGTH (R145,
R146). [DEDUCED, log entry 25] -/
def bundleImageOk (b : Bundle) (type : Nat) : Bool :=
  match bundleFind b type with
  | none => false
  | some i =>
    let o := bundleOffset b i
    let len := bundleLe b (o + 12) 4
    bundleLe b o 4 == 0x474D4941 && decide (64 ≤ len) && decide (len ≤ bundleLength b i) && decide (bundleLe b (o + 4) 4 < len) &&
      decide (bundleLe b (o + 8) 4 < len) && bundleLe b (o + 16) 8 == bundleId b

/-- Whether the section table stands: NSECT from 6 to 16, each section inside the bundle, one of each core type, of 256 KiB at most
(R144, R146). [DEDUCED, log entry 25] -/
def bundleSectionsOk (b : Bundle) : Bool :=
  decide (6 ≤ bundleNsect b) && decide (bundleNsect b ≤ 16) &&
    (List.range (bundleNsect b)).all (fun i => decide (bundleOffset b i + bundleLength b i ≤ b.bytes.length) &&
      (!coreSections.contains (bundleLe b (sectionAt i) 2) || decide (bundleLength b i ≤ 262144))) &&
    coreSections.all (fun t => ((List.range (bundleNsect b)).filter (fun i => bundleLe b (sectionAt i) 2 == t)).length == 1)

/-- The verdict of the bundle check, in the order of R146: 2 SIG_BAD, 3 FORMAT, 4 SECTIONS, 5 DIGEST, 6 IMAGE, 1 OK (R622). An NSECT
outside 6 to 16 is reported as SECTIONS. [DEDUCED, log entry 25] -/
def State.verdict (s : State) (b : Bundle) : Nat :=
  if 4 ≤ bundleKey b ∨ s.is (TRAYID.REVOKE.clAt (bundleKey b)) ∨ b.sigOk = false then 2
  else if bundleLe b 0 4 ≠ 0x42564441 ∨ bundleLe b 4 2 ≠ 1 ∨ bundleLe b 16 4 ≠ b.bytes.length then 3
  else if ¬ bundleSectionsOk b then 4
  else if ¬ (List.range (bundleNsect b)).all (fun i => b.digestOk.getD i false) then 5
  else if ¬ coreSections.all (bundleImageOk b) then 6
  else 1

/-- A bundle has verified: BUNDLE_OK, event 0x3003, its ID and key published, the images in the SRAM of MC0 to MC3 (R130, R145, R149,
R622). -/
def State.bundleGood (s : State) (b : Bundle) : State :=
  let s := (s.setPair BLOAD.BUNDLE_ID_LO.cl BLOAD.BUNDLE_ID_HI.cl (bundleId b)).set BLOAD.KEY_INDEX.cl (bundleKey b)
  let s := s.each (List.range 4) (fun s k => s.loadImage b k)
  ((s.set TRAYID.KEY_IN_FORCE.cl (bundleKey b)).set CSYS.BUNDLE_OK.cl 1).event BLOAD.page 0x3003

/-- A bundle has failed: STBY_CAUSE SIG_BAD, whatever cause stood there, event 0x3002, and the staged bundle is discarded (R130, R146). A
later check that passes leaves STBY_CAUSE as it is. [DESIGN CHOICE, log entry 25] -/
def State.bundleBad (s : State) : State :=
  ({ s.set BLOAD.FETCHED.cl 0 with staged := none }.set CSYS.STBY_CAUSE.cl 1).event BLOAD.page 0x3002

/-- The check ends with its verdict (R130, R146, R622). With nothing staged no signature verifies. [DEDUCED, log entry 25] -/
def execBundleCheckDone (s : State) : Out :=
  if ¬ s.is BLOAD.CHECKING.cl then .next s
  else
    let s := s.set BLOAD.CHECKING.cl 0
    .next (match s.staged with
      | none => (s.set BLOAD.VERDICT.cl 2).bundleBad
      | some b =>
        let v := s.verdict b
        if v = 1 then (s.set BLOAD.VERDICT.cl v).bundleGood b else (s.set BLOAD.VERDICT.cl v).bundleBad)

/-! Loading the warden cores (R151, R152, R173). -/

/-- A word of a warden core's SRAM. -/
def State.sramWord (s : State) (d core i : Nat) : Nat := (aget (s.die d).sram (core * 65536 + i)).getD 0

/-- Write a word of a warden core's SRAM. -/
def State.setSram (s : State) (d core i v : Nat) : State :=
  s.onDie d (fun x => { x with sram := aputD x.sram (core * 65536 + i) 0 v })

/-- A write of IMG_DATA stores the word at IMG_ADDR, which counts up by 4 and stops at 0x4_0000 (R151). -/
def execImgData (req : Requester) (die : DieNo) (value : BitVec 32) (s : State) : Out :=
  let d := die.val
  .next (s.onWrite d WLOAD.page WLOAD.IMG_DATA 0 req.val value.toNat (fun s =>
    let core := s.get (WLOAD.IMG_SEL.on d)
    let a := s.get (WLOAD.IMG_ADDR.on d)
    if s.is (FWI.RELEASED.at d core) ∨ 0x40000 ≤ a then
      s.regFault d WLOAD.page WLOAD.IMG_DATA 0 .accessErr req.val value.toNat
    else (s.setSram d core (a / 4) value.toNat).set (WLOAD.IMG_ADDR.on d) (a + 4)))

/-- The fields of warden core k: RUN, BAD, HELD, BID_LO, BID_HI. -/
def wRun (d k : Nat) : Field := if k = 0 then WLOAD.W0_RUN.on d else WLOAD.W1_RUN.on d
/-- Wk_BAD. -/
def wBad (d k : Nat) : Field := if k = 0 then WLOAD.W0_BAD.on d else WLOAD.W1_BAD.on d
/-- Wk_HELD. -/
def wHeld (d k : Nat) : Field := if k = 0 then WLOAD.W0_HELD.on d else WLOAD.W1_HELD.on d
/-- RELEASE_Wk. -/
def wRelease (k : Nat) : Reg := if k = 0 then WLOAD.RELEASE_W0 else WLOAD.RELEASE_W1

/-- A warden core starts to run with its watchdog armed (R152, R153, R155); released W1 has the stacks trained. -/
def State.runWarden (s : State) (d k cause : Nat) : State :=
  let s := ((s.set (wRun d k) 1).set (WCORE.LAST_CAUSE.at d k) cause).armWatch (watchW d k)
  let s := if k = 1 ∧ cause = 0 then s.each (List.range 4) (fun s j => s.set (HBM.TRAINED.at d j) 1) else s
  s.dieReady d

/-- RELEASE: the die checks the image header and starts the core, or sets Wk_BAD with event 0x2010 (R145, R152). A core that has been
released is left, with no fault, and a release that is accepted clears Wk_BAD. [DESIGN CHOICE, log entry 27] -/
def execWardenRelease (req : Requester) (die : DieNo) (core : Fin 2) (s : State) : Out :=
  let d := die.val
  let k := core.val
  .next (s.onWrite d WLOAD.page (wRelease k) 0 req.val (k + 1) (fun s =>
    let w := s.sramWord d k
    if s.is (FWI.RELEASED.at d k) then s
    else if w 0 ≠ 0x474D4941 ∨ w 3 < 64 ∨ 262144 < w 3 ∨ w 3 ≤ w 1 then
      (s.set (wBad d k) 1).dieEvent d WLOAD.page 0x2010
    else
      let s := if k = 0 then s.setPair (WLOAD.BID_W0_LO.on d) (WLOAD.BID_W0_HI.on d) (w 4 + 4294967296 * w 5)
        else s.setPair (WLOAD.BID_W1_LO.on d) (WLOAD.BID_W1_HI.on d) (w 4 + 4294967296 * w 5)
      (((s.set (wBad d k) 0).set (FWI.RELEASED.at d k) 1).set (WCORE.RESTART_PC.at d k) (w 2)).runWarden d k 0))

/-- TRIP_n is released: the die's PLLs lock, then its fuses load (R134 step 13, R90). [DEDUCED, log entry 22] -/
def execDieFuseLoadDone (die : DieNo) (s : State) : Out :=
  let d := die.val
  if s.inReset d then .next s
  else
    let s := (((s.set (DCLK.TILE_LOCK.on d) 1).set (DCLK.LG_LOCK.on d) 0x3F).set (DCLK.HBM_LOCK.on d) 1)
    let s := (s.set (DCLK.WARDEN_LOCK.on d) 1).set (DCLK.PCIE_LOCK.on d) 1
    .next (s.set (DFUSE.FUSES_LOADED.on d) 1)

/-! Watchdogs (R153 to R157). -/

/-- A kick: 0xA5C3 puts the timeout written in force and reloads the count with it, any other value is discarded with ACCESS_ERR
(R153, R154). One that meets a count of 0, or a core in reset, is not taken (R167). -/
def State.kick (s : State) (chip : Nat) (p : Page) (r : Reg) (i req value : Nat) (w : Watch) : State :=
  s.onWrite chip p r i req value (fun s =>
    if value ≠ 0xA5C3 then s.regFault chip p r i .accessErr req value
    else if ¬ s.is w.run ∨ s.watchLeft w = 0 then s
    else (s.set w.force (s.get w.timeout)).armWatch w)

/-- A write of WDT_KICK (R153). -/
def execWdtKick (req : Requester) (core : Core) (value : BitVec 16) (s : State) : Out :=
  match core with
  | .mc k => .next (s.kick clachasel MCCTL.page MCCTL.WDT_KICK k.val req.val value.toNat (watchMc k.val))
  | .warden d k => .next (s.kick d.val WCORE.page WCORE.WDT_KICK k.val req.val value.toNat (watchW d.val k.val))

/-! The emulated page (R159 to R171). -/

/-- A write to CMDk: before release it is discarded with ACCESS_ERR in CSYS (R159); CMD20 to CMD31, and a CMDk that is
pending, are discarded with ACCESS_ERR; any other write posts a command (R162). [DEDUCED, log entry 26] -/
def execCmdPost (req : Requester) (k : Fin 32) (value : BitVec 32) (s : State) : Out :=
  let off := 0x80080 + 4 * k.val
  if s.inReset clachasel then .next s
  else if ¬ s.is EMU.SERVED.cl then .next (s.pageFault clachasel CSYS.page 0 .accessErr req.val off value.toNat)
  else if ¬ s.writable clachasel EMU.page EMU.CMD 0 req.val ∨ 20 ≤ k.val ∨ s.bit EMU.PEND_MAP.cl k.val then
    .next (s.pageFault clachasel EMU.page 0 .accessErr req.val off value.toNat)
  else
    let s := s.wrap FWI.SEQ.cl
    let seq := s.get FWI.SEQ.cl
    let s := { s with posted := s.posted ++ [(⟨k.val, value.toNat, s.get EMU.CTX_TAG.cl, s.trayTime, seq⟩ : Posted)] }
    .next (((s.setBit EMU.PEND_MAP.cl k.val true).set EMU.LAST_SEQ.cl seq).set EMU.LAST_CMD.cl k.val)

/-- A posted command has waited 1 ms: CMD_LATE and event 0x3030; it stays posted (R163). [DEDUCED, log entry 26] -/
def execCmdLate (k : Fin 20) (s : State) : Out :=
  .next (if s.bit EMU.PEND_MAP.cl k.val then (s.pageEvent clachasel EMU.page 8).event EMU.page 0x3030 else s)

/-- Tray time has passed PUB_TIME by more than 50 ms: STALE rises with its event bit (R161). -/
def execStale (s : State) : Out :=
  if s.is EMU.STALE.cl ∨ ¬ s.is EMU.SERVED.cl ∨
      s.trayTime * 1000 ≤ s.pair EMU.PUB_TIME_LO.cl EMU.PUB_TIME_HI.cl * 1000 + 50 * 32768 then .next s
  else .next ((s.set EMU.STALE.cl 1).pageEvent clachasel EMU.page 10)

/-- MC3 publishes the result of a served command; the value in force shows in VAL_k from the next swap (R160, R163).
[DEDUCED, log entry 26] -/
def State.publish (s : State) (c : Posted) (code : Nat) : State :=
  let s := (s.set (EMU.RESULT_CODE.clAt c.k) code).set (EMU.RESULT_SEQ.clAt c.k) c.seq
  let s := if code = 1 ∨ code = 2 then s.set (FWI.VAL.clAt c.k) c.value else s
  let s := s.set FWI.REPLAY.cl (s.get FWI.REPLAY.cl - 1)
  ({ s with posted := s.posted.filter (fun x => x.k != c.k) }.setBit EMU.PEND_MAP.cl c.k false).pageEvent clachasel EMU.page 9

/-- Whether the command posted on CMDk may be served: MC3 runs, and after its restart the commands it found posted come first, in order
of sequence number (R170). -/
def State.mayServe (s : State) (k : Nat) : Bool :=
  s.mcRuns 3 && (s.get FWI.REPLAY.cl == 0 || (s.posted.head?.map Posted.k) == some k)

/-- MC3 serves the command posted on CMDk: EXPIRED after 100 ms, REFUSED_STALE for another context, REFUSED_STATE in a tray
state that does not permit it, else what `act` answers (R163, R164, R170). [DEDUCED, log entry 26] -/
def State.serve (s : State) (k : Nat) (permitted : State → Bool) (act : State → Nat → State × Nat) : State :=
  match s.posted.find? (fun c => c.k == k) with
  | none => s
  | some c =>
    if ¬ s.mayServe k then s
    else if 100 * 32768 < (s.trayTime - c.time) * 1000 then s.publish c 6
    else if c.tag ≠ s.get POWI.CTX_NUM.cl then s.publish c 4
    else if ¬ permitted s then s.publish c 3
    else
      let r := act s c.value
      r.1.publish c r.2

/-- MGMT_READY and later. -/
def State.mgmtReady (s : State) : Bool := decide (2 ≤ s.get CSYS.TRAY_STATE.cl)

/-- The dies that a zone at TRIP covers (R490). -/
def State.hotDies (s : State) : List Nat :=
  (List.range 8).filter (fun n => (List.range 16).any (fun z =>
    s.is (TZONE.ZEN.clAt z) && s.get (TZONE.LEVEL.clAt z) == 3 && s.bit (TZONE.DIES.clAt z) n))

/-- CMD0 BRINGUP: MC0 closes the main switch and chooses the dies UP will name, leaving out those whose zone reads TRIP
(R134 step 10, R165, R490, R519). [DEDUCED, log entry 24] -/
def execBringup (s : State) : Out :=
  .next (s.serve 0 (fun s => s.get CSYS.TRAY_STATE.cl == 2 && s.is CPUMP.FLOW_PROVEN.cl) (fun s v =>
    if v % 256 ≠ 0xFF then (s, 5)
    else
      let hot := s.hotDies
      let s := s.each hot (fun s _ => s.event CSYS.page 0x3521)
      (((s.set SEQ.DIE_MASK.cl (hot.foldl (fun m n => withBit m n false) 0xFF)).set FWI.BRINGING.cl 1).mainOn, 2)))

/-- CMD1 POWER_DOWN: MC0 holds every die in die reset, takes its rails down and opens the main switch (R88, R132, R165). That no die
context is open is asked in RAILS_UP as in DIES_READY. [DEDUCED, log entry 24] -/
def execPowerDown (s : State) : Out :=
  .next (s.serve 1 (fun s => (s.get CSYS.TRAY_STATE.cl == 3 || s.get CSYS.TRAY_STATE.cl == 4) &&
      (List.range 8).all (fun n => s.get (CTX.STATE.on n) == 0)) (fun s v =>
    if v ≠ 1 then (s, 5) else ((s.each (List.range 8) (fun s n => s.trip n 1)).allRailsDown 0, 2)))

/-- CMD2 CTX_OPEN: the context number comes into force; with a number in force, which the command's CTX_TAG then is, it is refused
(R164, R165). [DEDUCED, log entry 26] -/
def execCtxOpen (s : State) : Out :=
  .next (s.serve 2 (fun s => s.get CSYS.TRAY_STATE.cl == 4) (fun s v =>
    let n := v % 65536
    if n = 0 ∨ n = s.get POWI.LAST_CTX.cl ∨ s.get POWI.CTX_NUM.cl ≠ 0 then (s, 5)
    else ((s.set POWI.CTX_NUM.cl n).set POWI.LAST_CTX.cl n, 1)))

/-- CMD3 CTX_CLOSE: no context is in force (R164, R165). -/
def execCtxClose (s : State) : Out :=
  .next (s.serve 3 (fun s => s.get CSYS.TRAY_STATE.cl == 5) (fun s v =>
    if v % 65536 ≠ s.get POWI.CTX_NUM.cl then (s, 5)
    else (s.set POWI.CTX_NUM.cl 0, 1)))

end Sys2Proof.Machine
end

