-- ==== Sys2Proof/Machine/Float.lean ====
section
/-! DEFINITION. The number formats and conversions of R193 to R196 (spec/06_tumbler.md): every finite value is an exact
multiple of 2^-149, and each operation rounds once, to nearest even. -/

namespace Sys2Proof.Machine

/-- A floating-point value: NaN or an infinity with its sign, or a finite number as a sign and a magnitude in units of
2^-149. -/
inductive FVal where
  | nan (neg : Bool)
  | inf (neg : Bool)
  | fin (neg : Bool) (mag : Nat)
  deriving DecidableEq, Repr

/-- The exception flags, as bits of a tumbler's flags: NV, OF, SAT, BR, WC (R175, R419). -/
structure Flags where
  nv : Bool := false
  ov : Bool := false
  sat : Bool := false
  deriving DecidableEq, Repr

/-- The flags as bits [0] NV, [1] OF, [2] SAT. -/
def Flags.bits (f : Flags) : Nat := f.nv.toNat + 2 * f.ov.toNat + 4 * f.sat.toNat

/-- The flags of two operations together. -/
def Flags.or (a b : Flags) : Flags := ⟨a.nv || b.nv, a.ov || b.ov, a.sat || b.sat⟩

/-- Read a format with `e` exponent bits, `m` mantissa bits, and the smallest subnormal 2^(sub - 149). `top` says whether
the highest exponent holds infinity and NaN, as in every format but E4M3. -/
def readFloat (e m sub : Nat) (top : Bool) (b : Nat) : FVal :=
  let man := b % 2 ^ m
  let ex := b / 2 ^ m % 2 ^ e
  let neg := b.testBit (e + m)
  if top && ex == 2 ^ e - 1 then (if man = 0 then .inf neg else .nan neg)
  else if !top && ex == 2 ^ e - 1 && man == 2 ^ m - 1 then .nan neg
  else .fin neg ((if ex = 0 then man else 2 ^ m + man) * 2 ^ (ex - 1 + sub))

/-- FP32 (R193). -/
def f32 (b : Nat) : FVal := readFloat 8 23 0 true b
/-- BF16. -/
def bf16 (b : Nat) : FVal := readFloat 8 7 16 true b
/-- E4M3. -/
def e4m3 (b : Nat) : FVal := readFloat 4 3 140 false b
/-- E5M2. -/
def e5m2 (b : Nat) : FVal := readFloat 5 2 133 true b

/-- Round n / d, in units of a format's smallest subnormal, to nearest even with an unbounded exponent: the pattern without
its sign, for a format of `p` significant bits. -/
def roundBits (p n d : Nat) : Nat :=
  let k := Nat.log2 (n / d) - (p - 1)
  let den := d * 2 ^ k
  let q := n / den
  let r := n % den
  let q := if den < 2 * r ∨ (2 * r = den ∧ q % 2 = 1) then q + 1 else q
  k * 2 ^ (p - 1) + q

/-- The NaN an FP32 operation produces (R193, R196). -/
def f32Nan : Nat := 0x7FC00000

/-- A number num / den in units of 2^-149, rounded to FP32; a zero takes the sign given. -/
def f32Round (zeroNeg : Bool) (num : Int) (den : Nat) : Nat × Bool :=
  let neg := if num = 0 then zeroNeg else decide (num < 0)
  let b := roundBits 24 num.natAbs den
  if 0x7F800000 ≤ b then (0x7F800000 + 0x80000000 * neg.toNat, true) else (b + 0x80000000 * neg.toNat, false)

/-- The signed number of a finite value. -/
def signed (neg : Bool) (mag : Nat) : Int := if neg then -(mag : Int) else mag

/-- A value as an FP32 pattern; exact for a value of a narrower format (R195). -/
def FVal.toF32 (v : FVal) : Nat :=
  match v with
  | .nan neg => f32Nan + 0x80000000 * neg.toNat
  | .inf neg => 0x7F800000 + 0x80000000 * neg.toNat
  | .fin neg mag => (f32Round neg (signed neg mag) 1).1

/-- Terms of an exact sum: NaN, an infinity, an invalid product, or a finite number in units of 2^-298. -/
inductive Term where
  | nan | bad
  | inf (neg : Bool)
  | fin (neg : Bool) (num : Int)
  deriving DecidableEq, Repr

/-- A value as a term. -/
def FVal.term (v : FVal) : Term :=
  match v with
  | .nan _ => .nan
  | .inf neg => .inf neg
  | .fin neg mag => .fin neg (signed neg mag * 2 ^ 149)

/-- The exact product of two values (R194, R196). -/
def mulTerm (a b : FVal) : Term :=
  match a, b with
  | .nan _, _ => .nan
  | _, .nan _ => .nan
  | .inf s, .inf t => .inf (s != t)
  | .inf s, .fin t m => if m = 0 then .bad else .inf (s != t)
  | .fin s m, .inf t => if m = 0 then .bad else .inf (s != t)
  | .fin s m, .fin t n => .fin (s != t) (signed (s != t) (m * n))

/-- Whether a term is an infinity of a sign. -/
def Term.isInf (t : Term) (neg : Bool) : Bool :=
  match t with
  | .inf s => s == neg
  | _ => false

/-- Whether a term is a negative zero. -/
def Term.negZero (t : Term) : Bool :=
  match t with
  | .fin neg num => neg && num == 0
  | _ => false

/-- The number of a finite term. -/
def Term.num (t : Term) : Int :=
  match t with
  | .fin _ n => n
  | _ => 0

/-- The NaN a tumbler's operation `op` produces from its operands: the sign is a free value (R193, R196).
[DESIGN CHOICE, log entry 20] -/
def opNan (op : Nat) (operands : List Nat) : Nat := f32Nan + 0x80000000 * (Config.nanSign op operands).toNat

/-- The exact sum of terms, rounded once to FP32 (R194), with NaN, NV and OF by R196. [DESIGN CHOICE, log entry 20] -/
def sumTerms (nan : Nat) (ts : List Term) : Nat × Flags :=
  let pos := ts.any (fun t => t.isInf false)
  let neg := ts.any (fun t => t.isInf true)
  let bad := ts.any (fun t => t == .bad) || (pos && neg)
  if bad || ts.any (fun t => t == .nan) then (nan, { nv := bad })
  else if pos then (0x7F800000, {})
  else if neg then (0xFF800000, {})
  else
    let r := f32Round (ts.all Term.negZero) ((ts.map Term.num).foldl (· + ·) 0) (2 ^ 149)
    (r.1, { ov := r.2 })

/-- The negative of a value. -/
def FVal.neg (v : FVal) : FVal :=
  match v with
  | .nan s => .nan s
  | .inf s => .inf (!s)
  | .fin s m => .fin (!s) m

/-- FP32 addition. -/
def fadd (a b : Nat) : Nat × Flags := sumTerms (opNan 0 [a, b]) [(f32 a).term, (f32 b).term]
/-- FP32 subtraction. -/
def fsub (a b : Nat) : Nat × Flags := sumTerms (opNan 1 [a, b]) [(f32 a).term, (f32 b).neg.term]
/-- FP32 multiplication. -/
def fmul (a b : Nat) : Nat × Flags := sumTerms (opNan 2 [a, b]) [mulTerm (f32 a) (f32 b)]

/-- FP32 division, IEEE 754 (R456, R457). -/
def fdiv (a b : Nat) : Nat :=
  match f32 a, f32 b with
  | .nan _, _ => f32Nan
  | _, .nan _ => f32Nan
  | .inf _, .inf _ => f32Nan
  | .inf s, .fin t _ => 0x7F800000 + 0x80000000 * (s != t).toNat
  | .fin s _, .inf t => 0x80000000 * (s != t).toNat
  | .fin s m, .fin t n =>
    if n = 0 then (if m = 0 then f32Nan else 0x7F800000 + 0x80000000 * (s != t).toNat)
    else (f32Round (s != t) (signed (s != t) (m * 2 ^ 149)) n).1

/-- The order of two finite or infinite values: a number that grows with the value. -/
def FVal.rank (v : FVal) : Int :=
  match v with
  | .nan _ => 0
  | .inf neg => signed neg (2 ^ 300)
  | .fin neg mag => signed neg mag

/-- Whether a value is NaN. -/
def FVal.isNan (v : FVal) : Bool :=
  match v with
  | .nan _ => true
  | _ => false

/-- Whether a pattern is a finite FP32 number. -/
def f32Finite (b : Nat) : Bool :=
  match f32 b with
  | .fin _ _ => true
  | _ => false

/-- FP32 less-than: false if either operand is NaN (R192). -/
def flt (a b : Nat) : Bool := !(f32 a).isNan && !(f32 b).isNan && decide ((f32 a).rank < (f32 b).rank)
/-- FP32 equality: false if either operand is NaN (R192). -/
def feq (a b : Nat) : Bool := !(f32 a).isNan && !(f32 b).isNan && (f32 a).rank == (f32 b).rank

/-- FP32 maximum or minimum: NaN if either lane is NaN (R196); of two lanes that compare equal, which is given is a free
value (R184: it shows only between -0 and +0). [DESIGN CHOICE, log entry 20] -/
def fmaxmin (max : Bool) (a b : Nat) : Nat :=
  if (f32 a).isNan || (f32 b).isNan then opNan (3 + max.toNat) [a, b]
  else if feq a b then (if Config.zeroTie max a b then b else a)
  else if flt a b == max then b else a

/-- Convert FP32 to a narrower format of `p` significant bits whose smallest subnormal is 2^(sub - 149): the pattern
without its sign, or none beyond `top`, the largest finite (R195). -/
def narrow (p sub top mag : Nat) : Option Nat :=
  let b := roundBits p mag (2 ^ sub)
  if top < b then none else some b

/-- FP32 to E4M3 (R195). -/
def toE4m3 (b : Nat) : Nat × Flags :=
  match f32 b with
  | .nan s => (0x7F + 0x80 * s.toNat, {})
  | .inf s => (0x7E + 0x80 * s.toNat, { sat := true })
  | .fin s m =>
    match narrow 4 140 0x7E m with
    | some v => (v + 0x80 * s.toNat, {})
    | none => (0x7E + 0x80 * s.toNat, { sat := true })

/-- FP32 to E5M2, saturating or not (R195). [DEDUCED, log entry 39] -/
def toE5m2 (saturating : Bool) (b : Nat) : Nat × Flags :=
  match f32 b with
  | .nan s => (0x7F + 0x80 * s.toNat, {})
  | .inf s => (0x7C + 0x80 * s.toNat, { ov := !saturating })
  | .fin s m =>
    match narrow 3 133 0x7B m with
    | some v => (v + 0x80 * s.toNat, {})
    | none => if saturating then (0x7B + 0x80 * s.toNat, { sat := true }) else (0x7C + 0x80 * s.toNat, { ov := true })

/-- FP32 to BF16 (R195). [DEDUCED, log entry 39] -/
def toBf16 (b : Nat) : Nat × Flags :=
  match f32 b with
  | .nan s => (0x7FC0 + 0x8000 * s.toNat, {})
  | .inf s => (0x7F80 + 0x8000 * s.toNat, { ov := true })
  | .fin s m =>
    match narrow 8 16 0x7F7F m with
    | some v => (v + 0x8000 * s.toNat, {})
    | none => (0x7F80 + 0x8000 * s.toNat, { ov := true })

/-- A number saturated to a signed `w`-bit pattern, with SAT (R194, R195). -/
def satPattern (w : Nat) (i : Int) : Nat × Flags := (ofSigned w (satSigned w i), { sat := satSigned w i != i })

/-- FP32 to a signed `w`-bit integer, to nearest even (R195). -/
def f32ToInt (w : Nat) (b : Nat) : Nat × Flags :=
  match f32 b with
  | .nan _ => (0, { nv := true })
  | .inf s => (ofSigned w (if s then -(2 ^ (w - 1) : Nat) else (2 ^ (w - 1) : Nat) - 1), { sat := true })
  | .fin s m =>
    let q := m / 2 ^ 149
    let r := m % 2 ^ 149
    let q := if 2 ^ 149 < 2 * r ∨ (2 * r = 2 ^ 149 ∧ q % 2 = 1) then q + 1 else q
    satPattern w (signed s q)

/-- A signed integer to FP32, to nearest even (R195). -/
def intToF32 (i : Int) : Nat := (f32Round false (i * 2 ^ 149) 1).1

end Sys2Proof.Machine
end

