-- ==== Sys2Proof/Machine/Afe.lean ====
section
/-! DEFINITION. The analog front end: calibration, profiles, requests, rounds, linearisation, results (spec/14_afe.md). -/

namespace Sys2Proof.Machine

namespace AFEI
/-- Seconds of tray time at the last calibration of CEk (R671, R673). -/
def LAST_CAL : Reg := iarr 0x1400 32 0 2
/-- The highest value of TS28 to TS33 at the last calibration of CEk, as 16 bits plus 1; 0 while none has had a value since (R671). -/
def CAL_TEMP : Reg := iarr 0x1402 17 0 2
end AFEI

/-! Places. -/

/-- The page of a request port: AFEPORT for MC0 to MC3, AFEHOST for the host (R450). -/
def portPage (port : Nat) : Page := if port < 4 then AFEPORT.page else AFEHOST.page

/-- CALk. -/
def calReg (e : Nat) : Reg := if e = 0 then AFECTL.CAL0 else AFECTL.CAL1
/-- CALk_BUSY. -/
def calBusy (e : Nat) : Field := if e = 0 then AFECTL.CAL0_BUSY.cl else AFECTL.CAL1_BUSY.cl
/-- CEk_UNCAL. -/
def ceUncal (e : Nat) : Field := if e = 0 then AFECTL.CE0_UNCAL.cl else AFECTL.CE1_UNCAL.cl
/-- OFS_g of an engine. -/
def ceOfs (e g : Nat) : Field := if e = 0 then AFECTL.CE0_OFS.clAt g else AFECTL.CE1_OFS.clAt g
/-- GAIN_g of an engine. -/
def ceGain (e g : Nat) : Field := if e = 0 then AFECTL.CE0_GAIN.clAt g else AFECTL.CE1_GAIN.clAt g
/-- PINS_CEk. -/
def cePins (e : Nat) : Field := if e = 0 then AFECTL.PINS_CE0.cl else AFECTL.PINS_CE1.cl

/-- An engine. -/
def State.engine (s : State) (e : Nat) : AfeEngine := if e = 0 then s.afe.ce0 else s.afe.ce1

/-- PAGE_STATUS.ENABLED of AFECTL (R445). -/
def afeEnabled : Field := hdr HDR.ENABLED clachasel AFECTL.page.base

/-- The registers that follow an engine: its round, its queue, its profile. [DESIGN CHOICE, log entry 62] -/
def State.engineRegs (s : State) (e : Nat) : State :=
  let x := s.engine e
  let running := x.round.isSome
  let profile := match x.round with | some r => r.profile | none => 0
  if e = 0 then ((s.put AFECTL.CE0_ROUND.cl running).set AFECTL.CE0_QUEUE.cl x.queue.length).set AFECTL.CE0_PROFILE.cl profile
  else ((s.put AFECTL.CE1_ROUND.cl running).set AFECTL.CE1_QUEUE.cl x.queue.length).set AFECTL.CE1_PROFILE.cl profile

/-- Replace an engine. -/
def State.setEngine (s : State) (e : Nat) (x : AfeEngine) : State :=
  State.engineRegs (if e = 0 then { s with afe := { s.afe with ce0 := x } } else { s with afe := { s.afe with ce1 := x } }) e

/-! The fields of a profile (R448). -/

/-- Bits of word `w` of a profile. -/
def pf (words : List Nat) (w lo n : Nat) : Nat := bitsOf (words.getD w 0) lo n
/-- A bit of a profile. -/
def pfBit (words : List Nat) (w lo : Nat) : Bool := pf words w lo 1 == 1
/-- ENGINE. -/
def pEngine (p : List Nat) : Nat := pf p 0 0 1
/-- MODE: 0 VOLT, 1 RES, 2 CURRENT, 3 DIODE. -/
def pMode (p : List Nat) : Nat := pf p 0 1 3
/-- SWAP. -/
def pSwap (p : List Nat) : Bool := pfBit p 0 4
/-- GAIN. -/
def pGain (p : List Nat) : Nat := pf p 0 5 3
/-- IEX. -/
def pIex (p : List Nat) : Nat := pf p 0 11 3
/-- IEX_HI. -/
def pIexHi (p : List Nat) : Nat := pf p 0 14 3
/-- VBIAS. -/
def pVbias (p : List Nat) : Nat := pf p 0 17 2
/-- RF. -/
def pRf (p : List Nat) : Nat := pf p 0 19 3
/-- CF. -/
def pCf (p : List Nat) : Nat := pf p 0 22 2
/-- A pin and its enable: P, N, EXA, EXB in word 1, BIAS in word 2. -/
def pPin (p : List Nat) (w lo : Nat) : Option Nat := if pfBit p w (lo + 7) then some (pf p w lo 6) else none
/-- The pin in role P. -/
def pinP (p : List Nat) : Option Nat := pPin p 1 0
/-- The pin in role N. -/
def pinN (p : List Nat) : Option Nat := pPin p 1 8
/-- The pin IEXA drives in the first phase. -/
def pinA (p : List Nat) : Option Nat := pPin p 1 16
/-- The pin IEXB drives in the first phase. -/
def pinB (p : List Nat) : Option Nat := pPin p 1 24
/-- The pin in the bias role. -/
def pinBias (p : List Nat) : Option Nat := pPin p 2 0
/-- REF_EN. -/
def pRefEn (p : List Nat) : Bool := pfBit p 2 15
/-- REF. -/
def pRef (p : List Nat) : Nat := pf p 2 8 6
/-- LIN_EN. -/
def pLinEn (p : List Nat) : Bool := pfBit p 2 23
/-- CSET. -/
def pSet (p : List Nat) : Nat := pf p 2 16 5

/-- The four words of profile MPp. -/
def State.profileWords (s : State) (p : Nat) : List Nat := (List.range 4).map (fun w => s.get (AFEPROF.WORD.clAt (4 * p + w)))

/-- Word `w` of coefficient set CSk, as the engine uses it: the active copy (R458, R459). -/
def State.setWord (s : State) (k w : Nat) : Nat :=
  if k < 8 then s.get (AFECOEF.FACTORY.clAt (32 * k + w))
  else if k < 16 then s.get (AFECOEF.SET0.clAt (32 * (k - 8) + w))
  else s.get (AFECOEF.SET1.clAt (32 * (k - 16) + w))

/-! The checks of R449. -/

/-- Whether a pin code is used by a role that allows AX0 to AX31 only. -/
def onlyAx (pin : Option Nat) : Bool := match pin with | some k => decide (k < 32) | none => true

/-- Check 2, PIN. [DESIGN CHOICE, log entry 62] -/
def pinFails (p : List Nat) : Bool :=
  let pOk := match pinP p with | some k => decide (k < 32) || (decide (k < 36) && pMode p == 2) | none => true
  !pOk || !onlyAx (pinN p) || !onlyAx (pinA p) || !onlyAx (pinB p) || !onlyAx (pinBias p) ||
    ((pinN p).isSome && pinN p == pinP p) || ((pinA p).isSome && pinA p == pinB p) ||
    ((pinBias p).isSome && (pinBias p == pinA p || pinBias p == pinB p))

/-- Check 3, MODE. -/
def modeFails (p : List Nat) : Bool :=
  decide (4 ≤ pMode p) || pf p 0 8 3 == 7 || decide (5 ≤ pRf p) || pCf p == 3 ||
    (pMode p == 2 && (pEngine p == 0 || (pinN p).isSome || (pinA p).isSome || (pinB p).isSome))

/-- Check 4, EXCITATION. -/
def excitationFails (p : List Nat) : Bool :=
  ((pMode p == 1 || pMode p == 3) && ((pinA p).isNone || pIex p == 0)) ||
    (pMode p == 3 && (decide (pIexHi p ≤ pIex p) || (pinB p).isSome || pSwap p)) || (pSwap p && pMode p != 1)

/-- Check 7, LIN. -/
def State.linFails (s : State) (p : List Nat) : Bool := pLinEn p && !(s.setWord (pSet p) 0).testBit 0

/-- The first check a profile fails, the reference apart: checks 1 to 5, then 7; 0 where it passes. -/
def State.ownReason (s : State) (p : List Nat) : Nat :=
  if (pinP p).isNone then 1
  else if pinFails p then 2
  else if modeFails p then 3
  else if excitationFails p then 4
  else if ((pinBias p).isSome || pMode p == 2) && pVbias p == 0 then 5
  else if s.linFails p then 7
  else 0

/-- The reason of R449 for profile `k` with the snapshot of it and of its reference; 0 where it passes. -/
def State.badReason (s : State) (k : Nat) (p ref : List Nat) : Nat :=
  let own := s.ownReason p
  if own ≠ 0 ∧ own < 6 then own
  else if pRefEn p && (pRef p == k || pEngine ref != pEngine p || pRefEn ref || s.ownReason ref != 0) then 6
  else own

/-! Answers (R462, R463). -/

/-- The FLAGS bits. -/
def flagStale : Nat := 0x001
/-- NO_DATA. -/
def flagNoData : Nat := 0x002
/-- OVR. -/
def flagOvr : Nat := 0x004
/-- COMPLIANCE. -/
def flagCompliance : Nat := 0x008
/-- SETTLE_SHORT. -/
def flagSettle : Nat := 0x010
/-- REF_BAD. -/
def flagRefBad : Nat := 0x020
/-- LIN_RANGE. -/
def flagLinRange : Nat := 0x040
/-- LIN_FAULT. -/
def flagLinFault : Nat := 0x080
/-- BAD_PROFILE. -/
def flagBadProfile : Nat := 0x100
/-- UNCAL. -/
def flagUncal : Nat := 0x200
/-- ABANDONED. -/
def flagAbandoned : Nat := 0x400

/-- The flags that make a stored reference unusable and a fresh one REF_BAD: OVR, COMPLIANCE, SETTLE_SHORT, REF_BAD,
LIN_RANGE, LIN_FAULT, UNCAL, ABANDONED (R455). -/
def refUnfit : Nat := 0x6FC

/-- A flag if a condition holds. -/
def flagIf (b : Bool) (f : Nat) : Nat := if b then f else 0

/-- Two sets of flags together. -/
def orFlags (a b : Nat) : Nat := Nat.lor a b

/-- A port is answered: its result in one cycle, BUSY clear, ANSWER set (R462). -/
def State.answerPort (s : State) (port : Nat) (r : AfeResult) : State :=
  let s := ((s.set (AFEPORT.VALUE.clAt port) r.value).set (AFEPORT.RAW.clAt port) r.raw).set (AFEPORT.SEQ.clAt port) r.seq
  let s := ((s.set (AFEPORT.FLAGS.clAt port) r.flags).set (AFEPORT.REASON.clAt port) r.reason).set (AFEPORT.PROFILE.clAt port) r.profile
  let s := s.setPair (AFEPORT.TIME_LO.clAt port) (AFEPORT.TIME_HI.clAt port) r.time
  let s := ((s.set (AFEPORT.BUSY.clAt port) 0).set (AFEPORT.QUEUED.clAt port) 0).set (AFEPORT.RUNNING.clAt port) 0
  s.pageEvent clachasel (portPage port) (if port < 4 then 8 + port else 8)

/-- The S_ registers show the stored result of MP[SSEL]. -/
def State.showStored (s : State) : State :=
  let r := (aget s.afe.stored (s.get AFECTL.SSEL.cl)).getD {}
  let s := ((s.set AFECTL.S_VALUE.cl r.value).set AFECTL.S_RAW.cl r.raw).set AFECTL.S_SEQ.cl r.seq
  (s.set AFECTL.S_FLAGS.cl (r.flags + 4096 * r.reason + 65536 * r.profile)).setPair AFECTL.S_TIME_LO.cl AFECTL.S_TIME_HI.cl r.time

/-- A profile's stored result is written (R455, R462). -/
def State.storeResult (s : State) (r : AfeResult) : State :=
  { s with afe := { s.afe with stored := aput s.afe.stored r.profile r } }.showStored

/-- A port is answered with its profile's stored result, STALE and further flags set, or with NO_DATA (R463, R466, R470). The
spec names no RAW for NO_DATA: a free value. [DESIGN CHOICE, log entry 62] -/
def State.answerStale (s : State) (port profile flags : Nat) : State :=
  let s := s.count AFECTL.STALE_ANSWERS.cl
  match aget s.afe.stored profile with
  | some r => s.answerPort port { r with flags := orFlags r.flags (orFlags flagStale flags) }
  | none => (s.answerPort port ⟨f32Nan, s.free, 0, orFlags (flagStale + flagNoData) flags, 0, profile, 0⟩).useFree

/-! Resources (R452). -/

/-- The pins a profile gives a source role, as a mask of AX0 to AX31. -/
def sourcePins (p : List Nat) : Nat :=
  [pinA p, pinB p, pinBias p].foldl (fun m x => match x with | some k => if k < 32 then withBit m k true else m | none => m) 0

/-- Whether a profile uses IEXA. -/
def usesA (p : List Nat) : Bool := (pinA p).isSome || pSwap p
/-- Whether a profile uses IEXB. -/
def usesB (p : List Nat) : Bool := (pinB p).isSome || pSwap p
/-- The level of VBIAS a profile uses, if it does. -/
def usesBias (p : List Nat) : Option Nat := if (pinBias p).isSome || pMode p == 2 then some (pVbias p) else none

/-- The levels of VBIAS a round uses. -/
def biasLevels (ps : List (List Nat)) : List Nat := ps.filterMap usesBias

/-- Whether two groups of profiles need one resource: a pin, a source, or VBIAS at two levels. -/
def conflict (a b : List (List Nat)) : Bool :=
  a.any (fun p => b.any (fun q =>
    Nat.land (sourcePins p) (sourcePins q) != 0 || (usesA p && usesA q) || (usesB p && usesB q))) ||
  (biasLevels a).any (fun x => (biasLevels b).any (fun y => x != y))

/-- The profiles a running round makes conversions of or holds. -/
def AfeRound.profiles (r : AfeRound) : List (List Nat) := r.words :: (if r.refWords = [] then [] else [r.refWords])

/-- An engine's round takes or gives back its resources: the registers that show what is held (R452).
[DESIGN CHOICE, log entry 62] -/
def State.holdRegs (s : State) (e : Nat) : State :=
  let mine := match (s.engine e).round with | some r => r.profiles | none => []
  let other := match (s.engine (1 - e)).round with | some r => r.profiles | none => []
  let s := s.set (cePins e) (mine.foldl (fun m p => Nat.lor m (sourcePins p)) 0)
  let owner := fun (f : List Nat → Bool) => if mine.any f then e + 1 else if other.any f then 2 - e else 0
  let s := (s.set AFECTL.IEXA_OWNER.cl (owner usesA)).set AFECTL.IEXB_OWNER.cl (owner usesB)
  let s := s.setBit AFECTL.VBIAS_USERS.cl e (biasLevels mine != [])
  s.set AFECTL.VBIAS_LEVEL.cl ((biasLevels mine ++ biasLevels other).headD 0)

/-- The switches of a running round in its present phase (R442, R454): pins in role P and N, IEXA's pin and code, IEXB's pin
and code, the biased pin. -/
structure Crosspoint where
  p : Option Nat
  n : Option Nat
  a : Option (Nat × Nat)
  b : Option (Nat × Nat)
  bias : Option Nat
  deriving DecidableEq, Repr

/-- The crosspoint as a round sets it: with SWAP the second phase exchanges the sources, in DIODE it takes IEX_HI. -/
def AfeRound.crosspoint (r : AfeRound) : Option Crosspoint :=
  r.plan.head?.map (fun ph =>
    let p := if ph.isRef then r.refWords else r.words
    let code := if ph.second && pMode p == 3 then pIexHi p else pIex p
    let at_ := fun (x : Option Nat) => x.map (fun k => (k, code))
    if ph.second && pSwap p then ⟨pinP p, pinN p, at_ (pinB p), at_ (pinA p), pinBias p⟩
    else ⟨pinP p, pinN p, at_ (pinA p), at_ (pinB p), pinBias p⟩)

/-! Calibration (R445 to R447, R465). -/

/-- A calibration of an engine starts; CAL reads 0 (R465). -/
def State.startCal (s : State) (e : Nat) : State := (s.set (calBusy e) 1).set (calReg e).cl 0

/-- AFECTL is enabled with its clock locked: both engines calibrate (R445, R470). -/
def State.calibrateBoth (s : State) : State :=
  if s.enabled clachasel AFECTL.page ∧ s.is CCLK.AFE_LOCK.cl then (s.startCal 0).startCal 1 else s

/-- ENABLE of AFECTL is written 1 (R445). -/
def execAfeEnable (req : Requester) (s : State) : Out :=
  .next (if s.inReset clachasel then s
    else if req.val ∈ [1, 2, 3, 4] then
      if s.enabled clachasel AFECTL.page then s
      else if s.resetting clachasel AFECTL.page 0 then s.set (hdr HDR.ENABLE clachasel AFECTL.page.base) 1
      else (s.set (hdr HDR.ENABLE clachasel AFECTL.page.base) 1).calibrateBoth
    else s.pageFault clachasel AFECTL.page 0 .accessErr req.val (AFECTL.page.base + 8) 1)

/-- CCLK.AFE_LOCK rises (R445, R470): the AFE's PLL runs while AFECTL is enabled. -/
def execAfePllLock (s : State) : Out :=
  .next (if s.is CCLK.AFE_LOCK.cl ∨ ¬ s.enabled clachasel AFECTL.page then s
    else (s.set CCLK.AFE_LOCK.cl 1).calibrateBoth)

/-- CALk is set: at once, or after the running round has been answered; discarded with ACCESS_ERR while the engine calibrates
(R465). Without the enabled AFE's clock there is nothing to calibrate. [DEDUCED, log entry 63] -/
def State.calibrate (s : State) (e req : Nat) : State :=
  if s.is (calBusy e) then s.regFault clachasel AFECTL.page (calReg e) 0 .accessErr req (2 ^ e)
  else if ¬ s.is afeEnabled ∨ ¬ s.is CCLK.AFE_LOCK.cl then s
  else if (s.engine e).round.isSome then s.set (calReg e).cl 1
  else s.startCal e

/-- A write of CAL0 and CAL1 (R445, R465). -/
def execCalibrate (req : Requester) (engines : BitVec 2) (s : State) : Out :=
  .next (s.onWrite clachasel AFECTL.page AFECTL.CAL0 0 req.val engines.toNat (fun s =>
    s.each ((List.range 2).filter (fun e => engines.toNat.testBit e)) (fun s e => s.calibrate e req.val)))

/-- The highest value of TS28 to TS33, of those that have one (R483, R671). [DEDUCED, log entry 63] -/
def State.boardTemp (s : State) : Option Int :=
  let valued := ((List.range 6).map (fun i => 28 + i)).filter (fun k => decide (2 ≤ s.get (TSTAT.STATE.clAt k)))
  (valued.map (fun k => toSigned 16 (s.get (TSTAT.VALUE.clAt k)))).max?

/-- MC1 notes the highest value that a later calibration of an engine is judged by (R671). -/
def State.noteCalTemp (s : State) (e : Nat) : State :=
  s.set (AFEI.CAL_TEMP.clAt e) (match s.boardTemp with | some t => ofSigned 16 t + 1 | none => 0)

/-- GAIN_g of a pair of codes as the exact number 0.8 × 2^23 / span, span = code_fs - code₀, in binary32 (R446).
[DEDUCED, log entry 63] -/
def gainOf (span : Int) : Nat :=
  if span ≤ 0 then f32Nan else (f32Round false (33554432 * 2 ^ 149) (5 * span.toNat)).1

/-- Whether a pair of codes is within R447: |OFS| at most 2^16 and GAIN within 0.95 to 1.05. -/
def calFits (zero full : Int) : Bool :=
  let span := full - zero
  decide (zero.natAbs ≤ 65536) && decide (0 < span) && decide (95 * 5 * span ≤ 3355443200) && decide (3355443200 ≤ 105 * 5 * span)

/-- A calibration ends (R446, R447): code₀ and code_fs of each gain, and on CE1 the open-input current of each feedback
resistance. ENABLED is set when both calibrations at ENABLE have ended (R445). [DEDUCED, log entry 63] -/
def State.calibrationDone (s : State) (e : Nat) (zero full : List (BitVec 24)) (tia : List (BitVec 32)) : State :=
  let z := fun g => toSigned 24 (zero.getD g 0).toNat
  let f := fun g => toSigned 24 (full.getD g 0).toNat
  if ¬ s.is (calBusy e) then s
  else
    let s := s.set (calBusy e) 0
    let s := (s.set (AFEI.LAST_CAL.clAt e) (s.trayTime / 32768)).noteCalTemp e
    let s := match (List.range 8).find? (fun g => !calFits (z g) (f g)) with
      | some g => ((s.set (ceUncal e) 1).pageEvent clachasel AFECTL.page 9).event AFECTL.page 0x3402 (e + 256 * g)
      | none =>
        let s := s.each (List.range 8) (fun s g => (s.set (ceOfs e g) (ofSigned 32 (z g))).set (ceGain e g) (gainOf (f g - z g)))
        let s := if e = 1 then s.each (List.range 5) (fun s r => s.set (AFECTL.TIA_OFS.clAt r) (tia.getD r 0).toNat) else s
        ((s.set (ceUncal e) 0).pageEvent clachasel AFECTL.page 8).event AFECTL.page 0x3401
    if ¬ s.is (calBusy 0) ∧ ¬ s.is (calBusy 1) ∧ s.enabled clachasel AFECTL.page then s.set afeEnabled 1 else s

/-! Requests (R450, R466, R469, R470). -/

/-- A write of REQ of port k (R450): discarded while BUSY, or while the AFE is neither enabled nor calibrating; answered with the
stored result while the clock is lost or the engine calibrates; else queued. [DESIGN CHOICE, log entry 62] -/
def State.afeRequest (s : State) (k p req : Nat) : State :=
  s.onWrite clachasel (portPage k) AFEPORT.REQ k req p (fun s =>
    let calibrating := s.is (calBusy 0) || s.is (calBusy 1)
    let e := pEngine (s.profileWords p)
    if s.is (AFEPORT.BUSY.clAt k) ∨ (¬ s.is afeEnabled ∧ ¬ calibrating) then
      s.regFault clachasel (portPage k) AFEPORT.REQ k .accessErr req p
    else if ¬ s.is CCLK.AFE_LOCK.cl then s.answerStale k p flagAbandoned
    else if ¬ s.is afeEnabled ∨ s.is (calBusy e) then s.answerStale k p 0
    else
      let x := s.engine e
      ((s.set (AFEPORT.BUSY.clAt k) 1).set (AFEPORT.QUEUED.clAt k) 1).setEngine e { x with queue := x.queue ++ [⟨k, p, s.clock, false⟩] })

/-- A write of REQ (R450). -/
def execAfeRequest (req : Requester) (port : Fin 5) (profile : BitVec 6) (s : State) : Out :=
  .next (s.afeRequest port.val profile.toNat req.val)

/-! Rounds (R449 to R457). -/

/-- The conversions of one profile (R453). -/
def conversions (isRef : Bool) (p : List Nat) : List AfePhase :=
  if pMode p = 3 ∨ (pMode p = 1 ∧ pSwap p) then [⟨isRef, false⟩, ⟨isRef, true⟩] else [⟨isRef, false⟩]

/-- The stored reference a round may use (R455): at most REF_AGE old, with no unfit flag. -/
def State.freshRef (s : State) (p : List Nat) : Option Nat :=
  match aget s.afe.stored (pRef p) with
  | none => none
  | some r =>
    if (s.trayTime - r.time) * 1000 ≤ pf p 3 16 16 * 32768 ∧ Nat.land r.flags refUnfit = 0 then some r.value else none

/-- The profiles whose resources the round of a request would hold: its own, and its reference's where that is converted.
[DESIGN CHOICE, log entry 62] -/
def State.needs (s : State) (q : AfeRequest) : List (List Nat) :=
  let p := s.profileWords q.profile
  if pRefEn p ∧ (s.freshRef p).isNone then [p, s.profileWords (pRef p)] else [p]

/-- SETTLE_SHORT: CURRENT with 10 µs × SETTLE < 8 × R_f × C_f (R463); both sides in ohms times picofarads.
[DEDUCED, log entry 63] -/
def settleShort (p : List Nat) : Bool :=
  pMode p == 2 && decide (pf p 3 0 16 * 10000000 < 8 * 10 ^ (3 + pRf p) * 10 ^ (1 + pCf p))

/-- The head request of an engine starts its round: the snapshot, the checks of R449, the resources of R452, the conversions
of R453. [DESIGN CHOICE, log entry 62] -/
def State.beginRound (s : State) (e : Nat) (q : AfeRequest) (rest : List AfeRequest) : State :=
  let p := s.profileWords q.profile
  let ref := if pRefEn p then s.profileWords (pRef p) else []
  let seq := s.get AFECTL.NEXT_SEQ.cl
  let s := ((s.wrap AFECTL.NEXT_SEQ.cl).count AFECTL.ROUNDS.cl).set (AFEPORT.QUEUED.clAt q.port) 0
  let reason := s.badReason q.profile p ref
  if reason ≠ 0 then
    let s := (s.setEngine e ⟨rest, none⟩).count AFECTL.BAD_PROFILES.cl
    let s := s.answerPort q.port ⟨f32Nan, s.free, seq, flagBadProfile, reason, q.profile,
      (Config.freeValue (s.freeCtr + 1)).toNat + 4294967296 * (Config.freeValue (s.freeCtr + 2)).toNat⟩
    (s.useFree.useFree.useFree).event AFECTL.page 0x3404
  else
    let stored := if pRefEn p then s.freshRef p else some 0
    let plan := (if stored.isNone then conversions true ref else []) ++ conversions false p
    let flags := flagIf (settleShort p) flagSettle
    let round : AfeRound := ⟨q.port, q.profile, seq, p, if stored.isNone then ref else [], plan, 0, stored.getD 0, 0, flags⟩
    ((s.set (AFEPORT.RUNNING.clAt q.port) 1).setEngine e ⟨rest, some round⟩).holdRegs e

/-- A round starts on an engine (R451, R452, R467). The head request waits while a resource is held, or while the other
engine's head, longer waiting, needs the same resource and may start. [DESIGN CHOICE, log entry 62] -/
def State.roundStart (s : State) (e : Nat) : State :=
  let x := s.engine e
  match x.queue, x.round with
  | q :: rest, none =>
    if s.is (calBusy e) ∨ ¬ s.is CCLK.AFE_LOCK.cl then s
    else
      let y := s.engine (1 - e)
      let held := match y.round with | some r => conflict (s.needs q) r.profiles | none => false
      let turn := match y.queue, y.round with
        | o :: _, none => !s.is (calBusy (1 - e)) && conflict (s.needs q) (s.needs o) &&
            (decide (o.posted < q.posted) || (o.posted == q.posted && e == 1))
        | _, _ => false
      if held then
        if q.waited then s else (s.count AFECTL.PIN_WAITS.cl).setEngine e { x with queue := { q with waited := true } :: rest }
      else if turn then s
      else s.beginRound e q rest
  | _, _ => s

/-- The calibrated voltage of a code (R456), each operation rounded to binary32. [DEDUCED, log entry 63] -/
def State.voltage (s : State) (e g : Nat) (code : Int) : Nat :=
  let d := intToF32 (code - toSigned 32 (s.get (ceOfs e g)))
  let v := (fmul (fmul d (s.get (ceGain e g))).1 (s.get AFECTL.VREF_TRIM.cl)).1
  fdiv v (intToF32 (2 ^ g * 8388608))

/-- The excitation current of a profile (R457): IEXA, or with SWAP the mean of both sources. -/
def State.excitation (s : State) (p : List Nat) : Nat :=
  let a := s.get (AFECTL.IEXA_TRIM.clAt (pIex p - 1))
  if pSwap p then fdiv (fadd a (s.get (AFECTL.IEXB_TRIM.clAt (pIex p - 1)))).1 (intToF32 2) else a

/-- The measured quantity x of the voltages of a profile's phases (R454, R457). [DEDUCED, log entry 63] -/
def State.quantity (s : State) (p : List Nat) (v1 v2 : Nat) : Nat :=
  match pMode p with
  | 1 => fdiv (if pSwap p then fdiv (fadd v1 v2).1 (intToF32 2) else v1) (s.excitation p)
  | 2 => (fsub (fdiv (Nat.xor v1 0x80000000) (s.get (AFECTL.RF_TRIM.clAt (pRf p)))) (s.get (AFECTL.TIA_OFS.clAt (pRf p)))).1
  | 3 => (fsub v2 v1).1
  | _ => v1

/-- The polynomial of R460, every operation rounded in the order shown. -/
def State.polynomial (s : State) (k : Nat) (xn tn : Nat) : Nat :=
  let c := fun i j => s.setWord k (10 + 3 * i + j)
  let p := fun i => (fadd (c i 0) (fmul tn (fadd (c i 1) (fmul tn (c i 2)).1).1).1).1
  [4, 3, 2, 1, 0].foldl (fun y i => (fadd (p i) (fmul xn y).1).1) (p 5)

/-- Whether x lies in min to max. -/
def inRange (x lo hi : Nat) : Bool := (flt lo x || feq lo x) && (flt x hi || feq x hi)

/-- Linearisation (R460, R461): VALUE and the flags it sets. [DEDUCED, log entry 63] -/
def State.linearise (s : State) (p : List Nat) (x t : Nat) : Nat × Nat :=
  let useT := pRefEn p
  let badIn := !f32Finite x || (useT && !f32Finite t)
  if ¬ pLinEn p then (if badIn then (f32Nan, flagLinFault) else (x, 0))
  else
    let w := s.setWord (pSet p)
    let tn := if useT then (fmul (fsub t (w 3)).1 (w 4)).1 else 0
    let xn := (fmul (fsub x (w 1)).1 (w 2)).1
    let y := s.polynomial (pSet p) xn tn
    let range := flagIf (!inRange x (w 5) (w 6) || (useT && !inRange t (w 7) (w 8))) flagLinRange
    if badIn || !f32Finite y then (f32Nan, range + flagLinFault) else (y, range)

/-- The calibration an engine waits to run starts once its round is answered (R465). -/
def State.calAfterRound (s : State) (e : Nat) : State := if s.is (calReg e).cl then s.startCal e else s

/-- A conversion ends with code `code` before clamping; `outA` and `outB` say that IEXA or IEXB was out of compliance (R453
to R463). -/
def State.conversion (s : State) (e : Nat) (r : AfeRound) (ph : AfePhase) (rest : List AfePhase) (code : Int)
    (outA outB : Bool) : State :=
  let p := if ph.isRef then r.refWords else r.words
  let profile := if ph.isRef then pRef r.words else r.profile
  let c := clampI (-8388607) 8388607 code
  let pinOf := fun (x : Option (Nat × Nat)) => match x with | some y => y.1 | none => 0
  let sw := r.crosspoint
  let aOut := outA && (match sw with | some x => x.a.isSome | none => false)
  let bOut := outB && (match sw with | some x => x.b.isSome | none => false)
  let s := if aOut then s.event AFECTL.page 0x3405 (profile + 256 * pinOf (sw.bind Crosspoint.a)) else s
  let s := if bOut then s.event AFECTL.page 0x3405 (profile + 256 * pinOf (sw.bind Crosspoint.b)) else s
  let now := orFlags (flagIf (c != code) flagOvr) (orFlags (flagIf (aOut || bOut) flagCompliance) (flagIf (s.is (ceUncal e)) flagUncal))
  let r := { r with flags := orFlags r.flags now, refFlags := if ph.isRef then orFlags r.refFlags now else r.refFlags, plan := rest }
  let v := s.voltage e (pGain p) c
  let more := match rest with | n :: _ => n.isRef == ph.isRef | [] => false
  if more then s.setEngine e { s.engine e with round := some { r with first := v } }
  else
    let x := if ph.second then s.quantity p r.first v else s.quantity p v v
    let raw := ofSigned 32 c
    if ph.isRef then
      let lin := s.linearise p x 0
      let flags := orFlags r.refFlags (orFlags lin.2 (flagIf (settleShort p) flagSettle))
      let s := s.storeResult ⟨lin.1, raw, r.seq, flags, 0, profile, s.trayTime⟩
      let bad := flagIf (Nat.land flags refUnfit != 0) flagRefBad
      s.setEngine e { s.engine e with round := some { r with t := lin.1, flags := orFlags r.flags bad } }
    else
      let lin := s.linearise p x r.t
      let result : AfeResult := ⟨lin.1, raw, r.seq, orFlags r.flags lin.2, 0, r.profile, s.trayTime⟩
      ((((s.storeResult result).answerPort r.port result).setEngine e { s.engine e with round := none }).holdRegs e).calAfterRound e

/-- A conversion of an engine's round ends. -/
def State.conversionDone (s : State) (e : Nat) (code : BitVec 32) (outA outB : Bool) : State :=
  match (s.engine e).round with
  | some r =>
    match r.plan with
    | ph :: rest => s.conversion e r ph rest (toSigned 32 code.toNat) outA outB
    | [] => s
  | none => s

/-! The clock and the end of service (R470). -/

/-- Both engines give up: rounds are abandoned, every port with a request is answered with the stored result, STALE and
ABANDONED, and calibrations stop (R470). [DEDUCED, log entry 63] -/
def State.abandon (s : State) : State :=
  let s := s.each (List.range 2) (fun s e =>
    let x := s.engine e
    let s := match x.round with | some r => s.answerStale r.port r.profile flagAbandoned | none => s
    let s := x.queue.foldl (fun s q => s.answerStale q.port q.profile flagAbandoned) s
    (((s.setEngine e {}).holdRegs e).set (calBusy e) 0).set (calReg e).cl 0)
  s

/-- CCLK.AFE_LOCK falls (R470). -/
def execAfeClockLost (s : State) : Out :=
  .next (if ¬ s.is CCLK.AFE_LOCK.cl then s
    else
      let s := s.set CCLK.AFE_LOCK.cl 0
      if s.enabled clachasel AFECTL.page then
        ((s.pageEvent clachasel AFECTL.page 10).event AFECTL.page 0x3403).abandon
      else s)

/-! Calibration in service (R671, R672). -/

/-- CMD14 AFE_CALIBRATE (R672): the engines named are calibrated under R465. -/
def execAfeCalibrate (s : State) : Out :=
  .next (s.serve 14 State.mgmtReady (fun s v =>
    (s.each ((List.range 2).filter (fun e => v.testBit e)) (fun s e => s.calibrate e 4), 2)))

/-- How far the highest value of TS28 to TS33 has moved since the last calibration of an engine, in 1/16 °C (R671). -/
def State.boardMove (s : State) (e : Nat) : Nat :=
  match s.get (AFEI.CAL_TEMP.clAt e), s.boardTemp with
  | 0, _ => 0
  | _, none => 0
  | v + 1, some t => (t - toSigned 16 v).natAbs

/-- MC1 calibrates an engine: 3,600 s after its last calibration, or after a move of more than 10 °C, and never while the
other engine calibrates (R671). -/
def execAfeCalPeriod (engine : Fin 2) (s : State) : Out :=
  let e := engine.val
  let moved := s.boardMove e
  let due := decide (3600 ≤ s.trayTime / 32768 - s.get (AFEI.LAST_CAL.clAt e)) || decide (160 < moved)
  .next (if s.mcRuns 1 ∧ s.is afeEnabled ∧ due ∧ ¬ s.is (calBusy (1 - e)) ∧ ¬ s.is (calReg (1 - e)).cl then s.calibrate e 2 else s)

end Sys2Proof.Machine
end

