-- ==== Sys2Proof/Machine/Codeword.lean ====
section
/-! DEFINITION. The codewords of a hasp link: RS(544,514), the scrambler, the deal to the lanes, the message with its CCB, tags and
words (R304, R306, R307, R350, "CCB layout" of spec/10_hasp_links.md, R404). -/

namespace Sys2Proof.Machine

/-! CRC-32C (Castagnoli). -/

/-- `f n`, written so that a kernel evaluates n before it applies f. -/
def forced {α : Type} (n : Nat) (f : Nat → α) : α :=
  match n with
  | 0 => f 0
  | k + 1 => f (k + 1)

/-- Bits of a CRC-32C step. -/
def crcBits : Nat → Nat → Nat
  | 0, c => c
  | n + 1, c => forced (Nat.xor (c / 2) (c % 2 * 0x82F63B78)) (crcBits n)

/-- One byte of a running CRC-32C. -/
def crcByte (c b : Nat) : Nat := crcBits 8 (Nat.xor c b)

/-- The `n` low bytes of a number, lowest first. -/
def bytesOf : Nat → Nat → List Nat
  | 0, _ => []
  | n + 1, v => v % 256 :: bytesOf n (v / 256)

/-- A running CRC-32C over bytes. -/
def crcBytes : List Nat → Nat → Nat
  | [], c => c
  | b :: t, c => forced (crcByte c b) (crcBytes t)

/-- CRC-32C of a list of bytes. -/
def crcOf (bytes : List Nat) : Nat := Nat.xor (crcBytes bytes 0xFFFFFFFF) 0xFFFFFFFF

/-! The symbols: GF(2^10) with the polynomial x^10 + x^3 + 1 of IEEE 802.3 clause 91. [PRESUMED, log entry 68] -/

/-- A symbol times x. -/
def gfDouble (a : Nat) : Nat := Nat.xor (2 * a) (a / 512 * 0x409)

/-- The low `n` bits of `b` times a symbol. -/
def gfMulBits : Nat → Nat → Nat → Nat
  | 0, _, _ => 0
  | n + 1, a, b => Nat.xor (b % 2 * a) (gfMulBits n (gfDouble a) (b / 2))

/-- The product of two symbols. -/
def gfMul (a b : Nat) : Nat := gfMulBits 10 a b

/-- A power of a symbol, by squaring; `k` bounds the bits of the exponent. -/
def gfPowBits : Nat → Nat → Nat → Nat
  | 0, _, _ => 1
  | k + 1, a, n => gfMul (if n % 2 = 1 then a else 1) (gfPowBits k (gfMul a a) (n / 2))

/-- A power of a symbol, with an exponent below 1,024. -/
def gfPow (a n : Nat) : Nat := gfPowBits 10 a n

/-- The inverse of a symbol that is not 0. -/
def gfInv (a : Nat) : Nat := gfPow a 1022

/-- A polynomial, lowest coefficient first, at a point. -/
def gfEval : List Nat → Nat → Nat
  | [], _ => 0
  | c :: t, x => Nat.xor c (gfMul x (gfEval t x))

/-- The sum of two polynomials. -/
def gfAdd : List Nat → List Nat → List Nat
  | [], q => q
  | p, [] => p
  | a :: p, b :: q => Nat.xor a b :: gfAdd p q

/-- The product of two polynomials. -/
def gfTimes : List Nat → List Nat → List Nat
  | [], _ => []
  | a :: p, q => gfAdd (q.map (gfMul a)) (0 :: gfTimes p q)

/-! RS(544,514) (R304). A polynomial of 30 coefficients is packed into a number, coefficient i in bits 10 i + 9 to 10 i. -/

/-- The generator, the product of x - a^j for j from 0 to 29, without its leading term, times each power of x that a symbol is made of,
packed. [PRESUMED, log entry 68] -/
def rsRows : List Nat := 
  [0x8FE282ECE68A0011B235468F99448417AD07BD81EB9F7DCD69C5262305881FCB927880D0A0B,
    0x1DC595D9CC16402360638D1F22AD082F1A9F7B02D57EEBBED2884CD60B103F9724F100A341F,
    0x3B8B2BB3982C8046C0C6187E455A105E352ED60DA8FD575DAD12D9AC12297F2E49E20044C3E,
    0x771647473959008D818C30BC1AB029BC2ADD8C1353FA3EBB5A25B348045BFE1C13E4098987C,
    0xEE2C8E8A7BB2010B27186138B544527A553B3C26A7B4FD56BD4B26102CB6FE7827C812114F8,
    0xDE599D34FF6642066E39C231FA88A4F4AA665C4C4D697A8D73960CB0596CFEF0DF9024229F0,
    0xBEF32A4DFECC840CD87B8663753548EB545CB8989A92753EE62E5960B2D8FFE13F0448453E0,
    0x7FE6D4BFFC9B480994F60EC67A6A90D4E8A955303764EA79C55CB2C161B9FDC2FE2C908A3C9,
    0xFF8D397BF134D0030DEC1D8CE4F529ABD1D28E606E8954D78AB92512C372F9C5EC7D201679B,
    0xFD5A62D7EB69A0061BD83B19C9EA5255E3A518C9DD12A9AB1D704AB582EDF1CBC8DE402CB3F]

/-- The rows that the bits of a symbol pick, added. -/
def rsPick : List Nat → Nat → Nat
  | [], _ => 0
  | r :: t, f => Nat.xor (f % 2 * r) (rsPick t (f / 2))

/-- One symbol more into the remainder. -/
def rsStep (r sym : Nat) : Nat := Nat.xor (r % 2 ^ 290 * 1024) (rsPick rsRows (Nat.xor (r / 2 ^ 290) sym))

/-- The 30 parity symbols of a message, packed: the remainder of the message times x^30. -/
def rsParity (msg : List Nat) : Nat := msg.foldl rsStep 0

/-- Numbers of 10 bits packed lowest first. -/
def packed : List Nat → Nat
  | [] => 0
  | a :: t => a + 1024 * packed t

/-- `n` numbers of 10 bits unpacked. -/
def unpacked : Nat → Nat → List Nat
  | 0, _ => []
  | n + 1, v => v % 1024 :: unpacked n (v / 1024)

/-- The codeword of a message: its 514 symbols, then the parity, highest coefficient first. -/
def rsEncode (msg : List Nat) : List Nat := msg ++ (unpacked 30 (rsParity msg)).reverse

/-- What a received word differs by from the codeword of its message, packed; 0 for a codeword. -/
def rsResidue (word : List Nat) : Nat := Nat.xor (rsParity (word.take 514)) (packed (word.drop 514).reverse)

/-- The Berlekamp-Massey iteration: the locator so far, the one before its last change, its length, steps since, the discrepancy then. -/
structure Locator where
  now : List Nat
  old : List Nat
  len : Nat
  since : Nat
  disc : Nat
  deriving DecidableEq, Repr

/-- One syndrome more. -/
def Locator.next (syn : List Nat) (x : Locator) (n : Nat) : Locator :=
  let d := (List.range (x.len + 1)).foldl (fun a i => Nat.xor a (gfMul (x.now.getD i 0) (syn.getD (n - i) 0))) 0
  if d = 0 then { x with since := x.since + 1 }
  else
    let c := gfMul d (gfInv x.disc)
    let now := gfAdd x.now (List.replicate x.since 0 ++ x.old.map (gfMul c))
    if 2 * x.len ≤ n then ⟨now, x.now, n + 1 - x.len, 1, d⟩ else { x with now := now, since := x.since + 1 }

/-- The odd coefficients of a polynomial, as its derivative has them. -/
def gfDerivative (p : List Nat) : List Nat := (List.range (p.length - 1)).map (fun i => if i % 2 = 0 then p.getD (i + 1) 0 else 0)

/-- A symbol and its products by powers of x, `n` in all. -/
def gfRun : Nat → Nat → List Nat
  | 0, _ => []
  | n + 1, a => a :: gfRun n (gfDouble a)

/-- The codeword nearest to a received word, and how many symbols it corrects; none where more than 15 are wrong. The inverse of
the place of the first symbol is a^480 (R304, R307). -/
def rsDecode (word : List Nat) : Option (List Nat × Nat) :=
  let residue := rsResidue word
  if residue = 0 then some (word, 0)
  else
    let rem := unpacked 30 residue
    let syn := (List.range 30).map (fun j => gfEval rem (gfPow 2 j))
    let x := (List.range 30).foldl (Locator.next syn) ⟨[1], [1], 0, 1, 1⟩
    let omega := (gfTimes syn x.now).take 30
    let slope := gfDerivative x.now
    let fixed := (gfRun 544 (gfPow 2 480)).map (fun a =>
      if gfEval x.now a ≠ 0 then 0 else gfMul (gfInv a) (gfMul (gfEval omega a) (gfInv (gfEval slope a))))
    let out := List.zipWith Nat.xor word fixed
    if x.len ≤ 15 ∧ (fixed.filter (· != 0)).length = x.len ∧ rsResidue out = 0 then some (out, x.len) else none

/-! The scrambler x^58 + x^39 + 1 (R304): bits in wire order from bit 0 of a number; `h` holds the last 58 bits, the latest in bit 57. -/

/-- Take the scrambling off `n` bits, with the bits the next ones need. -/
def descramble (h n v : Nat) : Nat × Nat :=
  let x := h + v * 2 ^ 58
  (Nat.xor (Nat.xor (x / 2 ^ 58) (x / 2 ^ 19)) x % 2 ^ n, x / 2 ^ n % 2 ^ 58)

/-- Scramble 39 bits at a time, `k` times. -/
def scrambleBy : Nat → Nat → Nat → Nat × Nat
  | 0, h, _ => (0, h)
  | k + 1, h, v =>
    let c := Nat.xor (Nat.xor v (h / 2 ^ 19)) h % 2 ^ 39
    let r := scrambleBy k ((h + c * 2 ^ 58) / 2 ^ 39) (v / 2 ^ 39)
    (c + 2 ^ 39 * r.1, r.2)

/-- Scramble the 5,140 bits of a message. -/
def scramble (h v : Nat) : Nat × Nat :=
  let a := scrambleBy 131 h v
  let c := Nat.xor (Nat.xor (v / 2 ^ 5109) (a.2 / 2 ^ 19)) a.2 % 2 ^ 31
  (a.1 + c * 2 ^ 5109, (a.2 + c * 2 ^ 58) / 2 ^ 31)

/-- The symbols of a codeword as the two lanes carry them: even ones on lane 0 (R304). -/
def dealt (symbols : List Nat) : List Nat × List Nat :=
  match symbols with
  | a :: b :: t => let r := dealt t; (a :: r.1, b :: r.2)
  | l => (l, [])

/-- The symbols of two lanes in order. -/
def gathered : List Nat → List Nat → List Nat
  | a :: p, b :: q => a :: b :: gathered p q
  | p, _ => p

/-! The messages of a CCB ("CCB layout", R404). -/

/-- A message of a CCB. -/
inductive LinkMsg where
  | ident (i : Ident)
  | identOk
  | refuse (code : BitVec 8)
  | delayReq (stamp : BitVec 64)
  | delayRsp (stamp : BitVec 64) (turnaround : BitVec 32)
  | beatInfo (depth : BitVec 8) (parent : Bool)
  | ready (k : BitVec 32)
  | release (k : BitVec 32) (beat : BitVec 56)
  | faultFwd (fragment : Fin 4) (seq : BitVec 6) (words : List (BitVec 32))
  | undefined
  deriving DecidableEq, Repr

/-- MSG_TYPE and MSG_BODY of a message, the body as a number of 23 bytes. [DEDUCED, log entry 68] -/
def LinkMsg.form : LinkMsg → Nat × Nat
  | .ident i => (1, i.tag.toNat + 2 ^ 64 * (i.tray.toNat + 2 ^ 64 * (i.die.toNat + 256 * (i.link.toNat + 256 * (i.reach.toNat +
      256 * (i.member.toNat + 256 * i.version.toNat))))))
  | .identOk => (2, 0)
  | .refuse code => (3, code.toNat)
  | .delayReq stamp => (4, stamp.toNat)
  | .delayRsp stamp turnaround => (5, stamp.toNat + 2 ^ 64 * turnaround.toNat)
  | .beatInfo depth parent => (6, depth.toNat + 256 * parent.toNat)
  | .ready k => (7, k.toNat)
  | .release k beat => (8, k.toNat + 2 ^ 32 * beat.toNat)
  | .faultFwd fragment seq words => (9, fragment.val + 4 * seq.toNat + 256 * words.foldr (fun w v => w.toNat + 2 ^ 32 * v) 0)
  | .undefined => (0, 0)

/-- The message that MSG_TYPE and MSG_BODY spell. [DEDUCED, log entry 68] -/
def linkMsg (type body : Nat) : LinkMsg :=
  let f (w lo : Nat) : BitVec w := BitVec.ofNat w (body / 2 ^ lo)
  match type with
  | 1 => .ident ⟨f 64 0, f 64 64, f 8 128, f 8 136, f 8 144, f 8 152, f 8 160⟩
  | 2 => .identOk
  | 3 => .refuse (f 8 0)
  | 4 => .delayReq (f 64 0)
  | 5 => .delayRsp (f 64 0) (f 32 64)
  | 6 => .beatInfo (f 8 0) (body.testBit 8)
  | 7 => .ready (f 32 0)
  | 8 => .release (f 32 0) (f 56 32)
  | 9 => .faultFwd (Fin.ofNat 4 body) (f 6 2) [f 32 8, f 32 40, f 32 72, f 32 104]
  | _ => .undefined

/-! The CCB. -/

/-- The beat marker of a CCB (R314): the beat, the index of its word 0, MARKER_PHASE, and STEPPED. -/
structure Marker where
  beat : BitVec 56
  word : Nat
  phase : BitVec 8
  stepped : Bool
  deriving DecidableEq, Repr

/-- ALT_CTL and ALT_VALUE (R350). -/
inductive AltCtl where
  | none
  | switch (beat : BitVec 32)
  | readmit (k : BitVec 32)
  deriving DecidableEq, Repr

/-- A codeword control block ("CCB layout", R350). A header is a stream ID and a chunk sequence; a NAK a beat and a slot. -/
structure Ccb where
  marker : Option Marker := none
  linkDown : Bool := false
  fenced : Bool := false
  isolating : Bool := false
  refusing : Bool := false
  locked : Bool := false
  cwSeq : Nat := 0
  hdrA : Nat × Nat := (0xFFFF, 0)
  hdrB : Nat × Nat := (0xFFFF, 0)
  credits : Nat := 0
  nak : Option (BitVec 8 × Fin 8) := none
  alt : AltCtl := .none
  msg : Option LinkMsg := none
  deriving DecidableEq, Repr

/-- Fields of so many bytes each, laid one after another. -/
def laid : List (Nat × Nat) → Nat
  | [] => 0
  | (n, v) :: t => v % 256 ^ n + 256 ^ n * laid t

/-- Bytes 0 to 59 of a CCB as a number. -/
def Ccb.form (c : Ccb) : Nat :=
  let flags := c.marker.isSome.toNat + 2 * c.msg.isSome.toNat + 4 * c.linkDown.toNat + 8 * c.fenced.toNat + 16 * c.isolating.toNat +
    32 * c.refusing.toNat + 64 * c.locked.toNat + 128 * (match c.marker with | some m => m.stepped.toNat | none => 0)
  let mark : Nat × Nat × Nat := match c.marker with
    | some m => (m.word, m.phase.toNat, m.beat.toNat)
    | none => (0, 0, 0)
  let nak : Nat × Nat := match c.nak with
    | some n => (128 + n.2.val, n.1.toNat)
    | none => (0, 0)
  let alt : Nat × Nat := match c.alt with
    | .none => (0, 0)
    | .switch beat => (1, beat.toNat)
    | .readmit k => (2, k.toNat)
  let msg := match c.msg with
    | some m => m.form
    | none => (0, 0)
  laid [(2, 0x5A3C), (1, flags), (1, mark.1), (1, mark.2.1), (7, mark.2.2), (4, c.cwSeq), (2, c.hdrA.1), (2, c.hdrA.2), (2, c.hdrB.1),
    (2, c.hdrB.2), (1, c.credits), (1, nak.1), (1, nak.2), (1, alt.1), (4, alt.2), (1, msg.1), (23, msg.2), (4, 0)]

/-- The CCB that 60 bytes spell. -/
def ccbOf (v : Nat) : Ccb :=
  let f (at_ n : Nat) : Nat := bitsOf v (8 * at_) (8 * n)
  let flag (i : Nat) : Bool := (f 2 1).testBit i
  { marker := if flag 0 then some ⟨BitVec.ofNat 56 (f 5 7), f 3 1, BitVec.ofNat 8 (f 4 1), flag 7⟩ else none
    linkDown := flag 2
    fenced := flag 3
    isolating := flag 4
    refusing := flag 5
    locked := flag 6
    cwSeq := f 12 4
    hdrA := (f 16 2, f 18 2)
    hdrB := (f 20 2, f 22 2)
    credits := f 24 1
    nak := if (f 25 1).testBit 7 then some (BitVec.ofNat 8 (f 26 1), Fin.ofNat 8 (f 25 1)) else none
    alt := match f 27 1 with
      | 1 => .switch (BitVec.ofNat 32 (f 28 4))
      | 2 => .readmit (BitVec.ofNat 32 (f 28 4))
      | _ => .none
    msg := if flag 1 then some (linkMsg (f 32 1) (f 33 23)) else none }

/-! Word tags and the message (R304, R306). -/

/-- The tag of a slot word (R306). -/
def wordTag (word slot beat : Nat) : Nat := word + 16 * slot + 128 * (beat % 8) + 1024

/-- The 17 tags and words of a message as bytes, each pair 34 of them. -/
def wordsForm : List (Nat × Nat) → Nat
  | [] => 0
  | (tag, w) :: t => tag + 65536 * w + 2 ^ 272 * wordsForm t

/-- `n` pairs of tag and word. -/
def pairsOf : Nat → Nat → List (Nat × Nat)
  | 0, _ => []
  | n + 1, v => (v % 65536, v / 65536 % 2 ^ 256) :: pairsOf n (v / 2 ^ 272)

/-- CRC of a CCB and its words: over bytes 0 to 59 and every tag and word. -/
def ccbCrc (ccb words : Nat) : Nat := crcOf (bytesOf 60 ccb ++ bytesOf 578 words)

/-- The message of a codeword: CCB, 17 tags and words, four bits of 0 (R304). -/
def messageOf (c : Ccb) (words : List (Nat × Nat)) : Nat :=
  let w := wordsForm words
  c.form + 2 ^ 480 * ccbCrc c.form w + 2 ^ 512 * w

/-- The symbols sent for a message, and the scrambler's state after it. -/
def codewordOf (h : Nat) (message : Nat) : List Nat × Nat :=
  let r := scramble h message
  (rsEncode (unpacked 514 r.1), r.2)

/-- What a received codeword decodes to (R307): uncorrectable, a CCB whose CRC fails, or a CCB and 17 words; with the symbols corrected. -/
inductive Decoded where
  | uncorrectable
  | badCrc
  | good (corrected : Nat) (ccb : Ccb) (words : List (Nat × Nat))
  deriving DecidableEq, Repr

/-- Decode a received codeword, with the descrambler's state after it. A word that is uncorrectable passes through it as it came. -/
def decodeCodeword (h : Nat) (symbols : List Nat) : Decoded × Nat :=
  match rsDecode symbols with
  | none => (.uncorrectable, (descramble h 5140 (packed (symbols.take 514))).2)
  | some r =>
    let d := descramble h 5140 (packed (r.1.take 514))
    let ccb := d.1 % 2 ^ 480
    let words := d.1 / 2 ^ 512 % 2 ^ 4624
    (if ccbCrc ccb words = d.1 / 2 ^ 480 % 2 ^ 32 then .good r.2 (ccbOf ccb) (pairsOf 17 words) else .badCrc, d.2)

end Sys2Proof.Machine
end

