-- ==== Sys2Proof/Machine/Memory.lean ====
section
/-! DEFINITION. Deep memory as its agents reach it: windows, error correction, fault records and the rings that carry them,
and the heap (spec/09_memory.md, R402 to R405 of spec/12_context_runs.md, R34 of spec/01_machine.md). -/

namespace Sys2Proof.Machine

namespace MEMI
/-- Fault records of the die dropped since its last kind 5 record (R405). -/
def FWD_SINCE : Reg := ireg 0x130 32 0
/-- Fault records dropped at die 0's ring since its last kind 5 record (R405). -/
def FQ_SINCE : Reg := ireg 0x131 32 0
/-- The next 256-byte granule the scrubber reads of stack k (R271). -/
def SCRUB : Reg := iarr 0x132 27 0 4
/-- The heap lists were built, or are being built, in this context (R284). -/
def BUILT : Reg := ireg 0x136 1 0
/-- SEQ of the fault record that MFAULT copies (R282). -/
def COPY_SEQ : Reg := ireg 0x137 16 0
end MEMI

/-! Runs that a section carries (R400). -/

/-- Every run carried takes a status, where it is higher than the one it has. -/
def State.markCarried (s : State) (d status : Nat) : State :=
  s.onDie d (fun x => { x with runs := x.runs.map (fun e =>
    (e.1, if e.2.state = .carried then { e.2 with status := max e.2.status status } else e.2)) })

/-- RUN_TAG of the oldest run carried, or 0xFFFF_FFFF (R403). -/
def State.oldestCarried (s : State) (d : Nat) : Nat :=
  let carried := (s.die d).runs.filter (fun e => e.2.state == .carried)
  match carried.foldl (fun (b : Option Run) e =>
      match b with
      | some r => if r.seqNo ≤ e.2.seqNo then some r else some e.2
      | none => some e.2) none with
  | some r => r.tag
  | none => 0xFFFFFFFF

/-! Fault records (R402 to R405). -/

/-- The header of a fault record of a die; its record count goes up (R403). -/
def State.faultHeader (s : State) (d kind : Nat) : List Nat × State :=
  ([kind + 65536 * d + 16777216 * s.get (CTX.STATE.on d), s.get (CTX.CTX_NUM.on d) + 65536 * s.get (FAULT.REC_SEQ.on d),
    s.get (BEAT.BEAT_LO.on d), s.get (BEAT.BEAT_HI.on d), s.oldestCarried d, s.get (HMBX.SYNC_NOW.on d),
    s.get (ARRAY.ACTIVE_KEY.on d) + 4096 * s.get (ARRAY.FORM.on d), 0], s.wrap (FAULT.REC_SEQ.on d))

/-- Records in the tray fault ring. -/
def State.faultsHeld (s : State) : Nat :=
  (s.get (FAULT.FQ_PROD.on 0) + 65536 - s.get (FAULT.FQ_CONS.on 0)) % 65536

/-- Put a record at FQ_PROD (R402). -/
def State.putFault (s : State) (rec_ : List Nat) : State :=
  let base := s.pair (FAULT.FQ_BASE_LO.on 0) (FAULT.FQ_BASE_HI.on 0)
  let i := s.get (FAULT.FQ_PROD.on 0) % 2 ^ s.get (FAULT.FQ_LOG2.on 0)
  ((s.storeWords 0 (base + 64 * i) rec_).wrap (FAULT.FQ_PROD.on 0)).pageEvent 0 FAULT.page 8

/-- A kind 5 record carries the count of records lost since the last (R403, R405). -/
def State.lostRecord (s : State) (d lost : Nat) : List Nat × State :=
  let h := s.faultHeader d 5
  (h.1 ++ [lost, 0, 0, 0, 0, 0, 0, 0], h.2)

/-- A record, which `make` gives with its SEQ, reaches the tray fault ring: written, after a kind 5 record where some were lost, or
dropped where the ring is full or die 0 has no context open (R402, R405). [DEDUCED, log entry 46] -/
def State.ringFault (s : State) (make : State → List Nat × State) : State :=
  let lost := s.get (MEMI.FQ_SINCE.on 0)
  let need := if lost = 0 then 1 else 2
  if s.get (CTX.STATE.on 0) = 0 ∨ 2 ^ s.get (FAULT.FQ_LOG2.on 0) < s.faultsHeld + need then
    ((make s).2.count (FAULT.FQ_LOST.on 0)).count (MEMI.FQ_SINCE.on 0)
  else
    let s := if lost = 0 then s else ((s.lostRecord 0 lost).2.putFault (s.lostRecord 0 lost).1).set (MEMI.FQ_SINCE.on 0) 0
    (make s).2.putFault (make s).1

/-- FWD_FILL follows FWDQ. -/
def State.fwdFill (s : State) (d : Nat) : State := s.set (FAULT.FWD_FILL.on d) (s.die d).fwdq.length

/-- A record takes its place in FWDQ. -/
def State.putFwd (s : State) (d : Nat) (rec_ : List Nat) : State :=
  (s.onDie d (fun x => { x with fwdq := x.fwdq ++ [rec_] })).fwdFill d

/-- A record of dies 1 to 7, which `make` gives with its SEQ, waits to be forwarded, after a kind 5 record where some were lost, or is
dropped where FWDQ is full (R405). -/
def State.queueFault (s : State) (d : Nat) (make : State → List Nat × State) : State :=
  let lost := s.get (MEMI.FWD_SINCE.on d)
  let need := if lost = 0 then 1 else 2
  if 64 < (s.die d).fwdq.length + need then ((make s).2.count (FAULT.FWD_LOST.on d)).count (MEMI.FWD_SINCE.on d)
  else
    let s := if lost = 0 then s else ((s.lostRecord d lost).2.putFwd d (s.lostRecord d lost).1).set (MEMI.FWD_SINCE.on d) 0
    (make s).2.putFwd d (make s).1

/-- A die writes a fault record: its header, and the body of eight words (R403, R404). [DEDUCED, log entry 45] -/
def State.faultRecord (s : State) (d kind : Nat) (body : List Nat) : State :=
  let make (s : State) : List Nat × State := ((s.faultHeader d kind).1 ++ body, (s.faultHeader d kind).2)
  if d = 0 then s.ringFault make else s.queueFault d make

/-- SEQ of the fault record a die wrote last, or dropped (R403). -/
def State.lastFaultSeq (s : State) (d : Nat) : Nat := (s.get (FAULT.REC_SEQ.on d) + 65535) % 65536

/-- A memory fault: MFAULT counts it, keeps the first, and a record of kind 1 is written (R282). -/
def State.memFault (s : State) (d code kind acc index addr len : Nat) : State :=
  let body := [code + 65536 * (kind % 256) + 16777216 * acc, index + 65536 * s.get (ARRAY.ACTIVE_KEY.on d),
    addr % 4294967296, addr / 4294967296, len % 4294967296, s.get (ARRAY.SECTION_CYCLE.on d), 0, 0]
  let valid := s.is (MFAULT.VALID.on d)
  let s := s.count (MFAULT.TOTAL.on d)
  let s := if valid then s
    else
      let s := s.each (List.range 8) (fun s i => s.set (MFAULT.RECORD.at d i) (body.getD i 0))
      s.set (MFAULT.VALID.on d) 1
  let s := (s.pageEvent d MFAULT.page 8).faultRecord d 1 body
  if valid then s else s.set (MEMI.COPY_SEQ.on d) (s.lastFaultSeq d)

/-- Whether a record is the memory-fault record of a die with a SEQ (R403). -/
def isMemRecord (d seq : Nat) (w : List Nat) : Bool :=
  w.headD 0 % 65536 == 1 && w.headD 0 / 65536 % 256 == d && w.getD 1 0 / 65536 == seq

/-- A record with `n` added to its SUPPRESSED count (R282). -/
def addSuppressed (n : Nat) (w : List Nat) : List Nat := w.set 14 (min (w.getD 14 0 + n) 4294967295)

/-- Later faults of the same descriptor or stream add to MFAULT.TOTAL and to the SUPPRESSED count of its record, wherever the die still
holds it: in MFAULT, in FWDQ, or on die 0 in the fault ring, not yet consumed (R281, R282). [DEDUCED, log entry 45] -/
def State.memFaultAgain (s : State) (d seq : Nat) (n : Nat := 1) : State :=
  let s := s.count (MFAULT.TOTAL.on d) n
  let s := if s.is (MFAULT.VALID.on d) ∧ s.get (MEMI.COPY_SEQ.on d) = seq then s.count (MFAULT.RECORD.at d 6) n else s
  let s := s.onDie d (fun x => { x with fwdq := x.fwdq.map (fun w => if isMemRecord d seq w then addSuppressed n w else w) })
  if d ≠ 0 then s
  else
    s.each (List.range s.faultsHeld) (fun s i =>
      let a := s.pair (FAULT.FQ_BASE_LO.on 0) (FAULT.FQ_BASE_HI.on 0) + 64 * ((s.get (FAULT.FQ_CONS.on 0) + i) % 2 ^ s.get (FAULT.FQ_LOG2.on 0))
      let w := s.words 0 a 16
      if isMemRecord 0 seq w then s.storeWords 0 a (addSuppressed n w) else s)

/-! Windows (R278 to R280). -/

/-- The kind code of an agent (R279). -/
def agentKind (a : Agent) : Nat :=
  match a with
  | .warden k => k.val + 1
  | .gate _ => 3
  | .streamLocal _ => 4
  | .streamArrival _ _ => 5
  | .keys => 6
  | .scan => 7
  | .training => 8

/-- INDEX of an agent's fault record (R282). -/
def agentIndex (a : Agent) : Nat :=
  match a with
  | .gate k => k.val
  | .streamLocal id => id.toNat
  | .streamArrival id _ => id.toNat
  | _ => 0

/-- The source die of an agent (R282). -/
def agentSource (a : Agent) : Nat :=
  match a with
  | .streamArrival _ src => src.val
  | _ => 0

/-- Whether an agent needs X (R279). -/
def needsX (kind : Nat) : Bool := decide (3 ≤ kind ∧ kind ≤ 6)

/-- The first byte of a partition. -/
def State.partBase (s : State) (d p : Nat) : Nat := s.get (PART.BASE.at d p) * 65536

/-- The bytes of a partition. -/
def State.partSize (s : State) (d p : Nat) : Nat := s.get (PART.SIZE.at d p) * 65536

/-- Whether window `i` is enabled and contains all of `n` bytes at `a`. -/
def State.winHolds (s : State) (d i a n : Nat) : Bool :=
  s.is (WIN.EN.at d i) && decide (s.get (WIN.BASE.at d i) * 65536 ≤ a ∧ a + n ≤ (s.get (WIN.LIMIT.at d i) + 1) * 65536)

/-- Whether window `i` is enabled and contains some but not all of the bytes. -/
def State.winParts (s : State) (d i a n : Nat) : Bool :=
  s.is (WIN.EN.at d i) && !s.winHolds d i a n &&
    decide (a < (s.get (WIN.LIMIT.at d i) + 1) * 65536 ∧ s.get (WIN.BASE.at d i) * 65536 < a + n)

/-- Whether window `i` grants the rights an agent needs. -/
def State.winGrants (s : State) (d i kind : Nat) (write : Bool) : Bool :=
  (if write then s.is (WIN.W.at d i) else s.is (WIN.R.at d i)) && (!needsX kind || s.is (WIN.X.at d i))

/-- Whether an access of an agent is permitted (R279). -/
def State.permitted (s : State) (d kind : Nat) (write : Bool) (a n : Nat) : Bool :=
  if n = 0 ∨ 8 ≤ kind then true
  else if kind = 7 then decide (s.partBase d 4 ≤ a ∧ a + n ≤ s.partBase d 4 + s.partSize d 4)
  else (List.range 16).any (fun i => s.winHolds d i a n && s.winGrants d i kind write)

/-- ACCESS of a fault record (R282). [DEDUCED, log entry 46] -/
def State.accessBits (s : State) (d kind : Nat) (write : Bool) (a n : Nat) : Nat :=
  (if write then 2 else 1) + 4 * (needsX kind).toNat +
    8 * ((List.range 16).any (fun i => s.winParts d i a n)).toNat

/-- An access that is not permitted: event 0x1510 and a memory-fault record (R280). [DEDUCED, log entry 46] -/
def State.refuseAccess (s : State) (d kind index src : Nat) (write : Bool) (a n : Nat) : State :=
  (s.dieEvent d WIN.page 0x1510).memFault d 0x1510 kind (s.accessBits d kind write a n) index
    (a + 1099511627776 * src) n

/-! Error correction (R269 to R272). -/

/-- The stack of an address (R269). -/
def stackOf (a : Nat) : Nat := Nat.xor (bitsOf a 13 2) (bitsOf a 20 2)

/-- UE_k of a unit's stack counts up; too often within a second it is a die fault (R639). -/
def State.tallyUe (s : State) (d a : Nat) : State :=
  let k := stackOf a
  let times := s.clock :: ((aget (s.die d).ueTimes k).getD []).filter (fun t => s.clock < t + 1000000)
  let s := (s.count (HBM.UE.at d k)).onDie d (fun x => { x with ueTimes := aput x.ueTimes k times })
  if s.get (DFAULT.HBM_UE_LIMIT.on d) < times.length then s.dieFault d 4 else s

/-- A unit's uncorrectable error is counted and recorded, and its address latched (R272). [DEDUCED, log entry 46] -/
def State.countUe (s : State) (d a : Nat) : State :=
  ((s.dieEvent d HBM.page 0x1521).tallyUe d a).setPair (MERR.HBM_UE_ADDR_LO.on d) (MERR.HBM_UE_ADDR_HI.on d) a

/-- A unit's correctable error is counted (R272). -/
def State.countCe (s : State) (d a : Nat) : State := s.count (HBM.CE.at d (stackOf a))

/-- Whether unit `u` holds a byte of the range. -/
def unitIn (u a n : Nat) : Bool := decide (n ≠ 0 ∧ a < 32 * u + 32 ∧ 32 * u < a + n)

/-- Whether the range covers all of unit `u`. -/
def unitWhole (u a n : Nat) : Bool := decide (a ≤ 32 * u ∧ 32 * u + 32 ≤ a + n)

/-- The uncorrectable units that an access reads: those a read touches, and those a write touches in part (R270, R272). -/
def badUnits (ecc : Ecc) (write : Bool) (a n : Nat) : List Nat :=
  ecc.bad.filter (fun u => unitIn u a n && !(write && unitWhole u a n))

/-- What reading units in error does beside delivering data (R272). `one` leaves the fault record to the agent (R281). -/
def State.eccEffects (s : State) (d kind index src : Nat) (write : Bool) (a n : Nat) (ecc : Ecc) (one : Bool := false) :
    State :=
  let s := s.each (ecc.corrected.filter (fun u => unitIn u a n && !(write && unitWhole u a n))) (fun s u => s.countCe d (32 * u))
  s.each (badUnits ecc write a n) (fun s u =>
    let s := s.countUe d (32 * u)
    if one then s
    else s.memFault d 0x1521 kind (s.accessBits d kind write a n % 8) index (32 * u + 1099511627776 * src) n)

/-- The bytes a permitted read delivers: all ones in a unit with an uncorrectable error (R272). -/
def State.readBytes (s : State) (d a n : Nat) (bad : List Nat) : List Byte :=
  (List.range n).map (fun i => if bad.contains ((a + i) / 32) then 0xFF else s.byte (gaddr d (a + i)))

/-- Write bytes from a die-local address. -/
def State.writeBytes (s : State) (d a : Nat) : List Byte → State
  | [] => s
  | b :: t => (s.setByte (gaddr d a) b).writeBytes d (a + 1) t

/-- The bytes of the bad units of a write are written as all ones before its own (R270, R272). [DEDUCED, log entry 44] -/
def State.fillBad (s : State) (d : Nat) (bad : List Nat) : State :=
  s.each bad (fun s u => s.writeBytes d (32 * u) (List.replicate 32 0xFF))

/-- An access of an agent: refused, or performed with its errors corrected or counted (R270, R272, R280, R297). A read
delivers its bytes. -/
def State.access (s : State) (d kind index src a : Nat) (op : MemOp) (ecc : Ecc) : State × List Byte :=
  match op with
  | .read len =>
    let n := len.toNat
    if s.permitted d kind false a n then
      (s.eccEffects d kind index src false a n ecc, s.readBytes d a n (badUnits ecc false a n))
    else (s.refuseAccess d kind index src false a n, List.replicate n 0xFF)
  | .write data =>
    let n := data.length
    if s.permitted d kind true a n then
      (((s.eccEffects d kind index src true a n ecc).fillBad d (badUnits ecc true a n)).writeBytes d a data, [])
    else (s.refuseAccess d kind index src true a n, [])

/-- MEMORY_ACCESS (R279, R280). The scrubber and training are not checked. -/
def execMemoryAccess (die : DieNo) (agent : Agent) (address : BitVec 40) (op : MemOp) (ecc : Ecc) (s : State) : Out :=
  if s.inReset die.val then .next s
  else
    let r := s.access die.val (agentKind agent) (agentIndex agent) (agentSource agent) address.toNat op ecc
    .next { r.1 with answer := r.2 }

/-- The bytes of an access. -/
def opLength (op : MemOp) : Nat :=
  match op with
  | .read len => len.toNat
  | .write data => data.length

/-- Whether an access is a write. -/
def opWrites (op : MemOp) : Bool :=
  match op with
  | .read _ => false
  | .write _ => true

/-- A host BAR2 access: inside STAGE of the open context it reaches deep memory; otherwise it is refused with all ones or a
discard, event 0x1510 and, while a context is open, a fault record of kind 4 (R34, R44, R280, R403).
[DEDUCED, log entry 45] -/
def execBar2Access (die : DieNo) (offset : BitVec 64) (op : MemOp) (ecc : Ecc) (s : State) : Out :=
  let d := die.val
  let n := opLength op
  let ones := if opWrites op then [] else List.replicate n (0xFF : Byte)
  if s.inReset d then .next { s with answer := [] }
  else if s.get (CTX.STATE.on d) ≠ 0 ∧ offset.toNat + n ≤ s.partSize d 3 then
    let r := s.access d 8 0 0 (s.partBase d 3 + offset.toNat) op ⟨[], []⟩
    let a := s.partBase d 3 + offset.toNat
    let bad := badUnits ecc (opWrites op) a n
    let r := if bad = [] then r else
      match op with
      | .read _ => (r.1, s.readBytes d a n bad)
      | .write data => ((s.fillBad d bad).writeBytes d a data, [])
    .next { r.1.eccEffects d 0 0 0 (opWrites op) a n ecc with answer := r.2 }
  else
    let s := { s.dieEvent d WIN.page 0x1510 with answer := ones }
    .next (if s.get (CTX.STATE.on d) = 0 then s
      else s.faultRecord d 4 [offset.toNat % 4294967296, offset.toNat / 4294967296, n, (opWrites op).toNat, 0, 0, 0, 0])

/-! The stacks (R271). -/

/-- The address of granule `j` of stack `k`, in address order (R269, R271). -/
def scrubAddr (k j : Nat) : Nat := j / 32 * 32768 + Nat.xor k (bitsOf j 10 2) * 8192 + j % 32 * 256

/-- The granules of a stack. -/
def scrubGranules : Nat := 100663296

/-- The scrubber reads the next granule of a stack: corrected data is written back, an uncorrectable unit is counted and
recorded and never rewritten (R271, R272). [DEDUCED, log entry 46] -/
def execScrubRead (die : DieNo) (stack : Fin 4) (ecc : Ecc) (s : State) : Out :=
  let d := die.val
  let k := stack.val
  if s.inReset d ∨ ¬ s.is (HBM.TRAINED.at d k) then .next s
  else
    let j := s.get (MEMI.SCRUB.at d k)
    let a := scrubAddr k j
    let s := s.each (ecc.corrected.filter (fun u => unitIn u a 256)) (fun s u => s.countCe d (32 * u))
    let s := s.each (ecc.bad.filter (fun u => unitIn u a 256)) (fun s u => s.countUe d (32 * u))
    if j + 1 < scrubGranules then .next (s.set (MEMI.SCRUB.at d k) (j + 1))
    else .next ((s.set (MEMI.SCRUB.at d k) 0).count (HBM.SCRUB_PASSES.at d k))

/-- A refresh: it changes nothing an agent can see (R271). [DEDUCED, log entry 46] -/
def execRefresh (_die : DieNo) (_stack : Fin 4) (s : State) : Out := .next s

/-- The stack's temperature is read and the refresh interval chosen (R271). -/
def execStackTempRead (die : DieNo) (stack : Fin 4) (celsius : BitVec 8) (s : State) : Out :=
  let d := die.val
  let c := celsius.toNat
  if s.inReset d then .next s
  else .next ((s.set (HBM.TEMP.at d stack.val) c).set (HBM.TREFI.at d stack.val) (if c ≤ 85 then 0 else if c ≤ 95 then 1 else 2))

/-- A stack leaves the trained state: DFAULT.CAUSE.HBM (R639). -/
def execHbmStackUntrained (die : DieNo) (stack : Fin 4) (s : State) : Out :=
  if s.inReset die.val then .next s else .next ((s.set (HBM.TRAINED.at die.val stack.val) 0).dieFault die.val 4)

/-- Whether units `lo` to `hi` of 64 KiB lie wholly inside one committed partition. -/
def State.inPartition (s : State) (d lo hi : Nat) : Bool :=
  (List.range 6).any (fun p => decide (s.get (PART.BASE.at d p) ≤ lo ∧
    hi + 1 ≤ s.get (PART.BASE.at d p) + s.get (PART.SIZE.at d p)))

/-- A write that sets a window's EN, with the rights it carries: the rights are written while EN is 0, and EN is set if the
window is sound, else it stays 0 with CFG_MISMATCH (R69, R275, R278, R298). -/
def execWindowEnable (req : Requester) (die : DieNo) (window : Fin 16) (rights : BitVec 3) (s : State) : Out :=
  let d := die.val
  let k := window.val
  let v := rights.toNat + 2147483648
  .next (s.onWrite d WIN.page WIN.EN k req.val v (fun s =>
    if s.is (PART.CARVE_LOCKED.on d) then s.regFault d WIN.page WIN.EN k .lockViol req.val v
    else if s.is (WIN.EN.at d k) then s.regFault d WIN.page WIN.EN k .accessErr req.val v
    else
      let s := s.set (WIN.R.at d k) (rights.toNat % 2)
      let s := (s.set (WIN.W.at d k) (rights.toNat / 2 % 2)).set (WIN.X.at d k) (rights.toNat / 4)
      let lo := s.get (WIN.BASE.at d k)
      let hi := s.get (WIN.LIMIT.at d k)
      if lo ≤ hi ∧ s.inPartition d lo hi then s.set (WIN.EN.at d k) 1
      else s.regFault d WIN.page WIN.EN k .cfgMismatch req.val v))

/-! The heap (R283 to R294). -/

/-- The units of 64 KiB that the pools of the classes take together (R283). -/
def State.heapUnits (s : State) (d : Nat) : Nat :=
  ((List.range 9).map (fun n => s.get (HEAP.COUNT.at d n) * 2 ^ n)).foldl (· + ·) 0

/-- INIT: in OPEN, once a context, if the pools fit in HEAP (R284). [DEDUCED, log entry 47] -/
def execHeapInit (req : Requester) (die : DieNo) (s : State) : Out :=
  let d := die.val
  .next (s.onWrite d HEAP.page HEAP.INIT 0 req.val 1 (fun s =>
    if s.get (CTX.STATE.on d) ≠ 1 ∨ s.is (MEMI.BUILT.on d) then s.regFault d HEAP.page HEAP.INIT 0 .accessErr req.val 1
    else if s.get (PART.SIZE.at d 2) < s.heapUnits d ∨ (List.range 9).any (fun n => 65536 < s.get (HEAP.COUNT.at d n)) then
      s.regFault d HEAP.page HEAP.INIT 0 .cfgMismatch req.val 1
    else s.set (MEMI.BUILT.on d) 1))

/-- HEAP.FREE_n follows the free lists. -/
def State.heapRegs (s : State) (d : Nat) : State :=
  s.each (List.range 9) (fun s n => s.set (HEAP.FREE.at d n) ((aget (s.die d).heap n).getD []).length)

/-- The lists are built, block 0 at the top of each (R284). -/
def execHeapInitDone (die : DieNo) (s : State) : Out :=
  let d := die.val
  if s.inReset d ∨ ¬ s.is (MEMI.BUILT.on d) ∨ s.is (HEAP.INITED.on d) then .next s
  else
    let lists := (List.range 9).map (fun n => (n, List.range (s.get (HEAP.COUNT.at d n))))
    .next (((s.onDie d (fun x => { x with heap := lists, holders := [] })).set (HEAP.INITED.on d) 1).heapRegs d)

/-- What an ALLOC of a class finds: the top block, taken for the requester, or none (R284, R285, R289).
[DEDUCED, log entry 47] -/
def State.takeBlock (s : State) (d cls who : Nat) : State × Option Nat :=
  match (aget (s.die d).heap cls).getD [] with
  | [] => (s, none)
  | b :: rest =>
    ((s.onDie d (fun x => { x with heap := aput x.heap cls rest, holders := aput x.holders (cls * 65536 + b) (who + 1) })).heapRegs d,
      some b)

/-- A block returns to the top of its free list. [DEDUCED, log entry 47] -/
def State.giveBlock (s : State) (d cls b : Nat) : State :=
  (s.onDie d (fun x => { x with heap := aput x.heap cls (b :: (aget x.heap cls).getD []),
                                holders := adel x.holders (cls * 65536 + b) })).heapRegs d

/-- The blocks a core holds are returned, with event 0x2032 (R294, R651). -/
def State.releaseBlocks (s : State) (d core : Nat) : State :=
  let held := (s.die d).holders.filter (fun e => e.2 == core + 1)
  if held = [] then s
  else
    (s.each (held.map Prod.fst) (fun s k => s.giveBlock d (k / 65536) (k % 65536))).dieEvent d HEAP.page 0x2032 core
      held.length

/-- The handle of a block (R285). -/
def handleOf (cls b : Nat) : Nat := b + 65536 * cls + 2147483648

/-- Who holds the block a handle names: the requester number plus 1, 0 for none (R285). -/
def State.holderOf (s : State) (d h : Nat) : Nat :=
  if h / 1048576 = 2048 ∧ bitsOf h 16 4 ≤ 8 then (aget (s.die d).holders (h % 1048576)).getD 0 else 0

/-- A gate unit. -/
def State.gate (s : State) (d k : Nat) : Gate := (aget (s.die d).gates k).getD {}

/-- Replace a gate unit. -/
def State.setGate (s : State) (d k : Nat) (g : Gate) : State := s.onDie d (fun x => { x with gates := aput x.gates k g })

/-- A handle register of a gate unit (R286). -/
def gateHandle (g : Gate) (h : Nat) : Nat := (aget g.handles h).getD 0

/-- Load a handle register. -/
def State.setHandle (s : State) (d k h v : Nat) : State :=
  let g := s.gate d k
  s.setGate d k { g with handles := aputD g.handles h 0 v }

/-- A gate unit's token is refused: event 0x1511 and a fault record (R287). [DEDUCED, log entry 47] -/
def State.refuseToken (s : State) (d k : Nat) : State :=
  (s.dieEvent d HEAP.page 0x1511).memFault d 0x1511 3 0 k 0 0

/-- Serve a gate unit's request (R287, R290, R293). [DEDUCED, log entry 47] -/
def State.serveGate (s : State) (d : Nat) (r : HeapReq) : State :=
  let k := r.who - 16
  let cur := gateHandle (s.gate d k) r.reg
  let valid := cur.testBit 31
  if r.call = 15 then
    if valid ∧ s.holderOf d cur ≠ 0 then (s.giveBlock d (bitsOf cur 16 4) (cur % 65536)).setHandle d k r.reg 0
    else s.refuseToken d k
  else if 8 < r.call ∨ valid then s.refuseToken d k
  else
    let t := if s.is (HEAP.INITED.on d) then s.takeBlock d r.call r.who else (s, none)
    match t.2 with
    | some b => t.1.setHandle d k r.reg (handleOf r.call b)
    | none =>
      let s := (s.count (HEAP.NONE_COUNT.on d)).setHandle d k r.reg 0x40000000
      ((s.dieEvent d HEAP.page 0x1512).memFault d 0x1512 3 0 k 0 0).markCarried d 1

/-- The call window of a requester (R288). -/
def callWindow (who : Nat) : Nat := if who = 512 then 2 else who

/-- Serve a request of a call window (R288, R289, R293). [DEDUCED, log entry 47] -/
def State.serveCall (s : State) (d : Nat) (r : HeapReq) : State :=
  let result := HEAP.W_RESULT.at d (callWindow r.who)
  if r.call = 15 then
    let holder := s.holderOf d r.handle
    if holder ≠ 0 ∧ (holder = r.who + 1 ∨ r.who = 1) then
      (s.giveBlock d (bitsOf r.handle 16 4) (r.handle % 65536)).set result 0x80000000
    else (s.dieEvent d HEAP.page 0x1511).set result 0x10000000
  else if ¬ s.is (HEAP.INITED.on d) then (s.count (HEAP.NONE_COUNT.on d)).set result 0x20000000
  else if 8 < r.call then (s.dieEvent d HEAP.page 0x1511).set result 0x10000000
  else
    let t := s.takeBlock d r.call r.who
    match t.2 with
    | some b => t.1.set result (handleOf r.call b)
    | none => (s.count (HEAP.NONE_COUNT.on d)).set result 0x40000000

/-- Put a request in its place by requester number, behind those of the same number. -/
def insertReq (r : HeapReq) : List HeapReq → List HeapReq
  | [] => [r]
  | x :: t => if x.who ≤ r.who then x :: insertReq r t else r :: x :: t

/-- Requests in ascending requester number (R292). -/
def sortReqs (l : List HeapReq) : List HeapReq := l.foldl (fun acc r => insertReq r acc) []

/-- The allocator serves what has reached it: the FREEs, then the ALLOCs, each by requester number (R289, R292).
[DEDUCED, log entry 47] -/
def execAllocatorServe (die : DieNo) (s : State) : Out :=
  let d := die.val
  if s.inReset d then .next s
  else
    let q := (s.die d).heapQ
    let order := sortReqs (q.filter (fun r => r.call == 15)) ++ sortReqs (q.filter (fun r => r.call != 15))
    let s := s.onDie d (fun x => { x with heapQ := [] })
    .next (order.foldl (fun s r => if 16 ≤ r.who ∧ r.who < 272 then s.serveGate d r else s.serveCall d r) s)

/-- A request reaches the allocator. -/
def State.askHeap (s : State) (d : Nat) (r : HeapReq) : State := s.onDie d (fun x => { x with heapQ := x.heapQ ++ [r] })

/-- The requester a call window belongs to (R288). -/
def windowOwner (w : Nat) : Nat := if w = 2 then 512 else w

/-- ALLOC in a call window (R288). -/
def execAlloc (req : Requester) (die : DieNo) (window : Fin 3) (s : State) : Out :=
  let d := die.val
  let w := window.val
  .next (s.onWrite d HEAP.page HEAP.W_ALLOC w req.val 256 (fun s =>
    let c := s.get (HEAP.W_CLASS.at d w)
    s.askHeap d ⟨windowOwner w, 0, if c = 15 then 14 else c, 0⟩))

/-- FREE in a call window (R288). -/
def execFree (req : Requester) (die : DieNo) (window : Fin 3) (s : State) : Out :=
  let d := die.val
  let w := window.val
  .next (s.onWrite d HEAP.page HEAP.W_FREE w req.val 512 (fun s =>
    s.askHeap d ⟨windowOwner w, 0, 15, s.get (HEAP.W_ARG.at d w)⟩))

/-- The oldest token a gate unit has captured passes to the allocator, if it is of the kind asked for (R287). -/
def State.passToken (s : State) (d k : Nat) (free : Bool) : State :=
  let g := s.gate d k
  match g.tokens with
  | t :: rest =>
    if (t % 16 == 15) = free then
      (s.setGate d k { g with tokens := rest }).askHeap d ⟨16 + k, bitsOf t 4 2, t % 16, 0⟩
    else s
  | [] => s

/-- A gate unit's captured ALLOC token (R287). -/
def execGuAllocToken (die : DieNo) (gate : Fin 256) (s : State) : Out :=
  if s.inReset die.val then .next s else .next (s.passToken die.val gate.val false)

/-- A gate unit's captured FREE token (R287). -/
def execGuFreeToken (die : DieNo) (gate : Fin 256) (s : State) : Out :=
  if s.inReset die.val then .next s else .next (s.passToken die.val gate.val true)

/-! The host's side of the fault ring (R398, R402, R405). -/

/-- A write of FQ_CONS: one that would pass FQ_PROD is discarded with ACCESS_ERR, as for the completion ring (R398). -/
def execFqCons (req : Requester) (die : DieNo) (value : BitVec 16) (s : State) : Out :=
  let d := die.val
  .next (s.onWrite d FAULT.page FAULT.FQ_CONS 0 req.val value.toNat (fun s =>
    let cons := s.get (FAULT.FQ_CONS.on d)
    let held := (s.get (FAULT.FQ_PROD.on d) + 65536 - cons) % 65536
    if held < (value.toNat + 65536 - cons) % 65536 then
      s.regFault d FAULT.page FAULT.FQ_CONS 0 .accessErr req.val value.toNat
    else s.set (FAULT.FQ_CONS.on d) value.toNat))

/-- FWD_POP removes the oldest record of FWDQ (R405). -/
def execFwdPop (req : Requester) (die : DieNo) (s : State) : Out :=
  let d := die.val
  .next (s.onWrite d FAULT.page FAULT.FWD_POP 0 req.val 1 (fun s =>
    (s.onDie d (fun x => { x with fwdq := x.fwdq.drop 1 })).fwdFill d))

end Sys2Proof.Machine
end

