-- ==== Sys2Proof/Machine/Context.lean ====
section
/-! DEFINITION. What several commands share of the context, its runs and completions, and the scan engine's start
(spec/12_context_runs.md and spec/13_drain_scan.md). -/

namespace Sys2Proof.Machine

namespace CTXI
/-- CLOSE is being carried out (R388). -/
def CLOSING : Reg := ireg 0x138 1 0
/-- SERVE is loading the bay images (R384). -/
def BAYS_LOADING : Reg := ireg 0x139 1 0
/-- DRAIN_SYNC as DRAIN took it (R385). -/
def DRAIN_AT : Reg := ireg 0x13A 32 0
/-- The next hinge is the start of key 0, sync hinge 1 (R384). -/
def FIRST : Reg := ireg 0x13B 1 0
/-- Runs taken so far (R394, R396). -/
def RUN_ORDER : Reg := ireg 0x13C 32 0
/-- Completions of the die so far (R399). -/
def CQ_COUNT : Reg := ireg 0x13D 16 0
/-- At DRAIN_SYNC, the die closes once the output copy that runs has ended (R386). -/
def CLOSE_WAIT : Reg := ireg 0x13E 1 0
end CTXI

namespace SCANI
/-- What the scan that runs is: 0 none, 1 commanded out, 2 automatic capture, 3 the forced change's out, 4 commanded in,
5 the forced change's in. -/
def KIND : Reg := ireg 0x140 3 0
/-- Its slot. -/
def SLOT : Reg := ireg 0x141 8 0
/-- Its regions. -/
def REGIONS : Reg := ireg 0x142 5 0
/-- Its image is QUIESCED. -/
def QUIESCED : Reg := ireg 0x143 1 0
/-- An automatic capture follows the scan that runs (R424). -/
def CAPTURE_DUE : Reg := ireg 0x144 1 0
/-- The regions of a commanded scan-out that waits for its hinge, and its slot. -/
def WAIT_REGIONS : Reg := ireg 0x145 5 0
/-- The slot of a commanded scan-out that waits. -/
def WAIT_SLOT : Reg := ireg 0x146 8 0
/-- The array was stopped in the middle of a section (R423, R425). -/
def MIDWAY : Reg := ireg 0x171 1 0
end SCANI

/-- The array's phases (ARRAY.PHASE). -/
inductive Phase where
  | idle | inSection | quiesce | loadWait | swap | mailbox | releaseWait | stopped
  deriving DecidableEq, Repr

/-- The code of a phase. -/
def Phase.code : Phase → Nat
  | .idle => 0
  | .inSection => 1
  | .quiesce => 2
  | .loadWait => 3
  | .swap => 4
  | .mailbox => 5
  | .releaseWait => 6
  | .stopped => 7

/-- The array's phase. -/
def State.phaseIs (s : State) (d : Nat) (p : Phase) : Bool := s.get (ARRAY.PHASE.on d) == p.code

/-- Set the array's phase. -/
def State.setPhase (s : State) (d : Nat) (p : Phase) : State := s.set (ARRAY.PHASE.on d) p.code

/-! The completion ring (R398 to R401). -/

/-- HELD and CARRIED follow the run table. -/
def State.runRegs (s : State) (d : Nat) : State :=
  let runs := (s.die d).runs
  (s.set (RUNS.HELD.on d) runs.length).set (RUNS.CARRIED.on d) (runs.filter (fun e => e.2.state == .carried)).length

/-- A run-table entry. -/
def State.run (s : State) (d i : Nat) : Option Run := aget (s.die d).runs i

/-- Replace a run-table entry. -/
def State.setRun (s : State) (d i : Nat) (r : Run) : State :=
  (s.onDie d (fun x => { x with runs := aput x.runs i r })).runRegs d

/-- Records in the completion ring. -/
def State.completionsHeld (s : State) (d : Nat) : Nat :=
  (s.get (RING.CQ_PROD.on d) + 65536 - s.get (RING.CQ_CONS.on d)) % 65536

/-- The eight words of a run's completion record (R399). -/
def State.completionWords (s : State) (d : Nat) (r : Run) : List Nat :=
  [r.tag, r.status + 256 * r.arith + 65536 * r.detail + 16777216 * s.get (ARRAY.FORM.on d), r.entry, r.sections,
    r.cycles % 4294967296, r.cycles / 4294967296, r.freeze, s.get (CTXI.CQ_COUNT.on d)]

/-- Write the completion record of entry `i` and free the entry (R398, R401). -/
def State.putCompletion (s : State) (d i : Nat) : State :=
  match s.run d i with
  | none => s
  | some r =>
    let base := s.pair (RING.CQ_BASE_LO.on d) (RING.CQ_BASE_HI.on d)
    let slot := s.get (RING.CQ_PROD.on d) % 2 ^ s.get (RING.CQ_LOG2.on d)
    let s := (s.storeWords d (base + 32 * slot) (s.completionWords d r)).wrap (RING.CQ_PROD.on d)
    let s := s.wrap (CTXI.CQ_COUNT.on d)
    let s := if r.flags % 2 = 1 ∨ r.status ≠ 0 then s.pageEvent d RING.page 8 else s
    let s := if r.status = 0 then s.count (RUNS.RUNS_DONE.on d)
      else if r.status = 8 then s.count (RUNS.RUNS_REFUSED.on d) else s
    (s.onDie d (fun x => { x with runs := adel x.runs i })).runRegs d

/-- Records that wait are written while the ring has room, in the order their runs finished (R398, R401). -/
def State.drainRecords (s : State) (d : Nat) : State :=
  (s.die d).records.foldl (fun s i =>
    if (s.die d).records.head? = some i ∧ s.completionsHeld d < 2 ^ s.get (RING.CQ_LOG2.on d) then
      (s.onDie d (fun x => { x with records := x.records.drop 1 })).putCompletion d i
    else s) s

/-- A run finishes: the highest status that applies stands, DETAIL is kept for REFUSED and FAULTED alone (R400). -/
def State.finishRun (s : State) (d i status detail : Nat) : State :=
  match s.run d i with
  | none => s
  | some r =>
    let r := if r.status < status then { r with status := status, detail := if 7 ≤ status then detail else 0 } else r
    let s := s.setRun d i { r with state := .recordWait }
    (s.onDie d (fun x => { x with records := x.records ++ [i], copyIn := x.copyIn.filter (· != i),
                                  copyOut := x.copyOut.filter (· != i) })).drainRecords d

/-- A run is to end with a status: at once, or, where one of its copies is not over, when that copy ends (R400, R412).
[DEDUCED, log entry 49] -/
def State.endRun (s : State) (d i status detail : Nat) : State :=
  match s.run d i with
  | none => s
  | some r =>
    if r.state = .recordWait then s
    else if (s.die d).copyIn.contains i ∨ (s.die d).copyOut.contains i then
      if r.status < status then s.setRun d i { r with status := status, detail := if 7 ≤ status then detail else 0 }
      else s
    else s.finishRun d i status detail

/-! Context states (R382, R387, R414). -/

/-- The context takes a state: its event carries the context number, the old and the new state, and the cause (R382). -/
def State.toContext (s : State) (d new cause : Nat) : State :=
  let old := s.get (CTX.STATE.on d)
  let code := match new with | 0 => 0x2604 | 1 => 0x2601 | 2 => 0x2602 | _ => 0x2603
  let s := (s.set (CTX.STATE.on d) new).pageEvent d CTX.page 8
  s.dieEvent d CTX.page code (s.get (CTX.CTX_NUM.on d)) (old + 256 * new + 65536 * cause)

/-! The scan engine (R416, R422 to R424). -/

/-- The bytes of a region (R417). -/
def regionBytes (i : Nat) : Nat := [65536, 8388608, 17825792, 4194304, 196608].getD i 0

/-- Where a region begins in its slot (R417). -/
def regionAt (i : Nat) : Nat := [0x10000, 0x20000, 0x820000, 0x1920000, 0x1D20000].getD i 0

/-- The regions of a mask. -/
def regionsOf (mask : Nat) : List Nat := (List.range 5).filter (fun i => mask.testBit i)

/-- A scan starts: the array issues nothing while SCANNING reads 1 (R422). -/
def State.startScan (s : State) (d kind slot regions : Nat) (quiesced : Bool) : State :=
  let s := ((s.set (SCAN.SCANNING.on d) 1).set (SCANI.KIND.on d) kind).set (SCANI.SLOT.on d) slot
  (s.set (SCANI.REGIONS.on d) regions).put (SCANI.QUIESCED.on d) quiesced

/-- Whether the array stands at a hinge, or has nothing to run. -/
def State.atHinge (s : State) (d : Nat) : Bool := !s.phaseIs d .inSection && !s.phaseIs d .quiesce

/-- The automatic capture of a die that enters FAULTED, after a scan or a forced change that runs (R416, R424). -/
def State.autoCapture (s : State) (d : Nat) : State :=
  let slot := s.get (SCAN.CAPTURE_SLOT.on d)
  if ¬ s.is (SCAN.AUTO_CAPTURE.on d) then s
  else if slot = 0 ∨ s.get (SCAN.SLOTS.on d) ≤ slot then
    (s.set (SCAN.VERDICT.on d) 2).dieEvent d SCAN.page 0x1443
  else if s.bit (SCAN.VALID_MAP.on d) slot then (s.set (SCAN.VERDICT.on d) 10).dieEvent d SCAN.page 0x1443
  else if s.is (SCAN.SCANNING.on d) ∨ s.is (SCAN.FORCING.on d) then s.set (SCANI.CAPTURE_DUE.on d) 1
  else s.startScan d 2 slot 31 (s.atHinge d && !s.is (ARRAY.FROZEN.on d))

/-- A cause takes the context to FAULTED: no further key starts, every run that has not finished completes FAULTED, event
0x2603 and a kind 3 record are written, a scan-out that waits is discarded, requests the mailbox has accepted are
discarded, the automatic capture starts (R112, R387, R409, R414, R424, R436). -/
def State.contextFault (s : State) (d cause : Nat) : State :=
  let st := s.get (CTX.STATE.on d)
  if s.is (CTXI.CLOSING.on d) ∨ st = 0 ∨ st = 4 then s
  else
    let s := ((s.set (CTX.CAUSE.on d) cause).toContext d 4 cause).faultRecord d 3 [cause, 0, 0, 0, 0, 0, 0, 0]
    let s := (s.set (CTXI.BAYS_LOADING.on d) 0).set (CTXI.CLOSE_WAIT.on d) 0
    let s := s.each ((s.die d).runs.map Prod.fst) (fun s i => s.endRun d i 7 cause)
    let s := if s.is (SCAN.WAITING.on d) then
        ((s.set (SCAN.WAITING.on d) 0).set (SCAN.VERDICT.on d) 1)
      else s
    let s := (s.discardAccepted d).autoCapture d
    if s.atHinge d then s.setPhase d .stopped else s

end Sys2Proof.Machine
end

