-- ==== Sys2Proof/Machine/Tumbler.lean ====
section
/-! DEFINITION. The tumbler: what each slot of a micro-word does, when its results can be read, and what its sequencer does
(spec/06_tumbler.md), with the neighbour links and keyway taps it drives and captures (R205 to R214 of spec/07_keyway.md). -/

namespace Sys2Proof.Machine

/-! The tumbler and its word. -/

/-- The position of a tumbler: 64 row + column. -/
def posOf (t : Tumbler) : Nat := 64 * t.row.val + t.col.val

/-- A tumbler's state. -/
def State.tum (s : State) (d t : Nat) : Tum := (aget (s.die d).tums t).getD {}

/-- What TPROBE shows of a tumbler: the snapshot of its last hinge, apart from all it runs on (R198). -/
def Tum.probeOnly (x : Tum) : Tum :=
  { pFlags := x.pFlags, pHalted := x.pHalted, pAddr := x.pAddr, pL0 := x.pL0, pL0Start := x.pL0Start, pL1 := x.pL1, pL1Start := x.pL1Start }

/-- Only what TPROBE shows is kept of the tumblers. -/
def probesOnly (l : List (Nat × Tum)) : List (Nat × Tum) := (l.map (fun e => (e.1, e.2.probeOnly))).filter (fun e => e.2 != {})

/-- Replace a tumbler's state. -/
def State.setTum (s : State) (d t : Nat) (x : Tum) : State := s.onDie d (fun y => { y with tums := aput y.tums t x })

/-- The word of a key at an address of a tumbler's bank (R240). -/
def bankWord (key : Option Key) (t addr : Nat) : Nat :=
  match key with
  | none => 0
  | some k =>
    match (aget k.map t).bind (fun b => k.blocks[b]?) with
    | none => 0
    | some (first, words) => if addr < words then (aget k.code (first + addr)).getD 0 else 0

/-- The micro-word a tumbler issues: all-NOP once it is halted (R176, R182). -/
def State.uword (s : State) (d t : Nat) (x : Tum) : Nat := if x.halted then 0 else bankWord (s.die d).active t x.addr

/-- The slots of a micro-word that a command issues (R180). -/
inductive Slot where
  | mac | bay | vectorSend | vectorCapture | scalarSend | scalarCapture | scalar | control
  deriving DecidableEq, Repr

/-- The slots of a micro-word. -/
def Slot.all : List Slot := [.mac, .bay, .vectorSend, .vectorCapture, .scalarSend, .scalarCapture, .scalar, .control]

/-- The bit of a slot in `Tum.slots`. -/
def Slot.num : Slot → Nat
  | .mac => 0
  | .bay => 1
  | .vectorSend => 2
  | .vectorCapture => 3
  | .scalarSend => 4
  | .scalarCapture => 5
  | .scalar => 6
  | .control => 7

/-- The PAPPLY bit that guards a slot; CTL is never guarded (R183). -/
def Slot.guardBit : Slot → Option Nat
  | .mac => some 121
  | .scalar => some 120
  | .bay => some 119
  | .control => none
  | _ => some 118

/-- Whether the guard of a slot holds (R183). -/
def guardHolds (x : Tum) (w : Nat) (slot : Slot) : Bool :=
  match slot.guardBit with
  | none => true
  | some b => !w.testBit b || (x.preds.testBit (bitsOf w 122 3) != w.testBit 125)

/-- Whether a tumbler of the die issues words: a section runs, the clock enable is high, no scan runs, and the section's
cycles are not over (R176, R177, R252, R422). [DESIGN CHOICE, log entry 40] -/
def State.issues (s : State) (d : Nat) (x : Tum) : Bool :=
  !s.inReset d && s.phaseIs d .inSection && !s.is (ARRAY.FROZEN.on d) && !s.is (SCAN.SCANNING.on d) &&
    (match (s.die d).active with
     | some k => decide (x.cycle < k.cycles)
     | none => false)

/-- A slot of the word of this cycle issues, once: `op` says whether the word holds the operation, `act` is its effect on
the state, given the die, the position, the tumbler and the word. A slot whose guard is false issues nothing.
[DEDUCED, log entry 39] -/
def State.issue (s : State) (tb : Tumbler) (slot : Slot) (op : Nat → Bool) (act : State → Nat → Nat → Tum → Nat → State) :
    State :=
  let d := tb.die.val
  let t := posOf tb
  let x := s.tum d t
  let w := s.uword d t x
  if s.issues d x && !x.slots.testBit slot.num && op w then
    let x := { x with slots := withBit x.slots slot.num true }
    let s := s.setTum d t x
    if guardHolds x w slot then act s d t x w else s
  else s

/-- A slot whose effect is on the tumbler alone. -/
def State.issueTum (s : State) (tb : Tumbler) (slot : Slot) (op : Nat → Bool) (act : Tum → Nat → Tum) : State :=
  s.issue tb slot op (fun s d t x w => s.setTum d t (act x w))

/-! Registers and what is on its way to them (R197, R199). -/

/-- A vector register. -/
def Tum.v (x : Tum) (i : Nat) : Nat := (aget x.vec i).getD 0

/-- A scalar register. -/
def Tum.s (x : Tum) (i : Nat) : Nat := (aget x.scal i).getD 0

/-- A result that can be read `lat` cycles after its issue. [DEDUCED, log entry 39] -/
def Tum.later (x : Tum) (lat : Nat) (file : RegFile) (idx lo width value rank : Nat) : Tum :=
  { x with writes := x.writes ++ [⟨x.cycle + lat, file, idx, lo, width, value % 2 ^ width, rank⟩] }

/-- Sticky flags are set. -/
def Tum.flag (x : Tum) (bits : Nat) : Tum := { x with flags := Nat.lor x.flags bits }

/-- A value with `width` bits from `lo` replaced. -/
def withField (v lo width value : Nat) : Nat := v - bitsOf v lo width * 2 ^ lo + value % 2 ^ width * 2 ^ lo

/-- A write lands. P0 always reads 1. -/
def Tum.land (x : Tum) (w : RegWrite) : Tum :=
  match w.file with
  | .vec => { x with vec := aputD x.vec w.idx 0 (withField (x.v w.idx) w.lo w.width w.value) }
  | .scal => { x with scal := aputD x.scal w.idx 0 (withField (x.s w.idx) w.lo w.width w.value) }
  | .pred => if w.idx = 0 then x else { x with preds := withBit x.preds w.idx (w.value != 0) }
  | .row => { x with rows := aputD x.rows w.idx 0 w.value }

/-- Whether two writes reach one register. -/
def sameReg (a b : RegWrite) : Bool := a.file == b.file && a.idx == b.idx

/-- The write kept of those that reach one register in one cycle: the first in the order of R199. Where that order does not
say (two of one rank, or a control token, rank 9, against the first of the others), a free value chooses.
[DESIGN CHOICE, log entry 41] -/
def keptWrite (free : Nat) (l : List RegWrite) : Option RegWrite :=
  let top := l.foldl (fun m w => min m w.rank) 9
  let best := l.filter (fun w => w.rank == top || w.rank == 9)
  best[free % best.length]?

/-- The writes of one cycle land, one for each register; WC is set where two reach one register (R199).
[DESIGN CHOICE, log entry 41] -/
def landAll (free : Nat) : List RegWrite → List RegWrite → Tum → Tum
  | [], _, x => x
  | w :: rest, all, x =>
    let group := all.filter (sameReg w)
    let x :=
      if rest.any (sameReg w) then x
      else
        let x := if 1 < group.length then x.flag 16 else x
        match keptWrite free group with
        | some k => x.land k
        | none => x
    landAll free rest all x

/-- Every write due by a cycle lands. [DEDUCED, log entry 39] -/
def Tum.arrive (x : Tum) (free cycle : Nat) : Tum :=
  let due := x.writes.filter (fun w => w.due ≤ cycle)
  landAll free due due { x with writes := x.writes.filter (fun w => cycle < w.due) }

/-! MAC slot (R184, R185, R194 to R196). -/

/-- MOP, FMT, T, ROW, VA, GA, VB, GB, VD and ACCZ of a word (R180). -/
def mop (w : Nat) : Nat := bitsOf w 108 5
/-- FMT. -/
def fmtOf (w : Nat) : Nat := bitsOf w 105 3
/-- The cell of row `r`, column `c` of the tile the word names. -/
def cellOf (w r c : Nat) : Nat := 64 * bitsOf w 104 1 + 8 * r + c
/-- ROW. -/
def rowOf (w : Nat) : Nat := bitsOf w 101 3
/-- VA as the register holds it. -/
def srcA (x : Tum) (w : Nat) : Nat := x.v (bitsOf w 96 5)
/-- GA. -/
def groupA (w : Nat) : Nat := bitsOf w 94 2
/-- VB as the register holds it. -/
def srcB (x : Tum) (w : Nat) : Nat := x.v (bitsOf w 89 5)
/-- GB. -/
def groupB (w : Nat) : Nat := bitsOf w 87 2
/-- VD. -/
def destV (w : Nat) : Nat := bitsOf w 82 5
/-- ACCZ. -/
def accZero (w : Nat) : Bool := w.testBit 81

/-- Element `i` of `width` bits. -/
def elem (v width i : Nat) : Nat := bitsOf v (width * i) width

/-- A source element in a format of OUTER and MM4 (R185). -/
def srcElem (fmt : Nat) (b : Bool) (v : Nat) : FVal :=
  match fmt with
  | 0 => e4m3 v
  | 1 => if b then e5m2 v else e4m3 v
  | 2 => if b then e4m3 v else e5m2 v
  | 3 => e5m2 v
  | _ => bf16 v

/-- A cell plus products of element pairs, rounded or saturated once (R194). [DESIGN CHOICE, log entry 20] -/
def accumulate (fmt old : Nat) (pairs : List (Nat × Nat)) : Nat × Flags :=
  if fmt = 4 then
    satPattern 32 (pairs.foldl (fun sum p => sum + toSigned 8 p.1 * toSigned 8 p.2) (toSigned 32 old))
  else sumTerms (opNan (8 + fmt) (old :: pairs.flatMap (fun p => [p.1, p.2]))) ((f32 old).term :: pairs.map (fun p => mulTerm (srcElem fmt false p.1) (srcElem fmt true p.2)))

/-- A cell of a tile as OUTER and MM4 read it, 0 under ACCZ. -/
def Tum.cell (x : Tum) (w k : Nat) : Nat := if accZero w then 0 else (aget x.acc k).getD 0

/-- A cell is written: OUTER and MM4 read it in the next cycle, ACCRD and routes four cycles on (R197). -/
def Tum.putCell (x : Tum) (k v : Nat) : Tum := ({ x with acc := aputD x.acc k 0 v }).later 4 .row k 0 32 v 0

/-- Cells accumulate products: each with its element pairs. -/
def Tum.mac (x : Tum) (w : Nat) (cells : List (Nat × List (Nat × Nat))) : Tum :=
  cells.foldl (fun y c =>
    let r := accumulate (fmtOf w) (x.cell w c.1) c.2
    (y.putCell c.1 r.1).flag r.2.bits) x

/-- The pairs (i, j) below a bound. -/
def gridOf (n : Nat) : List (Nat × Nat) := (List.range n).flatMap (fun i => (List.range n).map (fun j => (i, j)))

/-- The cell of row `i`, column `j` of quadrant `q` (R184). -/
def quadCell (w q i j : Nat) : Nat := cellOf w (4 * (q / 2) + i) (4 * (q % 2) + j)

/-- OUTER (R184). -/
def execOuter (t : Tumbler) (s : State) : Out :=
  .next (s.issueTum t .mac (fun w => mop w == 1) (fun x w =>
    let a := elem (srcA x w) 64 (groupA w)
    let b := elem (srcB x w) 64 (groupB w)
    if fmtOf w = 5 then
      x.mac w ((gridOf 4).map (fun p => (quadCell w (rowOf w % 4) p.1 p.2, [(elem a 16 p.1, elem b 16 p.2)])))
    else x.mac w ((gridOf 8).map (fun p => (cellOf w p.1 p.2, [(elem a 8 p.1, elem b 8 p.2)])))))

/-- MM4 (R184). -/
def execMm4 (t : Tumbler) (s : State) : Out :=
  .next (s.issueTum t .mac (fun w => mop w == 2) (fun x w =>
    let a := elem (srcA x w) 128 (groupA w % 2)
    let b := elem (srcB x w) 128 (groupB w % 2)
    x.mac w ((gridOf 4).map (fun p =>
      (quadCell w (rowOf w % 4) p.1 p.2,
        (List.range 4).map (fun k => (elem a 8 (4 * p.1 + k), elem b 8 (4 * k + p.2))))))))

/-- Eight 32-bit lanes as one vector. -/
def lanes (f : Nat → Nat) : Nat := (List.range 8).foldl (fun v i => v + f i % 4294967296 * 2 ^ (32 * i)) 0

/-- A tile row as ACCRD and routes read it. -/
def Tum.tileRow (x : Tum) (tile r : Nat) : Nat := lanes (fun j => (aget x.rows (64 * tile + 8 * r + j)).getD 0)

/-- A MAC result for VD, readable three cycles on (R197). -/
def Tum.putV (x : Tum) (w lo width value : Nat) : Tum := x.later 3 .vec (destV w) lo width value 1

/-- ACCRD: VD takes row ROW of T (R184). -/
def execAccrd (t : Tumbler) (s : State) : Out :=
  .next (s.issueTum t .mac (fun w => mop w == 3) (fun x w =>
    x.putV w 0 256 (x.tileRow (bitsOf w 104 1) (rowOf w))))

/-- ACCWR: row ROW of T takes VA (R184). -/
def execAccwr (t : Tumbler) (s : State) : Out :=
  .next (s.issueTum t .mac (fun w => mop w == 4) (fun x w =>
    (List.range 8).foldl (fun y j => y.putCell (cellOf w (rowOf w) j) (elem (srcA x w) 32 j)) x))

/-- Conversions of several lanes, packed `width` bits apart, with the flags of all. -/
def packLanes (width : Nat) (f : Nat → Nat × Flags) : Nat × Flags :=
  (List.range 8).foldl (fun r i => (r.1 + (f i).1 * 2 ^ (width * i), r.2.or (f i).2)) (0, {})

/-- A lane converted for PACK8 (R185, R195). -/
def pack8Lane (fmt lane : Nat) : Nat × Flags :=
  match fmt with
  | 0 => toE4m3 lane
  | 1 => toE5m2 true lane
  | 2 => toE5m2 false lane
  | 4 => satPattern 8 (toSigned 32 lane)
  | _ => f32ToInt 8 lane

/-- PACK8: eight lanes of VA to bytes, into group GB of VD (R184). -/
def execPack8 (t : Tumbler) (s : State) : Out :=
  .next (s.issueTum t .mac (fun w => mop w == 5) (fun x w =>
    let r := packLanes 8 (fun i => pack8Lane (fmtOf w) (elem (srcA x w) 32 i))
    (x.putV w (64 * groupB w) 64 r.1).flag r.2.bits))

/-- PACK16: eight FP32 lanes of VA to BF16, into half GB[0] of VD (R184). -/
def execPack16 (t : Tumbler) (s : State) : Out :=
  .next (s.issueTum t .mac (fun w => mop w == 6) (fun x w =>
    let r := packLanes 16 (fun i => toBf16 (elem (srcA x w) 32 i))
    (x.putV w (128 * (groupB w % 2)) 128 r.1).flag r.2.bits))

/-- An element widened by UNPACK (R185, R195). -/
def unpackLane (fmt v i : Nat) (g : Nat) : Nat :=
  match fmt with
  | 0 => (e4m3 (elem v 8 (8 * g + i))).toF32
  | 1 => (e5m2 (elem v 8 (8 * g + i))).toF32
  | 4 => ofSigned 32 (toSigned 8 (elem v 8 (8 * g + i)))
  | _ => (bf16 (elem v 16 (8 * (g % 2) + i))).toF32

/-- UNPACK: eight elements of VA to lanes of VD (R184). -/
def execUnpack (t : Tumbler) (s : State) : Out :=
  .next (s.issueTum t .mac (fun w => mop w == 7) (fun x w =>
    x.putV w 0 256 (lanes (fun i => unpackLane (fmtOf w) (srcA x w) i (groupA w)))))

/-- A lane-by-lane operation: INT32 for FMT 4, FP32 otherwise (R184, R194). -/
def Tum.vectorOp (x : Tum) (w : Nat) (int : Int → Int → Int) (fp : Nat → Nat → Nat × Flags) : Tum :=
  let lane (i : Nat) : Nat × Flags :=
    let a := elem (srcA x w) 32 i
    let b := elem (srcB x w) 32 i
    if fmtOf w = 4 then satPattern 32 (int (toSigned 32 a) (toSigned 32 b)) else fp a b
  let r := packLanes 32 lane
  (x.putV w 0 256 r.1).flag r.2.bits

/-- VADD (R184). -/
def execVadd (t : Tumbler) (s : State) : Out :=
  .next (s.issueTum t .mac (fun w => mop w == 8) (fun x w => x.vectorOp w (fun a b => a + b) fadd))

/-- VSUB (R184). -/
def execVsub (t : Tumbler) (s : State) : Out :=
  .next (s.issueTum t .mac (fun w => mop w == 9) (fun x w => x.vectorOp w (fun a b => a - b) fsub))

/-- VMUL (R184). -/
def execVmul (t : Tumbler) (s : State) : Out :=
  .next (s.issueTum t .mac (fun w => mop w == 10) (fun x w => x.vectorOp w (fun a b => a * b) fmul))

/-- VMAX (R184). -/
def execVmax (t : Tumbler) (s : State) : Out :=
  .next (s.issueTum t .mac (fun w => mop w == 11) (fun x w => x.vectorOp w (fun a b => max a b) (fun a b => (fmaxmin true a b, {}))))

/-- VMIN (R184). -/
def execVmin (t : Tumbler) (s : State) : Out :=
  .next (s.issueTum t .mac (fun w => mop w == 12) (fun x w => x.vectorOp w (fun a b => min a b) (fun a b => (fmaxmin false a b, {}))))

/-- VMOV (R184). -/
def execVmov (t : Tumbler) (s : State) : Out :=
  .next (s.issueTum t .mac (fun w => mop w == 13) (fun x w => x.putV w 0 256 (srcA x w)))

/-! Bay slot (R186, R187, R265, R266). -/

/-- BOP. -/
def bop (w : Nat) : Nat := bitsOf w 78 3
/-- VR. -/
def bayReg (w : Nat) : Nat := bitsOf w 73 5
/-- SUB. -/
def baySub (w : Nat) : Nat := bitsOf w 71 2

/-- Lines of a bay. -/
def bayLines : Nat := 24576

/-- The line a bay operation addresses (R186). -/
def bayLine (x : Tum) (w : Nat) : Nat := x.s (bitsOf w 67 4) % 32768 + bitsOf w 57 10

/-- INC (R180): S[SB] goes up by 1 after the access. Only a word that makes a bay access comes here: with BOP NOP there is no access,
and INC does nothing. [DESIGN CHOICE, log entry 39] -/
def Tum.inc (x : Tum) (w : Nat) : Tum :=
  if w.testBit 56 then x.later 1 .scal (bitsOf w 67 4) 0 32 (x.s (bitsOf w 67 4) + 1) 3 else x

/-- A line of a bay. -/
def State.bayLine (s : State) (d t l : Nat) : Nat := (aget (s.die d).bays (t * bayLines + l)).getD 0

/-- Write a line of a bay. -/
def State.setBayLine (s : State) (d t l v : Nat) : State :=
  s.onDie d (fun x => { x with bays := aputD x.bays (t * bayLines + l) 0 (v % 2 ^ 128) })

/-- Words of a bay load with an uncorrectable error (R266, R299): each counts in BAY_UE; the tumbler and line are latched,
event 0x1531 and one fault record follow, whose KIND the spec does not give and is a free value; the runs carried take
MEM_ERROR. [DESIGN CHOICE, log entry 41] -/
def State.bayError (s : State) (d t l n len : Nat) : State :=
  if n = 0 then s
  else
    let s := ((s.count (MERR.BAY_UE.on d) n).set (MERR.BAY_LINE.on d) l).set (MERR.BAY_POS.on d) t
    ((s.dieEvent d MERR.page 0x1531).useFree.memFault d 0x1531 (s.free % 256) 1 0 (l + 65536 * t) len).markCarried d 1

/-- A bay load of the words of a mask: the value delivered, words in error as 0, and what the errors do (R266). -/
def State.bayRead (s : State) (d t l mask corrected bad len : Nat) : Nat × State :=
  let line := s.bayLine d t l
  let v := (List.range 4).foldl (fun v k =>
    if mask.testBit k && !bad.testBit k then v + elem line 32 k * 2 ^ (32 * k) else v) 0
  (v, (s.count (MERR.BAY_CE.on d) (popcount 4 (Nat.land mask corrected))).bayError d t l (popcount 4 (Nat.land mask bad)) len)

/-- BLD: half SUB[0] of V[VR] takes the line (R186, R187). -/
def execBld (t : Tumbler) (corrected bad : BitVec 4) (s : State) : Out :=
  .next (s.issue t .bay (fun w => bop w == 1) (fun s d p x w =>
    let l := bayLine x w
    let put (x : Tum) (v : Nat) : Tum := (x.later 4 .vec (bayReg w) (128 * (baySub w % 2)) 128 v 0).inc w
    if bayLines ≤ l then s.setTum d p ((put x 0).flag 8)
    else
      let r := s.bayRead d p l 15 corrected.toNat bad.toNat 16
      r.2.setTum d p (put x r.1)))

/-- BLDS: S[VR[3:0]] takes word SUB of the line (R186, R187). -/
def execBlds (t : Tumbler) (corrected bad : BitVec 4) (s : State) : Out :=
  .next (s.issue t .bay (fun w => bop w == 3) (fun s d p x w =>
    let l := bayLine x w
    let put (x : Tum) (v : Nat) : Tum := (x.later 4 .scal (bayReg w % 16) 0 32 v 0).inc w
    if bayLines ≤ l then s.setTum d p ((put x 0).flag 8)
    else
      let r := s.bayRead d p l (2 ^ baySub w) corrected.toNat bad.toNat 4
      r.2.setTum d p (put x (elem r.1 32 (baySub w)))))

/-- BST: the line takes half SUB[0] of V[VR] (R186, R187). -/
def execBst (t : Tumbler) (s : State) : Out :=
  .next (s.issue t .bay (fun w => bop w == 2) (fun s d p x w =>
    let l := bayLine x w
    if bayLines ≤ l then s.setTum d p ((x.inc w).flag 8)
    else (s.setBayLine d p l (elem (x.v (bayReg w)) 128 (baySub w % 2))).setTum d p (x.inc w)))

/-- BSTS: word SUB of the line takes S[VR[3:0]] (R186, R187). -/
def execBsts (t : Tumbler) (s : State) : Out :=
  .next (s.issue t .bay (fun w => bop w == 4) (fun s d p x w =>
    let l := bayLine x w
    if bayLines ≤ l then s.setTum d p ((x.inc w).flag 8)
    else
      let v := withField (s.bayLine d p l) (32 * baySub w) 32 (x.s (bayReg w % 16))
      (s.setBayLine d p l v).setTum d p (x.inc w)))

/-! Scalar slot (R192). -/

/-- SOP. -/
def sop (w : Nat) : Nat := bitsOf w 22 5
/-- SD. -/
def destS (w : Nat) : Nat := bitsOf w 18 4
/-- S[SA]. -/
def opA (x : Tum) (w : Nat) : Nat := x.s (bitsOf w 14 4)
/-- S[SB]. -/
def opB (x : Tum) (w : Nat) : Nat := x.s (bitsOf w 10 4)
/-- IMM, sign-extended. -/
def immOf (w : Nat) : Int := toSigned 14 (bitsOf w 0 14)

/-- A scalar operation whose result goes to Sd, readable `lat` cycles on (R197). -/
def State.scalarOp (s : State) (t : Tumbler) (op lat : Nat) (f : Tum → Nat → Nat × Flags) : State :=
  s.issueTum t .scalar (fun w => sop w == op) (fun x w =>
    let r := f x w
    (x.later lat .scal (destS w) 0 32 r.1 2).flag r.2.bits)

/-- A scalar operation whose result goes to Pd. -/
def State.predOp (s : State) (t : Tumbler) (op lat : Nat) (f : Tum → Nat → Bool) : State :=
  s.issueTum t .scalar (fun w => sop w == op) (fun x w => x.later lat .pred (destS w % 8) 0 1 (f x w).toNat 0)

/-- Pa. -/
def predA (x : Tum) (w : Nat) : Bool := x.preds.testBit (bitsOf w 14 3)
/-- Pb. -/
def predB (x : Tum) (w : Nat) : Bool := x.preds.testBit (bitsOf w 10 3)

/-- ADD (R192). -/
def execAdd (t : Tumbler) (s : State) : Out := .next (s.scalarOp t 1 1 (fun x w => (opA x w + opB x w, {})))

/-- SUB (R192). -/
def execSub (t : Tumbler) (s : State) : Out := .next (s.scalarOp t 3 1 (fun x w => (opA x w + (4294967296 - opB x w), {})))

/-- ADDI (R192). -/
def execAddi (t : Tumbler) (s : State) : Out := .next (s.scalarOp t 2 1 (fun x w => (ofSigned 32 ((opA x w : Int) + immOf w), {})))

/-- AND (R192). -/
def execAnd (t : Tumbler) (s : State) : Out := .next (s.scalarOp t 4 1 (fun x w => (Nat.land (opA x w) (opB x w), {})))

/-- OR (R192). -/
def execOr (t : Tumbler) (s : State) : Out := .next (s.scalarOp t 5 1 (fun x w => (Nat.lor (opA x w) (opB x w), {})))

/-- XOR (R192). -/
def execXor (t : Tumbler) (s : State) : Out := .next (s.scalarOp t 6 1 (fun x w => (Nat.xor (opA x w) (opB x w), {})))

/-- SHL (R192). -/
def execShl (t : Tumbler) (s : State) : Out := .next (s.scalarOp t 7 1 (fun x w => (opA x w * 2 ^ (opB x w % 32), {})))

/-- SHR (R192). -/
def execShr (t : Tumbler) (s : State) : Out := .next (s.scalarOp t 8 1 (fun x w => (opA x w / 2 ^ (opB x w % 32), {})))

/-- SRA (R192). -/
def execSra (t : Tumbler) (s : State) : Out := .next (s.scalarOp t 9 1 (fun x w => (ofSigned 32 (toSigned 32 (opA x w) / (2 ^ (opB x w % 32) : Nat)), {})))

/-- MOVI (R192). -/
def execMovi (t : Tumbler) (s : State) : Out := .next (s.scalarOp t 10 1 (fun _ w => (ofSigned 32 (immOf w), {})))

/-- ORI (R192). -/
def execOri (t : Tumbler) (s : State) : Out := .next (s.scalarOp t 11 1 (fun x w => (Nat.lor (opA x w) (bitsOf w 0 14), {})))

/-- SHLI (R192). -/
def execShli (t : Tumbler) (s : State) : Out := .next (s.scalarOp t 12 1 (fun x w => (opA x w * 2 ^ bitsOf w 0 5, {})))

/-- FADD (R192). -/
def execFadd (t : Tumbler) (s : State) : Out := .next (s.scalarOp t 13 2 (fun x w => fadd (opA x w) (opB x w)))

/-- FSUB (R192). -/
def execFsub (t : Tumbler) (s : State) : Out := .next (s.scalarOp t 14 2 (fun x w => fsub (opA x w) (opB x w)))

/-- ITOF (R192). -/
def execItof (t : Tumbler) (s : State) : Out := .next (s.scalarOp t 26 2 (fun x w => (intToF32 (toSigned 32 (opA x w)), {})))

/-- FTOI (R192). -/
def execFtoi (t : Tumbler) (s : State) : Out := .next (s.scalarOp t 27 2 (fun x w => f32ToInt 32 (opA x w)))

/-- CMPEQ (R192). -/
def execCmpeq (t : Tumbler) (s : State) : Out := .next (s.predOp t 16 1 (fun x w => opA x w == opB x w))

/-- CMPLT (R192). -/
def execCmplt (t : Tumbler) (s : State) : Out := .next (s.predOp t 17 1 (fun x w => decide (toSigned 32 (opA x w) < toSigned 32 (opB x w))))

/-- CMPLTU (R192). -/
def execCmpltu (t : Tumbler) (s : State) : Out := .next (s.predOp t 18 1 (fun x w => decide (opA x w < opB x w)))

/-- FCMPLT (R192). -/
def execFcmplt (t : Tumbler) (s : State) : Out := .next (s.predOp t 19 2 (fun x w => flt (opA x w) (opB x w)))

/-- FCMPEQ (R192). -/
def execFcmpeq (t : Tumbler) (s : State) : Out := .next (s.predOp t 20 2 (fun x w => feq (opA x w) (opB x w)))

/-- CMPEQI (R192). -/
def execCmpeqi (t : Tumbler) (s : State) : Out := .next (s.predOp t 21 1 (fun x w => opA x w == ofSigned 32 (immOf w)))

/-- PAND (R192). -/
def execPand (t : Tumbler) (s : State) : Out := .next (s.predOp t 22 1 (fun x w => predA x w && predB x w))

/-- POR (R192). -/
def execPor (t : Tumbler) (s : State) : Out := .next (s.predOp t 23 1 (fun x w => predA x w || predB x w))

/-- PNOT (R192). -/
def execPnot (t : Tumbler) (s : State) : Out := .next (s.predOp t 24 1 (fun x w => !predA x w))

/-- LOOPI: the counter takes this word's address + 1 and the count, after any LOOP_END of the same word (R192, R197, R200). -/
def execLoopi (t : Tumbler) (s : State) : Out :=
  .next (s.issueTum t .scalar (fun w => sop w == 0x19) (fun x w => { x with loopSet := 1 + 2 * (destS w % 2) + 4 * bitsOf w 0 14 }))

/-! The sequencer (R176, R182, R200). -/

/-- SEQ. -/
def seqOf (w : Nat) : Nat := bitsOf w 126 2

/-- A LOOPI of the word at an address takes effect on its counter; at address 2,047 the start, which has 11 bits, wraps to 0.
[DESIGN CHOICE, log entry 39] -/
def Tum.setLoop (x : Tum) (addr : Nat) : Tum :=
  let start := (addr + 1) % 2048
  let count := x.loopSet / 4
  if x.loopSet = 0 then x
  else if x.loopSet / 2 % 2 = 0 then { x with loopSet := 0, l0Start := start, l0Count := count }
  else { x with loopSet := 0, l1Start := start, l1Count := count }

/-- The tumbler goes to the next address; from 2,047 it halts. [DEDUCED, log entry 39] -/
def Tum.advance (x : Tum) : Tum := if x.addr = 2047 then { x with halted := true } else { x with addr := x.addr + 1 }

/-- Whether a word holds an operation in a slot (R180). -/
def holdsOp (w : Nat) : Slot → Bool
  | .mac => mop w != 0
  | .bay => bop w != 0
  | .vectorSend => bitsOf w 45 5 != 0
  | .vectorCapture => bitsOf w 42 3 != 0
  | .scalarSend => w.testBit 36
  | .scalarCapture => w.testBit 31
  | .scalar => sop w != 0
  | .control => bitsOf w 115 3 != 0

/-- Whether the whole micro-word has issued: every slot that holds an operation (R176). -/
def wholeWord (x : Tum) (w : Nat) : Bool := Slot.all.all (fun k => x.slots.testBit k.num || !holdsOp w k)

/-- The sequencer's act ends the tumbler's cycle, once the whole word has issued: `go` gives the next address from the counters as
they stood, then LOOPI takes effect, and the writes due in the new cycle land (R176). [DEDUCED, log entry 39] -/
def State.sequence (s : State) (tb : Tumbler) (op : Nat → Bool) (go : Tum → Nat → Tum) : State :=
  let d := tb.die.val
  let t := posOf tb
  let x := s.tum d t
  let w := s.uword d t x
  if s.issues d x && wholeWord x w && op w then
    let y := if x.halted then x else (go { x with lastAddr := x.addr } w).setLoop x.addr
    let z := ({ y with cycle := x.cycle + 1, slots := 0 }).arrive s.free (x.cycle + 1)
    let s := (s.useFree.setTum d t z).set (ARRAY.SECTION_CYCLE.on d) (max (s.get (ARRAY.SECTION_CYCLE.on d)) (x.cycle + 1))
    s.onDie d (fun y => { y with flights := y.flights.filter (fun f => f.gate || f.dst != t || x.cycle + 1 ≤ f.due) })
  else s

/-- NEXT; a halted tumbler goes on issuing the all-NOP word (R182). -/
def execNext (t : Tumbler) (s : State) : Out := .next (s.sequence t (fun w => seqOf w == 0) (fun x _ => x.advance))

/-- LOOP_END L0 or L1 (R182). [DEDUCED, log entry 39] -/
def execLoopEnd (t : Tumbler) (s : State) : Out :=
  .next (s.sequence t (fun w => seqOf w == 1 || seqOf w == 2) (fun x w =>
    if seqOf w = 1 then
      if x.l0Count = 0 then x.advance else { x with addr := x.l0Start, l0Count := x.l0Count - 1 }
    else if x.l1Count = 0 then x.advance
    else { x with addr := x.l1Start, l1Count := x.l1Count - 1 }))

/-- HALT (R182). -/
def execHalt (t : Tumbler) (s : State) : Out :=
  .next (s.sequence t (fun w => seqOf w == 3) (fun x _ => { x with halted := true }))

/-! Neighbour links and the keyway (R188 to R191, R205, R211, R214). -/

/-- The cycles a route takes (R214). -/
def routeLat (r : Route) : Nat :=
  let h := r.hops.length + r.srcGate.toNat + r.dstGate.toNat
  if r.net = 0 then 4 + 2 * h else 3 + h

/-- The tap of a network. -/
def netPort (net : Nat) : Port := match net with | 0 => .vector | 1 => .scalar | _ => .control

/-- The routes of the active key. -/
def State.routes (s : State) (d : Nat) : List Route := match (s.die d).active with | some k => k.routes | none => []

/-- A word goes onto its way. [DESIGN CHOICE, log entry 40] -/
def State.fly (s : State) (d : Nat) (f : Flight) : State := s.onDie d (fun x => { x with flights := x.flights ++ [f] })

/-- A word driven in cycle `n` onto a tap: it is presented at every destination of its route, or counted and discarded where
no route serves the tap (R211, R214). -/
def State.drive (s : State) (d net : Nat) (gate : Bool) (src n value : Nat) : State :=
  let served := (s.routes d).filter (fun r => r.net == net && r.srcGate == gate && r.src == src)
  if served = [] then s.count (KWAY.UNROUTED_DRIVES.on d)
  else served.foldl (fun s r => s.fly d ⟨r.dstGate, r.dst, netPort net, n + routeLat r, value⟩) s

/-- The word presented at an input in cycle `n`. [DESIGN CHOICE, log entry 40] -/
def State.presented (s : State) (d : Nat) (gate : Bool) (dst : Nat) (port : Port) (n : Nat) : Option Nat :=
  ((s.die d).flights.find? (fun f => f.gate == gate && f.dst == dst && f.port == port && f.due == n)).map Flight.value

/-- A capture from a tap that no route serves is counted (R211). -/
def State.captureCount (s : State) (d net : Nat) (gate : Bool) (dst : Nat) : State :=
  if (s.routes d).any (fun r => r.net == net && r.dstGate == gate && r.dst == dst) then s
  else s.count (KWAY.UNROUTED_CAPTURES.on d)

/-- A word sent from the tumbler at `t` on neighbour port `k` (0 N, 1 E, 2 S, 3 W) in cycle `n`: presented two cycles on at
the neighbour, or at the gate unit the edge faces (R188, R205, R206, R208, R242). -/
def State.sendNeighbour (s : State) (d t k n value : Nat) : State :=
  let r := t / 64
  let c := t % 64
  let f : Flight := match k with
    | 0 => if r = 0 then ⟨true, c, .north, n + 2, value⟩ else ⟨false, t - 64, .south, n + 2, value⟩
    | 1 => if c = 63 then ⟨true, 64 + r, .north, n + 2, value⟩ else ⟨false, t + 1, .west, n + 2, value⟩
    | 2 => if r = 63 then ⟨true, 128 + c, .north, n + 2, value⟩ else ⟨false, t + 64, .north, n + 2, value⟩
    | _ => if c = 0 then ⟨true, 192 + r, .north, n + 2, value⟩ else ⟨false, t - 1, .east, n + 2, value⟩
  s.fly d f

/-- The vector word OUTV names (R180). -/
def outWord (x : Tum) (w : Nat) : Nat :=
  let o := bitsOf w 50 6
  if o < 32 then x.v o else x.tileRow ((o - 32) / 8) (o % 8)

/-- The word goes out on every port of OMASK (R188). -/
def execVectorRouteSend (t : Tumbler) (s : State) : Out :=
  .next (s.issue t .vectorSend (fun w => bitsOf w 45 5 != 0) (fun s d p x w =>
    let s := s.each ((List.range 4).filter (fun k => w.testBit (45 + k))) (fun s k => s.sendNeighbour d p k x.cycle (outWord x w))
    if w.testBit 49 then s.drive d 0 false p x.cycle (outWord x w) else s))

/-- The port INSEL names. -/
def insel (w : Nat) : Port :=
  match bitsOf w 42 3 with
  | 1 => .north
  | 2 => .east
  | 3 => .south
  | 4 => .west
  | _ => .vector

/-- The word presented at the INSEL port is captured into V[IND]; from an undriven port, zeros (R189). -/
def execVectorRouteCapture (t : Tumbler) (s : State) : Out :=
  .next (s.issue t .vectorCapture (fun w => bitsOf w 42 3 != 0) (fun s d p x w =>
    let v := (s.presented d false p (insel w) x.cycle).getD 0
    let s := if insel w = .vector then s.captureCount d 0 false p else s
    s.setTum d p (x.later 1 .vec (bitsOf w 37 5) 0 256 v 2)))

/-- SOE drives S[SOR] with valid 1 (R190). -/
def execScalarRouteSend (t : Tumbler) (s : State) : Out :=
  .next (s.issue t .scalarSend (fun w => w.testBit 36) (fun s d p x w => s.drive d 1 false p x.cycle (x.s (bitsOf w 32 4))))

/-- SIE captures a valid word into S[SIR], and the valid bit into P5 (R190). -/
def execScalarRouteCapture (t : Tumbler) (s : State) : Out :=
  .next (s.issue t .scalarCapture (fun w => w.testBit 31) (fun s d p x w =>
    let got := s.presented d false p .scalar x.cycle
    let x := match got with
      | some v => x.later 1 .scal (bitsOf w 27 4) 0 32 v 1
      | none => x
    (s.captureCount d 1 false p).setTum d p (x.later 1 .pred 5 0 1 got.isSome.toNat 1)))

/-- CTL. -/
def ctlOf (w : Nat) : Nat := bitsOf w 115 3

/-- CTL 1 captures the predicate bit into P7 (R191). -/
def execCtlCapturePredicate (t : Tumbler) (s : State) : Out :=
  .next (s.issue t .control (fun w => ctlOf w == 1) (fun s d p x _ =>
    let v := (s.presented d false p .control x.cycle).getD 0
    (s.captureCount d 2 false p).setTum d p (x.later 1 .pred 7 0 1 (v / 256 % 2) 2)))

/-- CTL 2 drives P6 as the predicate bit (R191). -/
def execCtlDrivePredicate (t : Tumbler) (s : State) : Out :=
  .next (s.issue t .control (fun w => ctlOf w == 2) (fun s d p x _ =>
    s.drive d 2 false p x.cycle (256 * (x.preds.testBit 6).toNat)))

/-- CTL 3 captures the token into S15, zero-extended (R191). [DESIGN CHOICE, log entry 41] -/
def execCtlCaptureToken (t : Tumbler) (s : State) : Out :=
  .next (s.issue t .control (fun w => ctlOf w == 3) (fun s d p x _ =>
    let v := (s.presented d false p .control x.cycle).getD 0
    (s.captureCount d 2 false p).setTum d p (x.later 1 .scal 15 0 32 (v % 256) 9)))

/-- CTL 4 drives S15[7:0] as the token (R191). -/
def execCtlDriveToken (t : Tumbler) (s : State) : Out :=
  .next (s.issue t .control (fun w => ctlOf w == 4) (fun s d p x _ => s.drive d 2 false p x.cycle (x.s 15 % 256)))

end Sys2Proof.Machine
end

