-- ==== Sys2Proof/Machine/Keyring.lean ====
section
/-! DEFINITION. The keyring image, its check, and the loading of a key into the shadow (R209 to R216, R219 and R220 of
spec/07_keyway.md, R235 to R248 of spec/08_keys_hinges.md, R342, R344 and R361 of spec/11_streams.md). -/

namespace Sys2Proof.Machine

namespace ARRI
/-- The requester of a LOAD that waits for the TUMBLER test's end (R676). -/
def LOAD_REQ : Reg := ireg 0x175 10 0
/-- The load is complete and a run's copy withholds SHADOW_READY (R395, R396). -/
def LOADED : Reg := ireg 0x148 1 0
/-- The last load was refused and the shadow is empty (R246, R258). -/
def REFUSED : Reg := ireg 0x149 1 0
/-- The form whose key the running load reads (R648). -/
def LOAD_FORM : Reg := ireg 0x14A 4 0xF
/-- The active bank: 0 A, 1 B (R176). -/
def BANK : Reg := ireg 0x14B 1 0
/-- The bank active in the last section (R198). -/
def LAST_BANK : Reg := ireg 0x173 1 0
end ARRI

/-! CRC-32C (Castagnoli). -/

/-- A running CRC-32C over `n` bytes of deep memory from a tray-global address. -/
def State.crcRun (s : State) (a : Nat) : Nat → Nat → Nat
  | 0, c => c
  | n + 1, c => s.crcRun (a + 1) n (crcByte c (s.byte a).toNat)

/-- CRC-32C of `n` bytes of a die's deep memory. -/
def State.crc32c (s : State) (d a n : Nat) : Nat := Nat.xor (s.crcRun (gaddr d a) n 0xFFFFFFFF) 0xFFFFFFFF

/-- `n` bytes of a die's deep memory as a little-endian number. -/
def State.le (s : State) (d a n : Nat) : Nat := s.load (gaddr d a) n

/-! Refusals (R245). -/

/-- A refusal of the keyring check or of a load: its code, key and form, the tumbler if one is concerned, and the entry. -/
structure Refused where
  code : Nat
  key : Nat
  form : Nat
  pos : Option Nat
  entry : Nat
  deriving DecidableEq, Repr

/-- The first refusal of a list of checks. -/
def firstOf (l : List (Option Refused)) : Option Refused := l.findSome? id

/-- The refusal record of KLOAD, with event 0x1410 and PAGE_EVENT.REFUSED of ARRAY (R245). -/
def State.refuse (s : State) (d : Nat) (r : Refused) (atLoad : Bool) : State :=
  let s := ((s.set (KLOAD.CODE.on d) r.code).set (KLOAD.VALID.on d) 1).put (KLOAD.AT_LOAD.on d) atLoad
  let s := ((s.set (KLOAD.KEY.on d) r.key).set (KLOAD.FORM.on d) r.form).set (KLOAD.ENTRY.on d) r.entry
  let s := match r.pos with
    | some t => ((s.set (KLOAD.COL.on d) (t % 64)).set (KLOAD.ROW.on d) (t / 64)).set (KLOAD.POS_VALID.on d) 1
    | none => ((s.set (KLOAD.COL.on d) 0).set (KLOAD.ROW.on d) 0).set (KLOAD.POS_VALID.on d) 0
  (s.pageEvent d ARRAY.page 9).dieEvent d KLOAD.page 0x1410 r.code r.key (r.pos.getD r.entry)

/-! Micro-words (R181). -/

/-- Whether an operation writes a predicate. -/
def writesPred (op : Nat) : Bool := decide (0x10 ≤ op ∧ op ≤ 0x18)

/-- Whether a scalar operation has an immediate. -/
def hasImm (op : Nat) : Bool := [0x02, 0x0A, 0x0B, 0x0C, 0x15, 0x19].contains op

/-- The FMT codes an operation takes (R181). -/
def fmtsOf (op : Nat) : List Nat :=
  match op with
  | 1 => [0, 1, 2, 3, 4, 5]
  | 2 => [0, 1, 2, 3, 4]
  | 5 => [0, 1, 2, 4, 5]
  | 7 => [0, 1, 4, 5]
  | 8 => [0, 4]
  | 9 => [0, 4]
  | 10 => [0, 4]
  | 11 => [0, 4]
  | 12 => [0, 4]
  | _ => [0]

/-- Whether a micro-word is one R181 refuses. The scalar NOP is no register form: its bits [9:0] are not looked at.
[DESIGN CHOICE, log entry 39] -/
def badWord (w : Nat) : Bool :=
  let m := mop w
  let b := bop w
  let o := sop w
  let quad := m == 2 || (m == 1 && fmtOf w == 5)
  decide (14 ≤ m) || !(fmtsOf m).contains (fmtOf w) || bitsOf w 113 2 != 0 || decide (5 ≤ b) ||
    o == 0x0F || decide (0x1C ≤ o) || decide (5 ≤ ctlOf w) || (quad && decide (4 ≤ rowOf w)) ||
    ((m == 2 || (m == 7 && fmtOf w == 5)) && decide (2 ≤ groupA w)) || ((m == 2 || m == 6) && decide (2 ≤ groupB w)) ||
    ((b == 1 || b == 2) && decide (2 ≤ baySub w)) || (writesPred o && (decide (8 ≤ destS w) || destS w % 8 == 0)) ||
    (o != 0 && !hasImm o && bitsOf w 0 10 != 0) || (decide (48 ≤ bitsOf w 50 6) && bitsOf w 45 5 != 0) ||
    decide (6 ≤ bitsOf w 42 3)

/-! Key images (R239, R240). -/

/-- Where an image lies: the die, the keyring's base, the number of the form, and its key directory. -/
structure FormAt where
  die : Nat
  base : Nat
  form : Nat
  keyDir : Nat
  seqOff : Nat
  seqLen : Nat
  nkeys : Nat
  deriving DecidableEq, Repr

/-- A form of the keyring at a base: 0xF the normal form, n the variant for lost die n (R235, R236). -/
def State.formAt (s : State) (d base form : Nat) : FormAt :=
  if form = 0xF then
    ⟨d, base, form, s.le d (base + 0x20) 8, s.le d (base + 0x28) 8, s.le d (base + 0x30) 4, s.le d (base + 6) 2⟩
  else
    let v := base + s.le d (base + 0x38) 8 + 32 * form
    ⟨d, base, form, s.le d v 8, s.le d (v + 8) 8, s.le d (v + 0x10) 4, s.le d (v + 0x14) 2⟩

/-- The die-local address of a key's directory entry (R237). -/
def FormAt.entry (f : FormAt) (k : Nat) : Nat := f.base + f.keyDir + 32 * k

/-- The die-local address of a key's image. -/
def State.keyAt (s : State) (f : FormAt) (k : Nat) : Nat := f.base + s.le f.die (f.entry k) 8

/-- FLAGS of a key's directory entry. -/
def State.keyFlags (s : State) (f : FormAt) (k : Nat) : Nat := s.le f.die (f.entry k + 0x10) 4

/-- A section of a key image: its offset, length and count, by type; zeros where the type is missing (R239). -/
def State.keySection (s : State) (d a type : Nat) : Nat × Nat × Nat :=
  match (List.range 6).find? (fun i => s.le d (a + 0x40 + 16 * i) 2 == type) with
  | some i => (s.le d (a + 0x44 + 16 * i) 4, s.le d (a + 0x48 + 16 * i) 4, s.le d (a + 0x4C + 16 * i) 4)
  | none => (0, 0, 0)

/-- Whether a key image fails check 0x04 (R245). -/
def State.badFormat (s : State) (f : FormAt) (k : Nat) : Bool :=
  let d := f.die
  let a := s.keyAt f k
  let len := s.le d (f.entry k + 8) 4
  let types := (List.range 6).map (fun i => s.le d (a + 0x40 + 16 * i) 2)
  s.le d a 4 != 0x3159454B || s.le d (a + 4) 2 != k || s.le d (a + 6) 2 != 6 ||
    s.le d (a + 8) 4 != s.le d (f.entry k + 0x14) 4 ||
    (List.range 6).any (fun i => decide (len < s.le d (a + 0x44 + 16 * i) 4 + s.le d (a + 0x48 + 16 * i) 4)) ||
    [1, 2, 3, 4, 5, 6].any (fun t => (types.filter (· == t)).length != 1)

/-- Checks 0x03 and 0x04 of a key (R245, R246). -/
def State.checkImage (s : State) (f : FormAt) (k : Nat) : Option Refused :=
  let d := f.die
  if s.crc32c d (s.keyAt f k) (s.le d (f.entry k + 8) 4) ≠ s.le d (f.entry k + 0xC) 4 then some ⟨3, k, f.form, none, 0⟩
  else if s.badFormat f k then some ⟨4, k, f.form, none, 0⟩
  else none

/-- The signed number of 4 bytes. -/
def signed32 (v : Nat) : Int := toSigned 32 v

/-- A route entry (R212). -/
def State.readRoute (s : State) (d a : Nat) : Route :=
  let w0 := s.le d a 4
  let w1 := s.le d (a + 4) 4
  let w2 := s.le d (a + 8) 4
  let sg := w0.testBit 2
  let dg := w0.testBit 3
  ⟨w0 % 4, sg, if sg then w1 % 256 else 64 * bitsOf w1 8 6 + w1 % 64, dg,
    if dg then bitsOf w1 16 8 else 64 * bitsOf w1 24 6 + bitsOf w1 16 6,
    (List.range (bitsOf w0 4 4)).map (fun i => bitsOf w2 (2 * i) 2), bitsOf w0 8 6⟩

/-- The routes of a key. -/
def State.readRoutes (s : State) (d a : Nat) : List Route :=
  let sec := s.keySection d a 4
  (List.range sec.2.2).map (fun i => s.readRoute d (a + sec.1 + 16 * i))

/-- A memory descriptor of a gate-unit record (R243). -/
def State.readGateMem (s : State) (d a : Nat) : GateMem :=
  let c := s.le d a 4
  ⟨c.testBit 0, c.testBit 1, bitsOf c 8 4, s.le d (a + 8) 5, s.le d (a + 0x10) 4, s.le d (a + 0x14) 4,
    signed32 (s.le d (a + 0x18) 4)⟩

/-- An array step of a gate-unit record (R243). -/
def State.readGateStep (s : State) (d a : Nat) : GateStep :=
  let p := s.le d (a + 0xA) 1
  ⟨s.le d a 4, s.le d (a + 4) 4, s.le d (a + 8) 2, p % 4, p.testBit 4⟩

/-- NSTEP and NMEM of a gate-unit record. -/
def State.gateShape (s : State) (d a : Nat) : Nat × Nat := (bitsOf (s.le d a 4) 8 4 + 1, bitsOf (s.le d a 4) 12 3)

/-- The bytes of a gate-unit record. -/
def State.gateBytes (s : State) (d a : Nat) : Nat := 16 + 32 * (s.gateShape d a).2 + 16 * (s.gateShape d a).1

/-- A gate-unit record. -/
def State.readGate (s : State) (d a : Nat) : GateProg :=
  let n := s.gateShape d a
  ⟨s.le d a 4 % 256, bitsOf (s.le d a 4) 16 6, (List.range n.2).map (fun i => s.readGateMem d (a + 16 + 32 * i)),
    (List.range n.1).map (fun i => s.readGateStep d (a + 16 + 32 * n.2 + 16 * i))⟩

/-- Where the gate-unit records of a key begin, `n` of them from `a`. -/
def State.gateAddrs (s : State) (d : Nat) : Nat → Nat → List Nat
  | 0, _ => []
  | n + 1, a => a :: s.gateAddrs d n (a + s.gateBytes d a)

/-- A slot-table record (R342). -/
def State.readTable (s : State) (d a : Nat) : SlotTable :=
  let period := s.le d (a + 2) 2
  ⟨s.le d a 1, period, s.le d (a + 4) 2, (List.range (8 * period)).map (fun i => s.le d (a + 16 + 4 * i) 4)⟩

/-- The bytes of a slot-table record. -/
def State.tableBytes (s : State) (d a : Nat) : Nat := 16 + 32 * s.le d (a + 2) 2

/-- Where `n` slot-table records from `a` begin. -/
def State.tableAddrs (s : State) (d : Nat) : Nat → Nat → List Nat
  | 0, _ => []
  | n + 1, a => a :: s.tableAddrs d n (a + s.tableBytes d a)

/-- A key as its image gives it (R239, R240). -/
def State.readKey (s : State) (f : FormAt) (k : Nat) : Key :=
  let d := f.die
  let a := s.keyAt f k
  let idx := s.keySection d a 1
  let code := s.keySection d a 2
  let map := s.keySection d a 3
  let gus := s.keySection d a 5
  let tabs := s.keySection d a 6
  { number := k, form := f.form, sync := (s.keyFlags f k).testBit 0, cycles := s.le d (a + 8) 4,
    budget := s.le d (a + 0xC) 4, lmax := s.le d (a + 0x10) 1, egressMax := s.le d (a + 0x14) 4,
    map := (List.range 4096).filterMap (fun t =>
      let b := s.le d (a + map.1 + 4 * t) 2
      if b = 0xFFFF then none else some (t, b)),
    blocks := (List.range idx.2.2).map (fun i =>
      (s.le d (a + idx.1 + 8 * i) 4 / 16, s.le d (a + idx.1 + 8 * i + 4) 2)),
    code := (List.range code.2.2).filterMap (fun i =>
      let w := s.le d (a + code.1 + 16 * i) 16
      if w = 0 then none else some (i, w)),
    routes := s.readRoutes d a,
    gates := (s.gateAddrs d gus.2.2 (a + gus.1)).map (s.readGate d),
    slots := (s.tableAddrs d tabs.2.2 (a + tabs.1)).map (s.readTable d) }

/-! Routes (R213, R216). -/

/-- The switch of a tumbler or gate unit: (column, row) of the 4 x 8 grid (R213, R242). -/
def switchOf (gate : Bool) (n : Nat) : Nat × Nat :=
  if gate then
    match n / 64 with
    | 0 => (n % 64 / 16, 0)
    | 1 => (3, n % 64 / 8)
    | 2 => (n % 64 / 16, 7)
    | _ => (0, n % 64 / 8)
  else (n % 64 / 16, n / 64 / 8)

/-- One hop, or none off the grid. -/
def hopFrom (p : Nat × Nat) (h : Nat) : Option (Nat × Nat) :=
  match h with
  | 0 => if p.2 = 0 then none else some (p.1, p.2 - 1)
  | 1 => if p.1 = 3 then none else some (p.1 + 1, p.2)
  | 2 => if p.2 = 7 then none else some (p.1, p.2 + 1)
  | _ => if p.1 = 0 then none else some (p.1 - 1, p.2)

/-- The switches of a path, its first included; none where a hop leaves the grid. -/
def pathFrom (p : Nat × Nat) : List Nat → Option (List (Nat × Nat))
  | [] => some [p]
  | h :: t => (hopFrom p h).bind (fun q => (pathFrom q t).map (fun l => p :: l))

/-- The switches of a route's path. -/
def Route.path (r : Route) : Option (List (Nat × Nat)) := pathFrom (switchOf r.srcGate r.src) r.hops

/-- Whether two paths part and later share a switch (R216). -/
def rejoin : List (Nat × Nat) → List (Nat × Nat) → Bool
  | a :: s, b :: t => if a = b then rejoin s t else (a :: s).any (fun x => (b :: t).contains x)
  | _, _ => false

/-- Whether two entries form one multicast route (R212). -/
def sameSource (a b : Route) : Bool := a.net == b.net && a.srcGate == b.srcGate && a.src == b.src

/-- Whether a list repeats an element. -/
def repeats {α : Type} [DecidableEq α] : List α → Bool
  | [] => false
  | a :: t => t.contains a || repeats t

/-- What a route uses: its network, source, and the links (switch, direction), edge ports and taps it passes. -/
inductive Resource where
  | link (x y dir : Nat)
  | edgeIn (side x y : Nat)
  | edgeOut (side x y : Nat)
  | sourceTap (x y : Nat)
  | destTap (x y : Nat)
  deriving DecidableEq, Repr

/-- The links of a path. -/
def linksOf : List (Nat × Nat) → List Nat → List Resource
  | p :: ps, h :: hs => .link p.1 p.2 h :: linksOf ps hs
  | _, _ => []

/-- What a route uses (R209, R216). -/
def Route.uses (r : Route) : List Resource :=
  let a := switchOf r.srcGate r.src
  let b := switchOf r.dstGate r.dst
  (if r.srcGate then .edgeIn (r.src / 64) a.1 a.2 else .sourceTap a.1 a.2) ::
    (if r.dstGate then .edgeOut (r.dst / 64) b.1 b.2 else .destTap b.1 b.2) :: linksOf (r.path.getD []) r.hops

/-- What one channel of a resource is taken by: a route's source, or for a destination tap its destination. -/
def Route.taker (r : Route) (x : Resource) : Nat × Bool × Nat :=
  match x with
  | .destTap _ _ => (r.net, r.dstGate, r.dst)
  | _ => (r.net, r.srcGate, r.src)

/-- The channels of a resource of a network (R209). -/
def channelsOf (net : Nat) (x : Resource) : Nat :=
  match x with
  | .sourceTap _ _ => [16, 32, 8].getD net 0
  | .destTap _ _ => [16, 32, 8].getD net 0
  | _ => [8, 16, 4].getD net 0

/-- A list without repetitions. -/
def distinct {α : Type} [DecidableEq α] (l : List α) : List α := l.foldl (fun acc x => if acc.contains x then acc else acc ++ [x]) []

/-- How many channels of a resource the routes of a network take. -/
def channelUse (rs : List Route) (net : Nat) (x : Resource) : Nat :=
  (distinct ((rs.filter (fun r => r.net == net && r.uses.contains x)).map (fun r => r.taker x))).length

/-- The most channels used on any one switch link of a network. -/
def peakChannels (rs : List Route) (net : Nat) : Nat :=
  (rs.filter (fun r => r.net == net)).foldl (fun m r =>
    (linksOf (r.path.getD []) r.hops).foldl (fun m x => max m (channelUse rs net x)) m) 0

/-- Whether a route entry's bits break R212. -/
def State.badRouteBits (s : State) (d a : Nat) : Bool :=
  let w0 := s.le d a 4
  let w1 := s.le d (a + 4) 4
  let w2 := s.le d (a + 8) 4
  w0 % 4 == 3 || w0 / 16384 != 0 || bitsOf w1 14 2 != 0 || bitsOf w1 30 2 != 0 ||
    (w0.testBit 2 && bitsOf w1 8 6 != 0) || (w0.testBit 3 && bitsOf w1 24 6 != 0) ||
    w2 / 2 ^ (2 * bitsOf w0 4 4) != 0 || s.le d (a + 12) 4 != 0

/-- The first entry of a list that fails a check. -/
def firstBad {α : Type} (l : List α) (bad : α → Bool) : Option Nat := l.findIdx? bad

/-- The largest latency of the routes; 2 with none (R239). -/
def lmaxOf (rs : List Route) : Nat := if rs = [] then 2 else rs.foldl (fun m r => max m (routeLat r)) 0

/-- Checks 0x20 to 0x26 of a key's routes, in the order of R216. [DEDUCED, log entry 42] -/
def State.checkRoutes (s : State) (f : FormAt) (k : Nat) : Option Refused :=
  let d := f.die
  let a := s.keyAt f k
  let sec := s.keySection d a 4
  let rs := s.readRoutes d a
  let r (code : Nat) (i : Option Nat) : Option Refused := i.map (fun i => ⟨code, k, f.form, none, i⟩)
  if 2048 < sec.2.2 then some ⟨0x20, k, f.form, none, 2048⟩
  else firstOf [
    r 0x20 (firstBad (List.range sec.2.2) (fun i => s.badRouteBits d (a + sec.1 + 16 * i))),
    r 0x21 (firstBad rs (fun x => x.path == none)),
    r 0x22 (firstBad rs (fun x => (x.path.getD []).getLast? != some (switchOf x.dstGate x.dst))),
    r 0x23 (firstBad rs (fun x => repeats (x.path.getD []) ||
      rs.any (fun y => sameSource x y && rejoin (x.path.getD []) (y.path.getD [])))),
    r 0x24 (firstBad rs (fun x => x.lat != routeLat x)),
    r 0x25 (firstBad rs (fun x =>
      decide (1 < (distinct (rs.filter (fun y => y.net == x.net && y.dstGate == x.dstGate && y.dst == x.dst))).length))),
    r 0x26 (firstBad rs (fun x => x.uses.any (fun u => decide (channelsOf x.net u < channelUse rs x.net u))))]

/-! Gate-unit records (R243 to R245). -/

/-- Whether a record's fields are outside their ranges, or a step outside its bounds (R243, R244). -/
def State.badGate (s : State) (d a cycles lmax : Nat) : Bool :=
  let h := s.le d a 4
  let g := s.readGate d a
  let n := s.gateShape d a
  let last (x : GateStep) : Nat := x.start + (x.repeats - 1) * x.period
  h / 4194304 != 0 || h.testBit 15 || s.le d (a + 4) 12 != 0 || decide (4 < n.2) || decide (32 < g.split) ||
    (List.range n.2).any (fun i =>
      let m := a + 16 + 32 * i
      let c := s.le d m 4
      c / 4096 != 0 || bitsOf c 2 6 != 0 || s.le d (m + 4) 4 != 0 || s.le d (m + 13) 3 != 0 || s.le d (m + 0x1C) 4 != 0) ||
    g.mems.any (fun m => m.chunk % 32 != 0 || m.chunk == 0 || decide (4096 < m.chunk)) ||
    (List.range n.1).any (fun i =>
      let m := a + 16 + 32 * n.2 + 16 * i
      Nat.land (s.le d (m + 0xA) 1) 0xEC != 0 || s.le d (m + 0xB) 5 != 0) ||
    g.steps.any (fun x => x.repeats == 0 || decide (16777216 < x.repeats) || x.period == 0 ||
      (if x.take then decide (cycles + lmax ≤ last x) || g.split == 32 else decide (cycles ≤ last x) || g.split == 0))

/-- Whether two steps of one kind have spans that overlap. -/
def overlap (x y : GateStep) : Bool :=
  x.take == y.take && decide (x.start ≤ y.start + (y.repeats - 1) * y.period ∧
    y.start ≤ x.start + (x.repeats - 1) * x.period)

/-- Whether a step overlaps a later one of a list. -/
def overlaps : List GateStep → Bool
  | [] => false
  | x :: t => t.any (overlap x) || overlaps t

/-- Checks 0x30 and 0x31. [DEDUCED, log entry 42] -/
def State.checkGates (s : State) (f : FormAt) (k cycles lmax : Nat) : Option Refused :=
  let d := f.die
  let a := s.keyAt f k
  let sec := s.keySection d a 5
  let addrs := s.gateAddrs d sec.2.2 (a + sec.1)
  let r (code : Nat) (x : Option Nat) : Option Refused := x.map (fun g => ⟨code, k, f.form, none, g⟩)
  let dup := (addrs.map (fun x => s.le d x 1)).foldl (fun (acc : List Nat × Option Nat) g =>
    if acc.2 = none ∧ acc.1.contains g then (acc.1, some g) else (g :: acc.1, acc.2)) ([], none)
  firstOf [
    r 0x30 ((addrs.find? (fun x => s.badGate d x cycles lmax)).map (fun x => s.le d x 1)),
    r 0x30 dup.2,
    r 0x31 ((addrs.find? (fun x => overlaps (s.readGate d x).steps)).map (fun x => s.le d x 1))]

/-! Slot tables (R342, R344, R361). -/

/-- The streams named as TX, or as RX, by tables. -/
def streamsOf (rx : Bool) (ts : List SlotTable) : List Nat :=
  distinct ((ts.flatMap (fun t => t.entries.map (fun e => if rx then e / 65536 else e % 65536))).filter (· != 0xFFFF))

/-- Whether tables that serve one key break R344 among themselves: a field out of range, a link named twice, or a stream on
two links. -/
def badTables (ts : List SlotTable) : Bool :=
  ts.any (fun t => decide (48 ≤ t.link ∨ t.period = 0 ∨ 128 < t.period)) || repeats (ts.map SlotTable.link) ||
    repeats (ts.flatMap (fun t => distinct (streamsOf false [t] ++ streamsOf true [t])))

/-- Streams named so far in the keyring: as TX, as RX. -/
abbrev Named := List Nat × List Nat

/-- Whether tables name a stream as TX that is named as RX, or the reverse (R344). -/
def clashes (n : Named) (ts : List SlotTable) : Bool :=
  let tx := streamsOf false ts
  let rx := streamsOf true ts
  tx.any (fun x => n.2.contains x || rx.contains x) || rx.any (fun x => n.1.contains x)

/-- The streams named with those of more tables. -/
def addNamed (n : Named) (ts : List SlotTable) : Named := (distinct (n.1 ++ streamsOf false ts), distinct (n.2 ++ streamsOf true ts))

/-- Checks 0x40 and 0x41 of a key. -/
def State.checkSlots (s : State) (f : FormAt) (k : Nat) (n : Named) : Option Refused × Named :=
  let d := f.die
  let a := s.keyAt f k
  let sec := s.keySection d a 6
  let addrs := s.tableAddrs d sec.2.2 (a + sec.1)
  let ts := addrs.map (s.readTable d)
  let short := (s.tableAddrs d (sec.2.2 + 1) (a + sec.1)).getLast? != some (a + sec.1 + sec.2.1)
  let bad := short || badTables ts || clashes n ts ||
    addrs.any (fun x => s.le d (x + 1) 1 != 0 || s.le d (x + 4) 2 != k || s.le d (x + 6) 10 != 0)
  (firstOf [if bad then some ⟨0x40, k, f.form, none, 0⟩ else none,
    if ¬ (s.keyFlags f k).testBit 0 ∧ sec.2.1 ≠ 0 then some ⟨0x41, k, f.form, none, 0⟩ else none], addNamed n ts)

/-! The keyring (R235 to R238, R245). -/

/-- The first word of a key's code that R181 refuses: the first tumbler that maps its block, and its address there. -/
def State.checkCode (s : State) (f : FormAt) (k : Nat) : Option Refused :=
  let d := f.die
  let a := s.keyAt f k
  let sec := s.keySection d a 2
  match (List.range sec.2.2).find? (fun i => badWord (s.le d (a + sec.1 + 16 * i) 16)) with
  | none => none
  | some i =>
    let key := s.readKey f k
    let at_ := key.map.find? (fun e =>
      match key.blocks[e.2]? with
      | some b => decide (b.1 ≤ i ∧ i < b.1 + b.2)
      | none => false)
    match at_ with
    | some e => some ⟨0x10, k, f.form, some e.1, i - ((key.blocks[e.2]?).map Prod.fst).getD 0⟩
    | none => some ⟨0x10, k, f.form, none, i⟩

/-- Checks 0x11 and 0x12. -/
def State.checkBlocks (s : State) (f : FormAt) (k : Nat) : Option Refused :=
  let d := f.die
  let a := s.keyAt f k
  let idx := s.keySection d a 1
  let code := s.keySection d a 2
  let map := s.keySection d a 3
  let bad (i : Nat) : Bool :=
    let off := s.le d (a + idx.1 + 8 * i) 4
    let words := s.le d (a + idx.1 + 8 * i + 4) 2
    words == 0 || decide (2048 < words) || decide (code.2.1 < off + 16 * words)
  firstOf [
    ((List.range idx.2.2).find? bad).map (fun i => ⟨0x11, k, f.form, none, i⟩),
    ((List.range 4096).find? (fun t =>
      let b := s.le d (a + map.1 + 4 * t) 2
      b != 0xFFFF && decide (idx.2.2 ≤ b))).map (fun t => ⟨0x12, k, f.form, some t, s.le d (a + map.1 + 4 * t) 2⟩)]

/-- Every check of one key, in the order of R245. [DEDUCED, log entry 42] -/
def State.checkKey (s : State) (f : FormAt) (k : Nat) (n : Named) : Option Refused × Named :=
  let d := f.die
  let a := s.keyAt f k
  match s.checkImage f k with
  | some r => (some r, n)
  | none =>
    let slots := s.checkSlots f k n
    (firstOf [s.checkCode f k, s.checkBlocks f k, s.checkRoutes f k,
      if s.le d (a + 0x10) 1 = lmaxOf (s.readRoutes d a) then none else some ⟨0x27, k, f.form, none, 0⟩,
      s.checkGates f k (s.le d (a + 8) 4) (s.le d (a + 0x10) 1), slots.1], slots.2)

/-- The keys of a form, in ascending number, up to the first refusal. -/
def State.checkKeys (s : State) (f : FormAt) : List Nat → Named → Option Refused × Named
  | [], n => (none, n)
  | k :: t, n =>
    match s.checkKey f k n with
    | (some r, n) => (some r, n)
    | (none, n) => s.checkKeys f t n

/-- The sequencing table of a form (R238, R245). -/
def State.checkSequence (s : State) (f : FormAt) : Option Refused :=
  let e (i o : Nat) : Nat := s.le f.die (f.base + f.seqOff + 16 * i + o) 2
  let bad (k : Nat) : Bool := k != 0xFFFF && decide (f.nkeys ≤ k)
  ((List.range f.nkeys).find? (fun i => bad (e i 0) || bad (e i 2) || decide (2 < e i 4))).map
    (fun i => ⟨0x50, i, f.form, none, i⟩)

/-- Where the records of alternate set `i` begin. -/
def State.altAddrs (s : State) (d base alt i : Nat) : List Nat :=
  let e := alt + 16 + 32 * i
  s.tableAddrs d (s.le d (e + 0xC) 2) (base + s.le d (e + 0x10) 8)

/-- The alternate directory (R344, R361): set by set. -/
def State.checkAlternates (s : State) (d base nkeys : Nat) (n : Named) : Option Refused × Named :=
  let alt := base + s.le d (base + 0x40) 8
  let nsets := s.le d alt 2
  let mask (i : Nat) : Nat := s.le d (alt + 16 + 32 * i) 8
  let step (acc : Option Refused × Named) (i : Nat) : Option Refused × Named :=
    let e := alt + 16 + 32 * i
    let addrs := s.altAddrs d base alt i
    let ts := addrs.map (s.readTable d)
    let stretch := s.le d (e + 8) 4
    let bad := mask i == 0 || decide (2 ^ 48 ≤ mask i) || (List.range i).any (fun j => mask j == mask i) ||
      decide (stretch < 0x10000 ∨ s.le d (base + 0x48) 4 < stretch) ||
      ts.any (fun t => decide (nkeys ≤ t.key) || (mask i).testBit t.link) ||
      addrs.any (fun x => s.le d (x + 1) 1 != 0 || s.le d (x + 6) 10 != 0) ||
      (distinct (ts.map SlotTable.key)).any (fun k => badTables (ts.filter (fun t => t.key == k))) || clashes acc.2 ts
    match acc.1 with
    | some _ => acc
    | none => (if bad then some ⟨0x40, 0, 0xF, none, i⟩ else none, addNamed acc.2 ts)
  if 127 < nsets then (some ⟨0x40, 0, 0xF, none, nsets⟩, n) else (List.range nsets).foldl step (none, n)

/-- The lost dies for which the keyring has a variant (R236). -/
def State.variantsOf (s : State) (d base : Nat) : List Nat :=
  let v := base + s.le d (base + 0x38) 8
  (List.range 8).filter (fun n => n != s.get (DSYS.DIE_NUM.on d) && s.le d (v + 32 * n) 32 != 0)

/-- Whether a form's directories lie outside the image, or its keys are too many (R245). -/
def FormAt.bad (f : FormAt) (size : Nat) : Bool :=
  decide (f.nkeys = 0 ∨ 4096 < f.nkeys ∨ size < f.keyDir + 32 * f.nkeys ∨ size < f.seqOff + f.seqLen)

/-- The header's checks, 0x01 and 0x02 (R235, R245). [DEDUCED, log entry 42] -/
def State.checkHeader (s : State) (d base : Nat) : Option Refused :=
  let size := s.le d (base + 8) 8
  let alt := s.le d (base + 0x40) 8
  let room := decide (s.partBase d 0 ≤ base ∧ base + size ≤ s.partBase d 0 + s.partSize d 0 ∧ 256 ≤ size)
  if s.le d base 4 ≠ 0x474E524B ∨ s.le d (base + 4) 2 ≠ 1 ∨ s.crc32c d base 0xFC ≠ s.le d (base + 0xFC) 4 ∨ ¬ room ∨
      (s.formAt d base 0xF).bad size ∨ size < s.le d (base + 0x38) 8 + 256 ∨ size < alt + 16 ∨
      size < alt + 16 + 32 * s.le d (base + alt) 2 then some ⟨1, 0, 0xF, none, 0⟩
  else if s.le d (base + 0x18) 1 ≠ s.get (DSYS.MEMBER.on d) ∨ s.le d (base + 0x19) 1 ≠ s.get (DSYS.DIE_NUM.on d) ∨
      s.le d (base + 0x1A) 1 ≠ s.get (DSYS.LOG_COLS.on d) ∨ s.le d (base + 0x1B) 1 ≠ s.get (DSYS.LOG_ROWS.on d) then
    some ⟨2, 0, 0xF, none, 0⟩
  else none

/-- A form: its directories, keys and sequencing table. -/
def State.checkForm (s : State) (f : FormAt) (size : Nat) (n : Named) : Option Refused × Named :=
  if f.bad size then (some ⟨1, 0, f.form, none, 0⟩, n)
  else
    match s.checkKeys f (List.range f.nkeys) n with
    | (some r, n) => (some r, n)
    | (none, n) => (s.checkSequence f, n)

/-- The whole check, stopping at the first refusal: header, normal form, alternate sets, variants (R245).
[DEDUCED, log entry 42] -/
def State.checkKeyring (s : State) (d base : Nat) : Option Refused :=
  match s.checkHeader d base with
  | some r => some r
  | none =>
    let size := s.le d (base + 8) 8
    let normal := s.formAt d base 0xF
    let step (acc : Option Refused × Named) (check : Named → Option Refused × Named) : Option Refused × Named :=
      match acc.1 with
      | some _ => acc
      | none => check acc.2
    let acc := step (none, ([], [])) (s.checkForm normal size)
    let acc := step acc (s.checkAlternates d base normal.nkeys)
    ((s.variantsOf d base).foldl (fun acc v => step acc (s.checkForm (s.formAt d base v) size)) acc).1

/-- The keyring's base. -/
def State.ringBase (s : State) (d : Nat) : Nat := s.pair (KRING.BASE_LO.on d) (KRING.BASE_HI.on d) % 1099511627776

/-- Whether the checker or loader may read a range: agent kind 6 (R279). A range that is refused, or that meets an
uncorrectable unit, has its effects recorded and reads as all ones, which no check passes. -/
def State.readable (s : State) (d a n : Nat) (ecc : Ecc) : Bool :=
  s.permitted d 6 false a n && badUnits ecc false a n == []

/-- What reading a range as agent kind 6 records. [DEDUCED, log entry 42] -/
def State.readEffects (s : State) (d a n : Nat) (ecc : Ecc) : State :=
  if s.permitted d 6 false a n then s.eccEffects d 6 0 0 false a n ecc else s.refuseAccess d 6 0 0 false a n

/-! The commands. -/

/-- W0 writes FUSE_COL_g, once ever; it takes effect at the next die reset (R57, R58, R220). FUSE fields that are spent are
listed by key + 2^40. -/
def execFuseCol (req : Requester) (die : DieNo) (group : Fin 4) (column : BitVec 5) (s : State) : Out :=
  let d := die.val
  let r := [CSKIP.FUSE_COL_0, CSKIP.FUSE_COL_1, CSKIP.FUSE_COL_2, CSKIP.FUSE_COL_3].getD group.val CSKIP.FUSE_COL_0
  let v := column.toNat * 2 ^ (8 * group.val)
  .next (s.onWrite d CSKIP.page r 0 req.val v (fun s =>
    { (s.set (r.on d) column.toNat).setBit (CSKIP.FUSED.on d) group.val true with spent := fuseKey (r.on d) :: s.spent }))

/-- CHECK starts the keyring checker; it is discarded while a check runs (R245). [DEDUCED, log entry 42] -/
def execKeyringCheck (req : Requester) (die : DieNo) (s : State) : Out :=
  let d := die.val
  .next (s.onWrite d KRING.page KRING.CHECK 0 req.val 1 (fun s =>
    if s.is (KRING.CHECKING.on d) then s
    else ((s.set (KRING.CHECKING.on d) 1).set (KRING.VERIFIED.on d) 0).set (KRING.VERDICT.on d) 0))

/-- The keys a hinge may go to next: NEXT, NEXT_ALT and COND of the active key (R238). -/
def State.seqEntry (s : State) (d : Nat) : Option (Nat × Nat × Nat) :=
  match (s.die d).active with
  | none => none
  | some k =>
    let f := s.formAt d (s.ringBase d) k.form
    let a := f.base + f.seqOff + 16 * k.number
    some (s.le d a 2, s.le d (a + 2) 2, s.le d (a + 4) 2)

/-- The form of which a LOAD of a key reads the image: the variant for the lost die, for the hinge at which SYNC_NOW becomes
FORM_SYNC, when key 0 is loaded; the form in force otherwise (R648). -/
def State.loadForm (s : State) (d key : Nat) : Nat :=
  if s.get (DFAULT.FORM_STATE.on d) = 1 ∧ s.get (HMBX.SYNC_NOW.on d) + 1 = s.get (DFAULT.FORM_SYNC.on d) ∧ key = 0 then
    s.get (DFAULT.FORM_LOST.on d)
  else s.get (ARRAY.FORM.on d)

/-- Whether a run qualifies to enter at the next hinge with a key (R394). [DEDUCED, log entry 43] -/
def State.mayEnter (s : State) (d key : Nat) (sync : Bool) (r : Run) : Bool :=
  (r.state == .admitted || r.state == .copyIn) && r.key == key && sync && r.entry == s.get (HMBX.SYNC_NOW.on d) + 1

/-- The entry of the oldest run of a list. [DEDUCED, log entry 43] -/
def oldestOf (l : List (Nat × Run)) : Option (Nat × Run) :=
  l.foldl (fun b e =>
    match b with
    | some r => if r.2.seqNo ≤ e.2.seqNo then some r else some e
    | none => some e) none

/-- The run that waits to enter with the key being loaded is chosen: at a hinge whose entry has COND 1 and NEXT this key, or
NEXT 0xFFFF; its input copy starts (R238, R394, R395, R397). [DEDUCED, log entry 43] -/
def State.chooseEntry (s : State) (d key : Nat) (sync : Bool) : State :=
  let s := s.onDie d (fun x => { x with runs := x.runs.map (fun e => (e.1, { e.2 with waits := false })) })
  match s.seqEntry d with
  | none => s
  | some (next, _, cond) =>
    if (cond = 1 ∧ next = key) ∨ next = 0xFFFF then
      match oldestOf ((s.die d).runs.filter (fun e => s.mayEnter d key sync e.2)) with
      | none => s
      | some (i, r) =>
        if r.copied ∨ (s.die d).copyIn.contains i then s.setRun d i { r with waits := true }
        else
          (s.setRun d i { r with waits := true, state := .copyIn }).onDie d (fun x => { x with copyIn := x.copyIn ++ [i] })
    else s

/-- A load is accepted while VERIFIED is 1 and no load runs; a ready key that has not been swapped is discarded (R246, R247).
[DEDUCED, log entry 43] -/
def State.beginLoad (s : State) (d k req : Nat) : State :=
  if ¬ s.is (KRING.VERIFIED.on d) ∨ s.is (ARRAY.LOADING.on d) then
    s.regFault d ARRAY.page ARRAY.LOAD 0 .accessErr req (k + 65536)
  else
    let form := s.loadForm d k
    let s := ((s.set (ARRAY.LOADING.on d) 1).set (ARRAY.SHADOW_KEY.on d) k).set (ARRAY.SHADOW_READY.on d) 0
    let s := ((s.set (ARRI.LOAD_FORM.on d) form).set (ARRI.REFUSED.on d) 0).set (ARRI.LOADED.on d) 0
    let s := s.onDie d (fun x => { x with shadowKey := none })
    s.chooseEntry d k ((s.keyFlags (s.formAt d (s.ringBase d) form) k).testBit 0)

/-- LOAD (R246, R247); one served while the TUMBLER test runs waits for its end (R676), one served during the steps of a hinge for
Step 5 (R259). [DEDUCED, log entry 43] -/
def execLoad (req : Requester) (die : DieNo) (key : BitVec 12) (s : State) : Out :=
  let d := die.val
  let k := key.toNat
  .next (s.onWrite d ARRAY.page ARRAY.LOAD 0 req.val (k + 65536) (fun s =>
    let s := s.set (ARRAY.NEXT_KEY.on d) k
    if s.is (STEST.TUMBLER_RUN.on d) ∨ s.phaseIs d .swap then (s.set (ARRAY.LOAD.on d) 1).set (ARRI.LOAD_REQ.on d) req.val
    else s.beginLoad d k req.val))

/-- A LOAD that waited is accepted (R259, R676). -/
def State.loadAfter (s : State) (d : Nat) : State :=
  if s.is (ARRAY.LOAD.on d) ∧ ¬ s.is (STEST.TUMBLER_RUN.on d) then
    (s.set (ARRAY.LOAD.on d) 0).beginLoad d (s.get (ARRAY.NEXT_KEY.on d)) (s.get (ARRI.LOAD_REQ.on d))
  else s

/-- SHADOW_READY is set once the load is complete and no copy withholds it: the input copy of the run that waits, or an output
copy (R395, R396). [DEDUCED, log entry 43] -/
def State.tryReady (s : State) (d : Nat) : State :=
  if s.is (ARRI.LOADED.on d) ∧ (s.die d).copyOut = [] ∧ ¬ (s.die d).runs.any (fun e => e.2.waits && !e.2.copied) then
    (s.set (ARRI.LOADED.on d) 0).set (ARRAY.SHADOW_READY.on d) 1
  else s

/-- The event of the refusal that KLOAD holds (R245). -/
def State.refusalEvent (s : State) (d : Nat) : State :=
  let pos := if s.is (KLOAD.POS_VALID.on d) then 64 * s.get (KLOAD.ROW.on d) + s.get (KLOAD.COL.on d) else s.get (KLOAD.ENTRY.on d)
  s.dieEvent d KLOAD.page 0x1410 (s.get (KLOAD.CODE.on d)) (s.get (KLOAD.KEY.on d)) pos

/-- The load ends: checks 0x03 and 0x04 are made on the key read; a key that fails is refused and the shadow left empty. A die
that waits at its hinge goes to FAULTED then (R246 to R248, R258, R387). While a scan runs the control network carries no key traffic,
so no load ends (R422). [DEDUCED, log entry 43] -/
def execShadowReady (die : DieNo) (cycles : BitVec 16) (ecc : Ecc) (s : State) : Out :=
  let d := die.val
  if s.inReset d ∨ ¬ s.is (ARRAY.LOADING.on d) ∨ s.is (SCAN.SCANNING.on d) then .next s
  else
    let k := s.get (ARRAY.SHADOW_KEY.on d)
    let f := s.formAt d (s.ringBase d) (s.get (ARRI.LOAD_FORM.on d))
    let a := s.keyAt f k
    let len := s.le d (f.entry k + 8) 4
    let seen := (s.readEffects d a len ecc).set (ARRAY.LOADING.on d) 0
    let bad := if f.nkeys ≤ k then some ⟨4, k, f.form, none, 0⟩
      else if s.readable d a len ecc then s.checkImage f k else some ⟨3, k, f.form, none, 0⟩
    match bad with
    | some r =>
      let s := (seen.refuse d r true).set (ARRI.REFUSED.on d) 1
      .next (if s.phaseIs d .loadWait then s.contextFault d 2 else s)
    | none =>
      let s := (seen.onDie d (fun x => { x with shadowKey := some (s.readKey f k) })).set (ARRI.LOADED.on d) 1
      .next (((s.count (KLOAD.LOADS.on d)).set (KLOAD.LAST_LOAD_CYCLES.on d) cycles.toNat).tryReady d)

end Sys2Proof.Machine
end

