-- ==== Sys2Proof/Machine/Gate.lean ====
section
/-! DEFINITION. The gate units, the global freeze, the end of a section and the stretch (R242 to R244, R249 to R252 of
spec/08_keys_hinges.md, R281 and R286 of spec/09_memory.md, R365 of spec/11_streams.md). -/

namespace Sys2Proof.Machine

namespace STRCI
/-- What the stretch accumulator has gathered in the sections before (R365), 16 fractional bits. -/
def SUM : Reg := ireg 0x150 64 0
/-- The cycles it has held the clock for, times 1.0. -/
def USED : Reg := ireg 0x152 64 0
/-- The section cycle up to which SUM is gathered. -/
def MARK : Reg := ireg 0x154 32 0
/-- The enabled cycle a freeze holds back (R249). -/
def FROZEN_AT : Reg := ireg 0x155 32 0
/-- The freeze has gone beyond FREEZE_LIMIT (R251). -/
def AT_LIMIT : Reg := ireg 0x156 1 0
/-- State.clock when the cycles of that freeze were last counted (R250). -/
def COUNTED_AT : Reg := ireg 0x157 64 0
end STRCI

/-- The record of a gate unit in the active key (R243). -/
def State.gateProg (s : State) (d k : Nat) : Option GateProg :=
  ((s.die d).active).bind (fun key => key.gates.find? (fun g => g.gate == k))

/-- The step of a gate unit, with the cycle its next issue is due in; none where it has issued in full (R244). -/
def State.dueStep (s : State) (d k j : Nat) : Option (GateStep × Nat) :=
  ((s.gateProg d k).bind (fun p => p.steps[j]?)).bind (fun x =>
    let n := (aget (s.gate d k).issued j).getD 0
    if n < x.repeats then some (x, x.start + n * x.period) else none)

/-- A step has issued once more. -/
def countIssue (g : Gate) (j : Nat) : Gate := { g with issued := aput g.issued j ((aget g.issued j).getD 0 + 1) }

/-- The entries of the ingress part and of the egress part (R243). -/
def splitOf (p : GateProg) (egress : Bool) : Nat := if egress then 2048 - 64 * p.split else 64 * p.split

/-- Whether a SEND due in cycle `n` finds a word: one that has been in the queue for three cycles, or one of a faulted descriptor
(R249, R281). -/
def sendReady (g : Gate) (n : Nat) : Bool :=
  match g.ingress with
  | (_, t) :: _ => decide (t ≤ n)
  | [] => decide (0 < g.ones)

/-- Whether a step due in cycle `n` requests a freeze (R249). -/
def requestsFreeze (p : GateProg) (g : Gate) (x : GateStep) (n : Nat) : Bool :=
  if x.take then decide (splitOf p true ≤ g.egress.length) else !sendReady g n

/-- Whether the array side of a die's gate units runs: in a section, or for a TAKE in the quiesce, with the clock enable high
and no scan running (R177, R244, R422). -/
def State.gatesRun (s : State) (d : Nat) (take : Bool) : Bool :=
  !s.inReset d && (s.phaseIs d .inSection || (take && s.phaseIs d .quiesce)) && !s.is (ARRAY.FROZEN.on d) &&
    !s.is (SCAN.SCANNING.on d)

/-- The word a SEND drives reaches the edge tumbler two cycles on (R206, R242, R244). -/
def State.sendEdge (s : State) (d k n value : Nat) : State :=
  let c := k % 64
  let f : Flight := match k / 64 with
    | 0 => ⟨false, c, .north, n + 2, value⟩
    | 1 => ⟨false, 64 * c + 63, .east, n + 2, value⟩
    | 2 => ⟨false, 4032 + c, .south, n + 2, value⟩
    | _ => ⟨false, 64 * c, .west, n + 2, value⟩
  s.fly d f

/-- A gate unit drives a word on a port: the neighbour port, or a keyway tap, which takes its low bits (R242, R244). -/
def State.gateDrive (s : State) (d k port n value : Nat) : State :=
  match port with
  | 0 => s.sendEdge d k n value
  | 1 => s.drive d 0 true k n value
  | 2 => s.drive d 1 true k n (value % 4294967296)
  | _ => s.drive d 2 true k n (value % 256)

/-- The array has reached a cycle. [DESIGN CHOICE, log entry 40] -/
def State.reach (s : State) (d n : Nat) : State := s.set (ARRAY.SECTION_CYCLE.on d) (max (s.get (ARRAY.SECTION_CYCLE.on d)) n)

/-- A SEND step issues: it removes the oldest ingress word and drives it (R244). -/
def execGuSend (die : DieNo) (gate : Fin 256) (step : Fin 16) (s : State) : Out :=
  let d := die.val
  let k := gate.val
  let g := s.gate d k
  match s.dueStep d k step.val with
  | none => .next s
  | some (x, n) =>
    if x.take ∨ ¬ s.gatesRun d false ∨ ¬ sendReady g n then .next s
    else
      let g := countIssue g step.val
      match g.ingress with
      | (w, _) :: rest => .next (((s.setGate d k { g with ingress := rest, inRead := g.inRead + 1 }).gateDrive d k x.port n w).reach d n)
      | [] => .next (((s.setGate d k { g with ones := g.ones - 1 }).gateDrive d k x.port n (2 ^ 256 - 1)).reach d n)

/-- The input of a gate unit that a port number names. -/
def gatePort (port : Nat) : Port := match port with | 0 => .north | 1 => .vector | 2 => .scalar | _ => .control

/-- A TAKE step issues: it captures the word presented at its port; a token from 0xC0 up is for the heap allocator and puts
nothing into egress (R244, R287). -/
def execGuTake (die : DieNo) (gate : Fin 256) (step : Fin 16) (s : State) : Out :=
  let d := die.val
  let k := gate.val
  let g := s.gate d k
  match s.dueStep d k step.val, s.gateProg d k with
  | some (x, n), some p =>
    if ¬ x.take ∨ ¬ s.gatesRun d true ∨ requestsFreeze p g x n then .next s
    else
      let v := (s.presented d true k (gatePort x.port) n).getD 0
      let s := if x.port = 0 then s else s.captureCount d (x.port - 1) true k
      let g := countIssue g step.val
      let g := if x.port = 3 ∧ 0xC0 ≤ v % 256 then { g with tokens := g.tokens ++ [v % 256] }
        else if 0 < g.skip then { g with skip := g.skip - 1 }
        else { g with egress := g.egress ++ [if x.port = 3 then v % 256 else v], egWrite := g.egWrite + 1 }
      .next ((s.setGate d k g).reach d n)
  | _, _ => .next s

/-! The memory side (R243, R281, R286, R290). -/

/-- The descriptor a direction is at: the first whose chunks are not done, with its number. -/
def currentMem (p : GateProg) (g : Gate) (egress : Bool) : Option (Nat × GateMem) :=
  ((List.range p.mems.length).findSome? (fun i =>
    (p.mems[i]?).bind (fun m => if m.egress = egress ∧ (aget g.chunks i).getD 0 < m.count then some (i, m) else none)))

/-- Where a descriptor's next chunk lies: its handle is not VALID yet, the descriptor is refused at an address, or an address. -/
inductive ChunkAt where
  | waits
  | refused (addr : Nat)
  | at (addr : Nat)
  deriving DecidableEq, Repr

/-- The offset of chunk `c` of a descriptor. -/
def chunkOffset (m : GateMem) (c : Nat) : Int := (m.addr : Int) + c * m.stride

/-- The address of chunk `c`: from the handle's block where HANDLE is 1, which must be VALID; a descriptor that reaches beyond
its block is refused (R286, R290). -/
def State.chunkAt (s : State) (d : Nat) (g : Gate) (i : Nat) (m : GateMem) (c : Nat) : ChunkAt :=
  if m.handle then
    let h := gateHandle g i
    let cls := bitsOf h 16 4
    if h.testBit 30 then .refused 0
    else if ¬ h.testBit 31 then .waits
    else
      let size : Int := (65536 * 2 ^ cls : Nat)
      let last := chunkOffset m (m.count - 1)
      let pool := ((List.range 9).filter (fun n => cls < n)).foldl (fun a n => a + s.get (HEAP.COUNT.at d n) * 2 ^ n) 0
      let block := s.partBase d 2 + 65536 * (pool + h % 65536 * 2 ^ cls)
      let a := (((block : Int) + chunkOffset m c) % (2 ^ 40 : Nat)).toNat
      if chunkOffset m 0 < 0 ∨ last < 0 ∨ size < chunkOffset m 0 + m.chunk ∨ size < last + m.chunk then .refused a else .at a
  else .at (chunkOffset m c % (2 ^ 40 : Nat)).toNat

/-- The words of bytes, 32 bytes each. -/
def wordsOf (bytes : List Byte) : Nat → List Nat
  | 0 => []
  | n + 1 => (bytes.take 32).foldr (fun b v => b.toNat + 256 * v) 0 :: wordsOf (bytes.drop 32) n

/-- The bytes of words, 32 bytes each. -/
def bytesOfWords (ws : List Nat) : List Byte := ws.flatMap (fun w => (bytesLE 32 w).map (fun b => BitVec.ofNat 8 b))

/-- A descriptor faults at chunk `c`: the runs carried take MEM_ERROR, its remaining ingress words are supplied as all ones,
its remaining egress words are discarded as they come (R281). [DEDUCED, log entry 44] -/
def State.faultDesc (s : State) (d k i : Nat) (m : GateMem) (c : Nat) : State :=
  let g := s.gate d k
  let left := (m.count - c) * (m.chunk / 32)
  let now := min left g.egress.length
  let g := { g with chunks := aput g.chunks i m.count }
  let g := if m.egress then { g with egress := g.egress.drop now, egRead := g.egRead + now, skip := g.skip + (left - now) }
    else { g with ones := g.ones + left }
  (s.setGate d k g).markCarried d 1

/-- A chunk refused under R280: its fault record, unless the handle's NONE has been recorded already (R281, R290). -/
def State.refuseChunk (s : State) (d k : Nat) (g : Gate) (i : Nat) (m : GateMem) (a : Nat) : State :=
  if m.handle ∧ (gateHandle g i).testBit 30 then s else s.refuseAccess d 3 k 0 m.egress a m.chunk

/-- Units of a chunk with an uncorrectable error: one fault record for the descriptor, later ones add to its count (R281). -/
def State.chunkErrors (s : State) (d k : Nat) (write : Bool) (a n : Nat) (ecc : Ecc) : State :=
  let bad := badUnits ecc write a n
  let s := s.eccEffects d 3 k 0 write a n ecc true
  match bad with
  | [] => s
  | u :: rest =>
    let s := s.memFault d 0x1521 3 (s.accessBits d 3 write a n % 8) k (32 * u) n
    if rest = [] then s else s.memFaultAgain d (s.lastFaultSeq d) rest.length

/-- The first cycle whose SEND finds a word that enters the queue now: the third cycle after the one reached. A word that enters before
cycle 0 is there for cycle 0, and one that enters while a freeze holds cycle n is there for n: the freeze lasts until it is (R249,
R254). [DEDUCED, log entry 44] -/
def State.sendableFrom (s : State) (d : Nat) : Nat :=
  if ¬ s.phaseIs d .inSection then 0
  else if s.is (ARRAY.FROZEN.on d) then s.get (STRCI.FROZEN_AT.on d)
  else s.get (ARRAY.SECTION_CYCLE.on d) + 3

/-- The memory side completes the read of the next chunk of an ingress descriptor: its words enter the queue; a refused or
uncorrectable chunk faults the descriptor (R243, R279, R281). [DEDUCED, log entry 44] -/
def execGuIngressChunk (die : DieNo) (gate : Fin 256) (ecc : Ecc) (s : State) : Out :=
  let d := die.val
  let k := gate.val
  let g := s.gate d k
  match s.gateProg d k with
  | none => .next s
  | some p =>
    match currentMem p g false with
    | none => .next s
    | some (i, m) =>
      let c := (aget g.chunks i).getD 0
      if s.inReset d ∨ 0 < g.ones ∨ splitOf p false < g.ingress.length + m.chunk / 32 then .next s
      else
        match s.chunkAt d g i m c with
        | .waits => .next s
        | .refused a => .next ((s.refuseChunk d k g i m a).faultDesc d k i m c)
        | .at a =>
          if ¬ s.permitted d 3 false a m.chunk then .next ((s.refuseAccess d 3 k 0 false a m.chunk).faultDesc d k i m c)
          else if badUnits ecc false a m.chunk ≠ [] then
            .next ((s.chunkErrors d k false a m.chunk ecc).faultDesc d k i m c)
          else
            let now := s.sendableFrom d
            let ws := (wordsOf (s.readBytes d a m.chunk []) (m.chunk / 32)).map (fun w => (w, now))
            let g := { g with ingress := g.ingress ++ ws, inWrite := g.inWrite + ws.length, chunks := aput g.chunks i (c + 1) }
            .next ((s.chunkErrors d k false a m.chunk ecc).setGate d k g)

/-- The write of the next egress chunk is acknowledged; a refused or uncorrectable chunk faults the descriptor, whose words are
then discarded (R253, R279, R281). [DEDUCED, log entry 44] -/
def execGuEgressAck (die : DieNo) (gate : Fin 256) (ecc : Ecc) (s : State) : Out :=
  let d := die.val
  let k := gate.val
  let g := s.gate d k
  match s.gateProg d k with
  | none => .next s
  | some p =>
    match currentMem p g true with
    | none => .next s
    | some (i, m) =>
      let c := (aget g.chunks i).getD 0
      let n := m.chunk / 32
      if s.inReset d ∨ g.egress.length < n then .next s
      else
        let done := { g with egress := g.egress.drop n, egRead := g.egRead + n, chunks := aput g.chunks i (c + 1) }
        match s.chunkAt d g i m c with
        | .waits => .next s
        | .refused a => .next ((s.refuseChunk d k g i m a).faultDesc d k i m c)
        | .at a =>
          if ¬ s.permitted d 3 true a m.chunk then .next ((s.refuseAccess d 3 k 0 true a m.chunk).faultDesc d k i m c)
          else if badUnits ecc true a m.chunk ≠ [] then
            .next ((s.chunkErrors d k true a m.chunk ecc).faultDesc d k i m c)
          else
            let s := s.chunkErrors d k true a m.chunk ecc
            .next ((s.writeBytes d a (bytesOfWords (g.egress.take n))).setGate d k done)

/-! The global freeze (R249 to R251, R262). -/

/-- The clock enable drops: a step that is due requests a freeze of its cycle (R249). -/
def execGlobalFreeze (die : DieNo) (gate : Fin 256) (step : Fin 16) (s : State) : Out :=
  let d := die.val
  let k := gate.val
  match s.dueStep d k step.val, s.gateProg d k with
  | some (x, n), some p =>
    let frozen := s.is (ARRAY.FROZEN.on d)
    let runs := s.phaseIs d .inSection || (x.take && s.phaseIs d .quiesce)
    if s.inReset d ∨ ¬ runs ∨ ¬ requestsFreeze p (s.gate d k) x n ∨ (frozen ∧ s.get (STRCI.FROZEN_AT.on d) ≠ n) then .next s
    else
      let s := s.onDie d (fun y => { y with freezers := (y.freezers.filter (fun e => e != (k, x.take))) ++ [(k, x.take)] })
      .next ((s.set (ARRAY.FROZEN.on d) 1).set (STRCI.FROZEN_AT.on d) n)
  | _, _ => .next s

/-- Whether some step of a gate unit that is due in cycle `n` requests a freeze. -/
def State.stillRequests (s : State) (d k n : Nat) : Bool :=
  (List.range 16).any (fun j =>
    match s.dueStep d k j, s.gateProg d k with
    | some (x, m), some p => decide (m = n) && requestsFreeze p (s.gate d k) x n
    | _, _ => false)

/-- Every run carried has been frozen for more cycles (R399). -/
def State.carriedFreeze (s : State) (d cycles : Nat) : State :=
  s.onDie d (fun x => { x with runs := x.runs.map (fun e =>
    (e.1, if e.2.state = .carried then { e.2 with freeze := min (e.2.freeze + cycles) 4294967295 } else e.2)) })

/-- Cycles held for a gate unit are counted for its SENDs or its TAKEs (R250). -/
def Gate.holding (g : Gate) (take : Bool) (cycles : Nat) : Gate :=
  if take then { g with freezeOver := min (g.freezeOver + cycles) 4294967295, secFreeze := g.secFreeze + cycles }
  else { g with freezeUnder := min (g.freezeUnder + cycles) 4294967295, secFreeze := g.secFreeze + cycles }

/-- Cycles with the enable low are counted: once in the total and in the runs carried, and for each gate unit those its SENDs, under its
number in `held`, and those its TAKEs, under 256 plus its number, held (R250, R399). -/
def State.countFreeze (s : State) (d cycles : Nat) (held : List (Nat × Nat)) : State :=
  let s := (s.count (ARRAY.FREEZE_TOTAL.on d) cycles).carriedFreeze d cycles
  (s.die d).freezers.foldl (fun s e =>
    s.setGate d e.1 ((s.gate d e.1).holding e.2 (min ((aget held (e.1 + 256 * e.2.toNat)).getD 0) cycles))) s

/-- No request stands and the clock enable rises: the cycles it was low are counted (R249, R250, R262). A freeze that has gone beyond its
limit does not end here (R251). [DEDUCED, log entry 44] -/
def execFreezeEnd (die : DieNo) (cycles : BitVec 32) (held : List (Nat × Nat)) (s : State) : Out :=
  let d := die.val
  let n := s.get (STRCI.FROZEN_AT.on d)
  let fr := (s.die d).freezers
  if s.inReset d ∨ ¬ s.is (ARRAY.FROZEN.on d) ∨ s.is (STRCI.AT_LIMIT.on d) ∨ fr.any (fun e => s.stillRequests d e.1 n) then .next s
  else
    let s := s.countFreeze d cycles.toNat held
    .next ((s.onDie d (fun x => { x with freezers := [] })).set (ARRAY.FROZEN.on d) 0)

/-- A freeze has lasted beyond FREEZE_LIMIT, while a request of the gate unit still stands: its cycles so far are counted, event 0x1412
with the gate unit, and the context goes to FAULTED; the array stays frozen (R250, R251, R262). [DEDUCED, log entry 44] -/
def execFreezeLimit (die : DieNo) (gate : Fin 256) (cycles : BitVec 32) (held : List (Nat × Nat)) (s : State) : Out :=
  let d := die.val
  let k := gate.val
  if s.inReset d ∨ ¬ s.is (ARRAY.FROZEN.on d) ∨ s.is (STRCI.AT_LIMIT.on d) ∨ ¬ s.stillRequests d k (s.get (STRCI.FROZEN_AT.on d)) ∨
      cycles.toNat ≤ s.get (ARRAY.FREEZE_LIMIT.on d) * s.get (DCLK.TILE_MHZ.on d) then .next s
  else
    let s := s.countFreeze d cycles.toNat held
    let s := (s.set (STRCI.AT_LIMIT.on d) 1).set (STRCI.COUNTED_AT.on d) s.clock
    let s := (s.set (GATE.LIMIT_GU.on d) k).pageEvent d ARRAY.page 10
    .next ((s.dieEvent d ARRAY.page 0x1412 k).contextFault d 1)

/-- The cycles of a freeze beyond its limit, since they were last counted, are counted on State.clock; the requests that stood then hold
it still (R250, R251). [DEDUCED, log entry 44] -/
def State.countLimited (s : State) (d : Nat) : State :=
  if ¬ s.is (STRCI.AT_LIMIT.on d) ∨ ¬ s.is (ARRAY.FROZEN.on d) then s
  else
    let n := (s.clock - s.get (STRCI.COUNTED_AT.on d)) * s.get (DCLK.TILE_MHZ.on d)
    (s.countFreeze d n ((s.die d).freezers.map (fun e => (e.1 + 256 * e.2.toNat, n)))).set (STRCI.COUNTED_AT.on d) s.clock

/-! The end of a section and the stretch (R252, R365). -/

/-- The stretch accumulator gathers S - 1 for the enabled cycles since the mark (R365). -/
def State.gatherStretch (s : State) (d : Nat) : State :=
  let now := s.get (ARRAY.SECTION_CYCLE.on d)
  let gain := (now - s.get (STRCI.MARK.on d)) * (s.get (STRM.STRETCH.on d) - 65536)
  (s.set (STRCI.SUM.on d) (s.get (STRCI.SUM.on d) + gain)).set (STRCI.MARK.on d) now

/-- Whether every tumbler that the key gives a block, and every SEND, has issued in all of the section's cycles (R176, R244, R252). A
tumbler with no block issues the all-NOP word throughout. -/
def State.sectionIssued (s : State) (d : Nat) (key : Key) : Bool :=
  key.map.all (fun e => decide (key.cycles ≤ (s.tum d e.1).cycle)) &&
    key.gates.all (fun p => (List.range p.steps.length).all (fun j =>
      match s.dueStep d p.gate j with
      | some (x, n) => x.take || decide (key.cycles ≤ n)
      | none => true))

/-- The section has issued SECTION_CYCLES enabled cycles and the quiesce begins (R252). [DESIGN CHOICE, log entry 40] -/
def execSectionEnd (die : DieNo) (s : State) : Out :=
  let d := die.val
  match (s.die d).active with
  | none => .next s
  | some key =>
    if s.inReset d ∨ ¬ s.phaseIs d .inSection ∨ s.is (ARRAY.FROZEN.on d) ∨ s.is (SCAN.SCANNING.on d) ∨ ¬ s.sectionIssued d key then .next s
    else .next (((s.set (ARRAY.SECTION_CYCLE.on d) key.cycles).gatherStretch d).setPhase d .quiesce)

/-- The accumulator has reached 1.0: the clock enable is held low for one cycle (R365). [DEDUCED, log entry 44] -/
def execStretchCycle (die : DieNo) (s : State) : Out :=
  let d := die.val
  let s' := s.gatherStretch d
  if s.inReset d ∨ ¬ s.phaseIs d .inSection ∨ s'.get (STRCI.SUM.on d) < s'.get (STRCI.USED.on d) + 65536 then .next s
  else
    let s := s'.set (STRCI.USED.on d) (s'.get (STRCI.USED.on d) + 65536)
    .next (((s.count (ARRAY.FREEZE_TOTAL.on d)).count (STRM.STRETCH_CYCLES.on d)).carriedFreeze d 1)

end Sys2Proof.Machine
end

