-- ==== Sys2Proof/Machine/Hasp.lean ====
section
/-! DEFINITION. What the hasp links and the stream engine share: transfers and completions, slot tables, the links that are out
and the alternate sets, the timing tree, and a link leaving UP (spec/10_hasp_links.md, spec/11_streams.md). -/

namespace Sys2Proof.Machine

namespace HASPI
/-- A ROOT_STANDBY die has become ROOT (R323). -/
def PROMOTED : Reg := ireg 0x158 1 0
/-- The die relocks after re-parenting (R315, R325). -/
def RELOCK : Reg := ireg 0x159 1 0
/-- Beats until the next slip may come (R315). -/
def SLIP_WAIT : Reg := ireg 0x15A 5 0
/-- The die goes to FAULTED at its next sync hinge, as it free-runs (R323). -/
def FREE_DUE : Reg := ireg 0x15B 1 0
/-- The die follows ALT_PARENT (R323). -/
def ALT_USED : Reg := ireg 0x15C 1 0
/-- READY of the hinge waited at has been sent to the parent, or, at the root, the release beat is chosen (R318). -/
def SENT : Reg := ireg 0x15D 1 0
/-- The release of the hinge waited at is known (R318). -/
def RELEASED : Reg := ireg 0x15E 1 0
/-- The beat at which the next key starts. -/
def START : Reg := ireg 0x15F 56 0
/-- The die has switched frequency in its hold and has still to make its step (R336). -/
def STEP_DUE : Reg := ireg 0x178 1 0
/-- RELEASE for a hinge the die does not wait at yet has come: RELEASE_K and its beat (R264). -/
def NOTED : Reg := ireg 0x179 1 0
end HASPI

namespace STRMI
/-- The die's own switch beat (R363). -/
def OWN : Reg := ireg 0x160 64 0
/-- The directory entry whose stretch is in force; 0x7F for the normal form (R345, R365). -/
def IN_FORCE : Reg := ireg 0x161 7 0x7F
/-- The table key (R345). -/
def TABLE_KEY : Reg := ireg 0x162 12 0
/-- There is a table key. -/
def TABLE_SET : Reg := ireg 0x163 1 0
/-- SCQ_PROD has come up to SCQ_CONS: the ring, of 65,536 records, is full and not empty (R358). -/
def SCQ_WRAP : Reg := ireg 0x17A 1 0
end STRMI

/-! Numbering (R300, R301). -/

/-- q(n, m) of R300. -/
def linkQ (n m : Nat) : Nat := if m < n then m else m - 1

/-- The die at the other end of an on-tray link. -/
def linkPeer (n l : Nat) : Nat := if l / 4 < n then l / 4 else l / 4 + 1

/-- The link number at the other end of an on-tray link. -/
def linkPeerLink (n l : Nat) : Nat := 4 * linkQ (linkPeer n l) n + l % 4

/-- The reach of a link: 0 on-tray, 1 backplane, 2 cable (R305). -/
def linkReach (l : Nat) : Nat := if l < 28 then 0 else if l < 40 then 1 else 2

/-- Whether a link stays on the tray. -/
def onTray (l : Nat) : Bool := decide (l < 28)

/-! The links and streams of a die. -/

/-- The states of a link (HL.STATE). -/
inductive HlState where
  | disabled | detect | equalise | fecAlign | ident | delay | beatLock | up | lost | refused | isolated | fenced | peerFenced
  | failed
  deriving DecidableEq, Repr

/-- The code of a state. -/
def HlState.code : HlState → Nat
  | .disabled => 0
  | .detect => 1
  | .equalise => 2
  | .fecAlign => 3
  | .ident => 4
  | .delay => 5
  | .beatLock => 6
  | .up => 7
  | .lost => 8
  | .refused => 9
  | .isolated => 10
  | .fenced => 11
  | .peerFenced => 12
  | .failed => 13

/-- Whether a link is in a state. -/
def State.linkIs (s : State) (d l : Nat) (x : HlState) : Bool := s.get (HL.STATE.at d l) == x.code

/-- What a link remembers. -/
def State.linkLog (s : State) (d l : Nat) : LinkLog := (aget (s.die d).links l).getD {}

/-- Change what a link remembers. -/
def State.onLink (s : State) (d l : Nat) (f : LinkLog → LinkLog) : State :=
  s.onDie d (fun x => { x with links := aputD x.links l {} (f ((aget x.links l).getD {})) })

/-- A link as the stream engine sees it. -/
def State.slink (s : State) (d l : Nat) : SLink := (aget (s.die d).slinks l).getD {}

/-- Change a link as the stream engine sees it. -/
def State.onSlink (s : State) (d l : Nat) (f : SLink → SLink) : State :=
  s.onDie d (fun x => { x with slinks := aputD x.slinks l {} (f ((aget x.slinks l).getD {})) })

/-- A stream's descriptor is EN. -/
def streamOn (x : Stream) : Bool := x.ctrl.testBit 0

/-- A stream receives. -/
def streamIn (x : Stream) : Bool := x.ctrl.testBit 1

/-- A stream's transfers start at release beats (R347). -/
def streamSync (x : Stream) : Bool := x.ctrl.testBit 2

/-- A stream of a die. -/
def State.stream (s : State) (d id : Nat) : Stream := (aget (s.die d).streams id).getD {}

/-- Send transfers in flight (R348). -/
def inFlight (l : List (Nat × Stream)) : Nat := l.foldl (fun n e => if streamIn e.2 then n else n + e.2.xfers.length) 0

/-- Replace a stream; INFLIGHT follows. -/
def State.setStream (s : State) (d id : Nat) (x : Stream) : State :=
  let s := s.onDie d (fun y => { y with streams := aputD y.streams id {} x })
  s.set (STRM.INFLIGHT.on d) (inFlight (s.die d).streams)

/-- A stream's state follows its transfers, unless it is FENCED or HALTED (R338). -/
def settleStream (x : Stream) : Stream :=
  match x.state with
  | .fenced => x
  | .halted => x
  | _ => { x with state := if x.starts ≠ 0 then .waiting else if x.xfers = [] then .idle else .active }

/-! Completions (R356 to R358). -/

/-- Records in the SCQ. -/
def State.scqHeld (s : State) (d : Nat) : Nat :=
  if s.is (STRMI.SCQ_WRAP.on d) then 65536 else (s.get (STRM.SCQ_PROD.on d) + 65536 - s.get (STRM.SCQ_CONS.on d)) % 65536

/-- Whether the SCQ is full, or a completion waits. -/
def State.scqFull (s : State) (d : Nat) : Bool :=
  decide (2 ^ s.get (STRM.SCQ_LOG2.on d) ≤ s.scqHeld d) || (s.die d).scqWait != []

/-- STATUS of a stream completion (R356). -/
inductive XferStatus where
  | done | window | memError | damaged | timeout | fenced | aborted
  deriving DecidableEq, Repr

/-- The code of a status. -/
def XferStatus.code : XferStatus → Nat
  | .done => 0
  | .window => 1
  | .memError => 2
  | .damaged => 3
  | .timeout => 4
  | .fenced => 5
  | .aborted => 6

/-- The four words of a completion record; of a transfer with no chunk carried, LINK is the stream's link (R356).
[DEDUCED, log entry 50] -/
def State.scqWords (s : State) (d id : Nat) (x : Stream) (t : Xfer) : List Nat :=
  [id + 65536 * t.status + 16777216 * ((streamIn x).toNat + 2 * x.alt.toNat), t.seq, s.get (BEAT.BEAT_LO.on d),
    min t.resent 65535 + 65536 * t.link.getD (x.link.getD 0)]

/-- Write a record into the SCQ. -/
def State.putScq (s : State) (d : Nat) (words : List Nat) : State :=
  let base := s.pair (STRM.SCQ_BASE_LO.on d) (STRM.SCQ_BASE_HI.on d)
  let i := s.get (STRM.SCQ_PROD.on d) % 2 ^ s.get (STRM.SCQ_LOG2.on d)
  let s := ((s.storeWords d (base + 16 * i) words).wrap (STRM.SCQ_PROD.on d)).count (STRM.COMPLETIONS.on d)
  let s := s.put (STRMI.SCQ_WRAP.on d) (s.get (STRM.SCQ_PROD.on d) == s.get (STRM.SCQ_CONS.on d))
  let s := if bitsOf (words.headD 0) 16 8 = 0 then s else s.count (STRM.ERRORS.on d)
  s.pageEvent d STRM.page 8

/-- A transfer completes: its record is written, or waits while the SCQ is full; a status other than DONE marks the runs
carried (R357, R358, R400). -/
def State.completeXfer (s : State) (d id : Nat) (x : Stream) (t : Xfer) : State :=
  let w := s.scqWords d id x t
  let s := if t.status = 0 then s else s.markCarried d 3
  if s.scqFull d then s.onDie d (fun y => { y with scqWait := y.scqWait ++ [w] }) else s.putScq d w

/-- Whether the oldest transfer of a stream is over (R357, R359, R360). -/
def xferOver (x : Stream) (t : Xfer) : Bool := t.ended || decide (t.first + x.chunks ≤ x.acked)

/-- Complete the transfers of a stream that are over, in order (R357). -/
def State.completeOver (s : State) (d id : Nat) : Nat → State
  | 0 => s
  | n + 1 =>
    let x := s.stream d id
    match x.xfers with
    | [] => s
    | t :: rest =>
      if xferOver x t then
        ((s.completeXfer d id x t).setStream d id (settleStream { x with xfers := rest })).completeOver d id n
      else s

/-- The chunk number after the last transfer started or opened. -/
def streamEnd (x : Stream) : Nat :=
  match x.xfers.getLast? with
  | some t => t.first + x.chunks
  | none => x.next

/-- Start a transfer, or open one of a receiving stream (R347). [DEDUCED, log entry 51] -/
def startXfer (x : Stream) : Stream :=
  { x with xfers := x.xfers ++ [{ seq := x.xferSeq, first := streamEnd x }], xferSeq := (x.xferSeq + 1) % 4294967296 }

/-- Starts that wait are served in ascending stream ID while fewer than 512 transfers are in flight and the SCQ has room
(R348, R358, R373). -/
def State.serveStarts (s : State) (d : Nat) : State :=
  (s.die d).streams.foldl (fun s e =>
    s.each (List.range e.2.starts) (fun s _ =>
      let x := s.stream d e.1
      if x.starts ≠ 0 ∧ ¬ s.scqFull d ∧ s.get (STRM.INFLIGHT.on d) < 512 then
        s.setStream d e.1 (settleStream (startXfer { x with starts := x.starts - 1 }))
      else s)) s

/-- A transfer of a sending stream is asked for: it starts, or waits (R347, R348). -/
def State.askStart (s : State) (d id : Nat) : State :=
  let x := s.stream d id
  (s.setStream d id (settleStream { x with starts := x.starts + 1 })).serveStarts d

/-- Completions of transfers that are over, and the starts they make room for. -/
def State.advanceStream (s : State) (d id : Nat) : State :=
  (s.completeOver d id ((s.stream d id).xfers.length)).serveStarts d

/-- Every open transfer of a stream completes with a status, in order, and none waits to start (R364, R374, R376). -/
def State.endXfers (s : State) (d id : Nat) (st : XferStatus) : State :=
  let x := s.stream d id
  let fin := streamEnd x
  let s := x.xfers.foldl (fun s t => s.completeXfer d id x { t with status := st.code }) s
  s.setStream d id (settleStream { x with xfers := [], starts := 0, next := fin, resend := fin, acked := fin, tries := [] })

/-- The body of a stream-fault record, kind 2 (R360). -/
def State.streamFault (s : State) (d code status link id seq chunk : Nat) : State :=
  s.faultRecord d 2 [code + 65536 * status + 16777216 * link, id, seq, chunk % 16777216, s.get (BEAT.BEAT_LO.on d),
    s.get (BEAT.BEAT_HI.on d), 0, 0]

/-- The transfer that holds chunk `c` ends DAMAGED or TIMEOUT and the stream goes to HALTED: event 0x1801 and a stream-fault
record (R360, R368). -/
def State.haltStream (s : State) (d id c : Nat) (st : XferStatus) : State :=
  let x := s.stream d id
  match x.xfers.find? (fun t => decide (t.first ≤ c ∧ c < t.first + x.chunks)) with
  | none => s
  | some t =>
    let mark (u : Xfer) : Xfer := if u.seq = t.seq then { u with status := st.code, ended := true } else u
    let s := s.setStream d id { x with xfers := x.xfers.map mark, state := .halted }
    let s := (s.dieEvent d STRM.page 0x1801).pageEvent d STRM.page 10
    (s.streamFault d 0x1801 st.code (x.link.getD 0) id t.seq c).advanceStream d id

/-! Slot tables (R343, R345, R346). -/

/-- The entry a table assigns to a slot of a beat (R343). -/
def tableEntry (t : SlotTable) (since beat slot : Nat) : Nat :=
  t.entries.getD (8 * (((beat : Int) - (since : Int)) % (t.period : Int)).toNat + slot) 0xFFFFFFFF

/-- The entry in force on a link; none assigned where the link has no table. -/
def State.slotEntry (s : State) (d l beat slot : Nat) : Nat :=
  let k := s.slink d l
  match k.table with
  | none => 0xFFFFFFFF
  | some t => tableEntry t k.since beat slot

/-- The streams a table names. -/
def tableStreams (t : SlotTable) : List Nat :=
  distinct ((t.entries.map (· % 65536) ++ t.entries.map (· / 65536)).filter (· != 0xFFFF))

/-- An entry as it takes effect: a stream whose descriptor does not serve it counts as none (R346). -/
def State.entryTaken (s : State) (d e : Nat) : Nat :=
  let tx := s.stream d (e % 65536)
  let rx := s.stream d (e / 65536)
  (if streamOn tx ∧ ¬ streamIn tx then e % 65536 else 0xFFFF) + 65536 * (if streamOn rx ∧ streamIn rx then e / 65536 else 0xFFFF)

/-- The beat in progress. -/
def State.beat (s : State) (d : Nat) : Nat := s.pair (BEAT.BEAT_LO.on d) (BEAT.BEAT_HI.on d) % 72057594037927936

/-- A stream is carried by a link from now on; a fenced one resumes (R338, R352, R364). -/
def State.placeStream (s : State) (d l id : Nat) (alt : Bool) : State :=
  let x := s.stream d id
  let moved := x.moved || (x.link != none && x.link != some l)
  let x := { x with link := some l, alt := alt, moved := moved }
  s.setStream d id (match x.state with
    | .fenced => settleStream { x with state := .idle }
    | _ => x)

/-- A table takes effect on a link at beat `b0`; a link that is out has every entry none (R343, R345, R346). -/
def State.takeTable (s : State) (d l b0 : Nat) (t : SlotTable) (alt : Bool) : State :=
  if (s.slink d l).state ≠ 0 then s.onSlink d l (fun k => { k with table := none })
  else
    let es := t.entries.map (s.entryTaken d)
    let s := if es = t.entries then s else s.dieEvent d STRM.page 0x1805
    let t := { t with entries := es }
    let s := s.onSlink d l (fun k => { k with table := some t, since := b0, tableKey := t.key, altRec := alt })
    s.each (tableStreams t) (fun s id => s.placeStream d l id alt)

/-! Links that are out, and the alternate sets (R361 to R366, R646, R649). -/

/-- The links that are out. -/
def State.outLinks (s : State) (d : Nat) : Nat := s.pair (STRM.OUT_LO.on d) (STRM.OUT_HI.on d)

/-- Set the links that are out; LOST_PEERS follows (R646). -/
def State.setOut (s : State) (d m : Nat) : State :=
  let lost := (List.range 8).filter (fun p => p != d && decide (m / 2 ^ (4 * linkQ d p) % 16 = 15))
  (s.setPair (STRM.OUT_LO.on d) (STRM.OUT_HI.on d) m).set (DFAULT.LOST_PEERS.on d) (lost.foldl (fun v p => v + 2 ^ p) 0)

/-- Whether a link is absent: the form is the variant for the die at its other end (R649). -/
def State.absentLink (s : State) (d l : Nat) : Bool :=
  s.get (ARRAY.FORM.on d) != 0xF && onTray l && linkPeer d l == s.get (ARRAY.FORM.on d)

/-- The set of out links that LOST_MASK is compared with (R362, R649). -/
def State.outMask (s : State) (d : Nat) : Nat :=
  ((List.range 48).filter (fun l => (s.outLinks d).testBit l && !s.absentLink d l)).foldl (fun v l => v + 2 ^ l) 0

/-- Where the alternate directory lies (R361). -/
def State.altDir (s : State) (d : Nat) : Nat := s.ringBase d + s.le d (s.ringBase d + 0x40) 8

/-- The directory entry for a set of out links, of a keyring that has been checked (R362). -/
def State.altFor (s : State) (d mask : Nat) : Option Nat :=
  if ¬ s.is (KRING.VERIFIED.on d) then none
  else (List.range (s.le d (s.altDir d) 2)).find? (fun i => s.le d (s.altDir d + 16 + 32 * i) 8 == mask)

/-- The stretch of a directory entry; 1.0 in the normal form (R361, R365). -/
def State.altStretch (s : State) (d i : Nat) : Nat :=
  if i = 0x7F then 0x10000 else s.le d (s.altDir d + 16 + 32 * i + 8) 4

/-- The records of an entry for the table key (R361). -/
def State.altRecords (s : State) (d i : Nat) : List SlotTable :=
  if i = 0x7F ∨ ¬ s.is (STRMI.TABLE_SET.on d) ∨ ¬ s.is (KRING.VERIFIED.on d) then []
  else ((s.altAddrs d (s.ringBase d) (s.altDir d) i).map (s.readTable d)).filter
    (fun t => t.key == s.get (STRMI.TABLE_KEY.on d))

/-- The die's own switch beat: the first multiple of 16 at least 16 beats on, and never earlier than one proposed and still to
come (R363, R366). -/
def State.ownBeat (s : State) (d : Nat) : Nat :=
  let own := (s.beat d + 16 + 15) / 16 * 16
  if s.is (STRM.SWITCH_PENDING.on d) then max own (s.get (STRMI.OWN.on d)) else own

/-- The stretch of the set selected is in force from now on (R365). [DEDUCED, log entry 52] -/
def State.takeStretch (s : State) (d : Nat) : State :=
  let i := s.get (STRM.ALT_SET.on d)
  let s := s.gatherStretch d
  (s.set (STRM.STRETCH.on d) (s.altStretch d i)).set (STRMI.IN_FORCE.on d) i

/-- Whether a set changes a link's table for the table key (R363). -/
def State.changes (s : State) (d i l : Nat) : Bool :=
  (s.slink d l).state == 0 && ((s.slink d l).altRec || (s.altRecords d i).any (fun t => t.link == l))

/-- Select the form for the links that are out: the normal form, an entry with a switch beat to come, or none, event 0x1803
(R362, R363, R366). [DEDUCED, log entry 52] -/
def State.selectSet (s : State) (d : Nat) : State :=
  let m := s.outMask d
  let s := s.pageEvent d STRM.page 9
  if m = 0 then
    (((s.set (STRM.ALT_SET.on d) 0x7F).set (STRM.NO_ALT.on d) 0).set (STRM.SWITCH_PENDING.on d) 0).takeStretch d
  else match s.altFor d m with
    | none => (s.set (STRM.NO_ALT.on d) 1).dieEvent d STRM.page 0x1803
    | some i =>
      let own := s.ownBeat d
      let s := ((s.set (STRM.ALT_SET.on d) i).set (STRM.NO_ALT.on d) 0).set (STRM.SWITCH_PENDING.on d) 1
      let s := s.set (STRMI.OWN.on d) own
      s.each (List.range 48) (fun s l => s.onSlink d l (fun k => { k with switching := s.changes d i l, fixed := false }))

/-- Fenced streams that no table in force carries complete their open transfers FENCED, and stay FENCED (R364). -/
def State.endFenced (s : State) (d : Nat) : State :=
  (s.die d).streams.foldl (fun s e =>
    let carried := (s.die d).slinks.any (fun k =>
      match k.2.table with
      | some t => (tableStreams t).contains e.1
      | none => false)
    if e.2.state = .fenced ∧ ¬ carried then (s.endXfers d e.1 .fenced).serveStarts d else s) s

/-- The record a link takes in a set at beat `b0`: the set's own for the table key, or the link's normal-form table (R345, R363). -/
def State.takeSetTable (s : State) (d i l b0 : Nat) : State :=
  match (s.altRecords d i).find? (fun t => t.link == l) with
  | some t => s.takeTable d l b0 t true
  | none =>
    match (s.slink d l).normal with
    | some t => s.takeTable d l b0 t false
    | none => s.onSlink d l (fun k => { k with table := none, altRec := false })

/-- A link goes out for streams: the streams it carries are fenced, each sending one to send again from its oldest uncredited
chunk, its credits, slot records and table go; a readmission that is pending is cancelled (R327, R362, R372, R646). -/
def State.linkOut (s : State) (d l : Nat) : State :=
  let ids := match (s.slink d l).table with
    | some t => tableStreams t
    | none => []
  let s := s.each ids (fun s id =>
    let x := s.stream d id
    if x.state = .halted then s else s.setStream d id { x with state := .fenced, resend := x.acked })
  let s := s.onSlink d l (fun k => { k with state := 1, credits := 0, recs := [], open_ := [], naks := [], table := none,
                                            altRec := false, switching := false, peer := none, mine := none, theirs := none })
  s.setOut d (withBit (s.outLinks d) l true)

/-! The timing tree (R313, R318, R323, R332). -/

/-- Whether a die is the root (R313, R323). -/
def State.isRoot (s : State) (d : Nat) : Bool :=
  s.get (BEAT.ROLE.on d) == 1 || (s.get (BEAT.ROLE.on d) == 2 && s.is (HASPI.PROMOTED.on d))

/-- The parent link of a die. -/
def State.parentLink (s : State) (d : Nat) : Nat :=
  if s.is (HASPI.ALT_USED.on d) then s.get (BEAT.ALT_PARENT.on d) else s.get (BEAT.PARENT.on d)

/-- Whether a link is the parent link. -/
def State.isParent (s : State) (d l : Nat) : Bool := !s.isRoot d && s.parentLink d == l

/-- Whether every timing child has sent READY(k); a child whose link is not UP is not waited for (R318, R332). -/
def State.childrenReady (s : State) (d k : Nat) : Bool :=
  (s.die d).links.all (fun e => !(e.2.child && s.linkIs d e.1 .up) || e.2.childReady == some k)

/-- The release beat a die waits for is known: the next key starts there, or, where its boundary has passed, at the next
boundary, with event 0x170B. A die that does not wait at that hinge yet keeps it noted (R264, R318, R320). -/
def State.takeRelease (s : State) (d k beat : Nat) : State :=
  let s := (s.set (BEAT.RELEASE_K.on d) k).setPair (BEAT.RELEASE_BEAT_LO.on d) (BEAT.RELEASE_BEAT_HI.on d) beat
  if s.is (HASPI.RELEASED.on d) then s
  else if ¬ s.phaseIs d .releaseWait ∨ k ≠ s.get (HMBX.SYNC_NOW.on d) then s.set (HASPI.NOTED.on d) 1
  else
    let s := (s.set (HASPI.RELEASED.on d) 1).set (HASPI.NOTED.on d) 0
    if s.beat d < beat then s.set (HASPI.START.on d) beat
    else (s.set (HASPI.START.on d) (s.beat d + 1)).dieEvent d BEAT.page 0x170B

/-- A die that is ready for its sync hinge, LOCKED, with READY from every timing child, sends READY to its parent; the root
names the release beat: the first boundary at least RELEASE_LEAD tile cycles later. How far the beat in progress has gone is a
free value (R318). [DESIGN CHOICE, log entry 54] -/
def State.agree (s : State) (d : Nat) : State :=
  let k := s.get (HMBX.SYNC_NOW.on d)
  if ¬ s.phaseIs d .releaseWait ∨ s.get (BEAT.LOCK.on d) ≠ 2 ∨ s.is (HASPI.SENT.on d) ∨ ¬ s.childrenReady d k then s
  else if s.isRoot d then
    let off := s.free % 256
    let s := ((s.useFree.set (HASPI.SENT.on d) 1).set (BEAT.READY_K.on d) k)
    s.takeRelease d k (max (s.beat d + 1) (s.beat d + (s.get (BEAT.RELEASE_LEAD.on d) + off + 255) / 256))
  else if s.linkIs d (s.parentLink d) .up then (s.set (HASPI.SENT.on d) 1).set (BEAT.READY_K.on d) k
  else s

/-- A release that came before the die waited at its hinge is taken (R264). -/
def State.takeNoted (s : State) (d : Nat) : State :=
  if s.is (HASPI.NOTED.on d) ∧ s.get (BEAT.RELEASE_K.on d) = s.get (HMBX.SYNC_NOW.on d) then
    s.takeRelease d (s.get (BEAT.RELEASE_K.on d)) (s.pair (BEAT.RELEASE_BEAT_LO.on d) (BEAT.RELEASE_BEAT_HI.on d))
  else s

/-- The depth of a die from its parent's; deeper than 16 it does not lock, event 0x1705 (R313). -/
def State.takeDepth (s : State) (d parent : Nat) : State :=
  let s := s.set (BEAT.DEPTH.on d) (min (parent + 1) 31)
  if 16 < parent + 1 then (s.set (BEAT.LOCK.on d) 0).dieEvent d BEAT.page 0x1705 else s

/-- The parent link has left UP: the die re-parents, becomes ROOT, or free-runs (R323, R332). -/
def State.lostParent (s : State) (d : Nat) : State :=
  let alt := s.get (BEAT.ALT_PARENT.on d)
  if s.is (BEAT.ALT_VALID.on d) ∧ s.linkIs d alt .up then
    let s := ((s.set (HASPI.ALT_USED.on d) 1).set (HASPI.RELOCK.on d) 1).set (BEAT.LOCK.on d) 1
    let s := (s.onLink d alt (fun k => { k with errs := [], latest := none })).dieEvent d BEAT.page 0x170C
    ((s.takeDepth d (s.linkLog d alt).peerDepth).set (HASPI.SENT.on d) 0)
  else if s.get (BEAT.ROLE.on d) = 2 then
    let s := ((s.set (HASPI.PROMOTED.on d) 1).set (BEAT.DEPTH.on d) 0).set (BEAT.LOCK.on d) 2
    ((s.set (HASPI.SENT.on d) 0).dieEvent d BEAT.page 0x170C).agree d
  else ((s.set (BEAT.LOCK.on d) 3).set (HASPI.FREE_DUE.on d) 1).dieEvent d BEAT.page 0x1705

/-! Link states. -/

/-- Whether the link at the other end is that of a timing child; CHILDREN_LO and CHILDREN_HI follow (R313). -/
def State.setChild (s : State) (d l : Nat) (b : Bool) : State :=
  let s := s.onLink d l (fun k => { k with child := b })
  if l < 32 then s.setBit (BEAT.CHILDREN_LO.on d) l b else s.setBit (BEAT.CHILDREN_HI.on d) (l - 32) b

/-- A link shows a state; what its leaving UP brings is left to `State.leftUp`. -/
def State.putLink (s : State) (d l : Nat) (x : HlState) : State :=
  let left := if s.linkIs d l .up then some s.clock else (s.linkLog d l).leftAt
  let s := (s.set (HL.STATE.at d l) x.code).pageEvent d HL.page 8 l
  s.onLink d l (fun k => { k with entered := s.clock, leftAt := left, retryWait := false })

/-- Links have left UP in one cycle: each goes out for streams, the form for the links now out is selected once, and the die loses
its parent or stops waiting for a child (R323, R327, R332, R362). -/
def State.leftUp (s : State) (d : Nat) (ls : List Nat) : State :=
  if ls = [] then s
  else
    let parent := ls.any (fun l => s.isParent d l)
    let s := (s.each ls (fun s l => s.linkOut d l)).selectSet d
    let s := s.each ls (fun s l =>
      (s.onLink d l (fun k => { k with childReady := none, errs := [], latest := none, marked := none, missed := 0 })).setChild d l false)
    if parent then s.lostParent d else s.agree d

/-- A link takes a state. -/
def State.toLink (s : State) (d l : Nat) (x : HlState) : State :=
  if s.linkIs d l x then s
  else if s.linkIs d l .up then (s.putLink d l x).leftUp d [l]
  else s.putLink d l x

/-- The order in which causes of one cycle resolve (R329). -/
def linkRank (code : Nat) : Nat :=
  if code = 11 ∨ code = 12 then 0 else if code = 10 then 1 else if code = 8 then 2 else if code = 9 then 3 else 4

/-- Whether a cause that takes a link from UP to a state acts on it now, and whether the link takes the state: it is UP, or a cause
of another state has taken it from UP in this cycle (R329). [DEDUCED, log entry 53] -/
def State.leaving (s : State) (d l : Nat) (x : HlState) : Option Bool :=
  let was := linkRank (s.get (HL.STATE.at d l))
  if s.linkIs d l .up then some true
  else if (s.linkLog d l).leftAt = some s.clock ∧ was < 4 ∧ was ≠ linkRank x.code then some (decide (linkRank x.code < was))
  else none

/-- An UP link becomes LOST: event 0x1702 with the cause (R321, R329). -/
def State.loseLink (s : State) (d l cause : Nat) : State :=
  match s.leaving d l .lost with
  | none => s
  | some takes =>
    let s := s.dieEvent d HL.page 0x1702 cause 0 0 l
    if takes then ((s.set (HL.CAUSE.at d l) cause).count (HL.LOSSES.at d l)).toLink d l .lost else s

/-- An UP link is isolated: event 0x1704 with the cause (R325, R329). [DEDUCED, log entry 53] -/
def State.isolateLink (s : State) (d l cause : Nat) : State :=
  match s.leaving d l .isolated with
  | none => s
  | some takes =>
    let s := s.dieEvent d HL.page 0x1704 cause 0 0 l
    if takes then (s.set (HL.CAUSE.at d l) cause).toLink d l .isolated else s

/-- FENCE_n is asserted at the die: every link goes to FENCED, all in one cycle (R324). A link that is not enabled drives nothing (R328).
[DEDUCED, log entry 53] -/
def State.fenceLinks (s : State) (d : Nat) : State :=
  let ls := (List.range 48).filter (fun l => s.is (HL.EN.at d l) && !s.linkIs d l .fenced)
  let up := ls.filter (fun l => s.linkIs d l .up)
  (s.each ls (fun s l => s.putLink d l .fenced)).leftUp d up

/-- FENCE_n is no longer asserted: the links train again (R324). [DEDUCED, log entry 53] -/
def State.unfenceLinks (s : State) (d : Nat) : State :=
  s.each (List.range 48) (fun s l => if s.linkIs d l .fenced then s.toLink d l (if s.is (HL.EN.at d l) then .detect else .disabled) else s)

/-- A link's slot violations; more than SLOT_LIMIT within 1 ms isolate it (R325). -/
def State.slotViolations (s : State) (d l n : Nat) : State :=
  if n = 0 ∨ ¬ s.linkIs d l .up then s
  else
    let times := List.replicate n s.clock ++ (s.linkLog d l).slots.filter (fun t => s.clock < t + 1000)
    let s := (s.count (HL.SLOT_VIOL.at d l) n).onLink d l (fun k => { k with slots := times })
    if s.get (HL.SLOT_LIMIT.at d l) < times.length then s.isolateLink d l 2 else s

/-- A credit violation (R325, R355). -/
def State.creditViolation (s : State) (d l : Nat) : State :=
  if s.linkIs d l .up then (s.count (HL.CREDIT_VIOL.at d l)).isolateLink d l 3 else s

/-- A protocol violation (R325). [DEDUCED, log entry 55] -/
def State.protocolViolation (s : State) (d l : Nat) : State := s.isolateLink d l 4

/-- A link comes UP: its credits, and, where it has been UP before, a readmission to propose; the last link to a die of PEER_MASK lets
W0 record DIE_READY (R308, R309, R351, R367). -/
def State.linkUp (s : State) (d l : Nat) : State :=
  let again := (s.linkLog d l).everUp
  let s := (s.set (HL.RETRIES.at d l) 0).dieEvent d HL.page 0x1701 0 0 0 l
  let s := s.toLink d l .up
  let s := s.onLink d l (fun k => { k with everUp := true, marked := none, missed := 0, lostCw := 0, ue := [], slots := [], rx := { k.rx with place := none, gap := false } })
  let s := s.dieReady d
  if again ∧ (s.outLinks d).testBit l then
    s.onSlink d l (fun k => { k with state := 2, credits := 64, acks := [], mine := some (s.get (HMBX.SYNC_NOW.on d) + 2) })
  else s.onSlink d l (fun k => { k with state := 0, credits := 64, acks := [] })

/-! The release of a sync hinge and the end of a context (R345, R367, R376). -/

/-- Links whose readmission hinge this is rejoin, one event 0x1807 each, and the set for the smaller set of out links is
selected (R367). -/
def State.readmitLinks (s : State) (d k : Nat) : State :=
  let due := (List.range 48).filter (fun l =>
    let x := s.slink d l
    match x.mine, x.theirs with
    | some a, some b => x.state == 2 && decide (max a b = k)
    | _, _ => false)
  if due = [] then s
  else
    let s := s.each due (fun s l =>
      let s := s.onSlink d l (fun x => { x with state := 0, mine := none, theirs := none })
      (s.setOut d (withBit (s.outLinks d) l false)).dieEvent d STRM.page 0x1807)
    s.selectSet d

/-- A die that has had no READMIT by the time SYNC_NOW reaches its own k - 1 proposes again (R367). -/
def State.readmitAgain (s : State) (d : Nat) : State :=
  let now := s.get (HMBX.SYNC_NOW.on d)
  s.each (List.range 48) (fun s l => s.onSlink d l (fun x =>
    if x.state = 2 ∧ x.theirs = none ∧ x.mine = some (now + 1) then { x with mine := some (now + 2) } else x))

/-- At a release beat: readmissions, then the tables of the key that starts, effective from beat `b0`, then the records of the set in
force for it, and after a readmission every record that has changed, then the transfers of SYNC streams. A link whose switch beat is
still to come takes its record of the set then, chosen for the key that starts (R345, R347, R367, R370, R371). -/
def State.releaseTables (s : State) (d k b0 : Nat) (key : Key) : State :=
  let before := s.get (STRMI.IN_FORCE.on d)
  let s := (s.set (STRMI.TABLE_KEY.on d) key.number).set (STRMI.TABLE_SET.on d) 1
  let back := s.outLinks d
  let s := s.readmitLinks d k
  let readmitted : Bool := s.outLinks d != back
  let s := s.each (List.range key.slots.length) (fun s i =>
    match key.slots[i]? with
    | some t => s.onSlink d t.link (fun x => { x with normal := some t, normalKey := key.number })
    | none => s)
  let s := if readmitted ∧ ¬ s.is (STRM.NO_ALT.on d) then (s.takeStretch d).set (STRM.SWITCH_PENDING.on d) 0 else s
  let i := s.get (STRMI.IN_FORCE.on d)
  let recs := s.altRecords d i
  let old := s.altRecords d before
  let changed (l : Nat) : Bool := readmitted && (old.find? (fun t => t.link == l) != recs.find? (fun t => t.link == l))
  let s := if readmitted then s.each (List.range 48) (fun s l => s.onSlink d l (fun x => { x with switching := false, peer := none, fixed := false })) else s
  let s := s.each (List.range 48) (fun s l =>
    if recs.any (fun t => t.link == l) ∨ key.slots.any (fun t => t.link == l) ∨ changed l ∨ (readmitted ∧ (s.slink d l).table = none) then
      s.takeSetTable d (if (s.slink d l).switching then 0x7F else i) l b0
    else s)
  let s := if s.is (STRM.SWITCH_PENDING.on d) then
      s.each (List.range 48) (fun s l => s.onSlink d l (fun x =>
        { x with switching := x.switching || (i != s.get (STRM.ALT_SET.on d) && s.changes d (s.get (STRM.ALT_SET.on d)) l) }))
    else s
  let s := if readmitted then s.endFenced d else s
  let named := (s.die d).slinks.flatMap (fun e =>
    match e.2.table with
    | some t => (t.entries.map (· % 65536)).filter (· != 0xFFFF)
    | none => [])
  let ids := ((s.die d).streams.map Prod.fst).filter (fun id =>
    named.contains id && streamSync (s.stream d id) && streamOn (s.stream d id))
  s.each ids (fun s id => s.askStart d id)

/-- The context closes: every open transfer completes ABORTED, every table is none, the normal form is selected; the links that
are UP are in service for the next context (R376). [DEDUCED, log entry 48] -/
def State.closeStreams (s : State) (d : Nat) : State :=
  let s := (s.die d).streams.foldl (fun s e => s.endXfers d e.1 .aborted) s
  let s := s.each (List.range 48) (fun s l =>
    let up := s.linkIs d l .up
    let s := s.onSlink d l (fun k =>
      { k with state := if up then 0 else k.state, table := none, normal := none, altRec := false, tableKey := 0, recs := [],
               switching := false, peer := none, fixed := false, mine := none, theirs := none })
    if up then s.setOut d (withBit (s.outLinks d) l false) else s)
  let s := ((s.set (STRM.ALT_SET.on d) 0x7F).set (STRM.NO_ALT.on d) 0).set (STRM.SWITCH_PENDING.on d) 0
  let s := ((s.set (HASPI.SENT.on d) 0).set (HASPI.RELEASED.on d) 0).set (HASPI.NOTED.on d) 0
  ((s.takeStretch d).set (STRMI.TABLE_KEY.on d) 0).set (STRMI.TABLE_SET.on d) 0

/-! The keyring check ends. -/

/-- The check ends (R245). Links that are out have their set selected from the keyring now checked (R362).
[DEDUCED, log entry 42] -/
def execKeyringCheckDone (die : DieNo) (ecc : Ecc) (s : State) : Out :=
  let d := die.val
  if s.inReset d ∨ ¬ s.is (KRING.CHECKING.on d) then .next s
  else
    let s := s.set (KRING.CHECKING.on d) 0
    let base := s.ringBase d
    let size := if s.permitted d 6 false base 256 then s.le d (base + 8) 8 else 256
    let seen := (s.readEffects d base size ecc)
    let bad := if s.readable d base size ecc then s.checkKeyring d base else some ⟨1, 0, 0xF, none, 0⟩
    match bad with
    | some r => .next ((seen.set (KRING.VERDICT.on d) r.code).refuse d r false)
    | none =>
      let s := (seen.set (KRING.VERIFIED.on d) 1).set (KRING.NKEYS.on d) (s.le d (base + 6) 2)
      let s := s.set (KRING.MIN_SYNC_BEATS.on d) (s.le d (base + 0x1C) 4)
      let s := s.setPair (KRING.KEYRING_ID_LO.on d) (KRING.KEYRING_ID_HI.on d) (s.le d (base + 0x10) 8)
      let s := s.set (KRING.VARIANTS.on d) ((s.variantsOf d base).foldl (fun m n => withBit m n true) 0)
      .next (if s.outMask d = 0 then s else s.selectSet d)

end Sys2Proof.Machine
end

