-- ==== Sys2Proof/Machine/Links.lean ====
section
/-! DEFINITION. The hasp links: training, identity, beats and their agreement, loss and isolation, and fault records forwarded
over them (spec/10_hasp_links.md, R404 and R405 of spec/12_context_runs.md). -/

namespace Sys2Proof.Machine

/-- A link takes a training state from the one before it; a link that waits to train again makes no progress (R308). -/
def State.trains (s : State) (d l : Nat) (x : HlState) : Bool :=
  !s.inReset d && s.linkIs d l x && !(s.linkLog d l).retryWait

/-- A link goes to DETECT, and forgets its training and what it has heard. -/
def State.toDetect (s : State) (d l : Nat) : State :=
  (s.onLink d l (fun k => { k with idOk := false, peerOk := false, probes := [], peerLocked := false, lockedAt := none, diffs := [], errs := [], latest := none, rx := {}, tx := { k.tx with words := [], headers := [], mark := none, probes := 0, probeWait := 0, replies := [], fragment := 0 } })).toLink d l .detect

/-- A link is refused: event 0x1703 with the code and the partner's claimed identity. Where another cause has just taken it from UP,
the event alone (R311, R329). [DEDUCED, log entry 53] -/
def State.refuseLink (s : State) (d l code : Nat) : State :=
  let who := s.get (HL.PEER_DIE.at d l) + 256 * s.get (HL.PEER_LINK.at d l)
  let s := s.dieEvent d HL.page 0x1703 code (s.get (HL.PEER_TRAY_LO.at d l)) who l
  if s.leaving d l .refused = some false then s else (s.set (HL.CAUSE.at d l) code).toLink d l .refused

/-! Enabling (R309, R328). -/

/-- EN = 1: a link that was disabled starts at DETECT, or is FENCED with its die (R309, R324). -/
def execLinkEnable (req : Requester) (die : DieNo) (link : LinkNo) (s : State) : Out :=
  let d := die.val
  let l := link.val
  .next (s.onWrite d HL.page HL.EN l req.val 1 (fun s =>
    let s := s.set (HL.EN.at d l) 1
    if ¬ s.linkIs d l .disabled then s
    else if s.is (LINEI.FENCING.on d) then s.toLink d l .fenced else s.toDetect d l))

/-- EN = 0: the link goes to DISABLED (R328). -/
def execLinkDisable (req : Requester) (die : DieNo) (link : LinkNo) (s : State) : Out :=
  let d := die.val
  let l := link.val
  .next (s.onWrite d HL.page HL.EN l req.val 0 (fun s =>
    (s.set (HL.EN.at d l) 0).toLink d l .disabled))

/-- RETRAIN: to DETECT, an UP link by way of LOST; refused in FENCED, and in ISOLATED before ISOLATE_HOLD (R321, R326, R328).
[DEDUCED, log entry 53] -/
def execRetrain (req : Requester) (die : DieNo) (link : LinkNo) (s : State) : Out :=
  let d := die.val
  let l := link.val
  .next (s.onWrite d HL.page HL.RETRAIN l req.val 2 (fun s =>
    let early := s.linkIs d l .isolated &&
      decide (s.clock < (s.linkLog d l).entered + 1000 * s.get (HL.ISOLATE_HOLD.at d l))
    if s.linkIs d l .fenced ∨ early then s.regFault d HL.page HL.RETRAIN l .accessErr req.val 2
    else if ¬ s.is (HL.EN.at d l) then s
    else (s.loseLink d l 6).toDetect d l))

/-! Training (R308, R312, R316). -/

/-- Signal is present on both lanes. -/
def execSignalDetect (die : DieNo) (link : LinkNo) (s : State) : Out :=
  let d := die.val
  let l := link.val
  .next (if s.trains d l .detect then s.toLink d l .equalise else s)

/-- Both ends have adapted: what the lanes settled on is shown, and precoding is used only where both ends allow it (R303). -/
def execEqualiseDone (die : DieNo) (link : LinkNo) (swapped partnerPrecodes : Bool) (snr0 snr1 : BitVec 8) (s : State) : Out :=
  let d := die.val
  let l := link.val
  if ¬ s.trains d l .equalise then .next s
  else
    let s := (s.put (HL.LANE_SWAP.at d l) swapped).put (HL.PRECODE_ON.at d l) (s.is (HL.PRECODE_ALLOW.at d l) && partnerPrecodes)
    .next (((s.set (HL.SNR_0.at d l) snr0.toNat).set (HL.SNR_1.at d l) snr1.toNat).toLink d l .fecAlign)

/-- 64 codewords in a row have decoded with no uncorrectable error: the link enters IDENT and takes the HLID fields as they stand (R308,
R333). -/
def execFecAlignDone (die : DieNo) (link : LinkNo) (s : State) : Out :=
  let d := die.val
  let l := link.val
  if ¬ s.trains d l .fecAlign ∨ (s.linkLog d l).rx.clean < 64 then .next s
  else
    let tag := s.pair (HLID.INST_TAG_LO.on d) (HLID.INST_TAG_HI.on d)
    let tray := s.pair (HLID.TRAY_ID_LO.on d) (HLID.TRAY_ID_HI.on d)
    let set := s.is (HLID.TAG_SET.on d)
    .next ((s.onLink d l (fun k => { k with tag := tag, tray := tray, tagSet := set, idOk := false, peerOk := false })).toLink d l .ident)

/-- IDENT and IDENT_OK have both come: the link measures its delay (R308). -/
def State.identified (s : State) (d l : Nat) : State :=
  let k := s.linkLog d l
  if k.idOk ∧ k.peerOk then (s.onLink d l (fun k => { k with probes := [] })).toLink d l .delay else s

/-- The first code of R310 that refuses an IDENT. -/
def State.identCheck (s : State) (d l : Nat) (i : Ident) : Option Nat :=
  let k := s.linkLog d l
  let exp := s.pair (HL.EXP_TRAY_LO.at d l) (HL.EXP_TRAY_HI.at d l)
  if ¬ onTray l ∧ ¬ k.tagSet then some 1
  else if ¬ onTray l ∧ i.tag.toNat ≠ k.tag then some 2
  else if onTray l ∧ (i.tray.toNat ≠ k.tray ∨ i.die.toNat ≠ linkPeer d l ∨ i.link.toNat ≠ linkPeerLink d l) then some 3
  else if s.is (HL.EXP_VALID.at d l) ∧ (i.tray.toNat ≠ exp ∨ i.die.toNat ≠ s.get (HL.EXP_DIE.at d l) ∨
      i.link.toNat ≠ s.get (HL.EXP_LINK.at d l)) then some 4
  else if i.reach.toNat ≠ linkReach l then some 5
  else if i.member.toNat ≠ s.get (DSYS.MEMBER.on d) then some 6
  else if i.version.toNat ≠ 1 then some 7
  else none

/-- The partner's IDENT, arrived as often as it must: its claims are kept, and it is checked (R310, R311). After UP it is a protocol
violation (R325). -/
def State.takeIdent (s : State) (d l : Nat) (ident : Ident) : State :=
  if s.inReset d then s
  else if s.linkIs d l .up then s.protocolViolation d l
  else if ¬ s.trains d l .ident then s
  else
    let s := s.setPair (HL.PEER_TRAY_LO.at d l) (HL.PEER_TRAY_HI.at d l) ident.tray.toNat
    let s := (s.set (HL.PEER_DIE.at d l) ident.die.toNat).set (HL.PEER_LINK.at d l) ident.link.toNat
    let s := s.set (HL.PEER_REACH.at d l) ident.reach.toNat
    match s.identCheck d l ident with
    | some c => s.refuseLink d l c
    | none => (s.onLink d l (fun k => { k with idOk := true })).identified d l

/-- The partner's IDENT has arrived identical in 16 good CCBs (R308, R310). -/
def execIdent (die : DieNo) (link : LinkNo) (ident : Ident) (s : State) : Out := .next (s.takeIdent die.val link.val ident)

/-- An IDENT message in a CCB: the sixteenth identical one in a row is taken; after UP the first is a violation (R308, R325).
[DEDUCED, log entry 53] -/
def State.hearIdent (s : State) (d l : Nat) (ident : Ident) : State :=
  let rx := (s.linkLog d l).rx
  let n := if rx.ident = some ident then rx.idents + 1 else 1
  let s := s.onLink d l (fun k => { k with rx := { k.rx with ident := some ident, idents := n } })
  if s.linkIs d l .up ∨ (16 ≤ n ∧ ¬ (s.linkLog d l).idOk) then s.takeIdent d l ident else s

/-- The partner's IDENT_OK (R308). -/
def State.takeIdentOk (s : State) (d l : Nat) : State :=
  if s.trains d l .ident then (s.onLink d l (fun k => { k with peerOk := true })).identified d l else s

/-- IDENT_OK arrives (R308). -/
def execIdentOk (die : DieNo) (link : LinkNo) (s : State) : Out := .next (s.takeIdentOk die.val link.val)

/-- The partner sends REFUSE: code 8 (R310, R311). [DEDUCED, log entry 53] -/
def State.takeRefuse (s : State) (d l : Nat) : State :=
  if s.trains d l .ident ∨ s.trains d l .delay ∨ s.trains d l .beatLock ∨
      (¬ s.inReset d ∧ (s.linkIs d l .up ∨ s.leaving d l .refused ≠ none)) then s.refuseLink d l 8 else s

/-- REFUSE arrives (R311). -/
def execRefuse (die : DieNo) (link : LinkNo) (_code : BitVec 8) (s : State) : Out := .next (s.takeRefuse die.val link.val)

/-- A probe is received: a reply with its stamp and the turnaround waits to be sent (R312). -/
def State.takeProbe (s : State) (d l : Nat) (stamp : BitVec 64) (turnaround : BitVec 32) : State :=
  if s.trains d l .ident ∨ s.trains d l .delay ∨ s.trains d l .beatLock ∨ (¬ s.inReset d ∧ s.linkIs d l .up) then
    s.onLink d l (fun k => { k with tx := { k.tx with replies := k.tx.replies ++ [(stamp.toNat, turnaround.toNat)] } })
  else s

/-- DELAY_REQ arrives (R312). -/
def execDelayReq (die : DieNo) (link : LinkNo) (stamp : BitVec 64) (turnaround : BitVec 32) (s : State) : Out :=
  .next (s.takeProbe die.val link.val stamp turnaround)

/-- A probe's reply: the time since its stamp, less the partner's turnaround, in eighths of a tile cycle (R312). -/
def State.takeReply (s : State) (d l : Nat) (stamp : BitVec 64) (turnaround : BitVec 32) (time : BitVec 64) : State :=
  if s.trains d l .delay ∧ (s.linkLog d l).probes.length < 64 then
    s.onLink d l (fun k => { k with probes := k.probes ++ [(time - stamp).toNat - turnaround.toNat] }) else s

/-- DELAY_RSP arrives (R312). -/
def execDelayRsp (die : DieNo) (link : LinkNo) (stamp : BitVec 64) (turnaround : BitVec 32) (time : BitVec 64) (s : State) : Out :=
  .next (s.takeReply die.val link.val stamp turnaround time)

/-- Insert a number into an ascending list. -/
def insertNat (x : Nat) : List Nat → List Nat
  | [] => [x]
  | y :: t => if x ≤ y then x :: y :: t else y :: insertNat x t

/-- An ascending list of the same numbers. -/
def sortNat (l : List Nat) : List Nat := l.foldr insertNat []

/-- A quotient whose rounding the spec leaves open: rounded down, or up by a free value where it is not exact.
[DESIGN CHOICE, log entry 54] -/
def State.roundFree (s : State) (a b : Nat) : Nat := a / b + (if a % b = 0 then 0 else s.free % 2)

/-- The 64 round trips are measured: D is the median of half of each (R312). [DESIGN CHOICE, log entry 54] -/
def execDelayDone (die : DieNo) (link : LinkNo) (s : State) : Out :=
  let d := die.val
  let l := link.val
  let p := sortNat (s.linkLog d l).probes
  if ¬ s.trains d l .delay ∨ p.length < 64 then .next s
  else
    let v := s.roundFree (p.getD 31 0 + p.getD 32 0) 4
    let s := (s.useFree.set (HL.DELAY.at d l) v).toLink d l .beatLock
    .next (if s.isParent d l ∧ s.get (BEAT.LOCK.on d) ≠ 2 then s.set (BEAT.LOCK.on d) 1 else s)

/-- The sum of the errors of the last beats on the parent link, in eighths of a tile cycle. -/
def errSum (l : List Int) : Int := l.foldl (· + ·) 0

/-- Whether the average error exceeds a number of eighths. -/
def errOver (l : List Int) (n : Nat) : Bool := decide ((n * l.length : Nat) < (errSum l).natAbs)

/-- Whether 16 markers have arrived on the parent link and place the die's boundary within 2 tile cycles of its parent's (R316). -/
def State.withinTwo (s : State) (d l : Nat) : Bool :=
  decide (16 ≤ (s.linkLog d l).errs.length) && !errOver (s.linkLog d l).errs 16

/-- The beat is locked on the link. The parent link makes the die LOCKED, and, like any other, goes UP once both ends report LOCKED; on
a link that is not the parent's the beat numbers of 16 markers must differ by at most one from the local count (R308, R313, R316).
[DEDUCED, log entry 53] -/
def execBeatLockDone (die : DieNo) (link : LinkNo) (s : State) : Out :=
  let d := die.val
  let l := link.val
  let k := s.linkLog d l
  if ¬ s.trains d l .beatLock then .next s
  else if s.isParent d l then
    if 16 < s.get (BEAT.DEPTH.on d) ∨ ¬ s.withinTwo d l then .next s
    else
      let s := (s.set (BEAT.LOCK.on d) 2).set (HASPI.RELOCK.on d) 0
      .next (if k.peerLocked then (s.linkUp d l).agree d else s)
  else if s.get (BEAT.LOCK.on d) ≠ 2 ∨ ¬ k.peerLocked ∨ k.diffs.length < 16 then .next s
  else if k.diffs.any (fun n => decide (1 < n)) then .next (s.refuseLink d l 9)
  else .next (s.linkUp d l)

/-- The bound of a link's state in microseconds, with the time from which it counts; none where the state has none (R308). -/
def State.bound (s : State) (d l : Nat) : Option (Nat × Nat) :=
  let k := s.linkLog d l
  if s.trains d l .equalise then some (if linkReach l = 2 then 500000 else 200000, k.entered)
  else if s.trains d l .fecAlign then some (10000, k.entered)
  else if s.trains d l .ident then some (20000, k.entered)
  else if s.trains d l .delay then some (5000, k.entered)
  else if s.trains d l .beatLock then k.lockedAt.map (fun t => (20000, t))
  else none

/-- A training state exceeds its bound: a failure, and at TRAIN_LIMIT of them the link is FAILED, event 0x1707. A state taken in this
cycle has not reached its bound (R308, R330). -/
def execTrainTimeout (die : DieNo) (link : LinkNo) (s : State) : Out :=
  let d := die.val
  let l := link.val
  match s.bound d l with
  | none => .next s
  | some b =>
    if s.clock < b.2 + b.1 then .next s
    else
      let s := s.count (HL.RETRIES.at d l)
      if s.get (HL.TRAIN_LIMIT.at d l) ≤ s.get (HL.RETRIES.at d l) then
        .next ((s.dieEvent d HL.page 0x1707 0 0 0 l).toLink d l .failed)
      else .next (s.onLink d l (fun k => { k with retryWait := true, entered := s.clock }))

/-- 10 ms after a failure the link returns to DETECT (R308). -/
def execTrainRetry (die : DieNo) (link : LinkNo) (s : State) : Out :=
  let d := die.val
  let l := link.val
  .next (if ¬ s.inReset d ∧ (s.linkLog d l).retryWait ∧ (s.linkLog d l).entered + 10000 ≤ s.clock then s.toDetect d l else s)

/-! Messages and codewords (R307, R313, R325, R353). -/

/-- BEAT_INFO: the partner's depth, and whether it names this link its parent (R313). -/
def State.takeInfo (s : State) (d l depth : Nat) (parent : Bool) : State :=
  if s.inReset d ∨ ¬ (s.linkIs d l .up ∨ s.linkIs d l .beatLock) then s
  else
    let s := (s.onLink d l (fun k => { k with peerDepth := depth })).setChild d l parent
    let s := if s.isParent d l ∧ s.get (BEAT.DEPTH.on d) ≠ min (depth + 1) 31 then s.takeDepth d depth else s
    s.agree d

/-- BEAT_INFO arrives (R313). -/
def execBeatInfo (die : DieNo) (link : LinkNo) (depth : BitVec 8) (parent : Bool) (s : State) : Out :=
  .next (s.takeInfo die.val link.val depth.toNat parent)

/-- A slot that the RX table assigns has not arrived whole: a NAK waits to be sent (R353). -/
def State.nakSlot (s : State) (d l beat slot : Nat) : State :=
  let id := s.slotEntry d l beat slot / 65536
  if ¬ s.linkIs d l .up ∨ (s.slink d l).state ≠ 0 ∨ id = 0xFFFF then s
  else
    let s := s.onSlink d l (fun k => { k with naks := k.naks ++ [(beat, slot)] })
    s.setStream d id { s.stream d id with naked := true }

/-- Corrected symbols beyond CE_WARN thousands in 1 ms: DEGRADED, event 0x1709. [DEDUCED, log entry 53] -/
def State.correctedSymbols (s : State) (d l n : Nat) : State :=
  let corr := (s.clock, n) :: (s.linkLog d l).corr.filter (fun e => s.clock < e.1 + 1000)
  if 1000 * s.get (HL.CE_WARN.at d l) < corr.foldl (fun a e => a + e.2) 0 then
    ((s.onLink d l (fun k => { k with corr := [] })).pageEvent d HL.page 9 l).dieEvent d HL.page 0x1709 0 0 0 l
  else s.onLink d l (fun k => { k with corr := corr })

/-! Beats (R314 to R317, R335, R336). -/

/-- Whether the die steps in place of slipping: its parent link is in BEAT_LOCK, it performs mailbox actions at a sync hinge or holds
there, or it has switched frequency there (R315, R336). -/
def State.stepping (s : State) (d : Nat) : Bool :=
  !s.isRoot d && (s.linkIs d (s.parentLink d) .beatLock || s.phaseIs d .mailbox || s.is (HMBX.HOLD_ACTIVE.on d) ||
    s.is (HASPI.STEP_DUE.on d))

/-- The marker of the parent link has its boundary `e` eighths after the die's own: the average of 16 beats is shown, rounded up or down
by a free value; above 2 tile cycles on a locked die it is event 0x1706, and a correction above 16 tile cycles a protocol violation; a
die that relocks is LOCKED again within 2 tile cycles (R315, R317, R325). [DESIGN CHOICE, log entry 54] -/
def State.parentError (s : State) (d l : Nat) (e : Int) : State :=
  let errs := (e :: (s.linkLog d l).errs).take 16
  let n : Int := errs.length
  let mean := errSum errs / n + (if errSum errs % n = 0 then 0 else (s.free % 2 : Nat))
  let s := (s.useFree.onLink d l (fun k => { k with errs := errs, latest := some e })).set (BEAT.PHASE_ERR.on d) (ofSigned 16 mean)
  let s := if s.get (BEAT.LOCK.on d) = 2 ∧ errOver errs 16 then s.dieEvent d BEAT.page 0x1706 else s
  if 128 < e.natAbs ∧ s.linkIs d l .up ∧ ¬ s.stepping d ∧ ¬ s.is (HASPI.RELOCK.on d) then s.protocolViolation d l
  else if s.is (HASPI.RELOCK.on d) ∧ s.get (BEAT.LOCK.on d) = 1 ∧ ¬ errOver errs 16 then
    ((s.set (BEAT.LOCK.on d) 2).set (HASPI.RELOCK.on d) 0).agree d
  else s

/-- How far the beat number of a marker is from the die's own. -/
def State.beatGap (s : State) (d beat : Nat) : Nat := ((beat : Int) - (s.beat d : Int)).natAbs

/-- A beat marker: the beat, MARKER_PHASE, STEPPED and LOCKED of its CCB, and its word's arrival after the die's own boundary for that
beat. A jump without STEPPED is a protocol violation. On the parent link the parent's boundary is arrival - D - MARKER_PHASE (R314 to
R317, R325). -/
def State.takeMarker (s : State) (d l beat phase : Nat) (stepped locked : Bool) (arrival : Int) : State :=
  let k := s.linkLog d l
  let jump : Bool := match k.marked with
    | some b => !stepped && decide (beat ≤ b ∨ b + 1 + k.lostCw < beat)
    | none => false
  if s.inReset d ∨ ¬ (s.linkIs d l .up ∨ s.linkIs d l .beatLock) then s
  else if jump ∧ s.linkIs d l .up then s.protocolViolation d l
  else
    let both := locked && s.get (BEAT.LOCK.on d) == 2
    let diffs := if both ∧ s.linkIs d l .beatLock then (s.beatGap d beat :: k.diffs).take 16 else []
    let since := if both then some (k.lockedAt.getD s.clock) else none
    let s := s.onLink d l (fun k => { k with marked := some beat, missed := 0, lostCw := 0, peerLocked := locked, lockedAt := since, diffs := diffs })
    if s.isParent d l then s.parentError d l (arrival - s.get (HL.DELAY.at d l) - phase) else s

/-- A beat marker arrives (R315). -/
def execBeatMarker (die : DieNo) (link : LinkNo) (beat : BitVec 56) (phase : BitVec 8) (stepped locked : Bool) (arrival : BitVec 64)
    (s : State) : Out :=
  .next (s.takeMarker die.val link.val beat.toNat phase.toNat stepped locked arrival.toInt)

/-- Transfers of descriptors whose EN was cleared complete ABORTED at the beat boundary, and starts that waited take their places (R348,
R374). -/
def State.abortCleared (s : State) (d : Nat) : State :=
  (s.die d).streams.foldl (fun s e =>
    if ¬ e.2.aborting then s
    else
      let s := e.2.xfers.foldl (fun s t => s.completeXfer d e.1 e.2 { t with status := XferStatus.aborted.code }) s
      (s.setStream d e.1 { e.2 with xfers := [], aborting := false, link := none, alt := false }).serveStarts d) s

/-- The step of R315: the parent's boundaries lie 256 tile cycles apart, the latest of them `e` eighths after the die's own of the beat
in progress. The beat ends on the tile cycle nearest the first that lies at least 255 tile cycles after its start: how many beat numbers
on that is, and the error left; a tie is broken by a free value. [DESIGN CHOICE, log entry 54] -/
def stepOf (e : Int) (free : Nat) : Int × Int :=
  let m := -((e - 2040) / 2048)
  let rest := (2048 * m + e) % 8
  (m, if rest < 4 ∨ (rest = 4 ∧ free % 2 = 0) then rest else rest - 8)

/-- The die steps onto its parent's boundary: every link's next marker carries STEPPED (R315). -/
def State.step (s : State) (d p : Nat) (e : Int) : State :=
  let m := stepOf e s.free
  let beat := (((s.beat d : Int) + m.1) % 72057594037927936).toNat
  let s := (s.useFree.setPair (BEAT.BEAT_LO.on d) (BEAT.BEAT_HI.on d) beat).set (HASPI.STEP_DUE.on d) 0
  let s := s.onLink d p (fun k => { k with errs := [], latest := some m.2 })
  s.each (List.range 48) (fun s l => s.onLink d l (fun k => { k with tx := { k.tx with stepped := true } }))

/-- The next beat is one tile cycle longer or shorter (R315). -/
def State.slip (s : State) (d p : Nat) (longer : Bool) : State :=
  let s := s.onLink d p (fun k => { k with latest := k.latest.map (fun e => if longer then e - 8 else e + 8) })
  (s.count (if longer then BEAT.SLIPS_LONG.on d else BEAT.SLIPS_SHORT.on d)).set (HASPI.SLIP_WAIT.on d) 15

/-- A new beat on every link: its slots come round from slot 0, and one more beat has gone by without a marker (R306, R321). -/
def State.beatOnLinks (s : State) (d : Nat) : State :=
  s.onDie d (fun x => { x with links := x.links.map (fun e => (e.1, { e.2 with missed := e.2.missed + 1, tx := { e.2.tx with slot := 0 } })) })

/-- The die's beat ends and the next begins: a step onto the parent's boundary, or one beat on with a slip, where the error exceeds half a
tile cycle (R315, R335). -/
def execBeatBoundary (die : DieNo) (s : State) : Out :=
  let d := die.val
  if s.inReset d then .next s
  else
    let p := s.parentLink d
    let k := s.linkLog d p
    let wait := s.get (HASPI.SLIP_WAIT.on d)
    let slips : Bool := !s.isRoot d && !s.stepping d && (s.get (BEAT.LOCK.on d) == 1 || s.get (BEAT.LOCK.on d) == 2) && errOver k.errs 4 &&
      (wait == 0 || s.is (HASPI.RELOCK.on d))
    let on := s.setPair (BEAT.BEAT_LO.on d) (BEAT.BEAT_HI.on d) ((s.beat d + 1) % 72057594037927936)
    let s := match k.latest with
      | some e =>
        if s.stepping d ∧ errOver k.errs 4 then s.step d p e
        else if slips then on.slip d p (decide (0 < errSum k.errs))
        else on.set (HASPI.SLIP_WAIT.on d) (wait - 1)
      | none => on.set (HASPI.SLIP_WAIT.on d) (wait - 1)
    let beat := s.beat d
    let s := s.onDie d (fun x => { x with slinks := x.slinks.map (fun e =>
      (e.1, { e.2 with recs := e.2.recs.filter (fun r => decide (beat ≤ r.beat + 16)) })) })
    let s := (s.abortCleared d).beatOnLinks d
    if s.isRoot d then .next (((s.set (BEAT.LOCK.on d) 2).set (BEAT.DEPTH.on d) 0).agree d) else .next (s.agree d)

/-! Agreeing the release beat (R318, R320). -/

/-- READY(k) from a timing child; from another link it is a protocol violation (R318, R325). -/
def State.takeReady (s : State) (d l k : Nat) : State :=
  if s.inReset d ∨ ¬ s.linkIs d l .up then s
  else if ¬ (s.linkLog d l).child then s.protocolViolation d l
  else (s.onLink d l (fun x => { x with childReady := some k })).agree d

/-- READY arrives (R318). -/
def execReady (die : DieNo) (link : LinkNo) (k : BitVec 32) (s : State) : Out := .next (s.takeReady die.val link.val k.toNat)

/-- RELEASE(k, beat) from the parent; from another link it is a protocol violation (R318, R320, R325). -/
def State.hearRelease (s : State) (d l k beat : Nat) : State :=
  if s.inReset d ∨ ¬ s.linkIs d l .up then s
  else if ¬ s.isParent d l then s.protocolViolation d l
  else s.takeRelease d k beat

/-- RELEASE arrives; the CCBs to the die's own children carry it on (R318). -/
def execRelease (die : DieNo) (link : LinkNo) (k : BitVec 32) (beat : BitVec 56) (s : State) : Out :=
  .next (s.hearRelease die.val link.val k.toNat beat.toNat)

/-- RELEASE(k) has not come within RELEASE_TO: event 0x170A, a fault record, and the context goes to FAULTED (R320). -/
def execReleaseTimeout (die : DieNo) (s : State) : Out :=
  let d := die.val
  if s.inReset d ∨ ¬ s.phaseIs d .releaseWait ∨ s.is (HASPI.RELEASED.on d) then .next s
  else .next ((s.dieEvent d BEAT.page 0x170A).contextFault d 4)

/-! Loss (R321, R322, R324). -/

/-- Signal is absent: LOST, cause 1. -/
def execLos (die : DieNo) (link : LinkNo) (s : State) : Out :=
  if s.inReset die.val then .next s else .next (s.loseLink die.val link.val 1)

/-- 8 consecutive codewords are uncorrectable: LOST, cause 2. A good one has broken the row (R330). -/
def execFecUnlock (die : DieNo) (link : LinkNo) (s : State) : Out :=
  if s.inReset die.val ∨ (s.linkLog die.val link.val).rx.bad < 8 then .next s else .next (s.loseLink die.val link.val 2)

/-- No marker for 4 local beats: LOST, cause 3. A marker that has arrived counts afresh (R330). -/
def execMarkerMiss (die : DieNo) (link : LinkNo) (s : State) : Out :=
  if s.inReset die.val ∨ (s.linkLog die.val link.val).missed < 4 then .next s else .next (s.loseLink die.val link.val 3)

/-- A good CCB carries LINK_DOWN: LOST, cause 4. -/
def execPeerDown (die : DieNo) (link : LinkNo) (s : State) : Out :=
  if s.inReset die.val then .next s else .next (s.loseLink die.val link.val 4)

/-- A good CCB carries ISOLATING: LOST, cause 5. -/
def execPeerIsolated (die : DieNo) (link : LinkNo) (s : State) : Out :=
  if s.inReset die.val then .next s else .next (s.loseLink die.val link.val 5)

/-- 10 ms after LOST a link with AUTO_RETRAIN returns to DETECT (R322). -/
def execAutoRetrain (die : DieNo) (link : LinkNo) (s : State) : Out :=
  let d := die.val
  let l := link.val
  .next (if ¬ s.inReset d ∧ s.linkIs d l .lost ∧ s.is (HL.AUTO_RETRAIN.at d l) ∧ (s.linkLog d l).entered + 10000 ≤ s.clock then
    s.toDetect d l else s)

/-- A CCB carries FENCED: PEER_FENCED, event 0x1708 (R324, R329). -/
def State.hearFenced (s : State) (d l : Nat) : State :=
  let hears := decide (3 ≤ s.get (HL.STATE.at d l) ∧ s.get (HL.STATE.at d l) ≤ 7) || s.leaving d l .peerFenced == some true
  if ¬ s.inReset d ∧ hears then (s.dieEvent d HL.page 0x1708 0 0 0 l).toLink d l .peerFenced else s

/-- A CCB carries FENCED (R324). -/
def execPeerFenced (die : DieNo) (link : LinkNo) (s : State) : Out := .next (s.hearFenced die.val link.val)

/-- The partner stops sending FENCED: PEER_FENCED ends (R324). -/
def State.endPeerFenced (s : State) (d l : Nat) : State :=
  if ¬ s.inReset d ∧ s.linkIs d l .peerFenced then s.toDetect d l else s

/-- The partner has stopped sending FENCED (R324). -/
def execPeerFencedEnd (die : DieNo) (link : LinkNo) (s : State) : Out := .next (s.endPeerFenced die.val link.val)

/-! Fault records forwarded to die 0 (R404, R405). -/

/-- A fragment arrives at die 0 from an on-tray link; elsewhere it is a protocol violation. The record is written when all four
have arrived. [DEDUCED, log entry 55] -/
def State.takeFragment (s : State) (d l fragment seq : Nat) (words : List Nat) : State :=
  if s.inReset d ∨ ¬ (s.linkIs d l .up ∨ s.linkIs d l .fenced ∨ s.linkIs d l .peerFenced) then s
  else if d ≠ 0 ∨ ¬ onTray l then s.protocolViolation d l
  else
    let src := linkPeer 0 l
    let old := (s.die 0).frags.filter (fun f => f.src == src && f.seq == seq)
    let parts := aput (match old with | f :: _ => f.parts | [] => []) fragment ((List.range 4).map (fun i => words.getD i 0))
    let rest := (s.die 0).frags.filter (fun f => !(f.src == src && f.seq == seq))
    if parts.length < 4 then s.onDie 0 (fun x => { x with frags := rest ++ [⟨src, seq, parts⟩] })
    else (s.onDie 0 (fun x => { x with frags := rest })).ringFault (fun s => (parts.flatMap Prod.snd, s))

/-- A FAULT_FWD fragment arrives (R404). -/
def execFaultFwd (die : DieNo) (link : LinkNo) (fragment : Fin 4) (seq : BitVec 6) (words : List (BitVec 32)) (s : State) : Out :=
  .next (s.takeFragment die.val link.val fragment.val seq.toNat (words.map BitVec.toNat))

/-- The fragments of a record have not all come within 1 ms: it is dropped and counted (R404). [DEDUCED, log entry 55] -/
def execFaultFwdTimeout (src : DieNo) (seq : BitVec 6) (s : State) : Out :=
  let mine (f : Frag) : Bool := f.src == src.val && f.seq == seq.toNat
  if s.inReset 0 ∨ ¬ (s.die 0).frags.any mine then .next s
  else
    let s := s.onDie 0 (fun x => { x with frags := x.frags.filter (fun f => !mine f) })
    .next ((s.count (FAULT.FQ_LOST.on 0)).count (MEMI.FQ_SINCE.on 0))

end Sys2Proof.Machine
end

