-- ==== Sys2Proof/Machine/Streams.lean ====
section
/-! DEFINITION. The stream engine: descriptors, carriage, credits and resend, alternate sets, readmission and timeouts
(spec/11_streams.md). -/

namespace Sys2Proof.Machine

/-! Descriptors (R338 to R340). -/

/-- The bytes of chunk `i` of a transfer: full but for the last (R339). -/
def chunkBytes (x : Stream) (i : Nat) : Nat := if i + 1 = x.chunks then 32 * x.tail else 512

/-- The address of chunk `i` of the transfer with sequence number `n` (R339). -/
def chunkAddr (x : Stream) (n i : Nat) : Int := (x.base : Int) + ((n % x.wrap : Nat) : Int) * toSigned 32 x.step + 512 * i

/-- The descriptor the staged words spell. -/
def State.stagedDesc (s : State) (d : Nat) : Stream :=
  let w (i : Nat) : Nat := s.get (SDESC.STAGE.at d i)
  { ctrl := w 0, base := w 2 + 4294967296 * w 3, chunks := w 4, tail := w 5, step := w 6, wrap := w 7 }

/-- Whether a staged descriptor has a field outside its range (R338). -/
def badDesc (x : Stream) (blank : Nat) : Bool :=
  bitsOf x.ctrl 3 5 != 0 || bitsOf x.ctrl 12 20 != 0 || blank != 0 || x.base % 32 != 0 ||
    decide (1099511627776 ≤ x.base ∨ x.chunks = 0 ∨ 1048576 < x.chunks ∨ x.tail = 0 ∨ 16 < x.tail ∨ x.wrap = 0 ∨ 65536 < x.wrap) ||
    x.step % 32 != 0

/-- Whether the span of every transfer lies wholly within its window, with the rights its direction needs (R340).
[DEDUCED, log entry 51] -/
def State.spansHeld (s : State) (d : Nat) (x : Stream) : Bool :=
  let n := 512 * (x.chunks - 1) + 32 * x.tail
  let win := bitsOf x.ctrl 8 4
  let fits (k : Nat) : Bool :=
    let a := chunkAddr x k 0
    decide (0 ≤ a) && s.winHolds d win a.toNat n && s.winGrants d win (if streamIn x then 5 else 4) (streamIn x)
  fits 0 && fits (x.wrap - 1)

/-- The refusal of a WRITE (R340). [DEDUCED, log entry 51] -/
def State.descRefusal (s : State) (d : Nat) (old x : Stream) : Nat :=
  let same := x.ctrl / 2 == old.ctrl / 2 && x.base == old.base && x.chunks == old.chunks && x.tail == old.tail &&
    x.step == old.step && x.wrap == old.wrap
  if streamOn old ∧ ¬ (same ∧ s.get (SDESC.STAGE.at d 1) = 0) then 1
  else if ¬ s.spansHeld d x then 2
  else if badDesc x (s.get (SDESC.STAGE.at d 1)) then 3
  else 0

/-- WRITE: the staged bytes become descriptor DSEL and its engine state is cleared. Open transfers of a stream whose EN is
cleared complete ABORTED at the next beat boundary. A receiving stream opens its first transfer with its first chunk (R340, R347,
R360, R374).
[DEDUCED, log entry 51] -/
def execSdescWrite (req : Requester) (die : DieNo) (s : State) : Out :=
  let d := die.val
  .next (s.onWrite d SDESC.page SDESC.WRITE 0 req.val 1 (fun s =>
    let id := s.get (SDESC.DSEL.on d)
    let old := s.stream d id
    let x := s.stagedDesc d
    let r := s.descRefusal d old x
    let s := (s.put (SDESC.REFUSED.on d) (r != 0)).set (SDESC.REASON.on d) r
    if r ≠ 0 then s.regFault d SDESC.page SDESC.WRITE 0 .accessErr req.val 1
    else
      let s := s.onDie d (fun y => { y with slinks := y.slinks.map (fun e =>
        (e.1, { e.2 with acks := e.2.acks.map (fun a => if a.1 = id then (65536, a.2) else a) })) })
      if ¬ streamOn x ∧ old.xfers ≠ [] then
        s.setStream d id { x with xfers := old.xfers, link := old.link, alt := old.alt, aborting := true }
      else
        let s := s.endXfers d id .aborted
        (s.setStream d id x).serveStarts d))

/-- The code of a stream's state. -/
def streamCode : StreamState → Nat
  | .idle => 0
  | .active => 1
  | .waiting => 2
  | .fenced => 3
  | .halted => 4

/-- The sixteen words of a descriptor (R338). -/
def descWords (x : Stream) : List Nat :=
  [x.ctrl, 0, x.base % 4294967296, x.base / 4294967296, x.chunks, x.tail, x.step, x.wrap, x.xferSeq, x.next % 16777216,
    streamCode x.state + 256 * x.link.getD 0 + 16384 * x.alt.toNat + 65536 * min x.xfers.length 255, x.resends, 0, 0, 0, 0]

/-- READ: descriptor DSEL is copied into the stage (R340). -/
def execSdescRead (req : Requester) (die : DieNo) (s : State) : Out :=
  let d := die.val
  .next (s.onWrite d SDESC.page SDESC.READ 0 req.val 2 (fun s =>
    let w := descWords (s.stream d (s.get (SDESC.DSEL.on d)))
    s.each (List.range 16) (fun s i => s.set (SDESC.STAGE.at d i) (w.getD i 0))))

/-- A write of POST_ID starts a transfer of a POSTED sending stream (R347). [DEDUCED, log entry 50] -/
def execPostId (req : Requester) (die : DieNo) (id : BitVec 16) (s : State) : Out :=
  let d := die.val
  .next (s.onWrite d STRM.page STRM.POST_ID 0 req.val id.toNat (fun s =>
    let x := s.stream d id.toNat
    if ¬ streamOn x ∨ streamIn x then s.regFault d STRM.page STRM.POST_ID 0 .accessErr req.val id.toNat
    else if streamSync x then s else s.askStart d id.toNat))

/-! Sending (R348, R351, R354, R359, R368). -/

/-- The next chunk a stream would send, with whether it is sent again: resends go ahead of new chunks; a stream that is not EN sends
nothing (R348, R374). [DEDUCED, log entry 50] -/
def nextChunk (x : Stream) : Option (Nat × Bool) :=
  if ¬ streamOn x then none
  else
    match x.state with
    | .fenced => none
    | .halted => none
    | _ => if x.resend < x.next then some (x.resend, true) else if x.next < streamEnd x then some (x.next, false) else none

/-- The transfer that holds chunk `c`, as its sequence number and first chunk: transfers follow one another, XFER_SEQ the next (R339, R348). -/
def chunkXfer (x : Stream) (c : Nat) : Nat × Nat :=
  let back := (streamEnd x - c + x.chunks - 1) / x.chunks
  ((x.xferSeq + 4294967296 - back) % 4294967296, streamEnd x - back * x.chunks)

/-- The transfer of a stream with a sequence number is changed. -/
def State.onXfer (s : State) (d id seq : Nat) (f : Xfer → Xfer) : State :=
  let x := s.stream d id
  s.setStream d id { x with xfers := x.xfers.map (fun u => if u.seq = seq then f u else u) }

/-- A transfer takes a status and the SEQ of its memory-fault record (R359). -/
def State.noteXfer (s : State) (d id seq : Nat) (st : XferStatus) (rec_ : Nat) : State :=
  s.onXfer d id seq (fun u => { u with status := max u.status st.code, record := some rec_ })

/-- A chunk of a stream is refused its access: the transfer's memory-fault record, or one more fault of it (R281, R359). -/
def State.refuseChunkOf (s : State) (d kind id src : Nat) (t : Xfer) (write : Bool) (a n : Nat) : State :=
  match t.record with
  | some q => (s.memFaultAgain d q).noteXfer d id t.seq .window q
  | none =>
    let s := s.refuseAccess d kind id src write a n
    s.noteXfer d id t.seq .window (s.lastFaultSeq d)

/-- The first of the units in error of a chunk read writes the transfer's memory-fault record, unless it has one; the others are faults
of it again (R281, R359). -/
def State.chunkFaults (s : State) (d id : Nat) (t : Xfer) (a n : Nat) (bad : List Nat) : State :=
  match bad, t.record with
  | [], _ => s
  | _, some q => (s.memFaultAgain d q bad.length).noteXfer d id t.seq .memError q
  | u :: rest, none =>
    let s := s.memFault d 0x1521 4 (s.accessBits d 4 false a n % 8) id (32 * u) n
    let q := s.lastFaultSeq d
    (if rest = [] then s else s.memFaultAgain d q rest.length).noteXfer d id t.seq .memError q

/-- A chunk is read as agent kind 4: refused or in error it is sent as the all-ones bytes it read, and its transfer takes the
status, with one memory-fault record a transfer (R349, R359). -/
def State.readChunk (s : State) (d id c : Nat) (ecc : Ecc) : State × List Byte :=
  let x := s.stream d id
  let w := chunkXfer x c
  let t := (x.xfers.find? (fun t => t.seq == w.1)).getD { seq := w.1, first := w.2 }
  let i := c - w.2
  let n := chunkBytes x i
  let a := (chunkAddr x w.1 i).toNat
  if ¬ s.permitted d 4 false a n then (s.refuseChunkOf d 4 id 0 t false a n, List.replicate n 0xFF)
  else
    let bad := badUnits ecc false a n
    let s := s.eccEffects d 4 id 0 false a n ecc true
    (s.chunkFaults d id t a n bad, s.readBytes d a n bad)

/-- A slot is idle for lack of a credit (R351). -/
def State.creditWaits (s : State) (d l : Nat) : State :=
  s.onSlink d l (fun k => { k with creditWait := min (k.creditWait + 1) 4294967295 })

/-- The chunk of a stream that a slot takes: its header, and its bytes filled up to 512. A credit is spent, and the slot's record kept
(R351, R354). -/
def State.placeChunk (s : State) (d l slot id c : Nat) (again : Bool) (ecc : Ecc) : State × (Nat × Nat) × List Byte :=
  let tries := (aget (s.stream d id).tries c).getD 0 + 1
  let r := s.readChunk d id c ecc
  let s := r.1
  let x := { s.stream d id with link := some l, alt := (s.slink d l).altRec }
  let w := chunkXfer x c
  let s := if again then
      let s := s.setStream d id { x with resend := c + 1, resends := (x.resends + 1) % 4294967296, tries := aput x.tries c tries }
      s.onSlink d l (fun k => { k with resent := min (k.resent + 1) 4294967295 })
    else s.setStream d id { x with next := c + 1, resend := c + 1 }
  let s := s.onXfer d id w.1 (fun t => { t with resent := t.resent + again.toNat, link := some l })
  let rec_ : SlotRec := ⟨s.beat d, slot, id, c⟩
  (s.onSlink d l (fun k => { k with credits := k.credits - 1, recs := k.recs ++ [rec_], open_ := k.open_ ++ [rec_] }),
    (id, c % 65536), r.2 ++ List.replicate (512 - r.2.length) 0)

/-- What an assigned slot carries: a credit is spent to send the stream's next chunk, as header and bytes; with none ready or no credit
it is idle, and a slot idle for lack of a credit is counted (R343, R351). A chunk sent again too often ends its transfer DAMAGED (R368).
[DEDUCED, log entry 50] -/
def State.fillSlot (s : State) (d l slot : Nat) (ecc : Ecc) : State × Option ((Nat × Nat) × List Byte) :=
  let k := s.slink d l
  let id := s.slotEntry d l (s.beat d) slot % 65536
  if ¬ s.linkIs d l .up ∨ k.state ≠ 0 ∨ id = 0xFFFF then (s, none)
  else match nextChunk (s.stream d id) with
  | none => (s, none)
  | some (c, again) =>
    if k.credits = 0 then (s.creditWaits d l, none)
    else if again ∧ s.get (STRM.RESEND_LIMIT.on d) < (aget (s.stream d id).tries c).getD 0 + 1 then (s.haltStream d id c .damaged, none)
    else
      let r := s.placeChunk d l slot id c again ecc
      (r.1, some r.2)

/-- A chunk is credited: the oldest uncredited chunk of a stream moves on in order. How often a chunk was sent again is kept while a NAK
may still name it. [DEDUCED, log entry 50] -/
def State.creditChunk (s : State) (d : Nat) (r : SlotRec) : State :=
  let x := s.stream d r.stream
  if streamIn x ∨ x.acked ≠ r.chunk ∨ x.next ≤ r.chunk then s
  else
    let x := { x with acked := r.chunk + 1, resend := max x.resend (r.chunk + 1), tries := x.tries.filter (fun t => decide (r.chunk < t.1 + 1024)) }
    (s.setStream d r.stream x).advanceStream d r.stream

/-- Returned credits are added, and credit the oldest chunks sent; credits above 64 are a violation (R351, R355, R357).
[DEDUCED, log entry 50] -/
def State.takeCredits (s : State) (d l n : Nat) : State :=
  let k := s.slink d l
  if s.inReset d ∨ ¬ s.linkIs d l .up then s
  else if 64 < k.credits + n then s.creditViolation d l
  else
    let s := s.onSlink d l (fun k => { k with credits := k.credits + n, open_ := k.open_.drop n })
    (k.open_.take n).foldl (fun s r => s.creditChunk d r) s

/-- Returned credits arrive (R355). -/
def execCreditReturn (die : DieNo) (link : LinkNo) (credits : BitVec 8) (s : State) : Out :=
  .next (s.takeCredits die.val link.val credits.toNat)

/-- The chunk of a slot is lost: one credit comes back, that of the chunk, or, where a credit has already been counted for it, that of
the oldest chunk open, whose credit that was; and below its resend point the stream sends again from it onward (R354).
[DEDUCED, log entry 50] -/
def State.nakChunk (s : State) (d l : Nat) (r : SlotRec) : State :=
  let s := s.onSlink d l (fun k => { k with credits := k.credits + 1, open_ := if k.open_.contains r then k.open_.filter (fun o => decide (o ≠ r)) else k.open_.drop 1 })
  let x := s.stream d r.stream
  if streamIn x ∨ ¬ streamOn x then s
  else if x.state ≠ .halted ∧ s.get (STRM.RESEND_LIMIT.on d) ≤ (aget x.tries r.chunk).getD 0 then s.haltStream d r.stream r.chunk .damaged
  else if r.chunk < x.resend then s.setStream d r.stream { x with resend := r.chunk, acked := min x.acked r.chunk }
  else s

/-- A NAK: it names a slot of the last 16 beats that holds a chunk, or is ignored and counted. A chunk that has been sent again
RESEND_LIMIT times already ends its transfer DAMAGED (R354, R355, R368, R369). [DEDUCED, log entry 50] -/
def State.takeNak (s : State) (d l : Nat) (beat : BitVec 8) (slot : Fin 8) : State :=
  let k := s.slink d l
  if s.inReset d ∨ ¬ s.linkIs d l .up then s
  else match k.recs.find? (fun r => r.beat % 256 == beat.toNat && r.slot == slot.val && decide (s.beat d ≤ r.beat + 16)) with
  | none => s.onSlink d l (fun k => { k with naksIgnored := min (k.naksIgnored + 1) 4294967295 })
  | some r => if 64 < k.credits + 1 then s.creditViolation d l else s.nakChunk d l r

/-- A NAK arrives (R354). -/
def execNak (die : DieNo) (link : LinkNo) (beat : BitVec 8) (slot : Fin 8) (s : State) : Out :=
  .next (s.takeNak die.val link.val beat slot)

/-! Receiving (R341, R343, R352, R355, R359, R360). -/

/-- A credit goes back to the partner. -/
def State.returnCredit (s : State) (d l : Nat) : State := s.onSlink d l (fun k => { k with due := k.due + 1 })

/-- The full sequence number nearest to E that a header's 16 bits stand for (R352). -/
def nearestSeq (e seq : Nat) : Int := (e : Int) + toSigned 16 (seq + 65536 - e % 65536)

/-- The source die of a link's arrivals. -/
def State.linkSource (s : State) (d l : Nat) : Nat := if onTray l then linkPeer d l else s.get (HL.PEER_DIE.at d l)

/-- `acked` of a receiving stream: its oldest chunk written and not acknowledged, or the next it expects. -/
def State.settleAcked (s : State) (d id : Nat) : State :=
  let x := s.stream d id
  let open_ := (s.die d).slinks.flatMap (fun e => (e.2.acks.filter (fun a => a.1 == id)).map Prod.snd)
  s.setStream d id { x with acked := open_.foldl min x.next }

/-- Chunk E arrives: it is written as agent kind 5, or its write is refused, and E counts up; the first chunk opens a transfer, and one
that completes a transfer opens the next (R347, R352, R359). [DEDUCED, log entry 51] -/
def State.takeChunk (s : State) (d l id : Nat) (data : List Byte) : State :=
  let x := s.stream d id
  let x := if x.xfers = [] then startXfer x else x
  match x.xfers.getLast? with
  | none => s
  | some t =>
    let i := x.next - t.first
    let n := chunkBytes x i
    let a := (chunkAddr x t.seq i).toNat
    let c := x.next
    let y := { x with next := c + 1, naked := false, moved := false, link := some l, alt := (s.slink d l).altRec }
    let s := (s.setStream d id y).onXfer d id t.seq (fun u => { u with link := some l })
    let s := if i + 1 = x.chunks then s.setStream d id (startXfer (s.stream d id)) else s
    let s := s.setStream d id (settleStream (s.stream d id))
    if s.permitted d 5 true a n then ((s.writeBytes d a (data.take n)).onSlink d l (fun k => { k with acks := k.acks ++ [(id, c)] })).settleAcked d id
    else (((s.refuseChunkOf d 5 id (s.linkSource d l) t true a n).returnCredit d l).settleAcked d id).advanceStream d id

/-- A chunk has arrived whole: written, discarded with its credit returned, or a slot or credit violation (R352, R355, R360,
R374). -/
def State.arriveChunk (s : State) (d l beat slot id seq : Nat) (data : List Byte) : State :=
  let k := s.slink d l
  let rx := s.slotEntry d l beat slot / 65536
  let x := s.stream d id
  let c := nearestSeq x.next seq
  if s.inReset d ∨ ¬ s.linkIs d l .up then s
  else if 64 ≤ k.acks.length then s.creditViolation d l
  else if rx = 0xFFFF ∨ id ≠ rx then (s.returnCredit d l).slotViolations d l 1
  else if ¬ streamOn x ∨ x.state = .halted then s.returnCredit d l
  else if c = x.next then s.takeChunk d l id data
  else if c < x.next ∨ x.naked ∨ x.moved then s.returnCredit d l
  else (s.returnCredit d l).slotViolations d l 1

/-- A whole chunk arrives (R352). -/
def execChunkArrival (die : DieNo) (link : LinkNo) (beat : Nat) (slot : Fin 8) (id seq : BitVec 16) (data : List Byte) (s : State) : Out :=
  .next (s.arriveChunk die.val link.val beat slot.val id.toNat seq.toNat data)

/-- An arriving chunk's write is acknowledged, oldest first: its credit goes back, and a transfer all of whose chunks are
acknowledged completes (R352, R357). -/
def execChunkWriteAck (die : DieNo) (link : LinkNo) (s : State) : Out :=
  let d := die.val
  let l := link.val
  match (s.slink d l).acks with
  | [] => .next s
  | a :: rest =>
    if s.inReset d then .next s
    else
      let s := (s.onSlink d l (fun k => { k with acks := rest })).returnCredit d l
      .next (if a.1 = 65536 then s else (s.settleAcked d a.1).advanceStream d a.1)

/-! Alternate sets and readmission (R363 to R367). -/

/-- The full number, nearest to a beat, of which the low 32 bits are given. -/
def nearestBeat (now low : Nat) : Nat := ((now : Int) + toSigned 32 (low + 4294967296 - now % 4294967296)).toNat

/-- The partner's SWITCH beat, while it is still waited for (R363). [DEDUCED, log entry 52] -/
def State.takeSwitch (s : State) (d l : Nat) (beat : BitVec 32) : State :=
  if s.inReset d ∨ ¬ s.linkIs d l .up ∨ (s.slink d l).fixed then s
  else s.onSlink d l (fun k => { k with peer := some (nearestBeat (s.beat d) beat.toNat) })

/-- SWITCH arrives (R363). -/
def execSwitch (die : DieNo) (link : LinkNo) (beat : BitVec 32) (s : State) : Out := .next (s.takeSwitch die.val link.val beat)

/-- A link's switch beat: the later of the die's own and the partner's (R363). -/
def State.switchAt (s : State) (d l : Nat) : Nat := max (s.get (STRMI.OWN.on d)) ((s.slink d l).peer.getD 0)

/-- Whether a link's switch beat has come. -/
def State.switchDue (s : State) (d l : Nat) : Bool := (s.slink d l).switching && decide (s.switchAt d l ≤ s.beat d)

/-- A switch beat: the set's stretch starts at the die's own, the records of the links whose beat it is take effect, and after the
last of them the fenced streams that nothing carries complete FENCED (R363 to R365). [DEDUCED, log entry 52] -/
def execSwitchBeat (die : DieNo) (s : State) : Out :=
  let d := die.val
  if s.inReset d ∨ ¬ s.is (STRM.SWITCH_PENDING.on d) ∨ s.beat d < s.get (STRMI.OWN.on d) then .next s
  else
    let i := s.get (STRM.ALT_SET.on d)
    let s := if s.get (STRMI.IN_FORCE.on d) = i then s else s.takeStretch d
    let due := (List.range 48).filter (fun l => s.switchDue d l)
    let s := s.each due (fun s l =>
      (s.takeSetTable d i l (s.switchAt d l)).onSlink d l (fun k => { k with switching := false, peer := none, fixed := false }))
    if (s.die d).slinks.any (fun e => e.2.switching) then .next s
    else .next ((s.set (STRM.SWITCH_PENDING.on d) 0).endFenced d)

/-- No SWITCH of the partner 4 beats before the die's own switch beat: event 0x1804, and the record takes effect at the die's own
(R363). [DEDUCED, log entry 52] -/
def execSwitchWaitExpiry (die : DieNo) (link : LinkNo) (s : State) : Out :=
  let d := die.val
  let l := link.val
  let k := s.slink d l
  let own := s.get (STRMI.OWN.on d)
  if s.inReset d ∨ ¬ k.switching ∨ k.peer ≠ none ∨ s.beat d + 4 < own then .next s
  else .next ((s.onSlink d l (fun k => { k with peer := some own, fixed := true })).dieEvent d STRM.page 0x1804)

/-- The partner's READMIT: the later of the two hinges is taken (R367). [DEDUCED, log entry 52] -/
def State.takeReadmit (s : State) (d l : Nat) (k : BitVec 32) : State :=
  if s.inReset d ∨ ¬ s.linkIs d l .up ∨ (s.slink d l).state ≠ 2 then s
  else s.onSlink d l (fun x => { x with theirs := some (max k.toNat (x.theirs.getD 0)) })

/-- READMIT arrives (R367). -/
def execReadmit (die : DieNo) (link : LinkNo) (k : BitVec 32) (s : State) : Out := .next (s.takeReadmit die.val link.val k)

/-! The completion queue and the timeouts (R358, R368). -/

/-- Completions that wait are written while the SCQ has room, in order. -/
def State.drainScq (s : State) (d : Nat) : Nat → State
  | 0 => s
  | n + 1 =>
    match (s.die d).scqWait with
    | [] => s
    | w :: rest =>
      if s.scqHeld d < 2 ^ s.get (STRM.SCQ_LOG2.on d) then
        ((s.onDie d (fun y => { y with scqWait := rest })).putScq d w).drainScq d n
      else s

/-- W1 advances SCQ_CONS: a full ring has room, completions that wait are written and waiting transfers start (R356, R358). -/
def execScqCons (req : Requester) (die : DieNo) (value : BitVec 16) (s : State) : Out :=
  let d := die.val
  .next (s.onWrite d STRM.page STRM.SCQ_CONS 0 req.val value.toNat (fun s =>
    let same := s.get (STRM.SCQ_CONS.on d) == value.toNat
    let s := (s.set (STRM.SCQ_CONS.on d) value.toNat).put (STRMI.SCQ_WRAP.on d) (s.is (STRMI.SCQ_WRAP.on d) && same)
    (s.drainScq d (s.die d).scqWait.length).serveStarts d))

/-- A transfer is not complete after XFER_TO: it completes TIMEOUT (R360, R368). -/
def execXferTo (die : DieNo) (id : BitVec 16) (s : State) : Out :=
  let d := die.val
  let x := s.stream d id.toNat
  match x.xfers.find? (fun t => !xferOver x t) with
  | none => .next s
  | some t => if s.inReset d then .next s else .next (s.haltStream d id.toNat (max t.first x.acked) .timeout)

/-- A link with a chunk ready has held no credit for CREDIT_TO: it is isolated, CREDIT_VIOL (R368). -/
def execCreditTo (die : DieNo) (link : LinkNo) (s : State) : Out :=
  let d := die.val
  let l := link.val
  let k := s.slink d l
  let ready : Bool := match k.table with
    | some t => (t.entries.map (· % 65536)).any (fun id => id != 0xFFFF && (nextChunk (s.stream d id)).isSome)
    | none => false
  if s.inReset d ∨ k.credits ≠ 0 ∨ k.state ≠ 0 ∨ ¬ ready then .next s else .next (s.creditViolation d l)

/-- A completion has waited beyond SCQ_TO: event 0x1806 and a stream-fault record; the wait continues (R368). -/
def execScqTo (die : DieNo) (s : State) : Out :=
  let d := die.val
  match (s.die d).scqWait with
  | [] => .next s
  | w :: _ =>
    if s.inReset d then .next s
    else
      let h := w.headD 0
      let id := h % 65536
      .next ((s.dieEvent d STRM.page 0x1806).streamFault d 0x1806 (bitsOf h 16 8) (bitsOf (w.getD 3 0) 16 8) id (w.getD 1 0)
        (s.stream d id).next)

end Sys2Proof.Machine
end

