-- ==== Sys2Proof/Machine/Carriage.lean ====
section
/-! DEFINITION. The codewords that a link end sends and receives: slots into words, words and CCBs into codewords, and back (R304, R306,
R307, R311, R312, R314, R318, R321, R324 to R326, R350 to R354, R378, R404). -/

namespace Sys2Proof.Machine

/-! Sending. -/

/-- Whether a link end sends codewords: from FEC_ALIGN on, but for FAILED (R308, R321, R324, R326, R328). [DEDUCED, log entry 68] -/
def State.sends (s : State) (d l : Nat) : Bool :=
  !s.inReset d && decide (3 ≤ s.get (HL.STATE.at d l) ∧ s.get (HL.STATE.at d l) ≤ 12)

/-- The IDENT of a link end: the identity it took when it entered IDENT (R310, R333). -/
def State.ownIdent (s : State) (d l : Nat) : Ident :=
  let k := s.linkLog d l
  ⟨BitVec.ofNat 64 k.tag, BitVec.ofNat 64 k.tray, BitVec.ofNat 8 d, BitVec.ofNat 8 l, BitVec.ofNat 8 (linkReach l),
    BitVec.ofNat 8 (s.get (DSYS.MEMBER.on d)), 1⟩

/-- The link a die forwards its fault records over: the lowest-numbered UP one to die 0, or, with none UP, the lowest-numbered that
FAULT_FWD is exchanged on (R404). [DEDUCED, log entry 55] -/
def State.forwardLink (s : State) (d : Nat) : Option Nat :=
  let ls := (List.range 4).map (fun j => 4 * linkQ d 0 + j)
  if d = 0 then none
  else match ls.find? (fun l => s.linkIs d l .up) with
    | some l => some l
    | none => ls.find? (fun l => s.linkIs d l .fenced || s.linkIs d l .peerFenced)

/-- The next fragment of the oldest record of FWDQ, where this link carries it (R404). -/
def State.fragmentOut (s : State) (d l : Nat) : List LinkMsg :=
  match (s.die d).fwdq with
  | [] => []
  | r :: _ =>
    let i := (s.linkLog d l).tx.fragment
    if s.forwardLink d ≠ some l then []
    else [.faultFwd (Fin.ofNat 4 i) (BitVec.ofNat 6 (r.getD 1 0 / 65536)) ((List.range 4).map (fun j => BitVec.ofNat 32 (r.getD (4 * i + j) 0)))]

/-- The messages a link end repeats while its state stands (R308, R310, R311, R313, R318, R404). [DEDUCED, log entry 68] -/
def State.standing (s : State) (d l : Nat) : List LinkMsg :=
  let k := s.linkLog d l
  let info := LinkMsg.beatInfo (BitVec.ofNat 8 (s.get (BEAT.DEPTH.on d))) (s.isParent d l)
  let ready := if s.isParent d l ∧ s.is (HASPI.SENT.on d) then [LinkMsg.ready (BitVec.ofNat 32 (s.get (BEAT.READY_K.on d)))] else []
  let release := if k.child ∧ s.get (BEAT.RELEASE_K.on d) ≠ 0 then
      [LinkMsg.release (BitVec.ofNat 32 (s.get (BEAT.RELEASE_K.on d)))
        (BitVec.ofNat 56 (s.pair (BEAT.RELEASE_BEAT_LO.on d) (BEAT.RELEASE_BEAT_HI.on d)))] else []
  if s.linkIs d l .ident then .ident (s.ownIdent d l) :: (if k.idOk then [.identOk] else [])
  else if s.linkIs d l .delay then [.identOk]
  else if s.linkIs d l .beatLock then [info]
  else if s.linkIs d l .up then info :: (ready ++ release ++ s.fragmentOut d l)
  else if s.linkIs d l .refused then [.refuse (BitVec.ofNat 8 (s.get (HL.CAUSE.at d l)))]
  else if s.linkIs d l .fenced ∨ s.linkIs d l .peerFenced then s.fragmentOut d l
  else []

/-- Whether a probe goes into the next CCB: one every four codewords, 64 in all (R312). -/
def State.probeDue (s : State) (d l : Nat) : Bool :=
  s.linkIs d l .delay && decide ((s.linkLog d l).tx.probes < 64) && (s.linkLog d l).tx.probeWait == 0

/-- The message of the next CCB: a probe that is due, a reply that waits, or a standing message in its turn, one a codeword
("CCB layout", R312). `time` stamps a probe. [DEDUCED, log entry 68] -/
def State.messageOut (s : State) (d l : Nat) (time : BitVec 64) : Option LinkMsg :=
  let t := (s.linkLog d l).tx
  let replies := s.linkIs d l .ident || s.linkIs d l .delay || s.linkIs d l .beatLock || s.linkIs d l .up
  if s.probeDue d l then some (.delayReq time)
  else match t.replies with
    | r :: _ => if replies then some (.delayRsp (BitVec.ofNat 64 r.1) (BitVec.ofNat 32 r.2)) else (s.standing d l)[t.turn % (s.standing d l).length]?
    | [] => (s.standing d l)[t.turn % (s.standing d l).length]?

/-- ALT_CTL of the next CCB (R363, R367). -/
def State.altOut (s : State) (d l : Nat) : AltCtl :=
  let x := s.slink d l
  match x.mine with
  | some k => if x.state = 2 then .readmit (BitVec.ofNat 32 k) else .none
  | none => if x.switching then .switch (BitVec.ofNat 32 (s.get (STRMI.OWN.on d))) else .none

/-- The CCB of the codeword being filled (R311, R314, R321, R324, R326, R350, R353, R363, R367). [DEDUCED, log entry 68] -/
def State.ccbOut (s : State) (d l : Nat) (time : BitVec 64) : Ccb :=
  let t := (s.linkLog d l).tx
  let x := s.slink d l
  let up := s.linkIs d l .up
  { marker := if up ∨ s.linkIs d l .beatLock ∨ s.linkIs d l .fenced then
        t.mark.map (fun m => ⟨BitVec.ofNat 56 m.2.2, m.1, BitVec.ofNat 8 m.2.1, t.stepped⟩) else none
    linkDown := s.linkIs d l .lost
    fenced := s.linkIs d l .fenced
    isolating := s.linkIs d l .isolated
    refusing := s.linkIs d l .refused
    locked := s.get (BEAT.LOCK.on d) == 2
    cwSeq := t.cwSeq
    hdrA := t.headers.getD 0 (0xFFFF, 0)
    hdrB := t.headers.getD 1 (0xFFFF, 0)
    credits := if up then min x.due 255 else 0
    nak := if up then x.naks.head?.map (fun n => (BitVec.ofNat 8 n.1, Fin.ofNat 8 n.2)) else none
    alt := if up then s.altOut d l else .none
    msg := s.messageOut d l time }

/-- A message has gone. -/
def State.messageSent (s : State) (d l : Nat) : LinkMsg → State
  | .delayReq _ => s.onLink d l (fun k => { k with tx := { k.tx with probes := k.tx.probes + 1, probeWait := 3 } })
  | .delayRsp _ _ => s.onLink d l (fun k => { k with tx := { k.tx with replies := k.tx.replies.drop 1, probeWait := k.tx.probeWait - 1 } })
  | .faultFwd i _ _ =>
    let s := s.onLink d l (fun k => { k with tx := { k.tx with fragment := (i.val + 1) % 4, turn := k.tx.turn + 1 } })
    if i.val = 3 then (s.onDie d (fun x => { x with fwdq := x.fwdq.drop 1 })).fwdFill d else s
  | _ => s.onLink d l (fun k => { k with tx := { k.tx with turn := k.tx.turn + 1, probeWait := k.tx.probeWait - 1 } })

/-- What a sent CCB carries is no longer due: its credits, its NAK, its message and its marker; the next codeword is empty (R350, R353,
R404). -/
def State.ccbSent (s : State) (d l : Nat) (c : Ccb) (scrambler : Nat) : State :=
  let s := s.onSlink d l (fun x => { x with due := x.due - c.credits, naks := if c.nak.isSome then x.naks.drop 1 else x.naks, naksSent := min (x.naksSent + c.nak.isSome.toNat) 4294967295 })
  let s := match c.msg with
    | some m => s.messageSent d l m
    | none => s.onLink d l (fun k => { k with tx := { k.tx with probeWait := k.tx.probeWait - 1 } })
  s.onLink d l (fun k => { k with tx := { k.tx with words := [], headers := [], mark := none, stepped := k.tx.stepped && c.marker.isNone, cwSeq := (k.tx.cwSeq + 1) % 4294967296, scrambler := scrambler } })

/-- The symbols of the two lanes as bytes, two each: lane 0, then lane 1. -/
def laneBytes (g : List Nat × List Nat) : List Byte :=
  (g.1 ++ g.2).flatMap (fun v => [BitVec.ofNat 8 v, BitVec.ofNat 8 (v / 256)])

/-- The codeword being filled is sent: the answer goes on with what its two lanes carry (R304). -/
def State.sendCodeword (s : State) (d l : Nat) (time : BitVec 64) : State :=
  let t := (s.linkLog d l).tx
  let c := s.ccbOut d l time
  let r := codewordOf t.scrambler (messageOf c t.words)
  let s := s.ccbSent d l c r.2
  { s with answer := s.answer ++ laneBytes (dealt r.1) }

/-- A word goes out; the seventeenth of a codeword sends it (R304). -/
def State.sendWord (s : State) (d l : Nat) (time : BitVec 64) (w : Nat × Nat) : State :=
  let s := s.onLink d l (fun k => { k with tx := { k.tx with words := k.tx.words ++ [w] } })
  if (s.linkLog d l).tx.words.length < 17 then s else s.sendCodeword d l time

/-- The 32-byte words of a chunk. -/
def wordsOfChunk (data : List Byte) : List Nat :=
  (List.range 16).map (fun i => ((data.drop (32 * i)).take 32).foldr (fun b v => b.toNat + 256 * v) 0)

/-- The next slot of the beat comes round: idle words before slot 0, then the slot's 16 words, of the chunk it carries or idle; its header
and, for slot 0, the marker go into the codeword of word 0. The answer is the codewords these words complete (R306, R314, R343, R350,
R351). -/
def execSlotSend (die : DieNo) (link : LinkNo) (slot : Fin 8) (idle : BitVec 10) (phase : BitVec 8) (time : BitVec 64) (ecc : Ecc)
    (s : State) : Out :=
  let d := die.val
  let l := link.val
  if ¬ s.sends d l ∨ (s.linkLog d l).tx.slot ≠ slot.val then .next s
  else
    let s := { s with answer := [] }
    let s := (List.replicate (if slot = 0 then idle.toNat else 0) (0, 0)).foldl (fun s w => s.sendWord d l time w) s
    let r := s.fillSlot d l slot.val ecc
    let header := (r.2.map Prod.fst).getD (0xFFFF, 0)
    let beat := s.beat d
    let s := r.1.onLink d l (fun k => { k with tx := { k.tx with slot := slot.val + 1, headers := k.tx.headers ++ [header], mark := if slot = 0 then some (k.tx.words.length, phase.toNat, beat) else k.tx.mark } })
    let words := match r.2 with
      | some c => (wordsOfChunk c.2).mapIdx (fun i w => (wordTag i slot.val beat, w))
      | none => List.replicate 16 (0, 0)
    .next (words.foldl (fun s w => s.sendWord d l time w) s)

/-! Receiving. -/

/-- The receiver of a link changes. -/
def State.onRx (s : State) (d l : Nat) (f : LinkRx → LinkRx) : State := s.onLink d l (fun k => { k with rx := f k.rx })

/-- The receiver of a link. -/
def State.rx (s : State) (d l : Nat) : LinkRx := (s.linkLog d l).rx

/-- The sixteen words of a slot have gone by: a chunk that is whole with its header arrives, a slot whose header names no chunk is idle,
any other that the table assigns is NAKed (R352, R353, R378). -/
def State.endSlotRx (s : State) (d l slot : Nat) : State :=
  let x := s.rx d l
  match x.header with
  | some (id, seq) =>
    if id = 0xFFFF then s
    else if x.whole then s.arriveChunk d l x.beat slot id seq x.data
    else s.nakSlot d l x.beat slot
  | none => s.nakSlot d l x.beat slot

/-- A word of a slot: one that was lost or is idle leaves the slot not whole; a DATA word in a slot that the table assigns to no stream,
out of order, or of another beat is a slot violation (R306, R325). -/
def State.slotWord (s : State) (d l place : Nat) (w : Option (Nat × Nat)) : State :=
  let x := s.rx d l
  let tag := (w.map Prod.fst).getD 0
  let fits : Bool := tag == wordTag (place % 16) (place / 16) x.beat
  let broken (s : State) : State := s.onRx d l (fun x => { x with whole := false })
  match w with
  | none => broken s
  | some (t, v) =>
    if ¬ t.testBit 10 then broken s
    else if ¬ fits ∨ s.slotEntry d l x.beat (place / 16) / 65536 = 0xFFFF then (broken s).slotViolations d l 1
    else s.onRx d l (fun x => { x with data := x.data ++ (List.range 32).map (fun i => BitVec.ofNat 8 (v / 256 ^ i)) })

/-- The slots of a beat before `n` went by unseen: those the table assigns are NAKed (R353). -/
def State.nakSlots (s : State) (d l beat n : Nat) : State := s.each (List.range n) (fun s slot => s.nakSlot d l beat slot)

/-- A word between the slots of two beats. A DATA word there, where the codeword of a marker was lost, is of the beat that marker began:
its tag places it, and the slots before it are lost; otherwise it is a slot violation (R306, R325, R353). [DEDUCED, log entry 68] -/
def State.gapWord (s : State) (d l : Nat) (w : Option (Nat × Nat)) : State :=
  let x := s.rx d l
  match w with
  | none => s
  | some (t, _) =>
    let beat := x.beat + (t / 128 + 8 - x.beat % 8) % 8
    if ¬ t.testBit 10 then s
    else if ¬ x.gap ∨ beat = x.beat then s.slotViolations d l 1
    else
      let s := s.nakSlots d l beat (t / 16 % 8)
      (s.onRx d l (fun x => { x with beat := beat, place := some (t % 128), header := none, data := [], whole := false, gap := false })).slotWord d l (t % 128) w

/-- The marker of a new beat places the words that follow; after a lost codeword every slot of a beat that went by unseen is NAKed,
unless its numbers were passed over (R306, R315, R343, R353). [DEDUCED, log entry 68] -/
def State.beginBeatRx (s : State) (d l : Nat) (m : Marker) : State :=
  let x := s.rx d l
  let b := m.beat.toNat
  let unseen := if x.gap ∧ x.place.isSome ∧ ¬ m.stepped then (List.range (min (b - x.beat - 1) 16)).map (fun i => x.beat + 1 + i) else []
  let s := s.each unseen (fun s b => s.nakSlots d l b 8)
  s.onRx d l (fun x => { x with beat := b, place := some 0, gap := false })

/-- Word `i` of a codeword, which is lost where `c` is none. Where word 0 of a slot lies, its header is that of the codeword (R306, R350,
R353). -/
def State.hearWord (s : State) (d l : Nat) (c : Option (Ccb × List (Nat × Nat))) (i : Nat) : State :=
  let s := match c.bind (fun c => c.1.marker) with
    | some m => if m.word = i then s.beginBeatRx d l m else s
    | none => s
  let w := c.bind (fun c => c.2[i]?)
  match (s.rx d l).place with
  | none => s
  | some p =>
    if 128 ≤ p then (s.gapWord d l w).onRx d l (fun x => { x with place := x.place.map (· + 1) })
    else
      let header := c.map (fun c => if i = 16 ∧ p ≠ 0 then c.1.hdrB else c.1.hdrA)
      let s := if p % 16 = 0 then s.onRx d l (fun x => { x with header := header, data := [], whole := true }) else s
      let s := s.slotWord d l p w
      let s := if p % 16 = 15 then s.endSlotRx d l (p / 16) else s
      s.onRx d l (fun x => { x with place := some (p + 1) })

/-- The 17 words of a codeword, on an UP link (R307, R353). -/
def State.hearWords (s : State) (d l : Nat) (c : Option (Ccb × List (Nat × Nat))) : State :=
  if ¬ s.linkIs d l .up then s
  else
    let s := if c.isNone then s.onRx d l (fun x => { x with gap := true }) else s
    s.each (List.range 17) (fun s i => if s.linkIs d l .up then s.hearWord d l c i else s)

/-- A message of a CCB; one of undefined type is a protocol violation (R325). -/
def State.hearMessage (s : State) (d l : Nat) (w : Codeword) : LinkMsg → State
  | .ident i => s.hearIdent d l i
  | .identOk => s.takeIdentOk d l
  | .refuse _ => s.takeRefuse d l
  | .delayReq stamp => s.takeProbe d l stamp w.turnaround
  | .delayRsp stamp turnaround => s.takeReply d l stamp turnaround w.time
  | .beatInfo depth parent => s.takeInfo d l depth.toNat parent
  | .ready k => s.takeReady d l k.toNat
  | .release k beat => s.hearRelease d l k.toNat beat.toNat
  | .faultFwd fragment seq words => s.takeFragment d l fragment.val seq.toNat (words.map BitVec.toNat)
  | .undefined => if s.inReset d then s else s.protocolViolation d l

/-- What a good CCB and its words bring, an ISOLATED end apart, which discards them: FENCED first, the marker, the words, credits before
a NAK, ALT_CTL, the message, and last LINK_DOWN and ISOLATING (R307, R321, R324, R326, R329, R377). [DEDUCED, log entry 68] -/
def State.hearCcb (s : State) (d l : Nat) (w : Codeword) (c : Ccb) (words : List (Nat × Nat)) : State :=
  if s.linkIs d l .isolated then s
  else
    let s := if c.fenced then s.hearFenced d l else s.endPeerFenced d l
    let s := s.onLink d l (fun k => { k with peerLocked := c.locked })
    let s := match c.marker with
      | some m => s.takeMarker d l m.beat.toNat m.phase.toNat m.stepped c.locked w.arrival.toInt
      | none => s
    let s := (s.hearWords d l (some (c, words))).takeCredits d l c.credits
    let s := match c.nak with
      | some n => s.takeNak d l n.1 n.2
      | none => s
    let s := match c.alt with
      | .none => s
      | .switch beat => s.takeSwitch d l beat
      | .readmit k => s.takeReadmit d l k
    let s := match c.msg with
      | some m => s.hearMessage d l w m
      | none => s
    let s := if c.linkDown then s.loseLink d l 4 else s
    if c.isolating then s.loseLink d l 5 else s

/-- An uncorrectable codeword is counted; more than UE_LIMIT of them within 1 ms isolate an UP link (R307, R325). -/
def State.uncorrectable (s : State) (d l : Nat) : State :=
  let s := s.count (HL.CW_UE.at d l)
  let ue := s.clock :: (s.linkLog d l).ue.filter (fun t => s.clock < t + 1000)
  let s := s.onLink d l (fun k => { k with ue := ue, lostCw := k.lostCw + 1, rx := { k.rx with bad := k.rx.bad + 1, clean := 0 } })
  if s.linkIs d l .up ∧ s.get (HL.UE_LIMIT.at d l) < ue.length then s.isolateLink d l 1 else s.hearWords d l none

/-- Whether a link end receives codewords: from FEC_ALIGN on, but for FAILED (R308). -/
def State.receives (s : State) (d l : Nat) : Bool := s.sends d l && !(s.linkLog d l).retryWait

/-- The symbols of a codeword in order: lane swap is corrected (R303, R304). -/
def State.symbolsOf (s : State) (d l : Nat) (w : Codeword) : List Nat :=
  let a := w.lane0.map BitVec.toNat
  let b := w.lane1.map BitVec.toNat
  if s.is (HL.LANE_SWAP.at d l) then gathered b a else gathered a b

/-- A codeword is received and counted. An uncorrectable one, or one whose CCB fails its CRC, is discarded whole, and its slots are NAKed;
a good one delivers its CCB and its words (R307, R325, R353). -/
def execCodewordReceive (die : DieNo) (link : LinkNo) (word : Codeword) (s : State) : Out :=
  let d := die.val
  let l := link.val
  if ¬ s.receives d l then .next s
  else
    let r := decodeCodeword (s.rx d l).descrambler (s.symbolsOf d l word)
    let s := s.onRx d l (fun x => { x with descrambler := r.2 })
    match r.1 with
    | .uncorrectable => .next (s.uncorrectable d l)
    | .badCrc =>
      let s := s.onLink d l (fun k => { k with lostCw := k.lostCw + 1, rx := { k.rx with bad := 0, clean := k.rx.clean + 1 } })
      .next ((s.count (HL.CRC_ERR.at d l)).hearWords d l none)
    | .good corrected ccb words =>
      let s := s.onRx d l (fun x => { x with bad := 0, clean := x.clean + 1 })
      let s := if corrected = 0 then s.count (HL.CW_GOOD.at d l)
        else ((s.count (HL.CW_CORR.at d l)).count (HL.SYM_CORR.at d l) corrected).correctedSymbols d l corrected
      .next (s.hearCcb d l word ccb words)

end Sys2Proof.Machine
end

