-- ==== Sys2Proof/Machine/Runs.lean ====
section
/-! DEFINITION. The context's commands, the submission ring, the run table and the run copier (R379 to R401 and R406 to R412 of
spec/12_context_runs.md). -/

namespace Sys2Proof.Machine

/-- A context command is refused: CTX.REFUSE, ACCESS_ERR and event 0x2605; the state does not change (R383). -/
def State.refuseCtx (s : State) (d : Nat) (r : Reg) (code req value : Nat) : State :=
  ((s.set (CTX.REFUSE.on d) code).dieEvent d CTX.page 0x2605).regFault d CTX.page r 0 .accessErr req value

/-- The rings of a die: base, size field, bytes of an entry, range of the size field. The fault ring is die 0's (R380, R389,
R398, R402). [DEDUCED, log entry 49] -/
def State.ringsOf (s : State) (d : Nat) : List (Nat × Nat × Nat × Nat × Nat) :=
  [(s.pair (RING.SQ_BASE_LO.on d) (RING.SQ_BASE_HI.on d), s.get (RING.SQ_LOG2.on d), 64, 4, 12),
    (s.pair (RING.CQ_BASE_LO.on d) (RING.CQ_BASE_HI.on d), s.get (RING.CQ_LOG2.on d), 32, 4, 14)] ++
  (if d = 0 then [(s.pair (FAULT.FQ_BASE_LO.on d) (FAULT.FQ_BASE_HI.on d), s.get (FAULT.FQ_LOG2.on d), 64, 6, 14)] else [])

/-- Whether two of a list of (base, bytes) overlap. -/
def spansOverlap : List (Nat × Nat) → Bool
  | [] => false
  | x :: t => t.any (fun y => decide (x.1 < y.1 + y.2 ∧ y.1 < x.1 + x.2)) || spansOverlap t

/-- Check 4 of R383. -/
def State.badRings (s : State) (d : Nat) : Bool :=
  let rs := s.ringsOf d
  let fw := s.partBase d 5
  rs.any (fun r => r.1 % 4096 != 0 || decide (r.2.1 < r.2.2.2.1 ∨ r.2.2.2.2 < r.2.1) ||
      decide (r.1 < fw ∨ fw + s.partSize d 5 < r.1 + r.2.2.1 * 2 ^ r.2.1)) ||
    spansOverlap (rs.map (fun r => (r.1, r.2.2.1 * 2 ^ r.2.1)))

/-- The first check of R383 that OPEN fails; 0 for none. -/
def State.openRefusal (s : State) (d : Nat) : Nat :=
  if s.get (CTX.STATE.on d) ≠ 0 then 1
  else if s.get (CTX.CTX_NUM.on d) = 0 then 2
  else if s.shadowDirty d PART.page 0 ∨ s.is (hdr HDR.COMMIT_PENDING d PART.page.base) then 3
  else if s.badRings d then 4
  else if s.is (LINEI.FENCING.on d) then 5
  else if ¬ (s.is (WLOAD.W0_RUN.on d) ∧ s.is (WLOAD.W1_RUN.on d)) then 6
  else 0

/-- OPEN (R383); SCAN.SLOTS holds from here (R416). -/
def execOpenCtx (req : Requester) (die : DieNo) (s : State) : Out :=
  let d := die.val
  .next (s.onWrite d CTX.page CTX.OPEN 0 req.val 1 (fun s =>
    let c := s.openRefusal d
    if c ≠ 0 then s.refuseCtx d CTX.OPEN c req.val 1
    else
      let s := (s.set (PART.CARVE_LOCKED.on d) 1).set (HMBX.SYNC_NOW.on d) 0
      let s := s.set (SCAN.SLOTS.on d) (min (s.partSize d 4 / 33554432) 32)
      let s := ((s.set (RING.SQ_PROD.on d) 0).set (RING.SQ_CONS.on d) 0).set (RING.CQ_PROD.on d) 0
      let s := ((s.set (RING.CQ_CONS.on d) 0).set (FAULT.FQ_PROD.on d) 0).set (FAULT.FQ_CONS.on d) 0
      let s := (s.onDie d (fun x => { x with runs := [], copyIn := [], copyOut := [], records := [] })).runRegs d
      (s.count (CTX.OPENS.on d)).toContext d 1 0))

/-- SERVE: the bay images begin to load (R384). -/
def execServe (req : Requester) (die : DieNo) (s : State) : Out :=
  let d := die.val
  .next (s.onWrite d CTX.page CTX.SERVE 0 req.val 2 (fun s =>
    if s.get (CTX.STATE.on d) ≠ 1 ∨ s.is (CTXI.CLOSING.on d) ∨ s.is (CTXI.BAYS_LOADING.on d) then s.refuseCtx d CTX.SERVE 1 req.val 2
    else if ¬ s.is (KRING.VERIFIED.on d) then s.refuseCtx d CTX.SERVE 7 req.val 2
    else if ¬ s.is (HEAP.INITED.on d) ∧ (List.range 9).any (fun n => s.get (HEAP.COUNT.at d n) != 0) then
      s.refuseCtx d CTX.SERVE 8 req.val 2
    else s.set (CTXI.BAYS_LOADING.on d) 1))

/-- The bay lines that the bytes of an image spell: byte `o` of the images is byte o mod 16 of line o / 16, tumblers in order
(R241). A byte that memory does not list counts as 0, as Config.unwrittenByte says. -/
def bayLinesOf (base size : Nat) (mem : List Host.Cell) : List (Nat × Nat) :=
  (mem.filter (fun c => decide (base ≤ c.1 ∧ c.1 < base + size))).foldr (fun c acc =>
    let o := c.1 - base
    let v := c.2.toNat * 256 ^ (o % 16)
    match acc with
    | (k, w) :: t => if k = o / 16 then (k, w + v) :: t else (o / 16, v) :: (k, w) :: t
    | [] => [(o / 16, v)]) []

/-- Where the bay images of a die begin (R241). -/
def State.bayImages (s : State) (d : Nat) : Nat := s.ringBase d + s.le d (s.ringBase d + 0x50) 8

/-- The bay images are loaded: the context enters SERVING and waits for key 0. An uncorrectable unit reads as 0 into its lines,
with the effects of R266, and takes the context to FAULTED with cause 8 (R384, R387). [DEDUCED, log entry 49] -/
def execBayImageLoaded (die : DieNo) (ecc : Ecc) (s : State) : Out :=
  let d := die.val
  if s.inReset d ∨ ¬ s.is (CTXI.BAYS_LOADING.on d) then .next s
  else
    let base := s.bayImages d
    let size := 4096 * bayLines * 16
    let lines := bayLinesOf (gaddr d base) size s.mem
    let s := (s.onDie d (fun x => { x with bays := lines })).set (CTXI.BAYS_LOADING.on d) 0
    let bad := badUnits ecc false base size
    let s := (s.eccEffects d 6 0 0 false base size ecc true).each bad (fun s u =>
      let l := (32 * u - base) / 16
      let s := (s.setBayLine d 0 l 0).setBayLine d 0 (l + 1) 0
      s.bayError d (l / bayLines) (l % bayLines) 8 32)
    if bad ≠ [] then .next (s.contextFault d 8)
    else .next (((s.set (CTXI.FIRST.on d) 1).setPhase d .loadWait).toContext d 2 0)

/-- DRAIN: runs admitted to enter at DRAIN_SYNC or later complete ABORTED (R385). -/
def execDrain (req : Requester) (die : DieNo) (s : State) : Out :=
  let d := die.val
  .next (s.onWrite d CTX.page CTX.DRAIN 0 req.val 4 (fun s =>
    let at_ := s.get (CTX.DRAIN_SYNC.on d)
    if s.get (CTX.STATE.on d) ≠ 2 then s.refuseCtx d CTX.DRAIN 1 req.val 4
    else if at_ < s.get (HMBX.SYNC_NOW.on d) + 2 then s.refuseCtx d CTX.DRAIN 9 req.val 4
    else
      let s := (s.set (CTXI.DRAIN_AT.on d) at_).toContext d 3 0
      let late := (s.die d).runs.filter (fun e => (e.2.state == .admitted || e.2.state == .copyIn) && decide (at_ ≤ e.2.entry))
      s.each (late.map Prod.fst) (fun s i => s.endRun d i 6 0)))

/-- The running copies are abandoned: the runs they belong to complete as they have been told to end (R388, R400).
[DEDUCED, log entry 48] -/
def State.abandonCopies (s : State) (d : Nat) : State :=
  s.each ((s.die d).copyIn ++ (s.die d).copyOut) (fun s i =>
    match s.run d i with
    | none => s
    | some r => s.finishRun d i r.status r.detail)

/-- Closing begins: the array stops and keeps no data, copies are abandoned, the streams close, the records of runs that have not
been written are discarded and counted (R376, R388). [DEDUCED, log entry 48] -/
def State.beginClose (s : State) (d : Nat) : State :=
  let s := s.abandonCopies d
  let lost := (s.die d).runs.length
  let s := (((s.set (CTXI.CLOSING.on d) 1).set (CTXI.BAYS_LOADING.on d) 0).set (CTXI.CLOSE_WAIT.on d) 0).setPhase d .idle
  let s := ((s.set (ARRAY.FROZEN.on d) 0).set (CTXI.FIRST.on d) 0).set (ARRAY.SECTION_CYCLE.on d) 0
  let s := (s.set (SCANI.MIDWAY.on d) 0).set (STRCI.AT_LIMIT.on d) 0
  let s := ((s.set (ARRAY.SHADOW_READY.on d) 0).set (ARRAY.LOADING.on d) 0).set (ARRI.LOADED.on d) 0
  let s := s.onDie d (fun x => { x with tums := probesOnly x.tums, bays := [], active := none, shadowKey := none, flights := [], freezers := [] })
  let s := s.onDie d (fun x => { x with gates := x.gates.map (fun e => (e.1, { e.2 with ingress := [], egress := [], issued := [], chunks := [], ones := 0, skip := 0, tokens := [] })), runs := [], copyIn := [], copyOut := [], records := [] })
  ((s.runRegs d).count (RING.CQ_LOST.on d) lost).closeStreams d

/-- CLOSE: accepted in OPEN and FAULTED (R388). [DEDUCED, log entry 48] -/
def execClose (req : Requester) (die : DieNo) (s : State) : Out :=
  let d := die.val
  .next (s.onWrite d CTX.page CTX.CLOSE 0 req.val 8 (fun s =>
    let st := s.get (CTX.STATE.on d)
    if (st = 1 ∨ st = 4) ∧ ¬ s.is (CTXI.CLOSING.on d) then s.beginClose d else s.refuseCtx d CTX.CLOSE 1 req.val 8))

/-- Closing ends: the heap lists, the handles, the carve-out lock and the keyring's verdict clear, requests the mailbox has
accepted are discarded, and the die reads CLOSED (R112, R245, R275, R284, R388). [DEDUCED, log entry 48] -/
def execCloseDone (die : DieNo) (s : State) : Out :=
  let d := die.val
  if s.inReset d ∨ ¬ s.is (CTXI.CLOSING.on d) then .next s
  else
    let s := (s.set (CTXI.CLOSING.on d) 0).set (PART.CARVE_LOCKED.on d) 0
    let s := s.onDie d (fun x => { x with heap := [], holders := [], heapQ := [], gates := x.gates.map (fun e => (e.1, { e.2 with handles := [] })) })
    let s := s.each (List.range 9) (fun s n => s.set (HEAP.FREE.at d n) 0)
    let s := ((s.set (HEAP.INITED.on d) 0).set (MEMI.BUILT.on d) 0).set (KRING.VERIFIED.on d) 0
    let s := (s.set (KRING.VERDICT.on d) 0).setPair (KRING.BASE_LO.on d) (KRING.BASE_HI.on d) 0
    let s := (s.set (KRING.CHECKING.on d) 0).set (ARRAY.FORM.on d) 0xF
    .next ((s.discardAccepted d).toContext d 0 0)

/-! The submission ring (R389 to R391). -/

/-- Descriptors in the submission ring. -/
def State.submissionsHeld (s : State) (d : Nat) : Nat :=
  (s.get (RING.SQ_PROD.on d) + 65536 - s.get (RING.SQ_CONS.on d)) % 65536

/-- The address of entry `i` of the submission ring. -/
def State.sqEntry (s : State) (d i : Nat) : Nat :=
  s.pair (RING.SQ_BASE_LO.on d) (RING.SQ_BASE_HI.on d) + 64 * (i % 2 ^ s.get (RING.SQ_LOG2.on d))

/-- SUB_PUSH (R390, R407). -/
def execSubPush (req : Requester) (die : DieNo) (s : State) : Out :=
  let d := die.val
  .next (s.onWrite d RING.page RING.SUB_PUSH 0 req.val 1 (fun s =>
    let st := s.get (CTX.STATE.on d)
    if 2 ^ s.get (RING.SQ_LOG2.on d) ≤ s.submissionsHeld d ∨ (st ≠ 1 ∧ st ≠ 2) ∨ s.is (CTXI.CLOSING.on d) ∨ s.is (LINEI.FENCING.on d) then
      (s.regFault d RING.page RING.SUB_PUSH 0 .accessErr req.val 1).pageEvent d RING.page 9
    else
      let w := (List.range 16).map (fun i => s.get (RING.SUB_DATA.at d i))
      (s.storeWords d (s.sqEntry d (s.get (RING.SQ_PROD.on d))) w).wrap (RING.SQ_PROD.on d)))

/-- The run a descriptor describes (R392). -/
def State.readRun (s : State) (d a : Nat) : Run :=
  { tag := s.le d a 4, key := s.le d (a + 4) 2, flags := s.le d (a + 6) 2, entry := s.le d (a + 8) 4,
    inWin := s.le d (a + 0xC) 1, outWin := s.le d (a + 0xD) 1, inSrc := s.le d (a + 0x10) 8, inDst := s.le d (a + 0x18) 8,
    inLen := s.le d (a + 0x20) 4, outLen := s.le d (a + 0x24) 4, outSrc := s.le d (a + 0x28) 8, outDst := s.le d (a + 0x30) 8 }

/-- Whether a length is out of range (R392). -/
def badLength (n : Nat) : Bool := n % 32 != 0 || decide (67108864 < n)

/-- The form a run of an entry hinge is checked against: the variant's, for one beyond a form change that is pending (R648). -/
def State.runForm (s : State) (d entry : Nat) : Nat :=
  if s.get (DFAULT.FORM_STATE.on d) = 1 ∧ s.get (DFAULT.FORM_SYNC.on d) < entry then s.get (DFAULT.FORM_LOST.on d)
  else s.get (ARRAY.FORM.on d)

/-- Whether a run's key is no entry key of the form it is checked against (R393). -/
def State.badKey (s : State) (d : Nat) (r : Run) : Bool :=
  let f := s.formAt d (s.ringBase d) (s.runForm d r.entry)
  !s.is (KRING.VERIFIED.on d) || decide (f.nkeys ≤ r.key) || !(s.keyFlags f r.key).testBit 1

/-- The first check of R393 that a descriptor at `a` fails; 0 for none. -/
def State.runRefusal (s : State) (d a : Nat) (r : Run) : Nat :=
  let inWin (w src n : Nat) (write : Bool) : Bool := n == 0 || (decide (w < 16) && s.winHolds d w src n && s.winGrants d w 1 write)
  if bitsOf r.flags 1 15 ≠ 0 ∨ s.le d (a + 0xE) 2 ≠ 0 ∨ s.le d (a + 0x38) 8 ≠ 0 ∨ r.tag = 0xFFFFFFFF ∨ badLength r.inLen ∨
      badLength r.outLen ∨ [r.inSrc, r.inDst, r.outSrc, r.outDst].any (fun x => decide (1099511627776 ≤ x)) then 1
  else if s.badKey d r then 2
  else if (s.die d).runs.any (fun e => e.2.tag == r.tag) then 3
  else if r.entry < s.get (HMBX.SYNC_NOW.on d) + 2 then 4
  else if ¬ (inWin r.inWin r.inSrc r.inLen false ∧ inWin r.outWin r.outDst r.outLen true ∧ s.permitted d 1 true r.inDst r.inLen ∧
      s.permitted d 1 false r.outSrc r.outLen) then 5
  else if s.get (CTX.STATE.on d) = 3 ∧ s.get (CTXI.DRAIN_AT.on d) ≤ r.entry then 6
  else 0

/-- The run controller takes the next descriptor: it is admitted to the run table, or completes REFUSED (R391, R393).
[DEDUCED, log entry 49] -/
def execRunTake (die : DieNo) (s : State) : Out :=
  let d := die.val
  let st := s.get (CTX.STATE.on d)
  match (List.range 256).find? (fun i => (s.run d i).isNone) with
  | none => .next s
  | some i =>
    if s.inReset d ∨ (st ≠ 2 ∧ st ≠ 3) ∨ s.is (CTXI.CLOSING.on d) ∨ s.submissionsHeld d = 0 then .next s
    else
      let a := s.sqEntry d (s.get (RING.SQ_CONS.on d))
      let r := s.readRun d a
      let c := s.runRefusal d a r
      let s := (s.wrap (RING.SQ_CONS.on d)).wrap (CTXI.RUN_ORDER.on d)
      let s := s.setRun d i { r with seqNo := s.get (CTXI.RUN_ORDER.on d) }
      if c = 0 then .next s else .next ((s.dieEvent d RUNS.page 0x2606).endRun d i 8 c)

/-! The run copier (R395 to R397). -/

/-- Move the bytes of a range of memory to another place, whole. -/
def moveRange (mem : List Host.Cell) (src dst n : Nat) : List Host.Cell :=
  mem.filter (fun c => decide (c.1 < dst)) ++
    (mem.filter (fun c => decide (src ≤ c.1 ∧ c.1 < src + n))).map (fun c => (c.1 - src + dst, c.2)) ++
    mem.filter (fun c => decide (dst + n ≤ c.1))

/-- A copy of a run as agent kind 1: bytes in error, or all of a source that is refused, are written as all ones. True where an
access was refused or met an uncorrectable error, a unit that the copy writes in part included (R270, R395, R400). -/
def State.runCopy (s : State) (d src dst n : Nat) (ecc : Ecc) : State × Bool :=
  if n = 0 then (s, false)
  else
    let bad := badUnits ecc false src n
    let readable := s.permitted d 1 false src n
    let r := if readable then s.eccEffects d 1 0 0 false src n ecc else s.refuseAccess d 1 0 0 false src n
    if ¬ s.permitted d 1 true dst n then (r.refuseAccess d 1 0 0 true dst n, true)
    else
      let torn := badUnits ecc true dst n
      let r := (r.eccEffects d 1 0 0 true dst n ecc).fillBad d torn
      if ¬ readable then (r.writeBytes d dst (List.replicate n 0xFF), true)
      else
      let r := { r with mem := moveRange r.mem (gaddr d src) (gaddr d dst) n }
      let r := r.each bad (fun s u => s.each (List.range 32) (fun s i =>
        if src ≤ 32 * u + i ∧ 32 * u + i < src + n then s.setByte (gaddr d (dst + (32 * u + i - src))) 0xFF else s))
      (r, bad != [] || torn != [])

/-- The input copy at the head of the copier's queue ends; the entry key may become ready, and a run that has been told to end
completes (R395, R411, R412). [DEDUCED, log entry 49] -/
def execInputCopyDone (die : DieNo) (ecc : Ecc) (s : State) : Out :=
  let d := die.val
  match (s.die d).copyIn with
  | [] => .next s
  | i :: rest =>
    match s.run d i with
    | none => .next s
    | some r =>
      if s.inReset d then .next s
      else
        let c := s.runCopy d r.inSrc r.inDst r.inLen ecc
        let s := c.1.onDie d (fun x => { x with copyIn := rest })
        let r := { r with copied := true, state := .admitted, status := if c.2 then max r.status 4 else r.status }
        let s := s.setRun d i r
        if 5 ≤ r.status then .next (s.finishRun d i r.status r.detail) else .next (s.tryReady d)

/-- The output copy at the head of the copier's queue is acknowledged: the run finishes, the next key may become ready, and a die
that waits at DRAIN_SYNC closes (R386, R396, R400). [DEDUCED, log entry 49] -/
def execOutputCopyDone (die : DieNo) (ecc : Ecc) (s : State) : Out :=
  let d := die.val
  match (s.die d).copyOut with
  | [] => .next s
  | i :: _ =>
    match s.run d i with
    | none => .next s
    | some r =>
      if s.inReset d then .next s
      else
        let c := s.runCopy d r.outSrc r.outDst r.outLen ecc
        let s := (c.1.finishRun d i (if c.2 then 4 else 0) 0).tryReady d
        .next (if s.is (CTXI.CLOSE_WAIT.on d) then s.beginClose d else s)

/-- A write of CQ_CONS: one that would pass CQ_PROD is discarded with ACCESS_ERR; completions that wait are written (R398). -/
def execCqCons (req : Requester) (die : DieNo) (value : BitVec 16) (s : State) : Out :=
  let d := die.val
  .next (s.onWrite d RING.page RING.CQ_CONS 0 req.val value.toNat (fun s =>
    if s.completionsHeld d < (value.toNat + 65536 - s.get (RING.CQ_CONS.on d)) % 65536 then
      s.regFault d RING.page RING.CQ_CONS 0 .accessErr req.val value.toNat
    else (s.set (RING.CQ_CONS.on d) value.toNat).drainRecords d))

end Sys2Proof.Machine
end

