-- ==== Sys2Proof/Machine/Mailbox.lean ====
section
/-! DEFINITION. The hinge mailbox: posting windows, the checks of a request, the hold at a sync hinge, and the change of an
operating point between die and sequencer (R91 to R112 of spec/03_rails.md, R429 to R434 of spec/13_drain_scan.md). -/

namespace Sys2Proof.Machine

namespace HOLDI
/-- The target point of the transition (R107). -/
def TARGET : Reg := ireg 0x166 3 0
/-- Its transition ID. -/
def TID : Reg := ireg 0x167 8 0
/-- VOLT_OK for it has been received (R100, R102). -/
def VOLT : Reg := ireg 0x168 1 0
/-- The hold's time is over. -/
def OVER : Reg := ireg 0x169 1 0
/-- The point the idle clock source locks to, or is locked at, plus 1; 0 for none (R92). -/
def IDLE_OP : Reg := ireg 0x16A 4 0
/-- AT_HINGE is on its way to the sequencer (R101). -/
def AT_HINGE : Reg := ireg 0x16B 1 0
/-- F_DONE is on its way to the sequencer (R103). -/
def F_DONE : Reg := ireg 0x16C 1 0
/-- The step of R429 a forced change stands at: 1 scan-out, 3 VOLT_OK awaited, 4 tile PLL locking, 5 scan-in, 6 reached, 7
refused (R434). -/
def STEP : Reg := ireg 0x16D 3 0
/-- The slots whose request has arrived and is not yet checked. -/
def DUE : Reg := ireg 0x16F 8 0
/-- A test slot's skip phase ran past the hold (R230). -/
def LATE : Reg := ireg 0x170 1 0
end HOLDI

/-! The posting windows (R93, R94, R112). -/

/-- The window of MCk claims a slot of its target die: the lowest free one is granted, else SLOT reads BUSY (R94).
[DEDUCED, log entry 29] -/
def State.mbxClaim (s : State) (k : Nat) : State :=
  let d := s.get (MBXPOST.DIE.clAt k)
  match (List.range 8).find? (fun j => s.get (MBXI.OWNER.clAt (8 * d + j)) = 0) with
  | none => (((s.set (MBXPOST.SLOT.clAt k) 0xFF).set (MBXPOST.CLAIM_DONE.clAt k) 1).set (MBXPOST.STATUS.clAt k) 0).set (MBXPOST.TID.clAt k) 0
  | some j =>
    let s := (s.set (MBXI.OWNER.clAt (8 * d + j)) (k + 1)).set (MBXI.SENT.clAt (8 * d + j)) 0
    let s := (s.set (MBXI.SHOWN.clAt (8 * d + j)) 0).set (MBXI.SHOWN_TID.clAt (8 * d + j)) 0
    (s.set (MBXI.HELD.clAt (8 * k + d)) (j + 1)).showWindow k

/-- A core claims a free slot of its target die, or reads BUSY (R94). -/
def execMbxClaim (req : Requester) (core : McNo) (s : State) : Out :=
  .next (s.onWrite clachasel MBXPOST.page MBXPOST.CLAIM core.val req.val 256 (fun s => s.mbxClaim core.val))

/-- VALID is written 1: the request waits for its check; an undefined KIND is refused at once (R96).
[DEDUCED, log entry 29] -/
def State.slotValid (s : State) (d j : Nat) : State :=
  let s := s.set (HMBX.S_VALID.at d j) 1
  if s.get (HMBX.S_KIND.at d j) = 0 ∨ 4 < s.get (HMBX.S_KIND.at d j) then s.postResult d j .refusedBad 0
  else s.setBit (HOLDI.DUE.on d) j true

/-- The window of MCk sends: the payload, then CTRL with VALID = 1, to the die (R93). The Clachasel posts nothing to a fenced die
(R39) or to one in die reset, nor over a request that is not terminal. [DEDUCED, log entry 29] -/
def State.mbxSend (s : State) (k : Nat) : State :=
  let d := s.get (MBXPOST.DIE.clAt k)
  let h := s.get (MBXI.HELD.clAt (8 * k + d))
  let j := h - 1
  let waits := s.is (MBXI.SENT.clAt (8 * d + j)) && !mbxTerminal (s.get (MBXI.SHOWN.clAt (8 * d + j)))
  if h = 0 ∨ s.tripped d ∨ s.fenced d ∨ waits then s
  else
    let p := s.get (MBXPOST.PARAM.clAt k)
    let t := s.get (MBXPOST.TAG.clAt k)
    let s := ((s.set (HMBX.S_TARGET_OP.at d j) p).set (HMBX.S_IDLE_BEATS.at d j) (p / 256)).set (HMBX.S_HOLD_US.at d j) (p / 65536)
    let s := (s.set (HMBX.S_H.at d j) (s.get (MBXPOST.HINGE.clAt k))).set (HMBX.S_CONTEXT.at d j) t
    let s := (s.set (HMBX.S_TID.at d j) (t / 65536)).set (HMBX.S_KIND.at d j) (s.get (MBXPOST.KIND.clAt k))
    let s := (s.set (HMBX.R_STATUS.at d j) 0).set (MBXI.SHOWN.clAt (8 * d + j)) 0
    let s := (s.setBit (DEVQI.REPORT.on d) j false).devqRegs d
    ((s.set (MBXI.SENT.clAt (8 * d + j)) 1).showWindow k).slotValid d j

/-- SEND (R93). -/
def execSend (req : Requester) (core : McNo) (s : State) : Out :=
  .next (s.onWrite clachasel MBXPOST.page MBXPOST.SEND core.val req.val 1 (fun s => s.mbxSend core.val))

/-- MC0 posts a request to a die through its window: the die, a claim, the payload, SEND. Answers the slot, if one was free
(R93, R94, R98). -/
def State.mc0Post (s : State) (d kind h param tid : Nat) : State × Option Nat :=
  let s := (s.set (MBXPOST.DIE.clAt 0) d).mbxClaim 0
  let slot := s.get (MBXPOST.SLOT.clAt 0)
  if slot = 0xFF then (s, none)
  else
    let s := (s.set (MBXPOST.PARAM.clAt 0) param).set (MBXPOST.HINGE.clAt 0) h
    let s := s.set (MBXPOST.TAG.clAt 0) (s.get POWI.CTX_NUM.cl + 65536 * tid)
    ((s.set (MBXPOST.KIND.clAt 0) kind).mbxSend 0, some slot)

/-- RELEASE clears VALID and frees the slot; it is discarded before a terminal status (R94, R112). -/
def execMbxRelease (req : Requester) (core : McNo) (s : State) : Out :=
  let k := core.val
  .next (s.onWrite clachasel MBXPOST.page MBXPOST.RELEASE k req.val 1 (fun s =>
    let d := s.get (MBXPOST.DIE.clAt k)
    let h := s.get (MBXI.HELD.clAt (8 * k + d))
    if h = 0 ∨ ¬ mbxTerminal (s.get (MBXI.SHOWN.clAt (8 * d + h - 1))) then s
    else (s.freeSlot d (h - 1)).setBit (HOLDI.DUE.on d) (h - 1) false))

/-! The transition of an operating point (R99 to R103, R107). -/

/-- The die's running point changes: the tile clock is that of the point, the idle source is spent (R92). -/
def State.switchPoint (s : State) (d op : Nat) : State :=
  let s := ((s.set (HMBX.RUN_OP.on d) op).set (DCLK.TILE_MHZ.on d) (tileMhz op)).set (OPCTL.RUN_OP.clAt d) op
  (s.set (HMBX.PLL_READY.on d) 0).set (HOLDI.IDLE_OP.on d) 0

/-- The idle source is to lock to a point (R92). -/
def State.startIdle (s : State) (d op : Nat) : State :=
  if s.get (HOLDI.IDLE_OP.on d) = op + 1 then s else (s.set (HOLDI.IDLE_OP.on d) (op + 1)).set (HMBX.PLL_READY.on d) 0

/-- The idle source is locked at the target of the transition. -/
def State.idleReady (s : State) (d : Nat) : Bool :=
  s.is (HMBX.PLL_READY.on d) && s.get (HOLDI.IDLE_OP.on d) == s.get (HOLDI.TARGET.on d) + 1

/-- On a drop the die switches once its idle source is locked, and reports F_DONE (R103, R107). -/
def State.tryDrop (s : State) (d : Nat) : State :=
  let target := s.get (HOLDI.TARGET.on d)
  if s.get (HOLDI.KIND.on d) = 1 ∧ ¬ s.is (HOLDI.OVER.on d) ∧ target < s.get (HMBX.RUN_OP.on d) ∧ s.idleReady d then
    (s.switchPoint d target).set (HOLDI.F_DONE.on d) 1
  else s

/-- The sequencer drives OPSEL_n (R91); a rise has its power-good checked when the slew ends (R101). -/
def State.driveOpsel (s : State) (n op : Nat) (check : Bool) : State :=
  let s := if s.get (OPCTL.OPSEL.clAt n) = op then s else s.set (OPCTL.SLEWING.clAt n) 1
  (s.set (OPCTL.OPSEL.clAt n) op).put (OPI.CHECK.clAt n) check

/-- A revision takes effect at once: a lower target waits for F_DONE, any other is driven, and a VOLT_OK for the old transition
ID is ignored; the request revised is SUPERSEDED (R107). -/
def State.revise (s : State) (d j : Nat) : State :=
  let s := s.postResult d (s.get (HOLDI.SLOT.on d)) .superseded 0
  let target := s.get (HMBX.S_TARGET_OP.at d j)
  let run := s.get (HMBX.RUN_OP.on d)
  let s := ((s.set (HOLDI.SLOT.on d) j).set (HOLDI.TARGET.on d) target).set (HOLDI.TID.on d) (s.get (HMBX.S_TID.at d j))
  let s := ((s.set (HOLDI.VOLT.on d) 0).set (HOLDI.AT_HINGE.on d) 0).set (OPCTL.TID.clAt d) (s.get (HMBX.S_TID.at d j))
  let s := if target = run then s else s.startIdle d target
  if target < run then (s.set (OPI.CHECK.clAt d) 0).tryDrop d
  else (s.set (HOLDI.F_DONE.on d) 0).driveOpsel d target (decide (run < target))

/-! The checks of a request (R96). -/

/-- Whether an OP_CHANGE for H is a revision: the hold of an OP_CHANGE at H is in progress (R107). -/
def State.isRevision (s : State) (d j : Nat) : Bool :=
  s.get (HMBX.S_KIND.at d j) == 1 && s.get (HOLDI.KIND.on d) == 1 && s.is (HMBX.HOLD_ACTIVE.on d) &&
    s.get (HMBX.S_H.at d j) == s.get (HMBX.SYNC_NOW.on d)

/-- The context number a request must carry (R96). -/
def State.openContext (s : State) (d : Nat) : Nat := if s.get (CTX.STATE.on d) = 0 then 0 else s.get (CTX.CTX_NUM.on d)

/-- The die checks the request of a slot of a kind and accepts or refuses it; `act` is what it does on acceptance. A request
that reaches a fenced die is discarded (R39, R96). [DEDUCED, log entry 29] -/
def State.request (s : State) (d j kind : Nat) (bad : Bool) (act : State → State) : State :=
  if s.inReset d ∨ ¬ s.bit (HOLDI.DUE.on d) j ∨ s.get (HMBX.S_KIND.at d j) ≠ kind then s
  else
    let s := s.setBit (HOLDI.DUE.on d) j false
    if s.is (LINEI.FENCING.on d) then s.postResult d j .discarded 0
    else if bad then s.postResult d j .refusedBad 0
    else if s.get (HMBX.S_CONTEXT.at d j) ≠ s.openContext d then s.postResult d j .refusedStale 0
    else if ¬ s.isRevision d j ∧ s.get (HMBX.S_H.at d j) < s.get (HMBX.SYNC_NOW.on d) + 2 then s.postResult d j .refusedLate 0
    else act (s.postResult d j .accepted 0)

/-- An OP_CHANGE is checked; accepted, the idle source starts to lock at its target, or it revises the transition in progress
(R92, R96, R99, R107). The one idle source locks to the target of the request accepted last, and starts no lock for the point the die
runs at. [DESIGN CHOICE, log entry 30] -/
def execOpChange (die : DieNo) (slot : Fin 8) (s : State) : Out :=
  let d := die.val
  let j := slot.val
  .next (s.request d j 1 false (fun s =>
    if s.isRevision d j then s.revise d j
    else if s.get (HMBX.S_TARGET_OP.at d j) = s.get (HMBX.RUN_OP.on d) then s
    else s.startIdle d (s.get (HMBX.S_TARGET_OP.at d j))))

/-- A THROTTLE is checked (R96, R105). -/
def execThrottle (die : DieNo) (slot : Fin 8) (s : State) : Out := .next (s.request die.val slot.val 2 false id)

/-- A TEST_SLOT is checked: only TESTS [2:0] may be set, and TARGET_OP is 0 (R96, R663). -/
def execTestSlot (die : DieNo) (slot : Fin 8) (s : State) : Out :=
  let d := die.val
  let j := slot.val
  .next (s.request d j 3 (decide (8 ≤ s.get (HMBX.S_IDLE_BEATS.at d j)) || s.get (HMBX.S_TARGET_OP.at d j) != 0) id)

/-- An OP_FORCE is checked (R96, R429). -/
def execOpForce (die : DieNo) (slot : Fin 8) (s : State) : Out := .next (s.request die.val slot.val 4 false id)

/-- The idle clock source locks (R92); a drop that waited for it switches. -/
def execIdlePllLock (die : DieNo) (s : State) : Out :=
  let d := die.val
  if s.inReset d ∨ s.get (HOLDI.IDLE_OP.on d) = 0 then .next s else .next ((s.set (HMBX.PLL_READY.on d) 1).tryDrop d)

/-- The sequencer receives AT_HINGE: the transition ID is current, and on a rise OPSEL_n is driven to the target (R101). -/
def execAtHinge (die : DieNo) (s : State) : Out :=
  let d := die.val
  if s.inReset d ∨ ¬ s.is (HOLDI.AT_HINGE.on d) then .next s
  else
    let s := (s.set (HOLDI.AT_HINGE.on d) 0).set (OPCTL.TID.clAt d) (s.get (HOLDI.TID.on d))
    let target := s.get (HOLDI.TARGET.on d)
    .next (if s.get (HMBX.RUN_OP.on d) < target then s.driveOpsel d target true else s)

/-- The slew ends: after a rise power-good of both regulators is checked, and VOLT_OK is sent or event 0x3204 recorded (R101).
[DEDUCED, log entry 30] -/
def execVoltCheck (die : DieNo) (powerGood : Bool) (s : State) : Out :=
  let n := die.val
  let due := s.is (OPI.CHECK.clAt n)
  let s := (s.set (OPCTL.SLEWING.clAt n) 0).set (OPI.CHECK.clAt n) 0
  if ¬ due then .next s
  else if powerGood then .next (s.set (OPI.VOLT.clAt n) (s.get (OPCTL.TID.clAt n) + 1))
  else .next (s.event OPCTL.page 0x3204)

/-- In a forced change the tile PLL is to lock at the target (R429). [DEDUCED, log entry 31] -/
def State.startTileLock (s : State) (d : Nat) : State := (s.set (HOLDI.STEP.on d) 4).set (DCLK.TILE_LOCK.on d) 0

/-- The die receives VOLT_OK for a transition ID; one for another than the current transition is ignored. A forced change goes on
to lock its tile PLL (R102, R107, R429). -/
def execVoltOk (die : DieNo) (s : State) : Out :=
  let d := die.val
  let v := s.get (OPI.VOLT.clAt d)
  if v = 0 then .next s
  else
    let s := s.set (OPI.VOLT.clAt d) 0
    if s.inReset d ∨ s.get (HOLDI.KIND.on d) = 0 ∨ s.get (HOLDI.TID.on d) ≠ v - 1 then .next s
    else
      let s := s.set (HOLDI.VOLT.on d) 1
      .next (if s.get (HOLDI.KIND.on d) = 4 ∧ s.get (HOLDI.STEP.on d) = 3 then s.startTileLock d else s)

/-! The end of a hold (R99, R102, R255, R318, R431, R665). -/

/-- A die with FENCE_n that is between hinges and acts on nothing reaches its fenced state: event 0x2030, and its context goes to
FAULTED with cause FENCED (R26, R39, R387, R636). -/
def State.tryFenced (s : State) (d : Nat) : State :=
  let acts := !s.atHinge d || s.phaseIs d .swap || s.phaseIs d .mailbox || s.is (HOLDI.KIND.on d) || s.is (SCAN.SCANNING.on d) ||
    s.is (SCAN.FORCING.on d)
  if ¬ s.is (LINEI.FENCING.on d) ∨ s.is (LINEI.FENCED.on d) ∨ acts then s
  else ((s.set (LINEI.FENCED.on d) 1).dieEvent d DFAULT.page 0x2030).contextFault d 7

/-- The die reports ready for its sync hinge, while its context runs keys, and takes a release that came before; a fenced die holds
(R39, R255, R264, R318).
[DEDUCED, log entry 30] -/
def State.reportReady (s : State) (d : Nat) : State :=
  (if s.get (CTX.STATE.on d) = 2 ∨ s.get (CTX.STATE.on d) = 3 then ((s.setPhase d .releaseWait).agree d).takeNoted d else s).tryFenced d

/-- The result of the request the die acts on (R96): DONE carries the hinge. -/
def State.endRequest (s : State) (d : Nat) (st : MbxStatus) : State :=
  s.postResult d (s.get (HOLDI.SLOT.on d)) st (if st = .done then s.get (HMBX.SYNC_NOW.on d) else 0)

/-- An OP_CHANGE ends with its hold. A rise switches with VOLT_OK for the current transition ID and the idle source locked, and
otherwise ends in VOLT_LATE, as does a drop whose idle source never locked; event 0x3202 goes with DONE. After a switch the die has a step
to make before the next key starts (R102, R103, R107, R336).
[DEDUCED, log entry 30] -/
def State.endChange (s : State) (d : Nat) : State :=
  let target := s.get (HOLDI.TARGET.on d)
  let run := s.get (HMBX.RUN_OP.on d)
  let good := if run < target then s.is (HOLDI.VOLT.on d) && s.idleReady d else target == run
  let s := if run < target ∧ good then (s.switchPoint d target).set (HASPI.STEP_DUE.on d) 1 else s
  let s := if good then (s.endRequest d .done).event OPCTL.page 0x3202 else s.endRequest d .voltLate
  (s.set (HOLDI.KIND.on d) 0).reportReady d

/-- A forced change has reached Step 6: event 0x1444, and 0x1445 where the hold was over before; the mailbox slot reads DONE and
the die reports ready. One that takes no scan records neither (R429, R431, R432). [DEDUCED, log entries 30, 31] -/
def State.endForce (s : State) (d : Nat) : State :=
  let scanned := s.get (HOLDI.STEP.on d) ≠ 6
  let s := (s.set (SCAN.FORCING.on d) 0).set (HOLDI.KIND.on d) 0
  let s := if scanned then s.dieEvent d SCAN.page 0x1444 else s
  let s := if s.is (HOLDI.OVER.on d) ∧ scanned then s.dieEvent d SCAN.page 0x1445 else s
  ((s.count (SCAN.FORCED.on d)).endRequest d .done).reportReady d

/-- Whether some test of the slot, or its skip phase, still runs (R665). -/
def State.slotBusy (s : State) (d : Nat) : Bool :=
  s.is (CSKIP.SKIPPING.on d) || s.is (STEST.TUMBLER_RUN.on d) || s.is (STEST.LINK_RUN.on d) || s.is (STEST.MEM_RUN.on d)

/-- The failed columns of the last TUMBLER test. -/
def State.failedColumns (s : State) (d : Nat) : Nat :=
  (List.range 4).foldl (fun n g => n + popcount 17 (s.get (STEST.FAILED_COLS.at d g))) 0

/-- A test slot ends at the later of its hold and its tests: DONE, event 0x1450, and 0x1403 where the skip phase ran past the hold
(R230, R665). -/
def State.endSlot (s : State) (d : Nat) : State :=
  if s.get (HOLDI.KIND.on d) ≠ 3 ∨ ¬ s.is (HOLDI.OVER.on d) ∨ s.slotBusy d then s
  else
    let s := if s.is (HOLDI.LATE.on d) then s.dieEvent d CSKIP.page 0x1403 else s
    let s := ((s.set (STEST.IN_SLOT.on d) 0).set (HOLDI.LATE.on d) 0).pageEvent d STEST.page 8
    let s := (s.set (HOLDI.KIND.on d) 0).endRequest d .done
    let s := s.dieEvent d STEST.page 0x1450 (s.get (STEST.LAST_TESTS.on d) + 256 * s.get (STEST.LAST_DEFERRED.on d) + 65536 * s.failedColumns d)
    s.reportReady d

/-- The hold of a sync hinge ends. A forced change that has not reached Step 6 is finished first (R102, R431, R432, R665).
[DEDUCED, log entry 30] -/
def execHoldEnd (die : DieNo) (s : State) : Out :=
  let d := die.val
  if s.inReset d ∨ ¬ s.is (HMBX.HOLD_ACTIVE.on d) then .next s
  else
    let s := (s.set (HMBX.HOLD_ACTIVE.on d) 0).set (HOLDI.OVER.on d) 1
    match s.get (HOLDI.KIND.on d) with
    | 1 => .next (s.endChange d)
    | 3 => .next ((s.put (HOLDI.LATE.on d) (s.is (CSKIP.SKIPPING.on d))).endSlot d)
    | 4 => .next (if s.get (HOLDI.STEP.on d) = 6 then s.endForce d else s)
    | _ => .next s

/-- The sequencer receives F_DONE and drives OPSEL_n down to the running point (R100, R103). -/
def execFDone (die : DieNo) (s : State) : Out :=
  let d := die.val
  if s.inReset d ∨ ¬ s.is (HOLDI.F_DONE.on d) then .next s
  else .next ((s.set (HOLDI.F_DONE.on d) 0).driveOpsel d (s.get (HMBX.RUN_OP.on d)) false)

/-! Acting on the requests of a sync hinge (R111, R255, R675). -/

/-- The accepted requests of a kind whose H is the sync hinge the die stands at, lower slots first. -/
def State.dueSlots (s : State) (d kind : Nat) : List Nat :=
  (List.range 8).filter (fun j =>
    s.get (HMBX.R_STATUS.at d j) == 1 && s.get (HMBX.S_KIND.at d j) == kind && s.get (HMBX.S_H.at d j) == s.get (HMBX.SYNC_NOW.on d))

/-- Tests are requested of a die; event 0x2450 when REQ_TESTS leaves 0 (R662). -/
def State.requestTests (s : State) (d mask : Nat) : State :=
  let old := s.get (STEST.REQ_TESTS.on d)
  let s := s.set (STEST.REQ_TESTS.on d) (Nat.lor old mask)
  if old = 0 ∧ s.get (STEST.REQ_TESTS.on d) ≠ 0 then s.dieEvent d STEST.page 0x2450 else s

/-- Requests are superseded; the tests of a TEST_SLOT stay requested (R111, R675). [DEDUCED, log entry 30] -/
def State.supersede (s : State) (d : Nat) (slots : List Nat) : State :=
  s.each slots (fun s j =>
    let s := s.postResult d j .superseded 0
    if s.get (HMBX.S_KIND.at d j) = 3 then s.requestTests d (s.get (HMBX.S_IDLE_BEATS.at d j)) else s)

/-- A hold begins for the request of a slot. -/
def State.beginHold (s : State) (d kind j : Nat) : State :=
  let s := ((s.set (HMBX.HOLD_ACTIVE.on d) 1).set (HOLDI.KIND.on d) kind).set (HOLDI.SLOT.on d) j
  let s := (s.set (HOLDI.TARGET.on d) (s.get (HMBX.S_TARGET_OP.at d j))).set (HOLDI.TID.on d) (s.get (HMBX.S_TID.at d j))
  let s := ((s.set (HOLDI.OVER.on d) 0).set (HOLDI.VOLT.on d) 0).set (HOLDI.F_DONE.on d) 0
  (s.set (HOLDI.AT_HINGE.on d) 0).set (HOLDI.LATE.on d) 0

/-- The die carries out an OP_CHANGE: it sends AT_HINGE, and on a drop switches as soon as its idle source is locked (R99, R101,
R103). -/
def State.actChange (s : State) (d j : Nat) : State := ((s.beginHold d 1 j).set (HOLDI.AT_HINGE.on d) 1).tryDrop d

/-- The die carries out an OP_FORCE: Step 1 scans out to slot 0; with TARGET_OP equal to RUN_OP it takes no scan (R429, R432).
[DEDUCED, log entry 31] -/
def State.actForce (s : State) (d j : Nat) : State :=
  let s := s.beginHold d 4 j
  let target := s.get (HOLDI.TARGET.on d)
  if target = s.get (HMBX.RUN_OP.on d) then s.set (HOLDI.STEP.on d) 6
  else ((s.set (HOLDI.STEP.on d) 1).set (SCAN.FORCING.on d) 1).startScan d 3 0 7 true

/-- Whether the sync hinge that comes next takes a forced change (R423). [DEDUCED, log entry 31] -/
def State.forceNext (s : State) (d : Nat) : Bool :=
  (List.range 8).any (fun j =>
    s.get (HMBX.R_STATUS.at d j) == 1 && s.get (HMBX.S_KIND.at d j) == 4 &&
      s.get (HMBX.S_H.at d j) == s.get (HMBX.SYNC_NOW.on d) + 1 && s.get (HMBX.S_TARGET_OP.at d j) != s.get (HMBX.RUN_OP.on d))

end Sys2Proof.Machine
end

