-- ==== Sys2Proof/Machine/Scan.lean ====
section
/-! DEFINITION. Scan-out, scan-in and the forced change (R416 to R441 of spec/13_drain_scan.md). -/

namespace Sys2Proof.Machine

/-! Images (R417 to R421). -/

/-- A word of a register page as its fields read, without side effects. -/
def State.rawWord (s : State) (chip : Nat) (p : Page) (off : Nat) : Nat :=
  (fieldsAt p off).foldl (fun v x => v + s.get (x.1.at chip x.2) * 2 ^ x.1.lo) 0

/-- The fields of part of an image: offset, bytes, value. A byte that no field holds is 0. -/
abbrev Image := List (Nat × Nat × Nat)

/-- Move the fields of an image. -/
def shiftImage (o : Nat) (l : Image) : Image := l.map (fun e => (e.1 + o, e.2))

/-- Where KLOAD's fields begin in the ARRAY region: apart from those of ARRAY by the distance of the pages.
[DEDUCED, log entry 57] -/
def kloadAt : Nat := 0x2000

/-- The ARRAY region (R417). [DEDUCED, log entry 57] -/
def State.arrayImage (s : State) (d : Nat) : Image :=
  (List.range 9).map (fun i => (4 * i + 4, 4, s.rawWord d ARRAY.page (0x400044 + 4 * i))) ++
    (List.range 2).map (fun i => (kloadAt + 0xC + 4 * i, 4, s.rawWord d KLOAD.page (0x40204C + 4 * i)))

/-- A neighbour register of a tumbler: the word that leaves its port `k` and is presented `ahead` cycles on (R205). -/
def State.neighbourWord (s : State) (d t k ahead : Nat) : Nat :=
  let n := (s.tum d t).cycle + ahead
  let r := t / 64
  let c := t % 64
  let w (gate : Bool) (dst : Nat) (p : Port) : Nat := (s.presented d gate dst p n).getD 0
  match k with
  | 0 => if r = 0 then w true c .north else w false (t - 64) .south
  | 1 => if c = 63 then w true (64 + r) .north else w false (t + 1) .west
  | 2 => if r = 63 then w true (128 + c) .north else w false (t + 64) .north
  | _ => if c = 0 then w true (192 + r) .north else w false (t - 1) .east

/-- The word in the pass-through register of a tumbler's port `k` (R205). -/
def State.passWord (s : State) (d t k : Nat) : Nat :=
  (s.presented d false t ([Port.north, .east, .south, .west].getD k .north) (s.tum d t).cycle).getD 0

/-- The record of a tumbler (R419). -/
def State.tumImage (s : State) (d t : Nat) : Image :=
  let x := s.tum d t
  (List.range 32).map (fun i => (32 * i, 32, x.v i)) ++
    (List.range 128).map (fun i => (0x400 + 4 * i, 4, (aget x.acc i).getD 0)) ++
    (List.range 16).map (fun i => (0x600 + 4 * i, 4, x.s i)) ++
    [(0x640, 1, x.preds), (0x641, 1, x.flags),
      (0x642, 2, x.addr + 16384 * x.halted.toNat + 32768 * s.get (ARRI.BANK.on d)),
      (0x644, 4, x.l0Count + 65536 * x.l0Start), (0x648, 4, x.l1Count + 65536 * x.l1Start)] ++
    (List.range 4).map (fun k => (0x650 + 32 * k, 32, s.neighbourWord d t k 1)) ++
    (List.range 4).map (fun k => (0x6D0 + 32 * k, 32, s.passWord d t k))

/-- The entries of the ingress part of a gate unit's queue in the active key. -/
def State.ingressPart (s : State) (d k : Nat) : Nat := match s.gateProg d k with | some p => splitOf p false | none => 0

/-- The record of a gate unit (R420). [DEDUCED, log entry 57] -/
def State.gateImage (s : State) (d k : Nat) : Image :=
  let g := s.gate d k
  let n := s.ingressPart d k
  (List.range g.ingress.length).map (fun i => (32 * ((g.inRead + i) % n), 32, (g.ingress.getD i (0, 0)).1)) ++
    (List.range g.egress.length).map (fun i => (32 * (n + (g.egRead + i) % (2048 - n)), 32, g.egress.getD i 0)) ++
    shiftImage 0x10000 ([(0, 4, g.inRead), (4, 4, g.inWrite), (8, 4, g.egRead), (12, 4, g.egWrite)] ++
      (List.range 4).map (fun h => (0x10 + 4 * h, 4, gateHandle g h)) ++
      (List.range 16).map (fun j => (0x20 + 4 * j, 4, (aget g.issued j).getD 0)) ++
      (List.range 4).map (fun i => (0x60 + 4 * i, 4, (aget g.chunks i).getD 0)) ++
      [(0x70, 4, g.freezeUnder), (0x74, 4, g.freezeOver), (0x78, 4, g.leftover)])

/-- The descriptor of a stream (R338). -/
def streamImage (x : Stream) : Image := (List.range 16).map (fun i => (4 * i, 4, (descWords x).getD i 0))

/-- The slot record of entry (beat mod 16, slot) of a link (R421). An entry with no chunk names stream 0xFFFF.
[DEDUCED, log entry 57] -/
def recImage (l : List SlotRec) (i : Nat) : Image :=
  match l.find? (fun r => r.beat % 16 == i / 8 && r.slot == i % 8) with
  | some r => [(8 * i, 2, r.stream), (8 * i + 2, 4, r.chunk)]
  | none => [(8 * i, 2, 0xFFFF)]

/-- The record of a link (R421). -/
def linkImage (x : SLink) : Image :=
  [(0, 4, x.credits + 256 * x.acks.length + 65536 * x.state),
    (4, 4, (match x.table with | some t => t.period | none => 0) + 65536 * x.tableKey + 268435456 * x.altRec.toNat)] ++
    shiftImage 0x10 ((List.range 128).flatMap (recImage x.recs))

/-- A region of the image (R417). -/
def State.regionImage (s : State) (d i : Nat) : Image :=
  match i with
  | 0 => s.arrayImage d
  | 1 => (List.range 4096).flatMap (fun t => shiftImage (2048 * t) (s.tumImage d t))
  | 2 => (List.range 256).flatMap (fun k => shiftImage (69632 * k) (s.gateImage d k))
  | 3 => (s.die d).streams.flatMap (fun e => shiftImage (64 * e.1) (streamImage e.2))
  | _ => (List.range 48).flatMap (fun l => shiftImage (4096 * l) (linkImage (s.slink d l)))

/-- Write an image over a range: its fields, and 0 everywhere else. -/
def State.writeImage (s : State) (d a n : Nat) (l : Image) : State :=
  let s := { s with mem := s.mem.filter (fun c => !decide (gaddr d a ≤ c.1 ∧ c.1 < gaddr d a + n)) }
  l.foldl (fun s e => s.store (gaddr d (a + e.1)) e.2.1 e.2.2) s

/-- Where a slot begins (R416). -/
def State.slotAt (s : State) (d slot : Nat) : Nat := s.partBase d 4 + 33554432 * slot

/-- BODY_CRC of the image in a slot: over the selected regions, in region order (R418). [DEDUCED, log entry 57] -/
def State.bodyCrc (s : State) (d slot regions : Nat) : Nat :=
  Nat.xor ((regionsOf regions).foldl (fun c i => s.crcRun (gaddr d (s.slotAt d slot + regionAt i)) (regionBytes i) c) 0xFFFFFFFF) 0xFFFFFFFF

/-- SKIP of the header: byte g holds SKIP_g (R418). -/
def State.skipBytes (s : State) (d : Nat) : Nat :=
  (List.range 4).foldl (fun v g => v + s.get (CSKIP.SKIP.at d g) * 256 ^ g) 0

/-- The header but its checksums (R418). -/
def State.headerImage (s : State) (d regions flags cause : Nat) : Image :=
  [(0, 4, 0x4E414353), (4, 2, 1), (6, 1, s.get (DSYS.DIE_NUM.on d)), (7, 1, flags), (8, 2, s.get (CTX.CTX_NUM.on d)),
    (0xA, 1, regions), (0xB, 1, s.get (HMBX.RUN_OP.on d)), (0xC, 2, s.get (ARRAY.ACTIVE_KEY.on d)),
    (0xE, 1, s.get (ARRAY.FORM.on d)), (0xF, 1, cause),
    (0x10, 8, s.pair (KRING.KEYRING_ID_LO.on d) (KRING.KEYRING_ID_HI.on d)), (0x18, 4, s.get (HMBX.SYNC_NOW.on d)),
    (0x1C, 4, s.get (ARRAY.SECTION_CYCLE.on d)), (0x20, 8, s.beat d), (0x28, 4, s.skipBytes d)]

/-- A scan-out writes its image, the header last (R417, R418). -/
def State.putImage (s : State) (d slot regions flags cause : Nat) : State :=
  let a := s.slotAt d slot
  let w := (regionsOf regions).foldl (fun w i => w.writeImage d (a + regionAt i) (regionBytes i) (s.regionImage d i)) s
  let w := w.writeImage d a 65536 (s.headerImage d regions flags cause)
  let w := w.store (gaddr d (a + 0xF8)) 4 (w.bodyCrc d slot regions)
  w.store (gaddr d (a + 0xFC)) 4 (w.crc32c d a 0xFC)

/-! Reading an image back (R426 to R428). -/

/-- A header field of the image in a slot. -/
def State.hdrOf (s : State) (d slot o n : Nat) : Nat := s.le d (s.slotAt d slot + o) n

/-- The bytes a scan-in reads: the header and the regions the image holds, as address and length. -/
def State.imageSpans (s : State) (d slot : Nat) : List (Nat × Nat) :=
  (s.slotAt d slot, 65536) :: (regionsOf (s.hdrOf d slot 0xA 1)).map (fun i => (s.slotAt d slot + regionAt i, regionBytes i))

/-- Checks 2 to 9 of R426 for a slot and selected regions: the first code that applies, 0 for none. The checksums are taken of
the image as it was written; a unit that cannot be read is check 9. -/
def State.imageRefusal (s : State) (d slot regions : Nat) (ecc : Ecc) : Nat :=
  let f := s.hdrOf d slot
  if s.get (SCAN.SLOTS.on d) ≤ slot ∨ ¬ s.bit (SCAN.VALID_MAP.on d) slot then 2
  else if f 0 4 ≠ 0x4E414353 ∨ f 4 2 ≠ 1 ∨ f 0xFC 4 ≠ s.crc32c d (s.slotAt d slot) 0xFC ∨
      f 0xF8 4 ≠ s.bodyCrc d slot (f 0xA 1) ∨ ¬ (f 7 1).testBit 3 then 3
  else if f 6 1 ≠ s.get (DSYS.DIE_NUM.on d) then 4
  else if f 8 2 ≠ s.get (CTX.CTX_NUM.on d) then 5
  else if ¬ (f 7 1).testBit 0 then 6
  else if f 0x10 8 ≠ s.pair (KRING.KEYRING_ID_LO.on d) (KRING.KEYRING_ID_HI.on d) ∨
      f 0xC 2 ≠ s.get (ARRAY.ACTIVE_KEY.on d) ∨ f 0xE 1 ≠ s.get (ARRAY.FORM.on d) ∨ f 0x28 4 ≠ s.skipBytes d then 7
  else if (regions.testBit 3 ∨ regions.testBit 4) ∧
      (s.get (STRM.INFLIGHT.on d) ≠ 0 ∨ (List.range 48).any (fun l => (s.slink d l).state == 0)) then 8
  else if (s.imageSpans d slot).any (fun e => !s.permitted d 7 false e.1 e.2 || badUnits ecc false e.1 e.2 != []) then 9
  else 0

/-- What reading the image does beside delivering data (R272, R280). -/
def State.readImage (s : State) (d slot : Nat) (ecc : Ecc) : State :=
  (s.imageSpans d slot).foldl (fun s e =>
    if s.permitted d 7 false e.1 e.2 then s.eccEffects d 7 0 0 false e.1 e.2 ecc else s.refuseAccess d 7 0 0 false e.1 e.2) s

/-- The run-time fields of ARRAY that a scan-in writes: ACTIVE_KEY, FORM and PHASE stay (R427, R428). -/
def arrayRestored : List Reg :=
  [ARRAY.SHADOW_KEY, ARRAY.SHADOW_READY, ARRAY.LOADING, ARRAY.FROZEN, ARRAY.SECTION_CYCLE, ARRAY.HINGES, ARRAY.LAST_QUIESCE,
    ARRAY.LAST_RELEASE_WAIT, ARRAY.LOAD_WAIT_CYCLES, ARRAY.FREEZE_TOTAL]

/-- Restore the ARRAY region at `a`. -/
def State.restoreArray (s : State) (d a : Nat) : State :=
  let s := arrayRestored.foldl (fun s r => s.set (r.on d) (bitsOf (s.le d (a + (r.off - 0x400040)) 4) r.lo r.width)) s
  [KLOAD.LOADS, KLOAD.LAST_LOAD_CYCLES].foldl (fun s r =>
    s.set (r.on d) (bitsOf (s.le d (a + kloadAt + (r.off - 0x402040)) 4) r.lo r.width)) s

/-- The values of a table that are not 0. -/
def sparse (n : Nat) (f : Nat → Nat) : List (Nat × Nat) :=
  ((List.range n).map (fun i => (i, f i))).filter (fun e => e.2 != 0)

/-- The tumbler a record spells; its neighbour registers are restored as zeros, P0 reads 1 whatever the image holds, and what TPROBE shows
is no part of an image (R175, R198, R419, R427, R428). -/
def State.tumOf (s : State) (d a : Nat) (old : Tum) : Tum :=
  let cells := sparse 128 (fun i => s.le d (a + 0x400 + 4 * i) 4)
  let w := s.le d (a + 0x642) 2
  let l0 := s.le d (a + 0x644) 4
  let l1 := s.le d (a + 0x648) 4
  { old.probeOnly with vec := sparse 32 (fun i => s.le d (a + 32 * i) 32), scal := sparse 16 (fun i => s.le d (a + 0x600 + 4 * i) 4), preds := withBit (s.le d (a + 0x640) 1) 0 true, acc := cells, rows := cells, flags := bitsOf (s.le d (a + 0x641) 1) 0 5, addr := bitsOf w 0 11, halted := w.testBit 14, l0Count := bitsOf l0 0 14, l0Start := bitsOf l0 16 11, l1Count := bitsOf l1 0 14, l1Start := bitsOf l1 16 11 }

/-- Restore the TUMBLER region. -/
def State.restoreTums (s : State) (d a : Nat) : State :=
  let tums := ((List.range 4096).map (fun t => (t, s.tumOf d (a + 2048 * t) (s.tum d t)))).filter (fun e => e.2 != {})
  (s.onDie d (fun x => { x with tums := tums, flights := [] })).set (ARRI.BANK.on d) (bitsOf (s.le d (a + 0x642) 2) 15 1)

/-- The gate unit a record spells (R420). -/
def State.gateOf (s : State) (d a n : Nat) (old : Gate) : Gate :=
  let w (o : Nat) : Nat := s.le d (a + 0x10000 + o) 4
  let ins := (List.range (w 4 - w 0)).map (fun i => (s.le d (a + 32 * ((w 0 + i) % n)) 32, 0))
  let egs := (List.range (w 12 - w 8)).map (fun i => s.le d (a + 32 * (n + (w 8 + i) % (2048 - n))) 32)
  { old with ingress := ins, egress := egs, inRead := w 0, inWrite := w 4, egRead := w 8, egWrite := w 12, handles := sparse 4 (fun h => w (0x10 + 4 * h)), issued := sparse 16 (fun j => w (0x20 + 4 * j)), chunks := sparse 4 (fun i => w (0x60 + 4 * i)), freezeUnder := w 0x70, freezeOver := w 0x74, leftover := w 0x78 }

/-- Restore the GATE region. -/
def State.restoreGates (s : State) (d a : Nat) : State :=
  let gates := ((List.range 256).map (fun k => (k, s.gateOf d (a + 69632 * k) (s.ingressPart d k) (s.gate d k)))).filter (fun e => e.2 != {})
  s.onDie d (fun x => { x with gates := gates })

/-- The stream sixteen words spell; a receiving stream that is enabled has the transfer open that comes next (R338, R347). -/
def streamOf (w : List Nat) : Stream :=
  let g (i : Nat) : Nat := w.getD i 0
  let st := g 10
  let state := [StreamState.idle, .active, .waiting, .fenced, .halted].getD (st % 8) .idle
  let x : Stream := { ctrl := g 0, base := g 2 + 4294967296 * g 3, chunks := g 4, tail := g 5, step := g 6, wrap := g 7, xferSeq := g 8, next := g 9, resend := g 9, acked := g 9, state := state, link := if bitsOf st 8 6 = 0 ∧ st % 8 = 0 then none else some (bitsOf st 8 6), alt := st.testBit 14, resends := g 11 }
  if streamIn x ∧ bitsOf st 16 8 ≠ 0 then { x with xfers := [{ seq := (g 8 + 4294967295) % 4294967296, first := g 9 - g 9 % x.chunks }] } else x

/-- Restore the STREAM region: a descriptor whose words the image holds already stays as it is. [DEDUCED, log entry 57] -/
def State.restoreStreams (s : State) (d a : Nat) : State :=
  s.each (List.range 65536) (fun s id =>
    let w := s.words d (a + 64 * id) 16
    if descWords (s.stream d id) = w then s else s.setStream d id (streamOf w))

/-- Restore the LINK region (R421). [DEDUCED, log entry 57] -/
def State.restoreLinks (s : State) (d a : Nat) : State :=
  s.each (List.range 48) (fun s l =>
    let w := s.le d (a + 4096 * l) 4
    let v := s.le d (a + 4096 * l + 4) 4
    let now := s.beat d
    let recs := (List.range 128).filterMap (fun i =>
      let e := a + 4096 * l + 0x10 + 8 * i
      if s.le d e 2 = 0xFFFF then none
      else some ⟨now - (now % 16 + 16 - i / 8) % 16, i % 8, s.le d e 2, s.le d (e + 2) 4⟩)
    let s := s.onSlink d l (fun x => { x with credits := bitsOf w 0 7, state := bitsOf w 16 2, tableKey := bitsOf v 16 12, altRec := v.testBit 28, recs := recs })
    s.setOut d (withBit (s.outLinks d) l (bitsOf w 16 2 != 0)))

/-- A scan-in writes the regions that REGIONS selects and the image holds (R427). [DEDUCED, log entry 57] -/
def State.restore (s : State) (d slot regions : Nat) : State :=
  let a := s.slotAt d slot
  s.each (regionsOf (Nat.land regions (s.hdrOf d slot 0xA 1))) (fun s i =>
    let b := a + regionAt i
    match i with
    | 0 => s.restoreArray d b
    | 1 => s.restoreTums d b
    | 2 => s.restoreGates d b
    | 3 => s.restoreStreams d b
    | _ => s.restoreLinks d b)

/-! The commands. -/

/-- A scan is refused: VERDICT, SCAN_REFUSED and event 0x1442 with the code (R423, R426, R434). -/
def State.refuseScan (s : State) (d code : Nat) : State :=
  ((s.set (SCAN.VERDICT.on d) code).pageEvent d SCAN.page 9).dieEvent d SCAN.page 0x1442 code

/-- Whether the die stands at a hinge between the quiesce and Step 1 of R254. -/
def State.beforeSwap (s : State) (d : Nat) : Bool := s.phaseIs d .loadWait || s.phaseIs d .swap

/-- A scan-out that waits starts, at a hinge at which no forced change is taken (R423). -/
def State.startWaiting (s : State) (d : Nat) : State :=
  if s.is (SCAN.WAITING.on d) ∧ ¬ s.is (SCAN.SCANNING.on d) ∧ s.beforeSwap d ∧ ¬ s.forceNext d then
    (s.set (SCAN.WAITING.on d) 0).startScan d 1 (s.get (SCANI.WAIT_SLOT.on d)) (s.get (SCANI.WAIT_REGIONS.on d)) true
  else s

/-- OUT (R416, R423, R435). OUT with REGIONS 0 is refused; the code is a free value. [DEDUCED, log entry 57] -/
def execScanOut (req : Requester) (die : DieNo) (s : State) : Out :=
  let d := die.val
  .next (s.onWrite d SCAN.page SCAN.OUT 0 req.val 1 (fun s =>
    let slot := s.get (SCAN.SLOT.on d)
    let regions := s.get (SCAN.REGIONS.on d)
    let st := s.get (CTX.STATE.on d)
    let refuse (s : State) (c : Nat) : State := (s.refuseScan d c).regFault d SCAN.page SCAN.OUT 0 .accessErr req.val 1
    if s.is (SCAN.SCANNING.on d) ∨ s.is (SCAN.WAITING.on d) then s.regFault d SCAN.page SCAN.OUT 0 .accessErr req.val 1
    else if st = 0 ∨ s.is (CTXI.CLOSING.on d) then refuse s 1
    else if slot = 0 ∨ s.get (SCAN.SLOTS.on d) ≤ slot then refuse s 2
    else if regions = 0 then refuse s.useFree s.free
    else if st = 1 ∧ s.atHinge d then s.startScan d 1 slot regions true
    else if st = 4 then (s.countLimited d).startScan d 1 slot regions (s.phaseIs d .stopped && !s.is (SCANI.MIDWAY.on d))
    else (((s.set (SCAN.WAITING.on d) 1).set (SCANI.WAIT_SLOT.on d) slot).set (SCANI.WAIT_REGIONS.on d) regions).startWaiting d))

/-- IN: the checks of R426 in order, on the whole image; accepted, the image's state is written (R426, R427, R435).
[DEDUCED, log entry 57] -/
def execScanIn (req : Requester) (die : DieNo) (ecc : Ecc) (s : State) : Out :=
  let d := die.val
  .next (s.onWrite d SCAN.page SCAN.IN 0 req.val 2 (fun s =>
    let slot := s.get (SCAN.SLOT.on d)
    let regions := s.get (SCAN.REGIONS.on d)
    if s.is (SCAN.SCANNING.on d) ∨ s.is (SCAN.WAITING.on d) then s.regFault d SCAN.page SCAN.IN 0 .accessErr req.val 2
    else if s.get (CTX.STATE.on d) ≠ 4 ∨ ¬ s.phaseIs d .stopped ∨ s.is (CTXI.CLOSING.on d) then s.refuseScan d 1
    else
      let c := s.imageRefusal d slot regions ecc
      let s := if c = 2 then s else s.readImage d slot ecc
      if c ≠ 0 then s.refuseScan d c else (s.restore d slot regions).startScan d 4 slot regions true))

/-- The tile domain is in clock reset: its flip-flops are clear, memories and register pages are kept (R428, R429).
[DEDUCED, log entry 58] -/
def State.clockReset (s : State) (d : Nat) : State :=
  s.onDie d (fun x => { x with tums := probesOnly x.tums, gates := [], flights := [] })

/-- An automatic capture that waited for the scan to end (R424). -/
def State.captureNext (s : State) (d : Nat) : State :=
  if s.is (SCANI.CAPTURE_DUE.on d) ∧ ¬ s.is (SCAN.FORCING.on d) then (s.set (SCANI.CAPTURE_DUE.on d) 0).autoCapture d else s

/-- In FAULTED the array stays stopped after a scan, and the frozen state ends (R425). -/
def State.stayStopped (s : State) (d : Nat) : State :=
  if s.get (CTX.STATE.on d) ≠ 4 then s
  else
    let s := if s.phaseIs d .inSection ∨ s.phaseIs d .quiesce ∨ s.is (ARRAY.FROZEN.on d) then s.set (SCANI.MIDWAY.on d) 1 else s
    let s := (s.onDie d (fun x => { x with freezers := [] })).set (STRCI.AT_LIMIT.on d) 0
    (s.set (ARRAY.FROZEN.on d) 0).setPhase d .stopped

/-- A scan completes after a number of tile cycles. A scan-out has its image written: VALID_MAP, event 0x1440; a scan-in records
event 0x1441. A forced change goes on: after its scan-out the tile domain enters clock reset and AT_HINGE is sent; after its
scan-in it has reached Step 6 (R422, R425, R427, R429). -/
def execScanDone (die : DieNo) (cycles : BitVec 24) (s : State) : Out :=
  let d := die.val
  if s.inReset d ∨ ¬ s.is (SCAN.SCANNING.on d) then .next s
  else
    let kind := s.get (SCANI.KIND.on d)
    let slot := s.get (SCANI.SLOT.on d)
    let regions := s.get (SCANI.REGIONS.on d)
    let s := ((s.set (SCAN.SCANNING.on d) 0).set (SCANI.KIND.on d) 0).count (SCAN.SCAN_CYCLES.on d) cycles.toNat
    let s := ((s.set (SCAN.LAST_SCAN_CYCLES.on d) cycles.toNat).set (SCAN.VERDICT.on d) 0).pageEvent d SCAN.page 8
    if kind = 4 then .next (((s.dieEvent d SCAN.page 0x1441).captureNext d).tryFenced d)
    else if kind = 5 then .next (((s.dieEvent d SCAN.page 0x1441).endForce d).captureNext d)
    else
      let flags := s.get (SCANI.QUIESCED.on d) + 2 * (decide (kind = 3)).toNat + 4 * (decide (kind = 2)).toNat + 8
      let s := s.putImage d slot regions flags (if kind = 2 then s.get (CTX.CAUSE.on d) else 0)
      let s := (s.setBit (SCAN.VALID_MAP.on d) slot true).dieEvent d SCAN.page 0x1440
      if kind = 3 then
        let s := (s.clockReset d).set (HOLDI.AT_HINGE.on d) 1
        .next (if s.get (HOLDI.TARGET.on d) < s.get (HMBX.RUN_OP.on d) then s.startTileLock d else s.set (HOLDI.STEP.on d) 3)
      else .next (((s.stayStopped d).captureNext d).tryFenced d)

/-- In a forced change the tile PLL locks: RUN_OP reads its point, a drop reports F_DONE, and slot 0 is scanned back in under
checks 2 to 9; refused, DIE_FAULT_n is asserted and the next key is not run (R429, R434). [DEDUCED, log entries 31, 58] -/
def execTilePllLock (die : DieNo) (ecc : Ecc) (s : State) : Out :=
  let d := die.val
  if s.inReset d ∨ s.get (HOLDI.KIND.on d) ≠ 4 ∨ s.get (HOLDI.STEP.on d) ≠ 4 ∨ s.is (SCAN.SCANNING.on d) then .next s
  else
    let op := s.get (HOLDI.TARGET.on d)
    let drop := op < s.get (HMBX.RUN_OP.on d)
    let s := (s.set (DCLK.TILE_LOCK.on d) 1).switchPoint d op
    let s := if drop then s.set (HOLDI.F_DONE.on d) 1 else s
    let c := s.imageRefusal d 0 7 ecc
    let s := if c = 2 then s else s.readImage d 0 ecc
    if c ≠ 0 then
      let s := ((s.refuseScan d c).dieFault d 2).set (HOLDI.STEP.on d) 7
      .next ((s.set (SCAN.FORCING.on d) 0).captureNext d)
    else .next ((((s.restore d 0 7).startScan d 5 0 7 true)).set (HOLDI.STEP.on d) 5)

end Sys2Proof.Machine
end

