-- ==== Sys2Proof/Machine/Hinge.lean ====
section
/-! DEFINITION. The end of a quiesce, the hinge, its sync actions, the skip phase and the start of a key (R223 to R226 of
spec/07_keyway.md, R253 to R264 of spec/08_keys_hinges.md, R386, R394 to R396 of spec/12_context_runs.md, R648 of
spec/20_failure.md, R665 of spec/21_self_test.md). -/

namespace Sys2Proof.Machine

namespace SKIPI
/-- The links that were UP when the LINK test started (R669). -/
def LINKS_UP : Reg := ireg 0x176 48 0
/-- Groups whose SKIP_g has been written since the last set was applied (R674). -/
def WRITTEN : Reg := ireg 0x174 4 0
end SKIPI

/-! The end of the quiesce (R253, R254, R258, R260). -/

/-- Whether a TAKE due within so many cycles of the section's start has still to issue. [DEDUCED, log entry 58] -/
def State.takesLeft (s : State) (d cycle : Nat) : Bool :=
  match (s.die d).active with
  | none => false
  | some key => key.gates.any (fun p => (List.range p.steps.length).any (fun j =>
      match s.dueStep d p.gate j with
      | some (x, n) => x.take && decide (n < cycle)
      | none => false))

/-- Whether every egress word has been written and acknowledged, or has been faulted. [DEDUCED, log entry 58] -/
def State.egressDone (s : State) (d : Nat) : Bool := (s.die d).gates.all (fun e => e.2.egress == [])

/-- The die waits before Step 1, or the hinge runs: a cause of R387 that the hinge takes comes first, lowest code first. A LOAD refused
in the section has its event 0x1410 recorded again here, as the table of R258 says. [DEDUCED, log entry 56] -/
def State.enterHinge (s : State) (d : Nat) : State :=
  let ready := s.is (ARRAY.SHADOW_READY.on d) && s.is (WLOAD.W0_RUN.on d)
  let s := s.setPhase d .loadWait
  if s.get (CTX.STATE.on d) = 4 then s.setPhase d .stopped
  else if s.is (ARRI.REFUSED.on d) then (s.refusalEvent d).contextFault d 2
  else if s.is (STRM.NO_ALT.on d) then s.contextFault d 3
  else if s.is (LINEI.FENCING.on d) then s.tryFenced d
  else if ready then (s.setPhase d .swap).startWaiting d
  else ((s.pageEvent d ARRAY.page 11).dieEvent d ARRAY.page 0x1411).startWaiting d

/-- The quiesce ends once Q_pipe enabled cycles have passed and every egress word is acknowledged. `enabled` counts enabled tile
cycles of the quiesce, `total` all its tile cycles (R253, R254, R260, R263). [DEDUCED, log entry 58] -/
def execQuiesceEnd (die : DieNo) (enabled total : BitVec 24) (s : State) : Out :=
  let d := die.val
  match (s.die d).active with
  | none => .next s
  | some key =>
    let n := enabled.toNat
    if s.inReset d ∨ ¬ s.phaseIs d .quiesce ∨ s.is (ARRAY.FROZEN.on d) ∨ s.is (SCAN.SCANNING.on d) ∨ n < 4 + max 4 key.lmax ∨
        total.toNat < n ∨ s.takesLeft d (key.cycles + n) ∨ ¬ s.egressDone d then .next s
    else
      let s := (s.reach d (key.cycles + n)).set (ARRAY.LAST_QUIESCE.on d) n
      let s := s.set (SCAN.QUIESCE_MAX.on d) (max (s.get (SCAN.QUIESCE_MAX.on d)) n)
      let s := if key.budget * s.get (DCLK.TILE_MHZ.on d) < total.toNat * 1250 then
          (s.count (SCAN.QUIESCE_OVER.on d)).dieEvent d ARRAY.page 0x1414 else s
      .next (s.enterHinge d)

/-! Step 1: flags, runs, ingress (R198, R254, R261, R396). -/

/-- Results still on their way land, cycle by cycle. -/
def Tum.settle (x : Tum) (free : Nat) : Tum := (List.range 16).foldl (fun x i => x.arrive free (x.cycle + i)) x

/-- The tumbler's snapshot is taken and its flags clear (R198). -/
def Tum.snapshot (x : Tum) : Tum :=
  { x with pFlags := x.flags, pHalted := x.halted, pAddr := x.lastAddr, pL0 := x.l0Count, pL0Start := x.l0Start, pL1 := x.l1Count, pL1Start := x.l1Start, flags := 0 }

/-- The flags of the section: TARITH, event 0x1601 with the flags and, coded 64 row + column, the first flagged tumbler, and the runs
carried, which count the section and its cycles (R198, R399). [DESIGN CHOICE, log entry 39] -/
def State.endFlags (s : State) (d : Nat) (key : Key) : State :=
  let tums := (s.die d).tums.map (fun e => (e.1, e.2.settle s.free))
  let s := s.useFree
  let flagged := tums.filter (fun e => e.2.flags != 0)
  let all := flagged.foldl (fun v e => Nat.lor v e.2.flags) 0
  let first := (flagged.head?.map Prod.fst).getD 0
  let s := (s.set (TARITH.SUM_FLAGS.on d) (Nat.lor (s.get (TARITH.SUM_FLAGS.on d)) all)).set (TARITH.LAST_FLAGS.on d) all
  let s := (s.set (TARITH.LAST_COUNT.on d) flagged.length).put (TARITH.FIRST_VALID.on d) (flagged != [])
  let s := (s.set (TARITH.FIRST_COL.on d) (first % 64)).set (TARITH.FIRST_ROW.on d) (first / 64)
  let s := if flagged = [] then s else s.count (TARITH.SECTIONS_FLAGGED.on d)
  let s := if Nat.land all (s.get (TARITH.EVENT_MASK.on d)) = 0 then s
    else (s.pageEvent d TARITH.page 8).dieEvent d TARITH.page 0x1601 all first
  let s := s.set (ARRI.LAST_BANK.on d) (s.get (ARRI.BANK.on d))
  s.onDie d (fun x => { x with tums := tums.map (fun e => (e.1, e.2.snapshot)), flights := [], runs := x.runs.map (fun e => (e.1, if e.2.state = .carried then { e.2 with arith := Nat.lor e.2.arith all, sections := e.2.sections + 1, cycles := e.2.cycles + key.cycles } else e.2)) })

/-- The gate unit with the most freeze cycles in the section (TOP_GU, TOP_CYCLES). -/
def State.topGate (s : State) (d : Nat) : State :=
  let top := (s.die d).gates.foldl (fun b e => if b.2 < e.2.secFreeze then (e.1, e.2.secFreeze) else b) (0, 0)
  (s.set (GATE.TOP_GU.on d) top.1).set (GATE.TOP_CYCLES.on d) (min top.2 16777215)

/-- Ingress words left are discarded and counted, event 0x1413 for each gate unit that has some; the next key's descriptors and
steps begin (R254, R261). -/
def State.restartGates (s : State) (d : Nat) : State :=
  let left := (s.die d).gates.filter (fun e => e.2.ingress != [])
  let s := s.topGate d
  let s := s.onDie d (fun x => { x with gates := x.gates.map (fun e => (e.1, { e.2 with ingress := [], inRead := e.2.inWrite, issued := [], chunks := [], ones := 0, skip := 0, secFreeze := 0, leftover := min (e.2.leftover + e.2.ingress.length) 4294967295 })) })
  left.foldl (fun s _ => s.dieEvent d GATE.page 0x1413) s

/-- The traversal of the oldest run carried ends after a key whose entry has COND 2: its output copy starts (R238, R396). -/
def State.exitRun (s : State) (d : Nat) : State :=
  match s.seqEntry d with
  | some (_, _, 2) =>
    match oldestOf ((s.die d).runs.filter (fun e => e.2.state == .carried)) with
    | some (i, r) => (s.setRun d i { r with state := .copyOut }).onDie d (fun x => { x with copyOut := x.copyOut ++ [i] })
    | none => s
  | _ => s

/-! Steps 2 to 5 (R176, R178, R254). -/

/-- The counts of KWAY for the key in the active bank; its counters clear. -/
def State.kwayCounts (s : State) (d : Nat) (key : Key) : State :=
  let n (net : Nat) : Nat := (key.routes.filter (fun r => r.net == net)).length
  let s := ((s.set (KWAY.ROUTES_V.on d) (n 0)).set (KWAY.ROUTES_S.on d) (n 1)).set (KWAY.ROUTES_C.on d) (n 2)
  let s := (s.set (KWAY.PEAK_CH_V.on d) (peakChannels key.routes 0)).set (KWAY.PEAK_CH_S.on d) (peakChannels key.routes 1)
  let s := (s.set (KWAY.PEAK_CH_C.on d) (peakChannels key.routes 2)).set (KWAY.UNROUTED_DRIVES.on d) 0
  s.set (KWAY.UNROUTED_CAPTURES.on d) 0

/-- A tumbler's sequencer goes to address 0 and L0 and L1 clear (R178, R254). -/
def Tum.restart (x : Tum) : Tum :=
  { x with addr := 0, lastAddr := 0, halted := false, cycle := 0, slots := 0, loopSet := 0, l0Count := 0, l0Start := 0, l1Count := 0, l1Start := 0, writes := [] }

/-- The banks flip, and every configuration is the next key's (R254). -/
def State.flip (s : State) (d : Nat) (key : Key) : State :=
  let s := s.onDie d (fun x => { x with active := some key, shadowKey := none, tums := x.tums.map (fun e => (e.1, e.2.restart)) })
  let s := (s.set (ARRI.BANK.on d) (s.get (ARRI.BANK.on d) + 1)).set (ARRAY.ACTIVE_KEY.on d) key.number
  let s := ((s.set (ARRAY.SHADOW_READY.on d) 0).set (ARRAY.SECTION_CYCLE.on d) 0).set (STRCI.MARK.on d) 0
  ((s.count (ARRAY.HINGES.on d)).kwayCounts d key).pageEvent d ARRAY.page 8

/-- Commits that wait for the next hinge are applied: pages of the array and of the links, but for CSKIP (R66, R222).
[DEDUCED, log entry 56] -/
def State.applyAtHinge (s : State) (d : Nat) : State :=
  diePages.foldl (fun s p =>
    let array := 0x400000 ≤ p.base ∧ p.base < 0x500000 ∧ p.base ≠ CSKIP.page.base
    let link := 0x100000 ≤ p.base ∧ p.base < 0x300000
    if array ∨ link then
      s.each (List.range p.pages) (fun s i =>
        if s.is (hdr HDR.COMMIT_PENDING d (p.at i)) then s.applyShadow d p i else s)
    else s) s

/-- Whether the hinge to come changes the form (R648). -/
def State.formNext (s : State) (d : Nat) : Bool :=
  s.get (DFAULT.FORM_STATE.on d) == 1 && s.get (HMBX.SYNC_NOW.on d) + 1 == s.get (DFAULT.FORM_SYNC.on d)

/-- Whether the hinge to come is a sync hinge: the key's flag, the start of key 0, or a form change (R237, R384, R648). -/
def State.syncNext (s : State) (d : Nat) (key : Key) : Bool := key.sync || s.is (CTXI.FIRST.on d) || s.formNext d

/-- The form changes: runs carried, and admitted runs that should have entered by FORM_SYNC, end ABORTED (R648, R649). -/
def State.changeForm (s : State) (d : Nat) : State :=
  let k := s.get (DFAULT.FORM_SYNC.on d)
  let gone := (s.die d).runs.filter (fun e =>
    e.2.state == .carried || ((e.2.state == .admitted || e.2.state == .copyIn) && decide (e.2.entry ≤ k)))
  let s := s.each (gone.map Prod.fst) (fun s i => s.endRun d i 6 0)
  let s := (s.set (ARRAY.FORM.on d) (s.get (DFAULT.FORM_LOST.on d))).set (DFAULT.FORM_STATE.on d) 2
  (s.dieEvent d DFAULT.page 0x2041).selectSet d

/-- Runs whose sync hinge passes without their entering end NO_ENTRY (R394). -/
def State.noEntry (s : State) (d k number : Nat) : State :=
  let late := (s.die d).runs.filter (fun e =>
    (e.2.state == .admitted || e.2.state == .copyIn) && decide (e.2.entry ≤ k) && !(e.2.waits && e.2.key == number))
  s.each (late.map Prod.fst) (fun s i => s.endRun d i 5 0)

/-- At sync hinge DRAIN_SYNC the die starts no further key: the flags of the section are taken, runs carried and runs in copy end ABORTED;
an output copy that runs is let finish, and the die closes (R198, R386). [DEDUCED, log entry 56] -/
def State.drainClose (s : State) (d : Nat) : State :=
  let running := (s.die d).copyOut.head?
  let s := match (s.die d).active with
    | some key => s.endFlags d key
    | none => s
  let s := s.setPhase d .stopped
  let s := s.each ((s.die d).runs.map Prod.fst) (fun s i =>
    if some i = running then s
    else
      let s := s.onDie d (fun x => { x with copyIn := x.copyIn.filter (· != i), copyOut := x.copyOut.filter (· != i) })
      s.endRun d i 6 0)
  if running.isSome then s.set (CTXI.CLOSE_WAIT.on d) 1 else s.beginClose d

/-! The test slot and the skip phase (R222 to R226, R665, R674). -/

/-- Groups of the committed set whose SKIP_g changes. [DEDUCED, log entry 56] -/
def State.skipGroups (s : State) (d : Nat) : List Nat :=
  (List.range 4).filter (fun g => s.getShadow (CSKIP.SKIP.at d g) != s.get (CSKIP.SKIP.at d g))

/-- Groups written with the 16 they had, to be locked (R674). [DEDUCED, log entry 56] -/
def State.lockGroups (s : State) (d : Nat) : List Nat :=
  (List.range 4).filter (fun g => s.bit (SKIPI.WRITTEN.on d) g && s.getShadow (CSKIP.SKIP.at d g) == 16 &&
    s.get (CSKIP.SKIP.at d g) == 16 && !s.bit (CSKIP.LOCKED.on d) g)

/-- The committed set is applied: the groups lock, event 0x1401 for each (R224, R674). -/
def State.applySkip (s : State) (d : Nat) (changed locked : List Nat) : State :=
  let s := s.applyShadow d CSKIP.page 0
  let s := s.each changed (fun s g => s.setBit (CSKIP.CHANGED.on d) g true)
  let s := s.each (changed ++ locked) (fun s g => (s.setBit (CSKIP.LOCKED.on d) g true).dieEvent d CSKIP.page 0x1401)
  (s.set (SKIPI.WRITTEN.on d) 0).pageEvent d CSKIP.page 8

/-- The tests of a slot are taken or deferred, `spent` cycles into its hold; `skip` where a skip commit was applied in it (R665). -/
def State.takeTests (s : State) (d spent : Nat) (skip : Bool) : State :=
  let j := s.get (HOLDI.SLOT.on d)
  let f := s.get (DCLK.TILE_MHZ.on d)
  let hold := s.get (HMBX.S_HOLD_US.at d j) * f
  let old := s.get (STEST.REQ_TESTS.on d)
  let wanted := Nat.lor (Nat.lor (s.get (HMBX.S_IDLE_BEATS.at d j) % 8) old) skip.toNat
  let fits (need : Nat) : Bool := decide (need + spent ≤ hold)
  let room := (fits 37376).toNat + 2 * (fits (20 * f)).toNat + 4 * (fits (4 * f)).toNat
  let taken := Nat.land wanted room
  let left := wanted - taken
  let s := ((s.set (STEST.REQ_TESTS.on d) left).set (STEST.LAST_TESTS.on d) taken).set (STEST.LAST_DEFERRED.on d) left
  let s := if old = 0 ∧ left ≠ 0 then s.dieEvent d STEST.page 0x2450 else s
  let s := s.each ((List.range 3).filter (fun t => left.testBit t)) (fun s _ => s.dieEvent d STEST.page 0x1452)
  let s := (s.put (STEST.TUMBLER_RUN.on d) (taken.testBit 0)).put (STEST.LINK_RUN.on d) (taken.testBit 1)
  let up := (List.range 48).foldl (fun m l => if s.linkIs d l .up then m + 2 ^ l else m) 0
  (s.put (STEST.MEM_RUN.on d) (taken.testBit 2)).set (SKIPI.LINKS_UP.on d) up

/-- A test slot begins: the skip phase if the hold granted is long enough, else its tests at once (R223, R665, R674). -/
def State.actSlot (s : State) (d j : Nat) : State :=
  let s := (s.beginHold d 3 j).set (STEST.IN_SLOT.on d) 1
  let s := (s.set (STEST.LAST_HINGE.on d) (s.get (HMBX.S_H.at d j))).count (STEST.SLOTS.on d)
  let changed := s.skipGroups d
  if ¬ s.is (hdr HDR.COMMIT_PENDING d CSKIP.page.base) then s.takeTests d 0 false
  else if changed = [] then (s.applySkip d [] (s.lockGroups d)).takeTests d 0 (s.lockGroups d != [])
  else if 77888 ≤ s.get (HMBX.S_HOLD_US.at d j) * s.get (DCLK.TILE_MHZ.on d) then s.set (CSKIP.SKIPPING.on d) 1
  else
    let s := (s.pageEvent d CSKIP.page 9).count (CSKIP.DEFERRALS.on d)
    (s.dieEvent d CSKIP.page 0x1402).takeTests d 0 false

/-- A key in which the tumblers of a logical column hold the words of another image of it (R224, R240). -/
def Key.graft (k new : Key) (c : Nat) : Key :=
  let words := k.code.foldl (fun n e => max n (e.1 + 1)) (k.blocks.foldl (fun n b => max n (b.1 + b.2)) 0)
  { k with map := (k.map.filter (fun e => e.1 % 64 != c)) ++ ((new.map.filter (fun e => e.1 % 64 == c)).map (fun e => (e.1, e.2 + k.blocks.length))), blocks := k.blocks ++ new.blocks.map (fun b => (b.1 + words, b.2)), code := k.code ++ new.code.map (fun e => (e.1 + words, e.2)) }

/-- The physical column of a logical column, where group g skips the column `skip g` within it (R217). -/
def physicalCol (skip : Nat → Nat) (c : Nat) : Nat := 17 * (c / 16) + c % 16 + (decide (skip (c / 16) ≤ c % 16)).toNat

/-- The logical column that sits on a physical column; none where it is the one its group skips (R217). -/
def logicalCol (skip : Nat → Nat) (p : Nat) : Option Nat :=
  if skip (p / 17) = p % 17 then none else some (16 * (p / 17) + p % 17 - (decide (skip (p / 17) < p % 17)).toNat)

/-- The skip map in force on a die (R217). -/
def State.skipMap (s : State) (d : Nat) (g : Nat) : Nat := s.get (CSKIP.SKIP.at d g)

/-- The key image of a logical column is read again into the active bank, from the keyring in WEIGHT; a word in a unit with an
uncorrectable error reads as 0 (R224, R240). [DEDUCED, log entry 56] -/
def State.reloadKey (s : State) (d c : Nat) (ecc : Ecc) : State :=
  match (s.die d).active with
  | none => s
  | some k =>
    let f := s.formAt d (s.ringBase d) k.form
    let a := s.keyAt f k.number
    let n := s.le d (f.entry k.number + 8) 4
    let bad := badUnits ecc false a n
    let clean := s.each bad (fun s u => s.writeBytes d (32 * u) (List.replicate 32 0))
    let s := s.eccEffects d 6 0 0 false a n ecc
    s.onDie d (fun x => { x with active := some (k.graft (clean.readKey f k.number) c) })

/-- A logical column is loaded anew: its bays from their images, its registers 0, its active bank from its key image; an uncorrectable
unit of a bay image reads as 0 into its lines (R224, R225, R266). -/
def State.reloadColumn (s : State) (d c : Nat) (ecc : Ecc) : State :=
  let s := s.reloadKey d c ecc
  let base := s.bayImages d
  let here (k : Nat) : Bool := k / bayLines % 64 == c
  let lines := (bayLinesOf (gaddr d base) (4096 * bayLines * 16) s.mem).filter (fun e => here e.1)
  let s := s.onDie d (fun x => { x with tums := x.tums.filter (fun e => e.1 % 64 != c), bays := lines.foldl (fun b e => aput b e.1 e.2) (x.bays.filter (fun e => !here e.1)) })
  let mine : Ecc := ⟨ecc.corrected.filter (fun u => here ((32 * u - base) / 16)), ecc.bad.filter (fun u => here ((32 * u - base) / 16))⟩
  let s := s.eccEffects d 6 0 0 false base (4096 * bayLines * 16) mine true
  s.each (badUnits mine false base (4096 * bayLines * 16)) (fun s u =>
    let l := (32 * u - base) / 16
    let s := (s.setBayLine d 0 l 0).setBayLine d 0 (l + 1) 0
    s.bayError d (l / bayLines) (l % bayLines) 8 32)

/-- The skip phase ends: the new SKIP_g is in force, its group locked, the failed column's logical column loaded anew, every run
carried takes COLUMN_SHIFT, and the slot's tests start. `cycles` counts its tile cycles, freeze cycles included (R224 to R226). -/
def execSkipPhaseComplete (die : DieNo) (cycles : BitVec 32) (ecc : Ecc) (s : State) : Out :=
  let d := die.val
  if s.inReset d ∨ ¬ s.is (CSKIP.SKIPPING.on d) then .next s
  else
    let changed := s.skipGroups d
    let locked := s.lockGroups d
    let s := s.each changed (fun s g => s.reloadColumn d (16 * g + s.getShadow (CSKIP.SKIP.at d g)) ecc)
    let s := ((s.set (CSKIP.SKIPPING.on d) 0).set (CSKIP.LAST_PHASE_CYCLES.on d) cycles.toNat).count (CSKIP.SKIP_CHANGES.on d)
    .next ((((s.applySkip d changed locked).markCarried d 2).takeTests d cycles.toNat true).endSlot d)

/-! The hinge (R254 to R256). -/

/-- The die acts on the requests whose H is the sync hinge it stands at, and, with nothing to hold for, reports ready (R105, R111,
R255, R264, R675). -/
def State.actMailbox (s : State) (d : Nat) : State :=
  let throttles := s.dueSlots d 2
  let forces := s.dueSlots d 4
  let changes := s.dueSlots d 1
  let tests := s.dueSlots d 3
  let s := s.supersede d (throttles.drop 1 ++ forces.drop 1)
  let s := s.supersede d (if forces = [] then changes.drop 1 else changes)
  let s := s.supersede d (if forces = [] ∧ changes = [] then tests.drop 1 else tests)
  let s := match throttles with
    | j :: _ => (s.set (HMBX.IDLE_BEATS.on d) (s.get (HMBX.S_IDLE_BEATS.at d j))).postResult d j .done (s.get (HMBX.SYNC_NOW.on d))
    | [] => s
  match forces, changes, tests with
  | j :: _, _, _ => s.actForce d j
  | [], j :: _, _ => s.actChange d j
  | [], [], j :: _ => s.actSlot d j
  | [], [], [] => s.reportReady d

/-- Whether the hinge can run: the shadow ready, W0 running, no scan in the way (R254, R423). [DEDUCED, log entry 56] -/
def State.mayHinge (s : State) (d : Nat) : Bool :=
  let ready := s.is (ARRAY.SHADOW_READY.on d)
  !s.inReset d && !s.is (SCAN.SCANNING.on d) && (!s.is (SCAN.WAITING.on d) || s.forceNext d) &&
    (s.get (CTX.STATE.on d) == 2 || s.get (CTX.STATE.on d) == 3) && ready &&
    (s.phaseIs d .swap || (s.phaseIs d .loadWait && s.is (WLOAD.W0_RUN.on d)))

/-- What the ended section leaves behind at Step 1. -/
def State.stepOne (s : State) (d : Nat) : State :=
  match (s.die d).active with
  | some key => (((s.endFlags d key).restartGates d).exitRun d)
  | none => s.restartGates d

/-- The swap of Steps 1 to 5, and, at a sync hinge, the actions of R255; a plain hinge goes on to cycle 0 of the next key, which a fenced die does not start (R26, R39).
[DEDUCED, log entry 56] -/
def State.swap (s : State) (d : Nat) (key : Key) : State :=
  let sync := s.syncNext d key
  let form := s.formNext d
  let s := (((s.stepOne d).flip d key).applyAtHinge d).loadAfter d
  if ¬ sync then
    if s.is (LINEI.FENCING.on d) then (s.setPhase d .loadWait).tryFenced d else (s.setPhase d .inSection).tryReady d
  else
    let s := (s.set (HMBX.SYNC_NOW.on d) (s.get (HMBX.SYNC_NOW.on d) + 1)).set (CTXI.FIRST.on d) 0
    let s := (if form then s.changeForm d else s).setPhase d .mailbox
    let s := (s.noEntry d (s.get (HMBX.SYNC_NOW.on d)) key.number).readmitAgain d
    if s.is (HASPI.FREE_DUE.on d) then ((s.set (HASPI.FREE_DUE.on d) 0).setPhase d .swap).contextFault d 5 else s.actMailbox d

/-- The hinge runs. `waited` counts the tile cycles it waited before Step 1 (R254 to R258, R386, R408, R658).
[DEDUCED, log entry 56] -/
def execHinge (die : DieNo) (waited : BitVec 32) (s : State) : Out :=
  let d := die.val
  match (s.die d).shadowKey with
  | none => .next s
  | some key =>
    if ¬ s.mayHinge d then .next s
    else
      let s := if s.phaseIs d .loadWait ∧ ¬ s.is (CTXI.FIRST.on d) then s.count (ARRAY.LOAD_WAIT_CYCLES.on d) waited.toNat else s
      if s.is (STRM.NO_ALT.on d) then .next (s.contextFault d 3)
      else if s.get (CTX.STATE.on d) = 3 ∧ s.syncNext d key ∧ s.get (HMBX.SYNC_NOW.on d) + 1 = s.get (CTXI.DRAIN_AT.on d) then
        .next (if s.is (HASPI.FREE_DUE.on d) then (s.set (HASPI.FREE_DUE.on d) 0).contextFault d 5 else s.drainClose d)
      else .next (s.swap d key)

/-- The next key starts after a sync hinge, at the boundary of the release beat plus the idle beats, its hold being over: the
slot tables apply and the run that waited is carried. `waited` counts the tile cycles from Step 6 (R255, R264, R394, R396).
[DEDUCED, log entry 56] -/
def execKeyStart (die : DieNo) (waited : BitVec 24) (s : State) : Out :=
  let d := die.val
  match (s.die d).active with
  | none => .next s
  | some key =>
    if s.inReset d ∨ ¬ s.phaseIs d .releaseWait ∨ ¬ s.is (HASPI.RELEASED.on d) ∨ s.is (HMBX.HOLD_ACTIVE.on d) ∨
        s.is (LINEI.FENCING.on d) ∨ s.beat d < s.get (HASPI.START.on d) + s.get (HMBX.IDLE_BEATS.on d) then .next s
    else
      let s := ((s.set (HASPI.SENT.on d) 0).set (HASPI.RELEASED.on d) 0).set (ARRAY.LAST_RELEASE_WAIT.on d) waited.toNat
      let s := s.set (HASPI.STEP_DUE.on d) 0
      let s := s.releaseTables d (s.get (HMBX.SYNC_NOW.on d)) (s.get (HASPI.START.on d) + s.get (HMBX.IDLE_BEATS.on d)) key
      let s := s.onDie d (fun x => { x with runs := x.runs.map (fun e => (e.1, if e.2.waits ∧ e.2.key = key.number ∧ e.2.copied then { e.2 with state := .carried, waits := false } else e.2)) })
      .next (((s.runRegs d).setPhase d .inSection).tryReady d)

end Sys2Proof.Machine
end

