-- ==== Sys2Proof/Machine/Temperature.lean ====
section
/-! DEFINITION. Temperature and thermal protection: feeds, sensor states, rates, zones, forecasts, throttle steps
(spec/15_temperature.md). -/

namespace Sys2Proof.Machine

namespace TEMPI
/-- Idle beats I of the tray (R493). -/
def IDLE : Reg := ireg 0x1410 8 0
/-- Throttle steps posted since tray reset (R496). -/
def STEPS : Reg := ireg 0x1411 16 0
/-- The slot of die n that holds MC0's last step, plus 1 (R493). -/
def STEP_SLOT : Reg := iarr 0x1412 4 0 8
/-- Consecutive open-or-short samples of TSk (R479). -/
def OS : Reg := iarr 0x1420 8 0 48
/-- Consecutive disagreeing samples of TSk (R480). -/
def DISAGREE : Reg := iarr 0x1450 8 0 48
/-- Consecutive samples of TSk that count toward recovery (R481). -/
def RECOVER : Reg := iarr 0x1480 8 0 48
/-- Time of the last sample of TSk, plus 1 (R478). -/
def SAMPLE : Reg := iarr 0x14B0 65 0 48
/-- Time of the last accepted sample of TSk, plus 1 (R482). -/
def ACCEPT : Reg := iarr 0x14E0 65 0 48
/-- Zone z has been cool since this time on State.clock, plus 1 (R494). -/
def COOL_SINCE : Reg := iarr 0x1510 64 0 16
/-- Bit k: TSk has been fed by MC1 since MC1 last started (R491). -/
def FED : Reg := ireg 0x15B0 48 0
/-- Bit k: MC1 has still to request TSk in the first round after its start (R491). -/
def FIRST : Reg := ireg 0x15B1 48 0
/-- The sensor whose answer MC1 waits for at its request port in that round, plus 1 (R491). -/
def ASKED : Reg := ireg 0x15B2 7 0
end TEMPI

/-! Sensors. -/

/-- STATE of a sensor: 0 OFF, 1 NO_SAMPLE, 2 OK, 3 SUSPECT, 4 OPEN_SHORT, 5 STALE. -/
def State.sensorState (s : State) (k : Nat) : Nat := s.get (TSTAT.STATE.clAt k)

/-- A signed 16-bit field of an array. -/
def State.temp (s : State) (f : Field) : Int := toSigned 16 (s.get f)

/-- Round n / d to nearest, ties to even. -/
def roundEven (n d : Nat) : Nat :=
  let q := n / d
  let r := n % d
  if d < 2 * r ∨ (2 * r = d ∧ q % 2 = 1) then q + 1 else q

/-- A binary32 °C in 1/16 °C, rounded to nearest even and saturated to 16 bits (R474); nothing for a NaN. -/
def toSixteenths (b : Nat) : Option Int :=
  match f32 b with
  | .nan _ => none
  | .inf neg => some (if neg then -32768 else 32767)
  | .fin neg mag => some (satSigned 16 (signed neg (roundEven (mag * 16) (2 ^ 149))))

/-- The enabled neighbours of a sensor whose state is OK (R480). -/
def State.validNeighbours (s : State) (k : Nat) : List Nat :=
  let nb := [(TCFG.NB0, TCFG.NB0_EN), (TCFG.NB1, TCFG.NB1_EN), (TCFG.NB2, TCFG.NB2_EN)].filterMap (fun x =>
    if s.is (x.2.clAt k) then some (s.get (x.1.clAt k)) else none)
  nb.filter (fun n => s.sensorState n == 2)

/-- The raw values of a sensor's valid neighbours. -/
def State.neighbourRaws (s : State) (k : Nat) : List Int := (s.validNeighbours k).map (fun n => s.temp (TSTAT.RAW.clAt n))

/-- The effective value of a sensor (R483); none in OFF and NO_SAMPLE. -/
def State.effective (s : State) (k : Nat) : Option Int :=
  match s.sensorState k with
  | 2 => some (s.temp (TSTAT.RAW.clAt k))
  | 3 => some (match (s.neighbourRaws k).max? with
    | some m => satSigned 16 (m + s.get (TCFG.MARGIN.clAt k))
    | none => s.temp (TCFG.RANGE_MAX.clAt k))
  | 4 => some (s.temp (TCFG.RANGE_MAX.clAt k))
  | 5 => some (s.temp (TCFG.RANGE_MAX.clAt k))
  | _ => none

/-- The rings of points (R484). -/
def State.ringOf (s : State) (k : Nat) : List (Nat × Nat) := (aget s.rings k).getD []

/-- Empty a sensor's ring. -/
def State.emptyRing (s : State) (k : Nat) : State :=
  { s with rings := adel s.rings k }.set (TSTAT.RATE_VALID.clAt k) 0

/-- COUNT shows the count that runs: recovery outside OK, else open-or-short, else disagreement. -/
def State.showCount (s : State) (k : Nat) : State :=
  let os := s.get (TEMPI.OS.clAt k)
  s.set (TSTAT.COUNT.clAt k)
    (if 3 ≤ s.sensorState k then s.get (TEMPI.RECOVER.clAt k) else if os ≠ 0 then os else s.get (TEMPI.DISAGREE.clAt k))

/-- A sensor changes state: SENSOR_STATE is set; leaving OK empties its ring (R484). -/
def State.sensorTo (s : State) (k st : Nat) : State :=
  if s.sensorState k = st then s
  else
    let s := if s.sensorState k = 2 then s.emptyRing k else s
    let s := s.set (TEMPI.RECOVER.clAt k) 0
    (s.set (TSTAT.STATE.clAt k) st).pageEvent clachasel TSTAT.page 8

/-- A sensor returns to NO_SAMPLE, or to OFF where EN is 0; its counts and its ring clear (R482, R495). -/
def State.clearSensor (s : State) (k : Nat) : State :=
  let s := (s.sensorTo k (s.get (TCFG.EN.clAt k))).emptyRing k
  let s := ((s.set (TEMPI.OS.clAt k) 0).set (TEMPI.DISAGREE.clAt k) 0).set (TEMPI.RECOVER.clAt k) 0
  s.set (TSTAT.COUNT.clAt k) 0

/-! Zones (R485 to R487, R492). -/

/-- The members of a zone. -/
def State.members (s : State) (z : Nat) : List Nat :=
  let mask := s.get (TZONE.MEMBERS_LO.clAt z) + 4294967296 * s.get (TZONE.MEMBERS_HI.clAt z)
  (List.range 48).filter (fun k => mask.testBit k)

/-- The limit of a level: 1 WARN, 2 THROTTLE, 3 TRIP. -/
def State.limit (s : State) (z level : Nat) : Int :=
  match level with
  | 1 => s.temp (TZONE.WARN.clAt z)
  | 2 => s.temp (TZONE.THROTTLE.clAt z)
  | _ => s.temp (TZONE.TRIP.clAt z)

/-- HYST of a zone. -/
def State.hyst (s : State) (z : Nat) : Int := (s.get (TZONE.HYST.clAt z) : Int)

/-- The level of a zone at T_z: the highest whose limit is reached, or a level up to the present one whose limit − HYST is
(R486). -/
def State.levelAt (s : State) (z : Nat) (t : Int) : Nat :=
  let now := s.get (TZONE.LEVEL.clAt z)
  ([1, 2, 3].filter (fun l => decide (s.limit z l ≤ t) || (decide (l ≤ now) && decide (s.limit z l - s.hyst z ≤ t)))).foldl max 0

/-- Whether TRIP_LATCH is level-held (R487). -/
def State.tripHeld (s : State) (z : Nat) : Bool := decide (s.limit z 3 - s.hyst z ≤ s.temp (TZONE.T_Z.clAt z))

/-- LEVEL changes: an event record and LEVEL_CHANGE; TRIP_LATCH when it reaches TRIP (R486, R487). -/
def State.setLevel (s : State) (z new : Nat) : State :=
  let old := s.get (TZONE.LEVEL.clAt z)
  let s := if new = 3 then s.set (TZONE.TRIP_LATCH.clAt z) 1 else s
  if new = old then s
  else
    ((s.set (TZONE.LEVEL.clAt z) new).pageEvent clachasel TZONE.page 8 (z / 8)).event TZONE.page
      (if old < new then 0x3510 else 0x3511) 0 0 0 (z / 8)

/-- The forecast time to throttle in ms (R492). -/
def State.forecast (s : State) (z : Nat) : Nat :=
  let t := s.temp (TZONE.T_Z.clAt z)
  let r := s.temp (TZONE.R_Z.clAt z)
  if s.limit z 2 ≤ t then 0 else if r ≤ 0 then 0xFFFF else min 65534 (((s.limit z 2 - t) * 16000) / r).toNat

/-- Whether a zone is cool: T_z < THROTTLE − HYST and r_z ≤ 0 (R494). -/
def State.zoneCool (s : State) (z : Nat) : Bool :=
  decide (s.temp (TZONE.T_Z.clAt z) < s.limit z 2 - s.hyst z) && decide (s.temp (TZONE.R_Z.clAt z) ≤ 0)

/-- A zone is computed from its members (R485, R486, R492). [DESIGN CHOICE, log entry 64] -/
def State.zone (s : State) (z : Nat) : State :=
  if ¬ s.is (TZONE.ZEN.clAt z) then s
  else
    let values := (s.members z).filterMap (fun k => (s.effective k).map (fun v => (k, v)))
    let rates := ((s.members z).filter (fun k => s.sensorState k == 2 && s.is (TSTAT.RATE_VALID.clAt k))).map (fun k =>
      s.temp (TSTAT.RATE.clAt k))
    let s := s.set (TZONE.R_Z.clAt z) (ofSigned 16 (rates.max?.getD 0))
    let s := match (values.map Prod.snd).max? with
      | none => s.set (TZONE.NO_DATA.clAt z) 1
      | some t =>
        let hot := match values.find? (fun (x : Nat × Int) => x.2 == t) with | some x => x.1 | none => 0
        let s := ((s.set (TZONE.NO_DATA.clAt z) 0).set (TZONE.T_Z.clAt z) (ofSigned 16 t)).set (TZONE.HOT_SENSOR.clAt z) hot
        s.setLevel z (s.levelAt z t)
    let high := decide ((s.get (TZONE.RATE_LIMIT.clAt z) : Int) ≤ s.temp (TZONE.R_Z.clAt z))
    let s := if high ∧ ¬ s.is (TZONE.RATE_HIGH.clAt z) then s.event TZONE.page 0x3512 0 0 0 (z / 8) else s
    let s := (s.put (TZONE.RATE_HIGH.clAt z) high).set (TZONE.TTT.clAt z) (s.forecast z)
    s.markWhile (TEMPI.COOL_SINCE.clAt z) (s.zoneCool z)

/-- Effective values are shown and zones computed (R483, R485, R498). -/
def State.evaluate (s : State) : State :=
  let s := s.each (List.range 48) (fun s k =>
    match s.effective k with
    | some v => s.set (TSTAT.VALUE.clAt k) (ofSigned 16 v)
    | none => s)
  s.each (List.range 16) State.zone

/-! Feeds (R478 to R484). -/

/-- The samples that are open-or-short: OVR, COMPLIANCE, LIN_RANGE, LIN_FAULT, BAD_PROFILE, SRC_FAULT, or a value outside the
range (R479). -/
def State.openShort (s : State) (k : Nat) (v : Int) (flags : Nat) (srcFault : Bool) : Bool :=
  Nat.land flags 0x1CC != 0 || srcFault || decide (v < s.temp (TCFG.RANGE_MIN.clAt k)) ||
    decide (s.temp (TCFG.RANGE_MAX.clAt k) < v)

/-- Whether a sample disagrees with the valid neighbours (R480). -/
def State.disagrees (s : State) (k : Nat) (v : Int) : Bool :=
  let band := (s.get (TCFG.BAND.clAt k) : Int)
  match (s.neighbourRaws k).min?, (s.neighbourRaws k).max? with
  | some lo, some hi => decide (v < lo - band) || decide (hi + band < v)
  | _, _ => false

/-- The window of RATE_WIN in ticks (R484). -/
def State.rateWindow (s : State) (k : Nat) : Nat := 4096 * 2 ^ s.get (TCFG.RATE_WIN.clAt k)

/-- The rate over the points held: (T_n − T_p) × 16 × 32,768 ÷ (t_n − t_p), to nearest, halves up, saturated (R484).
[DESIGN CHOICE, log entry 64] -/
def rateOf (dT : Int) (dt : Nat) : Int := satSigned 16 ((2 * (dT * 524288) + dt) / (2 * dt))

/-- A sample of a sensor in OK enters the ring and gives the rate (R484). With one point held the quotient has no value: RATE is
then a free value, and RATE_VALID 0. [DESIGN CHOICE, log entry 64] -/
def State.ratePoint (s : State) (k : Nat) (v : Int) (t : Nat) : State :=
  let ring := s.ringOf k
  let w := s.rateWindow k
  let add := match ring with | (_, t0) :: _ => decide (t0 + w / 8 ≤ t) | [] => true
  let ring := if add then ((ofSigned 16 v, t) :: ring).take 9 else ring
  let s := { s with rings := aput s.rings k ring }
  match ring.getLast? with
  | none => s
  | some (vp, tp) =>
    if t ≤ tp then ((s.set (TSTAT.RATE.clAt k) s.free).set (TSTAT.RATE_VALID.clAt k) 0).useFree
    else (s.set (TSTAT.RATE.clAt k) (ofSigned 16 (rateOf (v - toSigned 16 vp) (t - tp)))).put (TSTAT.RATE_VALID.clAt k) (decide (w ≤ t - tp))

/-- A good sample in OK or NO_SAMPLE: agreement counts, SUSPECT after SUSPECT_COUNT disagreements (R480).
[DESIGN CHOICE, log entry 64] -/
def State.goodInOk (s : State) (k : Nat) (bad : Bool) : State :=
  let s := s.sensorTo k 2
  let n := if bad then min 255 (s.get (TEMPI.DISAGREE.clAt k) + 1) else 0
  let s := s.set (TEMPI.DISAGREE.clAt k) n
  if bad ∧ s.get (TCFG.SUSPECT_COUNT.clAt k) ≤ n then
    ((s.set (TEMPI.DISAGREE.clAt k) 0).sensorTo k 3).event TSTAT.page 0x3501
  else s

/-- A good sample in SUSPECT, OPEN_SHORT or STALE: back to OK after RECOVER_COUNT samples that agree (R481). -/
def State.goodElsewhere (s : State) (k : Nat) (bad : Bool) : State :=
  let n := if bad then 0 else min 255 (s.get (TEMPI.RECOVER.clAt k) + 1)
  let s := s.set (TEMPI.RECOVER.clAt k) n
  if ¬ bad ∧ s.get (TCFG.RECOVER_COUNT.clAt k) ≤ n then
    let code := if s.sensorState k = 3 then 0x3502 else 0x3505
    ((s.set (TEMPI.DISAGREE.clAt k) 0).sensorTo k 2).event TSTAT.page code
  else s

/-- An open-or-short sample: counted; OPEN_SHORT after OS_COUNT of them, unless STALE takes precedence; short of that count it is
otherwise ignored (R479, R481). [DESIGN CHOICE, log entry 64] -/
def State.badSample (s : State) (k t : Nat) (v : Int) : State :=
  let n := min 255 (s.get (TEMPI.OS.clAt k) + 1)
  let s := (s.set (TEMPI.OS.clAt k) n).set (TEMPI.RECOVER.clAt k) 0
  if n < s.get (TCFG.OS_COUNT.clAt k) then s
  else
    let s := (s.set (TEMPI.ACCEPT.clAt k) (t + 1)).set (TSTAT.RAW.clAt k) (ofSigned 16 v)
    if s.sensorState k = 5 then s else s.sensorTo k 4

/-- A sample is taken (R479 to R484). -/
def State.sample (s : State) (k : Nat) (v : Int) (flags : Nat) (srcFault : Bool) (t : Nat) : State :=
  let s := s.set (TEMPI.SAMPLE.clAt k) (t + 1)
  let s := if s.openShort k v flags srcFault then s.badSample k t v
    else
      let bad := s.disagrees k v
      let s := s.set (TEMPI.OS.clAt k) 0
      let s := (s.set (TEMPI.ACCEPT.clAt k) (t + 1)).set (TSTAT.RAW.clAt k) (ofSigned 16 v)
      let s := if Nat.land flags 0x220 ≠ 0 then s.set (TSTAT.DEGRADED.clAt k) 1 else s
      let s := if s.sensorState k ≤ 2 then s.goodInOk k bad else s.goodElsewhere k bad
      if s.sensorState k = 2 then s.ratePoint k v t else s
  (s.showCount k).evaluate

/-- An engine that was calibrated before any of TS28 to TS33 had a value is judged by the first one that comes (R671).
[DEDUCED, log entry 63] -/
def State.calBaseline (s : State) : State :=
  s.each [0, 1] (fun s e => if s.get (AFEI.CAL_TEMP.clAt e) = 0 then s.noteCalTemp e else s)

/-- Whether MC2 feeds a sensor: an HBM readout only while its die is UP with TRIP_n released (R477). -/
def State.mc2Feeds (s : State) (k : Nat) : Bool :=
  decide (k < 16) || decide (24 ≤ k) || (s.dieState (k - 16) == 2 && !s.tripped (k - 16))

/-- FEED: the sample in the window of MC1 (0) or MC2 (1) is evaluated, or discarded with its OUTCOME (R478); MC2 makes no feed of an HBM
readout that is not powered (R477). A NaN gives no 1/16 °C the spec states: a free value. [DESIGN CHOICE, log entry 64] -/
def State.feed (s : State) (w req : Nat) : State :=
  s.onWrite clachasel TSTAT.page TSTAT.F_FEED w req 1 (fun s =>
    let k := s.get (TSTAT.F_SEL.clAt w)
    let t := s.pair (TSTAT.F_TIME_LO.clAt w) (TSTAT.F_TIME_HI.clAt w)
    let flags := s.get (TSTAT.F_AFE_FLAGS.clAt w)
    let discard := fun (s : State) (why : Nat) => (s.set (TSTAT.F_OUTCOME.clAt w) why).count TSTAT.DISCARDS.cl
    let wrong := s.get (TCFG.FEEDER.clAt k) != w + 1
    if w = 1 ∧ ¬ s.mc2Feeds k then s
    else
    let s := if wrong ∧ k < 48 then s.regFault clachasel TSTAT.page TSTAT.F_FEED w .accessErr req 1 else s
    if 48 ≤ k ∨ ¬ s.is (TCFG.EN.clAt k) then discard s 4
    else if wrong then discard s 3
    else if t + 1 ≤ s.get (TEMPI.SAMPLE.clAt k) then discard s 5
    else if flags % 4 ≠ 0 then discard s 2
    else
      let s := (s.set (TSTAT.F_OUTCOME.clAt w) 1).count TSTAT.FEEDS.cl
      let nan := (toSixteenths (s.get (TSTAT.F_VALUE.clAt w))).isNone
      let v := (toSixteenths (s.get (TSTAT.F_VALUE.clAt w))).getD (toSigned 16 (s.free % 65536))
      let s := if nan then s.useFree else s
      let s := if w = 0 then s.setBit TEMPI.FED.cl k true else s
      (s.sample k v flags (s.is (TSTAT.F_SRC_FAULT.clAt w)) t).calBaseline)

/-- FEED (R478). -/
def execFeed (req : Requester) (window : Fin 2) (s : State) : Out := .next (s.feed window.val req.val)

/-- The last accepted sample of a sensor is more than MAX_AGE old: STALE, event 0x3504 (R482). -/
def execSensorStale (sensor : Fin 48) (s : State) : Out :=
  let k := sensor.val
  let last := s.get (TEMPI.ACCEPT.clAt k)
  let old := decide (s.get (TCFG.MAX_AGE.clAt k) * 32768 < (s.trayTime + 1 - last) * 1000)
  .next (if s.sensorState k < 2 ∨ s.sensorState k = 5 ∨ last = 0 ∨ ¬ old then s
    else (((s.sensorTo k 5).event TSTAT.page 0x3504).showCount k).evaluate)

/-! Commits of TCFG and TZONE (R482, R486, R488, R499). -/

/-- What a TCFG commit brings about: `before` is the state the shadow set was applied to. -/
def State.sensorsCommitted (s before : State) : State :=
  (s.each (List.range 48) (fun s k =>
    let s := if before.get (TCFG.EN.clAt k) ≠ s.get (TCFG.EN.clAt k) then s.clearSensor k else s
    if before.get (TCFG.RATE_WIN.clAt k) ≠ s.get (TCFG.RATE_WIN.clAt k) then s.emptyRing k else s)).evaluate

/-- What a TZONE commit brings about: a zone newly enabled starts at TRIP (R486). -/
def State.zonesCommitted (s before : State) : State :=
  (s.each (List.range 16) (fun s z =>
    if ¬ before.is (TZONE.ZEN.clAt z) ∧ s.is (TZONE.ZEN.clAt z) then s.setLevel z 3 else s)).evaluate

/-! Forecasts and throttling (R493, R494, R502). -/

/-- A zone that asks for steps: it is enabled and DIES is not 0. -/
def State.throttles (s : State) (z : Nat) : Bool := s.is (TZONE.ZEN.clAt z) && s.get (TZONE.DIES.clAt z) != 0

/-- Whether a zone asks for one more step (R493). [DEDUCED, log entry 65] -/
def State.asksStep (s : State) (z : Nat) : Bool :=
  s.throttles z && (decide (s.get (TZONE.TTT.clAt z) ≤ s.get (TZONE.FORECAST_MS.clAt z)) || s.is (TZONE.RATE_HIGH.clAt z))

/-- Whether the last step has a die on which it is neither done nor otherwise ended (R493, R502).
[DEDUCED, log entry 65] -/
def State.stepPending (s : State) : Bool :=
  (List.range 8).any (fun d =>
    let h := s.get (TEMPI.STEP_SLOT.clAt d)
    h != 0 && s.get (MBXI.OWNER.clAt (8 * d + h - 1)) == 1 && !mbxTerminal (s.get (MBXI.SHOWN.clAt (8 * d + h - 1))))

/-- The highest SYNC_NOW among the dies in service (R106, R493). -/
def State.highestSync (s : State) : Nat :=
  (diesOf (s.get CSYS.DIE_INSERV.cl)).foldl (fun m d => max m (s.get (HMBX.SYNC_NOW.on d))) 0

/-- MC0 posts one THROTTLE to every die in service, with one H and one I; it first releases the slots of its last step (R493).
[DEDUCED, log entry 65] -/
def State.postStep (s : State) (z idle code : Nat) : State :=
  let h := s.highestSync + s.get (TZONE.LEAD_HINGES.clAt z)
  let s := s.each (List.range 8) (fun s d =>
    let j := s.get (TEMPI.STEP_SLOT.clAt d)
    let s := s.set (TEMPI.STEP_SLOT.clAt d) 0
    if j ≠ 0 ∧ s.get (MBXI.OWNER.clAt (8 * d + j - 1)) = 1 then s.freeSlot d (j - 1) else s)
  let s := s.each (diesOf (s.get CSYS.DIE_INSERV.cl)) (fun s d =>
    let r := s.mc0Post d 2 h (idle * 256) 0
    match r.2 with
    | some j => r.1.set (TEMPI.STEP_SLOT.clAt d) (j + 1)
    | none => r.1)
  ((s.set TEMPI.IDLE.cl idle).wrap TEMPI.STEPS.cl).event TZONE.page code 0 0 0 (z / 8)

/-- MC1 asks for one more throttle step on account of a zone; in MODE 1 MC0 posts it, in MODE 0 the rack supervisor reads the
forecast and decides (R98, R493, R502). [DEDUCED, log entry 65] -/
def execThrottleStep (zone : Fin 16) (s : State) : Out :=
  let z := zone.val
  .next (if ¬ s.mcRuns 1 ∨ ¬ s.asksStep z ∨ s.stepPending ∨ ¬ s.is OPCTL.MODE.cl ∨ ¬ s.mcRuns 0 then s
    else
      let cap := ((List.range 16).filter s.asksStep).foldl (fun m y => max m (s.get (TZONE.IDLE_MAX.clAt y))) 0
      s.postStep z (min cap (s.get TEMPI.IDLE.cl + s.get (TZONE.IDLE_STEP.clAt z))) 0x3513)

/-- Every zone with dies has been cool for its RELEASE_MS: MC1 asks for I to fall by IDLE_STEP (R494).
[DEDUCED, log entry 65] -/
def execThrottleRelease (zone : Fin 16) (s : State) : Out :=
  let z := zone.val
  let cool := (List.range 16).all (fun y =>
    !s.throttles y || s.heldFor (TEMPI.COOL_SINCE.clAt y) (s.get (TZONE.RELEASE_MS.clAt y) * 1000))
  .next (if ¬ s.mcRuns 1 ∨ ¬ s.throttles z ∨ ¬ cool ∨ s.get TEMPI.IDLE.cl = 0 ∨ s.stepPending ∨ ¬ s.is OPCTL.MODE.cl ∨ ¬ s.mcRuns 0 then s
    else s.postStep z (s.get TEMPI.IDLE.cl - s.get (TZONE.IDLE_STEP.clAt z)) 0x3514)

/-- A zone at TRIP in RAILS_UP or later: MC0 asserts FENCE_n of its dies, of every die where DIES is 0 (R487). -/
def execZoneTripFence (zone : Fin 16) (s : State) : Out :=
  let z := zone.val
  .next (if ¬ s.mcRuns 0 ∨ ¬ s.is (TZONE.ZEN.clAt z) ∨ s.get (TZONE.LEVEL.clAt z) ≠ 3 ∨ s.get CSYS.TRAY_STATE.cl < 3 then s
    else
      let dies := s.get (TZONE.DIES.clAt z)
      s.each (diesOf (if dies = 0 then 255 else dies)) (fun s n => s.fence n 1))

end Sys2Proof.Machine
end

