-- ==== Sys2Proof/Machine/Commit.lean ====
section
/-! DEFINITION. Commits of shadow sets: the conditions of each page, the request, and what applying a set brings about (R62 to
R68 of spec/02_register_pages.md). -/

namespace Sys2Proof.Machine

/-! The conditions (R65). Each reads the shadow copies of a page. -/

/-- PART (R274). -/
def State.partConsistent (s : State) (d : Nat) : Bool :=
  let b := fun p => s.getShadow (PART.BASE.at d p)
  let z := fun p => s.getShadow (PART.SIZE.at d p)
  let ps := List.range 6
  ps.all (fun p => decide (b p + z p ≤ 0x180000)) &&
    ps.all (fun p => ps.all (fun q => p == q || z p == 0 || z q == 0 || decide (b p + z p ≤ b q) || decide (b q + z q ≤ b p))) &&
    z 0 != 0 && z 4 != 0 && z 5 != 0 && decide (1536 ≤ z 4) && decide (z 3 ≤ 0x100000) && b 2 % 256 == 0 && z 2 % 256 == 0 &&
    (List.range 16).all (fun k => !s.is (WIN.EN.at d k) || ps.any (fun p =>
      decide (b p ≤ s.get (WIN.BASE.at d k)) && decide (s.get (WIN.LIMIT.at d k) + 1 ≤ b p + z p)))

/-- CSKIP (R221). -/
def State.skipConsistent (s : State) (d : Nat) : Bool :=
  (List.range 4).all (fun g => decide (s.getShadow (CSKIP.SKIP.at d g) ≤ 16) &&
    (!s.bit (CSKIP.LOCKED.on d) g || s.getShadow (CSKIP.SKIP.at d g) == s.get (CSKIP.SKIP.at d g)))

/-- A shadowed field of the Clachasel. -/
def State.sh (s : State) (r : Reg) (i : Nat) : Nat := s.getShadow (r.clAt i)

/-- A shadowed signed 16-bit field. -/
def State.shTemp (s : State) (r : Reg) (i : Nat) : Int := toSigned 16 (s.sh r i)

/-- TCFG (R488). -/
def State.sensorsConsistent (s : State) : Bool :=
  (List.range 48).all (fun k =>
    let nb := fun (en n : Reg) => s.sh en k == 0 || s.sh n k != k
    s.sh TCFG.EN k == 0 || ((s.sh TCFG.FEEDER k == 1 || s.sh TCFG.FEEDER k == 2) &&
      decide (s.shTemp TCFG.RANGE_MIN k < s.shTemp TCFG.RANGE_MAX k) && nb TCFG.NB0_EN TCFG.NB0 && nb TCFG.NB1_EN TCFG.NB1 &&
      nb TCFG.NB2_EN TCFG.NB2 && s.sh TCFG.OS_COUNT k != 0 && s.sh TCFG.SUSPECT_COUNT k != 0 && s.sh TCFG.RECOVER_COUNT k != 0 &&
      s.sh TCFG.MAX_AGE k != 0))

/-- TZONE, one page of eight zones (R488). MEMBERS has no bit beyond TS47. -/
def State.zonesConsistent (s : State) (inst : Nat) : Bool :=
  (List.range 8).all (fun i =>
    let z := 8 * inst + i
    s.sh TZONE.ZEN z == 0 || (decide (s.shTemp TZONE.WARN z ≤ s.shTemp TZONE.THROTTLE z) &&
      decide (s.shTemp TZONE.THROTTLE z < s.shTemp TZONE.TRIP z) && decide (1 ≤ s.sh TZONE.HYST z) &&
      decide (s.sh TZONE.HYST z ≤ 256)))

/-- CFAN and CPUMP (their pages in spec/16_cooling.md). -/
def State.floorsConsistent (s : State) (floor host : Reg) (n : Nat) : Bool :=
  (List.range n).all (fun i => decide (s.sh floor i ≤ 1000) && decide (s.sh host i ≤ 1000))

/-- CDEM (its page in spec/16_cooling.md). -/
def State.demandConsistent (s : State) : Bool :=
  (List.range 16).all (fun z =>
    let t := fun i => s.shTemp CDEM.T (4 * z + i)
    decide (s.sh CDEM.DMIN z ≤ s.sh CDEM.DMAX z) && decide (s.sh CDEM.DMAX z ≤ 1000) && decide (t 0 < t 1) &&
      decide (t 1 < t 2) && decide (t 2 < t 3) && (List.range 4).all (fun i => decide (s.sh CDEM.D (4 * z + i) ≤ 1000)))

/-- AFECOEF, one page: sets CS8 to CS15, or CS16 to CS31 (R459). -/
def State.setsConsistent (s : State) (inst : Nat) : Bool :=
  (List.range (if inst = 0 then 8 else 16)).all (fun k =>
    let w := fun j => s.sh (if inst = 0 then AFECOEF.SET0 else AFECOEF.SET1) (32 * k + j)
    !(w 0).testBit 0 || ((((List.range 28).filter (fun j => j != 0 && j != 9)).all (fun j => f32Finite (w j))) &&
      flt (w 5) (w 6) && (flt (w 7) (w 8) || feq (w 7) (w 8))))

/-- Whether the shadow set of a page is consistent (R65); a page without conditions of its own always is. -/
def State.consistent (s : State) (chip : Nat) (p : Page) (inst : Nat) : Bool :=
  if p.base = PART.page.base ∧ chip < 8 then s.partConsistent chip
  else if p.base = CSKIP.page.base ∧ chip < 8 then s.skipConsistent chip
  else if chip < 8 then true
  else if p.base = TCFG.page.base then s.sensorsConsistent
  else if p.base = TZONE.page.base then s.zonesConsistent inst
  else if p.base = CFAN.page.base then s.floorsConsistent CFAN.FLOOR CFAN.HOST_FLOOR 4
  else if p.base = CPUMP.page.base then s.floorsConsistent CPUMP.FLOOR CPUMP.HOST_FLOOR 2
  else if p.base = CDEM.page.base then s.demandConsistent
  else if p.base = AFECOEF.page.base then s.setsConsistent inst
  else true

/-! The request (R64, R65, R67, R221, R275). -/

/-- The groups whose SKIP_g a commit concerns: the shadow copy was written. -/
def State.skipWritten (s : State) (d : Nat) : Nat := s.get (SKIPI.WRITTEN.on d)

/-- W0 records an accepted commit of CSKIP: event 0x2401 with the groups, as a mask, and the columns, a byte a group (R222).
[DEDUCED, log entry 18] -/
def State.skipAccepted (s : State) (d : Nat) : State :=
  let cols := (List.range 4).foldl (fun v g => v + s.getShadow (CSKIP.SKIP.at d g) * 256 ^ g) 0
  s.dieEvent d CSKIP.page 0x2401 (s.skipWritten d) cols

/-- A write of PAGE_COMMIT (R64, R65, R67; R61 in soft reset, R221 on CSKIP, R275 on PART). [DEDUCED, log entry 18] -/
def State.commitRequest (s : State) (chip : Nat) (p : Page) (inst req value : Nat) : State :=
  let base := p.at inst
  let fault := fun (b : FaultBit) => s.pageFault chip p inst b req (base + 0x020) value
  if chip < 8 ∧ p.base = PART.page.base ∧ s.is (PART.CARVE_LOCKED.on chip) then fault .lockViol
  else if s.resetting chip p inst ∨ s.is (hdr HDR.COMMIT_PENDING chip base) ∨ (chip < 8 ∧ p.base = CSKIP.page.base ∧ req ≠ 0) ∨
      value ≠ (s.get (hdr HDR.GEN chip base) + 1) % 4294967296 then fault .accessErr
  else if ¬ s.consistent chip p inst then fault .cfgMismatch
  else
    let s := s.set (hdr HDR.COMMIT_PENDING chip base) 1
    if chip < 8 ∧ p.base = CSKIP.page.base then s.skipAccepted chip else s

/-- Whether an accepted set of a page waits for a later boundary than the next cycle: array and link pages for their hinge, CSKIP
for its test slot (R66, R222). [DEDUCED, log entry 18] -/
def waitsForHinge (chip : Nat) (p : Page) : Bool :=
  decide (chip < 8) && (decide (0x400000 ≤ p.base ∧ p.base < 0x500000) || decide (0x100000 ≤ p.base ∧ p.base < 0x300000))

/-- A zone that a commit takes from curve mode to PI mode starts I at its last demand (R511). -/
def State.demandCommitted (s before : State) : State :=
  s.each (List.range 16) (fun s z =>
    if before.get (CDEM.MODE.clAt z) = 0 ∧ s.get (CDEM.MODE.clAt z) = 1 then
      (s.set (COOLI.I.clAt z) (s.get (CDEM.DEMAND.clAt z) * 65536)).set (CDEM.I_Z.clAt z) (s.get (CDEM.DEMAND.clAt z))
    else s)

/-- An accepted set is applied, with what follows for the page's block (R66). -/
def State.commitApply (s : State) (chip : Nat) (p : Page) (inst : Nat) : State :=
  let t := s.applyShadow chip p inst
  if chip < 8 then t
  else if p.base = TCFG.page.base then t.sensorsCommitted s
  else if p.base = TZONE.page.base then t.zonesCommitted s
  else if p.base = CDEM.page.base then t.demandCommitted s
  else t

/-- A management core commits a page of the Clachasel; whether the commit was accepted. [DEDUCED, log entry 38] -/
def State.commitBy (s : State) (req : Nat) (p : Page) (inst : Nat) : State × Bool :=
  let gen := (s.get (hdr HDR.GEN clachasel (p.at inst)) + 1) % 4294967296
  let t := s.commitRequest clachasel p inst req gen
  if t.is (hdr HDR.COMMIT_PENDING clachasel (p.at inst)) ∧ ¬ s.is (hdr HDR.COMMIT_PENDING clachasel (p.at inst)) then (t.commitApply clachasel p inst, true)
  else (t, false)

end Sys2Proof.Machine
end

