-- ==== Sys2Proof/Machine/Fences.lean ====
section
/-! DEFINITION. Fence and trip lines, the hard-limit supervisor, losing a die, semaphores (spec/20_failure.md). -/

namespace Sys2Proof.Machine

/-! The lines (R26, R633 to R637, R654, R655). -/

/-- FENCE_SET: MC0 asserts FENCE_n for each bit (R633); dies lost together leave DIE_INSERV together (R655).
[DEDUCED, log entry 32] -/
def execFenceSet (req : Requester) (mask : BitVec 8) (s : State) : Out :=
  .next (s.onWrite clachasel FENCE.page FENCE.FENCE_SET 0 req.val mask.toNat (fun s =>
    (s.each (diesOf mask.toNat) (fun s n => s.fenceLine n 1)).checkService))

/-- TRIP_SET: MC0 asserts TRIP_n for each bit (R633). -/
def execTripSet (req : Requester) (mask : BitVec 8) (s : State) : Out :=
  .next (s.onWrite clachasel FENCE.page FENCE.TRIP_SET 0 req.val (mask.toNat) (fun s =>
    (s.each (diesOf mask.toNat) (fun s n => s.tripLine n 1)).checkService))

/-- A die that MC0 does not release because its THERM_ALERT_n is asserted: it is taken down, event 0x3520 (R490). -/
def State.heldAtRelease (s : State) (n : Nat) : State :=
  ((s.setBit TALERT.HELD_AT_RELEASE.cl n true).event CSYS.page 0x3520 n).railsDown n 0

/-- TRIP_n is released: the die leaves die reset, DIE_READY_TO runs and the die has recorded nothing since (R133); while no die has been
lost it is in service (R133, R634, R635). [DEDUCED, log entry 32] -/
def State.releaseTrip (s : State) (n : Nat) : State :=
  let s := (s.setBit FENCE.TRIP_NOW.cl n false).setBit RAILI.READY_WAIT.cl n true
  let s := (s.setBit CSYS.DIE_READY.cl n false).setBit POWI.DIE_SERVING.cl n false
  if (List.range 8).any (fun m => s.is (FENCE.LOST.clAt m)) then s else s.setBit CSYS.DIE_INSERV.cl n true

/-- TRIP_REL: takes effect for a die that is UP and not fenced; any other is discarded with ACCESS_ERR (R490, R635). -/
def execTripRel (req : Requester) (mask : BitVec 8) (s : State) : Out :=
  .next (s.onWrite clachasel FENCE.page FENCE.TRIP_REL 0 req.val (mask.toNat * 256) (fun s =>
    let bad := (diesOf mask.toNat).any (fun n => s.dieState n != 2 || s.fenced n)
    let s := if bad then s.regFault clachasel FENCE.page FENCE.TRIP_REL 0 .accessErr req.val (mask.toNat * 256) else s
    s.each (diesOf mask.toNat) (fun s n =>
      if s.dieState n ≠ 2 ∨ s.fenced n ∨ ¬ s.tripped n then s
      else if s.is (LINEI.THERM.clAt n) then s.heldAtRelease n
      else s.releaseTrip n)))

/-- FENCE_n reaches die n: its links go to FENCED, waiting requests are discarded, and it reaches its fenced state now or at its next
hinge (R26, R39, R109, R324, R636). [DEDUCED, log entry 32] -/
def execFenceAssert (die : DieNo) (s : State) : Out :=
  let d := die.val
  .next (if s.inReset d ∨ ¬ s.fenced d ∨ s.is (LINEI.FENCING.on d) then s
    else (((s.set (LINEI.FENCING.on d) 1).fenceLinks d).discardAccepted d).tryFenced d)

/-- TRIP_n acts at die n: its clocks stop and it is held in die reset, whatever it was doing (R26, R40, R109, R679); MC2 returns
TS16 + n to NO_SAMPLE (R477). [DEDUCED, log entry 32] -/
def execTripAssert (die : DieNo) (s : State) : Out :=
  let n := die.val
  .next (if ¬ s.tripped n then s
    else
      let s := s.dieReset n
      if s.mcRuns 2 then (s.clearSensor (16 + n)).evaluate else s)

/-- FENCED_n is not set within FENCE_TO of the assertion of FENCE_n: TRIP_n, event 0x4111 (R637, R653).
[DEDUCED, log entry 32] -/
def execFenceTo (die : DieNo) (s : State) : Out :=
  let n := die.val
  .next (if ¬ s.fenced n ∨ s.bit FENCE.FENCED.cl n ∨ s.tripped n ∨ ¬ s.heldFor (LINEI.FENCE_SINCE.clAt n) (s.get HLS.FENCE_TO.cl * 1000) then s
    else (s.trip n 2).event FENCE.page 0x4111)

/-! The hard-limit supervisor (R42, R489, R640 to R642, R660). -/

/-- THERM_ALERT_n rises (R26, R489, R503, R641). -/
def execThermAlert (die : DieNo) (s : State) : Out := .next (s.thermRises die.val)

/-- THERM_ALERT_n is deasserted below 102 °C: both counts clear; a fence or a trip stays (R489, R641). -/
def execThermAlertRelease (die : DieNo) (s : State) : Out := .next (s.thermFalls die.val)

/-- THERM_ALERT_n has been held for TA_FENCE: FENCE_n, event 0x4103 (R641). [DEDUCED, log entry 32] -/
def execThermAlertFence (die : DieNo) (s : State) : Out :=
  let n := die.val
  .next (if ¬ s.is (LINEI.THERM.clAt n) ∨ s.fenced n ∨ ¬ s.heldFor (LINEI.THERM_SINCE.clAt n) (s.get HLS.TA_FENCE.cl * 1000) then s
    else (s.event HLS.page 0x4103).fence n 3)

/-- THERM_ALERT_n has been held for TA_TRIP: TRIP_n, event 0x4104 (R641, R660). [DEDUCED, log entry 32] -/
def execThermAlertTrip (die : DieNo) (s : State) : Out :=
  let n := die.val
  .next (if ¬ s.is (LINEI.THERM.clAt n) ∨ s.tripped n ∨ ¬ s.heldFor (LINEI.THERM_SINCE.clAt n) (s.get HLS.TA_TRIP.cl * 1000) then s
    else (s.event HLS.page 0x4104).trip n 3)

/-- DIE_FAULT_n rises (R42, R640). -/
def execDieFault (die : DieNo) (s : State) : Out := .next (s.latchDieFault die.val)

/-- The limits of R642 by position: their field and range. -/
def limitField (k : Nat) : Reg := [HLS.LEAK_TRIP, HLS.LEAK_REL, HLS.TA_FENCE, HLS.TA_TRIP, HLS.IIN_TRIP, HLS.FENCE_TO].getD k HLS.FENCE_TO

/-- The range of a limit. -/
def limitRange (k : Nat) : Nat × Nat :=
  [(50, 1000), (50, 1000), (1, 1000), (10, 10000), (50, 220), (10, 10000)].getD k (10, 10000)

/-- One limit takes the value written, held to its range, and is spent (R57, R642). [DEDUCED, log entry 33] -/
def State.writeLimit (s : State) (k value : Nat) : State :=
  let r := limitField k
  let v := bitsOf value r.lo r.width
  let range := limitRange k
  { (s.set r.cl (max range.1 (min range.2 v))).setBit HLS.LIMITS_SET.cl k true with spent := (r.on clachasel).key :: s.spent }

/-- What bars the write of a limit (R52, R58, R61). -/
def State.limitBar (s : State) (k req : Nat) : Option FaultBit := s.writeBar clachasel HLS.page (limitField k) 0 req

/-- A write of limits of one register: each is set, or barred by itself; a fault is recorded once a write (R58, R70, R642). -/
def State.writeLimits (s : State) (ks : List Nat) (req value : Nat) : State :=
  let bars := ks.filterMap (fun k => s.limitBar k req)
  let t := s.each (ks.filter (fun k => (s.limitBar k req).isNone)) (fun s k => s.writeLimit k value)
  [FaultBit.lockViol, .accessErr].foldl (fun t b =>
    if bars.contains b then t.regFault clachasel HLS.page (limitField (ks.headD 0)) 0 b req value else t) t

/-- The limits a register of HLS holds: 0x040, 0x044, 0x048, 0x04C. [DEDUCED, log entry 33] -/
def limitsOf (word : Nat) : List Nat := [[0, 1], [2, 3], [4], [5]].getD word []

/-- A write of a register of limits (R642, R660). [DEDUCED, log entry 33] -/
def execLimitWrite (req : Requester) (word : Fin 4) (value : BitVec 32) (s : State) : Out :=
  .next (if s.inReset clachasel then s else s.writeLimits (limitsOf word.val) req.val value.toNat)

/-! The form change (R647, R648). -/

/-- The first check of R647 that FORM_GO fails; 0 for none. [DEDUCED, log entry 34] -/
def State.formRefusal (s : State) (d : Nat) : Nat :=
  let lost := s.get (DFAULT.FORM_LOST.on d)
  if s.get (CTX.STATE.on d) ≠ 2 ∨ s.get (ARRAY.FORM.on d) ≠ 0xF then 1
  else if lost = d ∨ ¬ s.bit (KRING.VARIANTS.on d) lost then 2
  else if s.get (DFAULT.FORM_SYNC.on d) < s.get (HMBX.SYNC_NOW.on d) + 2 then 3
  else 0

/-- Runs admitted for a hinge beyond the form change are checked against the variant's key directory from here on (R393, R648).
[DEDUCED, log entry 34] -/
def State.recheckRuns (s : State) (d : Nat) : State :=
  let bad := (s.die d).runs.filter (fun e => (e.2.state == .admitted || e.2.state == .copyIn) &&
    decide (s.get (DFAULT.FORM_SYNC.on d) < e.2.entry) && s.badKey d e.2)
  s.each (bad.map Prod.fst) (fun s i => (s.dieEvent d RUNS.page 0x2606).endRun d i 8 2)

/-- FORM_GO (R647). [DEDUCED, log entry 34] -/
def execFormGo (req : Requester) (die : DieNo) (s : State) : Out :=
  let d := die.val
  .next (s.onWrite d DFAULT.page DFAULT.FORM_GO 0 req.val 1 (fun s =>
    let c := s.formRefusal d
    if c ≠ 0 then
      let s := ((s.set (DFAULT.FORM_STATE.on d) 3).set (DFAULT.FORM_REFUSE.on d) c).dieEvent d DFAULT.page 0x2042
      s.regFault d DFAULT.page DFAULT.FORM_GO 0 .accessErr req.val 1
    else ((s.set (DFAULT.FORM_STATE.on d) 1).set (DFAULT.FORM_REFUSE.on d) 0).recheckRuns d))

/-! Semaphores (R652). -/

/-- CLAIM: a free semaphore is granted; one held by another core reads BUSY (R652). [DEDUCED, log entry 33] -/
def execSemClaim (req : Requester) (core : McNo) (s : State) : Out :=
  let k := core.val
  .next (s.onWrite clachasel OWN.page OWN.CLAIM k req.val 256 (fun s =>
    let m := s.get (OWN.SEM.clAt k)
    if s.is (OWN.SEM_HELD.clAt m) ∧ s.get (OWN.SEM_OWNER.clAt m) ≠ k + 1 then s.set (OWN.RESULT.clAt k) 2
    else ((s.set (OWN.SEM_HELD.clAt m) 1).set (OWN.SEM_OWNER.clAt m) (k + 1)).set (OWN.RESULT.clAt k) 1))

/-- RELEASE by the owner frees the semaphore; from any other core it has no effect (R652). -/
def execSemRelease (req : Requester) (core : McNo) (s : State) : Out :=
  let k := core.val
  .next (s.onWrite clachasel OWN.page OWN.RELEASE k req.val 512 (fun s =>
    let m := s.get (OWN.SEM.clAt k)
    if ¬ s.is (OWN.SEM_HELD.clAt m) ∨ s.get (OWN.SEM_OWNER.clAt m) ≠ k + 1 then s
    else ((s.set (OWN.SEM_HELD.clAt m) 0).set (OWN.SEM_OWNER.clAt m) 0).set (OWN.RESULT.clAt k) 3))

end Sys2Proof.Machine
end

