-- ==== Sys2Proof/Machine/HostCommands.lean ====
section
/-! DEFINITION. Host commands CMD4 to CMD11, served by MC3 and MC1: temperature and cooling (R495 of spec/15_temperature.md, R528
of spec/16_cooling.md). -/

namespace Sys2Proof.Machine

/-- CMD4 CLEAR_TRIP: refused while TRIP_LATCH is level-held (R487, R495). -/
def execClearTrip (s : State) : Out :=
  .next (s.serve 4 State.mgmtReady (fun s v =>
    let z := v % 16
    if s.tripHeld z then (s, 5) else (s.set (TZONE.TRIP_LATCH.clAt z) 0, 1)))

/-- CMD5 SET_THROTTLE: MC1 writes the limit and commits its page; the shadow copy is put back where the commit is refused (R488,
R495). [DEDUCED, log entry 38] -/
def execSetThrottle (s : State) : Out :=
  .next (s.serve 5 State.mgmtReady (fun s v =>
    let z := v % 16
    let old := s.sh TZONE.THROTTLE z
    let r := (s.setShadow (TZONE.THROTTLE.clAt z) (v / 65536)).commitBy 2 TZONE.page (z / 8)
    if r.2 then (r.1, 1) else (r.1.setShadow (TZONE.THROTTLE.clAt z) old, 5)))

/-- CMD6 SET_FORECAST (R495). -/
def execSetForecast (s : State) : Out :=
  .next (s.serve 6 State.mgmtReady (fun s v => (s.set (TZONE.FORECAST_MS.clAt (v % 16)) (v / 65536), 1)))

/-- CMD7 CLEAR_SENSOR: the sensor returns to NO_SAMPLE (R495); TSTAT holds 48 of them. -/
def execClearSensor (s : State) : Out :=
  .next (s.serve 7 State.mgmtReady (fun s v =>
    let k := v % 64
    if 48 ≤ k then (s, 5) else ((s.clearSensor k).evaluate, 1)))

/-- MC1 writes a HOST_FLOOR and commits its page. [DEDUCED, log entry 38] -/
def State.setFloor (s : State) (r : Reg) (i : Nat) (p : Page) (v : Nat) : State × Bool :=
  (s.setShadow (r.clAt i) v).commitBy 2 p 0

/-- CMD8 SET_FAN_FLOOR (R528): a group is fitted where one of its fans is. -/
def execSetFanFloor (s : State) : Out :=
  .next (s.serve 8 State.mgmtReady (fun s v =>
    let g := v % 4
    let floor := v / 65536 % 1024
    if 1000 < floor ∨ ¬ (List.range 3).any (fun i => s.fitted (3 * g + i)) then (s, 5)
    else let r := s.setFloor CFAN.HOST_FLOOR g CFAN.page floor; (r.1, if r.2 then 1 else 5)))

/-- CMD9 SET_PUMP_FLOOR: refused on an ADV-T8A, which has no pump (R504, R528). -/
def execSetPumpFloor (s : State) : Out :=
  .next (s.serve 9 State.mgmtReady (fun s v =>
    let floor := v / 65536 % 1024
    if 1000 < floor ∨ s.get TRAYID.VARIANT.cl = 2 then (s, 5)
    else let r := s.setFloor CPUMP.HOST_FLOOR (v % 2) CPUMP.page floor; (r.1, if r.2 then 1 else 5)))

/-- CMD10 CLEAR_COOL_FAULT: refused while the condition persists (R518, R528). -/
def execClearCoolFault (s : State) : Out :=
  .next (s.serve 10 State.mgmtReady (fun s v =>
    let ch := v % 16
    if s.coolLow ch then (s, 5) else (s.clearCoolFault ch, 1)))

/-- CMD11 CLEAR_HOST_FLOORS (R528). -/
def execClearHostFloors (s : State) : Out :=
  .next (s.serve 11 State.mgmtReady (fun s v =>
    if v ≠ 1 then (s, 5)
    else
      let s := s.each (List.range 4) (fun s g => s.setShadow (CFAN.HOST_FLOOR.clAt g) 0)
      let s := s.each (List.range 2) (fun s p => s.setShadow (CPUMP.HOST_FLOOR.clAt p) 0)
      let r := s.commitBy 2 CFAN.page 0
      let q := r.1.commitBy 2 CPUMP.page 0
      (q.1, if r.2 ∧ q.2 then 1 else 5)))

end Sys2Proof.Machine
end

