-- ==== Sys2Proof/Machine/SelfTest.lean ====
section
/-! DEFINITION. Self-test and calibration in service: pending tests, test slots, the end of each test (R662 to R680 of
spec/21_self_test.md). -/

namespace Sys2Proof.Machine

namespace TESTI
/-- Tests pending at MC0 for die n (R664). -/
def PEND : Reg := iarr 0x1570 3 0 8
/-- The interval of automatic tests in minutes (R668). -/
def PERIOD : Reg := ireg 0x1578 16 60
/-- Time of the last automatic request on State.clock (R668). -/
def LAST : Reg := ireg 0x1579 64 0
/-- Die n has said by event 0x2450, or by the tests deferred in 0x1450, that tests are requested of it (R662). -/
def DIE_REQ : Reg := iarr 0x1580 1 0 8
/-- Die n has said by event 0x2401 that a skip commit waits for its test slot (R222). -/
def SKIP_WAIT : Reg := iarr 0x1588 1 0 8
/-- Tests taken at the last slot of die n, as its event 0x1450 said (R665, R673). -/
def TAKEN : Reg := iarr 0x1590 3 0 8
/-- Tests deferred at the last slot of die n, as its event 0x1450 said. -/
def DEFERRED : Reg := iarr 0x1598 3 0 8
/-- Failed columns of die n, as its event 0x1450 said. -/
def COLS : Reg := iarr 0x15A0 8 0 8
/-- Slots of die n whose event 0x1450 has been admitted since tray reset (R673). -/
def SLOTS : Reg := iarr 0x15A8 16 0 8
end TESTI

/-! Requests (R662, R664, R666, R668). -/

/-- A write of REQ_TESTS (R662). [DEDUCED, log entry 37] -/
def execReqTests (req : Requester) (die : DieNo) (tests : BitVec 3) (s : State) : Out :=
  let d := die.val
  .next (s.onWrite d STEST.page STEST.REQ_TESTS 0 req.val tests.toNat (fun s => s.requestTests d tests.toNat))

/-- Whether a skip commit of the die waits for its test slot, at the die. -/
def State.skipPending (s : State) (d : Nat) : Bool := s.is (hdr HDR.COMMIT_PENDING d CSKIP.page.base)

/-- The hold MC0 chooses for a test slot in MODE 1 (R666), from what it holds itself and what the dies' events have told it (R20): a die
that has requested tests may have requested TUMBLER, and its tile clock is that of its running point. [DESIGN CHOICE, log entry 37] -/
def State.slotHold (s : State) : Nat :=
  let dies := diesOf (s.get CSYS.DIE_INSERV.cl)
  let skip := dies.any (fun d => s.is (TESTI.SKIP_WAIT.clAt d))
  let tumbler := skip || dies.any (fun d => s.bit (TESTI.PEND.clAt d) 0 || s.is (TESTI.DIE_REQ.clAt d))
  let c := (if skip then 77888 else 0) + (if tumbler then 37376 else 0)
  let f := dies.foldl (fun m d => min m (tileMhz (s.get (OPCTL.RUN_OP.clAt d)))) 65535
  if c = 0 then 30 else (c + f - 1) / f + 10

/-- MC0 posts a TEST_SLOT with one H and one HOLD_US to every die in service, each with the tests pending for it (R664).
[DEDUCED, log entry 37] -/
def State.postSlots (s : State) (h hold : Nat) : State :=
  s.each (diesOf (s.get CSYS.DIE_INSERV.cl)) (fun s d =>
    let r := s.mc0Post d 3 h (s.get (TESTI.PEND.clAt d) * 256 + hold * 65536) 0
    if r.2.isSome then r.1.set (TESTI.PEND.clAt d) 0 else r.1)

/-- In MODE 1 MC0 posts the slot itself, choosing H as for a throttle step (R664). -/
def State.postSlotsLocal (s : State) : State :=
  let lead := (List.range 16).foldl (fun m z => max m (s.get (TZONE.LEAD_HINGES.clAt z))) 0
  if s.is OPCTL.MODE.cl ∧ s.mcRuns 0 then s.postSlots (s.highestSync + lead) s.slotHold else s

/-- What the management plane learns of a die's tests from its event records, the one way it learns of them (R20, R222, R662, R665): a new
start has nothing pending; a pending skip or a request calls for a test slot (R664). [DEDUCED, log entry 37] -/
def State.heardTests (s : State) (n code arg : Nat) : State :=
  match code with
  | 0x2001 => (s.set (TESTI.DIE_REQ.clAt n) 0).set (TESTI.SKIP_WAIT.clAt n) 0
  | 0x2450 => (s.set (TESTI.DIE_REQ.clAt n) 1).postSlotsLocal
  | 0x2401 => (s.set (TESTI.SKIP_WAIT.clAt n) 1).postSlotsLocal
  | 0x1401 => s.set (TESTI.SKIP_WAIT.clAt n) 0
  | 0x1450 =>
    let left := bitsOf arg 8 3
    let s := (s.set (TESTI.TAKEN.clAt n) (bitsOf arg 0 3)).set (TESTI.DEFERRED.clAt n) left
    let s := ((s.set (TESTI.COLS.clAt n) (bitsOf arg 16 8)).wrap (TESTI.SLOTS.clAt n)).put (TESTI.DIE_REQ.clAt n) (left != 0)
    if left = 0 then s else s.postSlotsLocal
  | _ => s

/-- CMD12 TEST_REQUEST (R664, R672). -/
def execTestRequest (s : State) : Out :=
  .next (s.serve 12 (fun s => s.get CSYS.TRAY_STATE.cl == 6) (fun s v =>
    let dies := v % 256
    let tests := v / 256 % 8
    if tests = 0 ∨ Nat.land dies (s.get CSYS.DIE_INSERV.cl) ≠ dies then (s, 5)
    else
      let s := s.each (diesOf dies) (fun s d => s.set (TESTI.PEND.clAt d) (Nat.lor (s.get (TESTI.PEND.clAt d)) tests))
      (s.postSlotsLocal, 2)))

/-- CMD13 TEST_CANCEL (R672). -/
def execTestCancel (s : State) : Out :=
  .next (s.serve 13 (fun s => s.get CSYS.TRAY_STATE.cl == 6) (fun s v =>
    (s.each (diesOf (v % 256)) (fun s d => s.set (TESTI.PEND.clAt d) 0), 1)))

/-- CMD15 SET_TEST_PERIOD (R672). -/
def execSetTestPeriod (s : State) : Out :=
  .next (s.serve 15 State.mgmtReady (fun s v => ((s.set TESTI.PERIOD.cl v).set TESTI.LAST.cl s.clock, 1)))

/-- The interval of automatic tests has run out: MC0 requests TUMBLER on every die in service (R664, R668). -/
def execTestPeriodTimer (s : State) : Out :=
  let period := s.get TESTI.PERIOD.cl
  .next (if period = 0 ∨ ¬ s.mcRuns 0 ∨ s.clock < s.get TESTI.LAST.cl + period * 60000000 then s
    else
      let s := s.set TESTI.LAST.cl s.clock
      let s := s.each (diesOf (s.get CSYS.DIE_INSERV.cl)) (fun s d => s.setBit (TESTI.PEND.clAt d) 0 true)
      s.postSlotsLocal)

/-! The end of the tests (R667 to R670, R674, R678, R679). -/

/-- W0 writes the failed column of a group to SKIP_g and commits CSKIP (R221, R668). -/
def State.skipColumn (s : State) (d g p : Nat) : State :=
  if s.is (hdr HDR.COMMIT_PENDING d CSKIP.page.base) then s
  else (s.setShadow (CSKIP.SKIP.at d g) p).setBit (SKIPI.WRITTEN.on d) g true

/-- A failure is marked: its physical column FAILED, the first one named, event 0x1451 with group, physical column, row and unit
(R667). -/
def State.markFailure (s : State) (d : Nat) (f : TumblerFailure) : State :=
  let g := f.col.val / 17
  let p := f.col.val % 17
  let unit := f.unit.code
  let s := s.setBit (STEST.FAILED_COLS.at d g) p true
  let s := if s.is (STEST.FIRST_VALID.on d) then s
    else (((s.set (STEST.FIRST_PCOL.on d) f.col.val).set (STEST.FIRST_ROW.on d) f.row.val).set (STEST.FIRST_UNIT.on d) unit).set (STEST.FIRST_VALID.on d) 1
  s.dieEvent d STEST.page 0x1451 (g + 256 * p + 65536 * f.row.val + 16777216 * unit)

/-- Whether the test covers a failure: it covers the logical tumblers and the spare of a group whose SKIP_g is 16; any other skipped
column is checked in Phase 3 only (R217, R667). -/
def State.covered (s : State) (d : Nat) (f : TumblerFailure) : Bool :=
  (logicalCol (s.skipMap d) f.col.val).isSome || f.col.val % 17 == 16 || f.unit == .port || f.unit == .passthru

/-- W0 acts on FAILED_COLS; a column whose pass-through path has failed, which `passthru` lists, cannot be skipped (R207, R668).
[DEDUCED, log entry 37] -/
def State.actOnFailures (s : State) (d : Nat) (passthru : List Nat) : State :=
  let failed := (List.range 4).filter (fun g => s.get (STEST.FAILED_COLS.at d g) != 0)
  let s := if passthru ≠ [] ∨ failed.any (fun g => s.bit (CSKIP.LOCKED.on d) g) then s.dieFault d 3 else s
  let open_ := failed.filter (fun g => !s.bit (CSKIP.LOCKED.on d) g && s.get (CSKIP.SKIP.at d g) == 16)
  if open_ = [] ∨ ¬ s.is (WLOAD.W0_RUN.on d) ∨ s.skipPending d then s
  else
    let s := s.each open_ (fun s g =>
      match (List.range 17).find? (fun p => s.bit (STEST.FAILED_COLS.at d g) p && !passthru.contains (17 * g + p)) with
      | some p => s.skipColumn d g p
      | none => s)
    s.commitRequest d CSKIP.page 0 0 ((s.get (hdr HDR.GEN d CSKIP.page.base) + 1) % 4294967296)

/-- The TUMBLER test ends with the failures found and the bay lines rewritten; the shadow bank is left all zeros (R667, R668,
R676, R679). [DEDUCED, log entry 37] -/
def execTumblerTestDone (die : DieNo) (failures : List TumblerFailure) (fixed : BitVec 32) (s : State) : Out :=
  let d := die.val
  .next (if s.inReset d ∨ ¬ s.is (STEST.TUMBLER_RUN.on d) then s
    else
      let s := (s.set (STEST.TUMBLER_RUN.on d) 0).count (STEST.BAY_FIXED.on d) fixed.toNat
      let s := if s.is (ARRAY.LOADING.on d) then s else (s.set (ARRAY.SHADOW_READY.on d) 0).onDie d (fun x => { x with shadowKey := none })
      let s := s.each (List.range 4) (fun s g => s.set (STEST.FAILED_COLS.at d g) 0)
      let s := s.set (STEST.FIRST_VALID.on d) 0
      let seen := failures.filter (fun f => s.covered d f)
      let s := seen.foldl (fun s f => s.markFailure d f) s
      let s := if seen = [] then s else s.pageEvent d STEST.page 9
      let s := s.actOnFailures d ((seen.filter (fun f => f.unit == .passthru)).map (fun f => f.col.val))
      (s.loadAfter d).endSlot d)

/-- The LINK test ends, with what each link measured over its 20 µs: SNR of both lanes, and symbols corrected. A link that was UP
throughout, and whose lower SNR is below LINK_SNR_MIN or whose corrections exceed CE_WARN thousands in 1 ms, is MARGINAL (R669,
R678). [DEDUCED, log entry 37] -/
def execLinkTestDone (die : DieNo) (spans : List LinkSpan) (s : State) : Out :=
  let d := die.val
  .next (if s.inReset d ∨ ¬ s.is (STEST.LINK_RUN.on d) then s
    else
      let s := s.set (STEST.LINK_RUN.on d) 0
      let s := spans.foldl (fun s x =>
        let l := x.link.val
        if ¬ s.bit (SKIPI.LINKS_UP.on d) l ∨ ¬ s.linkIs d l .up then s
        else
          let s := (s.set (HL.SNR_0.at d l) x.snr0.toNat).set (HL.SNR_1.at d l) x.snr1.toNat
          let bad := decide (min x.snr0.toNat x.snr1.toNat < s.get (STEST.LINK_SNR_MIN.on d)) || decide (20 * s.get (HL.CE_WARN.at d l) < x.corrected)
          let m := withBit (s.pair (STEST.MARGINAL_LO.on d) (STEST.MARGINAL_HI.on d)) l bad
          let s := s.setPair (STEST.MARGINAL_LO.on d) (STEST.MARGINAL_HI.on d) m
          if bad then s.dieEvent d STEST.page 0x1453 else s) s
      s.endSlot d)

/-- A unit fails the MEMORY test (R670). -/
def State.memoryFailure (s : State) (d u : Nat) : State :=
  let s := ((s.tallyUe d (32 * u)).count (STEST.MT_FAILS.on d)).setPair (MERR.HBM_UE_ADDR_LO.on d) (MERR.HBM_UE_ADDR_HI.on d) (32 * u)
  s.dieEvent d STEST.page 0x1454

/-- The MEMORY test ends having covered some units, of which `ecc` names those in error, by the distance from MT_CUR in units
(R670). Every unit is left with the data it held. [DEDUCED, log entry 37] -/
def execMemoryTestDone (die : DieNo) (units : BitVec 32) (ecc : Ecc) (s : State) : Out :=
  let d := die.val
  .next (if s.inReset d ∨ ¬ s.is (STEST.MEM_RUN.on d) then s
    else
      let n := min units.toNat (s.get (STEST.MT_LEN.on d) * 32768)
      let cur := s.pair (STEST.MT_CUR_LO.on d) (STEST.MT_CUR_HI.on d) / 32
      let at_ := fun i => (cur + i) % 0xC0000000
      let s := s.set (STEST.MEM_RUN.on d) 0
      let s := s.each (ecc.corrected.filter (fun i => decide (i < n))) (fun s i => s.countCe d (32 * at_ i))
      let s := s.each (ecc.bad.filter (fun i => decide (i < n))) (fun s i => s.memoryFailure d (at_ i))
      (s.setPair (STEST.MT_CUR_LO.on d) (STEST.MT_CUR_HI.on d) (32 * at_ n)).endSlot d)

end Sys2Proof.Machine
end

