-- ==== Sys2Proof/Machine/Records.lean ====
section
/-! DEFINITION. The event recorder's own commands and events (R567 to R597 of spec/18_event_recorder.md). -/

namespace Sys2Proof.Machine

/-! Writers and admission (R567, R568, R571, R572). -/

/-- Whether a code lies in the groups of a writer (R567). [DEDUCED, log entry 59] -/
def writerMay (w : Writer) (code : Nat) : Bool :=
  match w with
  | .supervisor => code / 4096 == 4
  | .fence => code / 4096 == 4
  | .block => code / 4096 == 3

/-- A Clachasel writer without a window presents a record (R567, R568, R584). `waiting` is the number of records in the block input
queue at that time: a block's record that finds 16 there is lost (R568, R570). [DEDUCED, log entry 59] -/
def execRecordPresent (writer : Writer) (code : BitVec 16) (origin : BitVec 24) (arg0 arg1 : BitVec 32) (aux : BitVec 16) (waiting : Fin 17)
    (s : State) : Out :=
  if s.get RECI.RUNS.cl = 0 then .next s
  else if writer = .block ∧ waiting.val = 16 then .next (s.loseRecord 1)
  else if ¬ writerMay writer code.toNat then .next (s.count EVREC.BAD_CODE.cl)
  else .next (s.present code.toNat origin.toNat arg0.toNat arg1.toNat aux.toNat)

/-- What follows the admission of a record from die n: DIE_READY (R132), FENCED_n (R636), and what the record says of the
die's context (R132, R382) and of its tests (R20). A record that shows the context of a die in service entering FAULTED, for a cause other
than FENCED, has MC0 assert FENCE_n (R644). [DEDUCED, log entry 32] -/
def State.dieAdmitted (s : State) (n : Nat) (r : DieRec) : State :=
  let s := s.heardTests n r.code r.arg0
  match r.code with
  | 0x2001 => s.setBit CSYS.DIE_READY.cl n true
  | 0x2030 => if s.fenced n then s.setBit FENCE.FENCED.cl n true else s
  | 0x2602 => s.setBit POWI.DIE_SERVING.cl n true
  | 0x2603 =>
    let s := s.setBit POWI.DIE_SERVING.cl n false
    if bitsOf r.arg1 8 8 = 4 ∧ bitsOf r.arg1 16 8 ≠ 7 ∧ s.mcRuns 0 ∧ s.bit CSYS.DIE_INSERV.cl n then s.fence n 1 else s
  | _ => s

/-- The age of a die record in microseconds, saturating (R571). -/
def State.ageOf (s : State) (r : DieRec) : Nat := min 65535 (s.clock - r.entered)

/-- The sideband of die n delivers the head of DEVQ; a BUSY record stays and is presented again (R568, R571, R572). -/
def execDieRecord (die : DieNo) (s : State) : Out :=
  let n := die.val
  match (s.die n).devq with
  | [] => .next s
  | r :: rest =>
    if s.inReset n ∨ ¬ s.bit CSB.ENABLE.cl n ∨ s.is (CSB.DOWN.clAt n) ∨ s.get RECI.RUNS.cl = 0 ∨
        s.get EVREC.SCANNING.cl = 1 then .next s
    else if r.code / 4096 ≠ 1 ∧ r.code / 4096 ≠ 2 then
      .next (((s.onDie n (fun x => { x with devq := rest })).devqRegs n).count EVREC.BAD_CODE.cl)
    else
      let age := s.ageOf r
      match s.admitRecord .valid ⟨0, r.code, if age = 65535 then 3 else 1, s.trayTime - usToTicks age, r.origin, 0, r.aux, r.arg0, r.arg1⟩ with
      | (s, .busy) => .next (s.count (DEVQ.BUSY_RETRIES.on n))
      | (s, .suppressed) => .next ((s.onDie n (fun x => { x with devq := rest })).devqRegs n)
      | (s, .admitted) =>
        .next ((((s.onDie n (fun x => { x with devq := rest })).devqRegs n).count (DEVQ.SENT.on n)).dieAdmitted n r)

/-! Write windows (R569). -/

/-- ORIGIN with the chip code forced to 2 and the die to 0 (R569). -/
def windowOrigin (o : Nat) : Nat := o % 4096 + 8192 + o / 131072 % 64 * 131072

/-- RESERVE applies R568 at once (R569). [DEDUCED, log entry 60] -/
def execReserve (req : Requester) (core : McNo) (s : State) : Out :=
  let k := core.val
  .next (s.onWrite clachasel EVWIN.page EVWIN.RESERVE k req.val 1 (fun s =>
    let code := s.get (EVWIN.CODE.clAt k)
    match s.reservedBy k with
    | some _ => s.regFault clachasel EVWIN.page EVWIN.RESERVE k .accessErr req.val 1
    | none =>
      if code / 4096 ≠ 3 then (s.set (EVWIN.RESULT.clAt k) 4).count EVREC.BAD_CODE.cl
      else if s.get EVREC.SCANNING.cl = 1 then s.set (EVWIN.RESULT.clAt k) 2
      else
        match s.admitRecord (.reserved k) ⟨0, code, 0, s.trayTime, windowOrigin (s.get (EVWIN.ORIGIN.clAt k)), 0, s.get (EVWIN.AUX.clAt k), s.get (EVWIN.ARG0.clAt k), s.get (EVWIN.ARG1.clAt k)⟩ with
        | (s, .busy) => s.set (EVWIN.RESULT.clAt k) 2
        | (s, .suppressed) => s.set (EVWIN.RESULT.clAt k) 3
        | (s, .admitted) => (s.set (EVWIN.RESULT.clAt k) 1).set (EVWIN.SEQ.clAt k) ((s.reservedBy k).getD 0)))

/-- COMMIT copies the payload into the slot and sets MARK (R569, R586). [DEDUCED, log entry 60] -/
def execCommit (req : Requester) (core : McNo) (s : State) : Out :=
  let k := core.val
  .next (s.onWrite clachasel EVWIN.page EVWIN.COMMIT k req.val 2 (fun s =>
    match s.reservedBy k with
    | none => s
    | some q =>
      match aget s.ring (q % 4096) with
      | none => s
      | some slot =>
        let body := { slot.body with aux := s.get (EVWIN.AUX.clAt k), arg0 := s.get (EVWIN.ARG0.clAt k), arg1 := s.get (EVWIN.ARG1.clAt k) }
        (({ s with ring := aput s.ring (q % 4096) ⟨.valid, body⟩ }.ringRegs).set (EVWIN.RESULT.clAt k) 5).flushPage))

/-- CANCEL voids the slot (R569). [DEDUCED, log entry 60] -/
def execCancel (req : Requester) (core : McNo) (s : State) : Out :=
  .next (s.onWrite clachasel EVWIN.page EVWIN.CANCEL core.val req.val 4 (fun s => s.voidReservation core.val 2))

/-- A reservation has been held for 1 ms (R569). [DEDUCED, log entry 60] -/
def execReservationTimeout (core : McNo) (s : State) : Out := .next (s.voidReservation core.val 1)

/-! Buckets and sweeps (R573 to R576). -/

/-- At a multiple of 32 ticks of tray time every bucket gains RATE / 1,024 tokens, up to BURST (R574). -/
def execBucketRefill (s : State) : Out :=
  if s.trayTime % 32 ≠ 0 then .next s
  else
  let t : State := { s with tokens := s.tokens.foldl (fun l e =>
    let cls := s.classOf e.1
    let v := s.refilled cls (s.tokensOf e.1)
    if cls = 0 ∨ v = s.refilled cls (s.levelOf cls) then l else aput l e.1 v) [] }
  .next (t.each [1, 2, 3] (fun t c => t.set (RECI.LEVEL.clAt (c - 1)) (s.refilled c (s.levelOf c))))

/-- A sweep, where the seconds of tray time are a multiple of SWEEP_S and the ticks are 0 (R576). -/
def execSweep (s : State) : Out :=
  if s.get RECI.RUNS.cl = 0 ∨ s.get EVREC.SCANNING.cl = 1 ∨ s.trayTime % (32768 * s.get EVREC.SWEEP_S.cl) ≠ 0 then .next s
  else .next (s.sweep.flushAfter 0x3000)

/-- Put a code in a class: its suppressed count is kept, its tokens are clamped to the new BURST (R573, R595). -/
def State.setClass (s : State) (code cls : Nat) : State :=
  let had := min (s.tokensOf code) (s.fullBucket cls)
  let s := { s with classMap := aputD s.classMap code 1 cls }
  { s with tokens := if cls = 0 ∨ had = s.levelOf cls then adel s.tokens code else aput s.tokens code had }

/-- Whether the class of a code may be changed (R573). -/
def classSettable (code : Nat) : Bool :=
  decide (0x1000 ≤ code ∧ code < 0x4000) && !decide (0x3800 ≤ code ∧ code ≤ 0x38FF)

/-- CM_SET puts CM_CODE in class CM_CLASS, or is refused with ACCESS_ERR (R573). -/
def execCmSet (req : Requester) (s : State) : Out :=
  .next (s.onWrite clachasel EVRATE.page EVRATE.CM_SET 0 req.val 1 (fun s =>
    let code := s.get EVRATE.CM_CODE.cl
    if classSettable code then s.setClass code (s.get EVRATE.CM_CLASS.cl)
    else s.regFault clachasel EVRATE.page EVRATE.CM_SET 0 .accessErr req.val 1))

/-! Flush and flash (R577 to R583, R593). -/

/-- FLUSH in EVREC (R580). -/
def execEvrecFlush (req : Requester) (s : State) : Out :=
  .next (s.onWrite clachasel EVREC.page EVREC.FLUSH 0 req.val 1 (fun s => s.startFlush true))

/-- A program or an erase failed: FLASH_FAULT, event 0x3804 with the flash address, flushing stops (R583). -/
def State.flashFault (s : State) (address : Nat) : State :=
  let s := ((s.set EVREC.FLASH_FAULT.cl 1).set EVREC.FLUSHING.cl 0).set EVREC.TO_END.cl 0
  let s := ((s.set EVREC.ERASE_WAIT.cl 0).set EVREC.PF_FLUSH.cl 0).set RECI.PHASE.cl 0
  (s.pageEvent clachasel EVREC.page 8).event EVREC.page 0x3804 address

/-- The flash fault is cleared: blocks b + 1 and b + 2 are erased again and flushing resumes from FLUSH_NEXT (R583). -/
def State.clearFlashFault (s : State) : State :=
  if ¬ s.is EVREC.FLASH_FAULT.cl then s
  else
    let b := flashBlock (s.get EVREC.FLUSH_NEXT.cl)
    let s := { s.set EVREC.FLASH_FAULT.cl 0 with eraseQ := [] }
    ((s.startErase (b + 1)).startErase (b + 2)).startFlush true

/-- CLEAR_FLASH_FAULT in EVREC (R583). -/
def execEvrecClearFlashFault (req : Requester) (s : State) : Out :=
  .next (s.onWrite clachasel EVREC.page EVREC.CLEAR_FLASH_FAULT 0 req.val 2 State.clearFlashFault)

/-- Write the records of the page being flushed into their flash slots, MARK written or not (R578, R579); void and reserved
slots are passed over. -/
def State.writePage (s : State) (marked : Bool) : State :=
  let q := s.get EVREC.FLUSH_NEXT.cl
  s.each (List.range (seqSub (s.get RECI.PAGE_END.cl) q)) (fun s i =>
    let c := (q + i) % 4294967296
    match aget s.ring (c % 4096) with
    | some ⟨.valid, r⟩ => if r.seq = c then { s with flash := aput s.flash (c % 2097152) ⟨marked, r⟩ } else s
    | _ => s)

/-- A page program ends: after the data program the marks are programmed, after the marks FLUSH_NEXT moves on (R579, R580).
No program starts after the limit of a power-fail flush (R582). -/
def execPageProgramDone (ok : Bool) (s : State) : Out :=
  let q := s.get EVREC.FLUSH_NEXT.cl
  match s.get RECI.PHASE.cl with
  | 1 =>
    if ¬ ok then .next ((s.writePage false).flashFault (q % 2097152 * 32))
    else if s.get RECI.PF_LIMIT.cl = 1 then .next ((s.writePage false).set RECI.PHASE.cl 0).flushPage
    else .next ((s.writePage false).set RECI.PHASE.cl 2)
  | 2 =>
    if ¬ ok then .next (s.flashFault (q % 2097152 * 32))
    else .next (((((s.writePage true).set EVREC.FLUSH_NEXT.cl (s.get RECI.PAGE_END.cl)).set RECI.PHASE.cl 0).ringRegs).flushPage)
  | _ => .next s

/-- The running erase ends: its block is erased, and a flush that waited for it resumes (R581). -/
def execEraseDone (ok : Bool) (s : State) : Out :=
  match s.eraseQ with
  | [] => .next s
  | b :: rest =>
    if ¬ ok then .next ({ s with eraseQ := rest }.put EVREC.ERASING.cl (rest != []) |>.flashFault (b * 65536))
    else
      let s := { s with eraseQ := rest, flash := akeep s.flash (fun f => f / 2048 != b) }
      .next (s.put EVREC.ERASING.cl (rest != [])).flushPage

/-- An erase has not ended within 3 s (R583). -/
def execEraseTimeout (s : State) : Out :=
  match s.eraseQ with
  | [] => .next s
  | b :: rest => .next ({ s with eraseQ := rest }.put EVREC.ERASING.cl (rest != []) |>.flashFault (b * 65536))

/-- 7.0 ms have passed since power-fail assertion: no program starts (R582). -/
def execPfFlushLimit (s : State) : Out :=
  if ¬ s.is PFAIL.PF_NOW.cl then .next s else .next (s.set RECI.PF_LIMIT.cl 1).flushPage

/-! Start-up (R584). -/

/-- The higher of two SEQ values as serial numbers modulo 2^32. -/
def serialMax (a b : Nat) : Nat := if seqSub b a < 2147483648 then b else a

/-- The highest SEQ that a valid record of the flash holds (R584). -/
def State.highestSeq (s : State) : Option Nat :=
  s.flash.foldl (fun m e => if e.2.marked then some (match m with | some a => serialMax a e.2.body.seq | none => e.2.body.seq)
    else m) none

/-- The start-up search ends: HEAD, START_SEQ, the first erases, event 0x3806, then the records held (R584).
[DEDUCED, log entry 59] -/
def execStartupSearchDone (s : State) : Out :=
  if s.get RECI.RUNS.cl = 0 ∨ s.get EVREC.SCANNING.cl = 0 ∨ s.is PFAIL.PF_NOW.cl then .next s
  else
    let found := s.highestSeq
    let h := found.getD 0
    let start := (h + 1) % 4294967296
    let f := start % 2097152
    let dirty := (List.range (8 - f % 8)).any (fun i => (aget s.flash (f + i)).isSome)
    let skip := if found.isSome && dirty then 8 - f % 8 else 0
    let head := (start + skip) % 4294967296
    let s := ((s.set EVREC.SCANNING.cl 0).set EVREC.HEAD.cl head).set EVREC.START_SEQ.cl start
    let s := (s.set EVREC.FLUSH_NEXT.cl head).ringRegs
    let s := if found.isNone then s.startErase 0 else s
    let s := (s.startErase (flashBlock head + 1)).startErase (flashBlock head + 2)
    let s := s.event EVREC.page 0x3806 h 0 skip
    let held := s.heldRecs
    .next (held.foldl (fun s r =>
      match s.admitRecord .valid ⟨0, r.code, 0, r.entered, r.origin, 0, r.aux, r.arg0, r.arg1⟩ with
      | (s, .busy) => s.loseRecord 0
      | (s, _) => s) { s with heldRecs := [] })

/-! Reading (R585 to R587). -/

/-- A write of RD_SEQ copies the slot into the window (R585, R592). [DEDUCED, log entry 60] -/
def execRdSeq (req : Requester) (window : Fin 5) (seq : BitVec 32) (s : State) : Out :=
  let w := window.val
  .next (s.onWrite clachasel EVREAD.page EVREAD.RD_SEQ w req.val seq.toNat (fun s =>
    let q := seq.toNat
    let s := s.set (EVREAD.RD_SEQ.clAt w) q
    let oldest := s.get EVREC.OLDEST.cl
    if 2147483648 ≤ seqSub q oldest then s.set (EVREAD.RD_STATUS.clAt w) 1
    else if seqSub (s.get EVREC.COMMITTED_TO.cl + 1) oldest ≤ seqSub q oldest then s.set (EVREAD.RD_STATUS.clAt w) 2
    else
      match aget s.ring (q % 4096) with
      | some ⟨.valid, r⟩ =>
        (s.each (List.range 8) (fun s i => s.set (EVREAD.RD_DATA.clAt (8 * w + i)) (r.words.getD i 0))).set
          (EVREAD.RD_STATUS.clAt w) 0
      | _ => s.set (EVREAD.RD_STATUS.clAt w) 3))

/-- A write of FL_SEQ starts the read of a flash slot; BUSY while a power-fail flush runs (R587).
[DEDUCED, log entry 60] -/
def execFlSeq (req : Requester) (window : Fin 5) (seq : BitVec 32) (s : State) : Out :=
  let w := window.val
  .next (s.onWrite clachasel EVREAD.page EVREAD.FL_SEQ w req.val seq.toNat (fun s =>
    let s := s.set (EVREAD.FL_SEQ.clAt w) seq.toNat
    if s.is EVREC.PF_FLUSH.cl then
      ((s.set (EVREAD.FL_STATUS.clAt w) 4).set (EVREAD.FL_PENDING.clAt w) 0).pageEvent clachasel EVREAD.page (8 + w)
    else s.set (EVREAD.FL_PENDING.clAt w) 1))

/-- The eight words of a flash slot: erased, unmarked, or a record (R563, R579). -/
def flashWords (f : Option FlashSlot) : List Nat :=
  match f with
  | none => List.replicate 8 0xFFFFFFFF
  | some x => wordsOfBytes (x.body.bytesWith x.body.check (if x.marked then 0x5A else 0xFF))

/-- FL_STATUS of the words a flash slot returns for SEQ q: NO_MARK, BAD_CHECK, OTHER or OK (R565, R587). -/
def flashStatus (words : List Nat) (q : Nat) : Nat :=
  let mark := bitsOf (words.getD 4 0) 24 8
  let check := bitsOf (words.getD 1 0) 24 8
  let bytes := words.flatMap (bytesLE 4)
  if mark ≠ 0x5A then 1
  else if crc8 (bytes.set 7 0) ≠ check then 2
  else if words.getD 0 0 = q then 0
  else 3

/-- The flash read of a window ends (R587). `read` is none where the flash returns what was written, else the eight words it returns
instead. [DEDUCED, log entry 60] -/
def execFlashReadDone (window : Fin 5) (read : Option (List (BitVec 32))) (s : State) : Out :=
  let w := window.val
  if ¬ s.is (EVREAD.FL_PENDING.clAt w) then .next s
  else
    let q := s.get (EVREAD.FL_SEQ.clAt w)
    let words := match read with
      | none => flashWords (aget s.flash (q % 2097152))
      | some ws => ws.map BitVec.toNat
    let status := if s.is EVREC.PF_FLUSH.cl then 4 else flashStatus words q
    let s := if status = 4 then s else
      s.each (List.range 8) (fun s i => s.set (EVREAD.FL_DATA.clAt (8 * w + i)) (words.getD i 0))
    .next (((s.set (EVREAD.FL_STATUS.clAt w) status).set (EVREAD.FL_PENDING.clAt w) 0).pageEvent clachasel EVREAD.page (8 + w))

/-! The host commands (R588). -/

/-- CMD16 FLUSH. -/
def execFlush (s : State) : Out :=
  .next (s.serve 16 State.mgmtReady (fun s v => if v = 1 then (s.startFlush true, 2) else (s, 5)))

/-- CMD17 SET_CLASS. -/
def execSetClass (s : State) : Out :=
  .next (s.serve 17 State.mgmtReady (fun s v =>
    if classSettable (v % 65536) then (s.setClass (v % 65536) (bitsOf v 16 2), 1) else (s, 5)))

/-- CMD18 SET_FLUSH_MARK. -/
def execSetFlushMark (s : State) : Out :=
  .next (s.serve 18 State.mgmtReady (fun s v =>
    let m := v % 128
    if 8 ≤ m ∧ m ≤ 96 then (s.set EVREC.FLUSH_MARK.cl m, 1) else (s, 5)))

/-- CMD19 CLEAR_FLASH_FAULT. -/
def execClearFlashFault (s : State) : Out :=
  .next (s.serve 19 State.mgmtReady (fun s v =>
    if ¬ s.is EVREC.FLASH_FAULT.cl then (s, 3) else if v = 1 then (s.clearFlashFault, 1) else (s, 5)))

end Sys2Proof.Machine
end

