-- ==== Sys2Proof/Machine/Supervisor.lean ====
section
/-! DEFINITION. The supervisor line, the calendar, trust (spec/19_supervisor_trust.md). -/

namespace Sys2Proof.Machine

namespace SUPVI
/-- A reply is on the line (R599). -/
def SENDING : Reg := ireg 0x2F2 1 0
/-- Ticks since the last omitted one (R615). -/
def SLEW_PHASE : Reg := ireg 0x2000 5 0
end SUPVI

/-! Frames (R600 to R603). -/

/-- One step of CRC-16, polynomial 0x1021, over the bits of a byte. -/
def crc16Bits : Nat → Nat → Nat
  | 0, c => c
  | n + 1, c => crc16Bits n (if c < 32768 then c * 2 else Nat.xor (c * 2 % 65536) 0x1021)

/-- CRC-16 of R600 over bytes. -/
def crc16 (bs : List Nat) : Nat := bs.foldl (fun c b => crc16Bits 8 (Nat.xor c (b * 256))) 0xFFFF

/-- Bytes 1 to 5 + LEN of a frame. -/
def frameBody (dst src type seq : Nat) (payload : List Byte) : List Nat :=
  [dst, src, type, seq, payload.length] ++ payload.map BitVec.toNat

/-- The CRC a frame must carry. -/
def frameSum (f : Frame) : Nat := crc16 (frameBody f.dst.toNat f.src.toNat f.type.toNat f.seq.toNat f.payload)

/-- `n` bytes of a payload from `i`, as a little-endian number. -/
def frameLe (f : Frame) (i n : Nat) : Nat :=
  (List.range n).foldl (fun v j => v + ((f.payload.getD (i + j) 0).toNat) * 256 ^ j) 0

/-- The bytes of a number, little-endian. -/
def byteList (n v : Nat) : List Byte := (bytesLE n v).map (BitVec.ofNat 8)

/-- The tray replies to a frame: the reply's bytes are the answer (R600, R603). None to a broadcast. -/
def State.reply (s : State) (f : Frame) (payload : List Byte) : State :=
  if f.dst = 0x7F then s
  else
    let body := frameBody 0 (s.get SUPV.SLOT_ID.cl) (f.type.toNat + 128) f.seq.toNat payload
    let crc := crc16 body
    { s with answer := ((0xC3 :: body) ++ [crc % 256, crc / 256]).map (BitVec.ofNat 8) }.set SUPVI.SENDING.cl 1

/-- A reply of STATUS alone (R605). -/
def State.replyCode (s : State) (f : Frame) (code : Nat) : State := s.reply f [BitVec.ofNat 8 code]

/-- BUSY by hardware (R608). -/
def State.replyBusy (s : State) (f : Frame) : State := if f.dst = 0x7F then s else (s.replyCode f 2).count SUPV.BUSY_REPLIES.cl

/-- A frame is discarded and counted; event 0x3901 carries the counter, 0 CRC_ERR or 1 FRAMING (R601). -/
def State.badFrame (s : State) (framing : Bool) : State :=
  (s.count (if framing then SUPV.FRAMING.cl else SUPV.CRC_ERR.cl)).event SUPV.page 0x3901 framing.toNat

/-- A valid frame feeds the silence timer and ends a silence (R521, R611); a reply sent before it has left the line (R629). -/
def State.validFrame (s : State) : State :=
  let s := (s.count SUPV.FRAMES_OK.cl).setPair SUPV.LAST_VALID_LO.cl SUPV.LAST_VALID_HI.cl s.trayTime
  let s := (s.set POWI.SILENCE_SINCE.cl (s.clock + 1)).set SUPVI.SENDING.cl 0
  if ¬ s.is SUPV.SILENT.cl then s
  else
    let s := ((s.set SUPV.SILENT.cl 0).set HLS.SILENT.cl 0).set CFAN.SUPV_OVERRIDE.cl 0
    (s.event HLS.page 0x4005).coolNow

/-- A frame of a type that `server` serves is received (R601 to R603); nothing is received from the loss of the core PLL until it has relocked (R121).
[DEDUCED, log entry 35] -/
def State.receive (s : State) (f : Frame) (server : State → State) : State :=
  if s.get RECI.RUNS.cl = 0 ∨ s.get CCLK.CORE_LOCK.cl = 0 then s
  else if 240 < f.payload.length then s.badFrame true
  else if f.crc.toNat ≠ frameSum f then s.badFrame false
  else if f.src ≠ 0 then s
  else
    let s := s.validFrame
    let mine := s.is SUPV.ADDR_VALID.cl && (f.dst.toNat == s.get SUPV.SLOT_ID.cl || f.dst == 0x7F)
    if ¬ mine ∨ 128 ≤ f.type.toNat then s else server s

/-! MC3's queue (R608, R610, R628). -/

/-- A frame for MC3: answered REFUSED_STATE while MC3 does not run, BUSY where the queue is full or the frame is a duplicate of one
still queued, with the stored reply where it is a duplicate of one answered; else queued (R604, R608, R610). -/
def State.queueFrame (s : State) (f : Frame) : State :=
  let id := (f.seq.toNat, f.crc.toNat)
  if ¬ s.mcRuns 3 then s.replyCode f 3
  else if s.lastFrame = some id then
    let s := s.count SUPV.DUPLICATES.cl
    if s.rxq.any (fun x => x.frame.seq.toNat == id.1 && x.frame.crc.toNat == id.2) then s.replyBusy f
    else match s.storedReply with
      | some p => s.reply f p
      | none => s
  else if 4 ≤ s.rxq.length then s.replyBusy f
  else
    ({ s with rxq := s.rxq ++ [({ frame := f, endTime := s.trayTime, arrived := s.clock } : RxFrame)], lastFrame := some id, storedReply := none }.showRx).pageEvent
      clachasel SUPV.page 8

/-- The head frame is removed (R608). -/
def State.popRx (s : State) : State := { s with rxq := s.rxq.drop 1 }.showRx

/-- The reply to the head frame is committed: stored for duplicates, sent unless BUSY was sent at its deadline, and the frame is
popped (R608, R610). [DEDUCED, log entry 35] -/
def State.commitReply (s : State) (payload : List Byte) : State :=
  match s.rxq with
  | [] => s
  | x :: _ =>
    let last := s.lastFrame == some (x.frame.seq.toNat, x.frame.crc.toNat) && x.frame.dst != 0x7F
    let s := if last then { s with storedReply := some payload } else s
    (if x.late then s else s.reply x.frame payload).popRx

/-- MC3 replies: it writes the reply's payload and commits it. -/
def State.mc3Reply (s : State) (payload : List Byte) : State :=
  let s := s.set SUPV.TX_LEN.cl payload.length
  let s := s.each (List.range ((payload.length + 3) / 4)) (fun s i =>
    s.set (SUPV.TX_DATA.clAt i) ((List.range 4).foldl (fun v j => v + ((payload.getD (4 * i + j) 0).toNat) * 256 ^ j) 0))
  s.commitReply payload

/-- MC3 replies with STATUS alone. [DEDUCED, log entry 35] -/
def State.mc3Code (s : State) (code : Nat) : State := s.mc3Reply [BitVec.ofNat 8 code]

/-- A frame of type `type` with a payload of `len` bytes: received, or, the head of the queue, served by MC3. A frame whose LEN is
another is refused as out of range. [DEDUCED, log entry 35] -/
def State.mc3Frame (s : State) (event : FrameEvent) (type len : Nat) (act : State → RxFrame → State) : State :=
  match event with
  | .received f => if f.type.toNat % 128 = type then s.receive f (fun s => s.queueFrame f) else s
  | .served =>
    match s.rxq with
    | x :: _ =>
      if x.frame.type.toNat ≠ type ∨ ¬ s.mcRuns 3 ∨ s.get CCLK.CORE_LOCK.cl = 0 then s
      else if x.frame.payload.length ≠ len then s.mc3Code 4
      else act s x
    | [] => s

/-! Hardware-served frames (R604, R606, R621). -/

/-- The flags byte of a PING reply (R606). -/
def State.pingFlags (s : State) : Nat :=
  s.get HLS.LEAK_TRIPPED.cl + 2 * s.get CFAN.SUPV_OVERRIDE.cl + 4 * s.get CFAN.THERM_OVERRIDE.cl + 8 * s.get PFAIL.PF_NOW.cl +
    16 * s.get CAL.CAL_VALID.cl

/-- The payload of a PING reply (R606). -/
def State.pingReply (s : State) : List Byte :=
  ([0, s.get CSYS.TRAY_STATE.cl, s.get CSYS.STBY_CAUSE.cl, s.get CSYS.CORE_READY.cl, s.pingFlags, 0, 0, 0].map (BitVec.ofNat 8)) ++
    byteList 8 s.trayTime ++ byteList 4 (s.get EVREC.HEAD.cl) ++ byteList 4 0

/-- A PING frame is received and answered; a frame of a type R604 does not list is answered UNKNOWN_TYPE.
[DEDUCED, log entry 35] -/
def execPing (frame : Frame) (s : State) : Out :=
  let t := frame.type.toNat % 128
  .next (if t = 1 then s.receive frame (fun s => s.reply frame s.pingReply)
    else if t = 0 ∨ 10 ≤ t then s.receive frame (fun s => s.replyCode frame 7) else s)

/-- A frame is discarded for a gap, a stop bit, or its CRC (R601). [DEDUCED, log entry 35] -/
def execFrameError (framing : Bool) (s : State) : Out :=
  .next (if s.get RECI.RUNS.cl = 0 ∨ s.get CCLK.CORE_LOCK.cl = 0 then s else s.badFrame framing)

/-- Whether a payload names this tray (R621). -/
def State.guard (s : State) (f : Frame) : Bool := frameLe f 0 4 == s.get TRAYID.TRAY_ID_LO.cl

/-- A RESET_ARM frame writes CSYS.ARM from requester 0x020 (R138, R621). -/
def execResetArm (frame : Frame) (s : State) : Out :=
  .next (if frame.type.toNat % 128 ≠ 8 then s
    else s.receive frame (fun s => if s.guard frame then (s.armReset 0x20).replyCode frame 0 else s.replyCode frame 9))

/-- A RESET_FIRE frame writes CSYS.FIRE; the reply follows the write (R138, R621, R630). [DEDUCED, log entry 23] -/
def execResetFire (frame : Frame) (s : State) : Out :=
  .next (if frame.type.toNat % 128 ≠ 9 then s
    else s.receive frame (fun s =>
      if ¬ s.guard frame then s.replyCode frame 9
      else (s.fireReset 0x20).replyCode frame (if s.armOpen 0x20 then 0 else 3)))

/-! Frames served by MC3 (R605 to R607, R616, R619). -/

/-- The payload of a STATUS reply (R606). -/
def State.statusReply (s : State) : List Byte :=
  let dies := diesOf (s.get CSYS.DIE_INSERV.cl)
  let zones := (List.range 16).filter s.throttles
  let runOp := (dies.map (fun d => s.get (OPCTL.RUN_OP.clAt d))).min?.getD 0
  let level := ((List.range 16).filter (fun z => s.is (TZONE.ZEN.clAt z))).foldl (fun m z => max m (s.get (TZONE.LEVEL.clAt z))) 0
  let ttt := (zones.map (fun z => s.get (TZONE.TTT.clAt z))).min?.getD 0xFFFF
  let rate := (zones.map (fun z => s.temp (TZONE.R_Z.clAt z))).max?.getD 0
  ([0, s.get CSYS.TRAY_STATE.cl, s.get CSYS.DIE_INSERV.cl, s.get OPCTL.MODE.cl, runOp, level].map (BitVec.ofNat 8)) ++
    byteList 2 (s.get TEMPI.IDLE.cl) ++ byteList 4 s.highestSync ++ byteList 2 ttt ++ byteList 2 (ofSigned 16 rate) ++
    byteList 2 (s.get PFAIL.VIN.cl) ++ byteList 2 (s.get POWI.CTX_NUM.cl) ++
    byteList 8 (s.pair BLOAD.BUNDLE_ID_LO.cl BLOAD.BUNDLE_ID_HI.cl) ++ byteList 4 0

/-- STATUS (R606). -/
def execStatus (event : FrameEvent) (s : State) : Out :=
  .next (s.mc3Frame event 2 0 (fun s _ => if s.mgmtReady then s.mc3Reply s.statusReply else s.mc3Code 3))

/-- The slot of a die in which MC0's request of a kind for H with a transition ID stands, and its status. -/
def State.postedStatus (s : State) (d kind h tid : Nat) : Option Nat :=
  ((List.range 8).find? (fun j =>
    s.get (MBXI.OWNER.clAt (8 * d + j)) == 1 && s.is (MBXI.SENT.clAt (8 * d + j)) && s.get (HMBX.S_KIND.at d j) == kind &&
      s.get (HMBX.S_H.at d j) == h && s.get (HMBX.S_TID.at d j) == tid)).map (fun j => s.get (MBXI.SHOWN.clAt (8 * d + j)))

/-- The STATUS of R605 a die's answer stands for: 0 where the request is accepted or has acted. -/
def refusalOf (st : Option Nat) : Nat :=
  match st with
  | some 3 => 6
  | some 4 => 4
  | some 5 => 4
  | some 6 => 4
  | none => 4
  | _ => 0

/-- MC3 has MC0 post one request to every die in service, and replies once every die has answered (R607, R628). A request that
stands in every die already is not posted again. -/
def State.serveRequest (s : State) (x : RxFrame) (kind h tid : Nat) (post : State → State) : State :=
  let dies := diesOf (s.get CSYS.DIE_INSERV.cl)
  let stands := dies.all (fun d => (s.postedStatus d kind h tid).isSome)
  let s := if x.posted ∨ stands then s else post s
  let s := match s.rxq with
    | y :: rest => { s with rxq := { y with posted := true } :: rest }
    | [] => s
  let answers := dies.map (fun d => s.postedStatus d kind h tid)
  if answers.any (fun a => a == some 0) then s
  else match answers.find? (fun a => refusalOf a != 0) with
    | some a => s.mc3Code (refusalOf a)
    | none => s.mc3Code 1

/-- The checks all three request frames share: the tray state, OPCTL.MODE, and no supervisor silence (R98, R604, R612).
[DEDUCED, log entry 35] -/
def State.requestFrame (s : State) (ok : Bool) (act : State → State) : State :=
  if s.get CSYS.TRAY_STATE.cl < 3 ∨ s.is SUPV.SILENT.cl ∨ ¬ s.mcRuns 0 then s.mc3Code 3
  else if s.is OPCTL.MODE.cl then s.mc3Code 5
  else if ¬ ok then s.mc3Code 4
  else act s

/-- OP_SET (R604, R607). -/
def execOpSet (event : FrameEvent) (s : State) : Out :=
  .next (s.mc3Frame event 3 12 (fun s x =>
    let f := x.frame
    let kind := frameLe f 4 1
    let ok := (kind == 1 || kind == 4) && decide (frameLe f 5 1 < 8) && frameLe f 9 3 == 0
    s.requestFrame ok (fun s => s.serveRequest x kind (frameLe f 0 4) (frameLe f 8 1) (fun s =>
      s.each (diesOf (s.get CSYS.DIE_INSERV.cl)) (fun s d => (s.mc0Post d kind (frameLe f 0 4) (frameLe f 5 1 + frameLe f 6 2 * 65536) (frameLe f 8 1)).1)))))

/-- THROTTLE (R604, R607); the beats asked for are the tray's count I, and the step is counted and recorded (R493, R496). -/
def execThrottleFrame (event : FrameEvent) (s : State) : Out :=
  .next (s.mc3Frame event 4 8 (fun s x =>
    let f := x.frame
    s.requestFrame (frameLe f 5 3 == 0) (fun s => s.serveRequest x 2 (frameLe f 0 4) 0 (fun s =>
      let code := if frameLe f 4 1 < s.get TEMPI.IDLE.cl then 0x3514 else 0x3513
      let s := s.each (diesOf (s.get CSYS.DIE_INSERV.cl)) (fun s d => (s.mc0Post d 2 (frameLe f 0 4) (frameLe f 4 1 * 256) 0).1)
      ((s.set TEMPI.IDLE.cl (frameLe f 4 1)).wrap TEMPI.STEPS.cl).event TZONE.page code))))

/-- TEST_SLOT: the tray sets TESTS (R604, R607, R664). -/
def execTestSlotFrame (event : FrameEvent) (s : State) : Out :=
  .next (s.mc3Frame event 5 8 (fun s x =>
    let f := x.frame
    s.requestFrame (frameLe f 6 2 == 0) (fun s => s.serveRequest x 3 (frameLe f 0 4) 0 (fun s => s.postSlots (frameLe f 0 4) (frameLe f 4 2)))))

/-! The calendar (R613 to R617, R626, R694). -/

/-- A load of the calendar pair: applied if it is not earlier than tray time, else discarded with CFG_MISMATCH (R614). -/
def State.loadCalendar (s : State) (req value : Nat) : State :=
  if value < s.trayTime then s.regFault clachasel CAL.page CAL.TIME_HI 0 .cfgMismatch req (value / 4294967296)
  else
    let s := (s.setPair CAL.TIME_LO.cl CAL.TIME_HI.cl value).set CAL.CAL_VALID.cl 1
    (s.set CAL.SLEW.cl 0).count CAL.LOADS.cl

/-- A load of the calendar pair from MC0 to MC3 (R614). -/
def execCalendarLoad (req : Requester) (value : BitVec 64) (s : State) : Out :=
  .next (s.onWrite clachasel CAL.page CAL.TIME_HI 0 req.val (value.toNat / 4294967296) (fun s => s.loadCalendar req.val value.toNat))

/-- A calendar tick: counted, or omitted as every 32nd is while SLEW is not 0 (R615, R626, R701).
[DESIGN CHOICE, log entry 5; DEDUCED, log entry 36] -/
def execCalendarTick (s : State) : Out :=
  .next (if s.get CAL.SLEW.cl = 0 then (s.set SUPVI.SLEW_PHASE.cl 0).setPair CAL.TIME_LO.cl CAL.TIME_HI.cl (s.trayTime + 1)
    else if s.get SUPVI.SLEW_PHASE.cl = 31 then (s.set SUPVI.SLEW_PHASE.cl 0).set CAL.SLEW.cl (s.get CAL.SLEW.cl - 1)
    else (s.wrap SUPVI.SLEW_PHASE.cl).setPair CAL.TIME_LO.cl CAL.TIME_HI.cl (s.trayTime + 1))

/-- A write of SLEW replaces the count remaining (R615). [DEDUCED, log entry 36] -/
def execSlew (req : Requester) (ticks : BitVec 24) (s : State) : Out :=
  .next (s.onWrite clachasel CAL.page CAL.SLEW 0 req.val ticks.toNat (fun s => s.set CAL.SLEW.cl ticks.toNat))

/-- VDDIO_H crosses 3.00 V, with 100 mV of hysteresis: the calendar changes supply and loses no tick (R613, R627, R694, R701).
[DEDUCED, log entry 36] -/
def execSupplySwitchover (millivolts : BitVec 16) (s : State) : Out :=
  let v := millivolts.toNat
  .next (if v ≤ 3000 then s.set CAL.ON_VBAT.cl 1 else if 3100 < v then s.set CAL.ON_VBAT.cl 0 else s)

/-- VBAT is sampled (R617, R702). [DEDUCED, log entry 36] -/
def execVbatSample (millivolts : BitVec 16) (s : State) : Out :=
  let v := millivolts.toNat
  .next (if v < 2200 ∧ ¬ s.is CAL.BAT_LOW.cl then (s.set CAL.BAT_LOW.cl 1).event CAL.page 0x3905
    else if 2300 < v then s.set CAL.BAT_LOW.cl 0 else s)

/-- Both supplies of the calendar have fallen below 1.80 V: its domain resets, and event 0x3904 is due at the next power-on (R124,
R613, R694). -/
def execCalendarDomainReset (s : State) : Out := .next ((s.resetDomain .cal clachasel).set POWI.CAL_LOST.cl 1)

/-- TIME: MC3 loads the calendar forward, or slews it back (R616). It is broadcast only; one addressed to the tray is refused. -/
def execTime (event : FrameEvent) (s : State) : Out :=
  .next (s.mc3Frame event 6 8 (fun s x =>
    let f := x.frame
    if f.dst ≠ 0x7F then s.mc3Code 4
    else if ¬ s.mgmtReady then s.mc3Code 3
    else
      let t := frameLe f 0 8
      let d := t - x.endTime
      let back := x.endTime - t
      let s := s.mc3Code 0
      if 32 < d then (s.loadCalendar 4 (s.trayTime + d)).event CAL.page 0x3902 d
      else if 32 < back then (s.set CAL.SLEW.cl (min back 0xFFFFFF)).event CAL.page 0x3903 back
      else s))

/-! Identity and trust (R618, R619, R623). -/

/-- INST_TAG is written, once for the life of the tray (R618). -/
def State.writeTag (s : State) (tag : Nat) : State :=
  let s := (s.setPair TRAYID.INST_TAG_LO.cl TRAYID.INST_TAG_HI.cl tag).set TRAYID.TAG_SET.cl 1
  { s with spent := fuseKey TRAYID.INST_TAG_LO.cl :: fuseKey TRAYID.INST_TAG_HI.cl :: s.spent }.event TRAYID.page 0x3906

/-- SET_TAG (R604, R619, R631). -/
def execSetTag (event : FrameEvent) (s : State) : Out :=
  .next (s.mc3Frame event 7 16 (fun s x =>
    let f := x.frame
    if s.get CSYS.TRAY_STATE.cl ≠ 2 then s.mc3Code 3
    else if frameLe f 8 8 ≠ s.pair TRAYID.TRAY_ID_LO.cl TRAYID.TRAY_ID_HI.cl then s.mc3Code 9
    else if s.is TRAYID.TAG_SET.cl then s.mc3Code 8
    else if frameLe f 0 8 = 0 then s.mc3Code 4
    else (s.writeTag (frameLe f 0 8)).mc3Code 0))

/-- A write to REVOKEk: that of the key in force is discarded with ACCESS_ERR; 1 revokes, with event 0x3908, 0 keeps the key for ever
(R58, R623). [DEDUCED, log entry 36] -/
def execRevoke (req : Requester) (key : Fin 4) (value : BitVec 1) (s : State) : Out :=
  let k := key.val
  .next (s.onWrite clachasel TRAYID.page TRAYID.REVOKE k req.val value.toNat (fun s =>
    if k = s.get TRAYID.KEY_IN_FORCE.cl then s.regFault clachasel TRAYID.page TRAYID.REVOKE k .accessErr req.val value.toNat
    else
      let s := { s.set (TRAYID.REVOKE.clAt k) value.toNat with spent := fuseKey (TRAYID.REVOKE.clAt k) :: s.spent }
      if value = 1 then s.event TRAYID.page 0x3908 else s))

/-! Replies, deadlines, collisions, silence (R599, R608, R611, R629). -/

/-- A frame's 1,000 µs have passed without a reply committed: hardware answers BUSY, the frame stays queued (R608).
[DEDUCED, log entry 35] -/
def execReplyDeadline (s : State) : Out :=
  .next (match s.rxq.findIdx? (fun x => !x.late && decide (x.arrived + 1000 ≤ s.clock)) with
    | none => s
    | some i =>
      match s.rxq[i]? with
      | some x => { s with rxq := s.rxq.set i { x with late := true } }.replyBusy x.frame
      | none => s)

/-- TX_COMMIT: MC3's reply, TX_LEN bytes of TX_DATA, to the head frame (R608, R659). -/
def execTxCommit (req : Requester) (s : State) : Out :=
  .next (s.onWrite clachasel SUPV.page SUPV.TX_COMMIT 0 req.val 1 (fun s =>
    let n := s.get SUPV.TX_LEN.cl
    s.commitReply ((List.range n).map (fun i => BitVec.ofNat 8 (s.get (SUPV.TX_DATA.clAt (i / 4)) / 256 ^ (i % 4))))))

/-- RX_POP: the head frame is removed (R608). -/
def execRxPop (req : Requester) (s : State) : Out :=
  .next (s.onWrite clachasel SUPV.page SUPV.RX_POP 0 req.val 1 State.popRx)

/-- A bit received differs from the bit sent: the reply is abandoned, counted and recorded (R599, R629, R705). -/
def execCollision (s : State) : Out :=
  .next (if ¬ s.is SUPVI.SENDING.cl then s
    else (({ s with answer := [] }.set SUPVI.SENDING.cl 0).count SUPV.COLLISIONS.cl).event SUPV.page 0x3907)

/-- 2.000 s have passed without a valid frame: SILENT, fans and pumps to 100 % (R521, R611, R612, R625).
[DEDUCED, log entry 32] -/
def execSilence (s : State) : Out :=
  .next (if s.get RECI.RUNS.cl = 0 ∨ s.is SUPV.SILENT.cl ∨ ¬ s.heldFor POWI.SILENCE_SINCE.cl 2000000 then s
    else
      let s := ((s.set SUPV.SILENT.cl 1).set SUPV.SILENCE_SEEN.cl 1).set HLS.SILENT.cl 1
      let s := (s.pageEvent clachasel SUPV.page 9).set CFAN.SUPV_OVERRIDE.cl 1
      (s.event HLS.page 0x4004).coolNow)

end Sys2Proof.Machine
end

