-- ==== Sys2Proof/Machine/TwoWire.lean ====
section
/-! DEFINITION. The two-wire controllers TW0 to TW5 (spec/17_two_wire.md) and the loss of the core PLL (R121). -/

namespace Sys2Proof.Machine

namespace TWI
/-- The switch that is closed on TWk: segment + 1, 0 for none (R538). -/
def SWITCH : Reg := iarr 0x1300 4 0 6
/-- Recovery waits for the core PLL (R550, R562). -/
def WAITS : Reg := iarr 0x1306 1 0 6
/-- Segments due for recovery after CLEAR_STUCK (R553). -/
def SEG_DUE : Reg := iarr 0x130C 8 0 6
/-- The result that is shown once recovery has ended, 0 for none (R548). -/
def RESULT_NEXT : Reg := iarr 0x1312 4 0 6
/-- Ownership is released once recovery has ended (R546). -/
def RELEASES : Reg := iarr 0x1318 1 0 6
/-- The recovery runs on the trunk (R553). -/
def TRUNK : Reg := iarr 0x131E 1 0 6
/-- A transaction starts once recovery has ended (R553). -/
def GO_NEXT : Reg := iarr 0x1324 1 0 6
/-- The time on State.clock, plus 1, at which the GO in progress was accepted (R549). -/
def GO_AT : Reg := iarr 0x132A 64 0 6
end TWI

/-- Clachasel hardware records an event one of whose values has an encoding that the spec does not give: that value is
free (notes/assumptions/3.md). [DESIGN CHOICE, log entry 61] -/
def State.eventFree (s : State) (p : Page) (code inst : Nat) : State := (s.event p code s.free 0 0 inst).useFree

/-- ENABLE of TWk. -/
def twEnable (k : Nat) : Field := hdr HDR.ENABLE clachasel (TW.page.at k)

/-- The timing set of TWk passes the check of R543. -/
def State.twTimingOk (s : State) (k : Nat) : Bool :=
  let g := fun r : Reg => s.get (r.clAt k)
  let pick := fun l : List Nat => l.getD (g TW.SPEED) 0
  decide (g TW.SPEED < 3) &&
    decide (pick [940, 260, 100] ≤ g TW.TLOW) && decide (pick [800, 120, 52] ≤ g TW.THIGH) &&
    decide (pick [50, 20, 10] ≤ g TW.TSU_DAT) && decide (pick [60, 60, 24] ≤ g TW.THD_DAT) &&
    decide (pick [940, 120, 52] ≤ g TW.TSU_STA) && decide (pick [800, 120, 52] ≤ g TW.THD_STA) &&
    decide (pick [800, 120, 52] ≤ g TW.TSU_STO) && decide (pick [940, 260, 100] ≤ g TW.TBUF) &&
    decide (pick [0, 10, 10] ≤ g TW.FILT) && decide (g TW.TRISE ≤ pick [284, 85, 34]) &&
    decide (g TW.THD_DAT + g TW.TRISE ≤ pick [690, 180, 90]) &&
    decide (pick [1000, 500, 200] ≤ g TW.TLOW + g TW.TRISE + g TW.FILT + 3 + g TW.THIGH) &&
    decide (g TW.THD_DAT + g TW.TRISE + g TW.TSU_DAT ≤ g TW.TLOW) && decide (1 ≤ g TW.TRISE) &&
    decide (1 ≤ g TW.STRETCH_MAX) && decide (1 ≤ g TW.XFER_MAX)

/-- The reset-safe state, with no owner (R539, R545). -/
def State.twSafe (s : State) (k : Nat) : State :=
  let s := ((s.set (TWI.SWITCH.clAt k) 0).set (TW.OWNED.clAt k) 0).set (TW.OWNER.clAt k) 0
  let s := (s.set (TWI.RELEASES.clAt k) 0).set (TWI.GO_NEXT.clAt k) 0
  s.each (List.range 64) (fun s i => (s.set (TW.TXBUF.clAt (64 * k + i)) 0).set (TW.RXBUF.clAt (64 * k + i)) 0)

/-- Recovery starts, or waits for the core PLL to relock (R551, R562). [DESIGN CHOICE, log entry 61] -/
def State.twRecover (s : State) (k : Nat) : State :=
  (s.set (TW.STATE.clAt k) 1).put (TWI.WAITS.clAt k) (s.get CCLK.CORE_LOCK.cl == 0)

/-- A transaction runs, or waits for the recovery of its segment (R550, R553). -/
def State.twRunning (s : State) (k : Nat) : Bool := s.get (TW.STATE.clAt k) == 3 || s.is (TWI.GO_NEXT.clAt k)

/-- A running transaction is ended at once: event 0x3705 with the cause (R550). [DESIGN CHOICE, log entry 61] -/
def State.twCut (s : State) (k : Nat) : State :=
  if s.twRunning k then ((s.eventFree TW.page 0x3705 k).set (TWI.RESULT_NEXT.clAt k) 9).set (TWI.GO_NEXT.clAt k) 0 else s

/-- A result is shown, with PAGE_EVENT.DONE; results 5 to 9 count in FAILS and record event 0x3703 (R548). -/
def State.twResult (s : State) (k result : Nat) : State :=
  let s := (s.set (TW.RESULT.clAt k) result).pageEvent clachasel TW.page 8 k
  let s := if result = 2 ∨ result = 3 then s.count (TW.NACKS.clAt k) else s
  if 5 ≤ result ∧ result ≤ 9 then
    (s.count (TW.FAILS.clAt k)).event TW.page 0x3703
      (k + 256 * s.get (TW.SEG.clAt k) + 65536 * s.get (TW.ADDR.clAt k) + 16777216 * result) 0 0 k
  else s

/-- The owner's watchdog fires: any transaction is aborted, recovery runs, then ownership is released (R546, R651). -/
def State.twWatchdog (s : State) (k : Nat) : State :=
  let st := s.get (TW.STATE.clAt k)
  if st = 0 ∨ st = 4 then s.twSafe k
  else
    ((s.twCut k).set (TWI.RELEASES.clAt k) 1).twRecover k

/-- ENABLE is written 0: a running transaction ends at once, and the controller is DISABLED. A result and a release that wait for a
recovery keep waiting for the one that the next enable runs (R548, R550, R561). -/
def State.twDisable (s : State) (k : Nat) : State :=
  let s := s.twCut k
  ((s.set (twEnable k) 0).set (TW.STATE.clAt k) 0).set (TWI.WAITS.clAt k) 0

/-- ENABLE is written 1: the timing set is checked; one that fails leaves ENABLE at 0 with CFG_MISMATCH, one that passes runs
recovery (R543, R551). -/
def State.twEnableOn (s : State) (k req value : Nat) : State :=
  if s.is (twEnable k) then s
  else if ¬ s.twTimingOk k then s.pageFault clachasel TW.page k .cfgMismatch req (TW.page.at k + 8) value
  else ((s.set (twEnable k) 1).set (TWI.TRUNK.clAt k) 0).twRecover k

/-- ENABLE of a controller (R543). -/
def execTwoWireEnable (req : Requester) (bus : Fin 6) (s : State) : Out :=
  .next (if s.inReset clachasel then s
    else if s.resetting clachasel TW.page bus.val then s.set (twEnable bus.val) 1
    else s.twEnableOn bus.val req.val 1)

/-- CLAIM grants a free bus, or one the core owns, and else answers BUSY (R544). -/
def execTwClaim (req : Requester) (bus : Fin 6) (core : McNo) (s : State) : Out :=
  let k := bus.val
  let w := 4 * k + core.val
  .next (s.onWrite clachasel TW.page TW.CLAIM w req.val 1 (fun s =>
    if ¬ s.is (TW.OWNED.clAt k) then
      ((s.set (TW.OWNED.clAt k) 1).set (TW.OWNER.clAt k) (core.val + 1)).set (TW.CLAIM_RESULT.clAt w) 1
    else s.set (TW.CLAIM_RESULT.clAt w) (if s.get (TW.OWNER.clAt k) = core.val + 1 then 1 else 2)))

/-- RELEASE by the owner returns the controller to its reset-safe state; discarded with ACCESS_ERR while a transaction or a
recovery runs (R545). -/
def execTwRelease (req : Requester) (bus : Fin 6) (core : McNo) (s : State) : Out :=
  let k := bus.val
  let w := 4 * k + core.val
  .next (s.onWrite clachasel TW.page TW.RELEASE w req.val 2 (fun s =>
    if ¬ s.is (TW.OWNED.clAt k) ∨ s.get (TW.OWNER.clAt k) ≠ core.val + 1 then s
    else if s.get (TW.STATE.clAt k) = 1 ∨ s.get (TW.STATE.clAt k) = 3 then
      s.regFault clachasel TW.page TW.RELEASE w .accessErr req.val 2
    else (s.twSafe k).set (TW.CLAIM_RESULT.clAt w) 3))

/-! Transactions (R547, R548). -/

/-- Whether the lengths suit the operation (R547): 0 WRITE, 1 READ, 2 WRITE_READ, 3 BLOCK_READ. -/
def twLengthsOk (op wlen rlen : Nat) (pec : Bool) : Bool :=
  decide (wlen ≤ 256) && decide (rlen ≤ 256) &&
    match op with
    | 0 => true
    | 1 => decide (1 ≤ rlen) || !pec
    | 2 => decide (1 ≤ wlen) && decide (1 ≤ rlen)
    | 3 => decide (1 ≤ wlen)
    | _ => false

/-- Whether a segment is fitted (R537, R538). -/
def State.twSegFit (s : State) (k seg : Nat) : Bool :=
  if k = 0 ∨ k = 2 then seg == 0 else s.bit (TW.SEG_FIT.clAt k) seg

/-- The reason a GO is refused, 0 for none (R548). -/
def State.twRefusal (s : State) (k op seg : Nat) (pec : Bool) : Nat :=
  if ¬ twLengthsOk op (s.get (TW.WLEN.clAt k)) (s.get (TW.RLEN.clAt k)) pec then 1
  else if ¬ s.twSegFit k seg ∨ s.bit (TW.SEG_STUCK.clAt k) seg then 2
  else if s.is (TW.BUS_STUCK.clAt k) then 3
  else if s.get CCLK.CORE_LOCK.cl = 0 then 4
  else 0

/-- The switch a transaction closes (R538). -/
def twSwitch (k seg : Nat) : Nat :=
  if k = 0 ∨ k = 2 then 0 else if k = 5 then (if seg = 1 then 2 else 0) else seg + 1

/-- GO: the write of XFER by the owner, with its operation, PEC, address and segment (R544, R547, R548, R553).
[DESIGN CHOICE, log entry 61] -/
def State.twGo (s : State) (k op req : Nat) (pec : Bool) (addr seg : Nat) : State :=
  let value := 1 + 16 * op + 128 * pec.toNat + 256 * addr + 65536 * seg
  if s.inReset clachasel then s
  else if s.resetting clachasel TW.page k ∨ ¬ s.is (TW.OWNED.clAt k) ∨ s.get (TW.OWNER.clAt k) ≠ req ∨
      s.get (TW.STATE.clAt k) ≠ 2 then s.regFault clachasel TW.page TW.GO k .accessErr req value
  else
    let s := ((s.set (TW.OP.clAt k) op).put (TW.PEC.clAt k) pec).set (TW.ADDR.clAt k) addr
    let s := s.set (TW.SEG.clAt k) seg
    let reason := s.twRefusal k op seg pec
    if reason ≠ 0 then (s.set (TW.REASON.clAt k) reason).twResult k 10
    else
      let s := ((s.set (TWI.SWITCH.clAt k) (twSwitch k seg)).count (TW.TRANSACTIONS.clAt k)).set (TW.XCOUNT.clAt k) 0
      let s := ((s.set (TW.RESULT.clAt k) 0).set (TW.REASON.clAt k) 0).set (TWI.GO_AT.clAt k) (s.clock + 1)
      if s.bit (TWI.SEG_DUE.clAt k) seg then
        ((s.setBit (TWI.SEG_DUE.clAt k) seg false).set (TWI.GO_NEXT.clAt k) 1).twRecover k
      else s.set (TW.STATE.clAt k) 3

/-- GO with OP WRITE (R547). -/
def execTwWrite (req : Requester) (bus : Fin 6) (pec : Bool) (address : BitVec 7) (segment : Fin 8) (s : State) : Out :=
  .next (s.twGo bus.val 0 req.val pec address.toNat segment.val)

/-- GO with OP READ (R547). -/
def execTwRead (req : Requester) (bus : Fin 6) (pec : Bool) (address : BitVec 7) (segment : Fin 8) (s : State) : Out :=
  .next (s.twGo bus.val 1 req.val pec address.toNat segment.val)

/-- GO with OP WRITE_READ (R547). -/
def execWriteRead (req : Requester) (bus : Fin 6) (pec : Bool) (address : BitVec 7) (segment : Fin 8) (s : State) : Out :=
  .next (s.twGo bus.val 2 req.val pec address.toNat segment.val)

/-- GO with OP BLOCK_READ (R547). -/
def execBlockRead (req : Requester) (bus : Fin 6) (pec : Bool) (address : BitVec 7) (segment : Fin 8) (s : State) : Out :=
  .next (s.twGo bus.val 3 req.val pec address.toNat segment.val)

/-- The first `n` bytes of TXBUF of TWk. -/
def State.twSent (s : State) (k n : Nat) : List Nat :=
  (List.range n).map (fun i => s.get (TW.TXBUF.clAt (64 * k + i / 4)) / 2 ^ (8 * (i % 4)) % 256)

/-- The bytes of a reading transaction that its PEC covers: each address byte with its direction bit, the bytes written, the count byte
of BLOCK_READ and the bytes read (R541, R547). -/
def State.twCovered (s : State) (k blockCount : Nat) (got : List Nat) : List Nat :=
  let addr := 2 * s.get (TW.ADDR.clAt k)
  (if s.get (TW.OP.clAt k) = 1 then [] else addr :: s.twSent k (s.get (TW.WLEN.clAt k))) ++ (addr + 1) ::
    (if s.get (TW.OP.clAt k) = 3 then blockCount :: got else got)

/-- The count byte of BLOCK_READ is 0 or above RLEN (R547). -/
def State.twBadCount (s : State) (k blockCount : Nat) : Bool :=
  s.get (TW.OP.clAt k) == 3 && (blockCount == 0 || decide (s.get (TW.RLEN.clAt k) < blockCount))

/-- The result code of an end that the bus brings: a transaction whose bytes all moved ends with LEN where the count byte is out of
range, and with PEC_ERR where the PEC received is not the CRC-8 of the bytes covered (R547, R548). -/
def State.twEndCode (s : State) (k : Nat) (r : TwEnd) (got : List Nat) (blockCount pec : Nat) : Nat :=
  match r with
  | .done =>
    if s.twBadCount k blockCount then 4
    else if s.get (TW.OP.clAt k) ≠ 0 ∧ s.is (TW.PEC.clAt k) ∧ crc8 (s.twCovered k blockCount got) ≠ pec then 5
    else 1
  | .nackAddr => 2
  | .nackData => 3
  | .arbLost => 8

/-- The bytes a reading transaction stores: none of a WRITE or of a refused block count, and never more than the count or RLEN (R547,
R554). -/
def State.twGot (s : State) (k : Nat) (data : List Byte) (blockCount : Nat) : List Nat :=
  if s.get (TW.OP.clAt k) = 0 ∨ s.twBadCount k blockCount then []
  else (data.take (if s.get (TW.OP.clAt k) = 3 then blockCount else s.get (TW.RLEN.clAt k))).map BitVec.toNat

/-- Bytes received land in RXBUF, byte i at 0x200 + i; the bytes behind them in the last word read 0. -/
def State.twStore (s : State) (k : Nat) (bytes : List Nat) : State :=
  s.each (List.range ((bytes.length + 3) / 4)) (fun s i =>
    s.set (TW.RXBUF.clAt (64 * k + i)) (bytes.getD (4 * i) 0 + 256 * bytes.getD (4 * i + 1) 0 +
      65536 * bytes.getD (4 * i + 2) 0 + 16777216 * bytes.getD (4 * i + 3) 0))

/-- The running transaction ends with a result; recovery follows where R548 names it. -/
def State.twFinish (s : State) (k result : Nat) : State :=
  if 6 ≤ result ∧ result ≤ 9 then ((s.set (TWI.RESULT_NEXT.clAt k) result).set (TWI.GO_NEXT.clAt k) 0).twRecover k
  else (s.set (TW.STATE.clAt k) 2).twResult k result

/-- The transaction ends as the bus brings it: the data bytes transferred, the bytes received, the block count and the PEC
received. The last two count only where the transaction came to its end (R547, R548). [DESIGN CHOICE, log entry 61] -/
def execTransactionEnd (bus : Fin 6) (result : TwEnd) (count : Fin 257) (data : List Byte) (blockCount pec : Byte)
    (s : State) : Out :=
  let k := bus.val
  if s.get (TW.STATE.clAt k) ≠ 3 then .next s
  else
    let got := s.twGot k data blockCount.toNat
    let code := s.twEndCode k result got blockCount.toNat pec.toNat
    let s := (s.set (TW.XCOUNT.clAt k) count.val).twStore k got
    let s := if result = .done ∧ s.get (TW.OP.clAt k) = 3 then s.set (TW.RXCOUNT.clAt k) blockCount.toNat else s
    let s := if result = .done ∧ s.get (TW.OP.clAt k) ≠ 0 ∧ s.is (TW.PEC.clAt k) ∧ code ≠ 4 then s.set (TW.PEC_RX.clAt k) pec.toNat else s
    .next (s.twFinish k code)

/-- ABORT by the owner ends a running transaction at once and recovery runs (R550, R558). -/
def execAbort (req : Requester) (bus : Fin 6) (s : State) : Out :=
  let k := bus.val
  if s.inReset clachasel then .next s
  else if s.resetting clachasel TW.page k ∨ ¬ s.is (TW.OWNED.clAt k) ∨ s.get (TW.OWNER.clAt k) ≠ req.val then
    .next (s.regFault clachasel TW.page TW.ABORT k .accessErr req.val 2)
  else .next (if s.twRunning k then (s.twCut k).twRecover k else s)

/-- A target has stretched SCL beyond STRETCH_MAX (R549). -/
def execStretchTimeout (bus : Fin 6) (s : State) : Out :=
  .next (if s.get (TW.STATE.clAt bus.val) = 3 then s.twFinish bus.val 6 else s)

/-- A transaction has not ended XFER_MAX milliseconds after its GO was accepted (R549). -/
def execTransactionTimeout (bus : Fin 6) (s : State) : Out :=
  .next (if s.twRunning bus.val ∧ s.heldFor (TWI.GO_AT.clAt bus.val) (s.get (TW.XFER_MAX.clAt bus.val) * 1000) then
    s.twFinish bus.val 7 else s)

/-- What follows a recovery that has left the controller in STATE `st`: the result that waited, then the release that waited
(R546, R548). -/
def State.twSettle (s : State) (k st : Nat) : State :=
  let s := (s.set (TW.STATE.clAt k) st).set (TWI.TRUNK.clAt k) 0
  let s := if s.get (TWI.RESULT_NEXT.clAt k) = 0 then s
    else (s.twResult k (s.get (TWI.RESULT_NEXT.clAt k))).set (TWI.RESULT_NEXT.clAt k) 0
  if s.is (TWI.RELEASES.clAt k) then s.twSafe k else s

/-- Recovery ends: in success, or failing on SDA (`scl` false) or SCL; after a failure on a segment its switch opens and the
trunk is sampled (R551, R552). [DESIGN CHOICE, log entry 61] -/
def execRecoveryEnd (bus : Fin 6) (ok scl trunkHigh : Bool) (s : State) : Out :=
  let k := bus.val
  if s.get (TW.STATE.clAt k) ≠ 1 ∨ s.is (TWI.WAITS.clAt k) then .next s
  else if ok then
    let s := s.count (TW.RECOVERIES.clAt k)
    if s.is (TWI.GO_NEXT.clAt k) ∧ ¬ s.is (TWI.RELEASES.clAt k) then
      .next ((s.set (TWI.GO_NEXT.clAt k) 0).set (TW.STATE.clAt k) 3)
    else .next ((s.set (TWI.GO_NEXT.clAt k) 0).twSettle k 2)
  else
    let cause := if scl then 2 else 1
    let sw := s.get (TWI.SWITCH.clAt k)
    let onSegment := sw ≠ 0 ∧ ¬ s.is (TWI.TRUNK.clAt k)
    let waited := s.is (TWI.GO_NEXT.clAt k)
    let s := (s.set (TWI.SWITCH.clAt k) 0).set (TWI.GO_NEXT.clAt k) 0
    if onSegment ∧ trunkHigh then
      let s := (s.setBit (TW.SEG_STUCK.clAt k) (sw - 1) true).event TW.page 0x3702 (sw - 1 + 256 * cause) 0 0 k
      let s := if waited then (s.set (TW.REASON.clAt k) 2).twResult k 10 else s
      .next (s.twSettle k 2)
    else
      let s := ((s.set (TW.BUS_STUCK.clAt k) 1).set (TW.CAUSE.clAt k) cause).event TW.page 0x3701 0 0 0 k
      let s := if waited then (s.set (TW.REASON.clAt k) 3).twResult k 10 else s
      .next ((s.pageEvent clachasel TW.page 9 k).twSettle k 4)

/-- CLEAR_STUCK clears BUS_STUCK and every SEG_STUCK bit and runs recovery on the trunk (R553). -/
def execClearStuck (req : Requester) (bus : Fin 6) (s : State) : Out :=
  let k := bus.val
  .next (s.onWrite clachasel TW.page TW.CLEAR_STUCK k req.val 65536 (fun s =>
    let due := Nat.lor (s.get (TWI.SEG_DUE.clAt k)) (s.get (TW.SEG_STUCK.clAt k))
    let s := ((s.set (TWI.SEG_DUE.clAt k) due).set (TW.SEG_STUCK.clAt k) 0).set (TW.BUS_STUCK.clAt k) 0
    let s := s.set (TW.CAUSE.clAt k) 0
    let st := s.get (TW.STATE.clAt k)
    if st = 0 ∨ s.twRunning k then s else ((s.set (TWI.SWITCH.clAt k) 0).set (TWI.TRUNK.clAt k) 1).twRecover k))

/-! The core PLL (R121, R550, R562). -/

/-- The core PLL loses lock: the core clock falls back, event 0x3011, and every controller's work ends until relock. -/
def execCorePllLoss (s : State) : Out :=
  if s.get CCLK.CORE_LOCK.cl = 0 then .next s
  else
    let s := ((s.set CCLK.CORE_LOCK.cl 0).set CCLK.CORE_FALLBACK.cl 1).event CCLK.page 0x3011
    .next (s.each (List.range 6) (fun s k =>
      if s.get (TW.STATE.clAt k) = 1 ∨ s.get (TW.STATE.clAt k) = 3 then (s.twCut k).twRecover k else s))

/-- The core PLL relocks: recoveries that waited run from their first step (R550, R562). -/
def execCorePllRelock (s : State) : Out :=
  .next ((s.set CCLK.CORE_LOCK.cl 1).each (List.range 6) (fun s k => s.set (TWI.WAITS.clAt k) 0))

end Sys2Proof.Machine
end

