-- ==== Sys2Proof/Machine/Watchdog.lean ====
section
/-! DEFINITION. A watchdog fires (R155 to R157 of spec/05_firmware.md, R651 of spec/20_failure.md); the emulated page is swapped
(R106, R160, R496, R529, R589, R673). -/

namespace Sys2Proof.Machine

/-! What a firing releases (R651). -/

/-- The two-wire buses a management core owns. -/
def State.busesOf (s : State) (k : Nat) : List Nat :=
  (List.range 6).filter (fun b => s.is (TW.OWNED.clAt b) && s.get (TW.OWNER.clAt b) == k + 1)

/-- The mailbox slots a management core owns, as 8n + slot. -/
def State.slotsOf (s : State) (k : Nat) : List Nat := (List.range 64).filter (fun i => s.get (MBXI.OWNER.clAt i) == k + 1)

/-- The semaphores a management core holds. -/
def State.semsOf (s : State) (k : Nat) : List Nat :=
  (List.range 16).filter (fun m => s.is (OWN.SEM_HELD.clAt m) && s.get (OWN.SEM_OWNER.clAt m) == k + 1)

/-- A mailbox slot of a core whose watchdog fired: one sent and not terminal passes to requester 0x005 and still acts; any other is
freed (R651). [DEDUCED, log entry 27] -/
def State.passSlot (s : State) (k i : Nat) : State :=
  if s.is (MBXI.SENT.clAt i) ∧ ¬ mbxTerminal (s.get (MBXI.SHOWN.clAt i)) then
    let s := s.set (MBXI.OWNER.clAt i) 5
    if s.get (MBXI.HELD.clAt (8 * k + i / 8)) = i % 8 + 1 then (s.set (MBXI.HELD.clAt (8 * k + i / 8)) 0).showWindow k else s
  else (s.freeSlot (i / 8) (i % 8)).setBit (HOLDI.DUE.on (i / 8)) (i % 8) false

/-- Hardware releases what management core k owns and records event 0x3A01 with the core and the kinds (R651).
[DEDUCED, log entry 27] -/
def State.releaseCore (s : State) (k : Nat) : State :=
  let buses := s.busesOf k
  let slots := s.slotsOf k
  let sems := s.semsOf k
  let kinds := (decide (buses ≠ [])).toNat + 2 * (s.reservedBy k).isSome.toNat + 4 * (decide (slots ≠ [])).toNat + 8 * (decide (sems ≠ [])).toNat
  let s := (s.each buses State.twWatchdog).voidReservation k 3
  let s := s.each slots (fun s i => s.passSlot k i)
  let s := s.each sems (fun s m => (s.set (OWN.SEM_HELD.clAt m) 0).set (OWN.SEM_OWNER.clAt m) 0)
  if kinds = 0 then s
  else (((s.set OWN.LAST_CORE.cl (k + 1)).set OWN.LAST_KINDS.cl kinds).count OWN.RELEASES.cl).event OWN.page 0x3A01 (k + 256 * kinds)

/-! The firing (R155, R156). -/

/-- Fires of a core in the last 10 s. -/
def State.firesOf (s : State) (i : Nat) : List Nat := ((aget s.fires i).getD []).filter (fun t => decide (s.clock < t + 10000000))

/-- A fire is entered in the core's record of the last 10 s. -/
def State.addFire (s : State) (i : Nat) : State := { s with fires := aput s.fires i (s.clock :: s.firesOf i) }

/-- MCk's watchdog fires: core reset, its resources released, event 0x3020, MC_WDT counted; beyond RESTART_LIMIT fires in 10 s it is
held with event 0x3021 and the tray is out of service (R140, R155, R156, R628, R645). [DEDUCED, log entry 27] -/
def State.mcFires (s : State) (k : Nat) : State :=
  let s := (((s.stopMc k).set (MCCTL.WDT_REMAIN.clAt k) 0).setBit CSYS.CORE_READY.cl k false).addFire k
  let byte := bitsOf (s.get CRST.MC_WDT.cl) (8 * k) 8
  let s := if byte = 255 then s else s.set CRST.MC_WDT.cl (s.get CRST.MC_WDT.cl + 2 ^ (8 * k))
  let s := s.set (MCCTL.FIRES_10S.clAt k) (min 255 (s.firesOf k).length)
  let s := (s.event MCCTL.page 0x3020 k).releaseCore k
  let s := if k = 3 then s.emptyRx else s
  if (s.firesOf k).length ≤ s.get MCCTL.RESTART_LIMIT.cl then s
  else ((s.set (MCCTL.HELD.clAt k) 1).event MCCTL.page 0x3021).outOfService 2

/-- A warden core's watchdog fires: core reset, its heap blocks released, event 0x2011, WDT_FIRES counted; beyond RESTART_LIMIT fires
in 10 s it is held with event 0x2012, the die asserts DIE_FAULT_n and its context is FAULTED (R155, R156, R294, R387, R639).
[DEDUCED, log entry 27] -/
def State.wardenFires (s : State) (d k : Nat) : State :=
  let i := 16 + 2 * d + k
  let s := ((s.set (wRun d k) 0).set (WCORE.WDT_REMAIN.at d k) 0).addFire i
  let s := (s.count (WCORE.WDT_FIRES.at d k)).dieEvent d WCORE.page 0x2011 0 0 0 k
  let s := s.releaseBlocks d k
  if (s.firesOf i).length ≤ s.get (WLOAD.RESTART_LIMIT.on d) then s
  else (((s.set (wHeld d k) 1).dieEvent d WCORE.page 0x2012 0 0 0 k).dieFault d 1).contextFault d 6

/-- The watchdog of a core that runs has reached 0 (R153, R155). -/
def execWatchdogFire (core : Core) (s : State) : Out :=
  match core with
  | .mc k => .next (if s.mcRuns k.val ∧ s.watchLeft (watchMc k.val) = 0 then s.mcFires k.val else s)
  | .warden d k => .next (if s.inReset d.val ∨ ¬ s.is (wRun d.val k.val) ∨ s.watchLeft (watchW d.val k.val) ≠ 0 then s
      else s.wardenFires d.val k.val)

/-! The emulated page (R160). -/

/-- A word of fields: each a value, its low bit and its width. -/
def packFields (l : List (Nat × Nat × Nat)) : Nat := l.foldl (fun v e => v + e.1 % 2 ^ e.2.2 * 2 ^ e.2.1) 0

/-- Load consecutive words of a published summary. [DEDUCED, log entry 28] -/
def State.publishWords (s : State) (r : Reg) (at_ : Nat) (words : List Nat) : State :=
  s.each (List.range words.length) (fun s i => s.set (r.clAt (at_ + i)) (words.getD i 0))

/-- The word of die n (R106). -/
def State.opWord (s : State) (n : Nat) : Nat :=
  packFields [(s.dieState n, 0, 3), (s.get (OPCTL.RUN_OP.clAt n), 4, 3), (s.get (OPCTL.TID.clAt n), 8, 8), (s.get (OPCTL.SLEWING.clAt n), 16, 1), ((s.fenced n).toNat, 17, 1), ((s.tripped n).toNat, 18, 1), (s.get (FENCE.LOST.clAt n), 19, 1), (s.get (MBXI.LAST.clAt n), 20, 4)]

/-- The power and die-state summaries (R106). -/
def State.opWords (s : State) : List Nat :=
  (List.range 8).map s.opWord ++
    [packFields [(s.get CSYS.DIE_INSERV.cl, 0, 8), (s.get CSYS.DIE_READY.cl, 8, 8), (s.get SEQ.MAIN.cl, 16, 2), (s.get SEQ.IBC_OK.cl, 18, 4), (s.get SEQ.IBC_LOST.cl, 22, 4), (s.get PFAIL.PF_NOW.cl, 26, 1), (s.get FENCE.OOS.cl, 27, 1)],
     packFields [(s.get PFAIL.VIN.cl, 0, 16), (s.get HLS.IIN.cl, 16, 8)], s.highestSync, s.get PFAIL.PF_COUNT.cl]

/-- The temperature summaries of the sensors at 0x400 (R496). -/
def State.sensorWords (s : State) : List Nat :=
  (List.range 48).map (fun k => packFields [(s.get (TSTAT.VALUE.clAt k), 0, 16), (s.get (TSTAT.STATE.clAt k), 16, 3), (s.get (TSTAT.DEGRADED.clAt k), 19, 1)])

/-- The temperature summaries of the zones at 0x4C0, then 0x500, 0x540 and 0x544 (R496). -/
def State.zoneWords (s : State) : List Nat :=
  (List.range 16).map (fun z => packFields [(s.get (TZONE.T_Z.clAt z), 0, 16), (s.get (TZONE.LEVEL.clAt z), 16, 2), (s.get (TZONE.RATE_HIGH.clAt z), 18, 1), (s.get (TZONE.TRIP_LATCH.clAt z), 19, 1)]) ++
    (List.range 16).map (fun z => packFields [(s.get (TZONE.TTT.clAt z), 0, 16), (s.get (TZONE.R_Z.clAt z), 16, 16)]) ++
    [packFields [(s.get TEMPI.IDLE.cl, 0, 16), (s.get TEMPI.STEPS.cl, 16, 16)], s.get TALERT.ALERT_NOW.cl]

/-- The word of cooling output k: fans 0 to 11, pumps 12 and 13 (R529). -/
def State.coolWord (s : State) (k : Nat) : Nat :=
  let rpm := if k < 12 then s.get (CFAN.RPM.clAt k) else s.get (CPUMP.RPM.clAt (k - 12))
  packFields [(s.get (dutyOf k), 0, 10), (s.get (faultOf k), 12, 1), ((s.fitted k).toNat, 13, 1), (rpm, 16, 16)]

/-- The word of leak channel n (R529). -/
def State.leakWord (s : State) (n : Nat) : Nat :=
  packFields [(s.get (LEAKI.MEAS.clAt n), 0, 16), (s.get (CLEAK.ALARM.clAt n), 16, 1), (s.get (CLEAK.OPEN.clAt n), 17, 1), (s.get (CLEAK.TRIPPED.clAt n), 18, 1), (s.get (CLEAK.UNPROVEN.clAt n), 19, 1), (s.get (CLEAK.WARN.clAt n), 20, 1)]

/-- The word of flow input f (R529). -/
def State.flowWord (s : State) (f : Nat) : Nat :=
  packFields [(s.get (CPUMP.FL_RATE.clAt f), 0, 16), (s.get (CPUMP.FL_FAULT.clAt f), 16, 1), ((s.bit CFAN.FLOW_FIT.cl f).toNat, 17, 1)]

/-- The words of the overrides and of the floors, at 0x680 and 0x684 (R529). -/
def State.floorWords (s : State) : List Nat :=
  packFields [(s.get CFAN.STANDBY_REGIME.cl, 0, 1), (s.get CFAN.SUPV_OVERRIDE.cl, 1, 1), (s.get CFAN.THERM_OVERRIDE.cl, 2, 1), (s.get CFAN.LEAK_TRIP.cl, 3, 1), (s.get CPUMP.FLOW_PROVEN.cl, 4, 1)] ::
    (List.range 4).map (fun g => packFields [(s.get (CFAN.HOST_FLOOR.clAt g), 0, 10), (if g < 2 then s.get (CPUMP.HOST_FLOOR.clAt g) else 0, 16, 10)])

/-- The recorder's words at 0x900 (R589). -/
def State.recorderWords (s : State) : List Nat :=
  [s.get EVREC.HEAD.cl, s.get EVREC.COMMITTED_TO.cl, s.get EVREC.FLUSH_NEXT.cl, s.get EVREC.OLDEST.cl,
   packFields [(s.get EVREC.FREE.cl, 0, 13), (s.get EVREC.FLUSHING.cl, 16, 1), (s.get EVREC.FLASH_FAULT.cl, 17, 1), (s.get EVREC.ERASE_WAIT.cl, 18, 1)], s.get EVREC.LOST.cl, s.get EVREC.SUPPRESSED_TOTAL.cl]

/-- The self-test words at 0xA00, from what the dies' events have told (R20, R673). [DEDUCED, log entry 28] -/
def State.testWords (s : State) : List Nat :=
  let slots := (List.range 8).foldl (fun m d => max m (s.get (TESTI.SLOTS.clAt d))) 0
  (List.range 8).map (fun n => packFields [(s.get (TESTI.PEND.clAt n), 0, 3), (s.get (TESTI.TAKEN.clAt n), 4, 3), (s.get (TESTI.DEFERRED.clAt n), 8, 3), (min 15 (s.get (TESTI.COLS.clAt n)), 12, 4), (s.get (TESTI.SKIP_WAIT.clAt n), 16, 1)]) ++
    [s.get (AFEI.LAST_CAL.clAt 0), s.get (AFEI.LAST_CAL.clAt 1), packFields [(s.get TESTI.PERIOD.cl, 0, 16), (slots, 16, 16)]]

/-- The cooling summaries at 0x600, 0x640, 0x650, 0x660, 0x670 and 0x680 (R529). -/
def State.publishCooling (s : State) : State :=
  let t := s
  let s := (s.publishWords EMU.SUM_COOL 0 ((List.range 12).map t.coolWord)).publishWords EMU.SUM_COOL 16 [t.coolWord 12, t.coolWord 13]
  let s := s.publishWords EMU.SUM_COOL 20 [t.flowWord 0, t.flowWord 1]
  let s := s.publishWords EMU.SUM_COOL 24 ((List.range 4).map (fun g => packFields [(t.get (CFAN.TARGET.clAt g), 0, 10), (t.get (CFAN.ROW.clAt g), 10, 3)]))
  (s.publishWords EMU.SUM_COOL 28 ((List.range 4).map t.leakWord)).publishWords EMU.SUM_COOL 32 t.floorWords

/-- MC3 swaps the banks: `vin` and `iin` are what the last millisecond measured of the input, PUB_SEQ counts up, PUB_TIME takes
the tray time of the snapshot, the summaries carry the values of the snapshot, STALE clears (R106, R160, R161, R496, R529, R589,
R673). [DEDUCED, log entry 28] -/
def execPublishSwap (vin : BitVec 16) (iin : BitVec 8) (s : State) : Out :=
  let s := if s.inReset clachasel then s else (s.set PFAIL.VIN.cl vin.toNat).set HLS.IIN.cl iin.toNat
  if ¬ s.mcRuns 3 then .next s
  else
    let t := s
    let s := (s.wrap EMU.PUB_SEQ.cl).setPair EMU.PUB_TIME_LO.cl EMU.PUB_TIME_HI.cl t.trayTime
    let s := s.setPair EMU.BUNDLE_ID_LO.cl EMU.BUNDLE_ID_HI.cl (t.pair BLOAD.BUNDLE_ID_LO.cl BLOAD.BUNDLE_ID_HI.cl)
    let s := ((s.set EMU.TRAY_STATE.cl (t.get CSYS.TRAY_STATE.cl)).set EMU.STBY_CAUSE.cl (t.get CSYS.STBY_CAUSE.cl)).set EMU.CTX_NUM.cl (t.get POWI.CTX_NUM.cl)
    let s := s.each (List.range 20) (fun s k => s.set (EMU.VAL.clAt k) (t.get (FWI.VAL.clAt k)))
    let s := (s.publishWords EMU.SUM_TEMP 0 t.sensorWords).publishWords EMU.SUM_TEMP 48 t.zoneWords
    let s := (s.publishCooling.publishWords EMU.SUM_OP 0 t.opWords).publishWords EMU.SUM_EVREC 0 t.recorderWords
    .next ((s.publishWords EMU.SUM_TEST 0 t.testWords).set EMU.STALE.cl 0)

end Sys2Proof.Machine
end

