-- ==== Sys2Proof/Machine/Fields.lean ====
section
/-! DEFINITION. Register fields as an access meets them: what a read shows, what bars a write, what a write does (R14, R46 to R62,
R69, R73 of spec/02_register_pages.md, and the owning chapters). -/

namespace Sys2Proof.Machine

/-! What a read shows. -/

/-- A word of a ring record of a die's deep memory. -/
def State.ringWord (s : State) (d lo hi log cons size i : Nat) : Nat :=
  s.word d ((lo + 4294967296 * hi) % 1099511627776 + size * (cons % 2 ^ log) + 4 * i)

/-- The fields of a die page that show something selected, by their register (R198, R242, R351, R389, R398, R402). -/
def State.dieView (s : State) (d : Nat) (r : Reg) (i : Nat) : Option Nat :=
  let g := s.gate d (s.get (GATE.GUSEL.on d))
  let k := s.slink d (s.get (SLINK.LSEL.on d))
  let t := s.tum d (64 * s.get (TPROBE.ROW.on d) + s.get (TPROBE.COL.on d))
  let x := s.run d (s.get (RUNS.RSEL.on d))
  if r.same GATE.IN_FILL then some g.ingress.length
  else if r.same GATE.EG_FILL then some g.egress.length
  else if r.same GATE.ACTIVE then
    some (match (s.die d).active with | some key => (key.gates.any (fun p => p.gate == s.get (GATE.GUSEL.on d))).toNat | none => 0)
  else if r.same GATE.FREEZE_UNDER then some g.freezeUnder
  else if r.same GATE.FREEZE_OVER then some g.freezeOver
  else if r.same GATE.LEFTOVER then some g.leftover
  else if r.same SLINK.CREDITS then some k.credits
  else if r.same SLINK.BUF_FILL then some k.acks.length
  else if r.same SLINK.SSTATE then some k.state
  else if r.same SLINK.PERIOD then some (match k.table with | some y => y.period | none => 0)
  else if r.same SLINK.TABLE_KEY then some k.tableKey
  else if r.same SLINK.ALT_REC then some k.altRec.toNat
  else if r.same SLINK.RESENT then some k.resent
  else if r.same SLINK.NAKS_SENT then some k.naksSent
  else if r.same SLINK.NAKS_IGNORED then some k.naksIgnored
  else if r.same SLINK.CREDIT_WAIT then some k.creditWait
  else if r.same TPROBE.FLAGS then some t.pFlags
  else if r.same TPROBE.HALTED then some t.pHalted.toNat
  else if r.same TPROBE.ADDR then some t.pAddr
  else if r.same TPROBE.BANK then some (s.get (ARRI.LAST_BANK.on d))
  else if r.same TPROBE.L0_COUNT then some t.pL0
  else if r.same TPROBE.L0_START then some t.pL0Start
  else if r.same TPROBE.L1_COUNT then some t.pL1
  else if r.same TPROBE.L1_START then some t.pL1Start
  else if r.same RUNS.HELD then some (s.die d).runs.length
  else if r.same RUNS.CARRIED then some ((s.die d).runs.filter (fun e => e.2.state == .carried)).length
  else if r.same RUNS.RSTATE then
    some (match x with
      | none => 0
      | some y => match y.state with | .admitted => 1 | .copyIn => 2 | .carried => 3 | .copyOut => 4 | .recordWait => 5)
  else if r.same RUNS.RTAG then some (match x with | some y => y.tag | none => 0)
  else if r.same RING.CQ_VIEW then
    some (s.ringWord d (s.get (RING.CQ_BASE_LO.on d)) (s.get (RING.CQ_BASE_HI.on d)) (s.get (RING.CQ_LOG2.on d)) (s.get (RING.CQ_CONS.on d)) 32 i)
  else if r.same FAULT.FQ_VIEW then
    some (s.ringWord d (s.get (FAULT.FQ_BASE_LO.on d)) (s.get (FAULT.FQ_BASE_HI.on d)) (s.get (FAULT.FQ_LOG2.on d)) (s.get (FAULT.FQ_CONS.on d)) 64 i)
  else if r.same WCORE.WDT_REMAIN then some (s.watchLeft (watchW d i))
  else if r.same FAULT.FWD_VIEW then some (((s.die d).fwdq.headD []).getD i 0)
  else none

/-- The fields of a Clachasel page that show something selected or counted in time (R156, R573, R574).
[DEDUCED, log entry 27] -/
def State.clView (s : State) (r : Reg) (i : Nat) : Option Nat :=
  if r.same EVRATE.CM_NOW then some (s.classOf (s.get EVRATE.CM_CODE.cl))
  else if r.same EVRATE.CM_SUPPRESSED then some (s.suppressedOf (s.get EVRATE.CM_CODE.cl))
  else if r.same MCCTL.FIRES_10S then some (min 255 (s.firesOf i).length)
  else if r.same MCCTL.WDT_REMAIN then some (s.watchLeft (watchMc i))
  else none

/-- What a read of a field shows: 0 for WO, the shadow copy while VIEW_ACTIVE is 0 (R14, R62). -/
def State.shown (s : State) (chip : Nat) (p : Page) (inst : Nat) (r : Reg) (i : Nat) : Nat :=
  if r.kind = .wo then 0
  else
    match (if chip < 8 then s.dieView chip r i else s.clView r i) with
    | some v => v % 2 ^ r.width
    | none =>
      if r.shadowed ∧ ¬ s.is (hdr HDR.VIEW_ACTIVE chip (p.at inst)) then s.getShadow (r.at chip i) else s.get (r.at chip i)

/-- What a field reads in soft reset: its Reset value (R61). -/
def State.shownReset (s : State) (chip : Nat) (r : Reg) (i : Nat) : Nat :=
  if r.factory then s.get (r.at chip i) else (r.at chip i).reset

/-- A register of the header of a page, by its offset (R45). [DESIGN CHOICE, log entry 3] -/
def State.headerWord (s : State) (chip : Nat) (p : Page) (inst o : Nat) : Nat :=
  let h := fun (r : Reg) => s.get (hdr r chip (p.at inst))
  let busy := s.resetting chip p inst
  let own := chip == 8 && p.base == AFECTL.page.base
  let enabled := if own then h HDR.ENABLED else if busy then 0 else h HDR.ENABLE
  match o / 4 with
  | 0 => p.block * 65536 + inst * 256 + 1
  | 1 => (Config.pageRev (p.block + 65536 * chip)).toNat
  | 2 => h HDR.ENABLE + 4 * h HDR.VIEW_ACTIVE
  | 3 => enabled + 2 * busy.toNat + 4 * h HDR.LOCK + 8 * (s.shadowDirty chip p inst).toNat + 16 * h HDR.COMMIT_PENDING
  | 4 => h HDR.EVENT
  | 5 => h HDR.EVENT_EN
  | 6 => h HDR.LOCK
  | 7 => h HDR.FAULT
  | 9 => h HDR.GEN
  | _ => 0

/-- Whether the emulated page is not served (R159). -/
def State.unserved (s : State) (chip : Nat) (p : Page) : Bool := chip == 8 && p.base == EMU.page.base && !s.is EMU.SERVED.cl

/-- What a read of the word at a BAR0 offset returns (R45, R51, R61, R159). [DESIGN CHOICE, log entry 11] -/
def State.readWord (s : State) (chip off : Nat) : Nat :=
  match pageAt chip off with
  | none => 0
  | some (p, inst) =>
    if s.unserved chip p then 0
    else if off - p.at inst < 0x40 then s.headerWord chip p inst (off - p.at inst)
    else if s.resetting chip p inst then
      (fieldsAt p off).foldl (fun v x => v + s.shownReset chip x.1 x.2 * 2 ^ x.1.lo) 0
    else (fieldsAt p off).foldl (fun v x => v + s.shown chip p inst x.1 x.2 * 2 ^ x.1.lo) 0

/-! What bars a write. -/

/-- The timing set of a two-wire controller (R69, R543). -/
def twTiming : List Reg :=
  [TW.SPEED, TW.FILT, TW.TLOW, TW.THIGH, TW.TSU_DAT, TW.THD_DAT, TW.TSU_STA, TW.THD_STA, TW.TSU_STO, TW.TBUF, TW.TRISE, TW.STRETCH_MAX,
   TW.XFER_MAX]

/-- XFER, LENGTHS and TXBUF, which only the owner writes (R544). -/
def twOwned : List Reg := [TW.OP, TW.PEC, TW.ADDR, TW.SEG, TW.WLEN, TW.RLEN, TW.TXBUF]

/-- The fields that CARVE_LOCKED locks (R275). -/
def carved : List Reg := [PART.BASE, PART.SIZE, WIN.BASE, WIN.LIMIT, WIN.R, WIN.W, WIN.X, WIN.EN, HEAP.COUNT]

/-- The fields written only while the context is CLOSED (R379, R380). -/
def whileClosed : List Reg :=
  [CTX.CTX_NUM, RING.SQ_BASE_LO, RING.SQ_BASE_HI, RING.SQ_LOG2, RING.CQ_BASE_LO, RING.CQ_BASE_HI, RING.CQ_LOG2, FAULT.FQ_BASE_LO,
   FAULT.FQ_BASE_HI, FAULT.FQ_LOG2]

/-- Whether a watchdog timeout is out of range (R154). -/
def badTimeout (v : Nat) : Bool := decide (v < 100 ∨ 1000000 < v)

/-- What bars a write to a field of a die by its owning chapter. [DEDUCED, log entries 17, 19] -/
def State.dieBar (s : State) (d : Nat) (r : Reg) (i v : Nat) : Option FaultBit :=
  if r.among carved ∧ s.is (PART.CARVE_LOCKED.on d) then some .lockViol
  else if r.among whileClosed ∧ s.get (CTX.STATE.on d) ≠ 0 then some .lockViol
  else if r.among [KRING.BASE_LO, KRING.BASE_HI] ∧ (s.get (CTX.STATE.on d) ≠ 1 ∨ s.is (KRING.VERIFIED.on d)) then some .lockViol
  else if r.among [WIN.BASE, WIN.LIMIT] ∧ s.is (WIN.EN.at d i) then some .accessErr
  else if r.among [WIN.R, WIN.W, WIN.X] ∧ s.is (WIN.EN.at d i) then some .accessErr
  else if r.same WLOAD.IMG_SEL ∧ s.is (FWI.RELEASED.at d v) then some .accessErr
  else if r.same WLOAD.IMG_ADDR ∧ s.is (FWI.RELEASED.at d (s.get (WLOAD.IMG_SEL.on d))) then some .accessErr
  else if r.same WCORE.WDT_TIMEOUT ∧ badTimeout v then some .accessErr
  else none

/-- What bars a write to a field of the Clachasel by its owning chapter. -/
def State.clBar (s : State) (r : Reg) (inst i req v : Nat) : Option FaultBit :=
  if r.among twTiming ∧ s.is (twEnable inst) then some .accessErr
  else if r.among twOwned ∧ (¬ s.is (TW.OWNED.clAt inst) ∨ s.get (TW.OWNER.clAt inst) ≠ req) then some .accessErr
  else if r.same MCCTL.WDT_TIMEOUT ∧ badTimeout v ∧ i < 4 then some .accessErr
  else none

/-- What bars a write of `v` to a field: a lock (R58), the requester (R52), a pending commit (R67), the owning chapter; none, if
it is applied. [DEDUCED, log entry 12] -/
def State.barOf (s : State) (chip : Nat) (p : Page) (inst : Nat) (r : Reg) (i req v : Nat) : Option FaultBit :=
  if r.kind = .ro then none
  else if s.lockedField chip p inst r i then some .lockViol
  else if ¬ r.accepts i req then some .accessErr
  else if r.shadowed ∧ s.is (hdr HDR.COMMIT_PENDING chip (p.at inst)) then some .accessErr
  else if chip < 8 then s.dieBar chip r i v
  else s.clBar r inst i req v

/-! What a write does. -/

/-- The bits of a level-held W1C field whose condition persists (R73). -/
def State.levelHeld (s : State) (chip : Nat) (r : Reg) (i : Nat) : Nat :=
  if chip < 8 then 0
  else if r.same PFAIL.PF_SEEN then s.get PFAIL.PF_NOW.cl
  else if r.same CCLK.CORE_FALLBACK then (decide (s.get CCLK.CORE_LOCK.cl = 0)).toNat
  else if r.same CSB.DOWN then (decide (s.get (CSB.UP.clAt i) = 0)).toNat
  else if r.same TALERT.ALERT_SEEN then s.get TALERT.ALERT_NOW.cl
  else if r.same TZONE.TRIP_LATCH then (s.tripHeld i).toNat
  else if r.same SUPV.SILENCE_SEEN then s.get SUPV.SILENT.cl
  else 0

/-- The bits of `v` cleared, those of `held` kept (R14, R73). -/
def clearBits (w old v held : Nat) : Nat :=
  (List.range w).foldl (fun a k => if old.testBit k && (!v.testBit k || held.testBit k) then a + 2 ^ k else a) 0

/-- A CNT field of the unit that GUSEL or LSEL selects takes the value written. -/
def State.loadSelected (s : State) (d : Nat) (r : Reg) (v : Nat) : State :=
  let k := s.get (GATE.GUSEL.on d)
  let g := s.gate d k
  let l := s.get (SLINK.LSEL.on d)
  if r.same GATE.FREEZE_UNDER then s.setGate d k { g with freezeUnder := v }
  else if r.same GATE.FREEZE_OVER then s.setGate d k { g with freezeOver := v }
  else if r.same GATE.LEFTOVER then s.setGate d k { g with leftover := v }
  else if r.same SLINK.RESENT then s.onSlink d l (fun x => { x with resent := v })
  else if r.same SLINK.NAKS_SENT then s.onSlink d l (fun x => { x with naksSent := v })
  else if r.same SLINK.NAKS_IGNORED then s.onSlink d l (fun x => { x with naksIgnored := v })
  else if r.same SLINK.CREDIT_WAIT then s.onSlink d l (fun x => { x with creditWait := v })
  else s

/-- What follows a write to a field of a die (R93, R134, R222). -/
def State.afterDieWrite (s : State) (d : Nat) (r : Reg) (i v : Nat) : State :=
  if r.same CSKIP.SKIP then s.setBit (SKIPI.WRITTEN.on d) i true
  else if r.same HMBX.S_VALID then if v = 1 then s.slotValid d i else s.setBit (HOLDI.DUE.on d) i false
  else if r.same HLID.PEER_MASK then s.dieReady d
  else s

/-- What follows a write to a field of the Clachasel (R94, R462, R514). -/
def State.afterClWrite (s : State) (r : Reg) (i : Nat) : State :=
  if r.same MBXPOST.DIE then s.showWindow i
  else if r.same AFECTL.SSEL then s.showStored
  else if r.same CFAN.RUN then s.coolNow
  else s

/-- A write of `v` to a field that nothing bars, by its access kind (R14). [DEDUCED, log entry 12] -/
def State.storeField (s : State) (chip : Nat) (r : Reg) (i v : Nat) : State :=
  let f := r.at chip i
  match r.kind with
    | .rw | .lk => if r.shadowed then s.setShadow f v else s.set f v
    | .cnt => (if chip < 8 then s.loadSelected chip r v else s).set f v
    | .w1c => s.set f (clearBits r.width (s.get f) v (s.levelHeld chip r i))
    | .w1s => s.set f (Nat.lor (s.get f) v)
    | .otw => { s.set f v with spent := f.key :: s.spent }
    | .ro | .wo | .sc | .fuse => s

/-- What follows a write to a field. -/
def State.afterWrite (s : State) (chip : Nat) (r : Reg) (i v : Nat) : State :=
  if chip < 8 then s.afterDieWrite chip r i v else s.afterClWrite r i

/-! Pairs (R48). -/

/-- A requester's entry of a list of captures or stagings. -/
def pairEntry (l : List (Nat × Nat × Nat)) (key req : Nat) : Option Nat :=
  (l.find? (fun e => e.1 == key && e.2.1 == req)).map (fun e => e.2.2)

/-- The list without a requester's entry. [DEDUCED, log entry 15] -/
def pairDrop (l : List (Nat × Nat × Nat)) (key req : Nat) : List (Nat × Nat × Nat) := l.filter (fun e => !(e.1 == key && e.2.1 == req))

/-- A write of a pair's low word is held in the requester's staging register; a second one replaces it (R48).
[DEDUCED, log entry 15] -/
def State.stageLow (s : State) (chip : Nat) (p : Page) (inst : Nat) (lo : Reg) (i req off value : Nat) : State :=
  if s.resetting chip p inst then s.pageFault chip p inst .accessErr req off value
  else if lo.kind = .ro then s
  else if ¬ lo.accepts i req then s.pageFault chip p inst .accessErr req off value
  else
    let key := (lo.at chip i).key
    { s with staging := (key, req, value) :: pairDrop s.staging key req }

/-- Both halves of a pair are loaded: the calendar under R614, INST_TAG once for the life of the tray (R618), an OTW pair spent
(R57), a die's TAG_SET and TRAY_SET with it (R309, R310). -/
def State.loadPair (s : State) (chip : Nat) (lo hi : Reg) (i req v : Nat) : State :=
  let f := lo.at chip i
  let g := hi.at chip i
  if chip = 8 ∧ lo.same CAL.TIME_LO then s.loadCalendar req v
  else if chip = 8 ∧ lo.same TRAYID.INST_TAG_LO then s.writeTag v
  else if chip < 8 ∧ lo.same HLID.INST_TAG_LO then
    { (s.setPair f g v).set (HLID.TAG_SET.on chip) 1 with spent := f.key :: g.key :: s.spent }
  else if chip < 8 ∧ lo.same HLID.TRAY_ID_LO then
    { (s.setPair f g v).set (HLID.TRAY_SET.on chip) 1 with spent := f.key :: g.key :: s.spent }
  else if lo.kind = .otw then { s.setPair f g v with spent := f.key :: g.key :: s.spent }
  else s.setPair f g v

/-- A write of a pair's high word loads both halves and empties the staging register; with nothing staged it is discarded with
ACCESS_ERR and spends nothing; a spent pair is left with LOCK_VIOL (R48, R57, R58, R61). [DEDUCED, log entry 15] -/
def State.writeHigh (s : State) (chip : Nat) (p : Page) (inst : Nat) (lo hi : Reg) (i req off value : Nat) : State :=
  let key := (lo.at chip i).key
  let t := { s with staging := pairDrop s.staging key req }
  if s.resetting chip p inst then s.pageFault chip p inst .accessErr req off value
  else if lo.kind = .ro then s
  else
    match pairEntry s.staging key req with
    | none => s.pageFault chip p inst (if s.lockedField chip p inst lo i then .lockViol else .accessErr) req off value
    | some low =>
      match s.barOf chip p inst lo i req low with
      | some b => t.pageFault chip p inst b req off value
      | none => t.loadPair chip lo hi i req (value * 4294967296 + low)

end Sys2Proof.Machine
end

