-- ==== Sys2Proof/Machine/Actions.lean ====
section
/-! DEFINITION. The fields whose write is a command with a row of its own, and the meaning a write of each calls. -/

namespace Sys2Proof.Machine

/-- The state after a command that runs. -/
def ran (o : Out) (s : State) : State :=
  match o with
  | .next t => t
  | _ => s

/-- A field whose write is a command: the meaning it calls with the requester, the field's index and the value written to it. -/
abbrev Action (α : Type) := Reg × (Requester → α → Nat → Nat → State → Out)

/-- GO of a two-wire controller, with the fields of XFER in force. -/
def State.goNow (s : State) (k req : Nat) : State :=
  s.twGo k (s.get (TW.OP.clAt k)) req (s.is (TW.PEC.clAt k)) (s.get (TW.ADDR.clAt k)) (s.get (TW.SEG.clAt k))

/-- Commands of a die that a set bit of a register issues. -/
def dieCommands : List (Action DieNo) :=
  [(WLOAD.RELEASE_W0, fun q d _ _ s => execWardenRelease q d 0 s), (WLOAD.RELEASE_W1, fun q d _ _ s => execWardenRelease q d 1 s),
   (ARRAY.LOAD, fun q d _ _ s => execLoad q d (BitVec.ofNat 12 (s.get (ARRAY.NEXT_KEY.on d.val))) s),
   (KRING.CHECK, fun q d _ _ s => execKeyringCheck q d s), (HEAP.INIT, fun q d _ _ s => execHeapInit q d s),
   (HEAP.W_ALLOC, fun q d i _ s => execAlloc q d (Fin.ofNat 3 i) s), (HEAP.W_FREE, fun q d i _ s => execFree q d (Fin.ofNat 3 i) s),
   (HL.RETRAIN, fun q d i _ s => execRetrain q d (Fin.ofNat 48 i) s),
   (SDESC.WRITE, fun q d _ _ s => execSdescWrite q d s), (SDESC.READ, fun q d _ _ s => execSdescRead q d s),
   (CTX.OPEN, fun q d _ _ s => execOpenCtx q d s), (CTX.SERVE, fun q d _ _ s => execServe q d s),
   (CTX.DRAIN, fun q d _ _ s => execDrain q d s), (CTX.CLOSE, fun q d _ _ s => execClose q d s),
   (RING.SUB_PUSH, fun q d _ _ s => execSubPush q d s), (FAULT.FWD_POP, fun q d _ _ s => execFwdPop q d s),
   (SCAN.OUT, fun q d _ _ s => execScanOut q d s), (SCAN.IN, fun q d _ _ s => execScanIn q d ⟨[], []⟩ s),
   (DFAULT.FORM_GO, fun q d _ _ s => execFormGo q d s),
   (WIN.EN, fun q d i _ s => execWindowEnable q d (Fin.ofNat 16 i)
      (BitVec.ofNat 3 (s.get (WIN.R.at d.val i) + 2 * s.get (WIN.W.at d.val i) + 4 * s.get (WIN.X.at d.val i))) s)]

/-- Values of a die that a write hands to a command. -/
def dieValues : List (Action DieNo) :=
  [(WLOAD.IMG_DATA, fun q d _ v s => execImgData q d (BitVec.ofNat 32 v) s),
   (WCORE.WDT_KICK, fun q d i v s => execWdtKick q (.warden d (Fin.ofNat 2 i)) (BitVec.ofNat 16 v) s),
   (STRM.POST_ID, fun q d _ v s => execPostId q d (BitVec.ofNat 16 v) s), (STRM.SCQ_CONS, fun q d _ v s => execScqCons q d (BitVec.ofNat 16 v) s),
   (RING.CQ_CONS, fun q d _ v s => execCqCons q d (BitVec.ofNat 16 v) s), (FAULT.FQ_CONS, fun q d _ v s => execFqCons q d (BitVec.ofNat 16 v) s),
   (CSKIP.FUSE_COL_0, fun q d _ v s => execFuseCol q d 0 (BitVec.ofNat 5 v) s), (CSKIP.FUSE_COL_1, fun q d _ v s => execFuseCol q d 1 (BitVec.ofNat 5 v) s),
   (CSKIP.FUSE_COL_2, fun q d _ v s => execFuseCol q d 2 (BitVec.ofNat 5 v) s), (CSKIP.FUSE_COL_3, fun q d _ v s => execFuseCol q d 3 (BitVec.ofNat 5 v) s),
   (STEST.REQ_TESTS, fun q d _ v s => execReqTests q d (BitVec.ofNat 3 v) s),
   (HL.EN, fun q d i v s => if v = 1 then execLinkEnable q d (Fin.ofNat 48 i) s else execLinkDisable q d (Fin.ofNat 48 i) s)]

/-- Commands of the Clachasel that a set bit of a register issues. -/
def clCommands : List (Action Unit) :=
  [(CSYS.ARM, fun q _ _ _ s => execArm q s), (CSYS.FIRE, fun q _ _ _ s => execFire q s), (SEQ.MAIN_ON, fun q _ _ _ s => execMainOn q s),
   (SEQ.MAIN_OFF, fun q _ _ _ s => execMainOff q s), (SEQ.UP, fun q _ _ _ s => execUp q s), (SEQ.DOWN, fun q _ _ _ s => execDown q s),
   (SEQ.SETPT_OK, fun q _ _ _ s => execSetptOk q s), (MBXPOST.CLAIM, fun q _ i _ s => execMbxClaim q (Fin.ofNat 4 i) s),
   (MBXPOST.SEND, fun q _ i _ s => execSend q (Fin.ofNat 4 i) s), (MBXPOST.RELEASE, fun q _ i _ s => execMbxRelease q (Fin.ofNat 4 i) s),
   (BLOAD.FETCH, fun q _ _ _ s => execFetch q s), (BLOAD.CHECK, fun q _ _ _ s => execBundleCheck q s),
   (AFECTL.CAL0, fun q _ _ _ s => execCalibrate q 1 s), (AFECTL.CAL1, fun q _ _ _ s => execCalibrate q 2 s),
   (TSTAT.F_FEED, fun q _ i _ s => execFeed q (Fin.ofNat 2 i) s),
   (TW.CLAIM, fun q _ i _ s => execTwClaim q (Fin.ofNat 6 (i / 4)) (Fin.ofNat 4 i) s),
   (TW.RELEASE, fun q _ i _ s => execTwRelease q (Fin.ofNat 6 (i / 4)) (Fin.ofNat 4 i) s),
   (TW.GO, fun q _ i _ s => .next (s.goNow i q.val)), (TW.ABORT, fun q _ i _ s => execAbort q (Fin.ofNat 6 i) s),
   (TW.CLEAR_STUCK, fun q _ i _ s => execClearStuck q (Fin.ofNat 6 i) s), (EVREC.FLUSH, fun q _ _ _ s => execEvrecFlush q s),
   (EVREC.CLEAR_FLASH_FAULT, fun q _ _ _ s => execEvrecClearFlashFault q s), (EVWIN.RESERVE, fun q _ i _ s => execReserve q (Fin.ofNat 4 i) s),
   (EVWIN.COMMIT, fun q _ i _ s => execCommit q (Fin.ofNat 4 i) s), (EVWIN.CANCEL, fun q _ i _ s => execCancel q (Fin.ofNat 4 i) s),
   (EVRATE.CM_SET, fun q _ _ _ s => execCmSet q s), (SUPV.RX_POP, fun q _ _ _ s => execRxPop q s), (SUPV.TX_COMMIT, fun q _ _ _ s => execTxCommit q s),
   (OWN.CLAIM, fun q _ i _ s => execSemClaim q (Fin.ofNat 4 i) s), (OWN.RELEASE, fun q _ i _ s => execSemRelease q (Fin.ofNat 4 i) s),
   (CFAN.FAULT, fun q _ i _ s => execFaultClear q (Fin.ofNat 16 i) s), (CPUMP.FAULT, fun q _ i _ s => execFaultClear q (Fin.ofNat 16 (12 + i)) s),
   (CPUMP.FL_FAULT, fun q _ i _ s => execFaultClear q (Fin.ofNat 16 (14 + i)) s)]

/-- Values of the Clachasel that a write hands to a command. -/
def clValues : List (Action Unit) :=
  [(CSYS.TRANS_REQ, fun q _ _ v s => execTransReq q (BitVec.ofNat 3 v) s),
   (MCCTL.WDT_KICK, fun q _ i v s => execWdtKick q (.mc (Fin.ofNat 4 i)) (BitVec.ofNat 16 v) s),
   (EMU.CMD, fun q _ i v s => execCmdPost q (Fin.ofNat 32 i) (BitVec.ofNat 32 v) s),
   (AFEPORT.REQ, fun q _ i v s => execAfeRequest q (Fin.ofNat 5 i) (BitVec.ofNat 6 v) s),
   (FENCE.FENCE_SET, fun q _ _ v s => execFenceSet q (BitVec.ofNat 8 v) s), (FENCE.TRIP_SET, fun q _ _ v s => execTripSet q (BitVec.ofNat 8 v) s),
   (FENCE.TRIP_REL, fun q _ _ v s => execTripRel q (BitVec.ofNat 8 v) s),
   (EVREAD.RD_SEQ, fun q _ i v s => execRdSeq q (Fin.ofNat 5 i) (BitVec.ofNat 32 v) s),
   (EVREAD.FL_SEQ, fun q _ i v s => execFlSeq q (Fin.ofNat 5 i) (BitVec.ofNat 32 v) s),
   (CAL.SLEW, fun q _ _ v s => execSlew q (BitVec.ofNat 24 v) s), (TRAYID.REVOKE, fun q _ i v s => execRevoke q (Fin.ofNat 4 i) (BitVec.ofNat 1 v) s),
   (HLS.LEAK_TRIP, fun q _ _ v s => .next (s.writeLimits [0] q.val v)),
   (HLS.LEAK_REL, fun q _ _ v s => .next (s.writeLimits [1] q.val (v * 65536))),
   (HLS.TA_FENCE, fun q _ _ v s => .next (s.writeLimits [2] q.val v)),
   (HLS.TA_TRIP, fun q _ _ v s => .next (s.writeLimits [3] q.val (v * 65536))),
   (HLS.IIN_TRIP, fun q _ _ v s => .next (s.writeLimits [4] q.val v)),
   (HLS.FENCE_TO, fun q _ _ v s => .next (s.writeLimits [5] q.val v))]

/-- What a write to a field calls, from a list of commands and a list of values. -/
def actionOf {α : Type} (commands values : List (Action α)) (r : Reg) (q : Requester) (a : α) (i v : Nat) : Option (State → State) :=
  match commands.find? (fun x => x.1.same r) with
  | some x => some (fun s => if v % 2 = 1 then ran (x.2 q a i v s) s else s)
  | none => (values.find? (fun x => x.1.same r)).map (fun x s => ran (x.2 q a i v s) s)

/-- Whether a field's write is a command of its own; WIN.EN is one where it sets the bit. -/
def hasAction (chip : Nat) (r : Reg) (v : Nat) : Bool :=
  if chip < 8 then (dieCommands.any (fun x => x.1.same r) && !(r.same WIN.EN && v == 0)) || dieValues.any (fun x => x.1.same r)
  else clCommands.any (fun x => x.1.same r) || clValues.any (fun x => x.1.same r)

/-- The command that a write of `v` to a field is carried out by. [DESIGN CHOICE, log entry 6; DEDUCED, log entry 12] -/
def State.act (s : State) (q : Requester) (chip : Fin 9) (r : Reg) (i v : Nat) : State :=
  let a := if h : chip.val < 8 then actionOf dieCommands dieValues r q (⟨chip.val, h⟩ : DieNo) i v
    else actionOf clCommands clValues r q () i v
  match a with
  | some f => f s
  | none => s

end Sys2Proof.Machine
end

