-- ==== Sys2Proof/Machine/RegisterRows.lean ====
section
/-! DEFINITION. The register pages: writes, pairs, locks, soft resets, commits, reserved ranges (R33, R45 to R79 of
spec/02_register_pages.md). -/

namespace Sys2Proof.Machine

/-- A field and its number in its array, of the register at an offset. -/
abbrev Hit := Reg × Nat

/-- An access to a reserved range, or to a slot that holds no page: ACCESS_ERR in the chip's first system page (R33).
[DEDUCED, log entry 13] -/
def State.noPage (s : State) (chip req off value : Nat) : State := s.pageFault chip (systemPage chip) 0 .accessErr req off value

/-- A write to the emulated page before it is served: ACCESS_ERR in CSYS (R159). -/
def State.notServed (s : State) (req off value : Nat) : State := s.pageFault clachasel CSYS.page 0 .accessErr req off value

/-- An access to a page of a chip: not served by a chip in reset (R41); with no page there, or a page that is not served, it is
discarded as R33 and R159 state. [DEDUCED, log entries 13, 14] -/
def State.toPage (s : State) (chip req off value : Nat) (act : Page → Nat → State) : State :=
  if s.inReset chip then s
  else
    match pageAt chip off with
    | none => s.noPage chip req off value
    | some (p, inst) => if s.unserved chip p then s.notServed req off value else act p inst

/-! The header (R56, R60, R61, R72). -/

/-- PAGE_LOCK is written, 1 in LOCK locks the page: MCCTL takes the write from MC0 alone and only once every core is ready, WCORE
from the core it guards (R52, R56, R77, R154). -/
def State.lockPage (s : State) (chip : Nat) (p : Page) (inst req value : Nat) : State :=
  let bar := if chip < 8 then p.base == WCORE.page.base && req != inst
    else p.base == MCCTL.page.base && (req != 1 || s.get CSYS.CORE_READY.cl != 0xF)
  if bar then s.pageFault chip p inst .accessErr req (p.at inst + 0x18) value
  else if value.testBit 0 then s.set (hdr HDR.LOCK chip (p.at inst)) 1 else s

/-- The words of the internal registers that are the run-time state of a page's block. [DEDUCED, log entry 16] -/
def blockWords (chip : Nat) (p : Page) (inst : Nat) : List (Nat × Nat) :=
  if chip < 8 then
    match p.block with
    | 0x1004 => [(0x164, 0x170), (0x177, 0x177)]
    | 0x1200 => [(0x160, 0x163), (0x17A, 0x17A)]
    | 0x1400 => [(0x148, 0x14B), (0x150, 0x157), (0x173, 0x173), (0x175, 0x175)]
    | 0x1430 => [(0x174, 0x174), (0x176, 0x176)]
    | 0x1300 => [(0x132, 0x135)]
    | 0x1303 => [(0x136, 0x136)]
    | 0x1304 => [(0x137, 0x137)]
    | 0x1602 => [(0x130, 0x131)]
    | 0x1130 => [(0x158, 0x15F), (0x178, 0x179)]
    | 0x1600 => [(0x138, 0x13E)]
    | 0x1440 => [(0x140, 0x146), (0x171, 0x171)]
    | 0x1005 => [(0x100, 0x100)]
    | _ => []
  else
    match p.block with
    | 0x2003 => [(0x1100, 0x1107)]
    | 0x2100 => [(0x200, 0x232)]
    | 0x2101 => [(0x300, 0x30F)]
    | 0x2102 => [(0x240, 0x2DF), (0x310, 0x397)]
    | 0x2500 => [(0x1000, 0x100D), (0x1020, 0x102D), (0x1040, 0x105D), (0x10A0, 0x10AD)]
    | 0x2501 => [(0x1010, 0x1011), (0x1030, 0x1033), (0x10AE, 0x10AF)]
    | 0x2502 => [(0x1060, 0x106F)]
    | 0x2503 => [(0x1080, 0x109B)]
    | 0x2600 => [0x1300, 0x1306, 0x130C, 0x1312, 0x1318, 0x131E, 0x1324, 0x132A].map (fun a => (a + inst, a + inst))
    | 0x2300 => [(0x1400, 0x1403)]
    | 0x2401 => [(0x1420, 0x150F), (0x15B0, 0x15B2)]
    | 0x2402 => [(0x1510, 0x151F)]
    | 0x2F00 => [(0x1120, 0x1120), (0x1123, 0x1123), (0x1130, 0x1143)]
    | 0x2700 => [(0x100, 0x105)]
    | 0x2800 => [(0x2F2, 0x2F2)]
    | 0x2801 => [(0x2000, 0x2000)]
    | 0x2900 => [(0x1240, 0x1247)]
    | 0x2901 => [(0x1600, 0x160F)]
    | _ => []

/-- The words of internal registers return to their reset values. -/
def State.clearWords (s : State) (chip : Nat) (ranges : List (Nat × Nat)) : State :=
  { s with regs := akeep s.regs (fun k => !ranges.any (fun w =>
      decide (fieldKey (chip + 16) (4 * w.1) 0 ≤ k ∧ k < fieldKey (chip + 16) (4 * w.2 + 4) 0))) }

/-- What a block of a die holds beside its registers returns to its reset (R60). [DEDUCED, log entry 16] -/
def clearDieBlock (block inst : Nat) (x : Die) : Die :=
  match block with
  | 0x1005 => { x with devq := [] }
  | 0x14F1 => { x with tums := x.tums.map (fun e => (e.1, { e.2 with pFlags := 0, pHalted := false, pAddr := 0, pL0 := 0, pL0Start := 0, pL1 := 0, pL1Start := 0 })) }
  | 0x1420 => { x with flights := [] }
  | 0x1400 => { x with active := none, shadowKey := none }
  | 0x1410 => { x with gates := [], freezers := [] }
  | 0x1300 => { x with ueTimes := [] }
  | 0x1303 => { x with heap := [], holders := [], heapQ := [] }
  | 0x1100 => { x with links := adel x.links inst }
  | 0x1200 => { x with scqWait := [] }
  | 0x1201 => { x with streams := [] }
  | 0x1202 => { x with slinks := [] }
  | 0x1602 => { x with fwdq := [], frags := [] }
  | 0x1603 => { x with runs := [], copyIn := [], copyOut := [], records := [] }
  | _ => x

/-- What a block of the Clachasel holds beside its registers returns to its reset; a soft reset of AFECTL abandons its rounds (R470),
one of TSTAT empties the rings (R484), one of FENCE asserts every TRIP_n as its Reset value says.
[DEDUCED, log entry 16] -/
def State.clearClBlock (s : State) (block : Nat) : State :=
  match block with
  | 0x2000 => { s with armed := [] }
  | 0x2200 => { s with staged := none }
  | 0x2201 => { s with fires := akeep s.fires (fun k => decide (16 ≤ k)) }
  | 0x2F00 => { s with posted := [] }
  | 0x2300 => { s with afe := {} }
  | 0x2401 => { s with rings := [] }
  | 0x2500 => { s with tach := [] }
  | 0x2501 => { s with flowPulses := [] }
  | 0x2700 => { s with ring := [], eraseQ := [], heldRecs := [] }
  | 0x2703 =>
    { s with tokens := [], suppressed := [], classMap := [] }.each [0, 1, 2] (fun s c =>
      s.set (RECI.LEVEL.clAt c) (RECI.LEVEL.clAt c).reset)
  | 0x2800 => s.emptyRx
  | 0x2901 => s.each (List.range 8) State.dieReset
  | _ => s

/-- What a block does as its soft reset begins: a link, whose STATE returns to DISABLED, leaves UP (R327); the sequencer, whose
DIE_STATE returns to OFF, has every TRIP_n asserted (R127); a two-wire transaction ends at once (R550), an AFE round is
abandoned with event 0x3403 (R470). -/
def State.beforeSoftReset (s : State) (chip : Nat) (p : Page) (inst : Nat) : State :=
  if chip < 8 then (if p.block = 0x1100 then s.toLink chip inst .disabled else s)
  else if p.block = 0x2100 then (s.each (List.range 8) (fun s n => s.tripLine n 4)).checkService
  else if p.block = 0x2600 then s.twCut inst
  else if p.block = 0x2300 then (if s.enabled clachasel AFECTL.page then (s.event AFECTL.page 0x3403).abandon else s)
  else s

/-- After a soft reset of TSTAT its sensors stand as after a start: an enabled one in NO_SAMPLE (R477). -/
def State.afterSoftReset (s : State) (chip : Nat) (p : Page) : State :=
  if chip = 8 ∧ p.block = 0x2401 then s.each (List.range 48) State.clearSensor
  else if chip = 8 ∧ p.block = 0x2500 then s.coolNow
  else s

/-- A soft reset of WCORE empties the record of its watchdog's fires (R60, R156). [DEDUCED, log entry 16] -/
def State.clearFires (s : State) (d : Nat) (p : Page) (inst : Nat) : State :=
  if p.block = 0x1501 then { s with fires := akeep s.fires (fun k => k != 16 + 2 * d + inst) } else s

/-- A soft reset of a page (R60); one in progress is joined (R61). [DEDUCED, log entry 16] -/
def State.softReset (s : State) (chip : Nat) (p : Page) (inst : Nat) : State :=
  if s.resetting chip p inst then s
  else
    let s := (s.beforeSoftReset chip p inst).softResetPage chip p inst
    let s := s.clearWords chip (blockWords chip p inst)
    let s := if chip < 8 then s.clearFires chip p inst |>.onDie chip (clearDieBlock p.block inst) else s.clearClBlock p.block
    s.afterSoftReset chip p

/-- ENABLE takes a value in the block: a two-wire controller and the AFE start up or stop with it (R445, R543, R550). -/
def State.enableTakes (s : State) (chip : Nat) (p : Page) (inst req value : Nat) (on : Bool) : State :=
  let f := hdr HDR.ENABLE chip (p.at inst)
  if chip = 8 ∧ p.block = 0x2600 then (if on then s.twEnableOn inst req value else if s.is f then s.twDisable inst else s)
  else if chip = 8 ∧ p.block = 0x2300 then
    if on then (if s.is f then s else (s.set f 1).calibrateBoth)
    else if s.is f then ((s.abandon.set f 0).set afeEnabled 0) else s
  else s.put f on

/-- The soft reset ends: RESETTING clears, and a change of ENABLE made meanwhile takes effect in the block (R61).
[DEDUCED, log entry 16] -/
def State.softResetEnd (s : State) (chip : Nat) (p : Page) (inst : Nat) : State :=
  if ¬ s.resetting chip p inst then s
  else
    let f := hdr HDR.ENABLE chip (p.at inst)
    let s := s.set (hdr HDR.RESETTING chip (p.at inst)) 0
    if s.is f then (s.set f 0).enableTakes chip p inst 0 1 true else s

/-- A write of PAGE_CTRL: VIEW_ACTIVE at once; ENABLE in the block at once, or once the soft reset in progress has ended; 1 in
SOFT_RESET (R60, R61). ENABLE of AFECTL is written by MC0 to MC3 only (R445). -/
def State.writeCtrl (s : State) (chip : Nat) (p : Page) (inst req value : Nat) : State :=
  let s := s.put (hdr HDR.VIEW_ACTIVE chip (p.at inst)) (value.testBit 2)
  let s := if chip = 8 ∧ p.block = 0x2300 ∧ req ∉ [1, 2, 3, 4] then s.pageFault chip p inst .accessErr req (p.at inst + 8) value
    else if s.resetting chip p inst then s.put (hdr HDR.ENABLE chip (p.at inst)) (value.testBit 0)
    else s.enableTakes chip p inst req value (value.testBit 0)
  if value.testBit 1 then s.softReset chip p inst else s

/-- A write to a register of the header (R45, R51, R61, R64). [DEDUCED, log entry 17] -/
def State.writeHeader (s : State) (chip : Nat) (p : Page) (inst req o value : Nat) : State :=
  let f := fun (r : Reg) => hdr r chip (p.at inst)
  match o / 4 with
  | 0 | 1 | 3 | 9 => s
  | 2 => s.writeCtrl chip p inst req value
  | 4 => s.set (f HDR.EVENT) (clearBits 32 (s.get (f HDR.EVENT)) value 0)
  | 5 => s.set (f HDR.EVENT_EN) (value / 256 * 256 + value % 4)
  | 6 => s.lockPage chip p inst req value
  | 7 => s.set (f HDR.FAULT) (clearBits 4 (s.get (f HDR.FAULT)) value 0)
  | 8 => s.commitRequest chip p inst req value
  | _ => s.pageFault chip p inst .accessErr req (p.at inst + o) value

/-! Block registers (R46 to R58). -/

/-- A write to the register at an offset that holds no half of a writable pair: each field is applied or barred, then what the
fields written call for and the commands they issue are carried out; a bar sets its PAGE_FAULT bit once (R52, R58, R70, R71).
[DEDUCED, log entry 12] -/
def State.writeFields (s : State) (q : Requester) (chip : Fin 9) (p : Page) (inst off value : Nat) (hits : List Hit) : State :=
  let val := fun (x : Hit) => bitsOf value x.1.lo x.1.width
  let s := { s with writing := some ⟨value, 0⟩ }
  let acts := hits.filter (fun x => hasAction chip.val x.1 (val x))
  let plain := hits.filter (fun x => !hasAction chip.val x.1 (val x))
  let bar := fun (x : Hit) => s.barOf chip.val p inst x.1 x.2 q.val (val x)
  let bars := plain.filterMap bar
  let open_ := plain.filter (fun x => (bar x).isNone)
  let t := open_.foldl (fun t x => t.storeField chip.val x.1 x.2 (val x)) s
  let t := open_.foldl (fun t x => t.afterWrite chip.val x.1 x.2 (val x)) t
  let t := [FaultBit.lockViol, .cfgMismatch, .accessErr].foldl (fun t b =>
    if bars.contains b then t.pageFault chip.val p inst b q.val off value else t) t
  { acts.foldl (fun t x => t.act q chip x.1 x.2 (val x)) t with writing := none }

/-- A write to a block register (R48, R51, R61). [DEDUCED, log entry 13] -/
def State.writeBlock (s : State) (q : Requester) (chip : Fin 9) (p : Page) (inst off value : Nat) : State :=
  let hits := fieldsAt p off
  if s.resetting chip.val p inst ∨ hits = [] then s.pageFault chip.val p inst .accessErr q.val off value
  else
    match lowPairAt chip.val off, highPairAt chip.val off with
    | some (lo, _, i), _ => s.stageLow chip.val p inst lo i q.val off value
    | none, some (lo, hi, i) => s.writeHigh chip.val p inst lo hi i q.val off value
    | none, none => s.writeFields q chip p inst off value hits

/-- RW fields that hardware updates on its own: the rest of a slew (R615), the self-test requests and the next unit of the memory
test (R662, R670), the stage that a descriptor read fills (R340), and the image address that counts up (R151). -/
def hwUpdated : List Reg := [CAL.SLEW, STEST.REQ_TESTS, STEST.MT_CUR_HI, SDESC.STAGE, WLOAD.IMG_ADDR]

/-- A hardware update of an RW field in the cycle of a write that is applied is lost, and COLLIDE is set (R73). `s` is the state
before the write, `t` the state after it. [DEDUCED, log entry 67] -/
def State.collided (t s : State) (chip : Nat) (p : Page) (inst req off value : Nat) : State :=
  if ¬ s.resetting chip p inst ∧ (fieldsAt p off).any (fun x =>
      x.1.among hwUpdated && (s.barOf chip p inst x.1 x.2 req (bitsOf value x.1.lo x.1.width)).isNone) then
    t.pageFault chip p inst .collide req off value
  else t

/-- A write of 32 bits: all four byte enables of one register, or it is discarded with ACCESS_ERR (R46, R54). -/
def State.write32 (s : State) (q : Requester) (chip : Fin 9) (off : Nat) (enables : BitVec 4) (value : Nat) (collide : Bool) : State :=
  s.toPage chip.val q.val off value (fun p inst =>
    if enables ≠ 0xF then s.pageFault chip.val p inst .accessErr q.val off value
    else if off - p.at inst < 0x40 then s.writeHeader chip.val p inst q.val (off - p.at inst) value
    else
      let t := s.writeBlock q chip p inst off value
      if collide then t.collided s chip.val p inst q.val off value else t)

/-- A register write of 32 bits, or of 64: the lower offset first, then the higher, each half checked and applied on its own (R46,
R47). `collide` says that a hardware update of the register falls in the same cycle (R73). [DEDUCED, log entry 12] -/
def execRegisterWrite (req : Requester) (chip : Fin 9) (offset : BitVec 24) (enables : BitVec 4) (value : BitVec 32) (collide : Bool)
    (high : Option (BitVec 4 × BitVec 32)) (s : State) : Out :=
  let off := offset.toNat / 4 * 4
  let t := s.write32 req chip off enables value.toNat collide
  .next (match high with
    | none => t
    | some (e, v) => t.write32 req chip (off + 4) e v.toNat false)

/-- The bytes of a word, as an access returns them. -/
def wordBytes (v : Nat) : List Byte := (bytesLE 4 v).map (BitVec.ofNat 8)

/-- An access to a reserved range: a read returns 0, a write is discarded, ACCESS_ERR and an event either way (R33, R50). -/
def execReservedRangeAccess (req : Requester) (chip : Fin 9) (offset : BitVec 24) (write : Bool) (value : BitVec 32) (s : State) : Out :=
  let off := offset.toNat / 4 * 4
  if ¬ reservedRange chip.val off then .next s
  else if s.inReset chip.val then .next (if write then s else { s with answer := [] })
  else
    let s := s.noPage chip.val req.val off (if write then value.toNat else 0)
    .next (if write then s else { s with answer := wordBytes 0 })

/-- The bytes of a word that a read of one to four bytes returns (R46). -/
def enabledBytes (enables : BitVec 4) (v : Nat) : List Byte :=
  ((wordBytes v).zipIdx.filter (fun b => enables.toNat.testBit b.2)).map Prod.fst

/-- A read of a register by its byte enables: the low word of a pair captures the high word for the requester, a read of the high word
then returns what was captured and ends the capture; any other read has no side effect (R46, R48, R49). A chip in reset answers
nothing. [DESIGN CHOICE, log entry 11; DEDUCED, log entry 14] -/
def State.read32 (s : State) (req chip off : Nat) (enables : BitVec 4) : State :=
  if s.inReset chip then { s with answer := [] }
  else if reservedRange chip off then { s.noPage chip req off 0 with answer := enabledBytes enables 0 }
  else
    match lowPairAt chip off, highPairAt chip off with
    | some (lo, hi, i), _ =>
      let key := (lo.at chip i).key
      { s with capture := (key, req, s.readWord chip (hi.offset i)) :: pairDrop s.capture key req, answer := enabledBytes enables (s.readWord chip off) }
    | none, some (lo, _, i) =>
      let key := (lo.at chip i).key
      let v := (pairEntry s.capture key req).getD (s.readWord chip off)
      { s with capture := pairDrop s.capture key req, answer := enabledBytes enables v }
    | none, none => { s with answer := enabledBytes enables (s.readWord chip off) }

/-- A read of one register, or of 64 bits as two reads, the lower offset first (R46 to R49). [DESIGN CHOICE, log entry 11] -/
def execLowWordRead (req : Requester) (chip : Fin 9) (offset : BitVec 24) (enables : BitVec 4) (high : Option (BitVec 4)) (s : State) : Out :=
  let off := offset.toNat / 4 * 4
  let t := s.read32 req.val chip.val off enables
  .next (match high with
    | none => t
    | some e =>
      let u := t.read32 req.val chip.val (off + 4) e
      { u with answer := t.answer ++ u.answer })

/-- A write of the low word of a pair is held in the requester's staging register (R48). -/
def execLowWordWrite (req : Requester) (chip : Fin 9) (offset : BitVec 24) (value : BitVec 32) (s : State) : Out :=
  let off := offset.toNat / 4 * 4
  .next (match lowPairAt chip.val off with
    | none => s
    | some (lo, _, i) => s.toPage chip.val req.val off value.toNat (fun p inst => s.stageLow chip.val p inst lo i req.val off value.toNat))

/-- A write of the high word of a pair loads both halves, or is discarded with nothing staged (R48, R57, R58, R69). -/
def execHighWordWrite (req : Requester) (chip : Fin 9) (offset : BitVec 24) (value : BitVec 32) (s : State) : Out :=
  let off := offset.toNat / 4 * 4
  .next (match highPairAt chip.val off with
    | none => s
    | some (lo, hi, i) => s.toPage chip.val req.val off value.toNat (fun p inst => s.writeHigh chip.val p inst lo hi i req.val off value.toNat))

/-- PAGE_LOCK.LOCK of the page at a 4 KiB slot is written 1 (R56). -/
def execPageLock (req : Requester) (chip : Fin 9) (page : Fin 4096) (s : State) : Out :=
  .next (s.toPage chip.val req.val (4096 * page.val + 0x18) 1 (fun p inst => s.lockPage chip.val p inst req.val 1))

/-- PAGE_CTRL.SOFT_RESET of the page at a 4 KiB slot is written 1 (R60, R79). -/
def execSoftReset (req : Requester) (chip : Fin 9) (page : Fin 4096) (s : State) : Out :=
  .next (s.toPage chip.val req.val (4096 * page.val + 8) 2 (fun p inst => s.softReset chip.val p inst))

/-- A soft reset ends (R60, R61). -/
def execSoftResetEnd (chip : Fin 9) (page : Fin 4096) (s : State) : Out :=
  .next (match pageAt chip.val (4096 * page.val) with
    | none => s
    | some (p, inst) => s.softResetEnd chip.val p inst)

/-- A write of PAGE_COMMIT of the page at a 4 KiB slot (R64, R65, R67, R76). -/
def execCommitRequest (req : Requester) (chip : Fin 9) (page : Fin 4096) (value : BitVec 32) (s : State) : Out :=
  .next (s.toPage chip.val req.val (4096 * page.val + 0x20) value.toNat (fun p inst => s.commitRequest chip.val p inst req.val value.toNat))

/-- The cycle after acceptance: a pending set is applied, unless its page waits for a hinge (R66, R78).
[DEDUCED, log entry 18] -/
def execCommitApply (chip : Fin 9) (page : Fin 4096) (s : State) : Out :=
  .next (match pageAt chip.val (4096 * page.val) with
    | none => s
    | some (p, inst) =>
      if s.is (hdr HDR.COMMIT_PENDING chip.val (p.at inst)) ∧ ¬ waitsForHinge chip.val p then s.commitApply chip.val p inst else s)

end Sys2Proof.Machine
end

