-- ==== Sys2Proof/Machine/Start.lean ====
section
/-! DEFINITION. What the management cores do as they start: the sensor map, the zone map, the profiles and the cooling configuration
that MC1 loads from the FRU record, and its first round of AFE requests (R129, R155, R475, R476, R491 of spec/15_temperature.md, R513
and R527 of spec/16_cooling.md). -/

namespace Sys2Proof.Machine

/-! The FRU record (R475, R476, R513). Numbers that the spec does not state are those of `Config.fruRecord`.
[DESIGN CHOICE, log entries 64, 66] -/

/-- Whether the tray is an ADV-T8A. -/
def State.airCooled (s : State) : Bool := s.get TRAYID.VARIANT.cl == 2

/-- A pin code with its enable (R448). -/
def pinOn (k : Nat) : Nat := k + 128

/-- Four words of a profile (R448). -/
structure FruProfile where
  index : Nat
  words : List Nat
  deriving DecidableEq, Repr

/-- The profile of a remote diode on AXp: DIODE on CE0, IEX 10 µA, IEX_HI 200 µA, OSR 256, SETTLE 50 µs, CS2 (R475). -/
def diodeProfile (p : Nat) : FruProfile :=
  ⟨p, [3 * 2 + (Config.fruRecord p).toNat % 8 * 32 + 2 * 256 + 1 * 2048 + 5 * 16384, pinOn p + pinOn p * 65536, 2 * 65536 + 8388608, 5]⟩

/-- The profile of a coolant RTD on AXa to AXa + 2, wired in three wires: RES with SWAP on CE0, OSR 256, SETTLE 200 µs, CS0; gain,
current and bias as the walkthrough gives them (R475). [DEDUCED, log entry 64] -/
def coolantProfile (p a : Nat) : FruProfile :=
  ⟨p, [1 * 2 + 16 + 3 * 32 + 2 * 256 + 4 * 2048 + 1 * 131072,
    pinOn a + pinOn (a + 1) * 256 + pinOn a * 65536 + pinOn (a + 1) * 16777216, pinOn (a + 2) + 8388608, 20]⟩

/-- The profile of an NTC thermistor to ground on AXa: RES on CE1, OSR 256, SETTLE 100 µs and its set (R475). -/
def thermistorProfile (p a cset : Nat) : FruProfile :=
  let free := (Config.fruRecord p).toNat
  ⟨p, [1 + 1 * 2 + free % 8 * 32 + 2 * 256 + free / 8 % 8 * 2048, pinOn a + pinOn a * 65536, cset * 65536 + 8388608, 10]⟩

/-- The profiles of the sensors MC1 feeds (R475). -/
def State.sensorProfiles (s : State) : List FruProfile :=
  (List.range 16).map (fun i => diodeProfile (16 + i)) ++
    (if s.airCooled then [] else [coolantProfile 12 8, coolantProfile 13 11]) ++
    [thermistorProfile 14 14 4, thermistorProfile 15 15 4] ++ (List.range 6).map (fun i => thermistorProfile i i 1)

/-- The profiles of the leak taps, which MC2 measures with: CURRENT on CE1 at 10 kΩ and 100 pF, gain 4, OSR 256, SETTLE 1, VBIAS 0.3 V, CS5
(R527). -/
def leakProfiles : List FruProfile := (List.range 4).map (fun n => ⟨6 + n, [0x004A0245, 0x000000A0 + n, 0x00850000, 0x00000001]⟩)

/-- Write profiles. -/
def State.loadProfiles (s : State) (l : List FruProfile) : State :=
  l.foldl (fun s p => s.each (List.range 4) (fun s w => s.set (AFEPROF.WORD.clAt (4 * p.index + w)) (p.words.getD w 0))) s

/-- A row of the sensor map: feeder, range in °C, MAX_AGE in ms (R475). -/
structure FruSensor where
  feeder : Nat
  lo : Int
  hi : Int
  maxAge : Nat
  deriving DecidableEq, Repr

/-- The sensor map; nothing for a sensor that is not fitted (R475). -/
def State.fruSensor (s : State) (k : Nat) : Option FruSensor :=
  if k < 16 then some ⟨1, -40, 125, 225⟩
  else if k < 24 then some ⟨2, -40, 125, 250⟩
  else if k < 26 then (if s.airCooled then none else some ⟨1, 0, 90, 400⟩)
  else if k < 28 then some ⟨1, -20, 100, 700⟩
  else if k < 34 then some ⟨1, -20, 125, 1200⟩
  else none

/-- The profile that measures a sensor MC1 feeds (R475). -/
def sensorProfile (k : Nat) : Nat := if k < 16 then 16 + k else if k < 28 then k - 12 else k - 28

/-- A shadowed field of the Clachasel is written by a management core. -/
def State.loadField (s : State) (r : Reg) (i v : Nat) : State := s.setShadow (r.clAt i) v

/-- MC1 writes the sensor map into TCFG (R475). -/
def State.loadSensors (s : State) : State :=
  s.each (List.range 48) (fun s k =>
    match s.fruSensor k with
    | none => s.loadField TCFG.EN k 0
    | some x =>
      let s := (((s.loadField TCFG.EN k 1).loadField TCFG.FEEDER k x.feeder).loadField TCFG.RANGE_MIN k (ofSigned 16 (16 * x.lo)))
      (s.loadField TCFG.RANGE_MAX k (ofSigned 16 (16 * x.hi))).loadField TCFG.MAX_AGE k x.maxAge)

/-- A row of the zone map: members as a mask, DIES, and WARN, THROTTLE, TRIP and HYST in °C (R476). -/
structure FruZone where
  members : Nat
  dies : Nat
  warn : Nat
  throttle : Nat
  trip : Nat
  hyst : Nat
  deriving DecidableEq, Repr

/-- The zone map; nothing for a zone the variant does not have (R476). -/
def State.fruZone (s : State) (z : Nat) : Option FruZone :=
  if z < 8 then some ⟨3 * 4 ^ z + 65536 * 2 ^ z, 2 ^ z, 80, 90, 100, 3⟩
  else if z = 8 then (if s.airCooled then none else some ⟨3 * 2 ^ 24, 0, 45, 50, 60, 2⟩)
  else if z = 9 then some ⟨3 * 2 ^ 26, 0, 35, 40, 50, 2⟩
  else if z = 10 then some ⟨63 * 2 ^ 28, 0, 70, 80, 95, 3⟩
  else none

/-- MC1 writes the zone map into TZONE (R476). -/
def State.loadZones (s : State) : State :=
  s.each (List.range 16) (fun s z =>
    match s.fruZone z with
    | none => s.loadField TZONE.ZEN z 0
    | some x =>
      let s := ((s.loadField TZONE.ZEN z 1).loadField TZONE.MEMBERS_LO z (x.members % 4294967296)).loadField TZONE.MEMBERS_HI z (x.members / 4294967296)
      let s := ((s.loadField TZONE.DIES z x.dies).loadField TZONE.WARN z (16 * x.warn)).loadField TZONE.THROTTLE z (16 * x.throttle)
      (s.loadField TZONE.TRIP z (16 * x.trip)).loadField TZONE.HYST z (16 * x.hyst))

/-- What the cooling table gives a zone (R513). -/
inductive FruDemand where
  | curve (points : List (Nat × Nat))
  | pi (setpoint kp ki : Nat)
  deriving DecidableEq, Repr

/-- The cooling table, temperatures in °C and duties in % (R513). -/
def State.fruDemand (s : State) (z : Nat) : Option FruDemand :=
  if z < 8 then some (.curve [(60, 40), (75, 60), (85, 85), (90, 100)])
  else if z = 8 then (if s.airCooled then none else some (.pi 40 50 10))
  else if z = 9 then some (.curve [(25, 30), (30, 45), (35, 70), (40, 100)])
  else if z = 10 then some (.pi 60 20 5)
  else none

/-- A curve point that the table does not give: ascending temperatures and duties of at most 1,000, else free. -/
def freePoint (z i : Nat) : Nat × Nat :=
  (i + ((List.range (i + 1)).map (fun j => (Config.fruRecord (64 + 4 * z + j)).toNat % 1024)).sum, (Config.fruRecord (128 + 4 * z + i)).toNat % 1001)

/-- MC1 writes the points of a zone's curve, T in 1/16 °C and D in 0.1 %. -/
def State.loadPoints (s : State) (z : Nat) (at_ : Nat → Nat × Nat) : State :=
  s.each (List.range 4) (fun s i => (s.loadField CDEM.T (4 * z + i) (at_ i).1).loadField CDEM.D (4 * z + i) (at_ i).2)

/-- MC1 writes the demand of every zone into CDEM; DMIN 20 %, DMAX 100 % (R513). -/
def State.loadDemands (s : State) : State :=
  s.each (List.range 16) (fun s z =>
    let s := (s.loadField CDEM.DMIN z 200).loadField CDEM.DMAX z 1000
    match s.fruDemand z with
    | some (.curve ps) => (s.loadField CDEM.MODE z 0).loadPoints z (fun i => (16 * (ps.getD i (0, 0)).1, 10 * (ps.getD i (0, 0)).2))
    | some (.pi sp kp ki) =>
      ((((s.loadField CDEM.MODE z 1).loadField CDEM.SETPOINT z (16 * sp)).loadField CDEM.KP z kp).loadField CDEM.KI z ki).loadPoints z (freePoint z)
    | none => s.loadPoints z (freePoint z))

/-- MC1 writes zones and floor of the fan groups and pumps that the variant fits (R513). -/
def State.loadOutputs (s : State) : State :=
  let board := 2 ^ 9 + 2 ^ 10
  let groups := if s.airCooled then (List.range 4).map (fun k => (k, 2 ^ k + 2 ^ (k + 4) + board)) else [(0, board), (1, board)]
  let s := groups.foldl (fun s g => (s.loadField CFAN.ZONES g.1 g.2).loadField CFAN.FLOOR g.1 300) s
  if s.airCooled then s else s.each [0, 1] (fun s p => (s.loadField CPUMP.ZONES p 0x1FF).loadField CPUMP.FLOOR p 400)

/-- MC1 commits a page (R64). -/
def State.mc1Commit (s : State) (p : Page) (inst : Nat) : State := (s.commitBy 2 p inst).1

/-- Before it sets RUN, MC1 loads and commits the cooling configuration; then it sets RUN. A restart finds RUN set and leaves the
configuration as it stands (R513, R534). [DEDUCED, log entry 66] -/
def State.startCooling (s : State) : State :=
  if s.is CFAN.RUN.cl then s
  else
    let s := s.loadDemands.loadOutputs
    ((((s.mc1Commit CDEM.page 0).mc1Commit CFAN.page 0).mc1Commit CPUMP.page 0).set CFAN.RUN.cl 1).coolNow

/-! The first round of requests (R491). -/

/-- The enabled sensors that MC1 feeds, as a mask. -/
def State.mc1Sensors (s : State) : Nat :=
  (List.range 48).foldl (fun m k => if s.is (TCFG.EN.clAt k) ∧ s.get (TCFG.FEEDER.clAt k) = 1 then m + 2 ^ k else m) 0

/-- MC1 feeds the answer to its request of the first round; an answer that repeats a stored result feeds nothing, and the sensor is
requested again (R478, R491). [DEDUCED, log entry 64] -/
def State.mc1Feed (s : State) : State :=
  let k := s.get TEMPI.ASKED.cl - 1
  if s.get TEMPI.ASKED.cl = 0 ∨ s.is (AFEPORT.BUSY.clAt 1) then s
  else
    let s := (s.set TEMPI.ASKED.cl 0).set (TSTAT.F_SEL.clAt 0) k
    let s := ((s.set (TSTAT.F_VALUE.clAt 0) (s.get (AFEPORT.VALUE.clAt 1))).set (TSTAT.F_AFE_FLAGS.clAt 0) (s.get (AFEPORT.FLAGS.clAt 1))).set
      (TSTAT.F_SRC_FAULT.clAt 0) 0
    let s := s.setPair (TSTAT.F_TIME_LO.clAt 0) (TSTAT.F_TIME_HI.clAt 0) (s.pair (AFEPORT.TIME_LO.clAt 1) (AFEPORT.TIME_HI.clAt 1))
    let s := s.feed 0 2
    if s.get (TSTAT.F_OUTCOME.clAt 0) = 2 then s else s.setBit TEMPI.FIRST.cl k false

/-- MC1 requests the next sensor of its first round, lowest first, through its own port (R450, R491). -/
def State.mc1Ask (s : State) : State :=
  if ¬ s.mcRuns 1 ∨ ¬ s.is afeEnabled ∨ s.is (AFEPORT.BUSY.clAt 1) ∨ s.get TEMPI.ASKED.cl ≠ 0 then s
  else
    match (List.range 48).find? (fun k => s.bit TEMPI.FIRST.cl k) with
    | none => s
    | some k => (s.set TEMPI.ASKED.cl (k + 1)).afeRequest 1 (sensorProfile k) 2

/-- MC1's turn in its first round: feed what was answered, request what is next (R491). -/
def State.mc1Turn (s : State) : State := s.mc1Feed.mc1Ask

/-- A conversion of an engine's round ends (R453 to R463). -/
def execConversionDone (engine : Fin 2) (code : BitVec 32) (outA outB : Bool) (s : State) : Out :=
  .next (s.conversionDone engine.val code outA outB).mc1Turn

/-- A round starts on an engine, or is refused and answered (R449, R451). -/
def execRoundStart (engine : Fin 2) (s : State) : Out := .next (s.roundStart engine.val).mc1Turn

/-- A calibration ends (R446, R447); with the AFE enabled MC1 begins its first round (R491). -/
def execCalibrationDone (engine : Fin 2) (zero full : List (BitVec 24)) (tia : List (BitVec 32)) (s : State) : Out :=
  .next (s.calibrationDone engine.val zero full tia).mc1Turn

/-! Starting (R129, R131, R155, R475, R477). -/

/-- MC1 starts: maps, profiles, cooling, and its first round of requests (R475, R476, R491, R513). [DEDUCED, log entry 64] -/
def State.startMc1 (s : State) : State :=
  let s := ((s.loadProfiles s.sensorProfiles).loadSensors.mc1Commit TCFG.page 0).loadZones
  let s := ((s.mc1Commit TZONE.page 0).mc1Commit TZONE.page 1).startCooling
  (((s.set TEMPI.FED.cl 0).set TEMPI.ASKED.cl 0).set TEMPI.FIRST.cl s.mc1Sensors).mc1Ask

/-- MC2 starts: the profiles of the leak taps; an HBM readout that it does not feed returns to NO_SAMPLE (R477, R527).
[DEDUCED, log entry 64] -/
def State.startMc2 (s : State) : State :=
  let s := s.loadProfiles leakProfiles
  (s.each ((List.range 8).filter (fun n => !s.mc2Feeds (16 + n))) (fun s n => s.clearSensor (16 + n))).evaluate

/-- A management core runs, and does what it does as it starts. -/
def State.startMc (s : State) (k cause : Nat) : State :=
  let s := s.runMc k cause
  if k = 1 then s.startMc1 else if k = 2 then s.startMc2 else s

/-- The standby ROM releases MC0 to MC3 together once the bundle check of this standby period has passed and every fitted leak channel
is released, and never in a period that left a channel unproven (R129); the emulated page is served from here (R159).
[DEDUCED, log entry 24] -/
def execCoresRelease (s : State) : Out :=
  if s.get CSYS.TRAY_STATE.cl ≠ 1 ∨ s.get CSYS.BUNDLE_OK.cl = 0 ∨ s.get COOLI.RELEASED.cl = 1 ∨ s.is COOLI.UNPROVEN.cl ∨
      s.is RAILI.TRAY_RESETTING.cl ∨ (List.range 4).any (fun n => s.bit CFAN.LK_FIT.cl n && !s.is (CLEAK.RELEASED.clAt n)) then .next s
  else
    let s := (s.set COOLI.RELEASED.cl 1).set EMU.SERVED.cl 1
    .next ((s.each (List.range 4) (fun s k => (s.set (MCCTL.RESTART_PC.clAt k) (s.mcWord k 2)).startMc k 0)).coolNow)

/-- A management core's image has started: its CORE_READY bit is set (R131, R140). MC1's is set only once every enabled sensor it feeds
has been fed since its start, each feed evaluating its zones (R491). -/
def execCoreReady (core : McNo) (s : State) : Out :=
  .next (if ¬ s.mcRuns core.val ∨ (core.val = 1 ∧ Nat.land s.mc1Sensors (s.get TEMPI.FED.cl) ≠ s.mc1Sensors) then s
    else s.setBit CSYS.CORE_READY.cl core.val true)

/-- A core restarts at its RESTART offset 64 cycles after its watchdog fired, unless it is held (R155, R156). -/
def execCoreRestart (core : Core) (s : State) : Out :=
  match core with
  | .mc k =>
    if s.mcRuns k.val ∨ s.is (MCCTL.HELD.clAt k.val) ∨ s.get COOLI.RELEASED.cl = 0 ∨ s.is FWI.START_HELD.cl ∨
        s.is RAILI.TRAY_RESETTING.cl then .next s
    else .next (s.startMc k.val 1)
  | .warden d k =>
    if s.is (wRun d.val k.val) ∨ s.is (wHeld d.val k.val) ∨ ¬ s.is (FWI.RELEASED.at d.val k.val) then .next s
    else .next (s.runWarden d.val k.val 1)

end Sys2Proof.Machine
end

