-- ==== Sys2Proof/Machine/Dispatch.lean ====
section
/-! DEFINITION. One arm for each command: the meaning it calls. -/

namespace Sys2Proof.Machine

/-- The effect of a command on everything but the queue. -/
def exec (i : Instr) (s : State) : Host.Outcome State Fault Refusal :=
  match i with
  | .registerWrite req chip offset enables value collide high => Sys2Proof.Machine.execRegisterWrite req chip offset enables value collide high s
  | .reservedRangeAccess req chip offset write value => Sys2Proof.Machine.execReservedRangeAccess req chip offset write value s
  | .lowWordRead req chip offset enables high => Sys2Proof.Machine.execLowWordRead req chip offset enables high s
  | .lowWordWrite req chip offset value => Sys2Proof.Machine.execLowWordWrite req chip offset value s
  | .highWordWrite req chip offset value => Sys2Proof.Machine.execHighWordWrite req chip offset value s
  | .pageLock req chip page => Sys2Proof.Machine.execPageLock req chip page s
  | .softReset req chip page => Sys2Proof.Machine.execSoftReset req chip page s
  | .softResetEnd chip page => Sys2Proof.Machine.execSoftResetEnd chip page s
  | .commitRequest req chip page value => Sys2Proof.Machine.execCommitRequest req chip page value s
  | .commitApply chip page => Sys2Proof.Machine.execCommitApply chip page s
  | .bar2Access die offset op ecc => Sys2Proof.Machine.execBar2Access die offset op ecc s
  | .pcieReset endpoint => Sys2Proof.Machine.execPcieReset endpoint s
  | .standbySupplyGood => Sys2Proof.Machine.execStandbySupplyGood s
  | .standbySupplyLost => Sys2Proof.Machine.execStandbySupplyLost s
  | .powerOnResetRelease => Sys2Proof.Machine.execPowerOnResetRelease s
  | .slotIdLatch pins => Sys2Proof.Machine.execSlotIdLatch pins s
  | .corePllLoss => Sys2Proof.Machine.execCorePllLoss s
  | .corePllRelock => Sys2Proof.Machine.execCorePllRelock s
  | .diePllLoss die pll => Sys2Proof.Machine.execDiePllLoss die pll s
  | .sidebandFrame die crcGood => Sys2Proof.Machine.execSidebandFrame die crcGood s
  | .mainOn req => Sys2Proof.Machine.execMainOn req s
  | .mainOff req => Sys2Proof.Machine.execMainOff req s
  | .up req => Sys2Proof.Machine.execUp req s
  | .down req => Sys2Proof.Machine.execDown req s
  | .setptOk req => Sys2Proof.Machine.execSetptOk req s
  | .railPowerGood die => Sys2Proof.Machine.execRailPowerGood die s
  | .railOffStep die => Sys2Proof.Machine.execRailOffStep die s
  | .pgTimeout die => Sys2Proof.Machine.execPgTimeout die s
  | .setptTimeout die => Sys2Proof.Machine.execSetptTimeout die s
  | .railPgLoss die rail => Sys2Proof.Machine.execRailPgLoss die rail s
  | .ibcLost converter => Sys2Proof.Machine.execIbcLost converter s
  | .powerFailAssert => Sys2Proof.Machine.execPowerFailAssert s
  | .powerFailRelease => Sys2Proof.Machine.execPowerFailRelease s
  | .inputOvercurrent amps => Sys2Proof.Machine.execInputOvercurrent amps s
  | .mbxClaim req core => Sys2Proof.Machine.execMbxClaim req core s
  | .send req core => Sys2Proof.Machine.execSend req core s
  | .mbxRelease req core => Sys2Proof.Machine.execMbxRelease req core s
  | .opChange die slot => Sys2Proof.Machine.execOpChange die slot s
  | .throttle die slot => Sys2Proof.Machine.execThrottle die slot s
  | .testSlot die slot => Sys2Proof.Machine.execTestSlot die slot s
  | .opForce die slot => Sys2Proof.Machine.execOpForce die slot s
  | .idlePllLock die => Sys2Proof.Machine.execIdlePllLock die s
  | .atHinge die => Sys2Proof.Machine.execAtHinge die s
  | .voltCheck die powerGood => Sys2Proof.Machine.execVoltCheck die powerGood s
  | .voltOk die => Sys2Proof.Machine.execVoltOk die s
  | .holdEnd die => Sys2Proof.Machine.execHoldEnd die s
  | .fDone die => Sys2Proof.Machine.execFDone die s
  | .transReq req new => Sys2Proof.Machine.execTransReq req new s
  | .arm req => Sys2Proof.Machine.execArm req s
  | .fire req => Sys2Proof.Machine.execFire req s
  | .coresRelease => Sys2Proof.Machine.execCoresRelease s
  | .coreReady core => Sys2Proof.Machine.execCoreReady core s
  | .coreStartTimeout => Sys2Proof.Machine.execCoreStartTimeout s
  | .dieReadyTimeout die => Sys2Proof.Machine.execDieReadyTimeout die s
  | .fetch req => Sys2Proof.Machine.execFetch req s
  | .fetchDone bundle pcieError => Sys2Proof.Machine.execFetchDone bundle pcieError s
  | .bundleCheck req => Sys2Proof.Machine.execBundleCheck req s
  | .bundleCheckDone => Sys2Proof.Machine.execBundleCheckDone s
  | .imgData req die value => Sys2Proof.Machine.execImgData req die value s
  | .wardenRelease req die core => Sys2Proof.Machine.execWardenRelease req die core s
  | .wdtKick req core value => Sys2Proof.Machine.execWdtKick req core value s
  | .watchdogFire core => Sys2Proof.Machine.execWatchdogFire core s
  | .coreRestart core => Sys2Proof.Machine.execCoreRestart core s
  | .cmdPost req k value => Sys2Proof.Machine.execCmdPost req k value s
  | .cmdLate k => Sys2Proof.Machine.execCmdLate k s
  | .publishSwap vin iin => Sys2Proof.Machine.execPublishSwap vin iin s
  | .stale => Sys2Proof.Machine.execStale s
  | .bringup => Sys2Proof.Machine.execBringup s
  | .powerDown => Sys2Proof.Machine.execPowerDown s
  | .ctxOpen => Sys2Proof.Machine.execCtxOpen s
  | .ctxClose => Sys2Proof.Machine.execCtxClose s
  | .clearTrip => Sys2Proof.Machine.execClearTrip s
  | .setThrottle => Sys2Proof.Machine.execSetThrottle s
  | .setForecast => Sys2Proof.Machine.execSetForecast s
  | .clearSensor => Sys2Proof.Machine.execClearSensor s
  | .setFanFloor => Sys2Proof.Machine.execSetFanFloor s
  | .setPumpFloor => Sys2Proof.Machine.execSetPumpFloor s
  | .clearCoolFault => Sys2Proof.Machine.execClearCoolFault s
  | .clearHostFloors => Sys2Proof.Machine.execClearHostFloors s
  | .testRequest => Sys2Proof.Machine.execTestRequest s
  | .testCancel => Sys2Proof.Machine.execTestCancel s
  | .afeCalibrate => Sys2Proof.Machine.execAfeCalibrate s
  | .setTestPeriod => Sys2Proof.Machine.execSetTestPeriod s
  | .flush => Sys2Proof.Machine.execFlush s
  | .setClass => Sys2Proof.Machine.execSetClass s
  | .setFlushMark => Sys2Proof.Machine.execSetFlushMark s
  | .clearFlashFault => Sys2Proof.Machine.execClearFlashFault s
  | .outer t => Sys2Proof.Machine.execOuter t s
  | .mm4 t => Sys2Proof.Machine.execMm4 t s
  | .accrd t => Sys2Proof.Machine.execAccrd t s
  | .accwr t => Sys2Proof.Machine.execAccwr t s
  | .pack8 t => Sys2Proof.Machine.execPack8 t s
  | .pack16 t => Sys2Proof.Machine.execPack16 t s
  | .unpack t => Sys2Proof.Machine.execUnpack t s
  | .vadd t => Sys2Proof.Machine.execVadd t s
  | .vsub t => Sys2Proof.Machine.execVsub t s
  | .vmul t => Sys2Proof.Machine.execVmul t s
  | .vmax t => Sys2Proof.Machine.execVmax t s
  | .vmin t => Sys2Proof.Machine.execVmin t s
  | .vmov t => Sys2Proof.Machine.execVmov t s
  | .bld t corrected bad => Sys2Proof.Machine.execBld t corrected bad s
  | .bst t => Sys2Proof.Machine.execBst t s
  | .blds t corrected bad => Sys2Proof.Machine.execBlds t corrected bad s
  | .bsts t => Sys2Proof.Machine.execBsts t s
  | .add t => Sys2Proof.Machine.execAdd t s
  | .sub t => Sys2Proof.Machine.execSub t s
  | .addi t => Sys2Proof.Machine.execAddi t s
  | .and t => Sys2Proof.Machine.execAnd t s
  | .or t => Sys2Proof.Machine.execOr t s
  | .xor t => Sys2Proof.Machine.execXor t s
  | .shl t => Sys2Proof.Machine.execShl t s
  | .shr t => Sys2Proof.Machine.execShr t s
  | .sra t => Sys2Proof.Machine.execSra t s
  | .movi t => Sys2Proof.Machine.execMovi t s
  | .ori t => Sys2Proof.Machine.execOri t s
  | .shli t => Sys2Proof.Machine.execShli t s
  | .fadd t => Sys2Proof.Machine.execFadd t s
  | .fsub t => Sys2Proof.Machine.execFsub t s
  | .cmpeq t => Sys2Proof.Machine.execCmpeq t s
  | .cmplt t => Sys2Proof.Machine.execCmplt t s
  | .cmpltu t => Sys2Proof.Machine.execCmpltu t s
  | .fcmplt t => Sys2Proof.Machine.execFcmplt t s
  | .fcmpeq t => Sys2Proof.Machine.execFcmpeq t s
  | .cmpeqi t => Sys2Proof.Machine.execCmpeqi t s
  | .pand t => Sys2Proof.Machine.execPand t s
  | .por t => Sys2Proof.Machine.execPor t s
  | .pnot t => Sys2Proof.Machine.execPnot t s
  | .loopi t => Sys2Proof.Machine.execLoopi t s
  | .itof t => Sys2Proof.Machine.execItof t s
  | .ftoi t => Sys2Proof.Machine.execFtoi t s
  | .next t => Sys2Proof.Machine.execNext t s
  | .loopEnd t => Sys2Proof.Machine.execLoopEnd t s
  | .halt t => Sys2Proof.Machine.execHalt t s
  | .vectorRouteSend t => Sys2Proof.Machine.execVectorRouteSend t s
  | .vectorRouteCapture t => Sys2Proof.Machine.execVectorRouteCapture t s
  | .scalarRouteSend t => Sys2Proof.Machine.execScalarRouteSend t s
  | .scalarRouteCapture t => Sys2Proof.Machine.execScalarRouteCapture t s
  | .ctlCapturePredicate t => Sys2Proof.Machine.execCtlCapturePredicate t s
  | .ctlDrivePredicate t => Sys2Proof.Machine.execCtlDrivePredicate t s
  | .ctlCaptureToken t => Sys2Proof.Machine.execCtlCaptureToken t s
  | .ctlDriveToken t => Sys2Proof.Machine.execCtlDriveToken t s
  | .fuseCol req die group column => Sys2Proof.Machine.execFuseCol req die group column s
  | .keyringCheck req die => Sys2Proof.Machine.execKeyringCheck req die s
  | .keyringCheckDone die ecc => Sys2Proof.Machine.execKeyringCheckDone die ecc s
  | .load req die key => Sys2Proof.Machine.execLoad req die key s
  | .shadowReady die cycles ecc => Sys2Proof.Machine.execShadowReady die cycles ecc s
  | .guSend die gate step => Sys2Proof.Machine.execGuSend die gate step s
  | .guTake die gate step => Sys2Proof.Machine.execGuTake die gate step s
  | .guIngressChunk die gate ecc => Sys2Proof.Machine.execGuIngressChunk die gate ecc s
  | .guEgressAck die gate ecc => Sys2Proof.Machine.execGuEgressAck die gate ecc s
  | .globalFreeze die gate step => Sys2Proof.Machine.execGlobalFreeze die gate step s
  | .freezeEnd die cycles held => Sys2Proof.Machine.execFreezeEnd die cycles held s
  | .freezeLimit die gate cycles held => Sys2Proof.Machine.execFreezeLimit die gate cycles held s
  | .sectionEnd die => Sys2Proof.Machine.execSectionEnd die s
  | .quiesceEnd die enabled total => Sys2Proof.Machine.execQuiesceEnd die enabled total s
  | .hinge die waited => Sys2Proof.Machine.execHinge die waited s
  | .skipPhaseComplete die cycles ecc => Sys2Proof.Machine.execSkipPhaseComplete die cycles ecc s
  | .keyStart die waited => Sys2Proof.Machine.execKeyStart die waited s
  | .stretchCycle die => Sys2Proof.Machine.execStretchCycle die s
  | .memoryAccess die agent address op ecc => Sys2Proof.Machine.execMemoryAccess die agent address op ecc s
  | .scrubRead die stack ecc => Sys2Proof.Machine.execScrubRead die stack ecc s
  | .refresh die stack => Sys2Proof.Machine.execRefresh die stack s
  | .stackTempRead die stack celsius => Sys2Proof.Machine.execStackTempRead die stack celsius s
  | .windowEnable req die window rights => Sys2Proof.Machine.execWindowEnable req die window rights s
  | .heapInit req die => Sys2Proof.Machine.execHeapInit req die s
  | .heapInitDone die => Sys2Proof.Machine.execHeapInitDone die s
  | .alloc req die window => Sys2Proof.Machine.execAlloc req die window s
  | .free req die window => Sys2Proof.Machine.execFree req die window s
  | .guAllocToken die gate => Sys2Proof.Machine.execGuAllocToken die gate s
  | .guFreeToken die gate => Sys2Proof.Machine.execGuFreeToken die gate s
  | .allocatorServe die => Sys2Proof.Machine.execAllocatorServe die s
  | .linkEnable req die link => Sys2Proof.Machine.execLinkEnable req die link s
  | .linkDisable req die link => Sys2Proof.Machine.execLinkDisable req die link s
  | .retrain req die link => Sys2Proof.Machine.execRetrain req die link s
  | .signalDetect die link => Sys2Proof.Machine.execSignalDetect die link s
  | .equaliseDone die link swapped partnerPrecodes snr0 snr1 => Sys2Proof.Machine.execEqualiseDone die link swapped partnerPrecodes snr0 snr1 s
  | .fecAlignDone die link => Sys2Proof.Machine.execFecAlignDone die link s
  | .delayDone die link => Sys2Proof.Machine.execDelayDone die link s
  | .beatLockDone die link => Sys2Proof.Machine.execBeatLockDone die link s
  | .trainTimeout die link => Sys2Proof.Machine.execTrainTimeout die link s
  | .trainRetry die link => Sys2Proof.Machine.execTrainRetry die link s
  | .ident die link ident => Sys2Proof.Machine.execIdent die link ident s
  | .identOk die link => Sys2Proof.Machine.execIdentOk die link s
  | .refuse die link code => Sys2Proof.Machine.execRefuse die link code s
  | .delayReq die link stamp turnaround => Sys2Proof.Machine.execDelayReq die link stamp turnaround s
  | .delayRsp die link stamp turnaround time => Sys2Proof.Machine.execDelayRsp die link stamp turnaround time s
  | .beatInfo die link depth parent => Sys2Proof.Machine.execBeatInfo die link depth parent s
  | .codewordReceive die link word => Sys2Proof.Machine.execCodewordReceive die link word s
  | .beatMarker die link beat phase stepped locked arrival => Sys2Proof.Machine.execBeatMarker die link beat phase stepped locked arrival s
  | .beatBoundary die => Sys2Proof.Machine.execBeatBoundary die s
  | .ready die link k => Sys2Proof.Machine.execReady die link k s
  | .release die link k beat => Sys2Proof.Machine.execRelease die link k beat s
  | .releaseTimeout die => Sys2Proof.Machine.execReleaseTimeout die s
  | .los die link => Sys2Proof.Machine.execLos die link s
  | .fecUnlock die link => Sys2Proof.Machine.execFecUnlock die link s
  | .markerMiss die link => Sys2Proof.Machine.execMarkerMiss die link s
  | .peerDown die link => Sys2Proof.Machine.execPeerDown die link s
  | .peerIsolated die link => Sys2Proof.Machine.execPeerIsolated die link s
  | .autoRetrain die link => Sys2Proof.Machine.execAutoRetrain die link s
  | .peerFenced die link => Sys2Proof.Machine.execPeerFenced die link s
  | .peerFencedEnd die link => Sys2Proof.Machine.execPeerFencedEnd die link s
  | .faultFwd die link fragment seq words => Sys2Proof.Machine.execFaultFwd die link fragment seq words s
  | .faultFwdTimeout src seq => Sys2Proof.Machine.execFaultFwdTimeout src seq s
  | .sdescWrite req die => Sys2Proof.Machine.execSdescWrite req die s
  | .sdescRead req die => Sys2Proof.Machine.execSdescRead req die s
  | .postId req die id => Sys2Proof.Machine.execPostId req die id s
  | .slotSend die link slot idle phase time ecc => Sys2Proof.Machine.execSlotSend die link slot idle phase time ecc s
  | .chunkArrival die link beat slot id seq data => Sys2Proof.Machine.execChunkArrival die link beat slot id seq data s
  | .chunkWriteAck die link => Sys2Proof.Machine.execChunkWriteAck die link s
  | .creditReturn die link credits => Sys2Proof.Machine.execCreditReturn die link credits s
  | .nak die link beat slot => Sys2Proof.Machine.execNak die link beat slot s
  | .switch die link beat => Sys2Proof.Machine.execSwitch die link beat s
  | .switchBeat die => Sys2Proof.Machine.execSwitchBeat die s
  | .switchWaitExpiry die link => Sys2Proof.Machine.execSwitchWaitExpiry die link s
  | .readmit die link k => Sys2Proof.Machine.execReadmit die link k s
  | .scqCons req die value => Sys2Proof.Machine.execScqCons req die value s
  | .xferTo die id => Sys2Proof.Machine.execXferTo die id s
  | .creditTo die link => Sys2Proof.Machine.execCreditTo die link s
  | .scqTo die => Sys2Proof.Machine.execScqTo die s
  | .openCtx req die => Sys2Proof.Machine.execOpenCtx req die s
  | .serve req die => Sys2Proof.Machine.execServe req die s
  | .bayImageLoaded die ecc => Sys2Proof.Machine.execBayImageLoaded die ecc s
  | .drain req die => Sys2Proof.Machine.execDrain req die s
  | .close req die => Sys2Proof.Machine.execClose req die s
  | .closeDone die => Sys2Proof.Machine.execCloseDone die s
  | .subPush req die => Sys2Proof.Machine.execSubPush req die s
  | .runTake die => Sys2Proof.Machine.execRunTake die s
  | .inputCopyDone die ecc => Sys2Proof.Machine.execInputCopyDone die ecc s
  | .outputCopyDone die ecc => Sys2Proof.Machine.execOutputCopyDone die ecc s
  | .cqCons req die value => Sys2Proof.Machine.execCqCons req die value s
  | .fqCons req die value => Sys2Proof.Machine.execFqCons req die value s
  | .fwdPop req die => Sys2Proof.Machine.execFwdPop req die s
  | .scanOut req die => Sys2Proof.Machine.execScanOut req die s
  | .scanIn req die ecc => Sys2Proof.Machine.execScanIn req die ecc s
  | .scanDone die cycles => Sys2Proof.Machine.execScanDone die cycles s
  | .tilePllLock die ecc => Sys2Proof.Machine.execTilePllLock die ecc s
  | .afeEnable req => Sys2Proof.Machine.execAfeEnable req s
  | .calibrate req engines => Sys2Proof.Machine.execCalibrate req engines s
  | .calibrationDone engine zero full tia => Sys2Proof.Machine.execCalibrationDone engine zero full tia s
  | .afeRequest req port profile => Sys2Proof.Machine.execAfeRequest req port profile s
  | .roundStart engine => Sys2Proof.Machine.execRoundStart engine s
  | .conversionDone engine code outA outB => Sys2Proof.Machine.execConversionDone engine code outA outB s
  | .afeClockLost => Sys2Proof.Machine.execAfeClockLost s
  | .feed req window => Sys2Proof.Machine.execFeed req window s
  | .sensorStale sensor => Sys2Proof.Machine.execSensorStale sensor s
  | .throttleStep zone => Sys2Proof.Machine.execThrottleStep zone s
  | .throttleRelease zone => Sys2Proof.Machine.execThrottleRelease zone s
  | .zoneTripFence zone => Sys2Proof.Machine.execZoneTripFence zone s
  | .controlPeriod => Sys2Proof.Machine.execControlPeriod s
  | .pwmPeriod => Sys2Proof.Machine.execPwmPeriod s
  | .tachEdge channel us width => Sys2Proof.Machine.execTachEdge channel us width s
  | .tachFault channel => Sys2Proof.Machine.execTachFault channel s
  | .flowPulse input => Sys2Proof.Machine.execFlowPulse input s
  | .flowFault input => Sys2Proof.Machine.execFlowFault input s
  | .faultClear req channel => Sys2Proof.Machine.execFaultClear req channel s
  | .leakCrossing channel current => Sys2Proof.Machine.execLeakCrossing channel current s
  | .leakFilterDone channel leak => Sys2Proof.Machine.execLeakFilterDone channel leak s
  | .leakSettleEnd => Sys2Proof.Machine.execLeakSettleEnd s
  | .leakMeasure channel value ovr => Sys2Proof.Machine.execLeakMeasure channel value ovr s
  | .twoWireEnable req bus => Sys2Proof.Machine.execTwoWireEnable req bus s
  | .twClaim req bus core => Sys2Proof.Machine.execTwClaim req bus core s
  | .twRelease req bus core => Sys2Proof.Machine.execTwRelease req bus core s
  | .twWrite req bus pec address segment => Sys2Proof.Machine.execTwWrite req bus pec address segment s
  | .twRead req bus pec address segment => Sys2Proof.Machine.execTwRead req bus pec address segment s
  | .writeRead req bus pec address segment => Sys2Proof.Machine.execWriteRead req bus pec address segment s
  | .blockRead req bus pec address segment => Sys2Proof.Machine.execBlockRead req bus pec address segment s
  | .transactionEnd bus result count data blockCount pec => Sys2Proof.Machine.execTransactionEnd bus result count data blockCount pec s
  | .abort req bus => Sys2Proof.Machine.execAbort req bus s
  | .stretchTimeout bus => Sys2Proof.Machine.execStretchTimeout bus s
  | .transactionTimeout bus => Sys2Proof.Machine.execTransactionTimeout bus s
  | .recoveryEnd bus ok scl trunkHigh => Sys2Proof.Machine.execRecoveryEnd bus ok scl trunkHigh s
  | .clearStuck req bus => Sys2Proof.Machine.execClearStuck req bus s
  | .recordPresent writer code origin arg0 arg1 aux waiting => Sys2Proof.Machine.execRecordPresent writer code origin arg0 arg1 aux waiting s
  | .dieRecord die => Sys2Proof.Machine.execDieRecord die s
  | .reserve req core => Sys2Proof.Machine.execReserve req core s
  | .commit req core => Sys2Proof.Machine.execCommit req core s
  | .cancel req core => Sys2Proof.Machine.execCancel req core s
  | .reservationTimeout core => Sys2Proof.Machine.execReservationTimeout core s
  | .bucketRefill => Sys2Proof.Machine.execBucketRefill s
  | .sweep => Sys2Proof.Machine.execSweep s
  | .evrecFlush req => Sys2Proof.Machine.execEvrecFlush req s
  | .evrecClearFlashFault req => Sys2Proof.Machine.execEvrecClearFlashFault req s
  | .pageProgramDone ok => Sys2Proof.Machine.execPageProgramDone ok s
  | .eraseDone ok => Sys2Proof.Machine.execEraseDone ok s
  | .eraseTimeout => Sys2Proof.Machine.execEraseTimeout s
  | .pfFlushLimit => Sys2Proof.Machine.execPfFlushLimit s
  | .startupSearchDone => Sys2Proof.Machine.execStartupSearchDone s
  | .rdSeq req window seq => Sys2Proof.Machine.execRdSeq req window seq s
  | .flSeq req window seq => Sys2Proof.Machine.execFlSeq req window seq s
  | .flashReadDone window read => Sys2Proof.Machine.execFlashReadDone window read s
  | .cmSet req => Sys2Proof.Machine.execCmSet req s
  | .frameError framing => Sys2Proof.Machine.execFrameError framing s
  | .ping frame => Sys2Proof.Machine.execPing frame s
  | .status event => Sys2Proof.Machine.execStatus event s
  | .opSet event => Sys2Proof.Machine.execOpSet event s
  | .throttleFrame event => Sys2Proof.Machine.execThrottleFrame event s
  | .testSlotFrame event => Sys2Proof.Machine.execTestSlotFrame event s
  | .time event => Sys2Proof.Machine.execTime event s
  | .setTag event => Sys2Proof.Machine.execSetTag event s
  | .resetArm frame => Sys2Proof.Machine.execResetArm frame s
  | .resetFire frame => Sys2Proof.Machine.execResetFire frame s
  | .replyDeadline => Sys2Proof.Machine.execReplyDeadline s
  | .txCommit req => Sys2Proof.Machine.execTxCommit req s
  | .rxPop req => Sys2Proof.Machine.execRxPop req s
  | .collision => Sys2Proof.Machine.execCollision s
  | .silence => Sys2Proof.Machine.execSilence s
  | .calendarTick => Sys2Proof.Machine.execCalendarTick s
  | .calendarLoad req value => Sys2Proof.Machine.execCalendarLoad req value s
  | .slew req ticks => Sys2Proof.Machine.execSlew req ticks s
  | .supplySwitchover millivolts => Sys2Proof.Machine.execSupplySwitchover millivolts s
  | .vbatSample millivolts => Sys2Proof.Machine.execVbatSample millivolts s
  | .revoke req key value => Sys2Proof.Machine.execRevoke req key value s
  | .fenceSet req mask => Sys2Proof.Machine.execFenceSet req mask s
  | .tripSet req mask => Sys2Proof.Machine.execTripSet req mask s
  | .tripRel req mask => Sys2Proof.Machine.execTripRel req mask s
  | .fenceAssert die => Sys2Proof.Machine.execFenceAssert die s
  | .tripAssert die => Sys2Proof.Machine.execTripAssert die s
  | .thermAlert die => Sys2Proof.Machine.execThermAlert die s
  | .thermAlertFence die => Sys2Proof.Machine.execThermAlertFence die s
  | .thermAlertTrip die => Sys2Proof.Machine.execThermAlertTrip die s
  | .dieFault die => Sys2Proof.Machine.execDieFault die s
  | .fenceTo die => Sys2Proof.Machine.execFenceTo die s
  | .limitWrite req word value => Sys2Proof.Machine.execLimitWrite req word value s
  | .formGo req die => Sys2Proof.Machine.execFormGo req die s
  | .semClaim req core => Sys2Proof.Machine.execSemClaim req core s
  | .semRelease req core => Sys2Proof.Machine.execSemRelease req core s
  | .reqTests req die tests => Sys2Proof.Machine.execReqTests req die tests s
  | .tumblerTestDone die failures fixed => Sys2Proof.Machine.execTumblerTestDone die failures fixed s
  | .linkTestDone die spans => Sys2Proof.Machine.execLinkTestDone die spans s
  | .memoryTestDone die units ecc => Sys2Proof.Machine.execMemoryTestDone die units ecc s
  | .testPeriodTimer => Sys2Proof.Machine.execTestPeriodTimer s
  | .afeCalPeriod engine => Sys2Proof.Machine.execAfeCalPeriod engine s
  | .cageOvercurrent cage => Sys2Proof.Machine.execCageOvercurrent cage s
  | .cageRetry cage => Sys2Proof.Machine.execCageRetry cage s
  | .afePllLock => Sys2Proof.Machine.execAfePllLock s
  | .thermAlertRelease die => Sys2Proof.Machine.execThermAlertRelease die s
  | .calendarDomainReset => Sys2Proof.Machine.execCalendarDomainReset s
  | .mainBusUp => Sys2Proof.Machine.execMainBusUp s
  | .hbmStackUntrained die stack => Sys2Proof.Machine.execHbmStackUntrained die stack s
  | .dieFuseLoadDone die => Sys2Proof.Machine.execDieFuseLoadDone die s

end Sys2Proof.Machine
end

