-- ==== Sys2Proof/Safety.lean ====
section
/-! DEFINITION. What a well-formed state and a safe run are, in the terms the statements use. -/

namespace Sys2Proof.Machine

/-- The keys of a table rise strictly. -/
def Rising {α : Type} (l : List (Nat × α)) : Prop := l.Pairwise (fun a b => a.1 < b.1)

/-- The sparse tables are in their one form: register fields, shadow copies, factory fields and dies, keys rising.
[DESIGN CHOICE, log entry 10] -/
structure State.TablesOk (s : State) : Prop where
  regs : Rising s.regs
  shadow : Rising s.shadow
  nv : Rising s.nv
  dies : Rising s.dies

/-- A state whose tables and memory are in their one form, so that equal machines are equal data. -/
structure State.WellFormed (s : State) : Prop where
  tables : s.TablesOk
  mem : s.memOk

/-- A fuse is spent: it has been written, once ever (R57). -/
def State.fuseSpent (s : State) (k : Nat) : Prop := fuseBase ≤ k ∧ k ∈ s.spent

/-- A command answers a next state, of which `P` holds. -/
def Answers (c : Instr) (s : State) (P : State → Prop) : Prop := ∃ t, exec c s = .next t ∧ P t

/-- A register command reaches its block: the chip is not held in reset, the page is not in soft reset, and the field accepts the
requester (R41, R52, R61). -/
abbrev State.Reaches (s : State) (chip : Nat) (p : Page) (r : Reg) (i : Nat) (req : Requester) : Prop :=
  s.inReset chip = false ∧ s.writable chip p r i req.val = true

/-- A command that is a write is not served by a chip held in reset (R41), and is discarded with the fault that bars it: ACCESS_ERR where
the page is in soft reset or the field does not accept the requester, LOCK_VIOL where the field is locked or spent (R52, R58, R61). -/
abbrev Discards (s : State) (chip : Nat) (p : Page) (r : Reg) (i req value : Nat) (o : Out) : Prop :=
  (s.inReset chip = true → o = .next s) ∧
    (s.inReset chip = false → ∀ b, s.writeBar chip p r i req = some b → o = .next (s.regFault chip p r i b req value))

/-- MC3 can serve the command posted on CMDk: it runs and that command's turn has come, the command is at most 100 ms old, and it carries
the context number in force (R163, R164, R170). -/
abbrev State.CanServe (s : State) (k : Nat) (c : Posted) : Prop :=
  s.posted.find? (fun x => x.k == k) = some c ∧ s.mayServe k = true ∧ (s.trayTime - c.time) * 1000 ≤ 100 * 32768 ∧
    c.tag = s.get POWI.CTX_NUM.cl

/-- What serving CMDk answers where the command is not done: nothing posted, MC3 stopped, or another's turn, nothing; older than 100 ms EXPIRED (6);
for another context REFUSED_STALE (4); in a tray state that does not permit it REFUSED_STATE (3), in that order (R163, R164, R170). -/
abbrev RefusesInOrder (s : State) (k : Nat) (permitted : State → Bool) (o : Out) : Prop :=
  (s.posted.find? (fun c => c.k == k) = none → o = .next s) ∧
    ∀ c, s.posted.find? (fun c => c.k == k) = some c →
      (s.mayServe k = false → o = .next s) ∧
      (s.mayServe k = true → 100 * 32768 < (s.trayTime - c.time) * 1000 → o = .next (s.publish c 6)) ∧
      (s.mayServe k = true → (s.trayTime - c.time) * 1000 ≤ 100 * 32768 → c.tag ≠ s.get POWI.CTX_NUM.cl → o = .next (s.publish c 4)) ∧
      (s.CanServe k c → permitted s = false → o = .next (s.publish c 3))

/-- A slot of the word `w` that a tumbler issues in this cycle can issue, and its guard holds; `y` is the tumbler with the slot
spent (R176, R180, R183). -/
abbrev State.CanIssue (s : State) (t : Tumbler) (slot : Slot) (y : Tum) (w : Nat) : Prop :=
  w = s.uword t.die.val (posOf t) (s.tum t.die.val (posOf t)) ∧ y = { s.tum t.die.val (posOf t) with slots := withBit (s.tum t.die.val (posOf t)).slots slot.num true } ∧ s.issues t.die.val (s.tum t.die.val (posOf t)) = true ∧ (s.tum t.die.val (posOf t)).slots.testBit slot.num = false ∧ guardHolds y w slot = true

/-- The word a tumbler issues marks the slot whose PAPPLY bit is `b`, and the predicate PSEL names, inverted where bit 125 is 1,
is false (R183). -/
abbrev State.GuardFalse (s : State) (t : Tumbler) (b : Nat) : Prop :=
  (s.uword t.die.val (posOf t) (s.tum t.die.val (posOf t))).testBit b = true ∧
    ((s.tum t.die.val (posOf t)).preds.testBit (bitsOf (s.uword t.die.val (posOf t) (s.tum t.die.val (posOf t))) 122 3) !=
      (s.uword t.die.val (posOf t) (s.tum t.die.val (posOf t))).testBit 125) = false

/-- A slot issues nothing: the state is as it was, or with the note alone that the slot has had its turn in this cycle. -/
abbrev IssuesNothing (s : State) (t : Tumbler) (slot : Slot) (o : Out) : Prop :=
  o = .next s ∨ o = .next (s.setTum t.die.val (posOf t)
    { s.tum t.die.val (posOf t) with slots := withBit (s.tum t.die.val (posOf t)).slots slot.num true })

/-- A frame is received and is the tray's to serve: the recorder runs and the core PLL is locked, length and CRC are good, it comes from the
rack supervisor, it is addressed to the tray or to all, and it is no reply (R121, R601 to R603). -/
abbrev State.CanReceive (s : State) (f : Frame) : Prop :=
  s.get RECI.RUNS.cl ≠ 0 ∧ s.get CCLK.CORE_LOCK.cl ≠ 0 ∧ f.payload.length ≤ 240 ∧ f.crc.toNat = frameSum f ∧ f.src = 0 ∧
    s.validFrame.is SUPV.ADDR_VALID.cl = true ∧ (f.dst.toNat = s.validFrame.get SUPV.SLOT_ID.cl ∨ f.dst = 0x7F) ∧ f.type.toNat < 128

/-- MC3 serves the frame at the head of its queue: it runs, the core PLL is locked, and type and length are those served (R608). -/
abbrev State.CanAnswer (s : State) (type len : Nat) (x : RxFrame) : Prop :=
  s.rxq.head? = some x ∧ x.frame.type.toNat = type ∧ s.mcRuns 3 = true ∧ s.get CCLK.CORE_LOCK.cl ≠ 0 ∧
    x.frame.payload.length = len

/-- One step that answers a next state. -/
def Steps (s t : State) : Prop := step s = .next t

/-- A run of steps. -/
inductive Runs : State → State → Prop where
  | here (s : State) : Runs s s
  | more (s t u : State) : Steps s t → Runs t u → Runs s u

/-- A safe run: no step of it ends in a fault or a refusal, and every state of it is well formed. -/
def Safe (s : State) : Prop := ∀ t, Runs s t → t.WellFormed ∧ ∃ u, Steps t u

end Sys2Proof.Machine
end

