-- ==== Sys2Proof/Certificates/Slice0/Obligations.lean ====
section
/-! DEFINITION. The statements for the provers, from the numbered rules of the spec. -/

open Sys2Proof Sys2Proof.Machine

/-- A control period runs the zones through their demands, sets group and pump targets, applies rows 1 to 5 of R514 and
then row 6, publishes a speed for every channel (0 after a second without an edge) and the flow rates, arms the checks
and keeps how long each condition has stood. A PWM period drives every output with its commanded duty, 0 where nothing
is fitted. A tachometer edge of a fitted channel with a pulse of 10 us or more sets the speed from the last PPR
intervals; a shorter pulse and an unfitted channel change nothing. An armed channel that has stood below TACH_MIN for
TACH_TIME and is not yet faulted sets FAULT, records 0x3601 (a fan) or 0x3602 (a pump), sets bit 8 of the event
register, records 0x3605 when both pumps are faulted, and its boost applies at once; any other channel changes nothing.
A flow pulse of a fitted input enters the sliding window. A flow that has stood low for FLOW_TIME sets its FAULT with
0x3603 and boosts the pumps; any other input changes nothing. A W1C clear of a fault whose condition is gone clears it
with 0x3606; one whose condition persists changes nothing. (R505, R507, R508, R509, R512, R514, R516, R517, R518) -/
def Obligations.CoolingOutputsFollowTheControlLoop : Prop :=
  (∀ s : State,
      exec .controlPeriod s = .next ((((((s.each (List.range 16)
        State.zoneDemand).coolTargets.coolNow).coolFollow).each (List.range 14) (fun u k => u.set (rpmOf k) (if
        1000000 ≤ u.clock - u.get (COOLI.LAST_EDGE.clAt k) then 0 else u.get (COOLI.SPEED.clAt k)))).flowRate
        0).flowRate 1 |>.coolArm.coolWatch.flowProven)) ∧
  (∀ s : State,
      exec .pwmPeriod s = .next ((s.each (List.range 14) (fun u k => u.set (dutyOf k) (if u.fitted k then u.get
        (COOLI.CMD.clAt k) else 0))).coolArm.coolWatch)) ∧
  (∀ (s : State) (channel : Fin 14) (us : Nat) (width : Nat) (last : List Nat),
      s.fitted channel.val = true →
      10 ≤ width →
      last = (us :: (aget s.tach channel.val).getD []).take (max 1 (s.get (pprOf channel.val))) →
      exec (.tachEdge channel us width) s = .next (
        ({ s with tach := aput s.tach channel.val last }.set (COOLI.LAST_EDGE.clAt channel.val) s.clock).set
          (COOLI.SPEED.clAt channel.val) (if last.length < max 1 (s.get (pprOf channel.val)) ∨ last.foldl (· + ·) 0 =
          0 then 0 else min 65535 (60000000 / last.foldl (· + ·) 0)))) ∧
  (∀ (s : State) (channel : Fin 14) (us : Nat) (width : Nat),
      s.fitted channel.val = false ∨ width < 10 →
      exec (.tachEdge channel us width) s = .next (s)) ∧
  (∀ (s : State) (channel : Fin 14),
      channel.val < 12 →
      s.tachLow channel.val = true →
      s.heldFor (COOLI.LOW_SINCE.clAt channel.val) (s.coolTime channel.val) = true →
      s.is (CFAN.FAULT.clAt channel.val) = false →
      exec (.tachFault channel) s = .next ((((s.set (CFAN.FAULT.clAt channel.val) 1).event CFAN.page
        0x3601).pageEvent clachasel CFAN.page 8).coolNow)) ∧
  (∀ (s : State) (channel : Fin 14),
      12 ≤ channel.val →
      s.tachLow channel.val = true →
      s.heldFor (COOLI.LOW_SINCE.clAt channel.val) (s.coolTime channel.val) = true →
      s.is (CPUMP.FAULT.clAt (channel.val - 12)) = false →
      exec (.tachFault channel) s = .next (
        let u := ((s.set (CPUMP.FAULT.clAt (channel.val - 12)) 1).event CPUMP.page 0x3602).pageEvent clachasel
          CFAN.page 8
        (if u.is (CPUMP.FAULT.clAt 0) ∧ u.is (CPUMP.FAULT.clAt 1) then u.event CPUMP.page 0x3605 else u).coolNow)) ∧
  (∀ (s : State) (channel : Fin 14),
      s.tachLow channel.val = false ∨ s.heldFor (COOLI.LOW_SINCE.clAt channel.val) (s.coolTime channel.val) = false
        ∨ s.is (faultOf channel.val) = true →
      exec (.tachFault channel) s = .next (s)) ∧
  (∀ (s : State) (input : Fin 2),
      s.bit CFAN.FLOW_FIT.cl input.val = true →
      exec (.flowPulse input) s = .next (({ s with flowPulses := aput s.flowPulses input.val (s.clock :: (aget
        s.flowPulses input.val).getD []) }.flowRate input.val).coolWatch.flowProven)) ∧
  (∀ (s : State) (input : Fin 2),
      s.bit CFAN.FLOW_FIT.cl input.val = false →
      exec (.flowPulse input) s = .next (s)) ∧
  (∀ (s : State) (input : Fin 2),
      s.flowLow input.val = true →
      s.heldFor (COOLI.LOW_SINCE.clAt (14 + input.val)) (s.coolTime (14 + input.val)) = true →
      s.is (CPUMP.FL_FAULT.clAt input.val) = false →
      exec (.flowFault input) s = .next ((((s.set (CPUMP.FL_FAULT.clAt input.val) 1).event CPUMP.page
        0x3603).pageEvent clachasel CFAN.page 8).coolNow)) ∧
  (∀ (s : State) (input : Fin 2),
      s.flowLow input.val = false ∨ s.heldFor (COOLI.LOW_SINCE.clAt (14 + input.val)) (s.coolTime (14 + input.val))
        = false ∨ s.is (CPUMP.FL_FAULT.clAt input.val) = true →
      exec (.flowFault input) s = .next (s)) ∧
  (∀ (s : State) (req : Requester) (channel : Fin 16),
      channel.val < 14 →
      s.Reaches clachasel (coolFaultAt channel.val).1 (coolFaultAt channel.val).2.1 (coolFaultAt channel.val).2.2
        req →
      s.is (faultOf channel.val) = true →
      s.tachLow channel.val = false →
      exec (.faultClear req channel) s = .next ((((s.set (faultOf channel.val) 0).event (if channel.val < 12 then
        CFAN.page else CPUMP.page) 0x3606)).coolNow)) ∧
  (∀ (s : State) (req : Requester) (channel : Fin 16),
      14 ≤ channel.val →
      s.Reaches clachasel (coolFaultAt channel.val).1 (coolFaultAt channel.val).2.1 (coolFaultAt channel.val).2.2
        req →
      s.is (CPUMP.FL_FAULT.clAt (channel.val - 14)) = true →
      s.flowLow (channel.val - 14) = false →
      exec (.faultClear req channel) s = .next (((s.set (CPUMP.FL_FAULT.clAt (channel.val - 14)) 0).event CPUMP.page
        0x3606).coolNow)) ∧
  (∀ (s : State) (req : Requester) (channel : Fin 16),
      s.Reaches clachasel (coolFaultAt channel.val).1 (coolFaultAt channel.val).2.1 (coolFaultAt channel.val).2.2
        req →
      s.coolLow channel.val = true ∨ s.is (if channel.val < 14 then faultOf channel.val else CPUMP.FL_FAULT.clAt
        (channel.val - 14)) = false →
      exec (.faultClear req channel) s = .next (s))

/-- A crossing on a fitted channel stores the line current and starts or ends the filter of each comparator, from the
side the comparator is on: a filter that runs and whose crossing is gone counts a glitch. When a crossing has lasted 20
ms the comparator changes side: leaving the alarm side clears it and may release the channel; returning to it on a
RELEASED channel is a leak trip (leak comparator: every die trips, event 0x4002, rails down, out of service with cause
3) or event 0x4003 (open comparator); before release it has no further effect, and a crossing that has not lasted 20 ms
has none. The end of the leak-settle wait with an unreleased fitted channel sets UNPROVEN and TRIPPED of each, the leak
trip, STBY_CAUSE 2 and event 0x4001; before that end, with every fitted channel released, or with the cores released,
nothing changes. A measurement at or above LEAK_WARN or with OVR sets WARN with 0x3610; the tenth consecutive result
below clears it. An unfitted channel takes no part. (R505, R522, R523, R524, R525, R526, R527) -/
def Obligations.LeakComparatorsFilterAndTrip : Prop :=
  (∀ (s : State) (channel : Fin 4) (current : Nat),
      s.bit CFAN.LK_FIT.cl channel.val = false →
      exec (.leakCrossing channel current) s = .next (s)) ∧
  (∀ (s : State) (channel : Fin 4) (current : Nat) (leak op : Bool),
      s.bit CFAN.LK_FIT.cl channel.val = true →
      leak = (if s.is (CLEAK.ALARM.clAt channel.val) then decide (current < s.leakRelease) else decide (10 * s.get HLS.LEAK_TRIP.cl ≤ current)) →
      op = (if s.is (CLEAK.OPEN.clAt channel.val) then decide (200 < current) else decide (current < 100)) →
      exec (.leakCrossing channel current) s = .next (
        let u := s.set (LEAKI.CUR.clAt channel.val) current
        let v := if s.get (LEAKI.PEND_LEAK.clAt channel.val) ≠ 0 ∧ leak = false then u.count (CLEAK.GLITCHES.clAt channel.val) else u
        let w := if s.get (LEAKI.PEND_OPEN.clAt channel.val) ≠ 0 ∧ op = false then v.count (CLEAK.GLITCHES.clAt channel.val) else v
        (w.markWhile (LEAKI.PEND_LEAK.clAt channel.val) leak).markWhile (LEAKI.PEND_OPEN.clAt channel.val) op)) ∧
  (∀ (s : State) (channel : Fin 4) (leak : Bool),
      s.heldFor (if leak then LEAKI.PEND_LEAK.clAt channel.val else LEAKI.PEND_OPEN.clAt channel.val) 20000 = false
        →
      exec (.leakFilterDone channel leak) s = .next s) ∧
  (∀ (s : State) (channel : Fin 4),
      s.heldFor (LEAKI.PEND_LEAK.clAt channel.val) 20000 = true →
      s.is (CLEAK.ALARM.clAt channel.val) = true →
      exec (.leakFilterDone channel true) s = .next ((((((s.set (LEAKI.PEND_LEAK.clAt channel.val) 0).pageEvent
        clachasel CLEAK.page 8).set (CLEAK.ALARM.clAt channel.val) 0).set (LEAKI.LEFT_LEAK.clAt channel.val)
        1).leakReleased channel.val).flowProven)) ∧
  (∀ (s : State) (channel : Fin 4),
      s.heldFor (LEAKI.PEND_OPEN.clAt channel.val) 20000 = true →
      s.is (CLEAK.OPEN.clAt channel.val) = true →
      exec (.leakFilterDone channel false) s = .next ((((((s.set (LEAKI.PEND_OPEN.clAt channel.val) 0).pageEvent
        clachasel CLEAK.page 8).set (CLEAK.OPEN.clAt channel.val) 0).set (LEAKI.LEFT_OPEN.clAt channel.val)
        1).leakReleased channel.val).flowProven)) ∧
  (∀ (s : State) (channel : Fin 4),
      s.heldFor (LEAKI.PEND_LEAK.clAt channel.val) 20000 = true →
      s.is (CLEAK.ALARM.clAt channel.val) = false →
      s.is (CLEAK.RELEASED.clAt channel.val) = false →
      exec (.leakFilterDone channel true) s = .next ((((s.set (LEAKI.PEND_LEAK.clAt channel.val) 0).pageEvent
        clachasel CLEAK.page 8).set (CLEAK.ALARM.clAt channel.val) 1).flowProven)) ∧
  (∀ (s : State) (channel : Fin 4),
      s.heldFor (LEAKI.PEND_OPEN.clAt channel.val) 20000 = true →
      s.is (CLEAK.OPEN.clAt channel.val) = false →
      s.is (CLEAK.RELEASED.clAt channel.val) = false →
      exec (.leakFilterDone channel false) s = .next ((((s.set (LEAKI.PEND_OPEN.clAt channel.val) 0).pageEvent
        clachasel CLEAK.page 8).set (CLEAK.OPEN.clAt channel.val) 1).flowProven)) ∧
  (∀ (s : State) (channel : Fin 4),
      s.heldFor (LEAKI.PEND_LEAK.clAt channel.val) 20000 = true →
      s.is (CLEAK.ALARM.clAt channel.val) = false →
      s.is (CLEAK.RELEASED.clAt channel.val) = true →
      exec (.leakFilterDone channel true) s = .next (((((s.set (LEAKI.PEND_LEAK.clAt channel.val) 0).pageEvent
        clachasel CLEAK.page 8).set (CLEAK.ALARM.clAt channel.val) 1).flowProven).leakTrip channel.val)) ∧
  (∀ (s : State) (channel : Fin 4),
      s.heldFor (LEAKI.PEND_OPEN.clAt channel.val) 20000 = true →
      s.is (CLEAK.OPEN.clAt channel.val) = false →
      s.is (CLEAK.RELEASED.clAt channel.val) = true →
      exec (.leakFilterDone channel false) s = .next ((((s.set (LEAKI.PEND_OPEN.clAt channel.val) 0).pageEvent
        clachasel CLEAK.page 8).set (CLEAK.OPEN.clAt channel.val) 1).flowProven.event HLS.page 0x4003)) ∧
  (∀ (s : State) (bad : List Nat),
      bad = (List.range 4).filter (fun n => s.bit CFAN.LK_FIT.cl n && !s.is (CLEAK.RELEASED.clAt n)) →
      bad ≠ [] →
      s.get COOLI.RELEASED.cl ≠ 1 →
      s.heldFor LEAKI.SETTLE_SINCE.cl s.leakSettle = true →
      exec .leakSettleEnd s = .next ((((((s.each bad (fun u n => ((u.set (CLEAK.UNPROVEN.clAt n) 1).set
        (CLEAK.TRIPPED.clAt n) 1).setBit CSYS.LEAK_CH.cl n true)).set COOLI.UNPROVEN.cl 1).set HLS.LEAK_TRIPPED.cl
        1).set CSYS.STBY_CAUSE.cl 2).event HLS.page 0x4001).coolNow)) ∧
  (∀ s : State,
      (∀ n < 4, s.bit CFAN.LK_FIT.cl n = true → s.is (CLEAK.RELEASED.clAt n) = true) ∨ s.get COOLI.RELEASED.cl = 1 ∨
        s.heldFor LEAKI.SETTLE_SINCE.cl s.leakSettle = false →
      exec .leakSettleEnd s = .next s) ∧
  (∀ (s : State) (channel : Fin 4) (value : Nat) (ovr : Bool),
      s.bit CFAN.LK_FIT.cl channel.val = true →
      s.get CLEAK.LEAK_WARN.cl ≤ value ∨ ovr = true →
      exec (.leakMeasure channel value ovr) s = .next (((s.set (LEAKI.MEAS.clAt channel.val) (min value 65535)).set
        (CLEAK.WARN.clAt channel.val) 1 |>.set (LEAKI.BELOW.clAt channel.val) 0).event CLEAK.page 0x3610)) ∧
  (∀ (s : State) (channel : Fin 4) (value : Nat),
      s.bit CFAN.LK_FIT.cl channel.val = true →
      value < s.get CLEAK.LEAK_WARN.cl →
      9 ≤ s.get (LEAKI.BELOW.clAt channel.val) →
      exec (.leakMeasure channel value false) s = .next (((s.set (LEAKI.MEAS.clAt channel.val) (min value 65535)).set
        (LEAKI.BELOW.clAt channel.val) 10).set (CLEAK.WARN.clAt channel.val) 0)) ∧
  (∀ (s : State) (channel : Fin 4) (value : Nat),
      s.bit CFAN.LK_FIT.cl channel.val = true →
      value < s.get CLEAK.LEAK_WARN.cl →
      s.get (LEAKI.BELOW.clAt channel.val) < 9 →
      exec (.leakMeasure channel value false) s = .next ((s.set (LEAKI.MEAS.clAt channel.val) (min value
        65535)).count (LEAKI.BELOW.clAt channel.val)))

/-- 12V_SB good brings up all four supplies. Its loss puts power-on and tray domains, recorder, ARM windows and dies at
their Reset values, drops the supplies and leaves TRAY_STATE 0 (OFF). The release of power-on reset with every supply up
resets the same, starts the recorder, locks the core and supervisor clocks, applies the standby regime and records
0x3004 from OFF to STANDBY, and 0x3904 where the calendar domain was reset; with a supply missing nothing is released.
SLOT_ID is latched from the pins once after that release, and its address is valid but for 0 and 0x7F; later or before
it the pins have no effect. A PCIe reset of the endpoint of a die out of reset is counted. The loss of a locked die PLL
clears its lock, counts LOL_COUNT and is die fault cause 0, but for the idle PLL with no change pending; in die reset,
or with the PLL not locked, nothing changes. A bad sideband frame counts CRC_ERR, and the fourth in a row marks the
sideband DOWN with 0x3010; a good one marks it up, ends the row and carries the results the die has to report. Loss of
the core PLL falls back with 0x3011 and ends every controller; relock lets the waiting recoveries run. (R80, R82, R121,
R123, R126, R128, R134, R141, R550, R602, R613, R639) -/
def Obligations.SuppliesPinsAndSidebandFollowTheirRules : Prop :=
  (∀ s : State,
      exec .standbySupplyGood s = .next ((s.set RAILI.SB_GOOD.cl 1).set POWI.SUPPLIES.cl 0xF)) ∧
  (∀ s : State,
      exec .standbySupplyLost s = .next (
        let u := (((s.resetDomain .por clachasel).resetDomain .tray clachasel).recorderOff).trayClear
        let v := { u with armed := [] }.each (List.range 8) State.dieReset
        ((v.set RAILI.SB_GOOD.cl 0).set POWI.SUPPLIES.cl 0).set CSYS.TRAY_STATE.cl 0)) ∧
  (∀ s : State,
      s.get POWI.SUPPLIES.cl ≠ 0xF →
      exec .powerOnResetRelease s = .next (s)) ∧
  (∀ s : State,
      s.get POWI.SUPPLIES.cl = 0xF →
      exec .powerOnResetRelease s = .next (
        let u := (((s.resetDomain .por clachasel).resetDomain .tray clachasel).recorderOff).trayClear
        let v := { u with armed := [] }.each (List.range 8) State.dieReset
        let w := ((v.set RECI.RUNS.cl 1).set CCLK.CORE_LOCK.cl 1).set CCLK.SUPV_LOCK.cl 1
        let x := (w.set POWI.SILENCE_SINCE.cl (w.clock + 1)).set CCLK.CAL_RUN.cl 1
        let y := x.leakInit.coolNow.flowProven.event CSYS.page 0x3004 256
        if y.is POWI.CAL_LOST.cl then (y.set POWI.CAL_LOST.cl 0).event CAL.page 0x3904 else y)) ∧
  (∀ (s : State) (pins : BitVec 7),
      s.get RECI.RUNS.cl ≠ 0 →
      s.is POWI.SLOT_LATCHED.cl = false →
      exec (.slotIdLatch pins) s = .next (((s.set POWI.SLOT_LATCHED.cl 1).set SUPV.SLOT_ID.cl pins.toNat).put
        SUPV.ADDR_VALID.cl (pins.toNat != 0 && pins.toNat != 0x7F))) ∧
  (∀ (s : State) (pins : BitVec 7),
      s.get RECI.RUNS.cl = 0 ∨ s.is POWI.SLOT_LATCHED.cl = true →
      exec (.slotIdLatch pins) s = .next s) ∧
  (∀ (s : State) (endpoint : Fin 9),
      endpoint.val < 8 →
      s.inReset endpoint.val = false →
      exec (.pcieReset endpoint) s = .next (s.count (DRST.PCIE_RESETS.on endpoint.val))) ∧
  (∀ (s : State) (endpoint : Fin 9),
      endpoint.val = 8 ∨ s.inReset endpoint.val = true →
      exec (.pcieReset endpoint) s = .next s) ∧
  (∀ (s : State) (die : DieNo),
      s.inReset die.val = false →
      s.bit (DCLK.TILE_LOCK.on die.val) 0 = true →
      exec (.diePllLoss die 0) s = .next (((s.setBit (DCLK.TILE_LOCK.on die.val) 0 false).count (DCLK.LOL_COUNT.on
        die.val)).dieFault die.val 0)) ∧
  (∀ (s : State) (die : DieNo),
      s.inReset die.val = false →
      s.bit (DCLK.HBM_LOCK.on die.val) 0 = true →
      exec (.diePllLoss die 7) s = .next (((s.setBit (DCLK.HBM_LOCK.on die.val) 0 false).count (DCLK.LOL_COUNT.on
        die.val)).dieFault die.val 0)) ∧
  (∀ (s : State) (die : DieNo),
      s.inReset die.val = false →
      s.bit (DCLK.WARDEN_LOCK.on die.val) 0 = true →
      exec (.diePllLoss die 8) s = .next (((s.setBit (DCLK.WARDEN_LOCK.on die.val) 0 false).count (DCLK.LOL_COUNT.on
        die.val)).dieFault die.val 0)) ∧
  (∀ (s : State) (die : DieNo),
      s.inReset die.val = false →
      s.bit (DCLK.PCIE_LOCK.on die.val) 0 = true →
      exec (.diePllLoss die 9) s = .next (((s.setBit (DCLK.PCIE_LOCK.on die.val) 0 false).count (DCLK.LOL_COUNT.on
        die.val)).dieFault die.val 0)) ∧
  (∀ (s : State) (die : DieNo) (pll : Fin 11),
      1 ≤ pll.val ∧ pll.val ≤ 6 →
      s.inReset die.val = false →
      s.bit (DCLK.LG_LOCK.on die.val) (pll.val - 1) = true →
      exec (.diePllLoss die pll) s = .next (((s.setBit (DCLK.LG_LOCK.on die.val) (pll.val - 1) false).count
        (DCLK.LOL_COUNT.on die.val)).dieFault die.val 0)) ∧
  (∀ (s : State) (die : DieNo),
      s.inReset die.val = false →
      s.bit (HMBX.PLL_READY.on die.val) 0 = true →
      exec (.diePllLoss die 10) s = .next (if s.is (HMBX.HOLD_ACTIVE.on die.val) ∨ (List.range 8).any (fun k =>
        s.get (HMBX.R_STATUS.at die.val k) = 1 && s.get (HMBX.S_KIND.at die.val k) % 4 != 2) then ((s.setBit
        (HMBX.PLL_READY.on die.val) 0 false).count (DCLK.LOL_COUNT.on die.val)).dieFault die.val 0 else s.setBit
        (HMBX.PLL_READY.on die.val) 0 false)) ∧
  (∀ (s : State) (die : DieNo) (pll : Fin 11),
      s.inReset die.val = true ∨ s.bit (pllLock die.val pll.val).1 (pllLock die.val pll.val).2 = false →
      exec (.diePllLoss die pll) s = .next s) ∧
  (∀ (s : State) (die : DieNo) (crcGood : Bool),
      s.bit CSB.ENABLE.cl die.val = false →
      exec (.sidebandFrame die crcGood) s = .next (s)) ∧
  (∀ (s : State) (die : DieNo),
      s.bit CSB.ENABLE.cl die.val = true →
      exec (.sidebandFrame die true) s = .next (((s.set (POWI.SB_FAILS.clAt die.val) 0).set (CSB.UP.clAt die.val)
        1).takeResults die.val)) ∧
  (∀ (s : State) (die : DieNo),
      s.bit CSB.ENABLE.cl die.val = true →
      s.get (POWI.SB_FAILS.clAt die.val) < 3 →
      exec (.sidebandFrame die false) s = .next ((s.count (CSB.CRC_ERR.clAt die.val)).count (POWI.SB_FAILS.clAt
        die.val))) ∧
  (∀ (s : State) (die : DieNo),
      s.bit CSB.ENABLE.cl die.val = true →
      3 ≤ s.get (POWI.SB_FAILS.clAt die.val) →
      exec (.sidebandFrame die false) s = .next (((((s.count (CSB.CRC_ERR.clAt die.val)).set (POWI.SB_FAILS.clAt
        die.val) 0).set (CSB.DOWN.clAt die.val) 1).set (CSB.UP.clAt die.val) 0).event CSB.page 0x3010)) ∧
  (∀ s : State,
      s.get CCLK.CORE_LOCK.cl = 0 →
      exec .corePllLoss s = .next (s)) ∧
  (∀ s : State,
      s.get CCLK.CORE_LOCK.cl ≠ 0 →
      exec .corePllLoss s = .next ((((s.set CCLK.CORE_LOCK.cl 0).set CCLK.CORE_FALLBACK.cl 1).event CCLK.page
        0x3011).each (List.range 6) (fun u k => if u.get (TW.STATE.clAt k) = 1 ∨ u.get (TW.STATE.clAt k) = 3 then
        (u.twCut k).twRecover k else u))) ∧
  (∀ s : State,
      exec .corePllRelock s = .next ((s.set CCLK.CORE_LOCK.cl 1).each (List.range 6) (fun u k => u.set
        (TWI.WAITS.clAt k) 0)))

/-- MAIN_ON with the bus off, MC0 to MC3 released and no tray reset running starts the ramp; else it changes nothing.
The bus comes up with MAIN 2 and every IBC_OK. MAIN_OFF opens the switch only with every die OFF. UP enables order 1 of
every die of DIE_MASK that is OFF or TRIPPED, under the same conditions. DOWN takes down the rails of the dies in reset
and faults the write for a die that is not. SETPT_OK loads the setpoints and enables order 4 of every die of DIE_MASK
waiting at order 3. A power-good sets the rail and enables the next order, starts the junction comparator on its alarm
side with order 1, waits at 3 after order 2, and makes the die UP after order 8. A power-down step turns off the highest
rail and then the next, with OPSEL 0 at the latest when VCORE is gone, deasserts the die's thermal line with VIO, and
ends the power-down with the last. A timeout of power-good or of the setpoints notes the fault, records 0x3205 and takes
the rails down to TRIPPED. A lost power-good trips the die and records 0x4201 with die and rail. A converter lost while
the bus is up clears IBC_OK, sets IBC_LOST and records 0x3206. (R83, R84, R85, R86, R87, R88, R89, R90, R134) -/
def Obligations.RailsFollowTheSequencer : Prop :=
  (∀ (s : State) (req : Requester),
      s.Reaches clachasel SEQ.page SEQ.MAIN_ON 0 req →
      s.mayPower = true →
      s.get SEQ.MAIN.cl = 0 →
      exec (.mainOn req) s = .next (s.set SEQ.MAIN.cl 1)) ∧
  (∀ (s : State) (req : Requester),
      s.Reaches clachasel SEQ.page SEQ.MAIN_ON 0 req →
      s.mayPower = false ∨ s.get SEQ.MAIN.cl ≠ 0 →
      exec (.mainOn req) s = .next s) ∧
  (∀ (s : State) (req : Requester),
      s.Reaches clachasel SEQ.page SEQ.MAIN_OFF 0 req →
      exec (.mainOff req) s = .next (if (List.range 8).all (fun n => s.dieState n = 0) then (s.set SEQ.MAIN.cl 0).set
        SEQ.IBC_OK.cl 0 else s)) ∧
  (∀ (s : State) (req : Requester),
      s.Reaches clachasel SEQ.page SEQ.UP 0 req →
      s.mayPower = true →
      exec (.up req) s = .next (s.each (diesOf (s.get SEQ.DIE_MASK.cl)) (fun u n => if u.dieState n = 0 ∨ u.dieState
        n = 4 then ((u.setDieState n 1).enableRail n 1) else u))) ∧
  (∀ (s : State) (req : Requester),
      s.Reaches clachasel SEQ.page SEQ.UP 0 req →
      s.mayPower = false →
      exec (.up req) s = .next s) ∧
  (∀ (s : State) (req : Requester),
      s.Reaches clachasel SEQ.page SEQ.DOWN 0 req →
      (∀ n ∈ diesOf (s.get SEQ.DIE_MASK.cl), s.tripped n = true) →
      exec (.down req) s = .next (s.each (diesOf (s.get SEQ.DIE_MASK.cl)) (fun u n => if u.tripped n then u.railsDown
        n 0 else u))) ∧
  (∀ (s : State) (req : Requester) (n : Nat),
      s.Reaches clachasel SEQ.page SEQ.DOWN 0 req →
      n ∈ diesOf (s.get SEQ.DIE_MASK.cl) →
      s.tripped n = false →
      exec (.down req) s = .next ((s.regFault clachasel SEQ.page SEQ.DOWN 0 .accessErr req.val 8).each (diesOf (s.get
        SEQ.DIE_MASK.cl)) (fun u n => if u.tripped n then u.railsDown n 0 else u))) ∧
  (∀ (s : State) (req : Requester),
      s.Reaches clachasel SEQ.page SEQ.SETPT_OK 0 req →
      exec (.setptOk req) s = .next (s.each (diesOf (s.get SEQ.DIE_MASK.cl)) (fun u n => if u.dieState n = 1 ∧ u.get
        (RAILI.STEP.clAt n) = 3 then (u.loadSetpoints n).enableRail n 4 else u))) ∧
  (∀ (s : State) (die : DieNo),
      s.dieState die.val ≠ 1 ∨ s.get (RAILI.STEP.clAt die.val) = 0 ∨ s.get (RAILI.STEP.clAt die.val) = 3 →
      exec (.railPowerGood die) s = .next (s)) ∧
  (∀ (s : State) (die : DieNo),
      s.dieState die.val = 1 →
      s.get (RAILI.STEP.clAt die.val) = 1 →
      exec (.railPowerGood die) s = .next (((s.setBit (RAILI.PG.clAt die.val) 1 true).thermRises die.val).enableRail
        die.val 2)) ∧
  (∀ (s : State) (die : DieNo),
      s.dieState die.val = 1 →
      s.get (RAILI.STEP.clAt die.val) ∉ [0, 1, 2, 3, 8] →
      exec (.railPowerGood die) s = .next ((s.setBit (RAILI.PG.clAt die.val) (s.get (RAILI.STEP.clAt die.val))
        true).enableRail die.val (s.get (RAILI.STEP.clAt die.val) + 1))) ∧
  (∀ (s : State) (die : DieNo),
      s.dieState die.val = 1 →
      s.get (RAILI.STEP.clAt die.val) = 2 →
      exec (.railPowerGood die) s = .next ((s.setBit (RAILI.PG.clAt die.val) 2 true).set (RAILI.STEP.clAt die.val) 3)) ∧
  (∀ (s : State) (die : DieNo),
      s.dieState die.val = 1 →
      s.get (RAILI.STEP.clAt die.val) = 8 →
      exec (.railPowerGood die) s = .next ((((s.setBit (RAILI.PG.clAt die.val) 8 true).set (RAILI.STEP.clAt die.val)
        0).set (RAILI.FRESH.clAt die.val) 1).setDieState die.val 2)) ∧
  (∀ (s : State) (die : DieNo),
      s.dieState die.val ≠ 3 →
      exec (.railOffStep die) s = .next (s)) ∧
  (∀ (s : State) (die : DieNo), s.dieState die.val = 3 →
      exec (.railOffStep die) s = .next (
        let n := die.val
        let k := topRail (s.get (RAILI.ON.clAt n))
        let u := (s.setBit (RAILI.ON.clAt n) k false).setBit (RAILI.PG.clAt n) k false
        let v := if k = 5 then (u.set (OPCTL.OPSEL.clAt n) 0).setBit RAILI.HOLD_TRIP.cl n false else u
        let w := if k = 1 then v.thermFalls n else v
        if w.get (RAILI.ON.clAt n) = 0 then (w.railsOff n).tryResetEnd else w.turnOff n (topRail (w.get (RAILI.ON.clAt n))))) ∧
  (∀ (s : State) (die : DieNo),
      s.dieState die.val = 1 →
      s.get (RAILI.STEP.clAt die.val) ≠ 0 →
      s.get (RAILI.STEP.clAt die.val) ≠ 3 →
      exec (.pgTimeout die) s = .next (((s.noteRailFault die.val (s.get (RAILI.STEP.clAt die.val)) true false).event
        SEQ.page 0x3205).railsDown die.val 4)) ∧
  (∀ (s : State) (die : DieNo),
      s.dieState die.val ≠ 1 ∨ s.get (RAILI.STEP.clAt die.val) = 0 ∨ s.get (RAILI.STEP.clAt die.val) = 3 →
      exec (.pgTimeout die) s = .next s) ∧
  (∀ (s : State) (die : DieNo),
      s.dieState die.val = 1 →
      s.get (RAILI.STEP.clAt die.val) = 3 →
      exec (.setptTimeout die) s = .next (((s.noteRailFault die.val 3 true false).event SEQ.page 0x3205).railsDown
        die.val 4)) ∧
  (∀ (s : State) (die : DieNo),
      s.dieState die.val ≠ 1 ∨ s.get (RAILI.STEP.clAt die.val) ≠ 3 →
      exec (.setptTimeout die) s = .next s) ∧
  (∀ (s : State) (die : DieNo) (rail : Fin 9),
      s.bit (RAILI.PG.clAt die.val) rail.val = true →
      exec (.railPgLoss die rail) s = .next ((((s.noteRailFault die.val rail.val false true).trip die.val
        4).railsDown die.val 4).event HLS.page 0x4201 (die.val + 256 * rail.val))) ∧
  (∀ (s : State) (die : DieNo) (rail : Fin 9),
      s.bit (RAILI.PG.clAt die.val) rail.val = false →
      exec (.railPgLoss die rail) s = .next (s)) ∧
  (∀ (s : State) (converter : Fin 4),
      s.get SEQ.MAIN.cl = 2 →
      exec (.ibcLost converter) s = .next (((s.setBit SEQ.IBC_OK.cl converter.val false).setBit SEQ.IBC_LOST.cl
        converter.val true).event SEQ.page 0x3206)) ∧
  (∀ (s : State) (converter : Fin 4),
      s.get SEQ.MAIN.cl ≠ 2 →
      exec (.ibcLost converter) s = .next s) ∧
  (∀ s : State,
      s.get SEQ.MAIN.cl = 1 →
      exec .mainBusUp s = .next ((s.set SEQ.MAIN.cl 2).set SEQ.IBC_OK.cl 0xF)) ∧
  (∀ s : State,
      s.get SEQ.MAIN.cl ≠ 1 →
      exec .mainBusUp s = .next s)

/-- Power-fail assertion sets PF_NOW and PF_SEEN, counts, trips every die with source 5, records 0x4202, flushes the
recorder, takes every rail down and puts the tray out of service with cause 4; while it is asserted a second one changes
nothing. Its release clears PF_NOW and returns a tray in RAILS_UP or later to MGMT_READY, with no context number in
force. Input current above IIN_TRIP trips every die, records 0x4203 and is cause 5; a lower reading is only stored. A
cage overcurrent opens the cage switch and a retry closes it. TRANS_REQ makes an allowed transition and records 0x3004,
and into MGMT_READY it takes the context number out of force; any other write is discarded with ACCESS_ERR. ARM opens
the window of its requester; FIRE within 1 ms from the same requester closes the window and runs the tray reset: it
counts, trips every die with source 5, records 0x3001 with the sources, stops MC0 to MC3, takes the rails down and, once
no rail is on and the main switch is open, resets the tray domain into STANDBY; one fired while another runs, or in its
cycle, joins it. Any other FIRE is discarded with ACCESS_ERR. (R113, R115, R132, R136, R137, R138, R582, R641, R645,
R683, R700) -/
def Obligations.PowerFailureTrayStateAndTrayReset : Prop :=
  (∀ s : State,
      s.is PFAIL.PF_NOW.cl = true →
      exec .powerFailAssert s = .next (s)) ∧
  (∀ s : State,
      s.is PFAIL.PF_NOW.cl = false →
      exec .powerFailAssert s = .next (((((((((s.set PFAIL.PF_NOW.cl 1).set PFAIL.PF_SEEN.cl 1).count
        PFAIL.PF_COUNT.cl).set HLS.PF_TRIPPED.cl 1).tripAll 5).event HLS.page 0x4202).powerFailFlush).allRailsDown
        4).outOfService 4)) ∧
  (∀ s : State,
      s.is PFAIL.PF_NOW.cl = false →
      exec .powerFailRelease s = .next (s)) ∧
  (∀ s : State, s.is PFAIL.PF_NOW.cl = true →
      exec .powerFailRelease s = .next (
        let u := ((s.set PFAIL.PF_NOW.cl 0).set EVREC.PF_FLUSH.cl 0).set RECI.PF_LIMIT.cl 0
        let v := if 3 ≤ s.get CSYS.TRAY_STATE.cl then (u.set POWI.CTX_NUM.cl 0).toTrayState 2 else u
        if v.get EVREC.FLUSHING.cl = 1 then v.flushPage else v)) ∧
  (∀ (s : State) (amps : BitVec 8),
      amps.toNat ≤ s.get HLS.IIN_TRIP.cl →
      exec (.inputOvercurrent amps) s = .next (s.set HLS.IIN.cl amps.toNat)) ∧
  (∀ (s : State) (amps : BitVec 8),
      s.get HLS.IIN_TRIP.cl < amps.toNat →
      exec (.inputOvercurrent amps) s = .next ((((((s.set HLS.IIN.cl amps.toNat).set HLS.IIN_TRIPPED.cl 1).tripAll
        5).event HLS.page 0x4203).allRailsDown 4).outOfService 5)) ∧
  (∀ (s : State) (cage : Fin 16),
      exec (.cageOvercurrent cage) s = .next (s.set (POWI.CAGE_OFF.clAt cage.val) 1)) ∧
  (∀ (s : State) (cage : Fin 16),
      exec (.cageRetry cage) s = .next (s.set (POWI.CAGE_OFF.clAt cage.val) 0)) ∧
  (∀ (s : State) (req : Requester) (new : BitVec 3),
      s.Reaches clachasel CSYS.page CSYS.TRANS_REQ 0 req →
      s.transAllowed new.toNat = true →
      new.toNat ≠ 2 →
      exec (.transReq req new) s = .next ((s.set CSYS.TRAY_STATE.cl new.toNat).event CSYS.page 0x3004 (s.get
        CSYS.TRAY_STATE.cl + 256 * new.toNat))) ∧
  (∀ (s : State) (req : Requester),
      s.Reaches clachasel CSYS.page CSYS.TRANS_REQ 0 req →
      s.transAllowed 2 = true →
      exec (.transReq req 2) s = .next (((s.set POWI.CTX_NUM.cl 0).set CSYS.TRAY_STATE.cl 2).event CSYS.page 0x3004
        (s.get CSYS.TRAY_STATE.cl + 256 * 2))) ∧
  (∀ (s : State) (req : Requester) (new : BitVec 3),
      s.Reaches clachasel CSYS.page CSYS.TRANS_REQ 0 req →
      s.transAllowed new.toNat = false →
      exec (.transReq req new) s = .next (s.regFault clachasel CSYS.page CSYS.TRANS_REQ 0 .accessErr req.val
        new.toNat)) ∧
  (∀ (s : State) (req : Requester),
      s.Reaches clachasel CSYS.page CSYS.ARM 0 req →
      exec (.arm req) s = .next ({ s with armed := aput s.armed req.val s.clock })) ∧
  (∀ (s : State) (req : Requester) (at_ : Nat),
      s.Reaches clachasel CSYS.page CSYS.FIRE 0 req →
      aget s.armed req.val = some at_ →
      s.clock ≤ at_ + 1000 →
      s.is RAILI.TRAY_RESETTING.cl = true ∨ s.get RAILI.RESET_AT.cl = s.clock + 1 →
      exec (.fire req) s = .next ({ s with armed := adel s.armed req.val }.set (if req.val = 0x20 then
        CRST.TRAY_SUPV.cl else CRST.TRAY_HOST.cl) 1)) ∧
  (∀ (s : State) (req : Requester) (at_ : Nat), s.Reaches clachasel CSYS.page CSYS.FIRE 0 req →
      aget s.armed req.val = some at_ → s.clock ≤ at_ + 1000 →
      s.is RAILI.TRAY_RESETTING.cl = false → s.get RAILI.RESET_AT.cl ≠ s.clock + 1 →
      exec (.fire req) s = .next (
        let u := (({ s with armed := adel s.armed req.val }.put CRST.TRAY_HOST.cl (req.val != 0x20)).put CRST.TRAY_SUPV.cl (req.val == 0x20)).set CRST.POR.cl 0
        let v := ((u.count CRST.TRAY_RESETS.cl).set RAILI.RESET_AT.cl (s.clock + 1)).tripAll 5
        let w := v.event CSYS.page 0x3001 (v.get CRST.TRAY_HOST.cl + 2 * v.get CRST.TRAY_SUPV.cl)
        let x := (w.each (List.range 4) (fun u k => u.set (MCCTL.RUNNING.clAt k) 0)).set EMU.MC3_RUN.cl 0
        ((x.set RAILI.TRAY_RESETTING.cl 1).allRailsDown 0).tryResetEnd)) ∧
  (∀ (s : State) (req : Requester),
      s.Reaches clachasel CSYS.page CSYS.FIRE 0 req →
      aget s.armed req.val = none ∨ s.armOpen req.val = false →
      exec (.fire req) s = .next (s.regFault clachasel CSYS.page CSYS.FIRE 0 .accessErr req.val 2))

/-- With the bundle checked and every fitted leak channel released, and none left unproven in this standby period, MC0
to MC3 start together at the RESTART offsets of their images and the emulated page is served; before that nothing
starts. A running core sets its CORE_READY bit, MC1 only once every enabled sensor it feeds has been fed. 500 ms with a
bit missing stops all four with STBY_CAUSE 3 and 0x3005. A die without DIE_READY in time after the release of its TRIP_n
is tripped with 0x3006, and the tray is DIES_SHORT in RAILS_UP with fewer than seven left. 0xA5C3 puts the timeout
written in force and reloads the count of a running core with it, a count of 0 or a stopped core is not reloaded, and
any other value is discarded with ACCESS_ERR. A stopped core that is not held restarts with cause 1; any other is left.
A die out of reset locks its PLLs and loads its fuses. (R129, R131, R133, R134, R140, R153, R154, R155, R156, R159) -/
def Obligations.CoresStartAndRestartAsTheSpecSays : Prop :=
  (∀ s : State,
      s.get CSYS.TRAY_STATE.cl ≠ 1 ∨ s.get CSYS.BUNDLE_OK.cl = 0 ∨ s.get COOLI.RELEASED.cl = 1 ∨ s.is
        COOLI.UNPROVEN.cl = true ∨ s.is RAILI.TRAY_RESETTING.cl = true ∨ (∃ n < 4, s.bit CFAN.LK_FIT.cl n = true ∧
        s.is (CLEAK.RELEASED.clAt n) = false) →
      exec .coresRelease s = .next s) ∧
  (∀ s : State,
      s.get CSYS.TRAY_STATE.cl = 1 →
      s.get CSYS.BUNDLE_OK.cl ≠ 0 →
      s.get COOLI.RELEASED.cl ≠ 1 →
      s.is COOLI.UNPROVEN.cl = false →
      s.is RAILI.TRAY_RESETTING.cl = false →
      (∀ n < 4, s.bit CFAN.LK_FIT.cl n = true → s.is (CLEAK.RELEASED.clAt n) = true) →
      exec .coresRelease s = .next ((((s.set COOLI.RELEASED.cl 1).set EMU.SERVED.cl 1).each (List.range 4) (fun u k
        => (u.set (MCCTL.RESTART_PC.clAt k) (u.mcWord k 2)).startMc k 0)).coolNow)) ∧
  (∀ (s : State) (core : McNo),
      s.mcRuns core.val = true →
      core.val ≠ 1 ∨ Nat.land s.mc1Sensors (s.get TEMPI.FED.cl) = s.mc1Sensors →
      exec (.coreReady core) s = .next (s.setBit CSYS.CORE_READY.cl core.val true)) ∧
  (∀ (s : State) (core : McNo),
      s.mcRuns core.val = false ∨ core.val = 1 ∧ Nat.land s.mc1Sensors (s.get TEMPI.FED.cl) ≠ s.mc1Sensors →
      exec (.coreReady core) s = .next s) ∧
  (∀ s : State,
      s.get COOLI.RELEASED.cl ≠ 0 →
      s.get CSYS.TRAY_STATE.cl = 1 →
      s.get CSYS.CORE_READY.cl ≠ 0xF →
      exec .coreStartTimeout s = .next ((((s.each (List.range 4) State.stopMc).set FWI.START_HELD.cl 1).set
        CSYS.STBY_CAUSE.cl 3).event CSYS.page 0x3005)) ∧
  (∀ s : State,
      s.get COOLI.RELEASED.cl = 0 ∨ s.get CSYS.TRAY_STATE.cl ≠ 1 ∨ s.get CSYS.CORE_READY.cl = 0xF →
      exec .coreStartTimeout s = .next s) ∧
  (∀ (s : State) (die : DieNo), s.bit RAILI.READY_WAIT.cl die.val = true → s.bit CSYS.DIE_READY.cl die.val = false →
      exec (.dieReadyTimeout die) s = .next (
        let u := (s.trip die.val 1).event CSYS.page 0x3006
        if u.get CSYS.TRAY_STATE.cl = 3 ∧ popcount 8 (u.get CSYS.DIE_INSERV.cl) < 7 then u.set CSYS.STBY_CAUSE.cl 4
          else u)) ∧
  (∀ (s : State) (die : DieNo),
      s.bit RAILI.READY_WAIT.cl die.val = false ∨ s.bit CSYS.DIE_READY.cl die.val = true →
      exec (.dieReadyTimeout die) s = .next s) ∧
  (∀ (s : State) (req : Requester) (k : McNo),
      s.Reaches clachasel MCCTL.page MCCTL.WDT_KICK k.val req →
      s.mcRuns k.val = true →
      s.watchLeft (watchMc k.val) ≠ 0 →
      exec (.wdtKick req (.mc k) 0xA5C3) s = .next ((s.set (FWI.WDT_MC.clAt k.val) (s.get (MCCTL.WDT_TIMEOUT.clAt
        k.val))).armWatch (watchMc k.val))) ∧
  (∀ (s : State) (req : Requester) (k : McNo),
      s.Reaches clachasel MCCTL.page MCCTL.WDT_KICK k.val req →
      s.mcRuns k.val = false ∨ s.watchLeft (watchMc k.val) = 0 →
      exec (.wdtKick req (.mc k) 0xA5C3) s = .next s) ∧
  (∀ (s : State) (req : Requester) (d : DieNo) (k : Fin 2),
      s.Reaches d.val WCORE.page WCORE.WDT_KICK k.val req →
      s.is (wRun d.val k.val) = true →
      s.watchLeft (watchW d.val k.val) ≠ 0 →
      exec (.wdtKick req (.warden d k) 0xA5C3) s = .next ((s.set (FWI.WDT_W.at d.val k.val) (s.get
        (WCORE.WDT_TIMEOUT.at d.val k.val))).armWatch (watchW d.val k.val))) ∧
  (∀ (s : State) (req : Requester) (d : DieNo) (k : Fin 2),
      s.Reaches d.val WCORE.page WCORE.WDT_KICK k.val req →
      s.is (wRun d.val k.val) = false ∨ s.watchLeft (watchW d.val k.val) = 0 →
      exec (.wdtKick req (.warden d k) 0xA5C3) s = .next s) ∧
  (∀ (s : State) (req : Requester) (value : BitVec 16) (k : McNo),
      s.Reaches clachasel MCCTL.page MCCTL.WDT_KICK k.val req →
      value.toNat ≠ 0xA5C3 →
      exec (.wdtKick req (.mc k) value) s = .next (s.regFault clachasel MCCTL.page MCCTL.WDT_KICK k.val .accessErr
        req.val value.toNat)) ∧
  (∀ (s : State) (req : Requester) (value : BitVec 16) (d : DieNo) (k : Fin 2),
      s.Reaches d.val WCORE.page WCORE.WDT_KICK k.val req →
      value.toNat ≠ 0xA5C3 →
      exec (.wdtKick req (.warden d k) value) s = .next (s.regFault d.val WCORE.page WCORE.WDT_KICK k.val .accessErr
        req.val value.toNat)) ∧
  (∀ (s : State) (k : McNo),
      s.mcRuns k.val = false →
      s.is (MCCTL.HELD.clAt k.val) = false →
      s.get COOLI.RELEASED.cl ≠ 0 →
      s.is FWI.START_HELD.cl = false →
      s.is RAILI.TRAY_RESETTING.cl = false →
      exec (.coreRestart (.mc k)) s = .next (s.startMc k.val 1)) ∧
  (∀ (s : State) (k : McNo),
      s.mcRuns k.val = true ∨ s.is (MCCTL.HELD.clAt k.val) = true ∨ s.get COOLI.RELEASED.cl = 0 ∨ s.is
        FWI.START_HELD.cl = true ∨ s.is RAILI.TRAY_RESETTING.cl = true →
      exec (.coreRestart (.mc k)) s = .next s) ∧
  (∀ (s : State) (d : DieNo) (k : Fin 2),
      s.is (wRun d.val k.val) = false →
      s.is (wHeld d.val k.val) = false →
      s.is (FWI.RELEASED.at d.val k.val) = true →
      exec (.coreRestart (.warden d k)) s = .next (s.runWarden d.val k.val 1)) ∧
  (∀ (s : State) (d : DieNo) (k : Fin 2),
      s.is (wRun d.val k.val) = true ∨ s.is (wHeld d.val k.val) = true ∨ s.is (FWI.RELEASED.at d.val k.val) = false
        →
      exec (.coreRestart (.warden d k)) s = .next s) ∧
  (∀ (s : State) (die : DieNo),
      s.inReset die.val = false →
      exec (.dieFuseLoadDone die) s = .next ((((((s.set (DCLK.TILE_LOCK.on die.val) 1).set (DCLK.LG_LOCK.on die.val)
        0x3F).set (DCLK.HBM_LOCK.on die.val) 1).set (DCLK.WARDEN_LOCK.on die.val) 1).set (DCLK.PCIE_LOCK.on die.val)
        1).set (DFUSE.FUSES_LOADED.on die.val) 1)) ∧
  (∀ (s : State) (die : DieNo),
      s.inReset die.val = true →
      exec (.dieFuseLoadDone die) s = .next (s))

/-- FETCH in STANDBY before release with a length of 1 byte to 16 MiB starts a fetch of that length and empties staging;
otherwise it is discarded with ACCESS_ERR. A fetch ends with the bundle staged, or with verdict 7 and 0x3007. CHECK
outside a fetch or check counts and runs. Its end gives the verdict of R146: OK takes the bundle ID and key into force
with 0x3003 and loads the images of MC0 to MC3 at SRAM offset 0, any other unstages the bundle with STBY_CAUSE 1 and
0x3002, as does an empty staging memory (the model's choice, log entry 25). A write of IMG_DATA before release stores
the word at IMG_ADDR, which counts up by 4; after release or at 0x4_0000 it is discarded with ACCESS_ERR. A release
whose header fails sets Wk_BAD with 0x2010; one whose header is valid starts the core, with the BUNDLE_ID and RESTART of
the header in BID_Wk and RESTART_PC; a core already released is left (the model's choice, log entry 27). (R145, R146,
R147, R149, R151, R152, R622) -/
def Obligations.BundleAndWardenImagesLoad : Prop :=
  (∀ (s : State) (req : Requester),
      s.Reaches clachasel BLOAD.page BLOAD.FETCH 0 req →
      s.loadOpen = true →
      0 < s.get BLOAD.LEN.cl →
      s.get BLOAD.LEN.cl ≤ 16777216 →
      exec (.fetch req) s = .next ( { (((s.set BLOAD.FETCHING.cl 1).set FWI.FETCH_LEN.cl (s.get BLOAD.LEN.cl)).set
        BLOAD.FETCHED.cl 0).set BLOAD.VERDICT.cl 0 with staged := none })) ∧
  (∀ (s : State) (req : Requester),
      s.Reaches clachasel BLOAD.page BLOAD.FETCH 0 req →
      s.loadOpen = false ∨ s.get BLOAD.LEN.cl = 0 ∨ 16777216 < s.get BLOAD.LEN.cl →
      exec (.fetch req) s = .next (s.regFault clachasel BLOAD.page BLOAD.FETCH 0 .accessErr req.val 1)) ∧
  (∀ (s : State) (bundle : Bundle),
      s.is BLOAD.FETCHING.cl = true →
      exec (.fetchDone bundle true) s = .next (((s.set BLOAD.FETCHING.cl 0).set BLOAD.VERDICT.cl 7).event BLOAD.page
        0x3007)) ∧
  (∀ (s : State) (bundle : Bundle),
      s.is BLOAD.FETCHING.cl = true →
      exec (.fetchDone bundle false) s = .next
        { (s.set BLOAD.FETCHING.cl 0).set BLOAD.FETCHED.cl 1 with
          staged := some ⟨bundle.bytes.take (s.get FWI.FETCH_LEN.cl), bundle.sigOk, bundle.digestOk⟩ }) ∧
  (∀ (s : State) (bundle : Bundle) (pcieError : Bool),
      s.is BLOAD.FETCHING.cl = false →
      exec (.fetchDone bundle pcieError) s = .next s) ∧
  (∀ (s : State) (req : Requester),
      s.Reaches clachasel BLOAD.page BLOAD.CHECK 0 req →
      s.loadOpen = true →
      s.is BLOAD.FETCHING.cl = false →
      s.is BLOAD.CHECKING.cl = false →
      exec (.bundleCheck req) s = .next ((s.set BLOAD.CHECKING.cl 1).count BLOAD.CHECKS.cl)) ∧
  (∀ (s : State) (req : Requester),
      s.Reaches clachasel BLOAD.page BLOAD.CHECK 0 req →
      s.loadOpen = false ∨ s.is BLOAD.FETCHING.cl = true ∨ s.is BLOAD.CHECKING.cl = true →
      exec (.bundleCheck req) s = .next (s.regFault clachasel BLOAD.page BLOAD.CHECK 0 .accessErr req.val 2)) ∧
  (∀ (s : State) (b : Bundle),
      s.is BLOAD.CHECKING.cl = true →
      s.staged = some b →
      (s.set BLOAD.CHECKING.cl 0).verdict b = 1 →
      exec .bundleCheckDone s = .next ((((((s.set BLOAD.CHECKING.cl 0).set BLOAD.VERDICT.cl 1).setPair
        BLOAD.BUNDLE_ID_LO.cl BLOAD.BUNDLE_ID_HI.cl (bundleId b)).set BLOAD.KEY_INDEX.cl (bundleKey b)).each
        (List.range 4) (fun u k => u.loadImage b k)).set TRAYID.KEY_IN_FORCE.cl (bundleKey b) |>.set
        CSYS.BUNDLE_OK.cl 1 |>.event BLOAD.page 0x3003)) ∧
  (∀ (s : State) (b : Bundle),
      s.is BLOAD.CHECKING.cl = true →
      s.staged = some b →
      (s.set BLOAD.CHECKING.cl 0).verdict b ≠ 1 →
      exec .bundleCheckDone s = .next ( { ((s.set BLOAD.CHECKING.cl 0).set BLOAD.VERDICT.cl ((s.set
        BLOAD.CHECKING.cl 0).verdict b)).set BLOAD.FETCHED.cl 0 with staged := none }.set CSYS.STBY_CAUSE.cl 1
        |>.event BLOAD.page 0x3002)) ∧
  (∀ s : State,
      s.is BLOAD.CHECKING.cl = true →
      s.staged = none →
      exec .bundleCheckDone s = .next ( { ((s.set BLOAD.CHECKING.cl 0).set BLOAD.VERDICT.cl 2).set BLOAD.FETCHED.cl
        0 with staged := none }.set CSYS.STBY_CAUSE.cl 1 |>.event BLOAD.page 0x3002)) ∧
  (∀ s : State,
      s.is BLOAD.CHECKING.cl = false →
      exec .bundleCheckDone s = .next s) ∧
  (∀ (s : State) (req : Requester) (die : DieNo) (value : BitVec 32),
      s.Reaches die.val WLOAD.page WLOAD.IMG_DATA 0 req →
      s.is (FWI.RELEASED.at die.val (s.get (WLOAD.IMG_SEL.on die.val))) = false →
      s.get (WLOAD.IMG_ADDR.on die.val) < 0x40000 →
      exec (.imgData req die value) s = .next ((s.setSram die.val (s.get (WLOAD.IMG_SEL.on die.val)) (s.get
        (WLOAD.IMG_ADDR.on die.val) / 4) value.toNat).set (WLOAD.IMG_ADDR.on die.val) (s.get (WLOAD.IMG_ADDR.on
        die.val) + 4))) ∧
  (∀ (s : State) (req : Requester) (die : DieNo) (value : BitVec 32),
      s.Reaches die.val WLOAD.page WLOAD.IMG_DATA 0 req →
      s.is (FWI.RELEASED.at die.val (s.get (WLOAD.IMG_SEL.on die.val))) = true ∨ 0x40000 ≤ s.get (WLOAD.IMG_ADDR.on
        die.val) →
      exec (.imgData req die value) s = .next (s.regFault die.val WLOAD.page WLOAD.IMG_DATA 0 .accessErr req.val
        value.toNat)) ∧
  (∀ (s : State) (req : Requester) (die : DieNo) (core : Fin 2),
      s.Reaches die.val WLOAD.page (wRelease core.val) 0 req →
      s.is (FWI.RELEASED.at die.val core.val) = false →
      s.sramWord die.val core.val 0 ≠ 0x474D4941 ∨ s.sramWord die.val core.val 3 < 64 ∨ 262144 < s.sramWord die.val
        core.val 3 ∨ s.sramWord die.val core.val 3 ≤ s.sramWord die.val core.val 1 →
      exec (.wardenRelease req die core) s = .next ((s.set (wBad die.val core.val) 1).dieEvent die.val WLOAD.page
        0x2010)) ∧
  (∀ (s : State) (req : Requester) (die : DieNo) (core : Fin 2),
      s.Reaches die.val WLOAD.page (wRelease core.val) 0 req →
      s.is (FWI.RELEASED.at die.val core.val) = true →
      exec (.wardenRelease req die core) s = .next s) ∧
  (∀ (s : State) (req : Requester) (die : DieNo),
      s.Reaches die.val WLOAD.page (wRelease 0) 0 req →
      s.is (FWI.RELEASED.at die.val 0) = false →
      s.sramWord die.val 0 0 = 0x474D4941 →
      64 ≤ s.sramWord die.val 0 3 →
      s.sramWord die.val 0 3 ≤ 262144 →
      s.sramWord die.val 0 1 < s.sramWord die.val 0 3 →
      exec (.wardenRelease req die 0) s = .next (((((s.setPair (WLOAD.BID_W0_LO.on die.val) (WLOAD.BID_W0_HI.on
        die.val) (s.sramWord die.val 0 4 + 4294967296 * s.sramWord die.val 0 5)).set (wBad die.val 0) 0).set
        (FWI.RELEASED.at die.val 0) 1).set (WCORE.RESTART_PC.at die.val 0) (s.sramWord die.val 0 2)).runWarden
        die.val 0 0)) ∧
  (∀ (s : State) (req : Requester) (die : DieNo),
      s.Reaches die.val WLOAD.page (wRelease 1) 0 req →
      s.is (FWI.RELEASED.at die.val 1) = false →
      s.sramWord die.val 1 0 = 0x474D4941 →
      64 ≤ s.sramWord die.val 1 3 →
      s.sramWord die.val 1 3 ≤ 262144 →
      s.sramWord die.val 1 1 < s.sramWord die.val 1 3 →
      exec (.wardenRelease req die 1) s = .next (((((s.setPair (WLOAD.BID_W1_LO.on die.val) (WLOAD.BID_W1_HI.on
        die.val) (s.sramWord die.val 1 4 + 4294967296 * s.sramWord die.val 1 5)).set (wBad die.val 1) 0).set
        (FWI.RELEASED.at die.val 1) 1).set (WCORE.RESTART_PC.at die.val 1) (s.sramWord die.val 1 2)).runWarden
        die.val 1 0))

/-- A write of CMD0 to CMD19 that is not pending posts the value with the context tag, the tray time and the next
sequence number and sets its pending bit; CMD20 to CMD31, a pending CMDk and a write that is not let through are
discarded with ACCESS_ERR, and before release ACCESS_ERR is raised in CSYS. A command still pending after 1 ms sets
CMD_LATE with 0x3030. Tray time more than 50 ms past PUB_TIME raises STALE. Served in MGMT_READY with flow proven and
value 0xFF, BRINGUP names in DIE_MASK all dies but those of a zone at TRIP, closes the main switch and reads ACCEPTED
(2); POWER_DOWN trips every die and takes the rails down; CTX_OPEN puts a new nonzero context number into force where
none is and CTX_CLOSE takes it out. A value that the command does not take reads REFUSED_VALUE (5). (R88, R132, R134,
R159, R161, R162, R163, R164, R165, R490, R519) -/
def Obligations.TheEmulatedPageTakesAndServesCommands : Prop :=
  (∀ (s : State) (req : Requester) (k : Fin 32) (value : BitVec 32),
      s.inReset clachasel = false →
      s.is EMU.SERVED.cl = true →
      s.writable clachasel EMU.page EMU.CMD 0 req.val = true →
      k.val < 20 →
      s.bit EMU.PEND_MAP.cl k.val = false →
      exec (.cmdPost req k value) s = .next (
        let q := (s.get FWI.SEQ.cl + 1) % 65536
        let u := { s.set FWI.SEQ.cl (s.get FWI.SEQ.cl + 1) with posted := s.posted ++ [(⟨k.val, value.toNat, s.get
          EMU.CTX_TAG.cl, s.trayTime, q⟩ : Posted)] }
        ((u.setBit EMU.PEND_MAP.cl k.val true).set EMU.LAST_SEQ.cl q).set EMU.LAST_CMD.cl k.val)) ∧
  (∀ (s : State) (req : Requester) (k : Fin 32) (value : BitVec 32),
      s.inReset clachasel = false →
      s.is EMU.SERVED.cl = true →
      s.writable clachasel EMU.page EMU.CMD 0 req.val = false ∨ 20 ≤ k.val ∨ s.bit EMU.PEND_MAP.cl k.val = true →
      exec (.cmdPost req k value) s = .next (s.pageFault clachasel EMU.page 0 .accessErr req.val (0x80080 + 4 *
        k.val) value.toNat)) ∧
  (∀ (s : State) (req : Requester) (k : Fin 32) (value : BitVec 32),
      s.inReset clachasel = false →
      s.is EMU.SERVED.cl = false →
      exec (.cmdPost req k value) s = .next (s.pageFault clachasel CSYS.page 0 .accessErr req.val (0x80080 + 4 *
        k.val) value.toNat)) ∧
  (∀ (s : State) (k : Fin 20),
      s.bit EMU.PEND_MAP.cl k.val = true →
      exec (.cmdLate k) s = .next ((s.pageEvent clachasel EMU.page 8).event EMU.page 0x3030)) ∧
  (∀ (s : State) (k : Fin 20),
      s.bit EMU.PEND_MAP.cl k.val = false →
      exec (.cmdLate k) s = .next (s)) ∧
  (∀ s : State,
      s.is EMU.STALE.cl = false →
      s.is EMU.SERVED.cl = true →
      s.pair EMU.PUB_TIME_LO.cl EMU.PUB_TIME_HI.cl * 1000 + 50 * 32768 < s.trayTime * 1000 →
      exec .stale s = .next ((s.set EMU.STALE.cl 1).pageEvent clachasel EMU.page 10)) ∧
  (∀ s : State,
      s.is EMU.STALE.cl = true ∨ s.is EMU.SERVED.cl = false ∨ s.trayTime * 1000 ≤ s.pair EMU.PUB_TIME_LO.cl
        EMU.PUB_TIME_HI.cl * 1000 + 50 * 32768 →
      exec .stale s = .next s) ∧
  (∀ (s : State) (c : Posted),
      s.CanServe 0 c →
      s.get CSYS.TRAY_STATE.cl = 2 ∧ s.is CPUMP.FLOW_PROVEN.cl = true →
      c.value % 256 = 0xFF →
      exec .bringup s = .next (
        let u := s.each s.hotDies (fun u _ => u.event CSYS.page 0x3521)
        let v := (u.set SEQ.DIE_MASK.cl (s.hotDies.foldl (fun m n => withBit m n false) 0xFF)).set FWI.BRINGING.cl 1
        v.mainOn.publish c 2)) ∧
  (∀ (s : State) (c : Posted),
      s.CanServe 0 c →
      s.get CSYS.TRAY_STATE.cl = 2 ∧ s.is CPUMP.FLOW_PROVEN.cl = true →
      c.value % 256 ≠ 0xFF →
      exec .bringup s = .next (s.publish c 5)) ∧
  (∀ (s : State) (c : Posted),
      s.CanServe 1 c →
      (s.get CSYS.TRAY_STATE.cl = 3 ∨ s.get CSYS.TRAY_STATE.cl = 4) ∧ (∀ n < 8, s.get (CTX.STATE.on n) = 0) →
      c.value = 1 →
      exec .powerDown s = .next (((s.each (List.range 8) (fun u n => u.trip n 1)).allRailsDown 0).publish c 2)) ∧
  (∀ (s : State) (c : Posted),
      s.CanServe 1 c →
      (s.get CSYS.TRAY_STATE.cl = 3 ∨ s.get CSYS.TRAY_STATE.cl = 4) ∧ (∀ n < 8, s.get (CTX.STATE.on n) = 0) →
      c.value ≠ 1 →
      exec .powerDown s = .next (s.publish c 5)) ∧
  (∀ (s : State) (c : Posted),
      s.CanServe 2 c →
      s.get CSYS.TRAY_STATE.cl = 4 →
      c.value % 65536 ≠ 0 ∧ c.value % 65536 ≠ s.get POWI.LAST_CTX.cl ∧ s.get POWI.CTX_NUM.cl = 0 →
      exec .ctxOpen s = .next (((s.set POWI.CTX_NUM.cl (c.value % 65536)).set POWI.LAST_CTX.cl (c.value %
        65536)).publish c 1)) ∧
  (∀ (s : State) (c : Posted),
      s.CanServe 2 c →
      s.get CSYS.TRAY_STATE.cl = 4 →
      c.value % 65536 = 0 ∨ c.value % 65536 = s.get POWI.LAST_CTX.cl ∨ s.get POWI.CTX_NUM.cl ≠ 0 →
      exec .ctxOpen s = .next (s.publish c 5)) ∧
  (∀ (s : State) (c : Posted),
      s.CanServe 3 c →
      s.get CSYS.TRAY_STATE.cl = 5 →
      c.value % 65536 = s.get POWI.CTX_NUM.cl →
      exec .ctxClose s = .next ((s.set POWI.CTX_NUM.cl 0).publish c 1)) ∧
  (∀ (s : State) (c : Posted),
      s.CanServe 3 c →
      s.get CSYS.TRAY_STATE.cl = 5 →
      c.value % 65536 ≠ s.get POWI.CTX_NUM.cl →
      exec .ctxClose s = .next (s.publish c 5))

/-- A writer without a window presents a record: a block's record that finds 16 waiting is lost, with a code outside the
writer's groups it counts BAD_CODE, with the recorder running it is presented for admission. The sideband of an enabled
die delivers the head of DEVQ: a code of no die counts BAD_CODE; a BUSY record stays and counts BUSY_RETRIES; a
suppressed one leaves the queue; an admitted one leaves it, counts SENT and has its effect on the tray; a die in reset,
a sideband disabled or down, or a recorder that scans delivers nothing. RESERVE with nothing reserved reads RESULT 4 and
counts BAD_CODE for a code outside 0x3xxx, 2 when busy or scanning, 3 when suppressed, and 1 with its SEQ when admitted;
a second reservation is discarded with ACCESS_ERR. COMMIT writes the payload into the reserved slot and makes it valid
with RESULT 5; CANCEL and the time limit void it with RESULT 6 and event 0x3803; with nothing reserved they change
nothing. (R567, R568, R569, R571, R572, R586) -/
def Obligations.TheRecorderAdmitsDeliversAndReserves : Prop :=
  (∀ (s : State) (writer : Writer) (code : BitVec 16) (origin : BitVec 24) (arg0 : BitVec 32) (arg1 : BitVec 32)
      (aux : BitVec 16) (waiting : Fin 17),
      s.get RECI.RUNS.cl = 0 →
      exec (.recordPresent writer code origin arg0 arg1 aux waiting) s = .next s) ∧
  (∀ (s : State) (writer : Writer) (code : BitVec 16) (origin : BitVec 24) (arg0 : BitVec 32) (arg1 : BitVec 32)
      (aux : BitVec 16) (waiting : Fin 17),
      s.get RECI.RUNS.cl ≠ 0 →
      writer = .block →
      waiting.val = 16 →
      exec (.recordPresent writer code origin arg0 arg1 aux waiting) s = .next (s.loseRecord 1)) ∧
  (∀ (s : State) (writer : Writer) (code : BitVec 16) (origin : BitVec 24) (arg0 : BitVec 32) (arg1 : BitVec 32)
      (aux : BitVec 16) (waiting : Fin 17),
      s.get RECI.RUNS.cl ≠ 0 →
      writer ≠ .block ∨ waiting.val ≠ 16 →
      writerMay writer code.toNat = false →
      exec (.recordPresent writer code origin arg0 arg1 aux waiting) s = .next (s.count EVREC.BAD_CODE.cl)) ∧
  (∀ (s : State) (writer : Writer) (code : BitVec 16) (origin : BitVec 24) (arg0 : BitVec 32) (arg1 : BitVec 32)
      (aux : BitVec 16) (waiting : Fin 17),
      s.get RECI.RUNS.cl ≠ 0 →
      writer ≠ .block ∨ waiting.val ≠ 16 →
      writerMay writer code.toNat = true →
      exec (.recordPresent writer code origin arg0 arg1 aux waiting) s = .next (s.present code.toNat origin.toNat
        arg0.toNat arg1.toNat aux.toNat)) ∧
  (∀ (s : State) (die : DieNo),
      (s.die die.val).devq = [] →
      exec (.dieRecord die) s = .next (s)) ∧
  (∀ (s : State) (die : DieNo),
      s.inReset die.val = true ∨ s.bit CSB.ENABLE.cl die.val = false ∨ s.is (CSB.DOWN.clAt die.val) = true ∨ s.get
        RECI.RUNS.cl = 0 ∨ s.get EVREC.SCANNING.cl = 1 →
      exec (.dieRecord die) s = .next s) ∧
  (∀ (s : State) (die : DieNo) (r : DieRec) (rest : List DieRec),
      (s.die die.val).devq = r :: rest →
      s.inReset die.val = false →
      s.bit CSB.ENABLE.cl die.val = true →
      s.is (CSB.DOWN.clAt die.val) = false →
      s.get RECI.RUNS.cl ≠ 0 →
      s.get EVREC.SCANNING.cl ≠ 1 →
      r.code / 4096 ≠ 1 ∧ r.code / 4096 ≠ 2 →
      exec (.dieRecord die) s = .next (
        ((s.onDie die.val (fun x => { x with devq := rest })).devqRegs die.val).count EVREC.BAD_CODE.cl)) ∧
  (∀ (s : State) (die : DieNo) (r : DieRec) (rest : List DieRec),
      (s.die die.val).devq = r :: rest →
      s.inReset die.val = false →
      s.bit CSB.ENABLE.cl die.val = true →
      s.is (CSB.DOWN.clAt die.val) = false →
      s.get RECI.RUNS.cl ≠ 0 →
      s.get EVREC.SCANNING.cl ≠ 1 →
      r.code / 4096 = 1 ∨ r.code / 4096 = 2 →
      exec (.dieRecord die) s = .next (
        match s.admitRecord .valid ⟨0, r.code, if s.ageOf r = 65535 then 3 else 1, s.trayTime - usToTicks (s.ageOf
          r), r.origin, 0, r.aux, r.arg0, r.arg1⟩ with
        | (u, .busy) => u.count (DEVQ.BUSY_RETRIES.on die.val)
        | (u, .suppressed) => (u.onDie die.val (fun x => { x with devq := rest })).devqRegs die.val
        | (u, .admitted) =>
          (((u.onDie die.val (fun x => { x with devq := rest })).devqRegs die.val).count (DEVQ.SENT.on
            die.val)).dieAdmitted die.val r)) ∧
  (∀ (s : State) (req : Requester) (core : McNo),
      s.Reaches clachasel EVWIN.page EVWIN.RESERVE core.val req →
      (s.reservedBy core.val).isSome = true →
      exec (.reserve req core) s = .next (s.regFault clachasel EVWIN.page EVWIN.RESERVE core.val .accessErr req.val
        1)) ∧
  (∀ (s : State) (req : Requester) (core : McNo),
      s.Reaches clachasel EVWIN.page EVWIN.RESERVE core.val req →
      s.reservedBy core.val = none →
      s.get (EVWIN.CODE.clAt core.val) / 4096 ≠ 3 →
      exec (.reserve req core) s = .next ((s.set (EVWIN.RESULT.clAt core.val) 4).count EVREC.BAD_CODE.cl)) ∧
  (∀ (s : State) (req : Requester) (core : McNo),
      s.Reaches clachasel EVWIN.page EVWIN.RESERVE core.val req →
      s.reservedBy core.val = none →
      s.get (EVWIN.CODE.clAt core.val) / 4096 = 3 →
      s.get EVREC.SCANNING.cl = 1 →
      exec (.reserve req core) s = .next (s.set (EVWIN.RESULT.clAt core.val) 2)) ∧
  (∀ (s : State) (req : Requester) (core : McNo),
      s.Reaches clachasel EVWIN.page EVWIN.RESERVE core.val req →
      s.reservedBy core.val = none →
      s.get (EVWIN.CODE.clAt core.val) / 4096 = 3 →
      s.get EVREC.SCANNING.cl ≠ 1 →
      exec (.reserve req core) s = .next (
        match s.admitRecord (.reserved core.val) ⟨0, s.get (EVWIN.CODE.clAt core.val), 0, s.trayTime,
            windowOrigin (s.get (EVWIN.ORIGIN.clAt core.val)), 0, s.get (EVWIN.AUX.clAt core.val),
            s.get (EVWIN.ARG0.clAt core.val), s.get (EVWIN.ARG1.clAt core.val)⟩ with
        | (u, .busy) => u.set (EVWIN.RESULT.clAt core.val) 2
        | (u, .suppressed) => u.set (EVWIN.RESULT.clAt core.val) 3
        | (u, .admitted) =>
          (u.set (EVWIN.RESULT.clAt core.val) 1).set (EVWIN.SEQ.clAt core.val) ((u.reservedBy core.val).getD 0))) ∧
  (∀ (s : State) (req : Requester) (core : McNo) (q : Nat) (slot : RingSlot),
      s.Reaches clachasel EVWIN.page EVWIN.COMMIT core.val req →
      s.reservedBy core.val = some q →
      aget s.ring (q % 4096) = some slot →
      exec (.commit req core) s = .next (
        let r := { slot.body with
            aux := s.get (EVWIN.AUX.clAt core.val)
            arg0 := s.get (EVWIN.ARG0.clAt core.val)
            arg1 := s.get (EVWIN.ARG1.clAt core.val) }
        (({ s with ring := aput s.ring (q % 4096) ⟨.valid, r⟩ }.ringRegs).set (EVWIN.RESULT.clAt core.val)
          5).flushPage)) ∧
  (∀ (s : State) (req : Requester) (core : McNo),
      s.Reaches clachasel EVWIN.page EVWIN.COMMIT core.val req →
      s.reservedBy core.val = none →
      exec (.commit req core) s = .next (s)) ∧
  (∀ (s : State) (req : Requester) (core : McNo) (q : Nat) (slot : RingSlot),
      s.Reaches clachasel EVWIN.page EVWIN.CANCEL core.val req →
      s.reservedBy core.val = some q →
      aget s.ring (q % 4096) = some slot →
      exec (.cancel req core) s = .next (
        ((({ s with ring := aput s.ring (q % 4096) ⟨.void, slot.body⟩ }.ringRegs).set (EVWIN.RESULT.clAt core.val)
          6).event EVWIN.page 0x3803 (core.val + 512)).flushPage)) ∧
  (∀ (s : State) (req : Requester) (core : McNo),
      s.Reaches clachasel EVWIN.page EVWIN.CANCEL core.val req →
      s.reservedBy core.val = none →
      exec (.cancel req core) s = .next s) ∧
  (∀ (s : State) (core : McNo) (q : Nat) (slot : RingSlot),
      s.reservedBy core.val = some q →
      aget s.ring (q % 4096) = some slot →
      exec (.reservationTimeout core) s = .next (
        ((({ s with ring := aput s.ring (q % 4096) ⟨.void, slot.body⟩ }.ringRegs).set (EVWIN.RESULT.clAt core.val)
          6).event EVWIN.page 0x3803 (core.val + 256)).flushPage)) ∧
  (∀ (s : State) (core : McNo),
      s.reservedBy core.val = none →
      exec (.reservationTimeout core) s = .next (s))

/-- A refill, at a multiple of 32 ticks of tray time, adds 64 times RATE, of 65,536 to the token, to every bucket up to
BURST, a bucket listed on its own and the level of its class alike. A sweep, at a multiple of SWEEP_S seconds of tray
time, records the suppressed occurrences and may flush; neither does anything at another time. CM_SET puts a settable
code in its class and discards any other with ACCESS_ERR. FLUSH starts a flush to the end; CLEAR_FLASH_FAULT clears the
fault, erases blocks b+1 and b+2 again and resumes. A data program writes the records unmarked and starts the marks; the
mark program marks them, moves FLUSH_NEXT to the end of the page and goes on; a failure sets FLASH_FAULT with 0x3804 and
the flash address. The end of an erase empties its block; a failed or late one is a flash fault at its address. 7.0 ms
after power-fail assertion no program starts. The start-up search of an empty flash leaves HEAD and START_SEQ at 1,
erases blocks 0, 1 and 2, records 0x3806 and admits the records held. (R573, R574, R576, R578, R579, R580, R581, R582,
R583, R584) -/
def Obligations.TheRecorderLimitsFlushesAndSearches : Prop :=
  (∀ s : State, s.trayTime % 32 = 0 →
      exec .bucketRefill s = .next (
        let after := fun (c had : Nat) => min (had + 64 * s.get (EVRATE.RATE.clAt (c - 1))) (s.get (EVRATE.BURST.clAt
          (c - 1)) * 65536)
        let level := fun (c : Nat) => after c (s.get (RECI.LEVEL.clAt (c - 1)))
        let u : State := { s with tokens := s.tokens.foldl (fun l e =>
            let v := after (s.classOf e.1) (s.tokensOf e.1)
            if s.classOf e.1 = 0 ∨ v = level (s.classOf e.1) then l else aput l e.1 v) [] }
        ((u.set (RECI.LEVEL.clAt 0) (level 1)).set (RECI.LEVEL.clAt 1) (level 2)).set (RECI.LEVEL.clAt 2) (level 3))) ∧
  (∀ s : State,
      s.trayTime % 32 ≠ 0 →
      exec .bucketRefill s = .next s) ∧
  (∀ s : State,
      s.get RECI.RUNS.cl ≠ 0 →
      s.get EVREC.SCANNING.cl ≠ 1 →
      s.trayTime % (32768 * s.get EVREC.SWEEP_S.cl) = 0 →
      exec .sweep s = .next (s.sweep.flushAfter 0x3000)) ∧
  (∀ s : State,
      s.get RECI.RUNS.cl = 0 ∨ s.get EVREC.SCANNING.cl = 1 ∨ s.trayTime % (32768 * s.get EVREC.SWEEP_S.cl) ≠ 0 →
      exec .sweep s = .next s) ∧
  (∀ (s : State) (req : Requester),
      s.Reaches clachasel EVRATE.page EVRATE.CM_SET 0 req →
      classSettable (s.get EVRATE.CM_CODE.cl) = true →
      exec (.cmSet req) s = .next (s.setClass (s.get EVRATE.CM_CODE.cl) (s.get EVRATE.CM_CLASS.cl))) ∧
  (∀ (s : State) (req : Requester),
      s.Reaches clachasel EVRATE.page EVRATE.CM_SET 0 req →
      classSettable (s.get EVRATE.CM_CODE.cl) = false →
      exec (.cmSet req) s = .next (s.regFault clachasel EVRATE.page EVRATE.CM_SET 0 .accessErr req.val 1)) ∧
  (∀ (s : State) (req : Requester),
      s.Reaches clachasel EVREC.page EVREC.FLUSH 0 req →
      exec (.evrecFlush req) s = .next (s.startFlush true)) ∧
  (∀ (s : State) (req : Requester),
      s.Reaches clachasel EVREC.page EVREC.CLEAR_FLASH_FAULT 0 req →
      s.is EVREC.FLASH_FAULT.cl = true →
      exec (.evrecClearFlashFault req) s = .next (
        (({ s.set EVREC.FLASH_FAULT.cl 0 with eraseQ := [] }.startErase (flashBlock (s.get EVREC.FLUSH_NEXT.cl) +
          1)).startErase (flashBlock (s.get EVREC.FLUSH_NEXT.cl) + 2)).startFlush true)) ∧
  (∀ (s : State) (req : Requester),
      s.Reaches clachasel EVREC.page EVREC.CLEAR_FLASH_FAULT 0 req →
      s.is EVREC.FLASH_FAULT.cl = false →
      exec (.evrecClearFlashFault req) s = .next (s)) ∧
  (∀ s : State,
      s.get RECI.PHASE.cl = 1 →
      s.get RECI.PF_LIMIT.cl ≠ 1 →
      exec (.pageProgramDone true) s = .next ((s.writePage false).set RECI.PHASE.cl 2)) ∧
  (∀ s : State,
      s.get RECI.PHASE.cl = 1 →
      s.get RECI.PF_LIMIT.cl = 1 →
      exec (.pageProgramDone true) s = .next (((s.writePage false).set RECI.PHASE.cl 0).flushPage)) ∧
  (∀ s : State,
      s.get RECI.PHASE.cl = 2 →
      exec (.pageProgramDone true) s = .next ((((((s.writePage true).set EVREC.FLUSH_NEXT.cl (s.get
        RECI.PAGE_END.cl)).set RECI.PHASE.cl 0).ringRegs).flushPage))) ∧
  (∀ s : State,
      s.get RECI.PHASE.cl = 1 →
      exec (.pageProgramDone false) s = .next ((s.writePage false).flashFault (s.get EVREC.FLUSH_NEXT.cl % 2097152 *
        32))) ∧
  (∀ s : State,
      s.get RECI.PHASE.cl = 2 →
      exec (.pageProgramDone false) s = .next (s.flashFault (s.get EVREC.FLUSH_NEXT.cl % 2097152 * 32))) ∧
  (∀ (s : State) (b : Nat) (rest : List Nat),
      s.eraseQ = b :: rest →
      exec (.eraseDone true) s = .next (
        ({ s with eraseQ := rest, flash := akeep s.flash (fun f => f / 2048 != b) }.put EVREC.ERASING.cl (rest !=
          [])).flushPage)) ∧
  (∀ (s : State) (b : Nat) (rest : List Nat),
      s.eraseQ = b :: rest →
      exec (.eraseDone false) s = .next (
        ({ s with eraseQ := rest }.put EVREC.ERASING.cl (rest != [])).flashFault (b * 65536))) ∧
  (∀ (s : State) (b : Nat) (rest : List Nat),
      s.eraseQ = b :: rest →
      exec .eraseTimeout s = .next (
        ({ s with eraseQ := rest }.put EVREC.ERASING.cl (rest != [])).flashFault (b * 65536))) ∧
  (∀ s : State,
      s.is PFAIL.PF_NOW.cl = true →
      exec .pfFlushLimit s = .next ((s.set RECI.PF_LIMIT.cl 1).flushPage)) ∧
  (∀ s : State,
      s.get RECI.RUNS.cl = 0 ∨ s.get EVREC.SCANNING.cl = 0 ∨ s.is PFAIL.PF_NOW.cl = true →
      exec .startupSearchDone s = .next (s)) ∧
  (∀ s : State,
      s.get RECI.RUNS.cl ≠ 0 →
      s.get EVREC.SCANNING.cl ≠ 0 →
      s.is PFAIL.PF_NOW.cl = false →
      s.flash = [] →
      exec .startupSearchDone s = .next (
        let u := ((s.set EVREC.SCANNING.cl 0).set EVREC.HEAD.cl 1).set EVREC.START_SEQ.cl 1
        let v := ((((u.set EVREC.FLUSH_NEXT.cl 1).ringRegs).startErase 0).startErase 1).startErase 2
        let w := v.event EVREC.page 0x3806 0 0 0
        w.heldRecs.foldl (fun u r =>
          match u.admitRecord .valid ⟨0, r.code, 0, r.entered, r.origin, 0, r.aux, r.arg0, r.arg1⟩ with
          | (u, .busy) => u.loseRecord 0
          | (u, _) => u) { w with heldRecs := [] }))

/-- RD_SEQ copies the eight words of a valid record in the ring with RD_STATUS 0; a sequence number before OLDEST reads
1, one not yet committed 2, a void slot 3. FL_SEQ starts a flash read, or reads BUSY 4 during a power-fail flush. The
end of a flash read copies the eight words the flash returned, what was written there or others, and reads 1 without the
mark, 2 with a wrong check, 0 for the record asked for and 3 for another record; during a power-fail flush it reads BUSY
4 and copies nothing. Served, CMD16 with value 1 starts a flush (2), CMD17 with a settable code sets its class (1),
CMD18 with 8 to 96 sets FLUSH_MARK (1), CMD19 with a flash fault and value 1 clears it (1); any other value reads 5, and
CMD19 without a flash fault 3. (R585, R586, R587, R588, R592) -/
def Obligations.TheRecorderIsReadAndCommanded : Prop :=
  (∀ (s : State) (req : Requester) (window : Fin 5) (seq : BitVec 32) (r : Rec),
      s.Reaches clachasel EVREAD.page EVREAD.RD_SEQ window.val req →
      seqSub seq.toNat (s.get EVREC.OLDEST.cl) < 2147483648 →
      seqSub seq.toNat (s.get EVREC.OLDEST.cl) < seqSub (s.get EVREC.COMMITTED_TO.cl + 1) (s.get EVREC.OLDEST.cl) →
      aget s.ring (seq.toNat % 4096) = some ⟨.valid, r⟩ →
      exec (.rdSeq req window seq) s = .next (((s.set (EVREAD.RD_SEQ.clAt window.val) seq.toNat).each (List.range 8)
        (fun u i => u.set (EVREAD.RD_DATA.clAt (8 * window.val + i)) (r.words.getD i 0))).set (EVREAD.RD_STATUS.clAt
        window.val) 0)) ∧
  (∀ (s : State) (req : Requester) (window : Fin 5) (seq : BitVec 32),
      s.Reaches clachasel EVREAD.page EVREAD.RD_SEQ window.val req →
      2147483648 ≤ seqSub seq.toNat (s.get EVREC.OLDEST.cl) →
      exec (.rdSeq req window seq) s = .next ((s.set (EVREAD.RD_SEQ.clAt window.val) seq.toNat).set
        (EVREAD.RD_STATUS.clAt window.val) 1)) ∧
  (∀ (s : State) (req : Requester) (window : Fin 5) (seq : BitVec 32),
      s.Reaches clachasel EVREAD.page EVREAD.RD_SEQ window.val req →
      seqSub seq.toNat (s.get EVREC.OLDEST.cl) < 2147483648 →
      seqSub (s.get EVREC.COMMITTED_TO.cl + 1) (s.get EVREC.OLDEST.cl) ≤ seqSub seq.toNat (s.get EVREC.OLDEST.cl) →
      exec (.rdSeq req window seq) s = .next ((s.set (EVREAD.RD_SEQ.clAt window.val) seq.toNat).set
        (EVREAD.RD_STATUS.clAt window.val) 2)) ∧
  (∀ (s : State) (req : Requester) (window : Fin 5) (seq : BitVec 32) (r : Rec),
      s.Reaches clachasel EVREAD.page EVREAD.RD_SEQ window.val req →
      seqSub seq.toNat (s.get EVREC.OLDEST.cl) < 2147483648 →
      seqSub seq.toNat (s.get EVREC.OLDEST.cl) < seqSub (s.get EVREC.COMMITTED_TO.cl + 1) (s.get EVREC.OLDEST.cl) →
      aget s.ring (seq.toNat % 4096) = some ⟨.void, r⟩ →
      exec (.rdSeq req window seq) s = .next ((s.set (EVREAD.RD_SEQ.clAt window.val) seq.toNat).set
        (EVREAD.RD_STATUS.clAt window.val) 3)) ∧
  (∀ (s : State) (req : Requester) (window : Fin 5) (seq : BitVec 32),
      s.Reaches clachasel EVREAD.page EVREAD.FL_SEQ window.val req →
      s.is EVREC.PF_FLUSH.cl = false →
      exec (.flSeq req window seq) s = .next ((s.set (EVREAD.FL_SEQ.clAt window.val) seq.toNat).set
        (EVREAD.FL_PENDING.clAt window.val) 1)) ∧
  (∀ (s : State) (req : Requester) (window : Fin 5) (seq : BitVec 32),
      s.Reaches clachasel EVREAD.page EVREAD.FL_SEQ window.val req →
      s.is EVREC.PF_FLUSH.cl = true →
      exec (.flSeq req window seq) s = .next ((((s.set (EVREAD.FL_SEQ.clAt window.val) seq.toNat).set
        (EVREAD.FL_STATUS.clAt window.val) 4).set (EVREAD.FL_PENDING.clAt window.val) 0).pageEvent clachasel
        EVREAD.page (8 + window.val))) ∧
  (∀ (s : State) (window : Fin 5) (read : Option (List (BitVec 32))) (words : List Nat),
      s.is (EVREAD.FL_PENDING.clAt window.val) = true →
      s.is EVREC.PF_FLUSH.cl = false →
      words = (match read with
        | none => flashWords (aget s.flash (s.get (EVREAD.FL_SEQ.clAt window.val) % 2097152))
        | some ws => ws.map BitVec.toNat) →
      exec (.flashReadDone window read) s = .next ((((s.each (List.range 8) (fun u i => u.set (EVREAD.FL_DATA.clAt (8 *
        window.val + i)) (words.getD i 0))).set (EVREAD.FL_STATUS.clAt window.val) (if bitsOf (words.getD 4 0) 24 8 ≠ 0x5A
        then 1 else if crc8 ((words.flatMap (bytesLE 4)).set 7 0) ≠ bitsOf (words.getD 1 0) 24 8 then 2 else if words.getD 0 0 =
        s.get (EVREAD.FL_SEQ.clAt window.val) then 0 else 3)).set (EVREAD.FL_PENDING.clAt window.val) 0).pageEvent clachasel
        EVREAD.page (8 + window.val))) ∧
  (∀ (s : State) (window : Fin 5) (read : Option (List (BitVec 32))),
      s.is (EVREAD.FL_PENDING.clAt window.val) = true →
      s.is EVREC.PF_FLUSH.cl = true →
      exec (.flashReadDone window read) s = .next (((s.set (EVREAD.FL_STATUS.clAt window.val) 4).set
        (EVREAD.FL_PENDING.clAt window.val) 0).pageEvent clachasel EVREAD.page (8 + window.val))) ∧
  (∀ (s : State) (window : Fin 5) (read : Option (List (BitVec 32))),
      s.is (EVREAD.FL_PENDING.clAt window.val) = false →
      exec (.flashReadDone window read) s = .next s) ∧
  (∀ (s : State) (c : Posted),
      s.CanServe 16 c →
      s.mgmtReady = true →
      c.value = 1 →
      exec .flush s = .next ((s.startFlush true).publish c 2)) ∧
  (∀ (s : State) (c : Posted),
      s.CanServe 16 c →
      s.mgmtReady = true →
      c.value ≠ 1 →
      exec .flush s = .next (s.publish c 5)) ∧
  (∀ (s : State) (c : Posted),
      s.CanServe 17 c →
      s.mgmtReady = true →
      classSettable (c.value % 65536) = true →
      exec .setClass s = .next ((s.setClass (c.value % 65536) (bitsOf c.value 16 2)).publish c 1)) ∧
  (∀ (s : State) (c : Posted),
      s.CanServe 17 c →
      s.mgmtReady = true →
      classSettable (c.value % 65536) = false →
      exec .setClass s = .next (s.publish c 5)) ∧
  (∀ (s : State) (c : Posted),
      s.CanServe 18 c →
      s.mgmtReady = true →
      8 ≤ c.value % 128 ∧ c.value % 128 ≤ 96 →
      exec .setFlushMark s = .next ((s.set EVREC.FLUSH_MARK.cl (c.value % 128)).publish c 1)) ∧
  (∀ (s : State) (c : Posted),
      s.CanServe 18 c →
      s.mgmtReady = true →
      ¬ (8 ≤ c.value % 128 ∧ c.value % 128 ≤ 96) →
      exec .setFlushMark s = .next (s.publish c 5)) ∧
  (∀ (s : State) (c : Posted),
      s.CanServe 19 c →
      s.mgmtReady = true →
      s.is EVREC.FLASH_FAULT.cl = true →
      c.value = 1 →
      exec .clearFlashFault s = .next (s.clearFlashFault.publish c 1)) ∧
  (∀ (s : State) (c : Posted),
      s.CanServe 19 c →
      s.mgmtReady = true →
      s.is EVREC.FLASH_FAULT.cl = false →
      exec .clearFlashFault s = .next (s.publish c 3))

/-- GO by the owner of an idle controller takes operation, PEC, address and segment. Lengths, segment, bus and clock in
order, it closes the switch, counts TRANSACTIONS, clears XCOUNT, RESULT and REASON, and the transaction runs (STATE 3),
after a recovery where the segment is due one. A GO that is refused keeps REASON and shows result 10 REFUSED. A GO from
another requester, with no owner, in soft reset, or with the controller not idle is discarded with ACCESS_ERR. (R544,
R547, R548, R553) -/
def Obligations.TwoWireTransactionsStart : Prop :=
  (∀ (s : State) (req : Requester) (bus : Fin 6) (pec : Bool) (address : BitVec 7) (segment : Fin 8),
      s.inReset clachasel = false → s.resetting clachasel TW.page bus.val = false → s.is (TW.OWNED.clAt bus.val) = true →
      s.get (TW.OWNER.clAt bus.val) = req.val → s.get (TW.STATE.clAt bus.val) = 2 →
      s.twRefusal bus.val 0 segment.val pec = 0 →
      s.bit (TWI.SEG_DUE.clAt bus.val) segment.val = false →
      exec (.twWrite req bus pec address segment) s = .next (
        let k := bus.val
        let u := ((s.set (TW.OP.clAt k) 0).put (TW.PEC.clAt k) pec).set (TW.ADDR.clAt k) address.toNat
        let v := (u.set (TW.SEG.clAt k) segment.val).set (TWI.SWITCH.clAt k) (twSwitch k segment.val)
        let w := ((v.count (TW.TRANSACTIONS.clAt k)).set (TW.XCOUNT.clAt k) 0).set (TW.RESULT.clAt k) 0
        let x := (w.set (TW.REASON.clAt k) 0).set (TWI.GO_AT.clAt k) (s.clock + 1)
        x.set (TW.STATE.clAt k) 3)) ∧
  (∀ (s : State) (req : Requester) (bus : Fin 6) (pec : Bool) (address : BitVec 7) (segment : Fin 8),
      s.inReset clachasel = false → s.resetting clachasel TW.page bus.val = false → s.is (TW.OWNED.clAt bus.val) = true →
      s.get (TW.OWNER.clAt bus.val) = req.val → s.get (TW.STATE.clAt bus.val) = 2 →
      s.twRefusal bus.val 0 segment.val pec = 0 →
      s.bit (TWI.SEG_DUE.clAt bus.val) segment.val = true →
      exec (.twWrite req bus pec address segment) s = .next (
        let k := bus.val
        let u := ((s.set (TW.OP.clAt k) 0).put (TW.PEC.clAt k) pec).set (TW.ADDR.clAt k) address.toNat
        let v := (u.set (TW.SEG.clAt k) segment.val).set (TWI.SWITCH.clAt k) (twSwitch k segment.val)
        let w := ((v.count (TW.TRANSACTIONS.clAt k)).set (TW.XCOUNT.clAt k) 0).set (TW.RESULT.clAt k) 0
        let x := (w.set (TW.REASON.clAt k) 0).set (TWI.GO_AT.clAt k) (s.clock + 1)
        ((x.setBit (TWI.SEG_DUE.clAt k) segment.val false).set (TWI.GO_NEXT.clAt k) 1).twRecover k)) ∧
  (∀ (s : State) (req : Requester) (bus : Fin 6) (pec : Bool) (address : BitVec 7) (segment : Fin 8),
      s.inReset clachasel = false → s.resetting clachasel TW.page bus.val = false → s.is (TW.OWNED.clAt bus.val) = true →
      s.get (TW.OWNER.clAt bus.val) = req.val → s.get (TW.STATE.clAt bus.val) = 2 →
      s.twRefusal bus.val 0 segment.val pec ≠ 0 →
      exec (.twWrite req bus pec address segment) s = .next (
        let k := bus.val
        let u := ((s.set (TW.OP.clAt k) 0).put (TW.PEC.clAt k) pec).set (TW.ADDR.clAt k) address.toNat
        ((u.set (TW.SEG.clAt k) segment.val).set (TW.REASON.clAt k) (s.twRefusal k 0 segment.val pec)).twResult k 10)) ∧
  (∀ (s : State) (req : Requester) (bus : Fin 6) (pec : Bool) (address : BitVec 7) (segment : Fin 8),
      s.inReset clachasel = false →
      s.resetting clachasel TW.page bus.val = true ∨ s.is (TW.OWNED.clAt bus.val) = false ∨ s.get (TW.OWNER.clAt
        bus.val) ≠ req.val ∨ s.get (TW.STATE.clAt bus.val) ≠ 2 →
      exec (.twWrite req bus pec address segment) s = .next (s.regFault clachasel TW.page TW.GO bus.val .accessErr
        req.val (1 + 16 * 0 + 128 * pec.toNat + 256 * address.toNat + 65536 * segment.val))) ∧
  (∀ (s : State) (req : Requester) (bus : Fin 6) (pec : Bool) (address : BitVec 7) (segment : Fin 8),
      s.inReset clachasel = false → s.resetting clachasel TW.page bus.val = false → s.is (TW.OWNED.clAt bus.val) = true →
      s.get (TW.OWNER.clAt bus.val) = req.val → s.get (TW.STATE.clAt bus.val) = 2 →
      s.twRefusal bus.val 1 segment.val pec = 0 →
      s.bit (TWI.SEG_DUE.clAt bus.val) segment.val = false →
      exec (.twRead req bus pec address segment) s = .next (
        let k := bus.val
        let u := ((s.set (TW.OP.clAt k) 1).put (TW.PEC.clAt k) pec).set (TW.ADDR.clAt k) address.toNat
        let v := (u.set (TW.SEG.clAt k) segment.val).set (TWI.SWITCH.clAt k) (twSwitch k segment.val)
        let w := ((v.count (TW.TRANSACTIONS.clAt k)).set (TW.XCOUNT.clAt k) 0).set (TW.RESULT.clAt k) 0
        let x := (w.set (TW.REASON.clAt k) 0).set (TWI.GO_AT.clAt k) (s.clock + 1)
        x.set (TW.STATE.clAt k) 3)) ∧
  (∀ (s : State) (req : Requester) (bus : Fin 6) (pec : Bool) (address : BitVec 7) (segment : Fin 8),
      s.inReset clachasel = false → s.resetting clachasel TW.page bus.val = false → s.is (TW.OWNED.clAt bus.val) = true →
      s.get (TW.OWNER.clAt bus.val) = req.val → s.get (TW.STATE.clAt bus.val) = 2 →
      s.twRefusal bus.val 1 segment.val pec = 0 →
      s.bit (TWI.SEG_DUE.clAt bus.val) segment.val = true →
      exec (.twRead req bus pec address segment) s = .next (
        let k := bus.val
        let u := ((s.set (TW.OP.clAt k) 1).put (TW.PEC.clAt k) pec).set (TW.ADDR.clAt k) address.toNat
        let v := (u.set (TW.SEG.clAt k) segment.val).set (TWI.SWITCH.clAt k) (twSwitch k segment.val)
        let w := ((v.count (TW.TRANSACTIONS.clAt k)).set (TW.XCOUNT.clAt k) 0).set (TW.RESULT.clAt k) 0
        let x := (w.set (TW.REASON.clAt k) 0).set (TWI.GO_AT.clAt k) (s.clock + 1)
        ((x.setBit (TWI.SEG_DUE.clAt k) segment.val false).set (TWI.GO_NEXT.clAt k) 1).twRecover k)) ∧
  (∀ (s : State) (req : Requester) (bus : Fin 6) (pec : Bool) (address : BitVec 7) (segment : Fin 8),
      s.inReset clachasel = false → s.resetting clachasel TW.page bus.val = false → s.is (TW.OWNED.clAt bus.val) = true →
      s.get (TW.OWNER.clAt bus.val) = req.val → s.get (TW.STATE.clAt bus.val) = 2 →
      s.twRefusal bus.val 1 segment.val pec ≠ 0 →
      exec (.twRead req bus pec address segment) s = .next (
        let k := bus.val
        let u := ((s.set (TW.OP.clAt k) 1).put (TW.PEC.clAt k) pec).set (TW.ADDR.clAt k) address.toNat
        ((u.set (TW.SEG.clAt k) segment.val).set (TW.REASON.clAt k) (s.twRefusal k 1 segment.val pec)).twResult k 10)) ∧
  (∀ (s : State) (req : Requester) (bus : Fin 6) (pec : Bool) (address : BitVec 7) (segment : Fin 8),
      s.inReset clachasel = false →
      s.resetting clachasel TW.page bus.val = true ∨ s.is (TW.OWNED.clAt bus.val) = false ∨ s.get (TW.OWNER.clAt
        bus.val) ≠ req.val ∨ s.get (TW.STATE.clAt bus.val) ≠ 2 →
      exec (.twRead req bus pec address segment) s = .next (s.regFault clachasel TW.page TW.GO bus.val .accessErr
        req.val (1 + 16 * 1 + 128 * pec.toNat + 256 * address.toNat + 65536 * segment.val))) ∧
  (∀ (s : State) (req : Requester) (bus : Fin 6) (pec : Bool) (address : BitVec 7) (segment : Fin 8),
      s.inReset clachasel = false → s.resetting clachasel TW.page bus.val = false → s.is (TW.OWNED.clAt bus.val) = true →
      s.get (TW.OWNER.clAt bus.val) = req.val → s.get (TW.STATE.clAt bus.val) = 2 →
      s.twRefusal bus.val 2 segment.val pec = 0 →
      s.bit (TWI.SEG_DUE.clAt bus.val) segment.val = false →
      exec (.writeRead req bus pec address segment) s = .next (
        let k := bus.val
        let u := ((s.set (TW.OP.clAt k) 2).put (TW.PEC.clAt k) pec).set (TW.ADDR.clAt k) address.toNat
        let v := (u.set (TW.SEG.clAt k) segment.val).set (TWI.SWITCH.clAt k) (twSwitch k segment.val)
        let w := ((v.count (TW.TRANSACTIONS.clAt k)).set (TW.XCOUNT.clAt k) 0).set (TW.RESULT.clAt k) 0
        let x := (w.set (TW.REASON.clAt k) 0).set (TWI.GO_AT.clAt k) (s.clock + 1)
        x.set (TW.STATE.clAt k) 3)) ∧
  (∀ (s : State) (req : Requester) (bus : Fin 6) (pec : Bool) (address : BitVec 7) (segment : Fin 8),
      s.inReset clachasel = false → s.resetting clachasel TW.page bus.val = false → s.is (TW.OWNED.clAt bus.val) = true →
      s.get (TW.OWNER.clAt bus.val) = req.val → s.get (TW.STATE.clAt bus.val) = 2 →
      s.twRefusal bus.val 2 segment.val pec = 0 →
      s.bit (TWI.SEG_DUE.clAt bus.val) segment.val = true →
      exec (.writeRead req bus pec address segment) s = .next (
        let k := bus.val
        let u := ((s.set (TW.OP.clAt k) 2).put (TW.PEC.clAt k) pec).set (TW.ADDR.clAt k) address.toNat
        let v := (u.set (TW.SEG.clAt k) segment.val).set (TWI.SWITCH.clAt k) (twSwitch k segment.val)
        let w := ((v.count (TW.TRANSACTIONS.clAt k)).set (TW.XCOUNT.clAt k) 0).set (TW.RESULT.clAt k) 0
        let x := (w.set (TW.REASON.clAt k) 0).set (TWI.GO_AT.clAt k) (s.clock + 1)
        ((x.setBit (TWI.SEG_DUE.clAt k) segment.val false).set (TWI.GO_NEXT.clAt k) 1).twRecover k)) ∧
  (∀ (s : State) (req : Requester) (bus : Fin 6) (pec : Bool) (address : BitVec 7) (segment : Fin 8),
      s.inReset clachasel = false → s.resetting clachasel TW.page bus.val = false → s.is (TW.OWNED.clAt bus.val) = true →
      s.get (TW.OWNER.clAt bus.val) = req.val → s.get (TW.STATE.clAt bus.val) = 2 →
      s.twRefusal bus.val 2 segment.val pec ≠ 0 →
      exec (.writeRead req bus pec address segment) s = .next (
        let k := bus.val
        let u := ((s.set (TW.OP.clAt k) 2).put (TW.PEC.clAt k) pec).set (TW.ADDR.clAt k) address.toNat
        ((u.set (TW.SEG.clAt k) segment.val).set (TW.REASON.clAt k) (s.twRefusal k 2 segment.val pec)).twResult k 10)) ∧
  (∀ (s : State) (req : Requester) (bus : Fin 6) (pec : Bool) (address : BitVec 7) (segment : Fin 8),
      s.inReset clachasel = false →
      s.resetting clachasel TW.page bus.val = true ∨ s.is (TW.OWNED.clAt bus.val) = false ∨ s.get (TW.OWNER.clAt
        bus.val) ≠ req.val ∨ s.get (TW.STATE.clAt bus.val) ≠ 2 →
      exec (.writeRead req bus pec address segment) s = .next (s.regFault clachasel TW.page TW.GO bus.val .accessErr
        req.val (1 + 16 * 2 + 128 * pec.toNat + 256 * address.toNat + 65536 * segment.val))) ∧
  (∀ (s : State) (req : Requester) (bus : Fin 6) (pec : Bool) (address : BitVec 7) (segment : Fin 8),
      s.inReset clachasel = false → s.resetting clachasel TW.page bus.val = false → s.is (TW.OWNED.clAt bus.val) = true →
      s.get (TW.OWNER.clAt bus.val) = req.val → s.get (TW.STATE.clAt bus.val) = 2 →
      s.twRefusal bus.val 3 segment.val pec = 0 →
      s.bit (TWI.SEG_DUE.clAt bus.val) segment.val = false →
      exec (.blockRead req bus pec address segment) s = .next (
        let k := bus.val
        let u := ((s.set (TW.OP.clAt k) 3).put (TW.PEC.clAt k) pec).set (TW.ADDR.clAt k) address.toNat
        let v := (u.set (TW.SEG.clAt k) segment.val).set (TWI.SWITCH.clAt k) (twSwitch k segment.val)
        let w := ((v.count (TW.TRANSACTIONS.clAt k)).set (TW.XCOUNT.clAt k) 0).set (TW.RESULT.clAt k) 0
        let x := (w.set (TW.REASON.clAt k) 0).set (TWI.GO_AT.clAt k) (s.clock + 1)
        x.set (TW.STATE.clAt k) 3)) ∧
  (∀ (s : State) (req : Requester) (bus : Fin 6) (pec : Bool) (address : BitVec 7) (segment : Fin 8),
      s.inReset clachasel = false → s.resetting clachasel TW.page bus.val = false → s.is (TW.OWNED.clAt bus.val) = true →
      s.get (TW.OWNER.clAt bus.val) = req.val → s.get (TW.STATE.clAt bus.val) = 2 →
      s.twRefusal bus.val 3 segment.val pec = 0 →
      s.bit (TWI.SEG_DUE.clAt bus.val) segment.val = true →
      exec (.blockRead req bus pec address segment) s = .next (
        let k := bus.val
        let u := ((s.set (TW.OP.clAt k) 3).put (TW.PEC.clAt k) pec).set (TW.ADDR.clAt k) address.toNat
        let v := (u.set (TW.SEG.clAt k) segment.val).set (TWI.SWITCH.clAt k) (twSwitch k segment.val)
        let w := ((v.count (TW.TRANSACTIONS.clAt k)).set (TW.XCOUNT.clAt k) 0).set (TW.RESULT.clAt k) 0
        let x := (w.set (TW.REASON.clAt k) 0).set (TWI.GO_AT.clAt k) (s.clock + 1)
        ((x.setBit (TWI.SEG_DUE.clAt k) segment.val false).set (TWI.GO_NEXT.clAt k) 1).twRecover k)) ∧
  (∀ (s : State) (req : Requester) (bus : Fin 6) (pec : Bool) (address : BitVec 7) (segment : Fin 8),
      s.inReset clachasel = false → s.resetting clachasel TW.page bus.val = false → s.is (TW.OWNED.clAt bus.val) = true →
      s.get (TW.OWNER.clAt bus.val) = req.val → s.get (TW.STATE.clAt bus.val) = 2 →
      s.twRefusal bus.val 3 segment.val pec ≠ 0 →
      exec (.blockRead req bus pec address segment) s = .next (
        let k := bus.val
        let u := ((s.set (TW.OP.clAt k) 3).put (TW.PEC.clAt k) pec).set (TW.ADDR.clAt k) address.toNat
        ((u.set (TW.SEG.clAt k) segment.val).set (TW.REASON.clAt k) (s.twRefusal k 3 segment.val pec)).twResult k 10)) ∧
  (∀ (s : State) (req : Requester) (bus : Fin 6) (pec : Bool) (address : BitVec 7) (segment : Fin 8),
      s.inReset clachasel = false →
      s.resetting clachasel TW.page bus.val = true ∨ s.is (TW.OWNED.clAt bus.val) = false ∨ s.get (TW.OWNER.clAt
        bus.val) ≠ req.val ∨ s.get (TW.STATE.clAt bus.val) ≠ 2 →
      exec (.blockRead req bus pec address segment) s = .next (s.regFault clachasel TW.page TW.GO bus.val .accessErr
        req.val (1 + 16 * 3 + 128 * pec.toNat + 256 * address.toNat + 65536 * segment.val)))

/-- ENABLE with a timing set that fails the check leaves ENABLE 0 with CFG_MISMATCH; one that passes enables and runs
recovery; an enabled controller is left. CLAIM of a free bus makes the core its owner and reads GRANTED 1; of a bus
another core owns it reads BUSY 2. RELEASE by the owner puts the controller in its reset-safe state and reads RELEASED
3; during a transaction or recovery it is discarded with ACCESS_ERR. A stretch timeout ends the running transaction with
result 6, a transaction timeout XFER_MAX after GO with 7, recovery first. A transaction end stores XCOUNT and the bytes
a reading operation received, its block count and PEC where it came to its end, and shows DONE, a NACK, LEN for a block
count out of range, PEC_ERR for a PEC that is not the CRC-8 of the bytes covered, or recovers for ARB_LOST. ABORT by the
owner cuts the transaction with 0x3705 and recovers; another's is discarded with ACCESS_ERR. A recovery that succeeds
counts and starts the transaction that waited, or idles; one that fails on a segment opens its switch and, the trunk
high, marks the segment stuck with 0x3702; else the bus is stuck with 0x3701, and a transaction that waited is refused.
CLEAR_STUCK clears BUS_STUCK and every SEG_STUCK bit and recovers the trunk of an idle controller. (R543, R544, R545,
R547, R548, R549, R550, R551, R552, R553) -/
def Obligations.TwoWireControllersAreOwnedEndAndRecover : Prop :=
  (∀ (s : State) (req : Requester) (bus : Fin 6),
      s.inReset clachasel = false →
      s.resetting clachasel TW.page bus.val = false →
      s.is (twEnable bus.val) = false →
      s.twTimingOk bus.val = false →
      exec (.twoWireEnable req bus) s = .next (s.pageFault clachasel TW.page bus.val .cfgMismatch req.val (TW.page.at
        bus.val + 8) 1)) ∧
  (∀ (s : State) (req : Requester) (bus : Fin 6),
      s.inReset clachasel = false →
      s.resetting clachasel TW.page bus.val = false →
      s.is (twEnable bus.val) = false →
      s.twTimingOk bus.val = true →
      exec (.twoWireEnable req bus) s = .next (((s.set (twEnable bus.val) 1).set (TWI.TRUNK.clAt bus.val)
        0).twRecover bus.val)) ∧
  (∀ (s : State) (req : Requester) (bus : Fin 6),
      s.inReset clachasel = false →
      s.resetting clachasel TW.page bus.val = false →
      s.is (twEnable bus.val) = true →
      exec (.twoWireEnable req bus) s = .next s) ∧
  (∀ (s : State) (req : Requester) (bus : Fin 6) (core : McNo),
      s.Reaches clachasel TW.page TW.CLAIM (4 * bus.val + core.val) req →
      s.is (TW.OWNED.clAt bus.val) = false →
      exec (.twClaim req bus core) s = .next (((s.set (TW.OWNED.clAt bus.val) 1).set (TW.OWNER.clAt bus.val)
        (core.val + 1)).set (TW.CLAIM_RESULT.clAt (4 * bus.val + core.val)) 1)) ∧
  (∀ (s : State) (req : Requester) (bus : Fin 6) (core : McNo),
      s.Reaches clachasel TW.page TW.CLAIM (4 * bus.val + core.val) req →
      s.is (TW.OWNED.clAt bus.val) = true →
      exec (.twClaim req bus core) s = .next (s.set (TW.CLAIM_RESULT.clAt (4 * bus.val + core.val)) (if s.get
        (TW.OWNER.clAt bus.val) = core.val + 1 then 1 else 2))) ∧
  (∀ (s : State) (req : Requester) (bus : Fin 6) (core : McNo),
      s.Reaches clachasel TW.page TW.RELEASE (4 * bus.val + core.val) req →
      s.is (TW.OWNED.clAt bus.val) = true →
      s.get (TW.OWNER.clAt bus.val) = core.val + 1 →
      s.get (TW.STATE.clAt bus.val) ≠ 1 →
      s.get (TW.STATE.clAt bus.val) ≠ 3 →
      exec (.twRelease req bus core) s = .next ((s.twSafe bus.val).set (TW.CLAIM_RESULT.clAt (4 * bus.val +
        core.val)) 3)) ∧
  (∀ (s : State) (req : Requester) (bus : Fin 6) (core : McNo),
      s.Reaches clachasel TW.page TW.RELEASE (4 * bus.val + core.val) req →
      s.is (TW.OWNED.clAt bus.val) = true →
      s.get (TW.OWNER.clAt bus.val) = core.val + 1 →
      s.get (TW.STATE.clAt bus.val) = 1 ∨ s.get (TW.STATE.clAt bus.val) = 3 →
      exec (.twRelease req bus core) s = .next (s.regFault clachasel TW.page TW.RELEASE (4 * bus.val + core.val)
        .accessErr req.val 2)) ∧
  (∀ (s : State) (bus : Fin 6) (result : TwEnd) (count : Fin 257) (data : List Byte) (blockCount : Byte) (pec : Byte),
      s.get (TW.STATE.clAt bus.val) = 3 →
      exec (.transactionEnd bus result count data blockCount pec) s = .next (
        let k := bus.val
        let got := s.twGot k data blockCount.toNat
        let code := s.twEndCode k result got blockCount.toNat pec.toNat
        let u := (s.set (TW.XCOUNT.clAt k) count.val).twStore k got
        let v := if result = .done ∧ s.get (TW.OP.clAt k) = 3 then u.set (TW.RXCOUNT.clAt k) blockCount.toNat else u
        let w := if result = .done ∧ s.get (TW.OP.clAt k) ≠ 0 ∧ s.is (TW.PEC.clAt k) ∧ code ≠ 4 then
          v.set (TW.PEC_RX.clAt k) pec.toNat else v
        w.twFinish k code)) ∧
  (∀ (s : State) (bus : Fin 6) (result : TwEnd) (count : Fin 257) (data : List Byte) (blockCount : Byte) (pec : Byte),
      s.get (TW.STATE.clAt bus.val) ≠ 3 →
      exec (.transactionEnd bus result count data blockCount pec) s = .next (s)) ∧
  (∀ (s : State) (req : Requester) (bus : Fin 6),
      s.inReset clachasel = false →
      s.resetting clachasel TW.page bus.val = false →
      s.is (TW.OWNED.clAt bus.val) = true →
      s.get (TW.OWNER.clAt bus.val) = req.val →
      s.twRunning bus.val = true →
      exec (.abort req bus) s = .next ((s.twCut bus.val).twRecover bus.val)) ∧
  (∀ (s : State) (req : Requester) (bus : Fin 6),
      s.inReset clachasel = false →
      s.resetting clachasel TW.page bus.val = false →
      s.is (TW.OWNED.clAt bus.val) = true →
      s.get (TW.OWNER.clAt bus.val) = req.val →
      s.twRunning bus.val = false →
      exec (.abort req bus) s = .next s) ∧
  (∀ (s : State) (req : Requester) (bus : Fin 6),
      s.inReset clachasel = false →
      s.resetting clachasel TW.page bus.val = true ∨ s.is (TW.OWNED.clAt bus.val) = false ∨ s.get (TW.OWNER.clAt
        bus.val) ≠ req.val →
      exec (.abort req bus) s = .next (s.regFault clachasel TW.page TW.ABORT bus.val .accessErr req.val 2)) ∧
  (∀ (s : State) (bus : Fin 6),
      s.get (TW.STATE.clAt bus.val) = 3 →
      exec (.stretchTimeout bus) s = .next (((s.set (TWI.RESULT_NEXT.clAt bus.val) 6).set (TWI.GO_NEXT.clAt bus.val)
        0).twRecover bus.val)) ∧
  (∀ (s : State) (bus : Fin 6),
      s.twRunning bus.val = true →
      s.heldFor (TWI.GO_AT.clAt bus.val) (s.get (TW.XFER_MAX.clAt bus.val) * 1000) = true →
      exec (.transactionTimeout bus) s = .next (((s.set (TWI.RESULT_NEXT.clAt bus.val) 7).set (TWI.GO_NEXT.clAt
        bus.val) 0).twRecover bus.val)) ∧
  (∀ (s : State) (bus : Fin 6),
      s.twRunning bus.val = false ∨ s.heldFor (TWI.GO_AT.clAt bus.val) (s.get (TW.XFER_MAX.clAt bus.val) * 1000) =
        false →
      exec (.transactionTimeout bus) s = .next s) ∧
  (∀ (s : State) (bus : Fin 6),
      s.get (TW.STATE.clAt bus.val) ≠ 3 →
      exec (.stretchTimeout bus) s = .next s) ∧
  (∀ (s : State) (bus : Fin 6) (scl : Bool) (trunkHigh : Bool),
      s.get (TW.STATE.clAt bus.val) = 1 →
      s.is (TWI.WAITS.clAt bus.val) = false →
      s.is (TWI.GO_NEXT.clAt bus.val) = true →
      s.is (TWI.RELEASES.clAt bus.val) = false →
      exec (.recoveryEnd bus true scl trunkHigh) s = .next (((s.count (TW.RECOVERIES.clAt bus.val)).set
        (TWI.GO_NEXT.clAt bus.val) 0).set (TW.STATE.clAt bus.val) 3)) ∧
  (∀ (s : State) (bus : Fin 6) (scl : Bool) (trunkHigh : Bool),
      s.get (TW.STATE.clAt bus.val) = 1 →
      s.is (TWI.WAITS.clAt bus.val) = false →
      s.is (TWI.GO_NEXT.clAt bus.val) = false ∨ s.is (TWI.RELEASES.clAt bus.val) = true →
      exec (.recoveryEnd bus true scl trunkHigh) s = .next (((s.count (TW.RECOVERIES.clAt bus.val)).set
        (TWI.GO_NEXT.clAt bus.val) 0).twSettle bus.val 2)) ∧
  (∀ (s : State) (bus : Fin 6) (scl : Bool) (trunkHigh : Bool),
      s.get (TW.STATE.clAt bus.val) = 1 →
      s.is (TWI.WAITS.clAt bus.val) = false →
      (s.get (TWI.SWITCH.clAt bus.val) ≠ 0 ∧ s.is (TWI.TRUNK.clAt bus.val) = false ∧ trunkHigh = true) = False →
      exec (.recoveryEnd bus false scl trunkHigh) s = .next (
        let k := bus.val
        let u := (s.set (TWI.SWITCH.clAt k) 0).set (TWI.GO_NEXT.clAt k) 0
        let v := ((u.set (TW.BUS_STUCK.clAt k) 1).set (TW.CAUSE.clAt k) (if scl then 2 else 1)).event TW.page 0x3701 0 0 0 k
        let w := if s.is (TWI.GO_NEXT.clAt k) then (v.set (TW.REASON.clAt k) 3).twResult k 10 else v
        (w.pageEvent clachasel TW.page 9 k).twSettle k 4)) ∧
  (∀ (s : State) (bus : Fin 6) (scl : Bool),
      s.get (TW.STATE.clAt bus.val) = 1 →
      s.is (TWI.WAITS.clAt bus.val) = false →
      s.get (TWI.SWITCH.clAt bus.val) ≠ 0 →
      s.is (TWI.TRUNK.clAt bus.val) = false →
      exec (.recoveryEnd bus false scl true) s = .next (
        let k := bus.val
        let sw := s.get (TWI.SWITCH.clAt k)
        let u := (s.set (TWI.SWITCH.clAt k) 0).set (TWI.GO_NEXT.clAt k) 0
        let v := (u.setBit (TW.SEG_STUCK.clAt k) (sw - 1) true).event TW.page 0x3702 (sw - 1 + 256 * if scl then 2 else 1) 0 0 k
        let w := if s.is (TWI.GO_NEXT.clAt k) then (v.set (TW.REASON.clAt k) 2).twResult k 10 else v
        w.twSettle k 2)) ∧
  (∀ (s : State) (bus : Fin 6) (ok : Bool) (scl : Bool) (trunkHigh : Bool),
      s.get (TW.STATE.clAt bus.val) ≠ 1 ∨ s.is (TWI.WAITS.clAt bus.val) = true →
      exec (.recoveryEnd bus ok scl trunkHigh) s = .next s) ∧
  (∀ (s : State) (req : Requester) (bus : Fin 6),
      s.Reaches clachasel TW.page TW.CLEAR_STUCK bus.val req →
      s.get (TW.STATE.clAt bus.val) ≠ 0 →
      s.twRunning bus.val = false →
      exec (.clearStuck req bus) s = .next (
        let k := bus.val
        let due := Nat.lor (s.get (TWI.SEG_DUE.clAt k)) (s.get (TW.SEG_STUCK.clAt k))
        let u := ((s.set (TWI.SEG_DUE.clAt k) due).set (TW.SEG_STUCK.clAt k) 0).set (TW.BUS_STUCK.clAt k) 0
        (((u.set (TW.CAUSE.clAt k) 0).set (TWI.SWITCH.clAt k) 0).set (TWI.TRUNK.clAt k) 1).twRecover k)) ∧
  (∀ (s : State) (req : Requester) (bus : Fin 6),
      s.Reaches clachasel TW.page TW.CLEAR_STUCK bus.val req →
      s.get (TW.STATE.clAt bus.val) = 0 ∨ s.twRunning bus.val = true →
      exec (.clearStuck req bus) s = .next (
        let k := bus.val
        let due := Nat.lor (s.get (TWI.SEG_DUE.clAt k)) (s.get (TW.SEG_STUCK.clAt k))
        let u := ((s.set (TWI.SEG_DUE.clAt k) due).set (TW.SEG_STUCK.clAt k) 0).set (TW.BUS_STUCK.clAt k) 0
        u.set (TW.CAUSE.clAt k) 0))

/-- Served in MGMT_READY or later: CMD4 clears TRIP_LATCH of the zone unless it is level-held (5). CMD5 writes the
shadow limit and commits its page, reading 1, or puts the shadow copy back and reads 5 where the commit is refused. CMD6
writes FORECAST_MS. CMD7 returns sensors 0 to 47 to NO_SAMPLE and evaluates; other numbers read 5. CMD8 and CMD9 write
the floor of a fitted group or pump up to 1000 and commit its page; a larger floor, a group that is not fitted and an
ADV-T8A's pump read 5. CMD10 clears a cooling fault whose condition is gone, else 5. CMD11 with value 1 clears every
host floor and commits both pages; another value reads 5. (R487, R488, R495, R518, R528) -/
def Obligations.HostCommandsForTemperatureAndCooling : Prop :=
  (∀ (s : State) (c : Posted),
      s.CanServe 4 c →
      s.mgmtReady = true →
      s.tripHeld (c.value % 16) = false →
      exec .clearTrip s = .next ((s.set (TZONE.TRIP_LATCH.clAt (c.value % 16)) 0).publish c 1)) ∧
  (∀ (s : State) (c : Posted),
      s.CanServe 4 c →
      s.mgmtReady = true →
      s.tripHeld (c.value % 16) = true →
      exec .clearTrip s = .next (s.publish c 5)) ∧
  (∀ (s : State) (c : Posted),
      s.CanServe 5 c →
      s.mgmtReady = true →
      exec .setThrottle s = .next (
        let z := c.value % 16
        let r := (s.setShadow (TZONE.THROTTLE.clAt z) (c.value / 65536)).commitBy 2 TZONE.page (z / 8)
        if r.2 then r.1.publish c 1 else (r.1.setShadow (TZONE.THROTTLE.clAt z) (s.sh TZONE.THROTTLE z)).publish c 5)) ∧
  (∀ (s : State) (c : Posted),
      s.CanServe 6 c →
      s.mgmtReady = true →
      exec .setForecast s = .next ((s.set (TZONE.FORECAST_MS.clAt (c.value % 16)) (c.value / 65536)).publish c 1)) ∧
  (∀ (s : State) (c : Posted),
      s.CanServe 7 c →
      s.mgmtReady = true →
      c.value % 64 < 48 →
      exec .clearSensor s = .next ((s.clearSensor (c.value % 64)).evaluate.publish c 1)) ∧
  (∀ (s : State) (c : Posted),
      s.CanServe 7 c →
      s.mgmtReady = true →
      48 ≤ c.value % 64 →
      exec .clearSensor s = .next (s.publish c 5)) ∧
  (∀ (s : State) (c : Posted),
      s.CanServe 8 c →
      s.mgmtReady = true →
      c.value / 65536 % 1024 ≤ 1000 →
      (List.range 3).any (fun i => s.fitted (3 * (c.value % 4) + i)) = true →
      exec .setFanFloor s = .next (
        let r := s.setFloor CFAN.HOST_FLOOR (c.value % 4) CFAN.page (c.value / 65536 % 1024)
        r.1.publish c (if r.2 then 1 else 5))) ∧
  (∀ (s : State) (c : Posted),
      s.CanServe 8 c →
      s.mgmtReady = true →
      1000 < c.value / 65536 % 1024 ∨ (List.range 3).any (fun i => s.fitted (3 * (c.value % 4) + i)) = false →
      exec .setFanFloor s = .next (s.publish c 5)) ∧
  (∀ (s : State) (c : Posted),
      s.CanServe 9 c →
      s.mgmtReady = true →
      c.value / 65536 % 1024 ≤ 1000 →
      s.get TRAYID.VARIANT.cl ≠ 2 →
      exec .setPumpFloor s = .next (
        let r := s.setFloor CPUMP.HOST_FLOOR (c.value % 2) CPUMP.page (c.value / 65536 % 1024)
        r.1.publish c (if r.2 then 1 else 5))) ∧
  (∀ (s : State) (c : Posted),
      s.CanServe 9 c →
      s.mgmtReady = true →
      1000 < c.value / 65536 % 1024 ∨ s.get TRAYID.VARIANT.cl = 2 →
      exec .setPumpFloor s = .next (s.publish c 5)) ∧
  (∀ (s : State) (c : Posted),
      s.CanServe 10 c →
      s.mgmtReady = true →
      (if c.value % 16 < 14 then s.tachLow (c.value % 16) else s.flowLow (c.value % 16 - 14)) = false →
      exec .clearCoolFault s = .next ((s.clearCoolFault (c.value % 16)).publish c 1)) ∧
  (∀ (s : State) (c : Posted),
      s.CanServe 10 c →
      s.mgmtReady = true →
      (if c.value % 16 < 14 then s.tachLow (c.value % 16) else s.flowLow (c.value % 16 - 14)) = true →
      exec .clearCoolFault s = .next (s.publish c 5)) ∧
  (∀ (s : State) (c : Posted),
      s.CanServe 11 c →
      s.mgmtReady = true →
      c.value = 1 →
      exec .clearHostFloors s = .next (
        let u := s.each (List.range 4) (fun u g => u.setShadow (CFAN.HOST_FLOOR.clAt g) 0)
        let r := (u.each (List.range 2) (fun u p => u.setShadow (CPUMP.HOST_FLOOR.clAt p) 0)).commitBy 2 CFAN.page 0
        let q := r.1.commitBy 2 CPUMP.page 0
        q.1.publish c (if r.2 = true ∧ q.2 = true then 1 else 5))) ∧
  (∀ (s : State) (c : Posted),
      s.CanServe 11 c →
      s.mgmtReady = true →
      c.value ≠ 1 →
      exec .clearHostFloors s = .next (s.publish c 5))

/-- REQ_TESTS asks the tests of the die. Served in SERVING, CMD12 with tests and dies all in service adds them to the
pending tests of each die and in MODE 1 posts the slots, reading 2; no tests or a die out of service reads 5. CMD13
clears the pending tests of its dies, and CMD15 sets the period and restarts it. When the period has run, TUMBLER
becomes pending on every die in service. The TUMBLER test ends with FAILED_COLS holding the columns of the failures it
covers, an event for each and what R668 does about them. The LINK test ends with SNR and MARGINAL of every link that was
up throughout, a link that was not left as it is. The MEMORY test counts the errors of the units it covered and moves
MT_CUR past them. A test that does not run does not end, and none ends in die reset. (R662, R664, R667, R668, R669,
R670, R672, R676, R678) -/
def Obligations.SelfTestsArePostedAndEnd : Prop :=
  (∀ (s : State) (req : Requester) (die : DieNo) (tests : BitVec 3),
      s.Reaches die.val STEST.page STEST.REQ_TESTS 0 req →
      exec (.reqTests req die tests) s = .next (s.requestTests die.val tests.toNat)) ∧
  (∀ (s : State) (c : Posted),
      s.CanServe 12 c →
      s.get CSYS.TRAY_STATE.cl = 6 →
      c.value / 256 % 8 ≠ 0 →
      Nat.land (c.value % 256) (s.get CSYS.DIE_INSERV.cl) = c.value % 256 →
      exec .testRequest s = .next (((s.each (diesOf (c.value % 256)) (fun u d => u.set (TESTI.PEND.clAt d) (Nat.lor
        (u.get (TESTI.PEND.clAt d)) (c.value / 256 % 8)))).postSlotsLocal).publish c 2)) ∧
  (∀ (s : State) (c : Posted),
      s.CanServe 12 c →
      s.get CSYS.TRAY_STATE.cl = 6 →
      c.value / 256 % 8 = 0 ∨ Nat.land (c.value % 256) (s.get CSYS.DIE_INSERV.cl) ≠ c.value % 256 →
      exec .testRequest s = .next (s.publish c 5)) ∧
  (∀ (s : State) (c : Posted),
      s.CanServe 13 c →
      s.get CSYS.TRAY_STATE.cl = 6 →
      exec .testCancel s = .next ((s.each (diesOf (c.value % 256)) (fun u d => u.set (TESTI.PEND.clAt d) 0)).publish
        c 1)) ∧
  (∀ (s : State) (c : Posted),
      s.CanServe 15 c →
      s.mgmtReady = true →
      exec .setTestPeriod s = .next (((s.set TESTI.PERIOD.cl c.value).set TESTI.LAST.cl s.clock).publish c 1)) ∧
  (∀ s : State,
      s.get TESTI.PERIOD.cl ≠ 0 →
      s.mcRuns 0 = true →
      s.get TESTI.LAST.cl + s.get TESTI.PERIOD.cl * 60000000 ≤ s.clock →
      exec .testPeriodTimer s = .next (((s.set TESTI.LAST.cl s.clock).each (diesOf (s.get CSYS.DIE_INSERV.cl)) (fun
        u d => u.setBit (TESTI.PEND.clAt d) 0 true)).postSlotsLocal)) ∧
  (∀ s : State,
      s.get TESTI.PERIOD.cl = 0 ∨ s.mcRuns 0 = false ∨ s.clock < s.get TESTI.LAST.cl + s.get TESTI.PERIOD.cl *
        60000000 →
      exec .testPeriodTimer s = .next s) ∧
  (∀ (s : State) (die : DieNo) (failures : List TumblerFailure) (fixed : BitVec 32),
      s.inReset die.val = false →
      s.is (STEST.TUMBLER_RUN.on die.val) = true →
      exec (.tumblerTestDone die failures fixed) s = .next (
        let d := die.val
        let u := (s.set (STEST.TUMBLER_RUN.on d) 0).count (STEST.BAY_FIXED.on d) fixed.toNat
        let v := if u.is (ARRAY.LOADING.on d) then u
          else (u.set (ARRAY.SHADOW_READY.on d) 0).onDie d (fun x => { x with shadowKey := none })
        let w := (v.each (List.range 4) (fun v g => v.set (STEST.FAILED_COLS.at d g) 0)).set (STEST.FIRST_VALID.on d) 0
        let seen := failures.filter (fun f => w.covered d f)
        let x := seen.foldl (fun w f => w.markFailure d f) w
        let y := (if seen = [] then x else x.pageEvent d STEST.page 9).actOnFailures d
          ((seen.filter (fun f => f.unit == .passthru)).map (fun f => f.col.val))
        (y.loadAfter d).endSlot d)) ∧
  (∀ (s : State) (die : DieNo) (failures : List TumblerFailure) (fixed : BitVec 32),
      s.inReset die.val = true ∨ s.is (STEST.TUMBLER_RUN.on die.val) = false →
      exec (.tumblerTestDone die failures fixed) s = .next (s)) ∧
  (∀ (s : State) (die : DieNo) (spans : List LinkSpan),
      s.inReset die.val = false →
      s.is (STEST.LINK_RUN.on die.val) = true →
      exec (.linkTestDone die spans) s = .next (
        let d := die.val
        (spans.foldl (fun u x =>
          let l := x.link.val
          if u.bit (SKIPI.LINKS_UP.on d) l = false ∨ u.linkIs d l .up = false then u
          else
            let v := (u.set (HL.SNR_0.at d l) x.snr0.toNat).set (HL.SNR_1.at d l) x.snr1.toNat
            let bad := decide (min x.snr0.toNat x.snr1.toNat < v.get (STEST.LINK_SNR_MIN.on d)) ||
              decide (20 * v.get (HL.CE_WARN.at d l) < x.corrected)
            let m := withBit (v.pair (STEST.MARGINAL_LO.on d) (STEST.MARGINAL_HI.on d)) l bad
            let w := v.setPair (STEST.MARGINAL_LO.on d) (STEST.MARGINAL_HI.on d) m
            if bad then w.dieEvent d STEST.page 0x1453 else w) (s.set (STEST.LINK_RUN.on d) 0)).endSlot d)) ∧
  (∀ (s : State) (die : DieNo) (spans : List LinkSpan),
      s.inReset die.val = true ∨ s.is (STEST.LINK_RUN.on die.val) = false →
      exec (.linkTestDone die spans) s = .next s) ∧
  (∀ (s : State) (die : DieNo) (units : BitVec 32) (ecc : Ecc),
      s.inReset die.val = false →
      s.is (STEST.MEM_RUN.on die.val) = true →
      exec (.memoryTestDone die units ecc) s = .next (
        let d := die.val
        let n := min units.toNat (s.get (STEST.MT_LEN.on d) * 32768)
        let cur := s.pair (STEST.MT_CUR_LO.on d) (STEST.MT_CUR_HI.on d) / 32
        let u := (s.set (STEST.MEM_RUN.on d) 0).each (ecc.corrected.filter (fun i => decide (i < n)))
          (fun u i => u.countCe d (32 * ((cur + i) % 0xC0000000)))
        let v := u.each (ecc.bad.filter (fun i => decide (i < n))) (fun u i => u.memoryFailure d ((cur + i) %
          0xC0000000))
        (v.setPair (STEST.MT_CUR_LO.on d) (STEST.MT_CUR_HI.on d) (32 * ((cur + n) % 0xC0000000))).endSlot d)) ∧
  (∀ (s : State) (die : DieNo) (units : BitVec 32) (ecc : Ecc),
      s.inReset die.val = true ∨ s.is (STEST.MEM_RUN.on die.val) = false →
      exec (.memoryTestDone die units ecc) s = .next s)

/-- In a cycle in which the MAC slot can issue with its guard true, OUTER accumulates the products of the elements of two
groups into the 64 cells of the tile (16 cells of a quadrant for FMT 5), MM4 the sums of four products into the 16 cells
of a quadrant, ACCRD delivers a tile row to VD three cycles on and ACCWR writes VA to a tile row. PACK8 converts eight
lanes to the bytes of group GB of VD, PACK16 to BF16 in half GB[0], UNPACK widens eight elements to lanes. VADD, VSUB,
VMUL, VMAX and VMIN act lane by lane, as INT32 with saturation for FMT 4 and FP32 otherwise, and VMOV copies VA. Flags
raised are added to the sticky flags; every other part of the tumbler, the other tumblers and the rest of the tray are
unchanged. (R180, R183, R184, R185, R194, R195, R197) -/
def Obligations.MacSlotOperations : Prop :=
  (∀ (s : State) (t : Tumbler) (y : Tum) (w : Nat),
      s.CanIssue t .mac y w →
      mop w = 1 →
      fmtOf w ≠ 5 →
      exec (.outer t) s = .next (s.setTum t.die.val (posOf t) (y.mac w ((gridOf 8).map (fun p => (cellOf w p.1 p.2,
        [(elem (elem (srcA y w) 64 (groupA w)) 8 p.1, elem (elem (srcB y w) 64 (groupB w)) 8 p.2)])))))) ∧
  (∀ (s : State) (t : Tumbler) (y : Tum) (w : Nat),
      s.CanIssue t .mac y w →
      mop w = 1 →
      fmtOf w = 5 →
      exec (.outer t) s = .next (s.setTum t.die.val (posOf t) (y.mac w ((gridOf 4).map (fun p => (quadCell w (rowOf w
        % 4) p.1 p.2, [(elem (elem (srcA y w) 64 (groupA w)) 16 p.1, elem (elem (srcB y w) 64 (groupB w)) 16
        p.2)])))))) ∧
  (∀ (s : State) (t : Tumbler) (y : Tum) (w : Nat),
      s.CanIssue t .mac y w →
      mop w = 2 →
      exec (.mm4 t) s = .next (s.setTum t.die.val (posOf t) (y.mac w ((gridOf 4).map (fun p => (quadCell w (rowOf w %
        4) p.1 p.2, (List.range 4).map (fun k => (elem (elem (srcA y w) 128 (groupA w % 2)) 8 (4 * p.1 + k), elem
        (elem (srcB y w) 128 (groupB w % 2)) 8 (4 * k + p.2))))))))) ∧
  (∀ (s : State) (t : Tumbler) (y : Tum) (w : Nat),
      s.CanIssue t .mac y w →
      mop w = 3 →
      exec (.accrd t) s = .next (s.setTum t.die.val (posOf t) (y.later 3 .vec (destV w) 0 256 (y.tileRow (bitsOf w
        104 1) (rowOf w)) 1))) ∧
  (∀ (s : State) (t : Tumbler) (y : Tum) (w : Nat),
      s.CanIssue t .mac y w →
      mop w = 4 →
      exec (.accwr t) s = .next (s.setTum t.die.val (posOf t) ((List.range 8).foldl (fun z j => z.putCell (cellOf w
        (rowOf w) j) (elem (srcA y w) 32 j)) y))) ∧
  (∀ (s : State) (t : Tumbler) (y : Tum) (w : Nat),
      s.CanIssue t .mac y w →
      mop w = 5 →
      exec (.pack8 t) s = .next (s.setTum t.die.val (posOf t) ((y.later 3 .vec (destV w) (64 * groupB w) 64
        (packLanes 8 (fun i => pack8Lane (fmtOf w) (elem (srcA y w) 32 i))).1 1).flag (packLanes 8 (fun i =>
        pack8Lane (fmtOf w) (elem (srcA y w) 32 i))).2.bits))) ∧
  (∀ (s : State) (t : Tumbler) (y : Tum) (w : Nat),
      s.CanIssue t .mac y w →
      mop w = 6 →
      exec (.pack16 t) s = .next (s.setTum t.die.val (posOf t) ((y.later 3 .vec (destV w) (128 * (groupB w % 2)) 128
        (packLanes 16 (fun i => toBf16 (elem (srcA y w) 32 i))).1 1).flag (packLanes 16 (fun i => toBf16 (elem (srcA
        y w) 32 i))).2.bits))) ∧
  (∀ (s : State) (t : Tumbler) (y : Tum) (w : Nat),
      s.CanIssue t .mac y w →
      mop w = 7 →
      exec (.unpack t) s = .next (s.setTum t.die.val (posOf t) (y.later 3 .vec (destV w) 0 256 (lanes (fun i =>
        unpackLane (fmtOf w) (srcA y w) i (groupA w))) 1))) ∧
  (∀ (s : State) (t : Tumbler) (y : Tum) (w : Nat),
      s.CanIssue t .mac y w →
      mop w = 8 →
      exec (.vadd t) s = .next (s.setTum t.die.val (posOf t) (y.vectorOp w (fun a b => a + b) fadd))) ∧
  (∀ (s : State) (t : Tumbler) (y : Tum) (w : Nat),
      s.CanIssue t .mac y w →
      mop w = 9 →
      exec (.vsub t) s = .next (s.setTum t.die.val (posOf t) (y.vectorOp w (fun a b => a - b) fsub))) ∧
  (∀ (s : State) (t : Tumbler) (y : Tum) (w : Nat),
      s.CanIssue t .mac y w →
      mop w = 10 →
      exec (.vmul t) s = .next (s.setTum t.die.val (posOf t) (y.vectorOp w (fun a b => a * b) fmul))) ∧
  (∀ (s : State) (t : Tumbler) (y : Tum) (w : Nat),
      s.CanIssue t .mac y w →
      mop w = 11 →
      exec (.vmax t) s = .next (s.setTum t.die.val (posOf t) (y.vectorOp w (fun a b => max a b) (fun a b => (fmaxmin
        true a b, {}))))) ∧
  (∀ (s : State) (t : Tumbler) (y : Tum) (w : Nat),
      s.CanIssue t .mac y w →
      mop w = 12 →
      exec (.vmin t) s = .next (s.setTum t.die.val (posOf t) (y.vectorOp w (fun a b => min a b) (fun a b => (fmaxmin
        false a b, {}))))) ∧
  (∀ (s : State) (t : Tumbler) (y : Tum) (w : Nat),
      s.CanIssue t .mac y w →
      mop w = 13 →
      exec (.vmov t) s = .next (s.setTum t.die.val (posOf t) (y.later 3 .vec (destV w) 0 256 (srcA y w) 1)))

/-- In a cycle in which the scalar slot can issue with its guard true, the integer operations deliver their result modulo
2^32 to Sd one cycle on (shifts by the low five bits, SRA with the sign, immediates sign-extended but for ORI and SHLI),
FADD, FSUB, ITOF and FTOI theirs two cycles on with the flags raised, the compares theirs to Pd (two cycles on for
FCMPLT and FCMPEQ), PAND, POR and PNOT theirs to Pd one cycle on, and LOOPI sets the counter it names with the address
after its word and its count when the cycle ends. (R183, R192, R194, R197, R200) -/
def Obligations.ScalarSlotOperations : Prop :=
  (∀ (s : State) (t : Tumbler) (y : Tum) (w : Nat),
      s.CanIssue t .scalar y w →
      sop w = 1 →
      exec (.add t) s = .next (s.setTum t.die.val (posOf t) (y.later 1 .scal (destS w) 0 32 (opA y w + opB y w) 2))) ∧
  (∀ (s : State) (t : Tumbler) (y : Tum) (w : Nat),
      s.CanIssue t .scalar y w →
      sop w = 3 →
      exec (.sub t) s = .next (s.setTum t.die.val (posOf t) (y.later 1 .scal (destS w) 0 32 (opA y w + (4294967296 -
        opB y w)) 2))) ∧
  (∀ (s : State) (t : Tumbler) (y : Tum) (w : Nat),
      s.CanIssue t .scalar y w →
      sop w = 2 →
      exec (.addi t) s = .next (s.setTum t.die.val (posOf t) (y.later 1 .scal (destS w) 0 32 (ofSigned 32 ((opA y w :
        Int) + immOf w)) 2))) ∧
  (∀ (s : State) (t : Tumbler) (y : Tum) (w : Nat),
      s.CanIssue t .scalar y w →
      sop w = 4 →
      exec (.and t) s = .next (s.setTum t.die.val (posOf t) (y.later 1 .scal (destS w) 0 32 (Nat.land (opA y w) (opB
        y w)) 2))) ∧
  (∀ (s : State) (t : Tumbler) (y : Tum) (w : Nat),
      s.CanIssue t .scalar y w →
      sop w = 5 →
      exec (.or t) s = .next (s.setTum t.die.val (posOf t) (y.later 1 .scal (destS w) 0 32 (Nat.lor (opA y w) (opB y
        w)) 2))) ∧
  (∀ (s : State) (t : Tumbler) (y : Tum) (w : Nat),
      s.CanIssue t .scalar y w →
      sop w = 6 →
      exec (.xor t) s = .next (s.setTum t.die.val (posOf t) (y.later 1 .scal (destS w) 0 32 (Nat.xor (opA y w) (opB y
        w)) 2))) ∧
  (∀ (s : State) (t : Tumbler) (y : Tum) (w : Nat),
      s.CanIssue t .scalar y w →
      sop w = 7 →
      exec (.shl t) s = .next (s.setTum t.die.val (posOf t) (y.later 1 .scal (destS w) 0 32 (opA y w * 2 ^ (opB y w %
        32)) 2))) ∧
  (∀ (s : State) (t : Tumbler) (y : Tum) (w : Nat),
      s.CanIssue t .scalar y w →
      sop w = 8 →
      exec (.shr t) s = .next (s.setTum t.die.val (posOf t) (y.later 1 .scal (destS w) 0 32 (opA y w / 2 ^ (opB y w %
        32)) 2))) ∧
  (∀ (s : State) (t : Tumbler) (y : Tum) (w : Nat),
      s.CanIssue t .scalar y w →
      sop w = 9 →
      exec (.sra t) s = .next (s.setTum t.die.val (posOf t) (y.later 1 .scal (destS w) 0 32 (ofSigned 32 (toSigned 32
        (opA y w) / (2 ^ (opB y w % 32) : Nat))) 2))) ∧
  (∀ (s : State) (t : Tumbler) (y : Tum) (w : Nat),
      s.CanIssue t .scalar y w →
      sop w = 10 →
      exec (.movi t) s = .next (s.setTum t.die.val (posOf t) (y.later 1 .scal (destS w) 0 32 (ofSigned 32 (immOf w))
        2))) ∧
  (∀ (s : State) (t : Tumbler) (y : Tum) (w : Nat),
      s.CanIssue t .scalar y w →
      sop w = 11 →
      exec (.ori t) s = .next (s.setTum t.die.val (posOf t) (y.later 1 .scal (destS w) 0 32 (Nat.lor (opA y w)
        (bitsOf w 0 14)) 2))) ∧
  (∀ (s : State) (t : Tumbler) (y : Tum) (w : Nat),
      s.CanIssue t .scalar y w →
      sop w = 12 →
      exec (.shli t) s = .next (s.setTum t.die.val (posOf t) (y.later 1 .scal (destS w) 0 32 (opA y w * 2 ^ bitsOf w
        0 5) 2))) ∧
  (∀ (s : State) (t : Tumbler) (y : Tum) (w : Nat),
      s.CanIssue t .scalar y w →
      sop w = 13 →
      exec (.fadd t) s = .next (s.setTum t.die.val (posOf t) ((y.later 2 .scal (destS w) 0 32 (fadd (opA y w) (opB y
        w)).1 2).flag (fadd (opA y w) (opB y w)).2.bits))) ∧
  (∀ (s : State) (t : Tumbler) (y : Tum) (w : Nat),
      s.CanIssue t .scalar y w →
      sop w = 14 →
      exec (.fsub t) s = .next (s.setTum t.die.val (posOf t) ((y.later 2 .scal (destS w) 0 32 (fsub (opA y w) (opB y
        w)).1 2).flag (fsub (opA y w) (opB y w)).2.bits))) ∧
  (∀ (s : State) (t : Tumbler) (y : Tum) (w : Nat),
      s.CanIssue t .scalar y w →
      sop w = 26 →
      exec (.itof t) s = .next (s.setTum t.die.val (posOf t) (y.later 2 .scal (destS w) 0 32 (intToF32 (toSigned 32
        (opA y w))) 2))) ∧
  (∀ (s : State) (t : Tumbler) (y : Tum) (w : Nat),
      s.CanIssue t .scalar y w →
      sop w = 27 →
      exec (.ftoi t) s = .next (s.setTum t.die.val (posOf t) ((y.later 2 .scal (destS w) 0 32 (f32ToInt 32 (opA y
        w)).1 2).flag (f32ToInt 32 (opA y w)).2.bits))) ∧
  (∀ (s : State) (t : Tumbler) (y : Tum) (w : Nat),
      s.CanIssue t .scalar y w →
      sop w = 16 →
      exec (.cmpeq t) s = .next (s.setTum t.die.val (posOf t) (y.later 1 .pred (destS w % 8) 0 1 (opA y w == opB y
        w).toNat 0))) ∧
  (∀ (s : State) (t : Tumbler) (y : Tum) (w : Nat),
      s.CanIssue t .scalar y w →
      sop w = 17 →
      exec (.cmplt t) s = .next (s.setTum t.die.val (posOf t) (y.later 1 .pred (destS w % 8) 0 1 (decide (toSigned 32
        (opA y w) < toSigned 32 (opB y w))).toNat 0))) ∧
  (∀ (s : State) (t : Tumbler) (y : Tum) (w : Nat),
      s.CanIssue t .scalar y w →
      sop w = 18 →
      exec (.cmpltu t) s = .next (s.setTum t.die.val (posOf t) (y.later 1 .pred (destS w % 8) 0 1 (decide (opA y w <
        opB y w)).toNat 0))) ∧
  (∀ (s : State) (t : Tumbler) (y : Tum) (w : Nat),
      s.CanIssue t .scalar y w →
      sop w = 19 →
      exec (.fcmplt t) s = .next (s.setTum t.die.val (posOf t) (y.later 2 .pred (destS w % 8) 0 1 (flt (opA y w) (opB
        y w)).toNat 0))) ∧
  (∀ (s : State) (t : Tumbler) (y : Tum) (w : Nat),
      s.CanIssue t .scalar y w →
      sop w = 20 →
      exec (.fcmpeq t) s = .next (s.setTum t.die.val (posOf t) (y.later 2 .pred (destS w % 8) 0 1 (feq (opA y w) (opB
        y w)).toNat 0))) ∧
  (∀ (s : State) (t : Tumbler) (y : Tum) (w : Nat),
      s.CanIssue t .scalar y w →
      sop w = 21 →
      exec (.cmpeqi t) s = .next (s.setTum t.die.val (posOf t) (y.later 1 .pred (destS w % 8) 0 1 (opA y w ==
        ofSigned 32 (immOf w)).toNat 0))) ∧
  (∀ (s : State) (t : Tumbler) (y : Tum) (w : Nat),
      s.CanIssue t .scalar y w →
      sop w = 22 →
      exec (.pand t) s = .next (s.setTum t.die.val (posOf t) (y.later 1 .pred (destS w % 8) 0 1 (predA y w && predB y
        w).toNat 0))) ∧
  (∀ (s : State) (t : Tumbler) (y : Tum) (w : Nat),
      s.CanIssue t .scalar y w →
      sop w = 23 →
      exec (.por t) s = .next (s.setTum t.die.val (posOf t) (y.later 1 .pred (destS w % 8) 0 1 (predA y w || predB y
        w).toNat 0))) ∧
  (∀ (s : State) (t : Tumbler) (y : Tum) (w : Nat),
      s.CanIssue t .scalar y w →
      sop w = 24 →
      exec (.pnot t) s = .next (s.setTum t.die.val (posOf t) (y.later 1 .pred (destS w % 8) 0 1 (!predA y w).toNat
        0))) ∧
  (∀ (s : State) (t : Tumbler) (y : Tum) (w : Nat),
      s.CanIssue t .scalar y w →
      sop w = 25 →
      exec (.loopi t) s = .next (
        s.setTum t.die.val (posOf t) ({ y with loopSet := 1 + 2 * (destS w % 2) + 4 * bitsOf w 0 14 })))

/-- A bay load within the bay delivers its half line or word four cycles on, words in error as 0, with what the errors count
and record; a bay store writes its half or word of the line and leaves every other line. Past the last line a load
delivers 0, a store writes nothing, and the out-of-range flag is set. INC adds 1 to S[SB] in each case. (R180, R186,
R187, R266) -/
def Obligations.BaySlotOperations : Prop :=
  (∀ (s : State) (t : Tumbler) (corrected : BitVec 4) (bad : BitVec 4) (y : Tum) (w : Nat),
      s.CanIssue t .bay y w →
      bop w = 1 →
      bayLine y w < bayLines →
      exec (.bld t corrected bad) s = .next (
        let r := (s.setTum t.die.val (posOf t) y).bayRead t.die.val (posOf t) (bayLine y w) 15 corrected.toNat
          bad.toNat 16
        r.2.setTum t.die.val (posOf t) ((y.later 4 .vec (bayReg w) (128 * (baySub w % 2)) 128 r.1 0).inc w))) ∧
  (∀ (s : State) (t : Tumbler) (corrected : BitVec 4) (bad : BitVec 4) (y : Tum) (w : Nat),
      s.CanIssue t .bay y w →
      bop w = 1 →
      bayLines ≤ bayLine y w →
      exec (.bld t corrected bad) s = .next (s.setTum t.die.val (posOf t) (((y.later 4 .vec (bayReg w) (128 * (baySub
        w % 2)) 128 0 0).inc w).flag 8))) ∧
  (∀ (s : State) (t : Tumbler) (corrected : BitVec 4) (bad : BitVec 4) (y : Tum) (w : Nat),
      s.CanIssue t .bay y w →
      bop w = 3 →
      bayLine y w < bayLines →
      exec (.blds t corrected bad) s = .next (
        let r := (s.setTum t.die.val (posOf t) y).bayRead t.die.val (posOf t) (bayLine y w) (2 ^ baySub w)
          corrected.toNat
          bad.toNat 4
        r.2.setTum t.die.val (posOf t) ((y.later 4 .scal (bayReg w % 16) 0 32 (elem r.1 32 (baySub w)) 0).inc w))) ∧
  (∀ (s : State) (t : Tumbler) (corrected : BitVec 4) (bad : BitVec 4) (y : Tum) (w : Nat),
      s.CanIssue t .bay y w →
      bop w = 3 →
      bayLines ≤ bayLine y w →
      exec (.blds t corrected bad) s = .next (s.setTum t.die.val (posOf t) (((y.later 4 .scal (bayReg w % 16) 0 32 0
        0).inc w).flag 8))) ∧
  (∀ (s : State) (t : Tumbler) (y : Tum) (w : Nat),
      s.CanIssue t .bay y w →
      bop w = 2 →
      bayLine y w < bayLines →
      exec (.bst t) s = .next (((s.setTum t.die.val (posOf t) y).setBayLine t.die.val (posOf t) (bayLine y w) (elem
        (y.v (bayReg w)) 128 (baySub w % 2))).setTum t.die.val (posOf t) (y.inc w))) ∧
  (∀ (s : State) (t : Tumbler) (y : Tum) (w : Nat),
      s.CanIssue t .bay y w →
      bop w = 2 →
      bayLines ≤ bayLine y w →
      exec (.bst t) s = .next (s.setTum t.die.val (posOf t) ((y.inc w).flag 8))) ∧
  (∀ (s : State) (t : Tumbler) (y : Tum) (w : Nat),
      s.CanIssue t .bay y w →
      bop w = 4 →
      bayLine y w < bayLines →
      exec (.bsts t) s = .next (
        let u := s.setTum t.die.val (posOf t) y
        let v := withField (u.bayLine t.die.val (posOf t) (bayLine y w)) (32 * baySub w) 32 (y.s (bayReg w % 16))
        (u.setBayLine t.die.val (posOf t) (bayLine y w) v).setTum t.die.val (posOf t) (y.inc w))) ∧
  (∀ (s : State) (t : Tumbler) (y : Tum) (w : Nat),
      s.CanIssue t .bay y w →
      bop w = 4 →
      bayLines ≤ bayLine y w →
      exec (.bsts t) s = .next (s.setTum t.die.val (posOf t) ((y.inc w).flag 8)))

/-- Once its whole micro-word has issued, a sequencer act ends the tumbler cycle: NEXT goes to the next address,
LOOP_END back to the start of its loop while its count lasts and else on, HALT halts; then a LOOPI of the word takes
effect, the writes due land and the words that were presented are gone. A halted tumbler goes on counting cycles; before
the whole word has issued no act takes place. The vector send goes out on every port of OMASK, and the capture takes the
word presented at the INSEL port, zeros where none is. The scalar send drives S[SOR] and the capture takes a valid word
into S[SIR] and the valid bit into P5. CTL 1 captures P7, CTL 2 drives P6, CTL 3 captures the token into S15 and CTL 4
drives S15[7:0]. A drive or a capture that no route serves is counted. (R176, R182, R188, R189, R190, R191, R197, R200,
R205, R211, R214) -/
def Obligations.SequencerRoutesAndControl : Prop :=
  (∀ (s : State) (t : Tumbler) (x : Tum),
      x = s.tum t.die.val (posOf t) →
      s.issues t.die.val x = true →
      x.halted = false →
      wholeWord x (s.uword t.die.val (posOf t) x) = true →
      seqOf (s.uword t.die.val (posOf t) x) = 0 →
      exec (.next t) s = .next (
        let u := (({ x with lastAddr := x.addr }).advance).setLoop x.addr
        let z := ({ u with cycle := x.cycle + 1, slots := 0 }).arrive s.free (x.cycle + 1)
        let v := (s.useFree.setTum t.die.val (posOf t) z).set (ARRAY.SECTION_CYCLE.on t.die.val)
          (max ((s.useFree.setTum t.die.val (posOf t) z).get (ARRAY.SECTION_CYCLE.on t.die.val)) (x.cycle + 1))
        v.onDie t.die.val (fun e =>
          { e with flights := e.flights.filter (fun f => f.gate || f.dst != posOf t || x.cycle + 1 ≤ f.due) }))) ∧
  (∀ (s : State) (t : Tumbler) (x : Tum),
      x = s.tum t.die.val (posOf t) →
      s.issues t.die.val x = true →
      x.halted = false →
      wholeWord x (s.uword t.die.val (posOf t) x) = true →
      seqOf (s.uword t.die.val (posOf t) x) = 1 →
      x.l0Count = 0 →
      exec (.loopEnd t) s = .next (
        let u := (({ x with lastAddr := x.addr }).advance).setLoop x.addr
        let z := ({ u with cycle := x.cycle + 1, slots := 0 }).arrive s.free (x.cycle + 1)
        let v := (s.useFree.setTum t.die.val (posOf t) z).set (ARRAY.SECTION_CYCLE.on t.die.val)
          (max ((s.useFree.setTum t.die.val (posOf t) z).get (ARRAY.SECTION_CYCLE.on t.die.val)) (x.cycle + 1))
        v.onDie t.die.val (fun e =>
          { e with flights := e.flights.filter (fun f => f.gate || f.dst != posOf t || x.cycle + 1 ≤ f.due) }))) ∧
  (∀ (s : State) (t : Tumbler) (x : Tum),
      x = s.tum t.die.val (posOf t) →
      s.issues t.die.val x = true →
      x.halted = false →
      wholeWord x (s.uword t.die.val (posOf t) x) = true →
      seqOf (s.uword t.die.val (posOf t) x) = 1 →
      x.l0Count ≠ 0 →
      exec (.loopEnd t) s = .next (
        let u := ({ x with lastAddr := x.addr, addr := x.l0Start, l0Count := x.l0Count - 1 }).setLoop x.addr
        let z := ({ u with cycle := x.cycle + 1, slots := 0 }).arrive s.free (x.cycle + 1)
        let v := (s.useFree.setTum t.die.val (posOf t) z).set (ARRAY.SECTION_CYCLE.on t.die.val)
          (max ((s.useFree.setTum t.die.val (posOf t) z).get (ARRAY.SECTION_CYCLE.on t.die.val)) (x.cycle + 1))
        v.onDie t.die.val (fun e =>
          { e with flights := e.flights.filter (fun f => f.gate || f.dst != posOf t || x.cycle + 1 ≤ f.due) }))) ∧
  (∀ (s : State) (t : Tumbler) (x : Tum),
      x = s.tum t.die.val (posOf t) →
      s.issues t.die.val x = true →
      x.halted = false →
      wholeWord x (s.uword t.die.val (posOf t) x) = true →
      seqOf (s.uword t.die.val (posOf t) x) = 2 →
      x.l1Count = 0 →
      exec (.loopEnd t) s = .next (
        let u := (({ x with lastAddr := x.addr }).advance).setLoop x.addr
        let z := ({ u with cycle := x.cycle + 1, slots := 0 }).arrive s.free (x.cycle + 1)
        let v := (s.useFree.setTum t.die.val (posOf t) z).set (ARRAY.SECTION_CYCLE.on t.die.val)
          (max ((s.useFree.setTum t.die.val (posOf t) z).get (ARRAY.SECTION_CYCLE.on t.die.val)) (x.cycle + 1))
        v.onDie t.die.val (fun e =>
          { e with flights := e.flights.filter (fun f => f.gate || f.dst != posOf t || x.cycle + 1 ≤ f.due) }))) ∧
  (∀ (s : State) (t : Tumbler) (x : Tum),
      x = s.tum t.die.val (posOf t) →
      s.issues t.die.val x = true →
      x.halted = false →
      wholeWord x (s.uword t.die.val (posOf t) x) = true →
      seqOf (s.uword t.die.val (posOf t) x) = 2 →
      x.l1Count ≠ 0 →
      exec (.loopEnd t) s = .next (
        let u := ({ x with lastAddr := x.addr, addr := x.l1Start, l1Count := x.l1Count - 1 }).setLoop x.addr
        let z := ({ u with cycle := x.cycle + 1, slots := 0 }).arrive s.free (x.cycle + 1)
        let v := (s.useFree.setTum t.die.val (posOf t) z).set (ARRAY.SECTION_CYCLE.on t.die.val)
          (max ((s.useFree.setTum t.die.val (posOf t) z).get (ARRAY.SECTION_CYCLE.on t.die.val)) (x.cycle + 1))
        v.onDie t.die.val (fun e =>
          { e with flights := e.flights.filter (fun f => f.gate || f.dst != posOf t || x.cycle + 1 ≤ f.due) }))) ∧
  (∀ (s : State) (t : Tumbler) (x : Tum),
      x = s.tum t.die.val (posOf t) →
      s.issues t.die.val x = true →
      x.halted = false →
      wholeWord x (s.uword t.die.val (posOf t) x) = true →
      seqOf (s.uword t.die.val (posOf t) x) = 3 →
      exec (.halt t) s = .next (
        let u := ({ x with lastAddr := x.addr, halted := true }).setLoop x.addr
        let z := ({ u with cycle := x.cycle + 1, slots := 0 }).arrive s.free (x.cycle + 1)
        let v := (s.useFree.setTum t.die.val (posOf t) z).set (ARRAY.SECTION_CYCLE.on t.die.val)
          (max ((s.useFree.setTum t.die.val (posOf t) z).get (ARRAY.SECTION_CYCLE.on t.die.val)) (x.cycle + 1))
        v.onDie t.die.val (fun e =>
          { e with flights := e.flights.filter (fun f => f.gate || f.dst != posOf t || x.cycle + 1 ≤ f.due) }))) ∧
  (∀ (s : State) (t : Tumbler) (x : Tum),
      x = s.tum t.die.val (posOf t) →
      s.issues t.die.val x = true →
      x.halted = true →
      exec (.next t) s = .next (
        let z := ({ x with cycle := x.cycle + 1, slots := 0 }).arrive s.free (x.cycle + 1)
        let v := (s.useFree.setTum t.die.val (posOf t) z).set (ARRAY.SECTION_CYCLE.on t.die.val)
          (max (s.get (ARRAY.SECTION_CYCLE.on t.die.val)) (x.cycle + 1))
        v.onDie t.die.val (fun e =>
          { e with flights := e.flights.filter (fun f => f.gate || f.dst != posOf t || x.cycle + 1 ≤ f.due) }))) ∧
  (∀ (s : State) (t : Tumbler) (x : Tum),
      x = s.tum t.die.val (posOf t) →
      s.issues t.die.val x = false ∨ wholeWord x (s.uword t.die.val (posOf t) x) = false →
      exec (.next t) s = .next s ∧ exec (.loopEnd t) s = .next s ∧ exec (.halt t) s = .next s) ∧
  (∀ (s : State) (t : Tumbler) (y : Tum) (w : Nat),
      s.CanIssue t .vectorSend y w →
      bitsOf w 45 5 ≠ 0 →
      exec (.vectorRouteSend t) s = .next (
        let u := (s.setTum t.die.val (posOf t) y).each ((List.range 4).filter (fun k => w.testBit (45 + k)))
          (fun u k => u.sendNeighbour t.die.val (posOf t) k y.cycle (outWord y w))
        if w.testBit 49 then u.drive t.die.val 0 false (posOf t) y.cycle (outWord y w) else u)) ∧
  (∀ (s : State) (t : Tumbler) (y : Tum) (w : Nat),
      s.CanIssue t .vectorCapture y w →
      bitsOf w 42 3 ≠ 0 →
      exec (.vectorRouteCapture t) s = .next (
        let u := s.setTum t.die.val (posOf t) y
        let v := (u.presented t.die.val false (posOf t) (insel w) y.cycle).getD 0
        (if insel w = .vector then u.captureCount t.die.val 0 false (posOf t) else u).setTum t.die.val (posOf t)
          (y.later 1 .vec (bitsOf w 37 5) 0 256 v 2))) ∧
  (∀ (s : State) (t : Tumbler) (y : Tum) (w : Nat),
      s.CanIssue t .scalarSend y w →
      w.testBit 36 = true →
      exec (.scalarRouteSend t) s = .next ((s.setTum t.die.val (posOf t) y).drive t.die.val 1 false (posOf t) y.cycle
        (y.s (bitsOf w 32 4)))) ∧
  (∀ (s : State) (t : Tumbler) (y : Tum) (w : Nat),
      s.CanIssue t .scalarCapture y w →
      w.testBit 31 = true →
      exec (.scalarRouteCapture t) s = .next (
        let u := s.setTum t.die.val (posOf t) y
        let z := match u.presented t.die.val false (posOf t) .scalar y.cycle with
          | some v => (y.later 1 .scal (bitsOf w 27 4) 0 32 v 1).later 1 .pred 5 0 1 1 1
          | none => y.later 1 .pred 5 0 1 0 1
        (u.captureCount t.die.val 1 false (posOf t)).setTum t.die.val (posOf t) z)) ∧
  (∀ (s : State) (t : Tumbler) (y : Tum) (w : Nat),
      s.CanIssue t .control y w →
      ctlOf w = 1 →
      exec (.ctlCapturePredicate t) s = .next (
        let u := s.setTum t.die.val (posOf t) y
        let v := (u.presented t.die.val false (posOf t) .control y.cycle).getD 0
        (u.captureCount t.die.val 2 false (posOf t)).setTum t.die.val (posOf t) (y.later 1 .pred 7 0 1 (v / 256 % 2)
          2))) ∧
  (∀ (s : State) (t : Tumbler) (y : Tum) (w : Nat),
      s.CanIssue t .control y w →
      ctlOf w = 2 →
      exec (.ctlDrivePredicate t) s = .next ((s.setTum t.die.val (posOf t) y).drive t.die.val 2 false (posOf t)
        y.cycle (256 * (y.preds.testBit 6).toNat))) ∧
  (∀ (s : State) (t : Tumbler) (y : Tum) (w : Nat),
      s.CanIssue t .control y w →
      ctlOf w = 3 →
      exec (.ctlCaptureToken t) s = .next (
        let u := s.setTum t.die.val (posOf t) y
        let v := (u.presented t.die.val false (posOf t) .control y.cycle).getD 0
        (u.captureCount t.die.val 2 false (posOf t)).setTum t.die.val (posOf t) (y.later 1 .scal 15 0 32 (v % 256)
          9))) ∧
  (∀ (s : State) (t : Tumbler) (y : Tum) (w : Nat),
      s.CanIssue t .control y w →
      ctlOf w = 4 →
      exec (.ctlDriveToken t) s = .next ((s.setTum t.die.val (posOf t) y).drive t.die.val 2 false (posOf t) y.cycle
        (y.s 15 % 256)))

/-- A permitted read delivers its bytes, all ones in units in error, with the errors counted and recorded; a permitted
write fills the bad units it covers in part with ones and stores its bytes; an access that is not permitted stores
nothing, delivers all ones and is refused with 0x1510 and a fault record. A BAR2 access inside STAGE of an open context
reaches deep memory; outside it is refused, with a fault record of kind 4 while a context is open; a die in reset does
not respond. The scrubber counts the errors of its granule and goes on, counting a pass at the end. A refresh changes
nothing. A temperature above 85 or 95 C sets the refresh interval. A stack that leaves training is die fault cause 4. A
sound window is enabled with its rights; an unsound one stays off with CFG_MISMATCH; of an enabled one the write is
discarded with ACCESS_ERR. (R34, R41, R44, R69, R269, R270, R271, R272, R275, R278, R279, R280, R403, R639) -/
def Obligations.DeepMemoryIsReadWrittenAndKept : Prop :=
  (∀ (s : State) (die : DieNo) (agent : Agent) (address : BitVec 40) (ecc : Ecc) (data : List Byte),
      s.inReset die.val = false →
      s.permitted die.val (agentKind agent) true address.toNat data.length = true →
      exec (.memoryAccess die agent address (.write data) ecc) s = .next (
        let u := (s.eccEffects die.val (agentKind agent) (agentIndex agent) (agentSource agent) true address.toNat
          data.length ecc).fillBad die.val (badUnits ecc true address.toNat data.length)
        { u.writeBytes die.val address.toNat data with answer := [] })) ∧
  (∀ (s : State) (die : DieNo) (agent : Agent) (address : BitVec 40) (ecc : Ecc) (n : BitVec 32),
      s.inReset die.val = false →
      s.permitted die.val (agentKind agent) false address.toNat n.toNat = true →
      exec (.memoryAccess die agent address (.read n) ecc) s = .next (
        let u := s.eccEffects die.val (agentKind agent) (agentIndex agent) (agentSource agent) false address.toNat
          n.toNat ecc
        { u with answer := s.readBytes die.val address.toNat n.toNat (badUnits ecc false address.toNat n.toNat) })) ∧
  (∀ (s : State) (die : DieNo) (agent : Agent) (address : BitVec 40) (ecc : Ecc) (data : List Byte),
      s.inReset die.val = false →
      s.permitted die.val (agentKind agent) true address.toNat data.length = false →
      exec (.memoryAccess die agent address (.write data) ecc) s = .next (
        { s.refuseAccess die.val (agentKind agent) (agentIndex agent) (agentSource agent) true address.toNat
          data.length with answer := [] })) ∧
  (∀ (s : State) (die : DieNo) (agent : Agent) (address : BitVec 40) (ecc : Ecc) (n : BitVec 32),
      s.inReset die.val = false →
      s.permitted die.val (agentKind agent) false address.toNat n.toNat = false →
      exec (.memoryAccess die agent address (.read n) ecc) s = .next (
        { s.refuseAccess die.val (agentKind agent) (agentIndex agent) (agentSource agent) false address.toNat n.toNat
          with answer := List.replicate n.toNat 0xFF })) ∧
  (∀ (s : State) (die : DieNo) (offset : BitVec 64) (access : MemOp) (ecc : Ecc),
      s.inReset die.val = true →
      exec (.bar2Access die offset access ecc) s = .next ({ s with answer := [] })) ∧
  (∀ (s : State) (die : DieNo) (offset : BitVec 64) (n : BitVec 32),
      s.inReset die.val = false →
      s.get (CTX.STATE.on die.val) ≠ 0 →
      offset.toNat + n.toNat ≤ s.partSize die.val 3 →
      exec (.bar2Access die offset (.read n) ⟨[], []⟩) s = .next (
        let a := s.partBase die.val 3 + offset.toNat
        { s with answer := s.readBytes die.val a n.toNat [] })) ∧
  (∀ (s : State) (die : DieNo) (offset : BitVec 64) (data : List Byte),
      s.inReset die.val = false →
      s.get (CTX.STATE.on die.val) ≠ 0 →
      offset.toNat + data.length ≤ s.partSize die.val 3 →
      exec (.bar2Access die offset (.write data) ⟨[], []⟩) s = .next (
        let a := s.partBase die.val 3 + offset.toNat
        { s.writeBytes die.val a data with answer := [] })) ∧
  (∀ (s : State) (die : DieNo) (offset : BitVec 64) (ecc : Ecc) (n : BitVec 32),
      s.inReset die.val = false →
      s.get (CTX.STATE.on die.val) = 0 →
      exec (.bar2Access die offset (.read n) ecc) s = .next (
        { s.dieEvent die.val WIN.page 0x1510 with answer := List.replicate n.toNat 0xFF })) ∧
  (∀ (s : State) (die : DieNo) (offset : BitVec 64) (ecc : Ecc) (access : MemOp),
      s.inReset die.val = false →
      s.get (CTX.STATE.on die.val) ≠ 0 →
      s.partSize die.val 3 < offset.toNat + opLength access →
      exec (.bar2Access die offset access ecc) s = .next (
        let ones := if opWrites access then [] else List.replicate (opLength access) (0xFF : Byte)
        let u := { s.dieEvent die.val WIN.page 0x1510 with answer := ones }
        u.faultRecord die.val 4 [offset.toNat % 4294967296, offset.toNat / 4294967296, opLength access,
          (opWrites access).toNat, 0, 0, 0, 0])) ∧
  (∀ (s : State) (die : DieNo) (stack : Fin 4) (ecc : Ecc),
      s.inReset die.val = false →
      s.is (HBM.TRAINED.at die.val stack.val) = true →
      s.get (MEMI.SCRUB.at die.val stack.val) + 1 < scrubGranules →
      exec (.scrubRead die stack ecc) s = .next (
        let a := scrubAddr stack.val (s.get (MEMI.SCRUB.at die.val stack.val))
        let u := s.each (ecc.corrected.filter (fun k => unitIn k a 256)) (fun u k => u.countCe die.val (32 * k))
        let v := u.each (ecc.bad.filter (fun k => unitIn k a 256)) (fun u k => u.countUe die.val (32 * k))
        v.set (MEMI.SCRUB.at die.val stack.val) (s.get (MEMI.SCRUB.at die.val stack.val) + 1))) ∧
  (∀ (s : State) (die : DieNo) (stack : Fin 4) (ecc : Ecc),
      s.inReset die.val = false →
      s.is (HBM.TRAINED.at die.val stack.val) = true →
      scrubGranules ≤ s.get (MEMI.SCRUB.at die.val stack.val) + 1 →
      exec (.scrubRead die stack ecc) s = .next (
        let a := scrubAddr stack.val (s.get (MEMI.SCRUB.at die.val stack.val))
        let u := s.each (ecc.corrected.filter (fun k => unitIn k a 256)) (fun u k => u.countCe die.val (32 * k))
        let v := u.each (ecc.bad.filter (fun k => unitIn k a 256)) (fun u k => u.countUe die.val (32 * k))
        (v.set (MEMI.SCRUB.at die.val stack.val) 0).count (HBM.SCRUB_PASSES.at die.val stack.val))) ∧
  (∀ (s : State) (die : DieNo) (stack : Fin 4),
      exec (.refresh die stack) s = .next (s)) ∧
  (∀ (s : State) (die : DieNo) (stack : Fin 4) (celsius : BitVec 8),
      s.inReset die.val = false →
      exec (.stackTempRead die stack celsius) s = .next ((s.set (HBM.TEMP.at die.val stack.val) celsius.toNat).set
        (HBM.TREFI.at die.val stack.val) (if celsius.toNat ≤ 85 then 0 else if celsius.toNat ≤ 95 then 1 else 2))) ∧
  (∀ (s : State) (die : DieNo) (stack : Fin 4),
      s.inReset die.val = false →
      exec (.hbmStackUntrained die stack) s = .next ((s.set (HBM.TRAINED.at die.val stack.val) 0).dieFault die.val 4)) ∧
  (∀ (s : State) (req : Requester) (die : DieNo) (window : Fin 16) (rights : BitVec 3),
      s.Reaches die.val WIN.page WIN.EN window.val req →
      s.is (PART.CARVE_LOCKED.on die.val) = false →
      s.is (WIN.EN.at die.val window.val) = false →
      exec (.windowEnable req die window rights) s = .next (
        let u := s.set (WIN.R.at die.val window.val) (rights.toNat % 2)
        let v := (u.set (WIN.W.at die.val window.val) (rights.toNat / 2 % 2)).set (WIN.X.at die.val window.val)
          (rights.toNat / 4)
        if s.get (WIN.BASE.at die.val window.val) ≤ s.get (WIN.LIMIT.at die.val window.val) ∧
            s.inPartition die.val (s.get (WIN.BASE.at die.val window.val)) (s.get (WIN.LIMIT.at die.val window.val))
              then
          v.set (WIN.EN.at die.val window.val) 1
        else v.regFault die.val WIN.page WIN.EN window.val .cfgMismatch req.val (rights.toNat + 2147483648))) ∧
  (∀ (s : State) (req : Requester) (die : DieNo) (window : Fin 16) (rights : BitVec 3),
      s.Reaches die.val WIN.page WIN.EN window.val req →
      s.is (PART.CARVE_LOCKED.on die.val) = false →
      s.is (WIN.EN.at die.val window.val) = true →
      exec (.windowEnable req die window rights) s = .next (s.regFault die.val WIN.page WIN.EN window.val .accessErr
        req.val (rights.toNat + 2147483648))) ∧
  (∀ (s : State) (req : Requester) (die : DieNo) (window : Fin 16) (rights : BitVec 3),
      s.Reaches die.val WIN.page WIN.EN window.val req →
      s.is (PART.CARVE_LOCKED.on die.val) = true →
      exec (.windowEnable req die window rights) s = .next (s.regFault die.val WIN.page WIN.EN window.val .lockViol
        req.val (rights.toNat + 2147483648)))

/-- INIT in OPEN, once a context, with pools that fit starts building the lists; outside OPEN or a second time it is
discarded with ACCESS_ERR, and pools that do not fit are CFG_MISMATCH. Its end gives every class the list of its blocks,
block 0 on top, no holders, and INITED. ALLOC and FREE of a call window put its request before the allocator; a gate
unit passes its oldest token, if it is of the kind asked for. The allocator serves the FREEs and then the ALLOCs, each
by requester number. FQ_CONS takes a value up to FQ_PROD; one past it is discarded with ACCESS_ERR. FWD_POP removes the
oldest record of FWDQ. (R283, R284, R287, R288, R289, R292, R398, R402, R405) -/
def Obligations.TheHeapIsBuiltAllocatedAndFreed : Prop :=
  (∀ (s : State) (req : Requester) (die : DieNo),
      s.Reaches die.val HEAP.page HEAP.INIT 0 req →
      s.get (CTX.STATE.on die.val) = 1 →
      s.is (MEMI.BUILT.on die.val) = false →
      s.heapUnits die.val ≤ s.get (PART.SIZE.at die.val 2) →
      (List.range 9).any (fun n => decide (65536 < s.get (HEAP.COUNT.at die.val n))) = false →
      exec (.heapInit req die) s = .next (s.set (MEMI.BUILT.on die.val) 1)) ∧
  (∀ (s : State) (req : Requester) (die : DieNo),
      s.Reaches die.val HEAP.page HEAP.INIT 0 req →
      s.get (CTX.STATE.on die.val) ≠ 1 ∨ s.is (MEMI.BUILT.on die.val) = true →
      exec (.heapInit req die) s = .next (s.regFault die.val HEAP.page HEAP.INIT 0 .accessErr req.val 1)) ∧
  (∀ (s : State) (die : DieNo),
      s.inReset die.val = false →
      s.is (MEMI.BUILT.on die.val) = true →
      s.is (HEAP.INITED.on die.val) = false →
      exec (.heapInitDone die) s = .next (
        let lists := (List.range 9).map (fun n => (n, List.range (s.get (HEAP.COUNT.at die.val n))))
        ((s.onDie die.val (fun x => { x with heap := lists, holders := [] })).set (HEAP.INITED.on die.val)
          1).heapRegs die.val)) ∧
  (∀ (s : State) (die : DieNo),
      s.inReset die.val = false →
      exec (.allocatorServe die) s = .next (
        let q := (s.die die.val).heapQ
        (sortReqs (q.filter (fun r => r.call == 15)) ++ sortReqs (q.filter (fun r => r.call != 15))).foldl (fun u r =>
          if 16 ≤ r.who ∧ r.who < 272 then u.serveGate die.val r else u.serveCall die.val r)
          (s.onDie die.val (fun x => { x with heapQ := [] })))) ∧
  (∀ (s : State) (req : Requester) (die : DieNo) (window : Fin 3),
      s.Reaches die.val HEAP.page HEAP.W_ALLOC window.val req →
      exec (.alloc req die window) s = .next (
        let c := s.get (HEAP.W_CLASS.at die.val window.val)
        s.askHeap die.val ⟨windowOwner window.val, 0, if c = 15 then 14 else c, 0⟩)) ∧
  (∀ (s : State) (req : Requester) (die : DieNo) (window : Fin 3),
      s.Reaches die.val HEAP.page HEAP.W_FREE window.val req →
      exec (.free req die window) s = .next (s.askHeap die.val ⟨windowOwner window.val, 0, 15, s.get (HEAP.W_ARG.at
        die.val window.val)⟩)) ∧
  (∀ (s : State) (die : DieNo) (gate : Fin 256) (k : Nat) (rest : List Nat),
      s.inReset die.val = false →
      (s.gate die.val gate.val).tokens = k :: rest →
      k % 16 ≠ 15 →
      exec (.guAllocToken die gate) s = .next (
        (s.setGate die.val gate.val { s.gate die.val gate.val with tokens := rest }).askHeap die.val ⟨16 + gate.val,
          bitsOf k 4 2, k % 16, 0⟩)) ∧
  (∀ (s : State) (die : DieNo) (gate : Fin 256) (k : Nat) (rest : List Nat),
      s.inReset die.val = false →
      (s.gate die.val gate.val).tokens = k :: rest →
      k % 16 = 15 →
      exec (.guFreeToken die gate) s = .next (
        (s.setGate die.val gate.val { s.gate die.val gate.val with tokens := rest }).askHeap die.val ⟨16 + gate.val,
          bitsOf k 4 2, 15, 0⟩)) ∧
  (∀ (s : State) (req : Requester) (die : DieNo) (value : BitVec 16),
      s.Reaches die.val FAULT.page FAULT.FQ_CONS 0 req →
      (value.toNat + 65536 - s.get (FAULT.FQ_CONS.on die.val)) % 65536 ≤ (s.get (FAULT.FQ_PROD.on die.val) + 65536 -
        s.get (FAULT.FQ_CONS.on die.val)) % 65536 →
      exec (.fqCons req die value) s = .next (s.set (FAULT.FQ_CONS.on die.val) value.toNat)) ∧
  (∀ (s : State) (req : Requester) (die : DieNo) (value : BitVec 16),
      s.Reaches die.val FAULT.page FAULT.FQ_CONS 0 req →
      (s.get (FAULT.FQ_PROD.on die.val) + 65536 - s.get (FAULT.FQ_CONS.on die.val)) % 65536 < (value.toNat + 65536 -
        s.get (FAULT.FQ_CONS.on die.val)) % 65536 →
      exec (.fqCons req die value) s = .next (s.regFault die.val FAULT.page FAULT.FQ_CONS 0 .accessErr req.val
        value.toNat)) ∧
  (∀ (s : State) (req : Requester) (die : DieNo),
      s.Reaches die.val FAULT.page FAULT.FWD_POP 0 req →
      exec (.fwdPop req die) s = .next (
        (s.onDie die.val (fun x => { x with fwdq := x.fwdq.drop 1 })).fwdFill die.val))

/-- FUSE_COL of an unwritten group is programmed once, with the group shown fused; a second write is discarded with
LOCK_VIOL. CHECK starts the checker, clearing VERIFIED and the verdict; while one runs it is discarded. The check ends
with the first refusal of R245, recorded, or with VERIFIED, NKEYS, MIN_SYNC_BEATS, the keyring ID and VARIANTS. LOAD is
accepted with a verified keyring and no load running and empties the shadow; otherwise it is discarded with ACCESS_ERR;
during the TUMBLER test or the steps of a hinge it waits. A load ends with the key in the shadow, counted, or refused
with the shadow empty, and not while a scan runs. A section ends once every word and SEND of its cycles has issued, and
not before or in a freeze, and the quiesce begins. The stretch accumulator holds the clock for one cycle each time it
has gained 1.0. (R57, R58, R176, R220, R245, R246, R247, R248, R252, R259, R362, R365, R676) -/
def Obligations.KeyringsAreCheckedAndKeysLoaded : Prop :=
  (∀ (s : State) (req : Requester) (die : DieNo) (group : Fin 4) (column : BitVec 5),
      s.Reaches die.val CSKIP.page ([CSKIP.FUSE_COL_0, CSKIP.FUSE_COL_1, CSKIP.FUSE_COL_2, CSKIP.FUSE_COL_3].getD
        group.val CSKIP.FUSE_COL_0) 0 req →
      exec (.fuseCol req die group column) s = .next (
        let r := [CSKIP.FUSE_COL_0, CSKIP.FUSE_COL_1, CSKIP.FUSE_COL_2, CSKIP.FUSE_COL_3].getD group.val
          CSKIP.FUSE_COL_0
        { (s.set (r.on die.val) column.toNat).setBit (CSKIP.FUSED.on die.val) group.val true with
          spent := fuseKey (r.on die.val) :: s.spent })) ∧
  (∀ (s : State) (req : Requester) (die : DieNo) (group : Fin 4) (column : BitVec 5),
      s.inReset die.val = false →
      s.resetting die.val CSKIP.page 0 = false →
      s.fuseOpen die.val ([CSKIP.FUSE_COL_0, CSKIP.FUSE_COL_1, CSKIP.FUSE_COL_2, CSKIP.FUSE_COL_3].getD group.val
        CSKIP.FUSE_COL_0) 0 = false →
      exec (.fuseCol req die group column) s = .next (
        let r := [CSKIP.FUSE_COL_0, CSKIP.FUSE_COL_1, CSKIP.FUSE_COL_2, CSKIP.FUSE_COL_3].getD group.val
          CSKIP.FUSE_COL_0
        s.regFault die.val CSKIP.page r 0 .lockViol req.val (column.toNat * 2 ^ (8 * group.val)))) ∧
  (∀ (s : State) (req : Requester) (die : DieNo),
      s.Reaches die.val KRING.page KRING.CHECK 0 req →
      s.is (KRING.CHECKING.on die.val) = false →
      exec (.keyringCheck req die) s = .next (((s.set (KRING.CHECKING.on die.val) 1).set (KRING.VERIFIED.on die.val)
        0).set (KRING.VERDICT.on die.val) 0)) ∧
  (∀ (s : State) (req : Requester) (die : DieNo),
      s.Reaches die.val KRING.page KRING.CHECK 0 req →
      s.is (KRING.CHECKING.on die.val) = true →
      exec (.keyringCheck req die) s = .next (s)) ∧
  (∀ (s : State) (die : DieNo) (ecc : Ecc),
      s.inReset die.val = false →
      s.is (KRING.CHECKING.on die.val) = true →
      exec (.keyringCheckDone die ecc) s = .next (
        let d := die.val
        let u := s.set (KRING.CHECKING.on d) 0
        let size := if u.permitted d 6 false (u.ringBase d) 256 then u.le d (u.ringBase d + 8) 8 else 256
        let seen := u.readEffects d (u.ringBase d) size ecc
        match (if u.readable d (u.ringBase d) size ecc then u.checkKeyring d (u.ringBase d) else some ⟨1, 0, 0xF,
          none, 0⟩) with
        | some r => (seen.set (KRING.VERDICT.on d) r.code).refuse d r false
        | none =>
          let v := (seen.set (KRING.VERIFIED.on d) 1).set (KRING.NKEYS.on d) (u.le d (u.ringBase d + 6) 2)
          let w := v.set (KRING.MIN_SYNC_BEATS.on d) (v.le d (u.ringBase d + 0x1C) 4)
          let x := w.setPair (KRING.KEYRING_ID_LO.on d) (KRING.KEYRING_ID_HI.on d) (w.le d (u.ringBase d + 0x10) 8)
          let y := x.set (KRING.VARIANTS.on d) ((x.variantsOf d (u.ringBase d)).foldl (fun m n => withBit m n true) 0)
          if y.outMask d = 0 then y else y.selectSet d)) ∧
  (∀ (s : State) (req : Requester) (die : DieNo) (key : BitVec 12),
      s.Reaches die.val ARRAY.page ARRAY.LOAD 0 req →
      s.is (STEST.TUMBLER_RUN.on die.val) = true ∨ s.phaseIs die.val .swap = true →
      exec (.load req die key) s = .next ((((s.set (ARRAY.NEXT_KEY.on die.val) key.toNat).set (ARRAY.LOAD.on die.val)
        1).set (ARRI.LOAD_REQ.on die.val) req.val))) ∧
  (∀ (s : State) (req : Requester) (die : DieNo) (key : BitVec 12),
      s.Reaches die.val ARRAY.page ARRAY.LOAD 0 req →
      s.is (STEST.TUMBLER_RUN.on die.val) = false →
      s.phaseIs die.val .swap = false →
      s.is (KRING.VERIFIED.on die.val) = true →
      s.is (ARRAY.LOADING.on die.val) = false →
      exec (.load req die key) s = .next (
        let d := die.val
        let u := s.set (ARRAY.NEXT_KEY.on d) key.toNat
        let form := u.loadForm d key.toNat
        let v := ((u.set (ARRAY.LOADING.on d) 1).set (ARRAY.SHADOW_KEY.on d) key.toNat).set (ARRAY.SHADOW_READY.on d)
          0
        let w := ((v.set (ARRI.LOAD_FORM.on d) form).set (ARRI.REFUSED.on d) 0).set (ARRI.LOADED.on d) 0
        let x := w.onDie d (fun x => { x with shadowKey := none })
        x.chooseEntry d key.toNat ((x.keyFlags (x.formAt d (x.ringBase d) form) key.toNat).testBit 0))) ∧
  (∀ (s : State) (req : Requester) (die : DieNo) (key : BitVec 12),
      s.Reaches die.val ARRAY.page ARRAY.LOAD 0 req →
      s.is (STEST.TUMBLER_RUN.on die.val) = false →
      s.phaseIs die.val .swap = false →
      s.is (KRING.VERIFIED.on die.val) = false ∨ s.is (ARRAY.LOADING.on die.val) = true →
      exec (.load req die key) s = .next ((s.set (ARRAY.NEXT_KEY.on die.val) key.toNat).regFault die.val ARRAY.page
        ARRAY.LOAD 0 .accessErr req.val (key.toNat + 65536))) ∧
  (∀ (s : State) (die : DieNo) (cycles : BitVec 16) (ecc : Ecc),
      s.inReset die.val = false →
      s.is (ARRAY.LOADING.on die.val) = true →
      s.is (SCAN.SCANNING.on die.val) = false →
      exec (.shadowReady die cycles ecc) s = .next (
        let d := die.val
        let k := s.get (ARRAY.SHADOW_KEY.on d)
        let f := s.formAt d (s.ringBase d) (s.get (ARRI.LOAD_FORM.on d))
        let seen := (s.readEffects d (s.keyAt f k) (s.le d (f.entry k + 8) 4) ecc).set (ARRAY.LOADING.on d) 0
        match (if f.nkeys ≤ k then some ⟨4, k, f.form, none, 0⟩
            else if s.readable d (s.keyAt f k) (s.le d (f.entry k + 8) 4) ecc then s.checkImage f k
            else some ⟨3, k, f.form, none, 0⟩) with
        | some r =>
          let u := (seen.refuse d r true).set (ARRI.REFUSED.on d) 1
          if u.phaseIs d .loadWait then u.contextFault d 2 else u
        | none =>
          let u := (seen.onDie d (fun x => { x with shadowKey := some (s.readKey f k) })).set (ARRI.LOADED.on d) 1
          ((u.count (KLOAD.LOADS.on d)).set (KLOAD.LAST_LOAD_CYCLES.on d) cycles.toNat).tryReady d)) ∧
  (∀ (s : State) (die : DieNo) (cycles : BitVec 16) (ecc : Ecc),
      s.is (ARRAY.LOADING.on die.val) = false ∨ s.is (SCAN.SCANNING.on die.val) = true →
      exec (.shadowReady die cycles ecc) s = .next s) ∧
  (∀ (s : State) (die : DieNo) (key : Key),
      (s.die die.val).active = some key →
      s.inReset die.val = false →
      s.phaseIs die.val .inSection = true →
      s.is (ARRAY.FROZEN.on die.val) = false →
      s.is (SCAN.SCANNING.on die.val) = false →
      s.sectionIssued die.val key = true →
      exec (.sectionEnd die) s = .next (((s.set (ARRAY.SECTION_CYCLE.on die.val) key.cycles).gatherStretch
        die.val).setPhase die.val .quiesce)) ∧
  (∀ (s : State) (die : DieNo) (key : Key),
      (s.die die.val).active = some key →
      s.is (ARRAY.FROZEN.on die.val) = true ∨ s.sectionIssued die.val key = false →
      exec (.sectionEnd die) s = .next s) ∧
  (∀ (s : State) (die : DieNo),
      s.inReset die.val = false →
      s.phaseIs die.val .inSection = true →
      (s.gatherStretch die.val).get (STRCI.USED.on die.val) + 65536 ≤ (s.gatherStretch die.val).get (STRCI.SUM.on
        die.val) →
      exec (.stretchCycle die) s = .next (
        let d := die.val
        let u := s.gatherStretch d
        let v := u.set (STRCI.USED.on d) (u.get (STRCI.USED.on d) + 65536)
        ((v.count (ARRAY.FREEZE_TOTAL.on d)).count (STRM.STRETCH_CYCLES.on d)).carriedFreeze d 1))

/-- A SEND that is due, with a word ready, removes the oldest ingress word (or one of all ones owed by a faulted
descriptor) and drives it on its port. A TAKE that is due, with room, captures the word at its port into egress; a token
of 0xC0 or more goes to the heap instead. An ingress chunk that may be read enters the queue, from which its words go
out three cycles on; an egress chunk that may be written stores the oldest words; a chunk that is refused faults its
descriptor. A due step without word or room freezes the array at its cycle. The end of a freeze with no request standing
counts its cycles in the total, for the runs carried and for each unit that held it, and clears FROZEN. A freeze past
its limit, with a request of the unit standing, is counted, records 0x1412 and takes the context to FAULTED with cause
1; it does not end then, and no freeze within its limit or without a request is taken for one. (R243, R244, R249, R250,
R251, R254, R262, R279, R281, R287, R290, R399) -/
def Obligations.GateUnitsSendTakeMoveAndFreeze : Prop :=
  (∀ (s : State) (die : DieNo) (gate : Fin 256) (step : Fin 16) (x : GateStep) (n w m : Nat) (rest : List (Nat × Nat)),
      s.dueStep die.val gate.val step.val = some (x, n) →
      x.take = false →
      s.gatesRun die.val false = true →
      sendReady (s.gate die.val gate.val) n = true →
      (s.gate die.val gate.val).ingress = (w, m) :: rest →
      exec (.guSend die gate step) s = .next (
        let g := countIssue (s.gate die.val gate.val) step.val
        ((s.setGate die.val gate.val { g with ingress := rest, inRead := g.inRead + 1 }).gateDrive die.val gate.val
          x.port n
          w).reach die.val n)) ∧
  (∀ (s : State) (die : DieNo) (gate : Fin 256) (step : Fin 16) (x : GateStep) (n : Nat),
      s.dueStep die.val gate.val step.val = some (x, n) →
      x.take = false →
      s.gatesRun die.val false = true →
      sendReady (s.gate die.val gate.val) n = true →
      (s.gate die.val gate.val).ingress = [] →
      exec (.guSend die gate step) s = .next (
        let g := countIssue (s.gate die.val gate.val) step.val
        ((s.setGate die.val gate.val { g with ones := g.ones - 1 }).gateDrive die.val gate.val x.port n (2 ^ 256 -
          1)).reach
          die.val n)) ∧
  (∀ (s : State) (die : DieNo) (gate : Fin 256) (step : Fin 16) (x : GateStep) (n : Nat) (p : GateProg),
      s.dueStep die.val gate.val step.val = some (x, n) →
      s.gateProg die.val gate.val = some p →
      x.take = true →
      s.gatesRun die.val true = true →
      requestsFreeze p (s.gate die.val gate.val) x n = false →
      exec (.guTake die gate step) s = .next (
        let v := (s.presented die.val true gate.val (gatePort x.port) n).getD 0
        let u := if x.port = 0 then s else s.captureCount die.val (x.port - 1) true gate.val
        let g := countIssue (u.gate die.val gate.val) step.val
        let h := if x.port = 3 ∧ 0xC0 ≤ v % 256 then { g with tokens := g.tokens ++ [v % 256] }
          else if 0 < g.skip then { g with skip := g.skip - 1 }
          else { g with egress := g.egress ++ [if x.port = 3 then v % 256 else v], egWrite := g.egWrite + 1 }
        (u.setGate die.val gate.val h).reach die.val n)) ∧
  (∀ (s : State) (die : DieNo) (gate : Fin 256) (ecc : Ecc) (p : GateProg) (i : Nat) (m : GateMem) (a : Nat),
      s.gateProg die.val gate.val = some p →
      currentMem p (s.gate die.val gate.val) false = some (i, m) →
      s.inReset die.val = false →
      (s.gate die.val gate.val).ones = 0 →
      (s.gate die.val gate.val).ingress.length + m.chunk / 32 ≤ splitOf p false →
      s.chunkAt die.val (s.gate die.val gate.val) i m ((aget (s.gate die.val gate.val).chunks i).getD 0) = .at a →
      s.permitted die.val 3 false a m.chunk = true →
      badUnits ecc false a m.chunk = [] →
      exec (.guIngressChunk die gate ecc) s = .next (
        let c := (aget (s.gate die.val gate.val).chunks i).getD 0
        let words := (wordsOf (s.readBytes die.val a m.chunk []) (m.chunk / 32)).map
          (fun w => (w, s.sendableFrom die.val))
        let g := s.gate die.val gate.val
        let n := words.length
        let h := { g with ingress := g.ingress ++ words, inWrite := g.inWrite + n, chunks := aput g.chunks i (c + 1) }
        (s.chunkErrors die.val gate.val false a m.chunk ecc).setGate die.val gate.val h)) ∧
  (∀ (s : State) (die : DieNo) (gate : Fin 256) (ecc : Ecc) (p : GateProg) (i : Nat) (m : GateMem) (a : Nat),
      s.gateProg die.val gate.val = some p →
      currentMem p (s.gate die.val gate.val) false = some (i, m) →
      s.inReset die.val = false →
      (s.gate die.val gate.val).ones = 0 →
      (s.gate die.val gate.val).ingress.length + m.chunk / 32 ≤ splitOf p false →
      s.chunkAt die.val (s.gate die.val gate.val) i m ((aget (s.gate die.val gate.val).chunks i).getD 0) = .at a →
      s.permitted die.val 3 false a m.chunk = false →
      exec (.guIngressChunk die gate ecc) s = .next ((s.refuseAccess die.val 3 gate.val 0 false a m.chunk).faultDesc
        die.val gate.val i m ((aget (s.gate die.val gate.val).chunks i).getD 0))) ∧
  (∀ (s : State) (die : DieNo) (gate : Fin 256) (ecc : Ecc) (p : GateProg) (i : Nat) (m : GateMem) (a : Nat),
      s.gateProg die.val gate.val = some p →
      currentMem p (s.gate die.val gate.val) true = some (i, m) →
      s.inReset die.val = false →
      m.chunk / 32 ≤ (s.gate die.val gate.val).egress.length →
      s.chunkAt die.val (s.gate die.val gate.val) i m ((aget (s.gate die.val gate.val).chunks i).getD 0) = .at a →
      s.permitted die.val 3 true a m.chunk = true →
      badUnits ecc true a m.chunk = [] →
      exec (.guEgressAck die gate ecc) s = .next (
        let g := s.gate die.val gate.val
        let n := m.chunk / 32
        let c := (aget g.chunks i).getD 0 + 1
        let done := { g with egress := g.egress.drop n, egRead := g.egRead + n, chunks := aput g.chunks i c }
        ((s.chunkErrors die.val gate.val true a m.chunk ecc).writeBytes die.val a (bytesOfWords (g.egress.take
          n))).setGate
          die.val gate.val done)) ∧
  (∀ (s : State) (die : DieNo) (gate : Fin 256) (step : Fin 16) (x : GateStep) (n : Nat) (p : GateProg),
      s.dueStep die.val gate.val step.val = some (x, n) →
      s.gateProg die.val gate.val = some p →
      s.inReset die.val = false →
      s.phaseIs die.val .inSection = true →
      requestsFreeze p (s.gate die.val gate.val) x n = true →
      s.is (ARRAY.FROZEN.on die.val) = false →
      exec (.globalFreeze die gate step) s = .next (
        let u := s.onDie die.val (fun y =>
          { y with freezers := (y.freezers.filter (fun e => e != (gate.val, x.take))) ++ [(gate.val, x.take)] })
        (u.set (ARRAY.FROZEN.on die.val) 1).set (STRCI.FROZEN_AT.on die.val) n)) ∧
  (∀ (s : State) (die : DieNo) (cycles : BitVec 32) (held : List (Nat × Nat)),
      s.inReset die.val = false →
      s.is (ARRAY.FROZEN.on die.val) = true →
      s.is (STRCI.AT_LIMIT.on die.val) = false →
      (s.die die.val).freezers.any (fun e => s.stillRequests die.val e.1 (s.get (STRCI.FROZEN_AT.on die.val))) =
        false →
      exec (.freezeEnd die cycles held) s = .next (((s.countFreeze die.val cycles.toNat held).onDie die.val (fun x
        => { x with freezers := [] })).set (ARRAY.FROZEN.on die.val) 0)) ∧
  (∀ (s : State) (die : DieNo) (cycles : BitVec 32) (held : List (Nat × Nat)),
      s.is (STRCI.AT_LIMIT.on die.val) = true ∨ (s.die die.val).freezers.any (fun e => s.stillRequests die.val e.1
        (s.get (STRCI.FROZEN_AT.on die.val))) = true →
      exec (.freezeEnd die cycles held) s = .next s) ∧
  (∀ (s : State) (die : DieNo) (gate : Fin 256) (cycles : BitVec 32) (held : List (Nat × Nat)),
      s.inReset die.val = false →
      s.is (ARRAY.FROZEN.on die.val) = true →
      s.is (STRCI.AT_LIMIT.on die.val) = false →
      s.stillRequests die.val gate.val (s.get (STRCI.FROZEN_AT.on die.val)) = true →
      s.get (ARRAY.FREEZE_LIMIT.on die.val) * s.get (DCLK.TILE_MHZ.on die.val) < cycles.toNat →
      exec (.freezeLimit die gate cycles held) s = .next (
        let u := s.countFreeze die.val cycles.toNat held
        let v := (u.set (STRCI.AT_LIMIT.on die.val) 1).set (STRCI.COUNTED_AT.on die.val) s.clock
        let w := (v.set (GATE.LIMIT_GU.on die.val) gate.val).pageEvent die.val ARRAY.page 10
        (w.dieEvent die.val ARRAY.page 0x1412 gate.val).contextFault die.val 1)) ∧
  (∀ (s : State) (die : DieNo) (gate : Fin 256) (cycles : BitVec 32) (held : List (Nat × Nat)),
      s.is (ARRAY.FROZEN.on die.val) = false ∨ s.is (STRCI.AT_LIMIT.on die.val) = true ∨ s.stillRequests die.val
        gate.val (s.get (STRCI.FROZEN_AT.on die.val)) = false ∨ cycles.toNat ≤ s.get (ARRAY.FREEZE_LIMIT.on die.val)
        * s.get (DCLK.TILE_MHZ.on die.val) →
      exec (.freezeLimit die gate cycles held) s = .next s)

/-- EN of a DISABLED link takes it to DETECT, or to FENCED while its die is fencing. EN cleared takes it to DISABLED.
RETRAIN takes an enabled link to DETECT, an UP one by way of LOST, and is refused with ACCESS_ERR in FENCED and in
ISOLATED before ISOLATE_HOLD. Signal, equalisation and 64 clean codewords take it to EQUALISE, FEC_ALIGN and IDENT with
what the lanes settled on shown and the HLID fields latched. An IDENT that passes is remembered; with the partner's
IDENT_OK the link goes to DELAY. One that fails is refused with its code, as is a link whose partner sends REFUSE (code
8). A probe is answered with its stamp and turnaround; a reply stores its round trip less the turnaround; 64 of them end
DELAY with D. A lock on the parent link, within 2 tile cycles over 16 markers, makes the die LOCKED, and a link goes UP
once both ends are; beat numbers that differ by more than one over 16 markers refuse another link (code 9). A bound
exceeded counts a retry, and at TRAIN_LIMIT the link is FAILED with 0x1707; 10 ms later another goes to DETECT. (R303,
R308, R309, R310, R311, R312, R316, R321, R324, R326, R328, R330, R333) -/
def Obligations.LinksTrainFromEnableToUp : Prop :=
  (∀ (s : State) (req : Requester) (die : DieNo) (link : LinkNo),
      s.Reaches die.val HL.page HL.EN link.val req →
      (s.set (HL.EN.at die.val link.val) 1).linkIs die.val link.val .disabled = true →
      (s.set (HL.EN.at die.val link.val) 1).is (LINEI.FENCING.on die.val) = false →
      exec (.linkEnable req die link) s = .next ((s.set (HL.EN.at die.val link.val) 1).toDetect die.val link.val)) ∧
  (∀ (s : State) (req : Requester) (die : DieNo) (link : LinkNo),
      s.Reaches die.val HL.page HL.EN link.val req →
      (s.set (HL.EN.at die.val link.val) 1).linkIs die.val link.val .disabled = true →
      (s.set (HL.EN.at die.val link.val) 1).is (LINEI.FENCING.on die.val) = true →
      exec (.linkEnable req die link) s = .next ((s.set (HL.EN.at die.val link.val) 1).toLink die.val link.val
        .fenced)) ∧
  (∀ (s : State) (req : Requester) (die : DieNo) (link : LinkNo),
      s.Reaches die.val HL.page HL.EN link.val req →
      exec (.linkDisable req die link) s = .next ((s.set (HL.EN.at die.val link.val) 0).toLink die.val link.val
        .disabled)) ∧
  (∀ (s : State) (req : Requester) (die : DieNo) (link : LinkNo),
      s.Reaches die.val HL.page HL.RETRAIN link.val req →
      s.linkIs die.val link.val .fenced = false →
      s.linkIs die.val link.val .isolated = false →
      s.is (HL.EN.at die.val link.val) = true →
      exec (.retrain req die link) s = .next ((s.loseLink die.val link.val 6).toDetect die.val link.val)) ∧
  (∀ (s : State) (req : Requester) (die : DieNo) (link : LinkNo),
      s.Reaches die.val HL.page HL.RETRAIN link.val req →
      s.linkIs die.val link.val .fenced = true →
      exec (.retrain req die link) s = .next (s.regFault die.val HL.page HL.RETRAIN link.val .accessErr req.val 2)) ∧
  (∀ (s : State) (die : DieNo) (link : LinkNo),
      s.trains die.val link.val .detect = true →
      exec (.signalDetect die link) s = .next (s.toLink die.val link.val .equalise)) ∧
  (∀ (s : State) (die : DieNo) (link : LinkNo) (swapped : Bool) (partnerPrecodes : Bool) (snr0 : BitVec 8) (snr1 :
  BitVec 8),
      s.trains die.val link.val .equalise = true →
      exec (.equaliseDone die link swapped partnerPrecodes snr0 snr1) s = .next (
        let u := (s.put (HL.LANE_SWAP.at die.val link.val) swapped).put (HL.PRECODE_ON.at die.val link.val)
          (s.is (HL.PRECODE_ALLOW.at die.val link.val) && partnerPrecodes)
        ((u.set (HL.SNR_0.at die.val link.val) snr0.toNat).set (HL.SNR_1.at die.val link.val) snr1.toNat).toLink
          die.val
          link.val .fecAlign)) ∧
  (∀ (s : State) (die : DieNo) (link : LinkNo),
      s.trains die.val link.val .fecAlign = true →
      64 ≤ (s.linkLog die.val link.val).rx.clean →
      exec (.fecAlignDone die link) s = .next (
        let tag := s.pair (HLID.INST_TAG_LO.on die.val) (HLID.INST_TAG_HI.on die.val)
        let tray := s.pair (HLID.TRAY_ID_LO.on die.val) (HLID.TRAY_ID_HI.on die.val)
        let set := s.is (HLID.TAG_SET.on die.val)
        (s.onLink die.val link.val (fun k =>
          { k with tag := tag, tray := tray, tagSet := set, idOk := false, peerOk := false })).toLink die.val
            link.val .ident)) ∧
  (∀ (s : State) (die : DieNo) (link : LinkNo),
      (s.linkLog die.val link.val).rx.clean < 64 →
      exec (.fecAlignDone die link) s = .next s) ∧
  (∀ (s : State) (die : DieNo) (link : LinkNo) (ident : Ident),
      s.inReset die.val = false →
      s.linkIs die.val link.val .up = false →
      s.trains die.val link.val .ident = true →
      exec (.ident die link ident) s = .next (
        let u := s.setPair (HL.PEER_TRAY_LO.at die.val link.val) (HL.PEER_TRAY_HI.at die.val link.val)
          ident.tray.toNat
        let v := (u.set (HL.PEER_DIE.at die.val link.val) ident.die.toNat).set (HL.PEER_LINK.at die.val link.val)
          ident.link.toNat
        let w := v.set (HL.PEER_REACH.at die.val link.val) ident.reach.toNat
        match w.identCheck die.val link.val ident with
        | some c => w.refuseLink die.val link.val c
        | none => (w.onLink die.val link.val (fun k => { k with idOk := true })).identified die.val link.val)) ∧
  (∀ (s : State) (die : DieNo) (link : LinkNo) (ident : Ident),
      s.inReset die.val = false →
      s.linkIs die.val link.val .up = true →
      exec (.ident die link ident) s = .next (s.protocolViolation die.val link.val)) ∧
  (∀ (s : State) (die : DieNo) (link : LinkNo),
      s.trains die.val link.val .ident = true →
      exec (.identOk die link) s = .next (
        (s.onLink die.val link.val (fun k => { k with peerOk := true })).identified die.val link.val)) ∧
  (∀ (s : State) (die : DieNo) (link : LinkNo) (code : BitVec 8),
      s.trains die.val link.val .ident = true ∨ s.trains die.val link.val .delay = true ∨ s.trains die.val link.val
        .beatLock = true ∨ (s.inReset die.val = false ∧ s.linkIs die.val link.val .up = true) →
      exec (.refuse die link code) s = .next (s.refuseLink die.val link.val 8)) ∧
  (∀ (s : State) (die : DieNo) (link : LinkNo) (stamp : BitVec 64) (turnaround : BitVec 32),
      s.trains die.val link.val .ident = true ∨ s.trains die.val link.val .delay = true ∨ s.trains die.val link.val
        .beatLock = true ∨ (s.inReset die.val = false ∧ s.linkIs die.val link.val .up = true) →
      exec (.delayReq die link stamp turnaround) s = .next (s.onLink die.val link.val (fun k => { k with tx := {
        k.tx with replies := k.tx.replies ++ [(stamp.toNat, turnaround.toNat)] } }))) ∧
  (∀ (s : State) (die : DieNo) (link : LinkNo) (stamp : BitVec 64) (turnaround : BitVec 32),
      s.trains die.val link.val .ident = false →
      s.trains die.val link.val .delay = false →
      s.trains die.val link.val .beatLock = false →
      s.linkIs die.val link.val .up = false →
      exec (.delayReq die link stamp turnaround) s = .next s) ∧
  (∀ (s : State) (die : DieNo) (link : LinkNo) (stamp : BitVec 64) (turnaround : BitVec 32) (time : BitVec 64),
      s.trains die.val link.val .delay = true →
      (s.linkLog die.val link.val).probes.length < 64 →
      exec (.delayRsp die link stamp turnaround time) s = .next (s.onLink die.val link.val (fun k => { k with probes
        := k.probes ++ [(time - stamp).toNat - turnaround.toNat] }))) ∧
  (∀ (s : State) (die : DieNo) (link : LinkNo) (stamp : BitVec 64) (turnaround : BitVec 32) (time : BitVec 64),
      s.trains die.val link.val .delay = false →
      exec (.delayRsp die link stamp turnaround time) s = .next s) ∧
  (∀ (s : State) (die : DieNo) (link : LinkNo),
      (s.linkLog die.val link.val).probes.length < 64 →
      exec (.delayDone die link) s = .next (s)) ∧
  (∀ (s : State) (die : DieNo) (link : LinkNo) (p : List Nat),
      s.trains die.val link.val .delay = true →
      p = sortNat (s.linkLog die.val link.val).probes →
      64 ≤ p.length →
      exec (.delayDone die link) s = .next (
        let u := (s.useFree.set (HL.DELAY.at die.val link.val) (s.roundFree (p.getD 31 0 + p.getD 32 0) 4)).toLink
          die.val
          link.val .beatLock
        if u.isParent die.val link.val ∧ u.get (BEAT.LOCK.on die.val) ≠ 2 then u.set (BEAT.LOCK.on die.val) 1 else u)) ∧
  (∀ (s : State) (die : DieNo) (link : LinkNo),
      s.trains die.val link.val .beatLock = true →
      s.isParent die.val link.val = true →
      s.get (BEAT.DEPTH.on die.val) ≤ 16 →
      s.withinTwo die.val link.val = true →
      (s.linkLog die.val link.val).peerLocked = true →
      exec (.beatLockDone die link) s = .next ((((s.set (BEAT.LOCK.on die.val) 2).set (HASPI.RELOCK.on die.val)
        0).linkUp die.val link.val).agree die.val)) ∧
  (∀ (s : State) (die : DieNo) (link : LinkNo),
      s.trains die.val link.val .beatLock = true →
      s.isParent die.val link.val = true →
      s.get (BEAT.DEPTH.on die.val) ≤ 16 →
      s.withinTwo die.val link.val = true →
      (s.linkLog die.val link.val).peerLocked = false →
      exec (.beatLockDone die link) s = .next ((s.set (BEAT.LOCK.on die.val) 2).set (HASPI.RELOCK.on die.val) 0)) ∧
  (∀ (s : State) (die : DieNo) (link : LinkNo),
      s.isParent die.val link.val = true →
      16 < s.get (BEAT.DEPTH.on die.val) ∨ s.withinTwo die.val link.val = false →
      exec (.beatLockDone die link) s = .next s) ∧
  (∀ (s : State) (die : DieNo) (link : LinkNo),
      s.trains die.val link.val .beatLock = true →
      s.isParent die.val link.val = false →
      s.get (BEAT.LOCK.on die.val) = 2 →
      (s.linkLog die.val link.val).peerLocked = true →
      16 ≤ (s.linkLog die.val link.val).diffs.length →
      (s.linkLog die.val link.val).diffs.any (fun n => decide (1 < n)) = false →
      exec (.beatLockDone die link) s = .next (s.linkUp die.val link.val)) ∧
  (∀ (s : State) (die : DieNo) (link : LinkNo),
      s.trains die.val link.val .beatLock = true →
      s.isParent die.val link.val = false →
      s.get (BEAT.LOCK.on die.val) = 2 →
      (s.linkLog die.val link.val).peerLocked = true →
      16 ≤ (s.linkLog die.val link.val).diffs.length →
      (s.linkLog die.val link.val).diffs.any (fun n => decide (1 < n)) = true →
      exec (.beatLockDone die link) s = .next (s.refuseLink die.val link.val 9)) ∧
  (∀ (s : State) (die : DieNo) (link : LinkNo),
      s.isParent die.val link.val = false →
      s.get (BEAT.LOCK.on die.val) ≠ 2 ∨ (s.linkLog die.val link.val).peerLocked = false ∨ (s.linkLog die.val
        link.val).diffs.length < 16 →
      exec (.beatLockDone die link) s = .next s) ∧
  (∀ (s : State) (die : DieNo) (link : LinkNo) (b : Nat × Nat),
      s.bound die.val link.val = some b →
      b.2 + b.1 ≤ s.clock →
      (s.count (HL.RETRIES.at die.val link.val)).get (HL.RETRIES.at die.val link.val) < (s.count (HL.RETRIES.at
        die.val link.val)).get (HL.TRAIN_LIMIT.at die.val link.val) →
      exec (.trainTimeout die link) s = .next ( (s.count (HL.RETRIES.at die.val link.val)).onLink die.val link.val
        (fun k => { k with retryWait := true, entered := s.clock }))) ∧
  (∀ (s : State) (die : DieNo) (link : LinkNo) (b : Nat × Nat),
      s.bound die.val link.val = some b →
      b.2 + b.1 ≤ s.clock →
      (s.count (HL.RETRIES.at die.val link.val)).get (HL.TRAIN_LIMIT.at die.val link.val) ≤ (s.count (HL.RETRIES.at
        die.val link.val)).get (HL.RETRIES.at die.val link.val) →
      exec (.trainTimeout die link) s = .next (((s.count (HL.RETRIES.at die.val link.val)).dieEvent die.val HL.page
        0x1707 0 0 0 link.val).toLink die.val link.val .failed)) ∧
  (∀ (s : State) (die : DieNo) (link : LinkNo) (b : Nat × Nat),
      s.bound die.val link.val = none ∨ (s.bound die.val link.val = some b ∧ s.clock < b.2 + b.1) →
      exec (.trainTimeout die link) s = .next s) ∧
  (∀ (s : State) (die : DieNo) (link : LinkNo),
      s.inReset die.val = false →
      (s.linkLog die.val link.val).retryWait = true →
      (s.linkLog die.val link.val).entered + 10000 ≤ s.clock →
      exec (.trainRetry die link) s = .next (s.toDetect die.val link.val)) ∧
  (∀ (s : State) (die : DieNo) (link : LinkNo),
      (s.linkLog die.val link.val).retryWait = false ∨ s.clock < (s.linkLog die.val link.val).entered + 10000 →
      exec (.trainRetry die link) s = .next s)

/-- BEAT_INFO on an UP link keeps the partner's depth and whether this die is its parent, and the die's own depth
follows its parent's. A good codeword is counted (as corrected with its symbols where any were), and its CCB and words
act. One whose CRC fails, or that is uncorrectable, is counted and discarded whole, its slots lost, and above UE_LIMIT
in a millisecond the UP link is isolated. A beat marker is remembered, and on the parent link its arrival less D and
MARKER_PHASE is the die's error; a jump on an UP link is a protocol violation. The boundary of a beat adds one to the
beat, or steps onto the parent's boundary, or slips by a tile cycle at most every 16 beats while the error exceeds half
a tile cycle; it ends the NAK records that are 16 beats old and the aborted transfers, and makes the root LOCKED at
depth 0. READY from a timing child is kept and RELEASE from the parent is taken; from another link each is a protocol
violation. A release that does not come records 0x170A and takes the context to FAULTED with cause 4. (R304, R307, R313,
R314, R315, R317, R318, R320, R325, R335, R353, R374) -/
def Obligations.BeatsAndReleasesAreAgreed : Prop :=
  (∀ (s : State) (die : DieNo) (link : LinkNo) (depth : BitVec 8) (parent : Bool),
      s.inReset die.val = false →
      s.linkIs die.val link.val .up = true ∨ s.linkIs die.val link.val .beatLock = true →
      exec (.beatInfo die link depth parent) s = .next (
        let u := (s.onLink die.val link.val (fun k => { k with peerDepth := depth.toNat })).setChild die.val link.val
          parent
        (if u.isParent die.val link.val ∧ u.get (BEAT.DEPTH.on die.val) ≠ min (depth.toNat + 1) 31 then
          u.takeDepth die.val depth.toNat else u).agree die.val)) ∧
  (∀ (s : State) (die : DieNo) (link : LinkNo) (word : Codeword) (h : Nat),
      s.receives die.val link.val = true →
      decodeCodeword (s.rx die.val link.val).descrambler (s.symbolsOf die.val link.val word) = (.badCrc, h) →
      exec (.codewordReceive die link word) s = .next (
        let t := s.onRx die.val link.val (fun x => { x with descrambler := h })
        let u := t.onLink die.val link.val (fun k =>
          { k with lostCw := k.lostCw + 1, rx := { k.rx with bad := 0, clean := k.rx.clean + 1 } })
        (u.count (HL.CRC_ERR.at die.val link.val)).hearWords die.val link.val none)) ∧
  (∀ (s : State) (die : DieNo) (link : LinkNo) (word : Codeword) (h : Nat) (corrected : Nat) (ccb : Ccb) (words : List (Nat × Nat)),
      s.receives die.val link.val = true →
      decodeCodeword (s.rx die.val link.val).descrambler (s.symbolsOf die.val link.val word) = (.good corrected ccb words, h) →
      exec (.codewordReceive die link word) s = .next (
        let t := s.onRx die.val link.val (fun x => { x with descrambler := h })
        let u := t.onRx die.val link.val (fun x => { x with bad := 0, clean := x.clean + 1 })
        let v := if corrected = 0 then u.count (HL.CW_GOOD.at die.val link.val)
          else ((u.count (HL.CW_CORR.at die.val link.val)).count (HL.SYM_CORR.at die.val link.val)
            corrected).correctedSymbols die.val link.val corrected
        v.hearCcb die.val link.val word ccb words)) ∧
  (∀ (s : State) (die : DieNo) (link : LinkNo) (word : Codeword) (h : Nat),
      s.receives die.val link.val = true →
      decodeCodeword (s.rx die.val link.val).descrambler (s.symbolsOf die.val link.val word) = (.uncorrectable, h) →
      exec (.codewordReceive die link word) s = .next (
        let t := s.onRx die.val link.val (fun x => { x with descrambler := h })
        let u := t.count (HL.CW_UE.at die.val link.val)
        let ue := u.clock :: (u.linkLog die.val link.val).ue.filter (fun t => u.clock < t + 1000)
        let v := u.onLink die.val link.val (fun k => { k with
          ue := ue
          lostCw := k.lostCw + 1
          rx := { k.rx with bad := k.rx.bad + 1, clean := 0 } })
        if v.linkIs die.val link.val .up ∧ v.get (HL.UE_LIMIT.at die.val link.val) < ue.length then
          v.isolateLink die.val link.val 1
        else v.hearWords die.val link.val none)) ∧
  (∀ (s : State) (die : DieNo) (link : LinkNo) (word : Codeword),
      s.receives die.val link.val = false →
      exec (.codewordReceive die link word) s = .next s) ∧
  (∀ (s : State) (die : DieNo) (link : LinkNo) (beat : BitVec 56) (phase : BitVec 8) (stepped locked : Bool) (arrival : BitVec 64),
      s.inReset die.val = false →
      s.linkIs die.val link.val .up = true ∨ s.linkIs die.val link.val .beatLock = true →
      (s.linkLog die.val link.val).marked = none ∨ stepped = true →
      exec (.beatMarker die link beat phase stepped locked arrival) s = .next (
        let k := s.linkLog die.val link.val
        let both := locked && s.get (BEAT.LOCK.on die.val) == 2
        let diffs := if both ∧ s.linkIs die.val link.val .beatLock then
          (s.beatGap die.val beat.toNat :: k.diffs).take 16 else []
        let since := if both then some (k.lockedAt.getD s.clock) else none
        let u := s.onLink die.val link.val (fun k => { k with
          marked := some beat.toNat
          missed := 0
          lostCw := 0
          peerLocked := locked
          lockedAt := since
          diffs := diffs })
        if u.isParent die.val link.val then
          u.parentError die.val link.val (arrival.toInt - u.get (HL.DELAY.at die.val link.val) - phase.toNat)
        else u)) ∧
  (∀ (s : State) (die : DieNo) (link : LinkNo) (beat : BitVec 56) (phase : BitVec 8) (stepped locked : Bool)
      (arrival : BitVec 64) (b : Nat),
      s.inReset die.val = false →
      s.linkIs die.val link.val .up = true →
      (s.linkLog die.val link.val).marked = some b →
      beat.toNat ≤ b ∨ b + 1 + (s.linkLog die.val link.val).lostCw < beat.toNat →
      stepped = false →
      exec (.beatMarker die link beat phase stepped locked arrival) s = .next (s.protocolViolation die.val link.val)) ∧
  (∀ (s : State) (die : DieNo),
      s.inReset die.val = false →
      s.isRoot die.val = true →
      exec (.beatBoundary die) s = .next (
        let d := die.val
        let n := (s.beat d + 1) % 72057594037927936
        let v := (s.setPair (BEAT.BEAT_LO.on d) (BEAT.BEAT_HI.on d) n).set (HASPI.SLIP_WAIT.on d) (s.get
          (HASPI.SLIP_WAIT.on d) - 1)
        let u := v.onDie d (fun x => { x with slinks := x.slinks.map (fun e =>
          (e.1, { e.2 with recs := e.2.recs.filter (fun r => decide (v.beat d ≤ r.beat + 16)) })) })
        let w := (u.abortCleared d).beatOnLinks d
        if w.isRoot d then ((w.set (BEAT.LOCK.on d) 2).set (BEAT.DEPTH.on d) 0).agree d else w.agree d)) ∧
  (∀ (s : State) (die : DieNo) (e : Int),
      s.inReset die.val = false →
      (s.linkLog die.val (s.parentLink die.val)).latest = some e →
      s.stepping die.val = true →
      errOver (s.linkLog die.val (s.parentLink die.val)).errs 4 = true →
      exec (.beatBoundary die) s = .next (
        let d := die.val
        let v := s.step d (s.parentLink d) e
        let u := v.onDie d (fun x => { x with slinks := x.slinks.map (fun e =>
          (e.1, { e.2 with recs := e.2.recs.filter (fun r => decide (v.beat d ≤ r.beat + 16)) })) })
        let w := (u.abortCleared d).beatOnLinks d
        if w.isRoot d then ((w.set (BEAT.LOCK.on d) 2).set (BEAT.DEPTH.on d) 0).agree d else w.agree d)) ∧
  (∀ (s : State) (die : DieNo) (e : Int),
      s.inReset die.val = false →
      s.isRoot die.val = false →
      (s.linkLog die.val (s.parentLink die.val)).latest = some e →
      s.stepping die.val = false →
      s.get (BEAT.LOCK.on die.val) = 1 ∨ s.get (BEAT.LOCK.on die.val) = 2 →
      errOver (s.linkLog die.val (s.parentLink die.val)).errs 4 = true →
      s.get (HASPI.SLIP_WAIT.on die.val) = 0 →
      exec (.beatBoundary die) s = .next (
        let d := die.val
        let n := (s.beat d + 1) % 72057594037927936
        let longer := decide (0 < errSum (s.linkLog d (s.parentLink d)).errs)
        let t := (s.setPair (BEAT.BEAT_LO.on d) (BEAT.BEAT_HI.on d) n).onLink d (s.parentLink d) (fun k =>
          { k with latest := k.latest.map (fun e => if longer then e - 8 else e + 8) })
        let v := (t.count (if longer then BEAT.SLIPS_LONG.on d else BEAT.SLIPS_SHORT.on d)).set
          (HASPI.SLIP_WAIT.on d) 15
        let u := v.onDie d (fun x => { x with slinks := x.slinks.map (fun e =>
          (e.1, { e.2 with recs := e.2.recs.filter (fun r => decide (v.beat d ≤ r.beat + 16)) })) })
        let w := (u.abortCleared d).beatOnLinks d
        if w.isRoot d then ((w.set (BEAT.LOCK.on d) 2).set (BEAT.DEPTH.on d) 0).agree d else w.agree d)) ∧
  (∀ (s : State) (die : DieNo),
      s.inReset die.val = false →
      errOver (s.linkLog die.val (s.parentLink die.val)).errs 4 = false →
      exec (.beatBoundary die) s = .next (
        let d := die.val
        let n := (s.beat d + 1) % 72057594037927936
        let v := (s.setPair (BEAT.BEAT_LO.on d) (BEAT.BEAT_HI.on d) n).set (HASPI.SLIP_WAIT.on d) (s.get
          (HASPI.SLIP_WAIT.on d) - 1)
        let u := v.onDie d (fun x => { x with slinks := x.slinks.map (fun e =>
          (e.1, { e.2 with recs := e.2.recs.filter (fun r => decide (v.beat d ≤ r.beat + 16)) })) })
        let w := (u.abortCleared d).beatOnLinks d
        if w.isRoot d then ((w.set (BEAT.LOCK.on d) 2).set (BEAT.DEPTH.on d) 0).agree d else w.agree d)) ∧
  (∀ (s : State) (die : DieNo) (link : LinkNo) (k : BitVec 32),
      s.inReset die.val = false →
      s.linkIs die.val link.val .up = true →
      (s.linkLog die.val link.val).child = true →
      exec (.ready die link k) s = .next (
        (s.onLink die.val link.val (fun x => { x with childReady := some k.toNat })).agree die.val)) ∧
  (∀ (s : State) (die : DieNo) (link : LinkNo) (k : BitVec 32),
      s.inReset die.val = false →
      s.linkIs die.val link.val .up = true →
      (s.linkLog die.val link.val).child = false →
      exec (.ready die link k) s = .next (s.protocolViolation die.val link.val)) ∧
  (∀ (s : State) (die : DieNo) (link : LinkNo) (k : BitVec 32) (beat : BitVec 56),
      s.inReset die.val = false →
      s.linkIs die.val link.val .up = true →
      s.isParent die.val link.val = true →
      exec (.release die link k beat) s = .next (s.takeRelease die.val k.toNat beat.toNat)) ∧
  (∀ (s : State) (die : DieNo) (link : LinkNo) (k : BitVec 32) (beat : BitVec 56),
      s.inReset die.val = false →
      s.linkIs die.val link.val .up = true →
      s.isParent die.val link.val = false →
      exec (.release die link k beat) s = .next (s.protocolViolation die.val link.val)) ∧
  (∀ (s : State) (die : DieNo),
      s.inReset die.val = false →
      s.phaseIs die.val .releaseWait = true →
      s.is (HASPI.RELEASED.on die.val) = false →
      exec (.releaseTimeout die) s = .next ((s.dieEvent die.val BEAT.page 0x170A).contextFault die.val 4))

/-- Each of the five ways of losing a link takes an UP one to LOST with its cause in CAUSE and in event 0x1702, counts
LOSSES, and leaves a link that is not UP as it was; the eighth uncorrectable codeword in a row and the fourth beat
without a marker count, and no fewer. Where a cause that comes first has taken the link from UP in the same cycle, a
loss records its event and no more. With AUTO_RETRAIN a LOST link returns to DETECT after 10 ms. FENCED heard from
FEC_ALIGN to UP takes the link to PEER_FENCED with 0x1708, and its end takes it to DETECT. A fragment of a fault record
that reaches die 0 on an on-tray link is kept under its source and sequence; anywhere else it is a protocol violation.
The fourth fragment writes the record into the fault ring. A record whose fragments stop coming is dropped, and FQ_LOST
counts it. (R321, R322, R324, R325, R329, R330, R404, R405) -/
def Obligations.LinksAreLostAndForwardFaults : Prop :=
  (∀ (s : State) (die : DieNo) (link : LinkNo),
      s.inReset die.val = false →
      s.linkIs die.val link.val .up = true →
      exec (.los die link) s = .next ( (((s.dieEvent die.val HL.page 0x1702 1 0 0 link.val).set (HL.CAUSE.at die.val
        link.val) 1).count (HL.LOSSES.at die.val link.val)).toLink die.val link.val .lost)) ∧
  (∀ (s : State) (die : DieNo) (link : LinkNo),
      s.inReset die.val = false →
      s.linkIs die.val link.val .up = true →
      8 ≤ (s.linkLog die.val link.val).rx.bad →
      exec (.fecUnlock die link) s = .next ( (((s.dieEvent die.val HL.page 0x1702 2 0 0 link.val).set (HL.CAUSE.at
        die.val link.val) 2).count (HL.LOSSES.at die.val link.val)).toLink die.val link.val .lost)) ∧
  (∀ (s : State) (die : DieNo) (link : LinkNo),
      s.inReset die.val = false →
      s.linkIs die.val link.val .up = true →
      4 ≤ (s.linkLog die.val link.val).missed →
      exec (.markerMiss die link) s = .next ( (((s.dieEvent die.val HL.page 0x1702 3 0 0 link.val).set (HL.CAUSE.at
        die.val link.val) 3).count (HL.LOSSES.at die.val link.val)).toLink die.val link.val .lost)) ∧
  (∀ (s : State) (die : DieNo) (link : LinkNo),
      s.inReset die.val = false →
      s.linkIs die.val link.val .up = true →
      exec (.peerDown die link) s = .next ( (((s.dieEvent die.val HL.page 0x1702 4 0 0 link.val).set (HL.CAUSE.at
        die.val link.val) 4).count (HL.LOSSES.at die.val link.val)).toLink die.val link.val .lost)) ∧
  (∀ (s : State) (die : DieNo) (link : LinkNo),
      s.inReset die.val = false →
      s.linkIs die.val link.val .up = true →
      exec (.peerIsolated die link) s = .next ( (((s.dieEvent die.val HL.page 0x1702 5 0 0 link.val).set
        (HL.CAUSE.at die.val link.val) 5).count (HL.LOSSES.at die.val link.val)).toLink die.val link.val .lost)) ∧
  (∀ (s : State) (die : DieNo) (link : LinkNo),
      s.linkIs die.val link.val .up = false →
      (s.linkLog die.val link.val).leftAt ≠ some s.clock →
      exec (.los die link) s = .next s ∧ exec (.fecUnlock die link) s = .next s ∧ exec (.markerMiss die link) s =
        .next s ∧ exec (.peerDown die link) s = .next s ∧ exec (.peerIsolated die link) s = .next s) ∧
  (∀ (s : State) (die : DieNo) (link : LinkNo),
      (s.linkLog die.val link.val).rx.bad < 8 →
      exec (.fecUnlock die link) s = .next s) ∧
  (∀ (s : State) (die : DieNo) (link : LinkNo),
      (s.linkLog die.val link.val).missed < 4 →
      exec (.markerMiss die link) s = .next s) ∧
  (∀ (s : State) (die : DieNo) (link : LinkNo),
      s.inReset die.val = false →
      s.leaving die.val link.val .lost = some false →
      exec (.los die link) s = .next (s.dieEvent die.val HL.page 0x1702 1 0 0 link.val)) ∧
  (∀ (s : State) (die : DieNo) (link : LinkNo),
      s.inReset die.val = false →
      s.linkIs die.val link.val .lost = true →
      s.is (HL.AUTO_RETRAIN.at die.val link.val) = true →
      (s.linkLog die.val link.val).entered + 10000 ≤ s.clock →
      exec (.autoRetrain die link) s = .next (s.toDetect die.val link.val)) ∧
  (∀ (s : State) (die : DieNo) (link : LinkNo),
      s.linkIs die.val link.val .lost = false ∨ s.is (HL.AUTO_RETRAIN.at die.val link.val) = false ∨ s.clock <
        (s.linkLog die.val link.val).entered + 10000 →
      exec (.autoRetrain die link) s = .next s) ∧
  (∀ (s : State) (die : DieNo) (link : LinkNo),
      s.inReset die.val = false →
      3 ≤ s.get (HL.STATE.at die.val link.val) →
      s.get (HL.STATE.at die.val link.val) ≤ 7 →
      exec (.peerFenced die link) s = .next ((s.dieEvent die.val HL.page 0x1708 0 0 0 link.val).toLink die.val
        link.val .peerFenced)) ∧
  (∀ (s : State) (die : DieNo) (link : LinkNo),
      s.inReset die.val = false →
      s.linkIs die.val link.val .peerFenced = true →
      exec (.peerFencedEnd die link) s = .next (s.toDetect die.val link.val)) ∧
  (∀ (s : State) (die : DieNo) (link : LinkNo) (fragment : Fin 4) (seq : BitVec 6) (words : List (BitVec 32)),
      s.inReset die.val = false →
      s.linkIs die.val link.val .up = true →
      die.val ≠ 0 ∨ onTray link.val = false →
      exec (.faultFwd die link fragment seq words) s = .next (s.protocolViolation die.val link.val)) ∧
  (∀ (s : State) (link : LinkNo) (fragment : Fin 4) (seq : BitVec 6) (words : List (BitVec 32)),
      s.inReset 0 = false →
      s.linkIs 0 link.val .up = true →
      onTray link.val = true →
      (s.die 0).frags.filter (fun f => f.src == linkPeer 0 link.val && f.seq == seq.toNat) = [] →
      exec (.faultFwd 0 link fragment seq words) s = .next (
        let parts := [(fragment.val, (List.range 4).map (fun i => (words.map BitVec.toNat).getD i 0))]
        s.onDie 0 (fun x => { x with
          frags := x.frags.filter (fun f => !(f.src == linkPeer 0 link.val && f.seq == seq.toNat)) ++
            [⟨linkPeer 0 link.val, seq.toNat, parts⟩] }))) ∧
  (∀ (s : State) (link : LinkNo) (fragment : Fin 4) (seq : BitVec 6) (words : List (BitVec 32)) (f : Frag) (l : List Frag),
      s.inReset 0 = false →
      s.linkIs 0 link.val .up = true →
      onTray link.val = true →
      (s.die 0).frags.filter (fun g => g.src == linkPeer 0 link.val && g.seq == seq.toNat) = f :: l →
      4 ≤ (aput f.parts fragment.val ((List.range 4).map (fun i => (words.map BitVec.toNat).getD i 0))).length →
      exec (.faultFwd 0 link fragment seq words) s = .next (
        let parts := aput f.parts fragment.val ((List.range 4).map (fun i => (words.map BitVec.toNat).getD i 0))
        (s.onDie 0 (fun x => { x with
          frags := x.frags.filter (fun f => !(f.src == linkPeer 0 link.val && f.seq == seq.toNat)) })).ringFault
          (fun s => (parts.flatMap Prod.snd, s)))) ∧
  (∀ (s : State) (src : DieNo) (seq : BitVec 6),
      s.inReset 0 = false →
      (s.die 0).frags.any (fun f => f.src == src.val && f.seq == seq.toNat) = true →
      exec (.faultFwdTimeout src seq) s = .next (
        let u := s.onDie 0 (fun x => { x with
          frags := x.frags.filter (fun f => !(f.src == src.val && f.seq == seq.toNat)) })
        (u.count (FAULT.FQ_LOST.on 0)).count (MEMI.FQ_SINCE.on 0)))

/-- WRITE of a staged descriptor that is refused shows its reason, faults the write and changes no descriptor; one that
is taken replaces the descriptor with its engine state cleared, ends its transfers, and starts what it can; one that
clears EN with transfers open ends them at the next beat. READ stages the sixteen words of descriptor DSEL. POST of an
enabled sending stream that is not SYNC asks for one transfer; of one not enabled or receiving it is discarded with
ACCESS_ERR. A slot goes out after its idle words, word by word into codewords, with its header, and slot 0 with a
marker. With a new chunk and a credit it carries the chunk, takes one credit, and moves the next chunk on; without a
credit it is idle and counts a wait. A chunk on its own stream and in order is taken; in a slot not assigned to it, it
is a slot violation and its credit returns. An acknowledged write returns a credit. Returned credits are added, and more
than 64 is a credit violation, also through a NAK. A NAK that names no record is counted as ignored; one that names a
chunk below the resend point returns its credit and sends again from it. (R306, R314, R338, R340, R347, R349, R350,
R351, R352, R353, R354, R360, R374) -/
def Obligations.StreamsAreDescribedSentAndReceived : Prop :=
  (∀ (s : State) (req : Requester) (die : DieNo) (r : Nat),
      s.Reaches die.val SDESC.page SDESC.WRITE 0 req →
      r = s.descRefusal die.val (s.stream die.val (s.get (SDESC.DSEL.on die.val))) (s.stagedDesc die.val) →
      r ≠ 0 →
      exec (.sdescWrite req die) s = .next (
        let u := (s.put (SDESC.REFUSED.on die.val) (r != 0)).set (SDESC.REASON.on die.val) r
        u.regFault die.val SDESC.page SDESC.WRITE 0 .accessErr req.val 1)) ∧
  (∀ (s : State) (req : Requester) (die : DieNo) (id : Nat) (x : Stream),
      s.Reaches die.val SDESC.page SDESC.WRITE 0 req →
      id = s.get (SDESC.DSEL.on die.val) →
      x = s.stagedDesc die.val →
      s.descRefusal die.val (s.stream die.val id) x = 0 →
      streamOn x = true ∨ (s.stream die.val id).xfers = [] →
      exec (.sdescWrite req die) s = .next (
        let u := (s.put (SDESC.REFUSED.on die.val) false).set (SDESC.REASON.on die.val) 0
        let v := u.onDie die.val (fun y => { y with slinks := y.slinks.map (fun e =>
          (e.1, { e.2 with acks := e.2.acks.map (fun a => if a.1 = id then (65536, a.2) else a) })) })
        ((v.endXfers die.val id .aborted).setStream die.val id x).serveStarts die.val)) ∧
  (∀ (s : State) (req : Requester) (die : DieNo) (id : Nat) (x : Stream),
      s.Reaches die.val SDESC.page SDESC.WRITE 0 req →
      id = s.get (SDESC.DSEL.on die.val) →
      x = s.stagedDesc die.val →
      s.descRefusal die.val (s.stream die.val id) x = 0 →
      streamOn x = false →
      (s.stream die.val id).xfers ≠ [] →
      exec (.sdescWrite req die) s = .next (
        let old := s.stream die.val id
        let u := (s.put (SDESC.REFUSED.on die.val) false).set (SDESC.REASON.on die.val) 0
        let v := u.onDie die.val (fun y => { y with slinks := y.slinks.map (fun e =>
          (e.1, { e.2 with acks := e.2.acks.map (fun a => if a.1 = id then (65536, a.2) else a) })) })
        v.setStream die.val id { x with xfers := old.xfers, link := old.link, alt := old.alt, aborting := true })) ∧
  (∀ (s : State) (req : Requester) (die : DieNo),
      s.Reaches die.val SDESC.page SDESC.READ 0 req →
      exec (.sdescRead req die) s = .next (s.each (List.range 16) (fun u i => u.set (SDESC.STAGE.at die.val i)
        ((descWords (s.stream die.val (s.get (SDESC.DSEL.on die.val)))).getD i 0)))) ∧
  (∀ (s : State) (req : Requester) (die : DieNo) (id : BitVec 16),
      s.Reaches die.val STRM.page STRM.POST_ID 0 req →
      streamOn (s.stream die.val id.toNat) = true →
      streamIn (s.stream die.val id.toNat) = false →
      streamSync (s.stream die.val id.toNat) = false →
      exec (.postId req die id) s = .next (s.askStart die.val id.toNat)) ∧
  (∀ (s : State) (req : Requester) (die : DieNo) (id : BitVec 16),
      s.Reaches die.val STRM.page STRM.POST_ID 0 req →
      streamOn (s.stream die.val id.toNat) = false ∨ streamIn (s.stream die.val id.toNat) = true →
      exec (.postId req die id) s = .next (s.regFault die.val STRM.page STRM.POST_ID 0 .accessErr req.val id.toNat)) ∧
  (∀ (s : State) (req : Requester) (die : DieNo) (id : BitVec 16),
      s.Reaches die.val STRM.page STRM.POST_ID 0 req →
      streamOn (s.stream die.val id.toNat) = true →
      streamIn (s.stream die.val id.toNat) = false →
      streamSync (s.stream die.val id.toNat) = true →
      exec (.postId req die id) s = .next s) ∧
  (∀ (s : State) (die : DieNo) (link : LinkNo) (slot : Fin 8) (idle : BitVec 10) (phase : BitVec 8) (time : BitVec 64) (ecc : Ecc),
      s.sends die.val link.val = true →
      (s.linkLog die.val link.val).tx.slot = slot.val →
      exec (.slotSend die link slot idle phase time ecc) s = .next (
        let d := die.val
        let l := link.val
        let t := { s with answer := [] }
        let u := (List.replicate (if slot = 0 then idle.toNat else 0) (0, 0)).foldl (fun u w => u.sendWord d l time w) t
        let r := u.fillSlot d l slot.val ecc
        let header := (r.2.map Prod.fst).getD (0xFFFF, 0)
        let beat := u.beat d
        let v := r.1.onLink d l (fun k => { k with tx := { k.tx with
          slot := slot.val + 1
          headers := k.tx.headers ++ [header]
          mark := if slot = 0 then some (k.tx.words.length, phase.toNat, beat) else k.tx.mark } })
        let words := match r.2 with
          | some c => (wordsOfChunk c.2).mapIdx (fun i w => (wordTag i slot.val beat, w))
          | none => List.replicate 16 (0, 0)
        words.foldl (fun v w => v.sendWord d l time w) v)) ∧
  (∀ (s : State) (die : DieNo) (link : LinkNo) (slot : Fin 8) (idle : BitVec 10) (phase : BitVec 8) (time : BitVec
      64) (ecc : Ecc),
      s.sends die.val link.val = false ∨ (s.linkLog die.val link.val).tx.slot ≠ slot.val →
      exec (.slotSend die link slot idle phase time ecc) s = .next s) ∧
  (∀ (s : State) (die : DieNo) (link : LinkNo) (slot : Fin 8) (ecc : Ecc) (id c : Nat),
      s.linkIs die.val link.val .up = true →
      (s.slink die.val link.val).state = 0 →
      id = s.slotEntry die.val link.val (s.beat die.val) slot.val % 65536 →
      id ≠ 0xFFFF →
      nextChunk (s.stream die.val id) = some (c, false) →
      (s.slink die.val link.val).credits ≠ 0 →
      s.fillSlot die.val link.val slot.val ecc = (
        let r := s.readChunk die.val id c ecc
        let x := { r.1.stream die.val id with link := some link.val, alt := (r.1.slink die.val link.val).altRec }
        let u := (r.1.setStream die.val id { x with next := c + 1, resend := c + 1 }).onXfer die.val id (chunkXfer x c).1
          (fun t => { t with resent := t.resent + 0, link := some link.val })
        let rec_ : SlotRec := ⟨u.beat die.val, slot.val, id, c⟩
        (u.onSlink die.val link.val (fun k =>
            { k with credits := k.credits - 1, recs := k.recs ++ [rec_], open_ := k.open_ ++ [rec_] }),
          some ((id, c % 65536), r.2 ++ List.replicate (512 - r.2.length) 0)))) ∧
  (∀ (s : State) (die : DieNo) (link : LinkNo) (slot : Fin 8) (ecc : Ecc) (id c : Nat) (again : Bool),
      s.linkIs die.val link.val .up = true →
      (s.slink die.val link.val).state = 0 →
      id = s.slotEntry die.val link.val (s.beat die.val) slot.val % 65536 →
      id ≠ 0xFFFF →
      nextChunk (s.stream die.val id) = some (c, again) →
      (s.slink die.val link.val).credits = 0 →
      s.fillSlot die.val link.val slot.val ecc = (
        let v := s.onSlink die.val link.val (fun k => { k with creditWait := min (k.creditWait + 1) 4294967295 })
        (v, none))) ∧
  (∀ (s : State) (die : DieNo) (link : LinkNo) (slot : Fin 8) (ecc : Ecc) (id : Nat),
      id = s.slotEntry die.val link.val (s.beat die.val) slot.val % 65536 →
      s.linkIs die.val link.val .up = false ∨ (s.slink die.val link.val).state ≠ 0 ∨ id = 0xFFFF ∨ nextChunk
        (s.stream die.val id) = none →
      s.fillSlot die.val link.val slot.val ecc = (s, none)) ∧
  (∀ (s : State) (die : DieNo) (link : LinkNo) (beat : Nat) (slot : Fin 8) (id : BitVec 16) (seq : BitVec 16) (data :
  List Byte),
      s.inReset die.val = false →
      s.linkIs die.val link.val .up = true →
      (s.slink die.val link.val).acks.length < 64 →
      id.toNat ≠ 0xFFFF →
      s.slotEntry die.val link.val beat slot.val / 65536 = id.toNat →
      streamOn (s.stream die.val id.toNat) = true →
      (s.stream die.val id.toNat).state ≠ .halted →
      nearestSeq (s.stream die.val id.toNat).next seq.toNat = (s.stream die.val id.toNat).next →
      exec (.chunkArrival die link beat slot id seq data) s = .next (s.takeChunk die.val link.val id.toNat data)) ∧
  (∀ (s : State) (die : DieNo) (link : LinkNo) (beat : Nat) (slot : Fin 8) (id : BitVec 16) (seq : BitVec 16) (data :
  List Byte),
      s.inReset die.val = false →
      s.linkIs die.val link.val .up = true →
      (s.slink die.val link.val).acks.length < 64 →
      s.slotEntry die.val link.val beat slot.val / 65536 ≠ id.toNat →
      exec (.chunkArrival die link beat slot id seq data) s = .next ((s.returnCredit die.val link.val).slotViolations
        die.val link.val 1)) ∧
  (∀ (s : State) (die : DieNo) (link : LinkNo) (a : Nat × Nat) (rest : List (Nat × Nat)),
      s.inReset die.val = false →
      (s.slink die.val link.val).acks = a :: rest →
      a.1 ≠ 65536 →
      exec (.chunkWriteAck die link) s = .next (
        let u := (s.onSlink die.val link.val (fun k => { k with acks := rest })).returnCredit die.val link.val
        (u.settleAcked die.val a.1).advanceStream die.val a.1)) ∧
  (∀ (s : State) (die : DieNo) (link : LinkNo) (credits : BitVec 8),
      s.inReset die.val = false →
      s.linkIs die.val link.val .up = true →
      (s.slink die.val link.val).credits + credits.toNat ≤ 64 →
      exec (.creditReturn die link credits) s = .next (
        let k := s.slink die.val link.val
        let u := s.onSlink die.val link.val (fun k =>
          { k with credits := k.credits + credits.toNat, open_ := k.open_.drop credits.toNat })
        (k.open_.take credits.toNat).foldl (fun u r => u.creditChunk die.val r) u)) ∧
  (∀ (s : State) (die : DieNo) (link : LinkNo) (credits : BitVec 8),
      s.inReset die.val = false →
      s.linkIs die.val link.val .up = true →
      64 < (s.slink die.val link.val).credits + credits.toNat →
      exec (.creditReturn die link credits) s = .next (s.creditViolation die.val link.val)) ∧
  (∀ (s : State) (die : DieNo) (link : LinkNo) (beat : BitVec 8) (slot : Fin 8),
      s.inReset die.val = false →
      s.linkIs die.val link.val .up = true →
      (s.slink die.val link.val).recs.find? (fun r => r.beat % 256 == beat.toNat && r.slot == slot.val && decide
        (s.beat die.val ≤ r.beat + 16)) = none →
      exec (.nak die link beat slot) s = .next (
        s.onSlink die.val link.val (fun k => { k with naksIgnored := min (k.naksIgnored + 1) 4294967295 }))) ∧
  (∀ (s : State) (die : DieNo) (link : LinkNo) (beat : BitVec 8) (slot : Fin 8) (q : SlotRec),
      s.inReset die.val = false →
      s.linkIs die.val link.val .up = true →
      (s.slink die.val link.val).recs.find? (fun r => r.beat % 256 == beat.toNat && r.slot == slot.val && decide
        (s.beat die.val ≤ r.beat + 16)) = some q →
      (s.slink die.val link.val).credits < 64 →
      streamIn (s.stream die.val q.stream) = false →
      streamOn (s.stream die.val q.stream) = true →
      (s.stream die.val q.stream).state ≠ .halted →
      q.chunk < (s.stream die.val q.stream).resend →
      (aget (s.stream die.val q.stream).tries q.chunk).getD 0 < s.get (STRM.RESEND_LIMIT.on die.val) →
      exec (.nak die link beat slot) s = .next (
        let u := s.onSlink die.val link.val (fun k => { k with
          credits := k.credits + 1
          open_ := if k.open_.contains q then k.open_.filter (fun o => decide (o ≠ q)) else k.open_.drop 1 })
        let x := u.stream die.val q.stream
        u.setStream die.val q.stream { x with resend := q.chunk, acked := min x.acked q.chunk })) ∧
  (∀ (s : State) (die : DieNo) (link : LinkNo) (beat : BitVec 8) (slot : Fin 8) (q : SlotRec),
      s.inReset die.val = false →
      s.linkIs die.val link.val .up = true →
      (s.slink die.val link.val).recs.find? (fun r => r.beat % 256 == beat.toNat && r.slot == slot.val && decide
        (s.beat die.val ≤ r.beat + 16)) = some q →
      (s.slink die.val link.val).credits = 64 →
      exec (.nak die link beat slot) s = .next (s.creditViolation die.val link.val))

/-- SWITCH from the partner keeps its beat, nearest to the die's own, unless the switch beat stands fixed. At a switch
beat the links whose beat it is take the set's tables; after the last of them SWITCH_PENDING ends and the fenced streams
that nothing carries end. Four beats before the die's own switch beat a link that has heard no SWITCH takes that beat
and keeps it, with 0x1804. READMIT keeps the latest hinge named for a link being readmitted. SCQ_CONS takes its value,
lets waiting completions in and starts what waited. An open transfer past its limit halts its stream with TIMEOUT. A
link in service without a credit and with a chunk ready past the limit is a credit violation. A completion that waits
past its limit records 0x1806 and a fault record. (R351, R352, R357, R358, R363, R364, R365, R367, R370, R372) -/
def Obligations.StreamSwitchesReadmissionAndLimits : Prop :=
  (∀ (s : State) (die : DieNo) (link : LinkNo) (beat : BitVec 32),
      s.inReset die.val = false →
      s.linkIs die.val link.val .up = true →
      (s.slink die.val link.val).fixed = false →
      exec (.switch die link beat) s = .next (
        s.onSlink die.val link.val (fun k => { k with peer := some (nearestBeat (s.beat die.val) beat.toNat) }))) ∧
  (∀ (s : State) (die : DieNo) (link : LinkNo) (beat : BitVec 32),
      s.linkIs die.val link.val .up = false ∨ (s.slink die.val link.val).fixed = true →
      exec (.switch die link beat) s = .next s) ∧
  (∀ (s : State) (die : DieNo),
      s.inReset die.val = false →
      s.is (STRM.SWITCH_PENDING.on die.val) = true →
      s.get (STRMI.OWN.on die.val) ≤ s.beat die.val →
      exec (.switchBeat die) s = .next (
        let d := die.val
        let i := s.get (STRM.ALT_SET.on d)
        let u := if s.get (STRMI.IN_FORCE.on d) = i then s else s.takeStretch d
        let v := u.each ((List.range 48).filter (fun l => u.switchDue d l)) (fun u l =>
          (u.takeSetTable d i l (u.switchAt d l)).onSlink d l (fun k =>
            { k with switching := false, peer := none, fixed := false }))
        if (v.die d).slinks.any (fun e => e.2.switching) then v else (v.set (STRM.SWITCH_PENDING.on d) 0).endFenced
          d)) ∧
  (∀ (s : State) (die : DieNo),
      s.is (STRM.SWITCH_PENDING.on die.val) = false ∨ s.beat die.val < s.get (STRMI.OWN.on die.val) →
      exec (.switchBeat die) s = .next s) ∧
  (∀ (s : State) (die : DieNo) (link : LinkNo),
      s.inReset die.val = false →
      (s.slink die.val link.val).switching = true →
      (s.slink die.val link.val).peer = none →
      s.get (STRMI.OWN.on die.val) ≤ s.beat die.val + 4 →
      exec (.switchWaitExpiry die link) s = .next (
        (s.onSlink die.val link.val (fun k =>
          { k with peer := some (s.get (STRMI.OWN.on die.val)), fixed := true })).dieEvent die.val STRM.page 0x1804)) ∧
  (∀ (s : State) (die : DieNo) (link : LinkNo),
      (s.slink die.val link.val).switching = false ∨ (s.slink die.val link.val).peer ≠ none ∨ s.beat die.val + 4 <
        s.get (STRMI.OWN.on die.val) →
      exec (.switchWaitExpiry die link) s = .next s) ∧
  (∀ (s : State) (die : DieNo) (link : LinkNo) (k : BitVec 32),
      s.inReset die.val = false →
      s.linkIs die.val link.val .up = true →
      (s.slink die.val link.val).state = 2 →
      exec (.readmit die link k) s = .next (
        s.onSlink die.val link.val (fun x => { x with theirs := some (max k.toNat (x.theirs.getD 0)) }))) ∧
  (∀ (s : State) (req : Requester) (die : DieNo) (value : BitVec 16),
      s.Reaches die.val STRM.page STRM.SCQ_CONS 0 req →
      exec (.scqCons req die value) s = .next (
        let same := s.get (STRM.SCQ_CONS.on die.val) == value.toNat
        let u := (s.set (STRM.SCQ_CONS.on die.val) value.toNat).put (STRMI.SCQ_WRAP.on die.val)
          (s.is (STRMI.SCQ_WRAP.on die.val) && same)
        (u.drainScq die.val (u.die die.val).scqWait.length).serveStarts die.val)) ∧
  (∀ (s : State) (die : DieNo) (id : BitVec 16) (q : Xfer),
      s.inReset die.val = false →
      (s.stream die.val id.toNat).xfers.find? (fun t => !xferOver (s.stream die.val id.toNat) t) = some q →
      exec (.xferTo die id) s = .next (s.haltStream die.val id.toNat (max q.first (s.stream die.val id.toNat).acked)
        .timeout)) ∧
  (∀ (s : State) (die : DieNo) (link : LinkNo) (t : SlotTable),
      s.inReset die.val = false →
      (s.slink die.val link.val).credits = 0 →
      (s.slink die.val link.val).state = 0 →
      (s.slink die.val link.val).table = some t →
      (t.entries.map (· % 65536)).any (fun id => id != 0xFFFF && (nextChunk (s.stream die.val id)).isSome) = true →
      exec (.creditTo die link) s = .next (s.creditViolation die.val link.val)) ∧
  (∀ (s : State) (die : DieNo) (w : List Nat) (ws : List (List Nat)),
      s.inReset die.val = false →
      (s.die die.val).scqWait = w :: ws →
      exec (.scqTo die) s = .next (
        let id := w.headD 0 % 65536
        (s.dieEvent die.val STRM.page 0x1806).streamFault die.val 0x1806 (bitsOf (w.headD 0) 16 8) (bitsOf (w.getD 3
          0) 16 8) id
          (w.getD 1 0) (s.stream die.val id).next))

/-- OPEN with no cause of refusal locks the carve, zeroes SYNC_NOW and the pointers of the rings, sets SCAN.SLOTS to the 32
MiB units of partition 4 but at most 32, empties the run table, counts and goes to OPEN; otherwise it shows the refusal
in REFUSE with 0x2605 and faults the write. SERVE starts loading the bay images, or is refused with 1, 7 or 8. When the
images are in, the context goes to SERVING and the array waits for its load; a unit in error faults the context with
cause 8. DRAIN names a sync hinge at least two ahead, takes the context to DRAINING and ends the runs that cannot enter
with status 6. CLOSE is accepted in OPEN and FAULTED. Its end unlocks the carve, destroys the heap, forgets the keyring
and accepted runs, and goes to CLOSED. (R220, R275, R382, R383, R384, R385, R386, R387, R388, R416) -/
def Obligations.ContextsOpenServeDrainAndClose : Prop :=
  (∀ (s : State) (req : Requester) (die : DieNo),
      s.Reaches die.val CTX.page CTX.OPEN 0 req →
      s.openRefusal die.val = 0 →
      exec (.openCtx req die) s = .next (
        let d := die.val
        let a := (s.set (PART.CARVE_LOCKED.on d) 1).set (HMBX.SYNC_NOW.on d) 0
        let b := a.set (SCAN.SLOTS.on d) (min (a.partSize d 4 / 33554432) 32)
        let c := ((b.set (RING.SQ_PROD.on d) 0).set (RING.SQ_CONS.on d) 0).set (RING.CQ_PROD.on d) 0
        let e := ((c.set (RING.CQ_CONS.on d) 0).set (FAULT.FQ_PROD.on d) 0).set (FAULT.FQ_CONS.on d) 0
        let f := (e.onDie d (fun x => { x with runs := [], copyIn := [], copyOut := [], records := [] })).runRegs d
        (f.count (CTX.OPENS.on d)).toContext d 1 0)) ∧
  (∀ (s : State) (req : Requester) (die : DieNo),
      s.Reaches die.val CTX.page CTX.OPEN 0 req →
      s.openRefusal die.val ≠ 0 →
      exec (.openCtx req die) s = .next (s.refuseCtx die.val CTX.OPEN (s.openRefusal die.val) req.val 1)) ∧
  (∀ (s : State) (req : Requester) (die : DieNo),
      s.Reaches die.val CTX.page CTX.SERVE 0 req →
      s.get (CTX.STATE.on die.val) = 1 →
      s.is (CTXI.CLOSING.on die.val) = false →
      s.is (CTXI.BAYS_LOADING.on die.val) = false →
      s.is (KRING.VERIFIED.on die.val) = true →
      s.is (HEAP.INITED.on die.val) = true →
      exec (.serve req die) s = .next (s.set (CTXI.BAYS_LOADING.on die.val) 1)) ∧
  (∀ (s : State) (req : Requester) (die : DieNo),
      s.Reaches die.val CTX.page CTX.SERVE 0 req →
      s.get (CTX.STATE.on die.val) ≠ 1 →
      exec (.serve req die) s = .next (s.refuseCtx die.val CTX.SERVE 1 req.val 2)) ∧
  (∀ (s : State) (req : Requester) (die : DieNo),
      s.Reaches die.val CTX.page CTX.SERVE 0 req →
      s.get (CTX.STATE.on die.val) = 1 →
      s.is (CTXI.CLOSING.on die.val) = false →
      s.is (CTXI.BAYS_LOADING.on die.val) = false →
      s.is (KRING.VERIFIED.on die.val) = false →
      exec (.serve req die) s = .next (s.refuseCtx die.val CTX.SERVE 7 req.val 2)) ∧
  (∀ (s : State) (die : DieNo) (ecc : Ecc),
      s.inReset die.val = false →
      s.is (CTXI.BAYS_LOADING.on die.val) = true →
      badUnits ecc false (s.bayImages die.val) (4096 * bayLines * 16) = [] →
      exec (.bayImageLoaded die ecc) s = .next (
        let d := die.val
        let lines := bayLinesOf (gaddr d (s.bayImages d)) (4096 * bayLines * 16) s.mem
        let u := (s.onDie d (fun x => { x with bays := lines })).set (CTXI.BAYS_LOADING.on d) 0
        let v := u.eccEffects d 6 0 0 false (s.bayImages d) (4096 * bayLines * 16) ecc true
        ((v.set (CTXI.FIRST.on d) 1).setPhase d .loadWait).toContext d 2 0)) ∧
  (∀ (s : State) (die : DieNo) (ecc : Ecc),
      s.inReset die.val = false →
      s.is (CTXI.BAYS_LOADING.on die.val) = true →
      badUnits ecc false (s.bayImages die.val) (4096 * bayLines * 16) ≠ [] →
      exec (.bayImageLoaded die ecc) s = .next (
        let d := die.val
        let base := s.bayImages d
        let lines := bayLinesOf (gaddr d base) (4096 * bayLines * 16) s.mem
        let u := (s.onDie d (fun x => { x with bays := lines })).set (CTXI.BAYS_LOADING.on d) 0
        let v := u.eccEffects d 6 0 0 false base (4096 * bayLines * 16) ecc true
        (v.each (badUnits ecc false base (4096 * bayLines * 16)) (fun v k =>
          let l := (32 * k - base) / 16
          let w := (v.setBayLine d 0 l 0).setBayLine d 0 (l + 1) 0
          w.bayError d (l / bayLines) (l % bayLines) 8 32)).contextFault d 8)) ∧
  (∀ (s : State) (req : Requester) (die : DieNo),
      s.Reaches die.val CTX.page CTX.DRAIN 0 req →
      s.get (CTX.STATE.on die.val) ≠ 2 →
      exec (.drain req die) s = .next (s.refuseCtx die.val CTX.DRAIN 1 req.val 4)) ∧
  (∀ (s : State) (req : Requester) (die : DieNo),
      s.Reaches die.val CTX.page CTX.DRAIN 0 req →
      s.get (CTX.STATE.on die.val) = 2 →
      s.get (CTX.DRAIN_SYNC.on die.val) < s.get (HMBX.SYNC_NOW.on die.val) + 2 →
      exec (.drain req die) s = .next (s.refuseCtx die.val CTX.DRAIN 9 req.val 4)) ∧
  (∀ (s : State) (req : Requester) (die : DieNo),
      s.Reaches die.val CTX.page CTX.DRAIN 0 req →
      s.get (CTX.STATE.on die.val) = 2 →
      s.get (HMBX.SYNC_NOW.on die.val) + 2 ≤ s.get (CTX.DRAIN_SYNC.on die.val) →
      exec (.drain req die) s = .next (
        let n := s.get (CTX.DRAIN_SYNC.on die.val)
        let u := (s.set (CTXI.DRAIN_AT.on die.val) n).toContext die.val 3 0
        u.each (((u.die die.val).runs.filter (fun e =>
          (e.2.state == .admitted || e.2.state == .copyIn) && decide (n ≤ e.2.entry))).map Prod.fst)
          (fun u i => u.endRun die.val i 6 0))) ∧
  (∀ (s : State) (req : Requester) (die : DieNo),
      s.Reaches die.val CTX.page CTX.CLOSE 0 req →
      s.get (CTX.STATE.on die.val) = 1 ∨ s.get (CTX.STATE.on die.val) = 4 →
      s.is (CTXI.CLOSING.on die.val) = false →
      exec (.close req die) s = .next (s.beginClose die.val)) ∧
  (∀ (s : State) (req : Requester) (die : DieNo),
      s.Reaches die.val CTX.page CTX.CLOSE 0 req →
      s.get (CTX.STATE.on die.val) ≠ 1 →
      s.get (CTX.STATE.on die.val) ≠ 4 →
      exec (.close req die) s = .next (s.refuseCtx die.val CTX.CLOSE 1 req.val 8)) ∧
  (∀ (s : State) (die : DieNo),
      s.inReset die.val = false →
      s.is (CTXI.CLOSING.on die.val) = true →
      exec (.closeDone die) s = .next (
        let d := die.val
        let a := (s.set (CTXI.CLOSING.on d) 0).set (PART.CARVE_LOCKED.on d) 0
        let b := a.onDie d (fun x =>
          { x with
            heap := []
            holders := []
            heapQ := []
            gates := x.gates.map (fun e => (e.1, { e.2 with handles := [] })) })
        let c := b.each (List.range 9) (fun u n => u.set (HEAP.FREE.at d n) 0)
        let e := ((c.set (HEAP.INITED.on d) 0).set (MEMI.BUILT.on d) 0).set (KRING.VERIFIED.on d) 0
        let f := (e.set (KRING.VERDICT.on d) 0).setPair (KRING.BASE_LO.on d) (KRING.BASE_HI.on d) 0
        let g := (f.set (KRING.CHECKING.on d) 0).set (ARRAY.FORM.on d) 0xF
        (g.discardAccepted d).toContext d 0 0))

/-- SUB_PUSH with room, in OPEN or SERVING, stores the sixteen staged words at the next submission entry and moves SQ_PROD
on; with the ring full, or in another state, it is discarded with ACCESS_ERR and the page event. A run is taken from the
oldest entry into the lowest free slot of the run table; one that is refused ends at once with status 8, its reason and
0x2606. The end of an input copy leaves the run admitted, with status 4 at least where the copy met an error, and may
make the shadow ready; a run told to end meanwhile ends then. The end of an output copy ends the run with status 0 or 4.
CQ_CONS moves on, and waiting records are written; past the records held it is discarded with ACCESS_ERR. (R389, R390,
R391, R392, R393, R396, R398, R400, R401, R407, R412) -/
def Obligations.RunsAreSubmittedCopiedAndCompleted : Prop :=
  (∀ (s : State) (req : Requester) (die : DieNo),
      s.Reaches die.val RING.page RING.SUB_PUSH 0 req →
      s.submissionsHeld die.val < 2 ^ s.get (RING.SQ_LOG2.on die.val) →
      s.get (CTX.STATE.on die.val) = 1 ∨ s.get (CTX.STATE.on die.val) = 2 →
      s.is (CTXI.CLOSING.on die.val) = false →
      s.is (LINEI.FENCING.on die.val) = false →
      exec (.subPush req die) s = .next (
        let w := (List.range 16).map (fun i => s.get (RING.SUB_DATA.at die.val i))
        (s.storeWords die.val (s.sqEntry die.val (s.get (RING.SQ_PROD.on die.val))) w).wrap (RING.SQ_PROD.on
          die.val))) ∧
  (∀ (s : State) (req : Requester) (die : DieNo),
      s.Reaches die.val RING.page RING.SUB_PUSH 0 req →
      2 ^ s.get (RING.SQ_LOG2.on die.val) ≤ s.submissionsHeld die.val →
      exec (.subPush req die) s = .next ((s.regFault die.val RING.page RING.SUB_PUSH 0 .accessErr req.val
        1).pageEvent die.val RING.page 9)) ∧
  (∀ (s : State) (die : DieNo) (i c : Nat),
      s.inReset die.val = false →
      s.get (CTX.STATE.on die.val) = 2 ∨ s.get (CTX.STATE.on die.val) = 3 →
      s.is (CTXI.CLOSING.on die.val) = false →
      s.submissionsHeld die.val ≠ 0 →
      (List.range 256).find? (fun j => (s.run die.val j).isNone) = some i →
      c = s.runRefusal die.val (s.sqEntry die.val (s.get (RING.SQ_CONS.on die.val))) (s.readRun die.val (s.sqEntry
        die.val (s.get (RING.SQ_CONS.on die.val)))) →
      exec (.runTake die) s = .next (
        let r := s.readRun die.val (s.sqEntry die.val (s.get (RING.SQ_CONS.on die.val)))
        let u := (s.wrap (RING.SQ_CONS.on die.val)).wrap (CTXI.RUN_ORDER.on die.val)
        let v := u.setRun die.val i { r with seqNo := u.get (CTXI.RUN_ORDER.on die.val) }
        if c = 0 then v else (v.dieEvent die.val RUNS.page 0x2606).endRun die.val i 8 c)) ∧
  (∀ (s : State) (die : DieNo) (ecc : Ecc) (i : Nat) (rest : List Nat) (r : Run),
      s.inReset die.val = false →
      (s.die die.val).copyIn = i :: rest →
      s.run die.val i = some r →
      exec (.inputCopyDone die ecc) s = .next (
        let c := s.runCopy die.val r.inSrc r.inDst r.inLen ecc
        let u := c.1.onDie die.val (fun x => { x with copyIn := rest })
        let r := { r with copied := true, state := .admitted, status := if c.2 then max r.status 4 else r.status }
        let v := u.setRun die.val i r
        if 5 ≤ r.status then v.finishRun die.val i r.status r.detail else v.tryReady die.val)) ∧
  (∀ (s : State) (die : DieNo) (ecc : Ecc) (i : Nat) (rest : List Nat) (r : Run),
      s.inReset die.val = false →
      (s.die die.val).copyOut = i :: rest →
      s.run die.val i = some r →
      exec (.outputCopyDone die ecc) s = .next (
        let c := s.runCopy die.val r.outSrc r.outDst r.outLen ecc
        let u := (c.1.finishRun die.val i (if c.2 then 4 else 0) 0).tryReady die.val
        if u.is (CTXI.CLOSE_WAIT.on die.val) then u.beginClose die.val else u)) ∧
  (∀ (s : State) (req : Requester) (die : DieNo) (value : BitVec 16),
      s.Reaches die.val RING.page RING.CQ_CONS 0 req →
      (value.toNat + 65536 - s.get (RING.CQ_CONS.on die.val)) % 65536 ≤ s.completionsHeld die.val →
      exec (.cqCons req die value) s = .next ((s.set (RING.CQ_CONS.on die.val) value.toNat).drainRecords die.val)) ∧
  (∀ (s : State) (req : Requester) (die : DieNo) (value : BitVec 16),
      s.Reaches die.val RING.page RING.CQ_CONS 0 req →
      s.completionsHeld die.val < (value.toNat + 65536 - s.get (RING.CQ_CONS.on die.val)) % 65536 →
      exec (.cqCons req die value) s = .next (s.regFault die.val RING.page RING.CQ_CONS 0 .accessErr req.val
        value.toNat))

/-- CLAIM takes the lowest free slot of the target die for the window, or reads BUSY. SEND without a held slot, to a die
in reset or fenced, or over a request that is not terminal does nothing; any other writes the payload and the request.
RELEASE frees a slot whose request is terminal; before a terminal status it is discarded. A request whose VALID is set
is checked once: a fenced die answers DISCARDED; a TEST_SLOT with a test mask above 7 or a target is REFUSED_BAD; one
for another context is REFUSED_STALE, one for a hinge less than two ahead REFUSED_LATE; any other is ACCEPTED. An
accepted OP_CHANGE to another point starts locking the idle source; one to the running point does no more. (R39, R93,
R94, R96, R97, R99, R104, R106, R230) -/
def Obligations.MailboxSlotsAreClaimedSentAndChecked : Prop :=
  (∀ (s : State) (req : Requester) (core : McNo) (j : Nat),
      s.Reaches clachasel MBXPOST.page MBXPOST.CLAIM core.val req →
      (List.range 8).find? (fun i => s.get (MBXI.OWNER.clAt (8 * s.get (MBXPOST.DIE.clAt core.val) + i)) = 0) = some
        j →
      exec (.mbxClaim req core) s = .next (
        let d := s.get (MBXPOST.DIE.clAt core.val)
        let u := (s.set (MBXI.OWNER.clAt (8 * d + j)) (core.val + 1)).set (MBXI.SENT.clAt (8 * d + j)) 0
        let v := (u.set (MBXI.SHOWN.clAt (8 * d + j)) 0).set (MBXI.SHOWN_TID.clAt (8 * d + j)) 0
        (v.set (MBXI.HELD.clAt (8 * core.val + d)) (j + 1)).showWindow core.val)) ∧
  (∀ (s : State) (req : Requester) (core : McNo),
      s.Reaches clachasel MBXPOST.page MBXPOST.CLAIM core.val req →
      (List.range 8).find? (fun i => s.get (MBXI.OWNER.clAt (8 * s.get (MBXPOST.DIE.clAt core.val) + i)) = 0) = none →
      exec (.mbxClaim req core) s = .next ((((s.set (MBXPOST.SLOT.clAt core.val) 0xFF).set (MBXPOST.CLAIM_DONE.clAt
        core.val) 1).set (MBXPOST.STATUS.clAt core.val) 0).set (MBXPOST.TID.clAt core.val) 0)) ∧
  (∀ (s : State) (req : Requester) (core : McNo),
      s.Reaches clachasel MBXPOST.page MBXPOST.SEND core.val req →
      s.get (MBXI.HELD.clAt (8 * core.val + s.get (MBXPOST.DIE.clAt core.val))) = 0 →
      exec (.send req core) s = .next (s)) ∧
  (∀ (s : State) (req : Requester) (core : McNo) (d j : Nat),
      s.Reaches clachasel MBXPOST.page MBXPOST.SEND core.val req →
      d = s.get (MBXPOST.DIE.clAt core.val) →
      s.get (MBXI.HELD.clAt (8 * core.val + d)) = j + 1 →
      s.tripped d = false →
      s.fenced d = false →
      s.is (MBXI.SENT.clAt (8 * d + j)) = false ∨ mbxTerminal (s.get (MBXI.SHOWN.clAt (8 * d + j))) = true →
      exec (.send req core) s = .next (
        let p := s.get (MBXPOST.PARAM.clAt core.val)
        let t := s.get (MBXPOST.TAG.clAt core.val)
        let a := ((s.set (HMBX.S_TARGET_OP.at d j) p).set (HMBX.S_IDLE_BEATS.at d j) (p / 256)).set
          (HMBX.S_HOLD_US.at d j)
          (p / 65536)
        let b := (a.set (HMBX.S_H.at d j) (a.get (MBXPOST.HINGE.clAt core.val))).set (HMBX.S_CONTEXT.at d j) t
        let c := (b.set (HMBX.S_TID.at d j) (t / 65536)).set (HMBX.S_KIND.at d j) (b.get (MBXPOST.KIND.clAt core.val))
        let e := (c.set (HMBX.R_STATUS.at d j) 0).set (MBXI.SHOWN.clAt (8 * d + j)) 0
        let f := (e.setBit (DEVQI.REPORT.on d) j false).devqRegs d
        ((f.set (MBXI.SENT.clAt (8 * d + j)) 1).showWindow core.val).slotValid d j)) ∧
  (∀ (s : State) (req : Requester) (core : McNo) (d j : Nat),
      s.Reaches clachasel MBXPOST.page MBXPOST.SEND core.val req →
      d = s.get (MBXPOST.DIE.clAt core.val) →
      s.get (MBXI.HELD.clAt (8 * core.val + d)) = j + 1 →
      s.tripped d = true ∨ s.fenced d = true ∨ (s.is (MBXI.SENT.clAt (8 * d + j)) = true ∧ mbxTerminal (s.get
        (MBXI.SHOWN.clAt (8 * d + j))) = false) →
      exec (.send req core) s = .next s) ∧
  (∀ (s : State) (req : Requester) (core : McNo) (d j : Nat),
      s.Reaches clachasel MBXPOST.page MBXPOST.RELEASE core.val req →
      d = s.get (MBXPOST.DIE.clAt core.val) →
      s.get (MBXI.HELD.clAt (8 * core.val + d)) = j + 1 →
      mbxTerminal (s.get (MBXI.SHOWN.clAt (8 * d + j))) = false →
      exec (.mbxRelease req core) s = .next (s)) ∧
  (∀ (s : State) (req : Requester) (core : McNo) (d j : Nat),
      s.Reaches clachasel MBXPOST.page MBXPOST.RELEASE core.val req →
      d = s.get (MBXPOST.DIE.clAt core.val) →
      s.get (MBXI.HELD.clAt (8 * core.val + d)) = j + 1 →
      mbxTerminal (s.get (MBXI.SHOWN.clAt (8 * d + j))) = true →
      exec (.mbxRelease req core) s = .next ((s.freeSlot d j).setBit (HOLDI.DUE.on d) j false)) ∧
  (∀ (s : State) (die : DieNo) (slot : Fin 8),
      s.inReset die.val = false →
      s.bit (HOLDI.DUE.on die.val) slot.val = true →
      s.get (HMBX.S_KIND.at die.val slot.val) = 1 →
      s.is (LINEI.FENCING.on die.val) = true →
      exec (.opChange die slot) s = .next ((s.setBit (HOLDI.DUE.on die.val) slot.val false).postResult die.val
        slot.val .discarded 0)) ∧
  (∀ (s : State) (die : DieNo) (slot : Fin 8),
      s.inReset die.val = false →
      s.bit (HOLDI.DUE.on die.val) slot.val = true →
      s.get (HMBX.S_KIND.at die.val slot.val) = 1 →
      s.is (LINEI.FENCING.on die.val) = false →
      s.get (HMBX.S_CONTEXT.at die.val slot.val) = s.openContext die.val →
      s.get (HMBX.S_H.at die.val slot.val) < s.get (HMBX.SYNC_NOW.on die.val) + 2 →
      (s.setBit (HOLDI.DUE.on die.val) slot.val false).isRevision die.val slot.val = false →
      exec (.opChange die slot) s = .next ((s.setBit (HOLDI.DUE.on die.val) slot.val false).postResult die.val
        slot.val .refusedLate 0)) ∧
  (∀ (s : State) (die : DieNo) (slot : Fin 8),
      s.inReset die.val = false →
      s.bit (HOLDI.DUE.on die.val) slot.val = true →
      s.get (HMBX.S_KIND.at die.val slot.val) = 1 →
      s.is (LINEI.FENCING.on die.val) = false →
      s.get (HMBX.S_CONTEXT.at die.val slot.val) = s.openContext die.val →
      s.get (HMBX.SYNC_NOW.on die.val) + 2 ≤ s.get (HMBX.S_H.at die.val slot.val) →
      exec (.opChange die slot) s = .next (
        let u := (s.setBit (HOLDI.DUE.on die.val) slot.val false).postResult die.val slot.val .accepted 0
        if u.isRevision die.val slot.val then u.revise die.val slot.val
        else if u.get (HMBX.S_TARGET_OP.at die.val slot.val) = u.get (HMBX.RUN_OP.on die.val) then u
        else u.startIdle die.val (u.get (HMBX.S_TARGET_OP.at die.val slot.val)))) ∧
  (∀ (s : State) (die : DieNo) (slot : Fin 8),
      s.inReset die.val = false →
      s.bit (HOLDI.DUE.on die.val) slot.val = true →
      s.get (HMBX.S_KIND.at die.val slot.val) = 2 →
      s.is (LINEI.FENCING.on die.val) = false →
      s.get (HMBX.S_CONTEXT.at die.val slot.val) = s.openContext die.val →
      s.get (HMBX.SYNC_NOW.on die.val) + 2 ≤ s.get (HMBX.S_H.at die.val slot.val) →
      exec (.throttle die slot) s = .next ((s.setBit (HOLDI.DUE.on die.val) slot.val false).postResult die.val
        slot.val .accepted 0)) ∧
  (∀ (s : State) (die : DieNo) (slot : Fin 8),
      s.inReset die.val = false →
      s.bit (HOLDI.DUE.on die.val) slot.val = true →
      s.get (HMBX.S_KIND.at die.val slot.val) = 2 →
      s.is (LINEI.FENCING.on die.val) = false →
      s.get (HMBX.S_CONTEXT.at die.val slot.val) ≠ s.openContext die.val →
      exec (.throttle die slot) s = .next ((s.setBit (HOLDI.DUE.on die.val) slot.val false).postResult die.val
        slot.val .refusedStale 0)) ∧
  (∀ (s : State) (die : DieNo) (slot : Fin 8),
      s.inReset die.val = false →
      s.bit (HOLDI.DUE.on die.val) slot.val = true →
      s.get (HMBX.S_KIND.at die.val slot.val) = 3 →
      s.is (LINEI.FENCING.on die.val) = false →
      s.get (HMBX.S_CONTEXT.at die.val slot.val) = s.openContext die.val →
      s.get (HMBX.SYNC_NOW.on die.val) + 2 ≤ s.get (HMBX.S_H.at die.val slot.val) →
      s.get (HMBX.S_IDLE_BEATS.at die.val slot.val) < 8 →
      s.get (HMBX.S_TARGET_OP.at die.val slot.val) = 0 →
      exec (.testSlot die slot) s = .next ((s.setBit (HOLDI.DUE.on die.val) slot.val false).postResult die.val
        slot.val .accepted 0)) ∧
  (∀ (s : State) (die : DieNo) (slot : Fin 8),
      s.inReset die.val = false →
      s.bit (HOLDI.DUE.on die.val) slot.val = true →
      s.get (HMBX.S_KIND.at die.val slot.val) = 3 →
      s.is (LINEI.FENCING.on die.val) = false →
      8 ≤ s.get (HMBX.S_IDLE_BEATS.at die.val slot.val) ∨ s.get (HMBX.S_TARGET_OP.at die.val slot.val) ≠ 0 →
      exec (.testSlot die slot) s = .next ((s.setBit (HOLDI.DUE.on die.val) slot.val false).postResult die.val
        slot.val .refusedBad 0)) ∧
  (∀ (s : State) (die : DieNo) (slot : Fin 8),
      s.inReset die.val = false →
      s.bit (HOLDI.DUE.on die.val) slot.val = true →
      s.get (HMBX.S_KIND.at die.val slot.val) = 4 →
      s.is (LINEI.FENCING.on die.val) = false →
      s.get (HMBX.S_CONTEXT.at die.val slot.val) = s.openContext die.val →
      s.get (HMBX.SYNC_NOW.on die.val) + 2 ≤ s.get (HMBX.S_H.at die.val slot.val) →
      exec (.opForce die slot) s = .next ((s.setBit (HOLDI.DUE.on die.val) slot.val false).postResult die.val
        slot.val .accepted 0))

/-- A lock of the idle source sets PLL_READY, and a drop that waited for it switches. AT_HINGE passes the transition ID
to the sequencer, which drives OPSEL up to a higher target. The end of a slew with power good waits to report VOLT_OK;
without it records 0x3204. VOLT_OK for the current transition ID is kept; for an old one it is ignored. F_DONE drives
OPSEL down to the running point. The end of a hold ends the OP_CHANGE, or the test slot, or the forced change that has
reached Step 6. OUT of a CLOSED context, of a slot out of range, or while a scan runs or waits is refused; in OPEN at a
hinge, and in FAULTED, it starts a scan. IN is refused with code 1 but in FAULTED with the array stopped. A scan ends
with its cycles counted and, for an image, its slot valid and 0x1440. A forced change whose PLL locks restores slot 0,
or is refused with a die fault, cause 2. (R92, R99, R100, R101, R102, R103, R416, R417, R422, R424, R429, R431) -/
def Obligations.OperatingPointsChangeAtHinges : Prop :=
  (∀ (s : State) (die : DieNo),
      s.inReset die.val = false →
      s.get (HOLDI.IDLE_OP.on die.val) ≠ 0 →
      exec (.idlePllLock die) s = .next ((s.set (HMBX.PLL_READY.on die.val) 1).tryDrop die.val)) ∧
  (∀ (s : State) (die : DieNo),
      s.inReset die.val = false →
      s.is (HOLDI.AT_HINGE.on die.val) = true →
      exec (.atHinge die) s = .next (
        let u := (s.set (HOLDI.AT_HINGE.on die.val) 0).set (OPCTL.TID.clAt die.val) (s.get (HOLDI.TID.on die.val))
        let v := u.driveOpsel die.val (u.get (HOLDI.TARGET.on die.val)) true
        if u.get (HMBX.RUN_OP.on die.val) < u.get (HOLDI.TARGET.on die.val) then v else u)) ∧
  (∀ (s : State) (die : DieNo),
      s.is (OPI.CHECK.clAt die.val) = true →
      exec (.voltCheck die true) s = .next (
        let u := (s.set (OPCTL.SLEWING.clAt die.val) 0).set (OPI.CHECK.clAt die.val) 0
        u.set (OPI.VOLT.clAt die.val) (u.get (OPCTL.TID.clAt die.val) + 1))) ∧
  (∀ (s : State) (die : DieNo),
      s.is (OPI.CHECK.clAt die.val) = true →
      exec (.voltCheck die false) s = .next (((s.set (OPCTL.SLEWING.clAt die.val) 0).set (OPI.CHECK.clAt die.val)
        0).event OPCTL.page 0x3204)) ∧
  (∀ (s : State) (die : DieNo),
      s.get (OPI.VOLT.clAt die.val) ≠ 0 →
      (s.set (OPI.VOLT.clAt die.val) 0).inReset die.val = false →
      (s.set (OPI.VOLT.clAt die.val) 0).get (HOLDI.KIND.on die.val) = 1 →
      (s.set (OPI.VOLT.clAt die.val) 0).get (HOLDI.TID.on die.val) = s.get (OPI.VOLT.clAt die.val) - 1 →
      exec (.voltOk die) s = .next ((s.set (OPI.VOLT.clAt die.val) 0).set (HOLDI.VOLT.on die.val) 1)) ∧
  (∀ (s : State) (die : DieNo),
      s.get (OPI.VOLT.clAt die.val) ≠ 0 →
      (s.set (OPI.VOLT.clAt die.val) 0).get (HOLDI.TID.on die.val) ≠ s.get (OPI.VOLT.clAt die.val) - 1 →
      exec (.voltOk die) s = .next (s.set (OPI.VOLT.clAt die.val) 0)) ∧
  (∀ (s : State) (die : DieNo),
      s.inReset die.val = false →
      s.is (HMBX.HOLD_ACTIVE.on die.val) = true →
      ((s.set (HMBX.HOLD_ACTIVE.on die.val) 0).set (HOLDI.OVER.on die.val) 1).get (HOLDI.KIND.on die.val) = 1 →
      exec (.holdEnd die) s = .next (((s.set (HMBX.HOLD_ACTIVE.on die.val) 0).set (HOLDI.OVER.on die.val)
        1).endChange die.val)) ∧
  (∀ (s : State) (die : DieNo),
      s.inReset die.val = false →
      s.is (HMBX.HOLD_ACTIVE.on die.val) = true →
      ((s.set (HMBX.HOLD_ACTIVE.on die.val) 0).set (HOLDI.OVER.on die.val) 1).get (HOLDI.KIND.on die.val) = 3 →
      exec (.holdEnd die) s = .next (
        let u := (s.set (HMBX.HOLD_ACTIVE.on die.val) 0).set (HOLDI.OVER.on die.val) 1
        (u.put (HOLDI.LATE.on die.val) (u.is (CSKIP.SKIPPING.on die.val))).endSlot die.val)) ∧
  (∀ (s : State) (die : DieNo),
      s.inReset die.val = false →
      s.is (HOLDI.F_DONE.on die.val) = true →
      exec (.fDone die) s = .next ((s.set (HOLDI.F_DONE.on die.val) 0).driveOpsel die.val ((s.set (HOLDI.F_DONE.on
        die.val) 0).get (HMBX.RUN_OP.on die.val)) false)) ∧
  (∀ (s : State) (req : Requester) (die : DieNo),
      s.Reaches die.val SCAN.page SCAN.OUT 0 req →
      s.is (SCAN.SCANNING.on die.val) = false →
      s.is (SCAN.WAITING.on die.val) = false →
      s.is (CTXI.CLOSING.on die.val) = false →
      s.get (CTX.STATE.on die.val) = 1 →
      s.atHinge die.val = true →
      s.get (SCAN.SLOT.on die.val) ≠ 0 →
      s.get (SCAN.SLOT.on die.val) < s.get (SCAN.SLOTS.on die.val) →
      s.get (SCAN.REGIONS.on die.val) ≠ 0 →
      exec (.scanOut req die) s = .next (s.startScan die.val 1 (s.get (SCAN.SLOT.on die.val)) (s.get (SCAN.REGIONS.on
        die.val)) true)) ∧
  (∀ (s : State) (req : Requester) (die : DieNo),
      s.Reaches die.val SCAN.page SCAN.OUT 0 req →
      s.is (SCAN.SCANNING.on die.val) = false →
      s.is (SCAN.WAITING.on die.val) = false →
      s.is (CTXI.CLOSING.on die.val) = false →
      s.get (CTX.STATE.on die.val) = 4 →
      s.get (SCAN.SLOT.on die.val) ≠ 0 →
      s.get (SCAN.SLOT.on die.val) < s.get (SCAN.SLOTS.on die.val) →
      s.get (SCAN.REGIONS.on die.val) ≠ 0 →
      exec (.scanOut req die) s = .next ((s.countLimited die.val).startScan die.val 1 (s.get (SCAN.SLOT.on die.val))
        (s.get (SCAN.REGIONS.on die.val)) (s.phaseIs die.val .stopped && !s.is (SCANI.MIDWAY.on die.val)))) ∧
  (∀ (s : State) (req : Requester) (die : DieNo),
      s.Reaches die.val SCAN.page SCAN.OUT 0 req →
      s.is (SCAN.SCANNING.on die.val) = true ∨ s.is (SCAN.WAITING.on die.val) = true →
      exec (.scanOut req die) s = .next (s.regFault die.val SCAN.page SCAN.OUT 0 .accessErr req.val 1)) ∧
  (∀ (s : State) (req : Requester) (die : DieNo),
      s.Reaches die.val SCAN.page SCAN.OUT 0 req →
      s.is (SCAN.SCANNING.on die.val) = false →
      s.is (SCAN.WAITING.on die.val) = false →
      s.get (CTX.STATE.on die.val) = 0 →
      exec (.scanOut req die) s = .next ((s.refuseScan die.val 1).regFault die.val SCAN.page SCAN.OUT 0 .accessErr
        req.val 1)) ∧
  (∀ (s : State) (req : Requester) (die : DieNo) (ecc : Ecc),
      s.Reaches die.val SCAN.page SCAN.IN 0 req →
      s.is (SCAN.SCANNING.on die.val) = false →
      s.is (SCAN.WAITING.on die.val) = false →
      s.get (CTX.STATE.on die.val) ≠ 4 →
      exec (.scanIn req die ecc) s = .next (s.refuseScan die.val 1)) ∧
  (∀ (s : State) (req : Requester) (die : DieNo) (ecc : Ecc),
      s.Reaches die.val SCAN.page SCAN.IN 0 req →
      s.is (SCAN.SCANNING.on die.val) = false →
      s.is (SCAN.WAITING.on die.val) = false →
      s.get (CTX.STATE.on die.val) = 4 →
      s.phaseIs die.val .stopped = true →
      s.is (CTXI.CLOSING.on die.val) = false →
      exec (.scanIn req die ecc) s = .next (
        let c := s.imageRefusal die.val (s.get (SCAN.SLOT.on die.val)) (s.get (SCAN.REGIONS.on die.val)) ecc
        let u := if c = 2 then s else s.readImage die.val (s.get (SCAN.SLOT.on die.val)) ecc
        if c ≠ 0 then u.refuseScan die.val c
        else (u.restore die.val (s.get (SCAN.SLOT.on die.val)) (s.get (SCAN.REGIONS.on die.val))).startScan die.val 4
          (s.get (SCAN.SLOT.on die.val)) (s.get (SCAN.REGIONS.on die.val)) true)) ∧
  (∀ (s : State) (die : DieNo) (cycles : BitVec 24),
      s.inReset die.val = false →
      s.is (SCAN.SCANNING.on die.val) = true →
      s.get (SCANI.KIND.on die.val) = 4 →
      exec (.scanDone die cycles) s = .next (
        let d := die.val
        let a := ((s.set (SCAN.SCANNING.on d) 0).set (SCANI.KIND.on d) 0).count (SCAN.SCAN_CYCLES.on d) cycles.toNat
        let b := ((a.set (SCAN.LAST_SCAN_CYCLES.on d) cycles.toNat).set (SCAN.VERDICT.on d) 0).pageEvent d SCAN.page 8
        ((b.dieEvent d SCAN.page 0x1441).captureNext d).tryFenced d)) ∧
  (∀ (s : State) (die : DieNo) (cycles : BitVec 24),
      s.inReset die.val = false →
      s.is (SCAN.SCANNING.on die.val) = true →
      s.get (SCANI.KIND.on die.val) = 1 →
      exec (.scanDone die cycles) s = .next (
        let d := die.val
        let a := ((s.set (SCAN.SCANNING.on d) 0).set (SCANI.KIND.on d) 0).count (SCAN.SCAN_CYCLES.on d) cycles.toNat
        let b := ((a.set (SCAN.LAST_SCAN_CYCLES.on d) cycles.toNat).set (SCAN.VERDICT.on d) 0).pageEvent d SCAN.page 8
        let c := b.putImage d (s.get (SCANI.SLOT.on d)) (s.get (SCANI.REGIONS.on d)) (b.get (SCANI.QUIESCED.on d) +
          8) 0
        let e := (c.setBit (SCAN.VALID_MAP.on d) (s.get (SCANI.SLOT.on d)) true).dieEvent d SCAN.page 0x1440
        ((e.stayStopped d).captureNext d).tryFenced d)) ∧
  (∀ (s : State) (die : DieNo) (ecc : Ecc),
      s.inReset die.val = false →
      s.get (HOLDI.KIND.on die.val) = 4 →
      s.get (HOLDI.STEP.on die.val) = 4 →
      s.is (SCAN.SCANNING.on die.val) = false →
      exec (.tilePllLock die ecc) s = .next (
        let d := die.val
        let op := s.get (HOLDI.TARGET.on d)
        let a := (s.set (DCLK.TILE_LOCK.on d) 1).switchPoint d op
        let b := if op < s.get (HMBX.RUN_OP.on d) then a.set (HOLDI.F_DONE.on d) 1 else a
        let c := b.imageRefusal d 0 7 ecc
        let e := if c = 2 then b else b.readImage d 0 ecc
        if c ≠ 0 then ((((e.refuseScan d c).dieFault d 2).set (HOLDI.STEP.on d) 7).set (SCAN.FORCING.on d)
          0).captureNext d
        else ((e.restore d 0 7).startScan d 5 0 7 true).set (HOLDI.STEP.on d) 5))

/-- A quiesce that has lasted long enough, with no TAKE left and egress done, shows its cycles, raises QUIESCE_MAX,
counts QUIESCE_OVER with 0x1414 where the key's budget was exceeded, and the hinge begins. A hinge with the shadow ready
swaps the keys, or, with no alternate set for the streams, takes the context to FAULTED with cause 3, or, draining at
its sync hinge, closes the array, unless the die free-runs, which faults it with cause 5. When the skip phase is
complete the changed columns are reloaded, SKIPPING ends, its cycles and SKIP_CHANGES are counted, and the test slot may
end. A released key starts at its beat: the slot tables apply, the waiting runs of its key that are copied are carried,
and the array runs its section. (R222, R226, R255, R257, R258, R318, R323, R363, R386, R387, R394, R431) -/
def Obligations.TheHingeSwapsKeysAndStartsTheNext : Prop :=
  (∀ (s : State) (die : DieNo) (enabled : BitVec 24) (total : BitVec 24) (key : Key),
      s.inReset die.val = false →
      (s.die die.val).active = some key →
      s.phaseIs die.val .quiesce = true →
      s.is (ARRAY.FROZEN.on die.val) = false →
      s.is (SCAN.SCANNING.on die.val) = false →
      4 + max 4 key.lmax ≤ enabled.toNat →
      enabled.toNat ≤ total.toNat →
      s.takesLeft die.val (key.cycles + enabled.toNat) = false →
      s.egressDone die.val = true →
      exec (.quiesceEnd die enabled total) s = .next (
        let d := die.val
        let a := (s.reach d (key.cycles + enabled.toNat)).set (ARRAY.LAST_QUIESCE.on d) enabled.toNat
        let b := a.set (SCAN.QUIESCE_MAX.on d) (max (a.get (SCAN.QUIESCE_MAX.on d)) enabled.toNat)
        (if key.budget * b.get (DCLK.TILE_MHZ.on d) < total.toNat * 1250 then
          (b.count (SCAN.QUIESCE_OVER.on d)).dieEvent d ARRAY.page 0x1414 else b).enterHinge d)) ∧
  (∀ (s : State) (die : DieNo) (waited : BitVec 32) (key : Key),
      (s.die die.val).shadowKey = some key →
      s.mayHinge die.val = true →
      exec (.hinge die waited) s = .next (
        let u := if s.phaseIs die.val .loadWait ∧ ¬ s.is (CTXI.FIRST.on die.val) then
          s.count (ARRAY.LOAD_WAIT_CYCLES.on die.val) waited.toNat else s
        if u.is (STRM.NO_ALT.on die.val) then u.contextFault die.val 3
        else if u.get (CTX.STATE.on die.val) = 3 ∧ u.syncNext die.val key ∧
            u.get (HMBX.SYNC_NOW.on die.val) + 1 = u.get (CTXI.DRAIN_AT.on die.val) then
          if u.is (HASPI.FREE_DUE.on die.val) then (u.set (HASPI.FREE_DUE.on die.val) 0).contextFault die.val 5
          else u.drainClose die.val
        else u.swap die.val key)) ∧
  (∀ (s : State) (die : DieNo) (cycles : BitVec 32) (ecc : Ecc),
      s.inReset die.val = false →
      s.is (CSKIP.SKIPPING.on die.val) = true →
      exec (.skipPhaseComplete die cycles ecc) s = .next (
        let d := die.val
        let changed := s.skipGroups d
        let u := s.each changed (fun u g => u.reloadColumn d (16 * g + u.getShadow (CSKIP.SKIP.at d g)) ecc)
        let v := ((u.set (CSKIP.SKIPPING.on d) 0).set (CSKIP.LAST_PHASE_CYCLES.on d) cycles.toNat).count
          (CSKIP.SKIP_CHANGES.on d)
        (((v.applySkip d changed (s.lockGroups d)).markCarried d 2).takeTests d cycles.toNat true).endSlot d)) ∧
  (∀ (s : State) (die : DieNo) (waited : BitVec 24) (key : Key),
      s.inReset die.val = false →
      (s.die die.val).active = some key →
      s.phaseIs die.val .releaseWait = true →
      s.is (HASPI.RELEASED.on die.val) = true →
      s.is (HMBX.HOLD_ACTIVE.on die.val) = false →
      s.is (LINEI.FENCING.on die.val) = false →
      s.get (HASPI.START.on die.val) + s.get (HMBX.IDLE_BEATS.on die.val) ≤ s.beat die.val →
      exec (.keyStart die waited) s = .next (
        let d := die.val
        let a := ((s.set (HASPI.SENT.on d) 0).set (HASPI.RELEASED.on d) 0).set (ARRAY.LAST_RELEASE_WAIT.on d)
          waited.toNat
        let t := a.set (HASPI.STEP_DUE.on d) 0
        let b := t.releaseTables d (t.get (HMBX.SYNC_NOW.on d)) (t.get (HASPI.START.on d) + t.get (HMBX.IDLE_BEATS.on d))
          key
        let c := b.onDie d (fun x => { x with
          runs := x.runs.map (fun e => (e.1, if e.2.waits ∧ e.2.key = key.number ∧ e.2.copied then
            { e.2 with state := .carried, waits := false } else e.2)) })
        ((c.runRegs d).setPhase d .inSection).tryReady d))

/-- ENABLE of AFECTL written by a management core calibrates both engines; from another requester it is discarded with
ACCESS_ERR. A write of CAL, CMD14 and the period of MC1 each calibrate the engines they name. A calibration whose codes
fit stores the offsets and gains of the eight gains (and on CE1 the open-input currents), ends UNCAL with 0x3401, and
sets ENABLED once neither engine calibrates; else it sets UNCAL with 0x3402. A request queues on its profile's engine; a
second one on a busy port is discarded with ACCESS_ERR; with the clock lost it is answered with the stored result,
abandoned. A round begins with the oldest request when no resource it needs is held; each time an engine has moved MC1
takes its turn with its first round. Loss of the clock on an enabled AFE abandons its rounds with 0x3403; its return
calibrates both engines. (R445, R446, R447, R450, R451, R452, R465, R467, R470, R491, R671, R672) -/
def Obligations.TheAnalogueFrontEndMeasures : Prop :=
  (∀ (s : State) (req : Requester),
      s.inReset clachasel = false →
      req.val = 1 ∨ req.val = 2 ∨ req.val = 3 ∨ req.val = 4 →
      s.enabled clachasel AFECTL.page = false →
      s.resetting clachasel AFECTL.page 0 = false →
      exec (.afeEnable req) s = .next ((s.set (hdr HDR.ENABLE clachasel AFECTL.page.base) 1).calibrateBoth)) ∧
  (∀ (s : State) (req : Requester),
      s.inReset clachasel = false →
      4 < req.val →
      exec (.afeEnable req) s = .next (s.pageFault clachasel AFECTL.page 0 .accessErr req.val (AFECTL.page.base + 8)
        1)) ∧
  (∀ (s : State) (req : Requester) (engines : BitVec 2),
      s.Reaches clachasel AFECTL.page AFECTL.CAL0 0 req →
      exec (.calibrate req engines) s = .next (s.each ((List.range 2).filter (fun e => engines.toNat.testBit e)) (fun
        u e => u.calibrate e req.val))) ∧
  (∀ (s : State) (c : Posted),
      s.CanServe 14 c →
      s.mgmtReady = true →
      exec .afeCalibrate s = .next ((s.each ((List.range 2).filter (fun e => c.value.testBit e)) (fun u e =>
        u.calibrate e 4)).publish c 2)) ∧
  (∀ (s : State) (engine : Fin 2) (zero : List (BitVec 24)) (full : List (BitVec 24)) (tia : List (BitVec 32)),
      s.is (calBusy engine.val) = true →
      exec (.calibrationDone engine zero full tia) s = .next (
        let z := fun g => toSigned 24 (zero.getD g 0).toNat
        let f := fun g => toSigned 24 (full.getD g 0).toNat
        let a := s.set (calBusy engine.val) 0
        let b := (a.set (AFEI.LAST_CAL.clAt engine.val) (a.trayTime / 32768)).noteCalTemp engine.val
        let c := match (List.range 8).find? (fun g => !calFits (z g) (f g)) with
          | some g =>
            ((b.set (ceUncal engine.val) 1).pageEvent clachasel AFECTL.page 9).event AFECTL.page 0x3402 (engine.val +
              256 * g)
          | none =>
            let x := b.each (List.range 8) (fun u g =>
              (u.set (ceOfs engine.val g) (ofSigned 32 (z g))).set (ceGain engine.val g) (gainOf (f g - z g)))
            let y := if engine.val = 1 then
              x.each (List.range 5) (fun u r => u.set (AFECTL.TIA_OFS.clAt r) (tia.getD r 0).toNat) else x
            ((y.set (ceUncal engine.val) 0).pageEvent clachasel AFECTL.page 8).event AFECTL.page 0x3401
        (if ¬ c.is (calBusy 0) ∧ ¬ c.is (calBusy 1) ∧ c.enabled clachasel AFECTL.page then c.set afeEnabled 1
          else c).mc1Turn)) ∧
  (∀ (s : State) (req : Requester) (port : Fin 5) (profile : BitVec 6),
      s.Reaches clachasel (portPage port.val) AFEPORT.REQ port.val req →
      s.is (AFEPORT.BUSY.clAt port.val) = false →
      s.is afeEnabled = true →
      s.is CCLK.AFE_LOCK.cl = true →
      s.is (calBusy (pEngine (s.profileWords profile.toNat))) = false →
      exec (.afeRequest req port profile) s = .next (
        let e := pEngine (s.profileWords profile.toNat)
        ((s.set (AFEPORT.BUSY.clAt port.val) 1).set (AFEPORT.QUEUED.clAt port.val) 1).setEngine e
          { s.engine e with queue := (s.engine e).queue ++ [⟨port.val, profile.toNat, s.clock, false⟩] })) ∧
  (∀ (s : State) (req : Requester) (port : Fin 5) (profile : BitVec 6),
      s.Reaches clachasel (portPage port.val) AFEPORT.REQ port.val req →
      s.is (AFEPORT.BUSY.clAt port.val) = true →
      exec (.afeRequest req port profile) s = .next (s.regFault clachasel (portPage port.val) AFEPORT.REQ port.val
        .accessErr req.val profile.toNat)) ∧
  (∀ (s : State) (req : Requester) (port : Fin 5) (profile : BitVec 6),
      s.Reaches clachasel (portPage port.val) AFEPORT.REQ port.val req →
      s.is (AFEPORT.BUSY.clAt port.val) = false →
      s.is afeEnabled = true →
      s.is CCLK.AFE_LOCK.cl = false →
      exec (.afeRequest req port profile) s = .next (s.answerStale port.val profile.toNat flagAbandoned)) ∧
  (∀ (s : State) (engine : Fin 2) (q : AfeRequest) (rest : List AfeRequest),
      (s.engine engine.val).queue = q :: rest →
      (s.engine engine.val).round = none →
      s.is (calBusy engine.val) = false →
      s.is CCLK.AFE_LOCK.cl = true →
      (s.engine (1 - engine.val)).round = none →
      (s.engine (1 - engine.val)).queue = [] →
      exec (.roundStart engine) s = .next ((s.beginRound engine.val q rest).mc1Turn)) ∧
  (∀ (s : State) (engine : Fin 2),
      (s.engine engine.val).queue = [] →
      exec (.roundStart engine) s = .next s.mc1Turn) ∧
  (∀ (s : State) (engine : Fin 2) (code : BitVec 32) (outA : Bool) (outB : Bool) (r : AfeRound) (ph : AfePhase) (rest :
  List AfePhase),
      (s.engine engine.val).round = some r →
      r.plan = ph :: rest →
      exec (.conversionDone engine code outA outB) s = .next (s.conversion engine.val r ph rest (toSigned 32
        code.toNat) outA outB).mc1Turn) ∧
  (∀ s : State,
      s.is CCLK.AFE_LOCK.cl = true →
      (s.set CCLK.AFE_LOCK.cl 0).enabled clachasel AFECTL.page = true →
      exec .afeClockLost s = .next ((((s.set CCLK.AFE_LOCK.cl 0).pageEvent clachasel AFECTL.page 10).event
        AFECTL.page 0x3403).abandon)) ∧
  (∀ s : State,
      s.is CCLK.AFE_LOCK.cl = true →
      (s.set CCLK.AFE_LOCK.cl 0).enabled clachasel AFECTL.page = false →
      exec .afeClockLost s = .next (s.set CCLK.AFE_LOCK.cl 0)) ∧
  (∀ (s : State) (engine : Fin 2),
      s.mcRuns 1 = true →
      s.is afeEnabled = true →
      3600 ≤ s.trayTime / 32768 - s.get (AFEI.LAST_CAL.clAt engine.val) →
      s.is (calBusy (1 - engine.val)) = false →
      s.is (calReg (1 - engine.val)).cl = false →
      exec (.afeCalPeriod engine) s = .next (s.calibrate engine.val 2)) ∧
  (∀ s : State,
      s.is CCLK.AFE_LOCK.cl = false →
      s.enabled clachasel AFECTL.page = true →
      exec .afePllLock s = .next ((s.set CCLK.AFE_LOCK.cl 1).calibrateBoth))

/-- A FEED for a sensor that is off or beyond 47 is discarded with outcome 4; from the wrong feeder, 3 with ACCESS_ERR;
not later than the last sample, 5; with AFE flags STALE or NO_DATA, 2; any other is counted and evaluated as the sample.
MC2 makes no feed of an HBM readout whose die has no power. A sensor past MAX_AGE goes to STALE with 0x3504. A zone that
asks steps the idle beats up by IDLE_STEP to at most the cap, and when every zone has been cool long enough they step
down. A zone at TRIP in RAILS_UP or later fences its dies. A watchdog that has reached 0 fires for a core that runs, and
no other. A publish swap takes the input's measurement, counts PUB_SEQ, stamps the tray time, publishes the summaries
and the values of one moment and clears STALE; with MC3 stopped nothing is published. (R106, R153, R155, R160, R161,
R477, R478, R482, R487, R493, R494, R502, R589) -/
def Obligations.TemperaturesAreFedAndActedOn : Prop :=
  (∀ (s : State) (req : Requester) (window : Fin 2),
      s.Reaches clachasel TSTAT.page TSTAT.F_FEED window.val req →
      48 ≤ s.get (TSTAT.F_SEL.clAt window.val) →
      exec (.feed req window) s = .next ((s.set (TSTAT.F_OUTCOME.clAt window.val) 4).count TSTAT.DISCARDS.cl)) ∧
  (∀ (s : State) (req : Requester) (window : Fin 2) (k : Nat),
      s.Reaches clachasel TSTAT.page TSTAT.F_FEED window.val req →
      k = s.get (TSTAT.F_SEL.clAt window.val) →
      k < 48 →
      window.val = 0 ∨ s.mc2Feeds k = true →
      s.get (TCFG.FEEDER.clAt k) ≠ window.val + 1 →
      (s.regFault clachasel TSTAT.page TSTAT.F_FEED window.val .accessErr req.val 1).is (TCFG.EN.clAt k) = true →
      exec (.feed req window) s = .next ((((s.regFault clachasel TSTAT.page TSTAT.F_FEED window.val .accessErr
        req.val 1).set (TSTAT.F_OUTCOME.clAt window.val) 3).count TSTAT.DISCARDS.cl))) ∧
  (∀ (s : State) (req : Requester) (window : Fin 2) (k : Nat) (v : Int),
      s.Reaches clachasel TSTAT.page TSTAT.F_FEED window.val req →
      k = s.get (TSTAT.F_SEL.clAt window.val) →
      k < 48 →
      window.val = 0 ∨ s.mc2Feeds k = true →
      s.get (TCFG.FEEDER.clAt k) = window.val + 1 →
      s.is (TCFG.EN.clAt k) = true →
      s.get (TEMPI.SAMPLE.clAt k) ≤ s.pair (TSTAT.F_TIME_LO.clAt window.val) (TSTAT.F_TIME_HI.clAt window.val) →
      s.get (TSTAT.F_AFE_FLAGS.clAt window.val) % 4 = 0 →
      toSixteenths (s.get (TSTAT.F_VALUE.clAt window.val)) = some v →
      exec (.feed req window) s = .next (
        let u := (s.set (TSTAT.F_OUTCOME.clAt window.val) 1).count TSTAT.FEEDS.cl
        let w := if window.val = 0 then u.setBit TEMPI.FED.cl k true else u
        (w.sample k v (s.get (TSTAT.F_AFE_FLAGS.clAt window.val)) (w.is (TSTAT.F_SRC_FAULT.clAt window.val))
          (s.pair (TSTAT.F_TIME_LO.clAt window.val) (TSTAT.F_TIME_HI.clAt window.val))).calBaseline)) ∧
  (∀ (s : State) (req : Requester) (window : Fin 2) (k : Nat),
      s.Reaches clachasel TSTAT.page TSTAT.F_FEED window.val req →
      k = s.get (TSTAT.F_SEL.clAt window.val) →
      k < 48 →
      window.val = 0 ∨ s.mc2Feeds k = true →
      s.get (TCFG.FEEDER.clAt k) = window.val + 1 →
      s.is (TCFG.EN.clAt k) = true →
      s.pair (TSTAT.F_TIME_LO.clAt window.val) (TSTAT.F_TIME_HI.clAt window.val) < s.get (TEMPI.SAMPLE.clAt k) →
      exec (.feed req window) s = .next ((s.set (TSTAT.F_OUTCOME.clAt window.val) 5).count TSTAT.DISCARDS.cl)) ∧
  (∀ (s : State) (req : Requester) (window : Fin 2) (k : Nat),
      s.Reaches clachasel TSTAT.page TSTAT.F_FEED window.val req →
      k = s.get (TSTAT.F_SEL.clAt window.val) →
      k < 48 →
      window.val = 0 ∨ s.mc2Feeds k = true →
      s.get (TCFG.FEEDER.clAt k) = window.val + 1 →
      s.is (TCFG.EN.clAt k) = true →
      s.get (TEMPI.SAMPLE.clAt k) ≤ s.pair (TSTAT.F_TIME_LO.clAt window.val) (TSTAT.F_TIME_HI.clAt window.val) →
      s.get (TSTAT.F_AFE_FLAGS.clAt window.val) % 4 ≠ 0 →
      exec (.feed req window) s = .next ((s.set (TSTAT.F_OUTCOME.clAt window.val) 2).count TSTAT.DISCARDS.cl)) ∧
  (∀ (s : State) (req : Requester) (window : Fin 2),
      s.Reaches clachasel TSTAT.page TSTAT.F_FEED window.val req →
      window.val = 1 →
      s.mc2Feeds (s.get (TSTAT.F_SEL.clAt window.val)) = false →
      exec (.feed req window) s = .next s) ∧
  (∀ (s : State) (sensor : Fin 48),
      2 ≤ s.sensorState sensor.val →
      s.sensorState sensor.val ≠ 5 →
      s.get (TEMPI.ACCEPT.clAt sensor.val) ≠ 0 →
      s.get (TCFG.MAX_AGE.clAt sensor.val) * 32768 < (s.trayTime + 1 - s.get (TEMPI.ACCEPT.clAt sensor.val)) * 1000 →
      exec (.sensorStale sensor) s = .next ((((s.sensorTo sensor.val 5).event TSTAT.page 0x3504).showCount
        sensor.val).evaluate)) ∧
  (∀ (s : State) (zone : Fin 16),
      s.mcRuns 1 = true →
      s.mcRuns 0 = true →
      s.asksStep zone.val = true →
      s.stepPending = false →
      s.is OPCTL.MODE.cl = true →
      exec (.throttleStep zone) s = .next (s.postStep zone.val (min (((List.range 16).filter s.asksStep).foldl (fun m
        y => max m (s.get (TZONE.IDLE_MAX.clAt y))) 0) (s.get TEMPI.IDLE.cl + s.get (TZONE.IDLE_STEP.clAt zone.val)))
        0x3513)) ∧
  (∀ (s : State) (zone : Fin 16),
      s.mcRuns 1 = true →
      s.mcRuns 0 = true →
      s.throttles zone.val = true →
      s.get TEMPI.IDLE.cl ≠ 0 →
      s.stepPending = false →
      s.is OPCTL.MODE.cl = true →
      (∀ y ∈ List.range 16, (!s.throttles y || s.heldFor (TEMPI.COOL_SINCE.clAt y) (s.get (TZONE.RELEASE_MS.clAt y) *
        1000)) = true) →
      exec (.throttleRelease zone) s = .next (s.postStep zone.val (s.get TEMPI.IDLE.cl - s.get (TZONE.IDLE_STEP.clAt
        zone.val)) 0x3514)) ∧
  (∀ (s : State) (zone : Fin 16),
      s.mcRuns 0 = true →
      s.is (TZONE.ZEN.clAt zone.val) = true →
      s.get (TZONE.LEVEL.clAt zone.val) = 3 →
      3 ≤ s.get CSYS.TRAY_STATE.cl →
      exec (.zoneTripFence zone) s = .next (s.each (diesOf (if s.get (TZONE.DIES.clAt zone.val) = 0 then 255 else
        s.get (TZONE.DIES.clAt zone.val))) (fun u n => u.fence n 1))) ∧
  (∀ (s : State) (k : McNo),
      s.mcRuns k.val = true →
      s.watchLeft (watchMc k.val) = 0 →
      exec (.watchdogFire (.mc k)) s = .next (s.mcFires k.val)) ∧
  (∀ (s : State) (d : DieNo) (k : Fin 2),
      s.inReset d.val = false →
      s.is (wRun d.val k.val) = true →
      s.watchLeft (watchW d.val k.val) = 0 →
      exec (.watchdogFire (.warden d k)) s = .next (s.wardenFires d.val k.val)) ∧
  (∀ (s : State) (k : McNo),
      s.mcRuns k.val = false ∨ s.watchLeft (watchMc k.val) ≠ 0 →
      exec (.watchdogFire (.mc k)) s = .next s) ∧
  (∀ (s : State) (d : DieNo) (k : Fin 2),
      s.is (wRun d.val k.val) = false ∨ s.watchLeft (watchW d.val k.val) ≠ 0 →
      exec (.watchdogFire (.warden d k)) s = .next s) ∧
  (∀ (s : State) (vin : BitVec 16) (iin : BitVec 8),
      s.inReset clachasel = false →
      ((s.set PFAIL.VIN.cl vin.toNat).set HLS.IIN.cl iin.toNat).mcRuns 3 = true →
      exec (.publishSwap vin iin) s = .next (
        let t := (s.set PFAIL.VIN.cl vin.toNat).set HLS.IIN.cl iin.toNat
        let a := (t.wrap EMU.PUB_SEQ.cl).setPair EMU.PUB_TIME_LO.cl EMU.PUB_TIME_HI.cl t.trayTime
        let b := a.setPair EMU.BUNDLE_ID_LO.cl EMU.BUNDLE_ID_HI.cl (t.pair BLOAD.BUNDLE_ID_LO.cl
          BLOAD.BUNDLE_ID_HI.cl)
        let c := ((b.set EMU.TRAY_STATE.cl (t.get CSYS.TRAY_STATE.cl)).set EMU.STBY_CAUSE.cl (t.get
          CSYS.STBY_CAUSE.cl)).set EMU.CTX_NUM.cl (t.get POWI.CTX_NUM.cl)
        let d := c.each (List.range 20) (fun u k => u.set (EMU.VAL.clAt k) (t.get (FWI.VAL.clAt k)))
        let e := (d.publishWords EMU.SUM_TEMP 0 t.sensorWords).publishWords EMU.SUM_TEMP 48 t.zoneWords
        let f := (e.publishCooling.publishWords EMU.SUM_OP 0 t.opWords).publishWords EMU.SUM_EVREC 0 t.recorderWords
        (f.publishWords EMU.SUM_TEST 0 t.testWords).set EMU.STALE.cl 0)) ∧
  (∀ (s : State) (vin : BitVec 16) (iin : BitVec 8),
      s.inReset clachasel = false →
      ((s.set PFAIL.VIN.cl vin.toNat).set HLS.IIN.cl iin.toNat).mcRuns 3 = false →
      exec (.publishSwap vin iin) s = .next ((s.set PFAIL.VIN.cl vin.toNat).set HLS.IIN.cl iin.toNat))

/-- FENCE_SET and TRIP_SET assert the lines of each die of their mask. TRIP_REL releases each die that is UP, tripped
and not fenced; a mask with a die that is not UP, or is fenced, faults the write once. FENCE_n reaching a die fences its
links and discards its waiting requests. TRIP_n at a die resets it, and MC2 returns its sensor to NO_SAMPLE. A thermal
alert is latched, counted, recorded as 0x4101 and drives cooling to full, after the record of a die fault that rose and
is not yet latched; held for TA_FENCE it fences with 0x4103, for TA_TRIP it trips with 0x4104; its release clears both
marks. A die fault is latched by the supervisor and by MC2 and fences with 0x4102. A fence not answered within FENCE_TO
trips with 0x4111. A write of a limit register writes each of its limits; spent ones are left with LOCK_VIOL. FORM_GO
starts the form change, or is refused with its code, 0x2042 and a fault. A free semaphore is granted; one held by
another core reads BUSY; only its owner frees it. (R26, R39, R42, R58, R477, R489, R490, R633, R635, R637, R641, R647,
R652) -/
def Obligations.LinesAlertsAndSemaphoresAreDriven : Prop :=
  (∀ (s : State) (req : Requester) (mask : BitVec 8),
      s.Reaches clachasel FENCE.page FENCE.FENCE_SET 0 req →
      exec (.fenceSet req mask) s = .next ((s.each (diesOf mask.toNat) (fun u n => u.fenceLine n 1)).checkService)) ∧
  (∀ (s : State) (req : Requester) (mask : BitVec 8),
      s.Reaches clachasel FENCE.page FENCE.TRIP_SET 0 req →
      exec (.tripSet req mask) s = .next ((s.each (diesOf mask.toNat) (fun u n => u.tripLine n 1)).checkService)) ∧
  (∀ (s : State) (req : Requester) (mask : BitVec 8),
      s.Reaches clachasel FENCE.page FENCE.TRIP_REL 0 req →
      exec (.tripRel req mask) s = .next (
        let bad := (diesOf mask.toNat).any (fun n => s.dieState n != 2 || s.fenced n)
        let t := if bad then s.regFault clachasel FENCE.page FENCE.TRIP_REL 0 .accessErr req.val (mask.toNat * 256) else s
        t.each (diesOf mask.toNat) (fun u n =>
          if u.dieState n ≠ 2 ∨ u.fenced n ∨ ¬ u.tripped n then u
          else if u.is (LINEI.THERM.clAt n) then u.heldAtRelease n
          else u.releaseTrip n))) ∧
  (∀ (s : State) (die : DieNo),
      s.inReset die.val = false →
      s.fenced die.val = true →
      s.is (LINEI.FENCING.on die.val) = false →
      exec (.fenceAssert die) s = .next ((((s.set (LINEI.FENCING.on die.val) 1).fenceLinks die.val).discardAccepted
        die.val).tryFenced die.val)) ∧
  (∀ (s : State) (die : DieNo),
      s.tripped die.val = true →
      (s.dieReset die.val).mcRuns 2 = true →
      exec (.tripAssert die) s = .next (((s.dieReset die.val).clearSensor (16 + die.val)).evaluate)) ∧
  (∀ (s : State) (die : DieNo),
      s.tripped die.val = true →
      (s.dieReset die.val).mcRuns 2 = false →
      exec (.tripAssert die) s = .next (s.dieReset die.val)) ∧
  (∀ (s : State) (die : DieNo),
      s.is (LINEI.THERM.clAt die.val) = false →
      s.get RECI.RUNS.cl ≠ 0 →
      exec (.thermAlert die) s = .next (
        let t := if s.inReset die.val = false ∧ s.get (DFAULT.CAUSE.on die.val) ≠ 0 ∧
            s.is (LINEI.FAULT_LATCH.clAt die.val) = false then
            ((((s.set (LINEI.FAULT_LATCH.clAt die.val) 1).set (LINEI.FAULT_MC2.clAt die.val) 1).event HLS.page
              0x4102).fence die.val 2) else s
        let a := (t.set (LINEI.THERM.clAt die.val) 1).set (LINEI.THERM_SINCE.clAt die.val) (t.clock + 1)
        let b := (a.setBit TALERT.ALERT_NOW.cl die.val true).setBit TALERT.ALERT_SEEN.cl die.val true
        let c := (b.count (TALERT.ALERTS.clAt die.val)).setBit HLS.TA_ACTIVE.cl die.val true
        (c.event HLS.page 0x4101).coolNow)) ∧
  (∀ (s : State) (die : DieNo),
      s.is (LINEI.THERM.clAt die.val) = true ∨ s.get RECI.RUNS.cl = 0 →
      exec (.thermAlert die) s = .next (s)) ∧
  (∀ (s : State) (die : DieNo),
      s.is (LINEI.THERM.clAt die.val) = true →
      s.fenced die.val = false →
      s.heldFor (LINEI.THERM_SINCE.clAt die.val) (s.get HLS.TA_FENCE.cl * 1000) = true →
      exec (.thermAlertFence die) s = .next ((s.event HLS.page 0x4103).fence die.val 3)) ∧
  (∀ (s : State) (die : DieNo),
      s.is (LINEI.THERM.clAt die.val) = true →
      s.tripped die.val = false →
      s.heldFor (LINEI.THERM_SINCE.clAt die.val) (s.get HLS.TA_TRIP.cl * 1000) = true →
      exec (.thermAlertTrip die) s = .next ((s.event HLS.page 0x4104).trip die.val 3)) ∧
  (∀ (s : State) (die : DieNo),
      s.is (LINEI.THERM.clAt die.val) = true →
      exec (.thermAlertRelease die) s = .next (
        let u := (s.set (LINEI.THERM.clAt die.val) 0).set (LINEI.THERM_SINCE.clAt die.val) 0
        ((u.setBit TALERT.ALERT_NOW.cl die.val false).setBit HLS.TA_ACTIVE.cl die.val false).coolNow)) ∧
  (∀ (s : State) (die : DieNo),
      s.is (LINEI.THERM.clAt die.val) = false →
      exec (.thermAlertRelease die) s = .next s) ∧
  (∀ (s : State) (die : DieNo),
      s.inReset die.val = false →
      s.get (DFAULT.CAUSE.on die.val) ≠ 0 →
      s.is (LINEI.FAULT_LATCH.clAt die.val) = false →
      exec (.dieFault die) s = .next ((((s.set (LINEI.FAULT_LATCH.clAt die.val) 1).set (LINEI.FAULT_MC2.clAt
        die.val) 1).event HLS.page 0x4102).fence die.val 2)) ∧
  (∀ (s : State) (die : DieNo),
      s.get (DFAULT.CAUSE.on die.val) = 0 ∨ s.is (LINEI.FAULT_LATCH.clAt die.val) = true →
      exec (.dieFault die) s = .next s) ∧
  (∀ (s : State) (die : DieNo),
      s.fenced die.val = true →
      s.bit FENCE.FENCED.cl die.val = false →
      s.tripped die.val = false →
      s.heldFor (LINEI.FENCE_SINCE.clAt die.val) (s.get HLS.FENCE_TO.cl * 1000) = true →
      exec (.fenceTo die) s = .next ((s.trip die.val 2).event FENCE.page 0x4111)) ∧
  (∀ (s : State) (req : Requester) (word : Fin 4) (value : BitVec 32),
      s.inReset clachasel = false →
      (∀ k ∈ limitsOf word.val, s.limitBar k req.val = none) →
      exec (.limitWrite req word value) s = .next (s.each (limitsOf word.val) (fun u k => u.writeLimit k
        value.toNat))) ∧
  (∀ (s : State) (req : Requester) (word : Fin 4) (value : BitVec 32),
      s.inReset clachasel = false →
      (∀ k ∈ limitsOf word.val, s.limitBar k req.val = some .lockViol) →
      exec (.limitWrite req word value) s = .next (s.regFault clachasel HLS.page (limitField ((limitsOf
        word.val).headD 0)) 0 .lockViol req.val value.toNat)) ∧
  (∀ (s : State) (req : Requester) (die : DieNo),
      s.Reaches die.val DFAULT.page DFAULT.FORM_GO 0 req →
      s.formRefusal die.val = 0 →
      exec (.formGo req die) s = .next (((s.set (DFAULT.FORM_STATE.on die.val) 1).set (DFAULT.FORM_REFUSE.on die.val)
        0).recheckRuns die.val)) ∧
  (∀ (s : State) (req : Requester) (die : DieNo),
      s.Reaches die.val DFAULT.page DFAULT.FORM_GO 0 req →
      s.formRefusal die.val ≠ 0 →
      exec (.formGo req die) s = .next (
        let c := s.formRefusal die.val
        let u := ((s.set (DFAULT.FORM_STATE.on die.val) 3).set (DFAULT.FORM_REFUSE.on die.val) c).dieEvent die.val
          DFAULT.page 0x2042
        u.regFault die.val DFAULT.page DFAULT.FORM_GO 0 .accessErr req.val 1)) ∧
  (∀ (s : State) (req : Requester) (core : McNo),
      s.Reaches clachasel OWN.page OWN.CLAIM core.val req →
      s.is (OWN.SEM_HELD.clAt (s.get (OWN.SEM.clAt core.val))) = false →
      exec (.semClaim req core) s = .next (((s.set (OWN.SEM_HELD.clAt (s.get (OWN.SEM.clAt core.val))) 1).set
        (OWN.SEM_OWNER.clAt (s.get (OWN.SEM.clAt core.val))) (core.val + 1)).set (OWN.RESULT.clAt core.val) 1)) ∧
  (∀ (s : State) (req : Requester) (core : McNo),
      s.Reaches clachasel OWN.page OWN.CLAIM core.val req →
      s.is (OWN.SEM_HELD.clAt (s.get (OWN.SEM.clAt core.val))) = true →
      s.get (OWN.SEM_OWNER.clAt (s.get (OWN.SEM.clAt core.val))) ≠ core.val + 1 →
      exec (.semClaim req core) s = .next (s.set (OWN.RESULT.clAt core.val) 2)) ∧
  (∀ (s : State) (req : Requester) (core : McNo),
      s.Reaches clachasel OWN.page OWN.RELEASE core.val req →
      s.is (OWN.SEM_HELD.clAt (s.get (OWN.SEM.clAt core.val))) = true →
      s.get (OWN.SEM_OWNER.clAt (s.get (OWN.SEM.clAt core.val))) = core.val + 1 →
      exec (.semRelease req core) s = .next (((s.set (OWN.SEM_HELD.clAt (s.get (OWN.SEM.clAt core.val))) 0).set
        (OWN.SEM_OWNER.clAt (s.get (OWN.SEM.clAt core.val))) 0).set (OWN.RESULT.clAt core.val) 3)) ∧
  (∀ (s : State) (req : Requester) (core : McNo),
      s.Reaches clachasel OWN.page OWN.RELEASE core.val req →
      s.get (OWN.SEM_OWNER.clAt (s.get (OWN.SEM.clAt core.val))) ≠ core.val + 1 →
      exec (.semRelease req core) s = .next (s))

/-- A frame in error is counted and recorded, and so is one whose CRC is wrong; with the core PLL lost nothing is
received. A good frame for the tray feeds the silence timer; PING is answered by hardware, a type outside the table with
UNKNOWN_TYPE (7), and the MC3 types are queued. Served, STATUS answers the status payload in MGMT_READY or later, else
3; a frame of another length is out of range (4). OP_SET, THROTTLE and TEST_SLOT read 3 before SERVICE conditions hold,
5 in MODE 1, 4 for fields out of range, else they are posted to the dies. TIME addressed to the tray reads 4, before
MGMT_READY 3; broadcast, more than 32 ticks ahead it loads the calendar with 0x3902, more than 32 behind it slews with
0x3903, between them it does neither. SET_TAG outside MGMT_READY reads 3, for another tray 9, a second time 8, with tag
0 4, else it writes the tag once. RESET_ARM and RESET_FIRE with the guard act as requester 0x020; with another guard
they read 9. (R121, R138, R601, R602, R603, R604, R605, R606, R607, R608, R616, R619, R621) -/
def Obligations.SupervisorFramesAreReceivedAndServed : Prop :=
  (∀ (s : State) (framing : Bool),
      s.get RECI.RUNS.cl ≠ 0 →
      s.get CCLK.CORE_LOCK.cl ≠ 0 →
      exec (.frameError framing) s = .next (s.badFrame framing)) ∧
  (∀ (s : State) (framing : Bool),
      s.get RECI.RUNS.cl = 0 ∨ s.get CCLK.CORE_LOCK.cl = 0 →
      exec (.frameError framing) s = .next s) ∧
  (∀ (s : State) (frame : Frame),
      s.get RECI.RUNS.cl ≠ 0 →
      s.get CCLK.CORE_LOCK.cl ≠ 0 →
      frame.payload.length ≤ 240 →
      frame.crc.toNat ≠ frameSum frame →
      frame.type.toNat = 1 →
      exec (.ping frame) s = .next (s.badFrame false)) ∧
  (∀ (s : State) (frame : Frame),
      s.CanReceive frame →
      frame.type.toNat = 1 →
      exec (.ping frame) s = .next (s.validFrame.reply frame s.validFrame.pingReply)) ∧
  (∀ (s : State) (frame : Frame),
      s.CanReceive frame →
      10 ≤ frame.type.toNat →
      exec (.ping frame) s = .next (s.validFrame.replyCode frame 7)) ∧
  (∀ (s : State) (f : Frame),
      s.CanReceive f →
      f.type.toNat = 2 →
      exec (.status (.received f)) s = .next (s.validFrame.queueFrame f)) ∧
  (∀ (s : State) (x : RxFrame),
      s.CanAnswer 2 0 x →
      s.mgmtReady = true →
      exec (.status .served) s = .next (s.mc3Reply s.statusReply)) ∧
  (∀ (s : State) (x : RxFrame),
      s.CanAnswer 2 0 x →
      s.mgmtReady = false →
      exec (.status .served) s = .next (s.mc3Code 3)) ∧
  (∀ (s : State) (x : RxFrame),
      s.CanAnswer 2 x.frame.payload.length x →
      x.frame.payload.length ≠ 0 →
      exec (.status .served) s = .next (s.mc3Code 4)) ∧
  (∀ (s : State) (f : Frame),
      s.CanReceive f →
      f.type.toNat = 3 →
      exec (.opSet (.received f)) s = .next (s.validFrame.queueFrame f)) ∧
  (∀ (s : State) (x : RxFrame),
      s.CanAnswer 3 12 x →
      3 ≤ s.get CSYS.TRAY_STATE.cl →
      s.is SUPV.SILENT.cl = false →
      s.mcRuns 0 = true →
      s.is OPCTL.MODE.cl = false →
      frameLe x.frame 4 1 = 1 ∨ frameLe x.frame 4 1 = 4 →
      frameLe x.frame 5 1 < 8 →
      frameLe x.frame 9 3 = 0 →
      exec (.opSet .served) s = .next (
        let f := x.frame
        s.serveRequest x (frameLe f 4 1) (frameLe f 0 4) (frameLe f 8 1) (fun u =>
          u.each (diesOf (u.get CSYS.DIE_INSERV.cl)) (fun u d =>
            (u.mc0Post d (frameLe f 4 1) (frameLe f 0 4) (frameLe f 5 1 + frameLe f 6 2 * 65536) (frameLe f 8
              1)).1)))) ∧
  (∀ (s : State) (x : RxFrame),
      s.CanAnswer 3 12 x →
      s.get CSYS.TRAY_STATE.cl < 3 ∨ s.is SUPV.SILENT.cl = true ∨ s.mcRuns 0 = false →
      exec (.opSet .served) s = .next (s.mc3Code 3)) ∧
  (∀ (s : State) (x : RxFrame),
      s.CanAnswer 3 12 x →
      3 ≤ s.get CSYS.TRAY_STATE.cl →
      s.is SUPV.SILENT.cl = false →
      s.mcRuns 0 = true →
      s.is OPCTL.MODE.cl = true →
      exec (.opSet .served) s = .next (s.mc3Code 5)) ∧
  (∀ (s : State) (x : RxFrame),
      s.CanAnswer 3 12 x →
      3 ≤ s.get CSYS.TRAY_STATE.cl →
      s.is SUPV.SILENT.cl = false →
      s.mcRuns 0 = true →
      s.is OPCTL.MODE.cl = false →
      (frameLe x.frame 4 1 ≠ 1 ∧ frameLe x.frame 4 1 ≠ 4) ∨ 8 ≤ frameLe x.frame 5 1 ∨ frameLe x.frame 9 3 ≠ 0 →
      exec (.opSet .served) s = .next (s.mc3Code 4)) ∧
  (∀ (s : State) (f : Frame),
      s.CanReceive f →
      f.type.toNat = 4 →
      exec (.throttleFrame (.received f)) s = .next (s.validFrame.queueFrame f)) ∧
  (∀ (s : State) (x : RxFrame),
      s.CanAnswer 4 8 x →
      3 ≤ s.get CSYS.TRAY_STATE.cl →
      s.is SUPV.SILENT.cl = false →
      s.mcRuns 0 = true →
      s.is OPCTL.MODE.cl = false →
      frameLe x.frame 5 3 = 0 →
      exec (.throttleFrame .served) s = .next (
        let f := x.frame
        s.serveRequest x 2 (frameLe f 0 4) 0 (fun u =>
          let code := if frameLe f 4 1 < u.get TEMPI.IDLE.cl then 0x3514 else 0x3513
          let v := u.each (diesOf (u.get CSYS.DIE_INSERV.cl)) (fun u d =>
            (u.mc0Post d 2 (frameLe f 0 4) (frameLe f 4 1 * 256) 0).1)
          ((v.set TEMPI.IDLE.cl (frameLe f 4 1)).wrap TEMPI.STEPS.cl).event TZONE.page code))) ∧
  (∀ (s : State) (x : RxFrame),
      s.CanAnswer 4 8 x →
      s.get CSYS.TRAY_STATE.cl < 3 ∨ s.is SUPV.SILENT.cl = true ∨ s.mcRuns 0 = false →
      exec (.throttleFrame .served) s = .next (s.mc3Code 3)) ∧
  (∀ (s : State) (x : RxFrame),
      s.CanAnswer 4 8 x →
      3 ≤ s.get CSYS.TRAY_STATE.cl →
      s.is SUPV.SILENT.cl = false →
      s.mcRuns 0 = true →
      s.is OPCTL.MODE.cl = true →
      exec (.throttleFrame .served) s = .next (s.mc3Code 5)) ∧
  (∀ (s : State) (x : RxFrame),
      s.CanAnswer 4 8 x →
      3 ≤ s.get CSYS.TRAY_STATE.cl →
      s.is SUPV.SILENT.cl = false →
      s.mcRuns 0 = true →
      s.is OPCTL.MODE.cl = false →
      frameLe x.frame 5 3 ≠ 0 →
      exec (.throttleFrame .served) s = .next (s.mc3Code 4)) ∧
  (∀ (s : State) (f : Frame),
      s.CanReceive f →
      f.type.toNat = 5 →
      exec (.testSlotFrame (.received f)) s = .next (s.validFrame.queueFrame f)) ∧
  (∀ (s : State) (x : RxFrame),
      s.CanAnswer 5 8 x →
      3 ≤ s.get CSYS.TRAY_STATE.cl →
      s.is SUPV.SILENT.cl = false →
      s.mcRuns 0 = true →
      s.is OPCTL.MODE.cl = false →
      frameLe x.frame 6 2 = 0 →
      exec (.testSlotFrame .served) s = .next (
        s.serveRequest x 3 (frameLe x.frame 0 4) 0 (fun u => u.postSlots (frameLe x.frame 0 4) (frameLe x.frame 4
          2)))) ∧
  (∀ (s : State) (x : RxFrame),
      s.CanAnswer 5 8 x →
      s.get CSYS.TRAY_STATE.cl < 3 ∨ s.is SUPV.SILENT.cl = true ∨ s.mcRuns 0 = false →
      exec (.testSlotFrame .served) s = .next (s.mc3Code 3)) ∧
  (∀ (s : State) (x : RxFrame),
      s.CanAnswer 5 8 x →
      3 ≤ s.get CSYS.TRAY_STATE.cl →
      s.is SUPV.SILENT.cl = false →
      s.mcRuns 0 = true →
      s.is OPCTL.MODE.cl = true →
      exec (.testSlotFrame .served) s = .next (s.mc3Code 5)) ∧
  (∀ (s : State) (x : RxFrame),
      s.CanAnswer 5 8 x →
      3 ≤ s.get CSYS.TRAY_STATE.cl →
      s.is SUPV.SILENT.cl = false →
      s.mcRuns 0 = true →
      s.is OPCTL.MODE.cl = false →
      frameLe x.frame 6 2 ≠ 0 →
      exec (.testSlotFrame .served) s = .next (s.mc3Code 4)) ∧
  (∀ (s : State) (f : Frame),
      s.CanReceive f →
      f.type.toNat = 6 →
      exec (.time (.received f)) s = .next (s.validFrame.queueFrame f)) ∧
  (∀ (s : State) (x : RxFrame),
      s.CanAnswer 6 8 x →
      x.frame.dst ≠ 0x7F →
      exec (.time .served) s = .next (s.mc3Code 4)) ∧
  (∀ (s : State) (x : RxFrame),
      s.CanAnswer 6 8 x →
      x.frame.dst = 0x7F →
      s.mgmtReady = true →
      x.endTime + 32 < frameLe x.frame 0 8 →
      exec (.time .served) s = .next (
        let n := frameLe x.frame 0 8 - x.endTime
        let u := s.mc3Code 0
        (u.loadCalendar 4 (u.trayTime + n)).event CAL.page 0x3902 n)) ∧
  (∀ (s : State) (x : RxFrame),
      s.CanAnswer 6 8 x →
      x.frame.dst = 0x7F →
      s.mgmtReady = true →
      frameLe x.frame 0 8 + 32 < x.endTime →
      exec (.time .served) s = .next (
        let n := x.endTime - frameLe x.frame 0 8
        ((s.mc3Code 0).set CAL.SLEW.cl (min n 0xFFFFFF)).event CAL.page 0x3903 n)) ∧
  (∀ (s : State) (x : RxFrame),
      s.CanAnswer 6 8 x →
      x.frame.dst = 0x7F →
      s.mgmtReady = true →
      frameLe x.frame 0 8 ≤ x.endTime + 32 →
      x.endTime ≤ frameLe x.frame 0 8 + 32 →
      exec (.time .served) s = .next (s.mc3Code 0)) ∧
  (∀ (s : State) (x : RxFrame),
      s.CanAnswer 6 8 x →
      x.frame.dst = 0x7F →
      s.mgmtReady = false →
      exec (.time .served) s = .next (s.mc3Code 3)) ∧
  (∀ (s : State) (f : Frame),
      s.CanReceive f →
      f.type.toNat = 7 →
      exec (.setTag (.received f)) s = .next (s.validFrame.queueFrame f)) ∧
  (∀ (s : State) (x : RxFrame),
      s.CanAnswer 7 16 x →
      s.get CSYS.TRAY_STATE.cl = 2 →
      frameLe x.frame 8 8 = s.pair TRAYID.TRAY_ID_LO.cl TRAYID.TRAY_ID_HI.cl →
      s.is TRAYID.TAG_SET.cl = false →
      frameLe x.frame 0 8 ≠ 0 →
      exec (.setTag .served) s = .next ((s.writeTag (frameLe x.frame 0 8)).mc3Code 0)) ∧
  (∀ (s : State) (x : RxFrame),
      s.CanAnswer 7 16 x →
      s.get CSYS.TRAY_STATE.cl = 2 →
      frameLe x.frame 8 8 = s.pair TRAYID.TRAY_ID_LO.cl TRAYID.TRAY_ID_HI.cl →
      s.is TRAYID.TAG_SET.cl = true →
      exec (.setTag .served) s = .next (s.mc3Code 8)) ∧
  (∀ (s : State) (x : RxFrame),
      s.CanAnswer 7 16 x →
      s.get CSYS.TRAY_STATE.cl ≠ 2 →
      exec (.setTag .served) s = .next (s.mc3Code 3)) ∧
  (∀ (s : State) (x : RxFrame),
      s.CanAnswer 7 16 x →
      s.get CSYS.TRAY_STATE.cl = 2 →
      frameLe x.frame 8 8 ≠ s.pair TRAYID.TRAY_ID_LO.cl TRAYID.TRAY_ID_HI.cl →
      exec (.setTag .served) s = .next (s.mc3Code 9)) ∧
  (∀ (s : State) (x : RxFrame),
      s.CanAnswer 7 16 x →
      s.get CSYS.TRAY_STATE.cl = 2 →
      frameLe x.frame 8 8 = s.pair TRAYID.TRAY_ID_LO.cl TRAYID.TRAY_ID_HI.cl →
      s.is TRAYID.TAG_SET.cl = false →
      frameLe x.frame 0 8 = 0 →
      exec (.setTag .served) s = .next (s.mc3Code 4)) ∧
  (∀ (s : State) (frame : Frame),
      s.CanReceive frame →
      frame.type.toNat = 8 →
      s.validFrame.guard frame = true →
      exec (.resetArm frame) s = .next ((s.validFrame.armReset 0x20).replyCode frame 0)) ∧
  (∀ (s : State) (frame : Frame),
      s.CanReceive frame →
      frame.type.toNat = 8 →
      s.validFrame.guard frame = false →
      exec (.resetArm frame) s = .next (s.validFrame.replyCode frame 9)) ∧
  (∀ (s : State) (frame : Frame),
      s.CanReceive frame →
      frame.type.toNat = 9 →
      s.validFrame.guard frame = true →
      exec (.resetFire frame) s = .next ((s.validFrame.fireReset 0x20).replyCode frame (if s.validFrame.armOpen 0x20
        then 0 else 3))) ∧
  (∀ (s : State) (frame : Frame),
      s.CanReceive frame →
      frame.type.toNat = 9 →
      s.validFrame.guard frame = false →
      exec (.resetFire frame) s = .next (s.validFrame.replyCode frame 9))

/-- A frame that has waited 1,000 us is answered BUSY and stays queued. TX_COMMIT answers the head frame with TX_LEN
bytes; RX_POP removes it. A collision while a reply is sent abandons it, counts COLLISIONS and records 0x3907. Silence
of 2 s sets SILENT, overrides the cooling and records 0x4004. A calendar tick adds one, but while SLEW is not 0 every
32nd is omitted and takes SLEW down by one. A load takes its value, sets CAL_VALID, clears SLEW and counts; a load
backwards is discarded with CFG_MISMATCH. A write of SLEW replaces it. The calendar is on VBAT from 3.00 V down and off
it above 3.10 V. VBAT below 2.2 V sets BAT_LOW with 0x3905 once; above 2.3 V clears it. REVOKE of a key not in force is
written once, with 0x3908 for 1; of the key in force it is discarded with ACCESS_ERR, a second time, whichever key and
whoever asks, with LOCK_VIOL. A calendar-domain reset returns the domain and marks the loss. (R58, R124, R599, R608,
R611, R613, R614, R615, R617, R623, R625, R626) -/
def Obligations.TheLineTheCalendarAndTrustFollowTheirRules : Prop :=
  (∀ (s : State) (i : Nat) (x : RxFrame),
      s.rxq.findIdx? (fun y => !y.late && decide (y.arrived + 1000 ≤ s.clock)) = some i →
      s.rxq[i]? = some x →
      exec .replyDeadline s = .next ({ s with rxq := s.rxq.set i { x with late := true } }.replyBusy x.frame)) ∧
  (∀ s : State,
      s.rxq.findIdx? (fun y => !y.late && decide (y.arrived + 1000 ≤ s.clock)) = none →
      exec .replyDeadline s = .next (s)) ∧
  (∀ (s : State) (req : Requester),
      s.Reaches clachasel SUPV.page SUPV.TX_COMMIT 0 req →
      exec (.txCommit req) s = .next (s.commitReply ((List.range (s.get SUPV.TX_LEN.cl)).map (fun i => BitVec.ofNat 8
        (s.get (SUPV.TX_DATA.clAt (i / 4)) / 256 ^ (i % 4)))))) ∧
  (∀ (s : State) (req : Requester),
      s.Reaches clachasel SUPV.page SUPV.RX_POP 0 req →
      exec (.rxPop req) s = .next (s.popRx)) ∧
  (∀ s : State,
      s.is SUPVI.SENDING.cl = true →
      exec .collision s = .next (
        ((({ s with answer := [] }.set SUPVI.SENDING.cl 0).count SUPV.COLLISIONS.cl).event SUPV.page 0x3907))) ∧
  (∀ s : State,
      s.is SUPVI.SENDING.cl = false →
      exec .collision s = .next s) ∧
  (∀ s : State,
      s.get RECI.RUNS.cl ≠ 0 →
      s.is SUPV.SILENT.cl = false →
      s.heldFor POWI.SILENCE_SINCE.cl 2000000 = true →
      exec .silence s = .next (
        let u := ((s.set SUPV.SILENT.cl 1).set SUPV.SILENCE_SEEN.cl 1).set HLS.SILENT.cl 1
        (((u.pageEvent clachasel SUPV.page 9).set CFAN.SUPV_OVERRIDE.cl 1).event HLS.page 0x4004).coolNow)) ∧
  (∀ s : State,
      s.is SUPV.SILENT.cl = true ∨ s.heldFor POWI.SILENCE_SINCE.cl 2000000 = false →
      exec .silence s = .next s) ∧
  (∀ s : State,
      s.get CAL.SLEW.cl = 0 →
      exec .calendarTick s = .next ((s.set SUPVI.SLEW_PHASE.cl 0).setPair CAL.TIME_LO.cl CAL.TIME_HI.cl (s.trayTime +
        1))) ∧
  (∀ s : State,
      s.get CAL.SLEW.cl ≠ 0 →
      s.get SUPVI.SLEW_PHASE.cl = 31 →
      exec .calendarTick s = .next ((s.set SUPVI.SLEW_PHASE.cl 0).set CAL.SLEW.cl (s.get CAL.SLEW.cl - 1))) ∧
  (∀ s : State,
      s.get CAL.SLEW.cl ≠ 0 →
      s.get SUPVI.SLEW_PHASE.cl ≠ 31 →
      exec .calendarTick s = .next ((s.wrap SUPVI.SLEW_PHASE.cl).setPair CAL.TIME_LO.cl CAL.TIME_HI.cl (s.trayTime +
        1))) ∧
  (∀ (s : State) (req : Requester) (value : BitVec 64),
      s.Reaches clachasel CAL.page CAL.TIME_HI 0 req →
      s.trayTime ≤ value.toNat →
      exec (.calendarLoad req value) s = .next ((((s.setPair CAL.TIME_LO.cl CAL.TIME_HI.cl value.toNat).set
        CAL.CAL_VALID.cl 1).set CAL.SLEW.cl 0).count CAL.LOADS.cl)) ∧
  (∀ (s : State) (req : Requester) (value : BitVec 64),
      s.Reaches clachasel CAL.page CAL.TIME_HI 0 req →
      value.toNat < s.trayTime →
      exec (.calendarLoad req value) s = .next (s.regFault clachasel CAL.page CAL.TIME_HI 0 .cfgMismatch req.val
        (value.toNat / 4294967296))) ∧
  (∀ (s : State) (req : Requester) (ticks : BitVec 24),
      s.Reaches clachasel CAL.page CAL.SLEW 0 req →
      exec (.slew req ticks) s = .next (s.set CAL.SLEW.cl ticks.toNat)) ∧
  (∀ (s : State) (millivolts : BitVec 16),
      millivolts.toNat ≤ 3000 →
      exec (.supplySwitchover millivolts) s = .next (s.set CAL.ON_VBAT.cl 1)) ∧
  (∀ (s : State) (millivolts : BitVec 16),
      3100 < millivolts.toNat →
      exec (.supplySwitchover millivolts) s = .next (s.set CAL.ON_VBAT.cl 0)) ∧
  (∀ (s : State) (millivolts : BitVec 16),
      3000 < millivolts.toNat →
      millivolts.toNat ≤ 3100 →
      exec (.supplySwitchover millivolts) s = .next (s)) ∧
  (∀ (s : State) (millivolts : BitVec 16),
      millivolts.toNat < 2200 →
      s.is CAL.BAT_LOW.cl = false →
      exec (.vbatSample millivolts) s = .next ((s.set CAL.BAT_LOW.cl 1).event CAL.page 0x3905)) ∧
  (∀ (s : State) (millivolts : BitVec 16),
      2300 < millivolts.toNat →
      exec (.vbatSample millivolts) s = .next (s.set CAL.BAT_LOW.cl 0)) ∧
  (∀ (s : State) (millivolts : BitVec 16),
      millivolts.toNat ≤ 2300 →
      2200 ≤ millivolts.toNat ∨ s.is CAL.BAT_LOW.cl = true →
      exec (.vbatSample millivolts) s = .next (s)) ∧
  (∀ (s : State) (req : Requester) (key : Fin 4) (value : BitVec 1),
      s.Reaches clachasel TRAYID.page TRAYID.REVOKE key.val req →
      key.val = s.get TRAYID.KEY_IN_FORCE.cl →
      exec (.revoke req key value) s = .next (s.regFault clachasel TRAYID.page TRAYID.REVOKE key.val .accessErr
        req.val value.toNat)) ∧
  (∀ (s : State) (req : Requester) (key : Fin 4) (value : BitVec 1),
      s.inReset clachasel = false →
      s.resetting clachasel TRAYID.page 0 = false →
      s.spent.contains (fuseKey (TRAYID.REVOKE.clAt key.val)) = true →
      exec (.revoke req key value) s = .next (s.regFault clachasel TRAYID.page TRAYID.REVOKE key.val .lockViol
        req.val value.toNat)) ∧
  (∀ (s : State) (req : Requester) (key : Fin 4),
      s.Reaches clachasel TRAYID.page TRAYID.REVOKE key.val req →
      key.val ≠ s.get TRAYID.KEY_IN_FORCE.cl →
      exec (.revoke req key 1) s = .next (
        ({ s.set (TRAYID.REVOKE.clAt key.val) 1 with spent := fuseKey (TRAYID.REVOKE.clAt key.val) :: s.spent }.event
          TRAYID.page 0x3908))) ∧
  (∀ (s : State) (req : Requester) (key : Fin 4),
      s.Reaches clachasel TRAYID.page TRAYID.REVOKE key.val req →
      key.val ≠ s.get TRAYID.KEY_IN_FORCE.cl →
      exec (.revoke req key 0) s = .next
        { s.set (TRAYID.REVOKE.clAt key.val) 0 with spent := fuseKey (TRAYID.REVOKE.clAt key.val) :: s.spent }) ∧
  (∀ s : State,
      exec .calendarDomainReset s = .next ((s.resetDomain .cal clachasel).set POWI.CAL_LOST.cl 1))

/-- A write to a chip in reset is not served; where no page stands it faults the chip's system page; with fewer than
four byte enables it is discarded with ACCESS_ERR; in a page's first 64 bytes it writes the header; beyond them the
field it names, or faults where no field stands or the page is in soft reset; a hardware update that collides with it
sets COLLIDE besides. A 64-bit access is two of 32 bits, the lower offset first. A reserved range reads 0 and each
access faults the system page. A read of a chip in reset answers nothing; a read of the low word of a pair answers it
and captures the high word for that requester; a read of the high word answers what was captured, once; every read
answers the bytes enabled. A write of the low word of a writable pair is staged for its requester and changes no
register, of a read-only one it has no effect; a write of the high word with nothing staged is discarded, and with the
low word staged loads both words together, or is discarded with the fault that bars it. (R33, R41, R45, R46, R47, R48,
R51, R54, R61, R73) -/
def Obligations.RegistersAreWrittenAndReadByWord : Prop :=
  (∀ (s : State) (req : Requester) (chip : Fin 9) (offset : BitVec 24) (enables : BitVec 4) (value : BitVec 32),
      s.inReset chip.val = true →
      exec (.registerWrite req chip offset enables value false none) s = .next (s)) ∧
  (∀ (s : State) (req : Requester) (chip : Fin 9) (offset : BitVec 24) (enables : BitVec 4) (value : BitVec 32),
      s.inReset chip.val = false →
      pageAt chip.val (offset.toNat / 4 * 4) = none →
      exec (.registerWrite req chip offset enables value false none) s = .next (s.noPage chip.val req.val
        (offset.toNat / 4 * 4) value.toNat)) ∧
  (∀ (s : State) (req : Requester) (chip : Fin 9) (offset : BitVec 24) (enables : BitVec 4) (value : BitVec 32) (p
      : Page) (inst : Nat),
      s.inReset chip.val = false →
      pageAt chip.val (offset.toNat / 4 * 4) = some (p, inst) →
      s.unserved chip.val p = false →
      enables ≠ 0xF →
      exec (.registerWrite req chip offset enables value false none) s = .next (s.pageFault chip.val p inst
        .accessErr req.val (offset.toNat / 4 * 4) value.toNat)) ∧
  (∀ (s : State) (req : Requester) (chip : Fin 9) (offset : BitVec 24) (value : BitVec 32) (p : Page) (inst : Nat),
      s.inReset chip.val = false →
      pageAt chip.val (offset.toNat / 4 * 4) = some (p, inst) →
      s.unserved chip.val p = false →
      offset.toNat / 4 * 4 - p.at inst < 0x40 →
      exec (.registerWrite req chip offset 0xF value false none) s = .next (s.writeHeader chip.val p inst req.val
        (offset.toNat / 4 * 4 - p.at inst) value.toNat)) ∧
  (∀ (s : State) (req : Requester) (chip : Fin 9) (offset : BitVec 24) (value : BitVec 32) (p : Page) (inst : Nat),
      s.inReset chip.val = false →
      pageAt chip.val (offset.toNat / 4 * 4) = some (p, inst) →
      s.unserved chip.val p = false →
      0x40 ≤ offset.toNat / 4 * 4 - p.at inst →
      s.resetting chip.val p inst = false →
      fieldsAt p (offset.toNat / 4 * 4) ≠ [] →
      lowPairAt chip.val (offset.toNat / 4 * 4) = none →
      highPairAt chip.val (offset.toNat / 4 * 4) = none →
      exec (.registerWrite req chip offset 0xF value false none) s = .next (s.writeFields req chip p inst
        (offset.toNat / 4 * 4) value.toNat (fieldsAt p (offset.toNat / 4 * 4)))) ∧
  (∀ (s : State) (req : Requester) (chip : Fin 9) (offset : BitVec 24) (value : BitVec 32) (p : Page) (inst : Nat),
      s.inReset chip.val = false →
      pageAt chip.val (offset.toNat / 4 * 4) = some (p, inst) →
      s.unserved chip.val p = false →
      0x40 ≤ offset.toNat / 4 * 4 - p.at inst →
      s.resetting chip.val p inst = true ∨ fieldsAt p (offset.toNat / 4 * 4) = [] →
      exec (.registerWrite req chip offset 0xF value false none) s = .next (s.pageFault chip.val p inst .accessErr
        req.val (offset.toNat / 4 * 4) value.toNat)) ∧
  (∀ (s : State) (req : Requester) (chip : Fin 9) (offset : BitVec 24) (value : BitVec 32) (p : Page) (inst : Nat),
      s.inReset chip.val = false →
      pageAt chip.val (offset.toNat / 4 * 4) = some (p, inst) →
      s.unserved chip.val p = false →
      0x40 ≤ offset.toNat / 4 * 4 - p.at inst →
      s.resetting chip.val p inst = false →
      (fieldsAt p (offset.toNat / 4 * 4)).any (fun x => x.1.among hwUpdated && (s.barOf chip.val p inst x.1 x.2 req.val
        (bitsOf value.toNat x.1.lo x.1.width)).isNone) = true →
      ∃ t, exec (.registerWrite req chip offset 0xF value false none) s = .next t ∧
        exec (.registerWrite req chip offset 0xF value true none) s = .next (t.pageFault chip.val p inst .collide
          req.val (offset.toNat / 4 * 4) value.toNat)) ∧
  (∀ (s : State) (req : Requester) (chip : Fin 9) (offset : BitVec 24) (enables : BitVec 4) (value : BitVec 32) (collide : Bool)
  (e : BitVec 4) (v : BitVec 32),
      offset.toNat % 8 = 0 →
      ∃ t, exec (.registerWrite req chip offset enables value collide none) s = .next t ∧
        exec (.registerWrite req chip offset enables value collide (some (e, v))) s =
          exec (.registerWrite req chip (offset + 4) e v false none) t) ∧
  (∀ (s : State) (req : Requester) (chip : Fin 9) (offset : BitVec 24) (value : BitVec 32),
      s.inReset chip.val = false →
      reservedRange chip.val (offset.toNat / 4 * 4) = true →
      exec (.reservedRangeAccess req chip offset false value) s = .next (
        { s.noPage chip.val req.val (offset.toNat / 4 * 4) 0 with answer := wordBytes 0 })) ∧
  (∀ (s : State) (req : Requester) (chip : Fin 9) (offset : BitVec 24) (value : BitVec 32),
      s.inReset chip.val = false →
      reservedRange chip.val (offset.toNat / 4 * 4) = true →
      exec (.reservedRangeAccess req chip offset true value) s = .next (s.noPage chip.val req.val (offset.toNat / 4 *
        4) value.toNat)) ∧
  (∀ (s : State) (req : Requester) (chip : Fin 9) (offset : BitVec 24) (enables : BitVec 4),
      s.inReset chip.val = true →
      exec (.lowWordRead req chip offset enables none) s = .next ({ s with answer := [] })) ∧
  (∀ (s : State) (req : Requester) (chip : Fin 9) (offset : BitVec 24) (enables : BitVec 4),
      s.inReset chip.val = false →
      reservedRange chip.val (offset.toNat / 4 * 4) = false →
      lowPairAt chip.val (offset.toNat / 4 * 4) = none →
      highPairAt chip.val (offset.toNat / 4 * 4) = none →
      exec (.lowWordRead req chip offset enables none) s = .next
        { s with answer := enabledBytes enables (s.readWord chip.val (offset.toNat / 4 * 4)) }) ∧
  (∀ (s : State) (req : Requester) (chip : Fin 9) (offset : BitVec 24) (enables : BitVec 4),
      s.inReset chip.val = false →
      reservedRange chip.val (offset.toNat / 4 * 4) = true →
      exec (.lowWordRead req chip offset enables none) s = .next
        { s.noPage chip.val req.val (offset.toNat / 4 * 4) 0 with answer := enabledBytes enables 0 }) ∧
  (∀ (s : State) (req : Requester) (chip : Fin 9) (offset : BitVec 24) (enables : BitVec 4) (lo hi : Reg) (i : Nat),
      s.inReset chip.val = false →
      reservedRange chip.val (offset.toNat / 4 * 4) = false →
      lowPairAt chip.val (offset.toNat / 4 * 4) = some (lo, hi, i) →
      exec (.lowWordRead req chip offset enables none) s = .next (
        let key := (lo.at chip.val i).key
        { s with
          capture := (key, req.val, s.readWord chip.val (hi.offset i)) :: pairDrop s.capture key req.val
          answer := enabledBytes enables (s.readWord chip.val (offset.toNat / 4 * 4)) })) ∧
  (∀ (s : State) (req : Requester) (chip : Fin 9) (offset : BitVec 24) (enables : BitVec 4) (lo hi : Reg) (i v : Nat),
      s.inReset chip.val = false →
      reservedRange chip.val (offset.toNat / 4 * 4) = false →
      lowPairAt chip.val (offset.toNat / 4 * 4) = none →
      highPairAt chip.val (offset.toNat / 4 * 4) = some (lo, hi, i) →
      pairEntry s.capture (lo.at chip.val i).key req.val = some v →
      exec (.lowWordRead req chip offset enables none) s = .next (
        let key := (lo.at chip.val i).key
        { s with capture := pairDrop s.capture key req.val, answer := enabledBytes enables v })) ∧
  (∀ (s : State) (req : Requester) (chip : Fin 9) (offset : BitVec 24) (enables : BitVec 4) (lo hi : Reg) (i : Nat),
      s.inReset chip.val = false →
      reservedRange chip.val (offset.toNat / 4 * 4) = false →
      lowPairAt chip.val (offset.toNat / 4 * 4) = none →
      highPairAt chip.val (offset.toNat / 4 * 4) = some (lo, hi, i) →
      pairEntry s.capture (lo.at chip.val i).key req.val = none →
      exec (.lowWordRead req chip offset enables none) s = .next (
        let key := (lo.at chip.val i).key
        let v := s.readWord chip.val (offset.toNat / 4 * 4)
        { s with capture := pairDrop s.capture key req.val, answer := enabledBytes enables v })) ∧
  (∀ (s : State) (req : Requester) (chip : Fin 9) (offset : BitVec 24) (enables : BitVec 4) (high : BitVec 4),
      offset.toNat % 8 = 0 →
      ∃ t u, exec (.lowWordRead req chip offset enables none) s = .next t ∧
        exec (.lowWordRead req chip (offset + 4) high none) t = .next u ∧
        exec (.lowWordRead req chip offset enables (some high)) s = .next { u with answer := t.answer ++ u.answer }) ∧
  (∀ (s : State) (req : Requester) (chip : Fin 9) (offset : BitVec 24) (value : BitVec 32) (lo hi : Reg) (i : Nat) (p :
  Page) (inst : Nat),
      s.inReset chip.val = false →
      lowPairAt chip.val (offset.toNat / 4 * 4) = some (lo, hi, i) →
      pageAt chip.val (offset.toNat / 4 * 4) = some (p, inst) →
      s.unserved chip.val p = false →
      lo.kind ≠ .ro →
      s.resetting chip.val p inst = false →
      lo.accepts i req.val = true →
      exec (.lowWordWrite req chip offset value) s = .next (
        let key := (lo.at chip.val i).key
        { s with staging := (key, req.val, value.toNat) :: pairDrop s.staging key req.val })) ∧
  (∀ (s : State) (req : Requester) (chip : Fin 9) (offset : BitVec 24) (value : BitVec 32) (lo hi : Reg) (i : Nat)
      (p : Page) (inst : Nat),
      s.inReset chip.val = false →
      lowPairAt chip.val (offset.toNat / 4 * 4) = some (lo, hi, i) →
      pageAt chip.val (offset.toNat / 4 * 4) = some (p, inst) →
      s.unserved chip.val p = false →
      s.resetting chip.val p inst = true ∨ (lo.kind ≠ .ro ∧ lo.accepts i req.val = false) →
      exec (.lowWordWrite req chip offset value) s = .next (s.pageFault chip.val p inst .accessErr req.val
        (offset.toNat / 4 * 4) value.toNat)) ∧
  (∀ (s : State) (req : Requester) (chip : Fin 9) (offset : BitVec 24) (value : BitVec 32) (lo hi : Reg) (i : Nat)
      (p : Page) (inst : Nat),
      s.inReset chip.val = false →
      lowPairAt chip.val (offset.toNat / 4 * 4) = some (lo, hi, i) →
      pageAt chip.val (offset.toNat / 4 * 4) = some (p, inst) →
      s.unserved chip.val p = false →
      s.resetting chip.val p inst = false →
      lo.kind = .ro →
      exec (.lowWordWrite req chip offset value) s = .next s) ∧
  (∀ (s : State) (req : Requester) (chip : Fin 9) (offset : BitVec 24) (value : BitVec 32) (lo hi : Reg) (i : Nat)
      (p : Page) (inst : Nat),
      s.inReset chip.val = false →
      highPairAt chip.val (offset.toNat / 4 * 4) = some (lo, hi, i) →
      pageAt chip.val (offset.toNat / 4 * 4) = some (p, inst) →
      s.unserved chip.val p = false →
      s.resetting chip.val p inst = false →
      lo.kind ≠ .ro →
      pairEntry s.staging (lo.at chip.val i).key req.val = none →
      exec (.highWordWrite req chip offset value) s = .next (s.pageFault chip.val p inst (if s.lockedField chip.val
        p inst lo i then .lockViol else .accessErr) req.val (offset.toNat / 4 * 4) value.toNat)) ∧
  (∀ (s : State) (req : Requester) (chip : Fin 9) (offset : BitVec 24) (value : BitVec 32) (lo hi : Reg) (i : Nat)
      (p : Page) (inst : Nat),
      s.inReset chip.val = false →
      highPairAt chip.val (offset.toNat / 4 * 4) = some (lo, hi, i) →
      pageAt chip.val (offset.toNat / 4 * 4) = some (p, inst) →
      s.unserved chip.val p = false →
      s.resetting chip.val p inst = true →
      exec (.highWordWrite req chip offset value) s = .next (s.pageFault chip.val p inst .accessErr req.val
        (offset.toNat / 4 * 4) value.toNat)) ∧
  (∀ (s : State) (req : Requester) (chip : Fin 9) (offset : BitVec 24) (value : BitVec 32) (lo hi : Reg) (i : Nat) (p :
  Page) (inst low : Nat),
      s.inReset chip.val = false →
      highPairAt chip.val (offset.toNat / 4 * 4) = some (lo, hi, i) →
      pageAt chip.val (offset.toNat / 4 * 4) = some (p, inst) →
      s.unserved chip.val p = false →
      lo.kind ≠ .ro →
      pairEntry s.staging (lo.at chip.val i).key req.val = some low →
      s.resetting chip.val p inst = false →
      s.barOf chip.val p inst lo i req.val low = none →
      exec (.highWordWrite req chip offset value) s = .next (
        let t := { s with staging := pairDrop s.staging (lo.at chip.val i).key req.val }
        t.loadPair chip.val lo hi i req.val (value.toNat * 4294967296 + low))) ∧
  (∀ (s : State) (req : Requester) (chip : Fin 9) (offset : BitVec 24) (value : BitVec 32) (lo hi : Reg) (i : Nat) (p :
  Page) (inst low : Nat) (b : FaultBit),
      s.inReset chip.val = false →
      highPairAt chip.val (offset.toNat / 4 * 4) = some (lo, hi, i) →
      pageAt chip.val (offset.toNat / 4 * 4) = some (p, inst) →
      s.unserved chip.val p = false →
      lo.kind ≠ .ro →
      pairEntry s.staging (lo.at chip.val i).key req.val = some low →
      s.resetting chip.val p inst = false →
      s.barOf chip.val p inst lo i req.val low = some b →
      exec (.highWordWrite req chip offset value) s = .next (
        let t := { s with staging := pairDrop s.staging (lo.at chip.val i).key req.val }
        t.pageFault chip.val p inst b req.val (offset.toNat / 4 * 4) value.toNat))

/-- A lock sets LOCK of its page; MCCTL accepts it from MC0 alone and only once every core is ready, WCORE of a warden
from that warden alone, else it is discarded with ACCESS_ERR. A soft reset returns the block's registers and its
run-time data to their Reset values, with RESETTING set; one that stands is joined. Its end clears RESETTING, and ENABLE
written meanwhile takes effect. A commit whose generation is the next one, of a consistent set on a page neither pending
nor in soft reset, sets COMMIT_PENDING; a wrong generation is discarded with ACCESS_ERR, an inconsistent set with
CFG_MISMATCH. A pending set of a page that does not wait for a hinge is applied; with nothing pending nothing is
applied. (R56, R60, R61, R63, R64, R65, R66, R77, R154) -/
def Obligations.PagesAreLockedResetAndCommitted : Prop :=
  (∀ (s : State) (req : Requester) (chip : Fin 9) (page : Fin 4096) (p : Page) (inst : Nat),
      s.inReset chip.val = false →
      pageAt chip.val (4096 * page.val + 0x18) = some (p, inst) →
      s.unserved chip.val p = false →
      chip.val = 8 →
      p.base ≠ MCCTL.page.base →
      exec (.pageLock req chip page) s = .next (s.set (hdr HDR.LOCK chip.val (p.at inst)) 1)) ∧
  (∀ (s : State) (req : Requester) (chip : Fin 9) (page : Fin 4096) (p : Page) (inst : Nat),
      s.inReset chip.val = false →
      pageAt chip.val (4096 * page.val + 0x18) = some (p, inst) →
      s.unserved chip.val p = false →
      chip.val = 8 →
      p.base = MCCTL.page.base →
      req.val ≠ 1 ∨ s.get CSYS.CORE_READY.cl ≠ 0xF →
      exec (.pageLock req chip page) s = .next (s.pageFault chip.val p inst .accessErr req.val (p.at inst + 0x18) 1)) ∧
  (∀ (s : State) (req : Requester) (chip : Fin 9) (page : Fin 4096) (p : Page) (inst : Nat),
      s.inReset chip.val = false →
      pageAt chip.val (4096 * page.val + 0x18) = some (p, inst) →
      s.unserved chip.val p = false →
      chip.val < 8 →
      p.base ≠ WCORE.page.base ∨ req.val = inst →
      exec (.pageLock req chip page) s = .next (s.set (hdr HDR.LOCK chip.val (p.at inst)) 1)) ∧
  (∀ (s : State) (req : Requester) (chip : Fin 9) (page : Fin 4096) (p : Page) (inst : Nat),
      s.inReset chip.val = false →
      pageAt chip.val (4096 * page.val + 0x18) = some (p, inst) →
      s.unserved chip.val p = false →
      chip.val < 8 →
      p.base = WCORE.page.base →
      req.val ≠ inst →
      exec (.pageLock req chip page) s = .next (s.pageFault chip.val p inst .accessErr req.val (p.at inst + 0x18) 1)) ∧
  (∀ (s : State) (req : Requester) (chip : Fin 9) (page : Fin 4096) (p : Page) (inst : Nat),
      s.inReset chip.val = false →
      pageAt chip.val (4096 * page.val + 8) = some (p, inst) →
      s.unserved chip.val p = false →
      s.resetting chip.val p inst = false →
      exec (.softReset req chip page) s = .next (
        let a := (s.beforeSoftReset chip.val p inst).softResetPage chip.val p inst
        let b := a.clearWords chip.val (blockWords chip.val p inst)
        (if chip.val < 8 then (b.clearFires chip.val p inst).onDie chip.val (clearDieBlock p.block inst) else b.clearClBlock
          p.block).afterSoftReset chip.val p)) ∧
  (∀ (s : State) (req : Requester) (chip : Fin 9) (page : Fin 4096) (p : Page) (inst : Nat),
      s.inReset chip.val = false →
      pageAt chip.val (4096 * page.val + 8) = some (p, inst) →
      s.unserved chip.val p = false →
      s.resetting chip.val p inst = true →
      exec (.softReset req chip page) s = .next (s)) ∧
  (∀ (s : State) (chip : Fin 9) (page : Fin 4096) (p : Page) (inst : Nat),
      pageAt chip.val (4096 * page.val) = some (p, inst) →
      s.resetting chip.val p inst = true →
      exec (.softResetEnd chip page) s = .next (
        let f := hdr HDR.ENABLE chip.val (p.at inst)
        let u := s.set (hdr HDR.RESETTING chip.val (p.at inst)) 0
        if u.is f then (u.set f 0).enableTakes chip.val p inst 0 1 true else u)) ∧
  (∀ (s : State) (req : Requester) (chip : Fin 9) (page : Fin 4096) (value : BitVec 32) (p : Page) (inst : Nat),
      s.inReset chip.val = false →
      pageAt chip.val (4096 * page.val + 0x20) = some (p, inst) →
      s.unserved chip.val p = false →
      chip.val = 8 →
      s.resetting chip.val p inst = false →
      s.is (hdr HDR.COMMIT_PENDING chip.val (p.at inst)) = false →
      value.toNat = (s.get (hdr HDR.GEN chip.val (p.at inst)) + 1) % 4294967296 →
      s.consistent chip.val p inst = true →
      exec (.commitRequest req chip page value) s = .next (s.set (hdr HDR.COMMIT_PENDING chip.val (p.at inst)) 1)) ∧
  (∀ (s : State) (req : Requester) (chip : Fin 9) (page : Fin 4096) (value : BitVec 32) (p : Page) (inst : Nat),
      s.inReset chip.val = false →
      pageAt chip.val (4096 * page.val + 0x20) = some (p, inst) →
      s.unserved chip.val p = false →
      chip.val = 8 →
      s.is (hdr HDR.COMMIT_PENDING chip.val (p.at inst)) = true ∨ value.toNat ≠ (s.get (hdr HDR.GEN chip.val (p.at
        inst)) + 1) % 4294967296 →
      exec (.commitRequest req chip page value) s = .next (s.pageFault chip.val p inst .accessErr req.val (p.at inst
        + 0x020) value.toNat)) ∧
  (∀ (s : State) (req : Requester) (chip : Fin 9) (page : Fin 4096) (value : BitVec 32) (p : Page) (inst : Nat),
      s.inReset chip.val = false →
      pageAt chip.val (4096 * page.val + 0x20) = some (p, inst) →
      s.unserved chip.val p = false →
      chip.val = 8 →
      s.resetting chip.val p inst = false →
      s.is (hdr HDR.COMMIT_PENDING chip.val (p.at inst)) = false →
      value.toNat = (s.get (hdr HDR.GEN chip.val (p.at inst)) + 1) % 4294967296 →
      s.consistent chip.val p inst = false →
      exec (.commitRequest req chip page value) s = .next (s.pageFault chip.val p inst .cfgMismatch req.val (p.at
        inst + 0x020) value.toNat)) ∧
  (∀ (s : State) (chip : Fin 9) (page : Fin 4096) (p : Page) (inst : Nat),
      pageAt chip.val (4096 * page.val) = some (p, inst) →
      s.is (hdr HDR.COMMIT_PENDING chip.val (p.at inst)) = true →
      waitsForHinge chip.val p = false →
      exec (.commitApply chip page) s = .next (s.commitApply chip.val p inst)) ∧
  (∀ (s : State) (chip : Fin 9) (page : Fin 4096) (p : Page) (inst : Nat),
      pageAt chip.val (4096 * page.val) = some (p, inst) →
      s.is (hdr HDR.COMMIT_PENDING chip.val (p.at inst)) = false →
      exec (.commitApply chip page) s = .next (s))

/-- For each of the rows that write a register to act: while the chip that holds the register is in reset nothing
changes; while its page is in soft reset, where its field is locked or spent, or where the field does not accept the
requester, the write is discarded: PAGE_FAULT.ACCESS_ERR, for a locked or spent field LOCK_VIOL, is set and the fault
recorded, and nothing else happens; a write of limits is discarded whole where each of its limits is barred. (R41, R52,
R58, R61, R70, R71) -/
def Obligations.BarredWritesAreDiscarded : Prop :=
  (∀ (s : State) (req : Requester), Discards s clachasel SEQ.page SEQ.MAIN_ON 0 req.val 1 (exec (.mainOn req) s)) ∧
  (∀ (s : State) (req : Requester), Discards s clachasel SEQ.page SEQ.MAIN_OFF 0 req.val 2 (exec (.mainOff req) s)) ∧
  (∀ (s : State) (req : Requester), Discards s clachasel SEQ.page SEQ.UP 0 req.val 4 (exec (.up req) s)) ∧
  (∀ (s : State) (req : Requester), Discards s clachasel SEQ.page SEQ.DOWN 0 req.val 8 (exec (.down req) s)) ∧
  (∀ (s : State) (req : Requester), Discards s clachasel SEQ.page SEQ.SETPT_OK 0 req.val 16 (exec (.setptOk req) s)) ∧
  (∀ (s : State) (req : Requester) (core : McNo), Discards s clachasel MBXPOST.page MBXPOST.CLAIM core.val req.val 256
  (exec (.mbxClaim req core) s)) ∧
  (∀ (s : State) (req : Requester) (core : McNo), Discards s clachasel MBXPOST.page MBXPOST.SEND core.val req.val 1
  (exec (.send req core) s)) ∧
  (∀ (s : State) (req : Requester) (core : McNo), Discards s clachasel MBXPOST.page MBXPOST.RELEASE core.val req.val 1
  (exec (.mbxRelease req core) s)) ∧
  (∀ (s : State) (req : Requester) (new : BitVec 3), Discards s clachasel CSYS.page CSYS.TRANS_REQ 0 req.val new.toNat
  (exec (.transReq req new) s)) ∧
  (∀ (s : State) (req : Requester), Discards s clachasel CSYS.page CSYS.ARM 0 req.val 1 (exec (.arm req) s)) ∧
  (∀ (s : State) (req : Requester), Discards s clachasel CSYS.page CSYS.FIRE 0 req.val 2 (exec (.fire req) s)) ∧
  (∀ (s : State) (req : Requester), Discards s clachasel BLOAD.page BLOAD.FETCH 0 req.val 1 (exec (.fetch req) s)) ∧
  (∀ (s : State) (req : Requester), Discards s clachasel BLOAD.page BLOAD.CHECK 0 req.val 2 (exec (.bundleCheck req) s)) ∧
  (∀ (s : State) (req : Requester) (die : DieNo) (value : BitVec 32), Discards s die.val WLOAD.page WLOAD.IMG_DATA 0
  req.val value.toNat (exec (.imgData req die value) s)) ∧
  (∀ (s : State) (req : Requester) (die : DieNo) (core : Fin 2), Discards s die.val WLOAD.page (wRelease core.val) 0
  req.val (core.val + 1) (exec (.wardenRelease req die core) s)) ∧
  (∀ (s : State) (req : Requester) (die : DieNo) (group : Fin 4) (column : BitVec 5), Discards s die.val CSKIP.page
  ([CSKIP.FUSE_COL_0, CSKIP.FUSE_COL_1, CSKIP.FUSE_COL_2, CSKIP.FUSE_COL_3].getD group.val CSKIP.FUSE_COL_0) 0
  req.val (column.toNat * 2 ^ (8 * group.val)) (exec (.fuseCol req die group column) s)) ∧
  (∀ (s : State) (req : Requester) (die : DieNo), Discards s die.val KRING.page KRING.CHECK 0 req.val 1 (exec
  (.keyringCheck req die) s)) ∧
  (∀ (s : State) (req : Requester) (die : DieNo) (key : BitVec 12), Discards s die.val ARRAY.page ARRAY.LOAD 0 req.val
  (key.toNat + 65536) (exec (.load req die key) s)) ∧
  (∀ (s : State) (req : Requester) (die : DieNo) (window : Fin 16) (rights : BitVec 3), Discards s die.val WIN.page
  WIN.EN window.val req.val (rights.toNat + 2147483648) (exec (.windowEnable req die window rights) s)) ∧
  (∀ (s : State) (req : Requester) (die : DieNo), Discards s die.val HEAP.page HEAP.INIT 0 req.val 1 (exec (.heapInit
  req die) s)) ∧
  (∀ (s : State) (req : Requester) (die : DieNo) (window : Fin 3), Discards s die.val HEAP.page HEAP.W_ALLOC window.val
  req.val 256 (exec (.alloc req die window) s)) ∧
  (∀ (s : State) (req : Requester) (die : DieNo) (window : Fin 3), Discards s die.val HEAP.page HEAP.W_FREE window.val
  req.val 512 (exec (.free req die window) s)) ∧
  (∀ (s : State) (req : Requester) (die : DieNo) (link : LinkNo), Discards s die.val HL.page HL.EN link.val req.val 1
  (exec (.linkEnable req die link) s)) ∧
  (∀ (s : State) (req : Requester) (die : DieNo) (link : LinkNo), Discards s die.val HL.page HL.EN link.val req.val 0
  (exec (.linkDisable req die link) s)) ∧
  (∀ (s : State) (req : Requester) (die : DieNo) (link : LinkNo), Discards s die.val HL.page HL.RETRAIN link.val
  req.val 2 (exec (.retrain req die link) s)) ∧
  (∀ (s : State) (req : Requester) (die : DieNo), Discards s die.val SDESC.page SDESC.WRITE 0 req.val 1 (exec
  (.sdescWrite req die) s)) ∧
  (∀ (s : State) (req : Requester) (die : DieNo), Discards s die.val SDESC.page SDESC.READ 0 req.val 2 (exec
  (.sdescRead req die) s)) ∧
  (∀ (s : State) (req : Requester) (die : DieNo) (id : BitVec 16), Discards s die.val STRM.page STRM.POST_ID 0 req.val
  id.toNat (exec (.postId req die id) s)) ∧
  (∀ (s : State) (req : Requester) (die : DieNo) (value : BitVec 16), Discards s die.val STRM.page STRM.SCQ_CONS 0
  req.val value.toNat (exec (.scqCons req die value) s)) ∧
  (∀ (s : State) (req : Requester) (die : DieNo), Discards s die.val CTX.page CTX.OPEN 0 req.val 1 (exec (.openCtx req
  die) s)) ∧
  (∀ (s : State) (req : Requester) (die : DieNo), Discards s die.val CTX.page CTX.SERVE 0 req.val 2 (exec (.serve req
  die) s)) ∧
  (∀ (s : State) (req : Requester) (die : DieNo), Discards s die.val CTX.page CTX.DRAIN 0 req.val 4 (exec (.drain req
  die) s)) ∧
  (∀ (s : State) (req : Requester) (die : DieNo), Discards s die.val CTX.page CTX.CLOSE 0 req.val 8 (exec (.close req
  die) s)) ∧
  (∀ (s : State) (req : Requester) (die : DieNo), Discards s die.val RING.page RING.SUB_PUSH 0 req.val 1 (exec
  (.subPush req die) s)) ∧
  (∀ (s : State) (req : Requester) (die : DieNo) (value : BitVec 16), Discards s die.val RING.page RING.CQ_CONS 0
  req.val value.toNat (exec (.cqCons req die value) s)) ∧
  (∀ (s : State) (req : Requester) (die : DieNo) (value : BitVec 16), Discards s die.val FAULT.page FAULT.FQ_CONS 0
  req.val value.toNat (exec (.fqCons req die value) s)) ∧
  (∀ (s : State) (req : Requester) (die : DieNo), Discards s die.val FAULT.page FAULT.FWD_POP 0 req.val 1 (exec
  (.fwdPop req die) s)) ∧
  (∀ (s : State) (req : Requester) (die : DieNo), Discards s die.val SCAN.page SCAN.OUT 0 req.val 1 (exec (.scanOut req
  die) s)) ∧
  (∀ (s : State) (req : Requester) (die : DieNo) (ecc : Ecc), Discards s die.val SCAN.page SCAN.IN 0 req.val 2 (exec
  (.scanIn req die ecc) s)) ∧
  (∀ (s : State) (req : Requester) (engines : BitVec 2), Discards s clachasel AFECTL.page AFECTL.CAL0 0 req.val
  engines.toNat (exec (.calibrate req engines) s)) ∧
  (∀ (s : State) (req : Requester) (port : Fin 5) (profile : BitVec 6), Discards s clachasel (portPage port.val)
  AFEPORT.REQ port.val req.val profile.toNat (exec (.afeRequest req port profile) s)) ∧
  (∀ (s : State) (req : Requester) (window : Fin 2), Discards s clachasel TSTAT.page TSTAT.F_FEED window.val req.val 1
  (exec (.feed req window) s)) ∧
  (∀ (s : State) (req : Requester) (bus : Fin 6) (core : McNo), Discards s clachasel TW.page TW.CLAIM (4 * bus.val +
  core.val) req.val 1 (exec (.twClaim req bus core) s)) ∧
  (∀ (s : State) (req : Requester) (bus : Fin 6) (core : McNo), Discards s clachasel TW.page TW.RELEASE (4 * bus.val +
  core.val) req.val 2 (exec (.twRelease req bus core) s)) ∧
  (∀ (s : State) (req : Requester) (bus : Fin 6), Discards s clachasel TW.page TW.CLEAR_STUCK bus.val req.val 65536
  (exec (.clearStuck req bus) s)) ∧
  (∀ (s : State) (req : Requester) (core : McNo), Discards s clachasel EVWIN.page EVWIN.RESERVE core.val req.val 1
  (exec (.reserve req core) s)) ∧
  (∀ (s : State) (req : Requester) (core : McNo), Discards s clachasel EVWIN.page EVWIN.COMMIT core.val req.val 2 (exec
  (.commit req core) s)) ∧
  (∀ (s : State) (req : Requester) (core : McNo), Discards s clachasel EVWIN.page EVWIN.CANCEL core.val req.val 4 (exec
  (.cancel req core) s)) ∧
  (∀ (s : State) (req : Requester), Discards s clachasel EVREC.page EVREC.FLUSH 0 req.val 1 (exec (.evrecFlush req) s)) ∧
  (∀ (s : State) (req : Requester), Discards s clachasel EVREC.page EVREC.CLEAR_FLASH_FAULT 0 req.val 2 (exec
  (.evrecClearFlashFault req) s)) ∧
  (∀ (s : State) (req : Requester) (window : Fin 5) (seq : BitVec 32), Discards s clachasel EVREAD.page EVREAD.RD_SEQ
  window.val req.val seq.toNat (exec (.rdSeq req window seq) s)) ∧
  (∀ (s : State) (req : Requester) (window : Fin 5) (seq : BitVec 32), Discards s clachasel EVREAD.page EVREAD.FL_SEQ
  window.val req.val seq.toNat (exec (.flSeq req window seq) s)) ∧
  (∀ (s : State) (req : Requester), Discards s clachasel EVRATE.page EVRATE.CM_SET 0 req.val 1 (exec (.cmSet req) s)) ∧
  (∀ (s : State) (req : Requester), Discards s clachasel SUPV.page SUPV.TX_COMMIT 0 req.val 1 (exec (.txCommit req) s)) ∧
  (∀ (s : State) (req : Requester), Discards s clachasel SUPV.page SUPV.RX_POP 0 req.val 1 (exec (.rxPop req) s)) ∧
  (∀ (s : State) (req : Requester) (value : BitVec 64), Discards s clachasel CAL.page CAL.TIME_HI 0 req.val
  (value.toNat / 4294967296) (exec (.calendarLoad req value) s)) ∧
  (∀ (s : State) (req : Requester) (ticks : BitVec 24), Discards s clachasel CAL.page CAL.SLEW 0 req.val ticks.toNat
  (exec (.slew req ticks) s)) ∧
  (∀ (s : State) (req : Requester) (key : Fin 4) (value : BitVec 1), Discards s clachasel TRAYID.page TRAYID.REVOKE
  key.val req.val value.toNat (exec (.revoke req key value) s)) ∧
  (∀ (s : State) (req : Requester) (mask : BitVec 8), Discards s clachasel FENCE.page FENCE.FENCE_SET 0 req.val
  mask.toNat (exec (.fenceSet req mask) s)) ∧
  (∀ (s : State) (req : Requester) (mask : BitVec 8), Discards s clachasel FENCE.page FENCE.TRIP_SET 0 req.val
  (mask.toNat) (exec (.tripSet req mask) s)) ∧
  (∀ (s : State) (req : Requester) (mask : BitVec 8), Discards s clachasel FENCE.page FENCE.TRIP_REL 0 req.val
  (mask.toNat * 256) (exec (.tripRel req mask) s)) ∧
  (∀ (s : State) (req : Requester) (word : Fin 4) (value : BitVec 32) (b : FaultBit),
      s.inReset clachasel = false →
      (∀ k ∈ limitsOf word.val, s.limitBar k req.val = some b) →
      exec (.limitWrite req word value) s = .next (s.regFault clachasel HLS.page (limitField ((limitsOf word.val).headD 0))
        0 b req.val value.toNat)) ∧
  (∀ (s : State) (req : Requester) (word : Fin 4) (value : BitVec 32),
      s.inReset clachasel = true →
      exec (.limitWrite req word value) s = .next s) ∧
  (∀ (s : State) (req : Requester) (die : DieNo), Discards s die.val DFAULT.page DFAULT.FORM_GO 0 req.val 1 (exec
  (.formGo req die) s)) ∧
  (∀ (s : State) (req : Requester) (core : McNo), Discards s clachasel OWN.page OWN.CLAIM core.val req.val 256 (exec
  (.semClaim req core) s)) ∧
  (∀ (s : State) (req : Requester) (core : McNo), Discards s clachasel OWN.page OWN.RELEASE core.val req.val 512 (exec
  (.semRelease req core) s)) ∧
  (∀ (s : State) (req : Requester) (die : DieNo) (tests : BitVec 3), Discards s die.val STEST.page STEST.REQ_TESTS 0
  req.val tests.toNat (exec (.reqTests req die tests) s))

/-- For each command the host can post: with nothing posted on its register, while MC3 does not run, or while another
command posted earlier waits, serving it changes nothing. A command older than 100 ms is answered EXPIRED; else one
whose tag is not the context number in force REFUSED_STALE; else one the tray state does not permit REFUSED_STATE. None
of them has another effect. (R163, R164, R165, R170) -/
def Obligations.HostCommandsAreRefusedInOrder : Prop :=
  (∀ s : State, RefusesInOrder s 0 (fun s => s.get CSYS.TRAY_STATE.cl == 2 && s.is CPUMP.FLOW_PROVEN.cl) (exec .bringup
  s)) ∧
  (∀ s : State, RefusesInOrder s 1 (fun s => (s.get CSYS.TRAY_STATE.cl == 3 || s.get CSYS.TRAY_STATE.cl == 4) &&
      (List.range 8).all (fun n => s.get (CTX.STATE.on n) == 0)) (exec .powerDown s)) ∧
  (∀ s : State, RefusesInOrder s 2 (fun s => s.get CSYS.TRAY_STATE.cl == 4) (exec .ctxOpen s)) ∧
  (∀ s : State, RefusesInOrder s 3 (fun s => s.get CSYS.TRAY_STATE.cl == 5) (exec .ctxClose s)) ∧
  (∀ s : State, RefusesInOrder s 4 State.mgmtReady (exec .clearTrip s)) ∧
  (∀ s : State, RefusesInOrder s 5 State.mgmtReady (exec .setThrottle s)) ∧
  (∀ s : State, RefusesInOrder s 6 State.mgmtReady (exec .setForecast s)) ∧
  (∀ s : State, RefusesInOrder s 7 State.mgmtReady (exec .clearSensor s)) ∧
  (∀ s : State, RefusesInOrder s 8 State.mgmtReady (exec .setFanFloor s)) ∧
  (∀ s : State, RefusesInOrder s 9 State.mgmtReady (exec .setPumpFloor s)) ∧
  (∀ s : State, RefusesInOrder s 10 State.mgmtReady (exec .clearCoolFault s)) ∧
  (∀ s : State, RefusesInOrder s 11 State.mgmtReady (exec .clearHostFloors s)) ∧
  (∀ s : State, RefusesInOrder s 12 (fun s => s.get CSYS.TRAY_STATE.cl == 6) (exec .testRequest s)) ∧
  (∀ s : State, RefusesInOrder s 13 (fun s => s.get CSYS.TRAY_STATE.cl == 6) (exec .testCancel s)) ∧
  (∀ s : State, RefusesInOrder s 14 State.mgmtReady (exec .afeCalibrate s)) ∧
  (∀ s : State, RefusesInOrder s 15 State.mgmtReady (exec .setTestPeriod s)) ∧
  (∀ s : State, RefusesInOrder s 16 State.mgmtReady (exec .flush s)) ∧
  (∀ s : State, RefusesInOrder s 17 State.mgmtReady (exec .setClass s)) ∧
  (∀ s : State, RefusesInOrder s 18 State.mgmtReady (exec .setFlushMark s)) ∧
  (∀ s : State, RefusesInOrder s 19 State.mgmtReady (exec .clearFlashFault s))

/-- For every operation of the MAC, bay, scalar and keyway slots of a tumbler: where the word marks the slot in PAPPLY, and
the predicate that PSEL names, inverted where bit 125 is 1, is false, the command changes nothing but the note that the
slot has had its turn in this cycle: no register, flag, bay line, port, route or pending write changes, and INC is not
done. (R180, R183) -/
def Obligations.ASlotWhoseGuardIsFalseIssuesNothing : Prop :=
  (∀ (s : State) (t : Tumbler), s.GuardFalse t 121 → IssuesNothing s t .mac (exec (.outer t) s)) ∧
  (∀ (s : State) (t : Tumbler), s.GuardFalse t 121 → IssuesNothing s t .mac (exec (.mm4 t) s)) ∧
  (∀ (s : State) (t : Tumbler), s.GuardFalse t 121 → IssuesNothing s t .mac (exec (.accrd t) s)) ∧
  (∀ (s : State) (t : Tumbler), s.GuardFalse t 121 → IssuesNothing s t .mac (exec (.accwr t) s)) ∧
  (∀ (s : State) (t : Tumbler), s.GuardFalse t 121 → IssuesNothing s t .mac (exec (.pack8 t) s)) ∧
  (∀ (s : State) (t : Tumbler), s.GuardFalse t 121 → IssuesNothing s t .mac (exec (.pack16 t) s)) ∧
  (∀ (s : State) (t : Tumbler), s.GuardFalse t 121 → IssuesNothing s t .mac (exec (.unpack t) s)) ∧
  (∀ (s : State) (t : Tumbler), s.GuardFalse t 121 → IssuesNothing s t .mac (exec (.vadd t) s)) ∧
  (∀ (s : State) (t : Tumbler), s.GuardFalse t 121 → IssuesNothing s t .mac (exec (.vsub t) s)) ∧
  (∀ (s : State) (t : Tumbler), s.GuardFalse t 121 → IssuesNothing s t .mac (exec (.vmul t) s)) ∧
  (∀ (s : State) (t : Tumbler), s.GuardFalse t 121 → IssuesNothing s t .mac (exec (.vmax t) s)) ∧
  (∀ (s : State) (t : Tumbler), s.GuardFalse t 121 → IssuesNothing s t .mac (exec (.vmin t) s)) ∧
  (∀ (s : State) (t : Tumbler), s.GuardFalse t 121 → IssuesNothing s t .mac (exec (.vmov t) s)) ∧
  (∀ (s : State) (t : Tumbler) (corrected : BitVec 4) (bad : BitVec 4), s.GuardFalse t 119 → IssuesNothing s t .bay
  (exec (.bld t corrected bad) s)) ∧
  (∀ (s : State) (t : Tumbler), s.GuardFalse t 119 → IssuesNothing s t .bay (exec (.bst t) s)) ∧
  (∀ (s : State) (t : Tumbler) (corrected : BitVec 4) (bad : BitVec 4), s.GuardFalse t 119 → IssuesNothing s t .bay
  (exec (.blds t corrected bad) s)) ∧
  (∀ (s : State) (t : Tumbler), s.GuardFalse t 119 → IssuesNothing s t .bay (exec (.bsts t) s)) ∧
  (∀ (s : State) (t : Tumbler), s.GuardFalse t 120 → IssuesNothing s t .scalar (exec (.add t) s)) ∧
  (∀ (s : State) (t : Tumbler), s.GuardFalse t 120 → IssuesNothing s t .scalar (exec (.sub t) s)) ∧
  (∀ (s : State) (t : Tumbler), s.GuardFalse t 120 → IssuesNothing s t .scalar (exec (.addi t) s)) ∧
  (∀ (s : State) (t : Tumbler), s.GuardFalse t 120 → IssuesNothing s t .scalar (exec (.and t) s)) ∧
  (∀ (s : State) (t : Tumbler), s.GuardFalse t 120 → IssuesNothing s t .scalar (exec (.or t) s)) ∧
  (∀ (s : State) (t : Tumbler), s.GuardFalse t 120 → IssuesNothing s t .scalar (exec (.xor t) s)) ∧
  (∀ (s : State) (t : Tumbler), s.GuardFalse t 120 → IssuesNothing s t .scalar (exec (.shl t) s)) ∧
  (∀ (s : State) (t : Tumbler), s.GuardFalse t 120 → IssuesNothing s t .scalar (exec (.shr t) s)) ∧
  (∀ (s : State) (t : Tumbler), s.GuardFalse t 120 → IssuesNothing s t .scalar (exec (.sra t) s)) ∧
  (∀ (s : State) (t : Tumbler), s.GuardFalse t 120 → IssuesNothing s t .scalar (exec (.movi t) s)) ∧
  (∀ (s : State) (t : Tumbler), s.GuardFalse t 120 → IssuesNothing s t .scalar (exec (.ori t) s)) ∧
  (∀ (s : State) (t : Tumbler), s.GuardFalse t 120 → IssuesNothing s t .scalar (exec (.shli t) s)) ∧
  (∀ (s : State) (t : Tumbler), s.GuardFalse t 120 → IssuesNothing s t .scalar (exec (.fadd t) s)) ∧
  (∀ (s : State) (t : Tumbler), s.GuardFalse t 120 → IssuesNothing s t .scalar (exec (.fsub t) s)) ∧
  (∀ (s : State) (t : Tumbler), s.GuardFalse t 120 → IssuesNothing s t .scalar (exec (.cmpeq t) s)) ∧
  (∀ (s : State) (t : Tumbler), s.GuardFalse t 120 → IssuesNothing s t .scalar (exec (.cmplt t) s)) ∧
  (∀ (s : State) (t : Tumbler), s.GuardFalse t 120 → IssuesNothing s t .scalar (exec (.cmpltu t) s)) ∧
  (∀ (s : State) (t : Tumbler), s.GuardFalse t 120 → IssuesNothing s t .scalar (exec (.fcmplt t) s)) ∧
  (∀ (s : State) (t : Tumbler), s.GuardFalse t 120 → IssuesNothing s t .scalar (exec (.fcmpeq t) s)) ∧
  (∀ (s : State) (t : Tumbler), s.GuardFalse t 120 → IssuesNothing s t .scalar (exec (.cmpeqi t) s)) ∧
  (∀ (s : State) (t : Tumbler), s.GuardFalse t 120 → IssuesNothing s t .scalar (exec (.pand t) s)) ∧
  (∀ (s : State) (t : Tumbler), s.GuardFalse t 120 → IssuesNothing s t .scalar (exec (.por t) s)) ∧
  (∀ (s : State) (t : Tumbler), s.GuardFalse t 120 → IssuesNothing s t .scalar (exec (.pnot t) s)) ∧
  (∀ (s : State) (t : Tumbler), s.GuardFalse t 120 → IssuesNothing s t .scalar (exec (.loopi t) s)) ∧
  (∀ (s : State) (t : Tumbler), s.GuardFalse t 120 → IssuesNothing s t .scalar (exec (.itof t) s)) ∧
  (∀ (s : State) (t : Tumbler), s.GuardFalse t 120 → IssuesNothing s t .scalar (exec (.ftoi t) s)) ∧
  (∀ (s : State) (t : Tumbler), s.GuardFalse t 118 → IssuesNothing s t .vectorSend (exec (.vectorRouteSend t) s)) ∧
  (∀ (s : State) (t : Tumbler), s.GuardFalse t 118 → IssuesNothing s t .vectorCapture (exec (.vectorRouteCapture t) s)) ∧
  (∀ (s : State) (t : Tumbler), s.GuardFalse t 118 → IssuesNothing s t .scalarSend (exec (.scalarRouteSend t) s)) ∧
  (∀ (s : State) (t : Tumbler), s.GuardFalse t 118 → IssuesNothing s t .scalarCapture (exec (.scalarRouteCapture t) s))

/-- For every command, queue and state: a step of the state with the command at the front of its queue is the effect of that
command on the state with the rest of the queue. (95_what_each_step_holds.md) -/
def Obligations.StepRunsTheCommandInFront : Prop :=
  ∀ (c : Instr) (rest : List Instr) (s : State),
    step { s with pending := c :: rest } = exec c { s with pending := rest }

/-- The model's choice (log entry 5): a step on an empty queue answers the same state with the clock one microsecond on.
(95_what_each_step_holds.md, R4) -/
def Obligations.IdlingPassesAMicrosecond : Prop :=
  ∀ s : State, s.pending = [] → step s = .next { s with clock := s.clock + 1 }

/-- For every one of the commands and every state: the command answers a next state, so that none of them stops the machine.
The commands that wait and the clock are as they were, and the counter of free values never goes back. Every operation
of the spec completes, is refused or is discarded by effects on the state alone. (R4, R33, R41, R70) -/
def Obligations.EveryCommandLeavesTheQueueAndTheClockAlone : Prop :=
  ∀ (c : Instr) (s : State), Answers c s (fun t => t.pending = s.pending ∧ t.clock = s.clock ∧ s.freeCtr ≤ t.freeCtr)

/-- Invariant: where the tables of register fields, shadow copies, factory fields and dies have rising keys and deep memory
lists rising addresses with no byte that an unlisted address reads as, the state after any step has them so as well.
Equal machines are therefore equal data along every run. (R8, R62) -/
def Obligations.EveryStepKeepsTheStateWellFormed : Prop :=
  ∀ s t : State, s.WellFormed → Steps s t → t.WellFormed

/-- The state at power-on reset satisfies the invariant: every table rises by key, and deep memory lists nothing. (R59) -/
def Obligations.ResetIsWellFormed : Prop :=
  State.reset.WellFormed ∧ State.reset.mem = [] ∧ State.reset.pending = []

/-- For every well-formed state with any queue of commands: each state a run of steps reaches is well formed, and from each
a further step answers a next state. No sequence of writes, frames, bus operations, pin events and engine steps ends the
machine in a fault or a refusal. (R4, R33, R41, R70) -/
def Obligations.EveryWellFormedStateIsSafe : Prop :=
  ∀ s : State, s.WellFormed → Safe s

/-- A FUSE field is spent by its first write ever: once a state of a run records the field as spent, every later state does,
whatever commands run, resets of every kind among them. (R57, R59, R60) -/
def Obligations.SpentFusesStaySpent : Prop :=
  ∀ (s t : State) (k : Nat), Runs s t → s.fuseSpent k → t.fuseSpent k

/-- For every requester, chip, offset of a register and byte enables, of 32 bits and of 64: a read answers a next state that is the
state before but for the captures, and for the answer that the reader receives. A capture of another pair, or for another
requester, stands as it was. (An offset of a reserved range holds no register.) (R46, R49) -/
def Obligations.NoRegisterReadHasASideEffect : Prop :=
  ∀ (s : State) (req : Requester) (chip : Fin 9) (offset : BitVec 24) (enables : BitVec 4) (high : Option (BitVec 4)),
    reservedRange chip.val (offset.toNat / 4 * 4) = false →
    (high = none ∨ reservedRange chip.val (offset.toNat / 4 * 4 + 4) = false) →
    ∃ (captures : List (Nat × Nat × Nat)) (a : List Byte),
      exec (.lowWordRead req chip offset enables high) s = .next { s with capture := captures, answer := a } ∧
        (∀ k r : Nat, r ≠ req.val → pairEntry captures k r = pairEntry s.capture k r) ∧
        ∀ k : Nat, (∀ lo hi i, ∀ o ∈ [offset.toNat / 4 * 4, offset.toNat / 4 * 4 + 4],
          lowPairAt chip.val o = some (lo, hi, i) ∨ highPairAt chip.val o = some (lo, hi, i) → k ≠ (lo.at chip.val i).key) →
          pairEntry captures k req.val = pairEntry s.capture k req.val

/-- For each bay operation a tumbler issues on a line of 24,576 or above: no line of any bay changes. BLD and BLDS write 0
to the half of the vector register, or the scalar register, that they name; BST and BSTS write none. The tumbler sets
BR. INC still applies: the pending write of S[SB] + 1 is made where the word asks for it. (R187) -/
def Obligations.BayAccessBeyondTheLastLineIsNotPerformed : Prop :=
  (∀ (s : State) (t : Tumbler) (corrected bad : BitVec 4) (y : Tum) (w : Nat), s.CanIssue t .bay y w → 24576 ≤ bayLine y w →
    bop w = 1 → Answers (.bld t corrected bad) s (fun u => (∀ d : Nat, (u.die d).bays = (s.die d).bays) ∧
      ∃ x : Tum, u.tum t.die.val (posOf t) = x.inc w ∧ x.flags = y.flags ||| 8 ∧ x.vec = y.vec ∧ x.scal = y.scal ∧ x.preds = y.preds ∧
        x.writes = y.writes ++ [⟨y.cycle + 4, .vec, bayReg w, 128 * (baySub w % 2), 128, 0, 0⟩])) ∧
  (∀ (s : State) (t : Tumbler) (corrected bad : BitVec 4) (y : Tum) (w : Nat), s.CanIssue t .bay y w → 24576 ≤ bayLine y w →
    bop w = 3 → Answers (.blds t corrected bad) s (fun u => (∀ d : Nat, (u.die d).bays = (s.die d).bays) ∧
      ∃ x : Tum, u.tum t.die.val (posOf t) = x.inc w ∧ x.flags = y.flags ||| 8 ∧ x.vec = y.vec ∧ x.scal = y.scal ∧ x.preds = y.preds ∧
        x.writes = y.writes ++ [⟨y.cycle + 4, .scal, bayReg w % 16, 0, 32, 0, 0⟩])) ∧
  (∀ (s : State) (t : Tumbler) (y : Tum) (w : Nat), s.CanIssue t .bay y w → 24576 ≤ bayLine y w →
    bop w = 2 → Answers (.bst t) s (fun u => (∀ d : Nat, (u.die d).bays = (s.die d).bays) ∧
      ∃ x : Tum, u.tum t.die.val (posOf t) = x.inc w ∧ x.flags = y.flags ||| 8 ∧ x.vec = y.vec ∧ x.scal = y.scal ∧ x.preds = y.preds ∧
        x.writes = y.writes)) ∧
  (∀ (s : State) (t : Tumbler) (y : Tum) (w : Nat), s.CanIssue t .bay y w → 24576 ≤ bayLine y w →
    bop w = 4 → Answers (.bsts t) s (fun u => (∀ d : Nat, (u.die d).bays = (s.die d).bays) ∧
      ∃ x : Tum, u.tum t.die.val (posOf t) = x.inc w ∧ x.flags = y.flags ||| 8 ∧ x.vec = y.vec ∧ x.scal = y.scal ∧ x.preds = y.preds ∧
        x.writes = y.writes))

/-- For a zone in curve mode with four points whose temperatures are strictly ascending: the demand is D0 where the
temperature is at most T0, D3 where it is at least T3, and between two points the linear interpolation, rounded to the
nearest unit with halves rounded up: with w the distance of the two temperatures, 2·w·demand ≤ 2·(w times the exact
value) + w < 2·w·(demand + 1). (R510) -/
def Obligations.CurveDemandInterpolates : Prop :=
  ∀ (s : State) (z : Fin 16),
    let T : Nat → Int := fun i => s.s16 (CDEM.T.clAt (4 * z.val + i))
    let D : Nat → Int := fun i => s.get (CDEM.D.clAt (4 * z.val + i))
    let t : Int := s.s16 (TZONE.T_Z.clAt z.val)
    T 0 < T 1 → T 1 < T 2 → T 2 < T 3 →
      (t ≤ T 0 → s.curveDemand z.val = D 0) ∧ (T 3 ≤ t → s.curveDemand z.val = D 3) ∧
      ∀ i < 3, T i ≤ t → t ≤ T (i + 1) →
        let w := T (i + 1) - T i
        let exactly := D i * w + (D (i + 1) - D i) * (t - T i)
        2 * w * s.curveDemand z.val ≤ 2 * exactly + w ∧ 2 * exactly + w < 2 * w * (s.curveDemand z.val + 1)

/-- For every state, address, length and value: after the value is stored as so many bytes, byte i from the address is the
value divided by 256 to the i, modulo 256; loading as many bytes gives the value modulo 256 to the length; every byte
outside reads as before. (R8) -/
def Obligations.MemoryReadsBackLittleEndian : Prop :=
  ∀ (s : State) (a n v : Nat),
    (∀ i < n, ((s.store a n v).byte (a + i)).toNat = v / 256 ^ i % 256) ∧ (s.store a n v).load a n = v % 256 ^ n ∧
      ∀ c : Nat, c < a ∨ a + n ≤ c → (s.store a n v).byte c = s.byte c

/-- For every agent, die out of reset and permitted write with no memory error, inside the 2^40 bytes of the die: byte i of
the data stands at the address plus i of that die afterwards; every other byte of every die reads as before; no
register, table or die state changes, and nothing is answered. (R8, R279, R280) -/
def Obligations.AMemoryWriteStoresItsBytesAndNoOthers : Prop :=
  ∀ (s : State) (die : DieNo) (agent : Agent) (address : BitVec 40) (data : List Byte),
    s.inReset die.val = false → s.permitted die.val (agentKind agent) true address.toNat data.length = true →
    address.toNat + data.length ≤ 2 ^ 40 →
    Answers (.memoryAccess die agent address (.write data) ⟨[], []⟩) s (fun t =>
      (∀ i : Nat, ∀ h : i < data.length, t.byte (gaddr die.val (address.toNat + i)) = data[i]) ∧
      (∀ a : Nat, (∀ i < data.length, a ≠ gaddr die.val (address.toNat + i)) → t.byte a = s.byte a) ∧
      t = { s with mem := t.mem, answer := [] })

/-- When a PWM period starts, the driven duty of every output is the commanded duty, and 0 where no fan or pump is fitted;
no duty commanded and no target changes, and deep memory and the dies are left alone. (R505, R507) -/
def Obligations.PwmPeriodDrivesTheCommandedDuties : Prop :=
  ∀ s : State, Answers .pwmPeriod s (fun t =>
    (∀ k : Fin 14, t.get (dutyOf k.val) = if s.fitted k.val then s.get (COOLI.CMD.clAt k.val) % 1024 else 0) ∧
    (∀ k : Fin 14, t.get (COOLI.CMD.clAt k.val) = s.get (COOLI.CMD.clAt k.val)) ∧
    (∀ g : Fin 4, t.get (CFAN.TARGET.clAt g.val) = s.get (CFAN.TARGET.clAt g.val)) ∧ t.mem = s.mem ∧ t.dies = s.dies)

/-- For a scalar result of latency 1 or more, on its way to a register that no other pending write reaches: before the cycle
of issue plus the latency the register reads as it did, and from that cycle on it reads the result; no flag, predicate
or vector register changes by it. (R197) -/
def Obligations.AResultIsReadAfterItsLatencyAndNotBefore : Prop :=
  ∀ (x : Tum) (free c lat i v rank : Nat), x.writes = [] → rank ≤ 9 →
    ((x.later lat .scal i 0 32 v rank).arrive free c).s i % 2 ^ 32 = (if c < x.cycle + lat then x.s i else v) % 2 ^ 32 ∧
      (∀ j : Nat, j ≠ i → ((x.later lat .scal i 0 32 v rank).arrive free c).s j = x.s j) ∧
      ((x.later lat .scal i 0 32 v rank).arrive free c).vec = x.vec ∧
      ((x.later lat .scal i 0 32 v rank).arrive free c).preds = x.preds ∧
      ((x.later lat .scal i 0 32 v rank).arrive free c).flags = x.flags

/-- In the state at power-on reset, registers of each group read the Reset value of their page: the tray in STANDBY with
every die tripped, the standby cooling regime, the limits and timeouts of the sequencer, controllers, thermal zones,
cooling, two-wire engines and recorder, and on each die the clock, formation, stream, ring, scan, error-limit, test and
link fields. (R59, R123, R128) -/
def Obligations.ResetValuesAreThoseOfThePages : Prop :=
  State.reset.get FENCE.TRIP_NOW.cl = 0xFF ∧ State.reset.get CSYS.TRAY_STATE.cl = 1 ∧
    State.reset.get CRST.POR.cl = 1 ∧ State.reset.get CSB.ENABLE.cl = 0xFF ∧ State.reset.get SEQ.GAP_US.cl = 200 ∧
    State.reset.get CFAN.CTRL_PERIOD.cl = 250 ∧ State.reset.get CFAN.STANDBY_REGIME.cl = 1 ∧
    State.reset.get EVREC.FLUSH_MARK.cl = 64 ∧ State.reset.get HLS.LEAK_TRIP.cl = 150 ∧
    State.reset.get HLS.TA_TRIP.cl = 1000 ∧
  (∀ k : Fin 4, State.reset.get (MCCTL.WDT_TIMEOUT.clAt k.val) = 10000) ∧
  (∀ k : Fin 8, State.reset.get (AFECTL.CE0_GAIN.clAt k.val) = 0x3F800000) ∧
  (∀ k : Fin 48, State.reset.get (TCFG.RATE_WIN.clAt k.val) = 3) ∧
  (∀ k : Fin 16, State.reset.get (TZONE.TTT.clAt k.val) = 0xFFFF) ∧
  (∀ k : Fin 6, State.reset.get (TW.XFER_MAX.clAt k.val) = 50) ∧
  (∀ k : Fin 2, State.reset.get (CPUMP.FLOW_MIN.clAt k.val) = 4000) ∧
  (∀ d : Fin 8, State.reset.get (DCLK.TILE_MHZ.on d.val) = 500 ∧ State.reset.get (DRST.FIRST_POWER.on d.val) = 1 ∧
    State.reset.get (ARRAY.FORM.on d.val) = 15 ∧ State.reset.get (ARRAY.FREEZE_LIMIT.on d.val) = 10000 ∧
    State.reset.get (STRM.ALT_SET.on d.val) = 127 ∧ State.reset.get (RING.CQ_LOG2.on d.val) = 9 ∧
    State.reset.get (SCAN.REGIONS.on d.val) = 7 ∧ State.reset.get (DFAULT.HBM_UE_LIMIT.on d.val) = 16 ∧
    State.reset.get (STEST.TT_CYCLES.on d.val) = 37376) ∧
  ∀ (d : Fin 8) (l : Fin 48), State.reset.get (HL.AUTO_RETRAIN.at d.val l.val) = 1 ∧
    State.reset.get (HL.UE_LIMIT.at d.val l.val) = 8

/-- For every state of the scrambler, every CCB whose fields fit its 60 bytes and every 17 words with their tags: the 544 symbols that
are sent decode, at a receiver whose descrambler is in that state, to a good codeword with no symbol corrected, with the CCB those
bytes spell and the 17 words and tags; the descrambler ends in the scrambler's state. So nothing is lost in the parity, the scrambling
or the CRC. The field polynomial, the generator's roots and the symbol order are the model's (log entry 68). (R304, R306, R307) -/
def Obligations.ACodewordSentIsReadAsItWasLaid : Prop :=
  ∀ (h : Nat) (c : Ccb) (words : List (Nat × Nat)), h < 2 ^ 58 → words.length = 17 →
    (∀ w ∈ words, w.1 < 65536 ∧ w.2 < 2 ^ 256) → c.form < 2 ^ 480 →
    decodeCodeword h (codewordOf h (messageOf c words)).1 =
      (.good 0 (ccbOf c.form) words, (codewordOf h (messageOf c words)).2)
end

