-- ==== Sys2Proof/Laws/Codeword.lean ====
section
/-! SUPPORT. The codewords of a link: the Reed-Solomon parity and the scrambler, each taken back by its inverse. -/

namespace Sys2Proof.Machine

/-- Forcing an argument changes no value. -/
@[simp] theorem forced_eq {α : Type} (n : Nat) (f : Nat → α) : forced n f = f n := by cases n <;> rfl

/-- Packing numbers of 10 bits that were unpacked gives them back. -/
theorem packed_unpacked (n v : Nat) : packed (unpacked n v) = v % 1024 ^ n := by
  induction n generalizing v with
  | zero => simp [unpacked, packed, Nat.mod_one]
  | succ n ih => rw [unpacked, packed, ih, Nat.pow_succ', Nat.mod_mul]

theorem length_unpacked (n v : Nat) : (unpacked n v).length = n := by
  induction n generalizing v with
  | zero => rfl
  | succ n ih => simp [unpacked, ih]

/-- Rows below a power of two add up below it. -/
theorem rsPick_lt (rows : List Nat) (h : ∀ r ∈ rows, r < 2 ^ 300) (f : Nat) : rsPick rows f < 2 ^ 300 := by
  induction rows generalizing f with
  | nil => simp [rsPick]
  | cons r t ih =>
    rw [rsPick]
    refine Nat.xor_lt_two_pow ?_ (ih (fun x hx => h x (by simp [hx])) _)
    have : f % 2 = 0 ∨ f % 2 = 1 := by omega
    rcases this with e | e <;> simp [e]
    simpa using h r (by simp)

/-- The remainder stays 30 symbols long. -/
theorem rsStep_lt (r sym : Nat) : rsStep r sym < 2 ^ 300 := by
  unfold rsStep
  refine Nat.xor_lt_two_pow ?_ (rsPick_lt _ (by decide) _)
  have := Nat.mod_lt r (show 0 < 2 ^ 290 by decide)
  omega

/-- The parity of a message is 30 symbols. -/
theorem rsParity_lt (msg : List Nat) : rsParity msg < 2 ^ 300 := by
  unfold rsParity
  induction msg using List.reverseRecOn with
  | nil => simp
  | append_singleton l a ih => rw [List.foldl_append]; exact rsStep_lt _ _

/-- An encoded message differs from a codeword by nothing. -/
theorem rsResidue_encode (v : Nat) : rsResidue (rsEncode (unpacked 514 v)) = 0 := by
  have l := length_unpacked 514 v
  unfold rsResidue rsEncode
  rw [List.take_left' l, List.drop_left' l, List.reverse_reverse, packed_unpacked,
    Nat.mod_eq_of_lt (by rw [show (1024 : Nat) ^ 30 = 2 ^ 300 by rw [show (1024 : Nat) = 2 ^ 10 by rfl, ← Nat.pow_mul]]; exact rsParity_lt _)]
  exact Nat.xor_self _

/-- An encoded message is decoded as it stands, no symbol corrected (R304, R307). -/
theorem rsDecode_encode (v : Nat) : rsDecode (rsEncode (unpacked 514 v)) = some (rsEncode (unpacked 514 v), 0) := by
  unfold rsDecode; rw [rsResidue_encode]; rfl

/-- What the descrambler forms of the bits it has: each with the 39th and 58th before it. -/
def taps (x : Nat) : Nat := x / 2 ^ 58 ^^^ x / 2 ^ 19 ^^^ x

/-- What the descrambler forms of later bits is the later part of what it forms. -/
theorem taps_div (x j : Nat) : taps x / 2 ^ j = taps (x / 2 ^ j) := by
  unfold taps
  simp only [← Nat.shiftRight_eq_div_pow, Nat.shiftRight_xor_distrib, ← Nat.shiftRight_add]
  simp only [Nat.add_comm]

/-- Bits beyond the reach of the taps do not matter. -/
theorem taps_low (x y n : Nat) : taps (x + 2 ^ (n + 58) * y) % 2 ^ n = taps x % 2 ^ n := by
  have a : (x + 2 ^ (n + 58) * y) / 2 ^ 58 = x / 2 ^ 58 + 2 ^ n * y := by
    rw [Nat.pow_add, Nat.mul_right_comm, Nat.mul_comm _ (2 ^ 58), Nat.add_mul_div_left _ _ (by decide)]
  have b : (x + 2 ^ (n + 58) * y) / 2 ^ 19 = x / 2 ^ 19 + 2 ^ n * (2 ^ 39 * y) := by
    rw [show n + 58 = n + 39 + 19 by omega, Nat.pow_add _ _ 19, Nat.mul_right_comm, Nat.mul_comm _ (2 ^ 19), Nat.add_mul_div_left _ _ (by decide),
      Nat.pow_add, Nat.mul_assoc]
  have c : x + 2 ^ (n + 58) * y = x + 2 ^ n * (2 ^ 58 * y) := by rw [Nat.pow_add, Nat.mul_assoc]
  unfold taps
  rw [a, b, c]
  simp only [Nat.xor_mod_two_pow, Nat.add_mul_mod_self_left]

/-- A piece of up to 39 bits scrambled comes back. -/
theorem taps_step (h v n : Nat) (hh : h < 2 ^ 58) (hn : n ≤ 39) :
    taps (h + (v ^^^ h / 2 ^ 19 ^^^ h) % 2 ^ n * 2 ^ 58) % 2 ^ n = v % 2 ^ n := by
  generalize hc : (v ^^^ h / 2 ^ 19 ^^^ h) % 2 ^ n = c
  have hp : (2 : Nat) ^ 39 = 2 ^ n * 2 ^ (39 - n) := by rw [← Nat.pow_add]; congr 1; omega
  have a : (h + c * 2 ^ 58) / 2 ^ 58 = c := by
    rw [Nat.mul_comm, Nat.add_mul_div_left _ _ (by decide), Nat.div_eq_of_lt hh, Nat.zero_add]
  have b : (h + c * 2 ^ 58) / 2 ^ 19 = h / 2 ^ 19 + 2 ^ n * (2 ^ (39 - n) * c) := by
    rw [show c * 2 ^ 58 = 2 ^ 19 * (2 ^ 39 * c) by ring, Nat.add_mul_div_left _ _ (by decide), hp, Nat.mul_assoc]
  have d : h + c * 2 ^ 58 = h + 2 ^ n * (2 ^ (39 - n) * 2 ^ 19 * c) := by
    rw [show c * 2 ^ 58 = 2 ^ 39 * 2 ^ 19 * c by ring, hp]; ring
  unfold taps
  rw [a, b, d]
  simp only [Nat.xor_mod_two_pow, Nat.add_mul_mod_self_left]
  rw [← hc]
  simp only [Nat.xor_mod_two_pow, Nat.mod_mod]
  generalize v % 2 ^ n = p
  generalize h / 2 ^ 19 % 2 ^ n = q
  generalize h % 2 ^ n = r
  apply Nat.eq_of_testBit_eq
  intro i
  simp only [Nat.testBit_xor]
  cases p.testBit i <;> cases q.testBit i <;> cases r.testBit i <;> rfl

/-- All that scrambling by 39 bits does: the descrambler takes it back, it keeps the length, and the next state is the last 58 bits sent. -/
theorem scrambleBy_spec (k h v : Nat) (hh : h < 2 ^ 58) :
    taps (h + (scrambleBy k h v).1 * 2 ^ 58) % 2 ^ (39 * k) = v % 2 ^ (39 * k) ∧
      (scrambleBy k h v).1 < 2 ^ (39 * k) ∧ (scrambleBy k h v).2 = (h + (scrambleBy k h v).1 * 2 ^ 58) / 2 ^ (39 * k) := by
  induction k generalizing h v with
  | zero => simp [scrambleBy, Nat.mod_one]
  | succ k ih =>
    have hc : (v ^^^ h / 2 ^ 19 ^^^ h) % 2 ^ 39 < 2 ^ 39 := Nat.mod_lt _ (by decide)
    have step := taps_step h v 39 hh (le_refl _)
    simp only [scrambleBy]
    change (_ : Nat) = _ ∧ _
    have e : Nat.xor (Nat.xor v (h / 2 ^ 19)) h = v ^^^ h / 2 ^ 19 ^^^ h := rfl
    simp only [e]
    generalize (v ^^^ h / 2 ^ 19 ^^^ h) % 2 ^ 39 = c at *
    have h1 : (h + c * 2 ^ 58) / 2 ^ 39 < 2 ^ 58 := by
      rw [Nat.div_lt_iff_lt_mul (by decide)]
      have : (c + 1) * 2 ^ 58 ≤ 2 ^ 39 * 2 ^ 58 := Nat.mul_le_mul_right _ hc
      omega
    obtain ⟨i1, i2, i3⟩ := ih ((h + c * 2 ^ 58) / 2 ^ 39) (v / 2 ^ 39) h1
    generalize scrambleBy k ((h + c * 2 ^ 58) / 2 ^ 39) (v / 2 ^ 39) = r at *
    have x : h + (c + 2 ^ 39 * r.1) * 2 ^ 58 = h + c * 2 ^ 58 + 2 ^ (39 + 58) * r.1 := by ring
    have y : (h + (c + 2 ^ 39 * r.1) * 2 ^ 58) / 2 ^ 39 = (h + c * 2 ^ 58) / 2 ^ 39 + r.1 * 2 ^ 58 := by
      rw [show h + (c + 2 ^ 39 * r.1) * 2 ^ 58 = h + c * 2 ^ 58 + 2 ^ 39 * (r.1 * 2 ^ 58) by ring, Nat.add_mul_div_left _ _ (by decide)]
    have p : (2 : Nat) ^ (39 * (k + 1)) = 2 ^ 39 * 2 ^ (39 * k) := by rw [← Nat.pow_add]; congr 1; ring
    refine ⟨?_, ?_, ?_⟩
    · rw [p, Nat.mod_mul, taps_div, y, i1, Nat.mod_mul, x, taps_low, step]
    · rw [p]
      have : 2 ^ 39 * (r.1 + 1) ≤ 2 ^ 39 * 2 ^ (39 * k) := Nat.mul_le_mul_left _ i2
      omega
    · rw [i3, p, ← Nat.div_div_eq_div_mul, y]

/-- A number below 2^n with one below 2^k above it is below 2^(n + k). -/
theorem append_lt (n k a c : Nat) (ha : a < 2 ^ n) (hc : c < 2 ^ k) : a + c * 2 ^ n < 2 ^ (n + k) := by
  have : (c + 1) * 2 ^ n ≤ 2 ^ k * 2 ^ n := Nat.mul_le_mul_right _ hc
  rw [Nat.add_mul, Nat.one_mul, ← Nat.pow_add, Nat.add_comm k] at this
  omega

/-- A scrambled message has 5,140 bits. -/
theorem scramble_lt (h v : Nat) (hh : h < 2 ^ 58) : (scramble h v).1 < 2 ^ 5140 :=
  append_lt 5109 31 _ _ (scrambleBy_spec 131 h v hh).2.1 (Nat.mod_lt _ (by decide))

theorem descramble_eq (h n v : Nat) : descramble h n v = (taps (h + v * 2 ^ 58) % 2 ^ n, (h + v * 2 ^ 58) / 2 ^ n % 2 ^ 58) := rfl

/-- The descrambler takes off what the scrambler of the same state put on, and ends in the same state (R304). -/
theorem descramble_scramble (h v : Nat) (hh : h < 2 ^ 58) :
    descramble h 5140 (scramble h v).1 = (v % 2 ^ 5140, (scramble h v).2) := by
  obtain ⟨s1, s2, s3⟩ := scrambleBy_spec 131 h v hh
  have t := taps_step (scrambleBy 131 h v).2 (v / 2 ^ 5109) 31
  rw [descramble_eq]
  unfold scramble
  have e : ∀ a : Nat, Nat.xor (Nat.xor (v / 2 ^ 5109) (a / 2 ^ 19)) a = v / 2 ^ 5109 ^^^ a / 2 ^ 19 ^^^ a := fun _ => rfl
  simp only [e]
  generalize hr : scrambleBy 131 h v = r at *
  have h2 : r.2 < 2 ^ 58 := by
    rw [s3, Nat.div_lt_iff_lt_mul (Nat.pow_pos (by decide)), show (2 : Nat) ^ 58 * 2 ^ (39 * 131) = 2 ^ (39 * 131) * 2 ^ 58 from Nat.mul_comm _ _]
    have : (r.1 + 1) * 2 ^ 58 ≤ 2 ^ (39 * 131) * 2 ^ 58 := Nat.mul_le_mul_right _ s2
    rw [Nat.add_mul, Nat.one_mul] at this
    exact Nat.lt_of_lt_of_le (by rw [Nat.add_comm]; exact Nat.add_lt_add_left hh _) this
  have t := t h2 (by decide)
  have hc : (v / 2 ^ 5109 ^^^ r.2 / 2 ^ 19 ^^^ r.2) % 2 ^ 31 < 2 ^ 31 := Nat.mod_lt _ (by decide)
  generalize (v / 2 ^ 5109 ^^^ r.2 / 2 ^ 19 ^^^ r.2) % 2 ^ 31 = c at *
  have p : (2 : Nat) ^ 5140 = 2 ^ (39 * 131) * 2 ^ 31 := by rw [← Nat.pow_add]
  have q : (5109 : Nat) = 39 * 131 := rfl
  have x : h + (r.1 + c * 2 ^ 5109) * 2 ^ 58 = h + r.1 * 2 ^ 58 + 2 ^ (39 * 131 + 58) * c := by rw [q, Nat.pow_add]; ring
  have y : (h + (r.1 + c * 2 ^ 5109) * 2 ^ 58) / 2 ^ (39 * 131) = r.2 + c * 2 ^ 58 := by
    rw [s3, q, show h + (r.1 + c * 2 ^ (39 * 131)) * 2 ^ 58 = h + r.1 * 2 ^ 58 + 2 ^ (39 * 131) * (c * 2 ^ 58) by ring,
      Nat.add_mul_div_left _ _ (Nat.pow_pos (by decide))]
  refine Prod.ext ?_ ?_
  · show taps _ % 2 ^ 5140 = v % 2 ^ 5140
    rw [p, Nat.mod_mul, taps_div, y, t, Nat.mod_mul, x, taps_low, s1]
  · show _ / 2 ^ 5140 % 2 ^ 58 = _
    rw [p, ← Nat.div_div_eq_div_mul, y]
    apply Nat.mod_eq_of_lt
    rw [Nat.div_lt_iff_lt_mul (by decide)]
    have : (c + 1) * 2 ^ 58 ≤ 2 ^ 31 * 2 ^ 58 := Nat.mul_le_mul_right _ hc
    omega

end Sys2Proof.Machine
end

