-- ==== Sys2Proof/Laws/Tables.lean ====
section
/-! SUPPORT. The sparse tables: what a lookup finds after a change, and that every change keeps the one form. -/

namespace Sys2Proof.Machine

variable {α : Type}

@[simp] theorem aget_nil (q : Nat) : aget ([] : List (Nat × α)) q = none := rfl

@[simp] theorem aget_cons (k : Nat) (v : α) (l : List (Nat × α)) (q : Nat) :
    aget ((k, v) :: l) q = if k = q then some v else aget l q := rfl

@[simp] theorem aget_aput_same (l : List (Nat × α)) (q : Nat) (w : α) : aget (aput l q w) q = some w := by
  induction l with
  | nil => simp [aput]
  | cons e t ih =>
    obtain ⟨k, v⟩ := e
    unfold aput
    split
    · simp
    · split <;> simp_all

/-- A second value listed under a key replaces the first. -/
@[simp] theorem aput_aput (l : List (Nat × α)) (q : Nat) (v w : α) : aput (aput l q v) q w = aput l q w := by
  induction l with
  | nil => simp [aput]
  | cons e t ih =>
    obtain ⟨k, x⟩ := e
    unfold aput
    by_cases h : k = q
    · simp [h, aput]
    · by_cases g : q < k
      · simp [h, g, aput]
      · simp [h, g, aput, ih]

theorem aget_aput_ne (l : List (Nat × α)) (q r : Nat) (w : α) (h : q ≠ r) : aget (aput l q w) r = aget l r := by
  induction l with
  | nil => simp [aput, h]
  | cons e t ih =>
    obtain ⟨k, v⟩ := e
    unfold aput
    split
    · next e => subst e; simp [h]
    · split <;> simp_all

theorem aget_akeep (l : List (Nat × α)) (p : Nat → Bool) (q : Nat) :
    aget (akeep l p) q = if p q then aget l q else none := by
  induction l with
  | nil => simp [akeep]
  | cons e t ih =>
    obtain ⟨k, v⟩ := e
    simp only [akeep, List.filter_cons] at ih ⊢
    by_cases hk : k = q
    · subst hk; cases h : p k <;> simp_all
    · cases h : p k <;> simp_all

theorem adel_eq_akeep (l : List (Nat × α)) (q : Nat) : adel l q = akeep l (fun k => k != q) := rfl

@[simp] theorem aget_adel_same (l : List (Nat × α)) (q : Nat) : aget (adel l q) q = none := by
  simp [adel_eq_akeep, aget_akeep]

theorem aget_adel_ne (l : List (Nat × α)) (q r : Nat) (h : q ≠ r) : aget (adel l q) r = aget l r := by
  simp [adel_eq_akeep, aget_akeep, Ne.symm h]

/-- What a key reads as after `aputD` put a value under it. -/
@[simp] theorem aget_aputD_same [DecidableEq α] (l : List (Nat × α)) (q : Nat) (d w : α) :
    (aget (aputD l q d w) q).getD d = w := by
  unfold aputD; split <;> simp_all

theorem aget_aputD_ne [DecidableEq α] (l : List (Nat × α)) (q r : Nat) (d w : α) (h : q ≠ r) :
    aget (aputD l q d w) r = aget l r := by
  unfold aputD; split
  · exact aget_adel_ne l q r h
  · exact aget_aput_ne l q r w h

/-! The one form. -/

theorem mem_aput (l : List (Nat × α)) (q : Nat) (w : α) (e : Nat × α) (h : e ∈ aput l q w) : e = (q, w) ∨ e ∈ l := by
  induction l with
  | nil => simpa [aput] using h
  | cons c t ih =>
    obtain ⟨k, v⟩ := c
    unfold aput at h
    split at h
    · simp only [List.mem_cons] at h ⊢; tauto
    · split at h
      · simp only [List.mem_cons] at h ⊢; tauto
      · simp only [List.mem_cons] at h ⊢; tauto

@[simp] theorem rising_nil : Rising ([] : List (Nat × α)) := List.Pairwise.nil

theorem Rising.aput {l : List (Nat × α)} (h : Rising l) (q : Nat) (w : α) : Rising (aput l q w) := by
  induction l with
  | nil => simp [Machine.aput, Rising]
  | cons e t ih =>
    obtain ⟨k, v⟩ := e
    have ht : Rising t := (List.pairwise_cons.1 h).2
    have hk := (List.pairwise_cons.1 h).1
    unfold Machine.aput
    split
    · next e => subst e; exact List.pairwise_cons.2 ⟨fun b hb => hk b hb, ht⟩
    · split
      · next e he => exact List.pairwise_cons.2 ⟨fun b hb => by
          rcases List.mem_cons.1 hb with rfl | hb
          · exact he
          · exact Nat.lt_trans he (hk b hb), h⟩
      · next e he => exact List.pairwise_cons.2 ⟨fun b hb => by
          rcases mem_aput t q w b hb with rfl | hb
          · show k < q; omega
          · exact hk b hb, ih ht⟩

theorem Rising.filter {l : List (Nat × α)} (h : Rising l) (p : Nat × α → Bool) : Rising (l.filter p) :=
  List.Pairwise.filter p h

theorem Rising.adel {l : List (Nat × α)} (h : Rising l) (q : Nat) : Rising (adel l q) := h.filter _

theorem Rising.akeep {l : List (Nat × α)} (h : Rising l) (p : Nat → Bool) : Rising (akeep l p) := h.filter _

theorem Rising.aputD [DecidableEq α] {l : List (Nat × α)} (h : Rising l) (q : Nat) (d w : α) : Rising (aputD l q d w) := by
  unfold Machine.aputD; split
  · exact h.adel q
  · exact h.aput q w

/-- A fold of changes that keep a property keeps it. -/
theorem foldl_keeps {β γ : Type} (P : β → Prop) (f : β → γ → β) (hf : ∀ b c, P b → P (f b c)) (l : List γ) :
    ∀ b, P b → P (l.foldl f b) := by
  induction l with
  | nil => intro b h; exact h
  | cons c t ih => intro b h; exact ih _ (hf b c h)

/-! Memory. -/

/-- The canonical form as rising addresses and no entry that an unlisted address would read. -/
theorem memWf_iff (l : List Host.Cell) : memWf l = true ↔ Rising l ∧ ∀ c ∈ l, c.2 ≠ Config.unwrittenByte := by
  induction l with
  | nil => simp [memWf]
  | cons c t ih =>
    cases t with
    | nil => simp [memWf, Rising]
    | cons c' t =>
      have e : memWf (c :: c' :: t) = (c.2 != Config.unwrittenByte && decide (c.1 < c'.1) && memWf (c' :: t)) := rfl
      rw [e]
      simp only [Bool.and_eq_true, bne_iff_ne, ne_eq, decide_eq_true_eq, ih]
      constructor
      · rintro ⟨⟨h1, h2⟩, h3, h4⟩
        refine ⟨List.pairwise_cons.2 ⟨fun b hb => ?_, h3⟩, ?_⟩
        · rcases List.mem_cons.1 hb with rfl | hb
          · exact h2
          · exact Nat.lt_trans h2 ((List.pairwise_cons.1 h3).1 b hb)
        · intro b hb
          rcases List.mem_cons.1 hb with rfl | hb
          · exact h1
          · exact h4 b hb
      · rintro ⟨h1, h2⟩
        exact ⟨⟨h2 c (by simp), (List.pairwise_cons.1 h1).1 c' (by simp)⟩, (List.pairwise_cons.1 h1).2,
          fun b hb => h2 b (List.mem_cons_of_mem _ hb)⟩

theorem memWf_filter {l : List Host.Cell} (h : memWf l = true) (p : Host.Cell → Bool) : memWf (l.filter p) = true := by
  obtain ⟨h1, h2⟩ := (memWf_iff l).1 h
  exact (memWf_iff _).2 ⟨h1.filter p, fun c hc => h2 c (List.mem_filter.1 hc).1⟩

theorem memWf_aputD {l : List Host.Cell} (h : memWf l = true) (a : Nat) (b : BitVec 8) :
    memWf (aputD l a Config.unwrittenByte b) = true := by
  obtain ⟨h1, h2⟩ := (memWf_iff l).1 h
  refine (memWf_iff _).2 ⟨h1.aputD _ _ _, ?_⟩
  unfold aputD; split
  · exact fun c hc => h2 c (List.mem_filter.1 hc).1
  · next hb =>
      intro c hc
      rcases mem_aput l a b c hc with rfl | hc
      · exact hb
      · exact h2 c hc

/-- Moving a range keeps the form. -/
theorem memWf_moveRange {l : List Host.Cell} (h : memWf l = true) (src dst n : Nat) : memWf (moveRange l src dst n) = true := by
  obtain ⟨h1, h2⟩ := (memWf_iff l).1 h
  refine (memWf_iff _).2 ⟨?_, ?_⟩
  · unfold moveRange Rising
    refine List.pairwise_append.2 ⟨List.pairwise_append.2 ⟨h1.filter _, ?_, ?_⟩, h1.filter _, ?_⟩
    · refine List.pairwise_map.2 (List.Pairwise.imp_of_mem ?_ (h1.filter _))
      intro a b ha hb hab
      have ha := (List.mem_filter.1 ha).2
      have hb := (List.mem_filter.1 hb).2
      simp only [decide_eq_true_eq] at ha hb
      show a.1 - src + dst < b.1 - src + dst
      omega
    · intro a ha b hb
      have ha := (List.mem_filter.1 ha).2
      obtain ⟨c, hc, rfl⟩ := List.mem_map.1 hb
      simp only [decide_eq_true_eq] at ha
      show a.1 < c.1 - src + dst
      omega
    · intro a ha b hb
      have hb := (List.mem_filter.1 hb).2
      simp only [decide_eq_true_eq] at hb
      rcases List.mem_append.1 ha with ha | ha
      · have ha := (List.mem_filter.1 ha).2
        simp only [decide_eq_true_eq] at ha
        omega
      · obtain ⟨c, hc, rfl⟩ := List.mem_map.1 ha
        have hc := (List.mem_filter.1 hc).2
        simp only [decide_eq_true_eq] at hc
        show c.1 - src + dst < b.1
        omega
  · intro c hc
    unfold moveRange at hc
    rcases List.mem_append.1 hc with hc | hc
    · rcases List.mem_append.1 hc with hc | hc
      · exact h2 c (List.mem_filter.1 hc).1
      · obtain ⟨c', hc', rfl⟩ := List.mem_map.1 hc
        exact h2 c' (List.mem_filter.1 hc').1
    · exact h2 c (List.mem_filter.1 hc).1

end Sys2Proof.Machine
end

