-- ==== Sys2Proof/Laws/State.lean ====
section
/-! SUPPORT. One lemma for each field of State and each primitive update: what the update leaves alone, and what a register
field, a die and a byte read after it. -/

namespace Sys2Proof.Machine

variable (s : State)

/-! set -/

@[simp] theorem State.set_pending (f : Field) (v : Nat) : (s.set f v).pending = s.pending := by
  unfold State.set; split <;> rfl
@[simp] theorem State.set_clock (f : Field) (v : Nat) : (s.set f v).clock = s.clock := by
  unfold State.set; split <;> rfl
@[simp] theorem State.set_freeCtr (f : Field) (v : Nat) : (s.set f v).freeCtr = s.freeCtr := by
  unfold State.set; split <;> rfl
@[simp] theorem State.set_shadow (f : Field) (v : Nat) : (s.set f v).shadow = s.shadow := by
  unfold State.set; split <;> rfl
@[simp] theorem State.set_spent (f : Field) (v : Nat) : (s.set f v).spent = s.spent := by
  unfold State.set; split <;> rfl
@[simp] theorem State.set_capture (f : Field) (v : Nat) : (s.set f v).capture = s.capture := by
  unfold State.set; split <;> rfl
@[simp] theorem State.set_staging (f : Field) (v : Nat) : (s.set f v).staging = s.staging := by
  unfold State.set; split <;> rfl
@[simp] theorem State.set_dies (f : Field) (v : Nat) : (s.set f v).dies = s.dies := by
  unfold State.set; split <;> rfl
@[simp] theorem State.set_mem (f : Field) (v : Nat) : (s.set f v).mem = s.mem := by
  unfold State.set; split <;> rfl
@[simp] theorem State.set_ring (f : Field) (v : Nat) : (s.set f v).ring = s.ring := by
  unfold State.set; split <;> rfl
@[simp] theorem State.set_flash (f : Field) (v : Nat) : (s.set f v).flash = s.flash := by
  unfold State.set; split <;> rfl
@[simp] theorem State.set_eraseQ (f : Field) (v : Nat) : (s.set f v).eraseQ = s.eraseQ := by
  unfold State.set; split <;> rfl
@[simp] theorem State.set_tokens (f : Field) (v : Nat) : (s.set f v).tokens = s.tokens := by
  unfold State.set; split <;> rfl
@[simp] theorem State.set_suppressed (f : Field) (v : Nat) : (s.set f v).suppressed = s.suppressed := by
  unfold State.set; split <;> rfl
@[simp] theorem State.set_classMap (f : Field) (v : Nat) : (s.set f v).classMap = s.classMap := by
  unfold State.set; split <;> rfl
@[simp] theorem State.set_heldRecs (f : Field) (v : Nat) : (s.set f v).heldRecs = s.heldRecs := by
  unfold State.set; split <;> rfl
@[simp] theorem State.set_tach (f : Field) (v : Nat) : (s.set f v).tach = s.tach := by
  unfold State.set; split <;> rfl
@[simp] theorem State.set_flowPulses (f : Field) (v : Nat) : (s.set f v).flowPulses = s.flowPulses := by
  unfold State.set; split <;> rfl
@[simp] theorem State.set_armed (f : Field) (v : Nat) : (s.set f v).armed = s.armed := by
  unfold State.set; split <;> rfl
@[simp] theorem State.set_staged (f : Field) (v : Nat) : (s.set f v).staged = s.staged := by
  unfold State.set; split <;> rfl
@[simp] theorem State.set_mcSram (f : Field) (v : Nat) : (s.set f v).mcSram = s.mcSram := by
  unfold State.set; split <;> rfl
@[simp] theorem State.set_posted (f : Field) (v : Nat) : (s.set f v).posted = s.posted := by
  unfold State.set; split <;> rfl
@[simp] theorem State.set_fires (f : Field) (v : Nat) : (s.set f v).fires = s.fires := by
  unfold State.set; split <;> rfl
@[simp] theorem State.set_rings (f : Field) (v : Nat) : (s.set f v).rings = s.rings := by
  unfold State.set; split <;> rfl
@[simp] theorem State.set_rxq (f : Field) (v : Nat) : (s.set f v).rxq = s.rxq := by
  unfold State.set; split <;> rfl
@[simp] theorem State.set_lastFrame (f : Field) (v : Nat) : (s.set f v).lastFrame = s.lastFrame := by
  unfold State.set; split <;> rfl
@[simp] theorem State.set_storedReply (f : Field) (v : Nat) : (s.set f v).storedReply = s.storedReply := by
  unfold State.set; split <;> rfl
@[simp] theorem State.set_afe (f : Field) (v : Nat) : (s.set f v).afe = s.afe := by
  unfold State.set; split <;> rfl
@[simp] theorem State.set_answer (f : Field) (v : Nat) : (s.set f v).answer = s.answer := by
  unfold State.set; split <;> rfl
@[simp] theorem State.set_writing (f : Field) (v : Nat) : (s.set f v).writing = s.writing := by
  unfold State.set; split <;> rfl

/-! setShadow -/

@[simp] theorem State.setShadow_pending (f : Field) (v : Nat) : (s.setShadow f v).pending = s.pending := rfl
@[simp] theorem State.setShadow_clock (f : Field) (v : Nat) : (s.setShadow f v).clock = s.clock := rfl
@[simp] theorem State.setShadow_freeCtr (f : Field) (v : Nat) : (s.setShadow f v).freeCtr = s.freeCtr := rfl
@[simp] theorem State.setShadow_regs (f : Field) (v : Nat) : (s.setShadow f v).regs = s.regs := rfl
@[simp] theorem State.setShadow_nv (f : Field) (v : Nat) : (s.setShadow f v).nv = s.nv := rfl
@[simp] theorem State.setShadow_spent (f : Field) (v : Nat) : (s.setShadow f v).spent = s.spent := rfl
@[simp] theorem State.setShadow_capture (f : Field) (v : Nat) : (s.setShadow f v).capture = s.capture := rfl
@[simp] theorem State.setShadow_staging (f : Field) (v : Nat) : (s.setShadow f v).staging = s.staging := rfl
@[simp] theorem State.setShadow_dies (f : Field) (v : Nat) : (s.setShadow f v).dies = s.dies := rfl
@[simp] theorem State.setShadow_mem (f : Field) (v : Nat) : (s.setShadow f v).mem = s.mem := rfl
@[simp] theorem State.setShadow_ring (f : Field) (v : Nat) : (s.setShadow f v).ring = s.ring := rfl
@[simp] theorem State.setShadow_flash (f : Field) (v : Nat) : (s.setShadow f v).flash = s.flash := rfl
@[simp] theorem State.setShadow_eraseQ (f : Field) (v : Nat) : (s.setShadow f v).eraseQ = s.eraseQ := rfl
@[simp] theorem State.setShadow_tokens (f : Field) (v : Nat) : (s.setShadow f v).tokens = s.tokens := rfl
@[simp] theorem State.setShadow_suppressed (f : Field) (v : Nat) : (s.setShadow f v).suppressed = s.suppressed := rfl
@[simp] theorem State.setShadow_classMap (f : Field) (v : Nat) : (s.setShadow f v).classMap = s.classMap := rfl
@[simp] theorem State.setShadow_heldRecs (f : Field) (v : Nat) : (s.setShadow f v).heldRecs = s.heldRecs := rfl
@[simp] theorem State.setShadow_tach (f : Field) (v : Nat) : (s.setShadow f v).tach = s.tach := rfl
@[simp] theorem State.setShadow_flowPulses (f : Field) (v : Nat) : (s.setShadow f v).flowPulses = s.flowPulses := rfl
@[simp] theorem State.setShadow_armed (f : Field) (v : Nat) : (s.setShadow f v).armed = s.armed := rfl
@[simp] theorem State.setShadow_staged (f : Field) (v : Nat) : (s.setShadow f v).staged = s.staged := rfl
@[simp] theorem State.setShadow_mcSram (f : Field) (v : Nat) : (s.setShadow f v).mcSram = s.mcSram := rfl
@[simp] theorem State.setShadow_posted (f : Field) (v : Nat) : (s.setShadow f v).posted = s.posted := rfl
@[simp] theorem State.setShadow_fires (f : Field) (v : Nat) : (s.setShadow f v).fires = s.fires := rfl
@[simp] theorem State.setShadow_rings (f : Field) (v : Nat) : (s.setShadow f v).rings = s.rings := rfl
@[simp] theorem State.setShadow_rxq (f : Field) (v : Nat) : (s.setShadow f v).rxq = s.rxq := rfl
@[simp] theorem State.setShadow_lastFrame (f : Field) (v : Nat) : (s.setShadow f v).lastFrame = s.lastFrame := rfl
@[simp] theorem State.setShadow_storedReply (f : Field) (v : Nat) : (s.setShadow f v).storedReply = s.storedReply := rfl
@[simp] theorem State.setShadow_afe (f : Field) (v : Nat) : (s.setShadow f v).afe = s.afe := rfl
@[simp] theorem State.setShadow_answer (f : Field) (v : Nat) : (s.setShadow f v).answer = s.answer := rfl
@[simp] theorem State.setShadow_writing (f : Field) (v : Nat) : (s.setShadow f v).writing = s.writing := rfl

/-! setDie -/

@[simp] theorem State.setDie_pending (d : Nat) (x : Die) : (s.setDie d x).pending = s.pending := rfl
@[simp] theorem State.setDie_clock (d : Nat) (x : Die) : (s.setDie d x).clock = s.clock := rfl
@[simp] theorem State.setDie_freeCtr (d : Nat) (x : Die) : (s.setDie d x).freeCtr = s.freeCtr := rfl
@[simp] theorem State.setDie_regs (d : Nat) (x : Die) : (s.setDie d x).regs = s.regs := rfl
@[simp] theorem State.setDie_shadow (d : Nat) (x : Die) : (s.setDie d x).shadow = s.shadow := rfl
@[simp] theorem State.setDie_nv (d : Nat) (x : Die) : (s.setDie d x).nv = s.nv := rfl
@[simp] theorem State.setDie_spent (d : Nat) (x : Die) : (s.setDie d x).spent = s.spent := rfl
@[simp] theorem State.setDie_capture (d : Nat) (x : Die) : (s.setDie d x).capture = s.capture := rfl
@[simp] theorem State.setDie_staging (d : Nat) (x : Die) : (s.setDie d x).staging = s.staging := rfl
@[simp] theorem State.setDie_mem (d : Nat) (x : Die) : (s.setDie d x).mem = s.mem := rfl
@[simp] theorem State.setDie_ring (d : Nat) (x : Die) : (s.setDie d x).ring = s.ring := rfl
@[simp] theorem State.setDie_flash (d : Nat) (x : Die) : (s.setDie d x).flash = s.flash := rfl
@[simp] theorem State.setDie_eraseQ (d : Nat) (x : Die) : (s.setDie d x).eraseQ = s.eraseQ := rfl
@[simp] theorem State.setDie_tokens (d : Nat) (x : Die) : (s.setDie d x).tokens = s.tokens := rfl
@[simp] theorem State.setDie_suppressed (d : Nat) (x : Die) : (s.setDie d x).suppressed = s.suppressed := rfl
@[simp] theorem State.setDie_classMap (d : Nat) (x : Die) : (s.setDie d x).classMap = s.classMap := rfl
@[simp] theorem State.setDie_heldRecs (d : Nat) (x : Die) : (s.setDie d x).heldRecs = s.heldRecs := rfl
@[simp] theorem State.setDie_tach (d : Nat) (x : Die) : (s.setDie d x).tach = s.tach := rfl
@[simp] theorem State.setDie_flowPulses (d : Nat) (x : Die) : (s.setDie d x).flowPulses = s.flowPulses := rfl
@[simp] theorem State.setDie_armed (d : Nat) (x : Die) : (s.setDie d x).armed = s.armed := rfl
@[simp] theorem State.setDie_staged (d : Nat) (x : Die) : (s.setDie d x).staged = s.staged := rfl
@[simp] theorem State.setDie_mcSram (d : Nat) (x : Die) : (s.setDie d x).mcSram = s.mcSram := rfl
@[simp] theorem State.setDie_posted (d : Nat) (x : Die) : (s.setDie d x).posted = s.posted := rfl
@[simp] theorem State.setDie_fires (d : Nat) (x : Die) : (s.setDie d x).fires = s.fires := rfl
@[simp] theorem State.setDie_rings (d : Nat) (x : Die) : (s.setDie d x).rings = s.rings := rfl
@[simp] theorem State.setDie_rxq (d : Nat) (x : Die) : (s.setDie d x).rxq = s.rxq := rfl
@[simp] theorem State.setDie_lastFrame (d : Nat) (x : Die) : (s.setDie d x).lastFrame = s.lastFrame := rfl
@[simp] theorem State.setDie_storedReply (d : Nat) (x : Die) : (s.setDie d x).storedReply = s.storedReply := rfl
@[simp] theorem State.setDie_afe (d : Nat) (x : Die) : (s.setDie d x).afe = s.afe := rfl
@[simp] theorem State.setDie_answer (d : Nat) (x : Die) : (s.setDie d x).answer = s.answer := rfl
@[simp] theorem State.setDie_writing (d : Nat) (x : Die) : (s.setDie d x).writing = s.writing := rfl

/-! onDie -/

@[simp] theorem State.onDie_pending (d : Nat) (g : Die → Die) : (s.onDie d g).pending = s.pending := rfl
@[simp] theorem State.onDie_clock (d : Nat) (g : Die → Die) : (s.onDie d g).clock = s.clock := rfl
@[simp] theorem State.onDie_freeCtr (d : Nat) (g : Die → Die) : (s.onDie d g).freeCtr = s.freeCtr := rfl
@[simp] theorem State.onDie_regs (d : Nat) (g : Die → Die) : (s.onDie d g).regs = s.regs := rfl
@[simp] theorem State.onDie_shadow (d : Nat) (g : Die → Die) : (s.onDie d g).shadow = s.shadow := rfl
@[simp] theorem State.onDie_nv (d : Nat) (g : Die → Die) : (s.onDie d g).nv = s.nv := rfl
@[simp] theorem State.onDie_spent (d : Nat) (g : Die → Die) : (s.onDie d g).spent = s.spent := rfl
@[simp] theorem State.onDie_capture (d : Nat) (g : Die → Die) : (s.onDie d g).capture = s.capture := rfl
@[simp] theorem State.onDie_staging (d : Nat) (g : Die → Die) : (s.onDie d g).staging = s.staging := rfl
@[simp] theorem State.onDie_mem (d : Nat) (g : Die → Die) : (s.onDie d g).mem = s.mem := rfl
@[simp] theorem State.onDie_ring (d : Nat) (g : Die → Die) : (s.onDie d g).ring = s.ring := rfl
@[simp] theorem State.onDie_flash (d : Nat) (g : Die → Die) : (s.onDie d g).flash = s.flash := rfl
@[simp] theorem State.onDie_eraseQ (d : Nat) (g : Die → Die) : (s.onDie d g).eraseQ = s.eraseQ := rfl
@[simp] theorem State.onDie_tokens (d : Nat) (g : Die → Die) : (s.onDie d g).tokens = s.tokens := rfl
@[simp] theorem State.onDie_suppressed (d : Nat) (g : Die → Die) : (s.onDie d g).suppressed = s.suppressed := rfl
@[simp] theorem State.onDie_classMap (d : Nat) (g : Die → Die) : (s.onDie d g).classMap = s.classMap := rfl
@[simp] theorem State.onDie_heldRecs (d : Nat) (g : Die → Die) : (s.onDie d g).heldRecs = s.heldRecs := rfl
@[simp] theorem State.onDie_tach (d : Nat) (g : Die → Die) : (s.onDie d g).tach = s.tach := rfl
@[simp] theorem State.onDie_flowPulses (d : Nat) (g : Die → Die) : (s.onDie d g).flowPulses = s.flowPulses := rfl
@[simp] theorem State.onDie_armed (d : Nat) (g : Die → Die) : (s.onDie d g).armed = s.armed := rfl
@[simp] theorem State.onDie_staged (d : Nat) (g : Die → Die) : (s.onDie d g).staged = s.staged := rfl
@[simp] theorem State.onDie_mcSram (d : Nat) (g : Die → Die) : (s.onDie d g).mcSram = s.mcSram := rfl
@[simp] theorem State.onDie_posted (d : Nat) (g : Die → Die) : (s.onDie d g).posted = s.posted := rfl
@[simp] theorem State.onDie_fires (d : Nat) (g : Die → Die) : (s.onDie d g).fires = s.fires := rfl
@[simp] theorem State.onDie_rings (d : Nat) (g : Die → Die) : (s.onDie d g).rings = s.rings := rfl
@[simp] theorem State.onDie_rxq (d : Nat) (g : Die → Die) : (s.onDie d g).rxq = s.rxq := rfl
@[simp] theorem State.onDie_lastFrame (d : Nat) (g : Die → Die) : (s.onDie d g).lastFrame = s.lastFrame := rfl
@[simp] theorem State.onDie_storedReply (d : Nat) (g : Die → Die) : (s.onDie d g).storedReply = s.storedReply := rfl
@[simp] theorem State.onDie_afe (d : Nat) (g : Die → Die) : (s.onDie d g).afe = s.afe := rfl
@[simp] theorem State.onDie_answer (d : Nat) (g : Die → Die) : (s.onDie d g).answer = s.answer := rfl
@[simp] theorem State.onDie_writing (d : Nat) (g : Die → Die) : (s.onDie d g).writing = s.writing := rfl

/-! setByte -/

@[simp] theorem State.setByte_pending (a : Nat) (b : BitVec 8) : (s.setByte a b).pending = s.pending := rfl
@[simp] theorem State.setByte_clock (a : Nat) (b : BitVec 8) : (s.setByte a b).clock = s.clock := rfl
@[simp] theorem State.setByte_freeCtr (a : Nat) (b : BitVec 8) : (s.setByte a b).freeCtr = s.freeCtr := rfl
@[simp] theorem State.setByte_regs (a : Nat) (b : BitVec 8) : (s.setByte a b).regs = s.regs := rfl
@[simp] theorem State.setByte_shadow (a : Nat) (b : BitVec 8) : (s.setByte a b).shadow = s.shadow := rfl
@[simp] theorem State.setByte_nv (a : Nat) (b : BitVec 8) : (s.setByte a b).nv = s.nv := rfl
@[simp] theorem State.setByte_spent (a : Nat) (b : BitVec 8) : (s.setByte a b).spent = s.spent := rfl
@[simp] theorem State.setByte_capture (a : Nat) (b : BitVec 8) : (s.setByte a b).capture = s.capture := rfl
@[simp] theorem State.setByte_staging (a : Nat) (b : BitVec 8) : (s.setByte a b).staging = s.staging := rfl
@[simp] theorem State.setByte_dies (a : Nat) (b : BitVec 8) : (s.setByte a b).dies = s.dies := rfl
@[simp] theorem State.setByte_ring (a : Nat) (b : BitVec 8) : (s.setByte a b).ring = s.ring := rfl
@[simp] theorem State.setByte_flash (a : Nat) (b : BitVec 8) : (s.setByte a b).flash = s.flash := rfl
@[simp] theorem State.setByte_eraseQ (a : Nat) (b : BitVec 8) : (s.setByte a b).eraseQ = s.eraseQ := rfl
@[simp] theorem State.setByte_tokens (a : Nat) (b : BitVec 8) : (s.setByte a b).tokens = s.tokens := rfl
@[simp] theorem State.setByte_suppressed (a : Nat) (b : BitVec 8) : (s.setByte a b).suppressed = s.suppressed := rfl
@[simp] theorem State.setByte_classMap (a : Nat) (b : BitVec 8) : (s.setByte a b).classMap = s.classMap := rfl
@[simp] theorem State.setByte_heldRecs (a : Nat) (b : BitVec 8) : (s.setByte a b).heldRecs = s.heldRecs := rfl
@[simp] theorem State.setByte_tach (a : Nat) (b : BitVec 8) : (s.setByte a b).tach = s.tach := rfl
@[simp] theorem State.setByte_flowPulses (a : Nat) (b : BitVec 8) : (s.setByte a b).flowPulses = s.flowPulses := rfl
@[simp] theorem State.setByte_armed (a : Nat) (b : BitVec 8) : (s.setByte a b).armed = s.armed := rfl
@[simp] theorem State.setByte_staged (a : Nat) (b : BitVec 8) : (s.setByte a b).staged = s.staged := rfl
@[simp] theorem State.setByte_mcSram (a : Nat) (b : BitVec 8) : (s.setByte a b).mcSram = s.mcSram := rfl
@[simp] theorem State.setByte_posted (a : Nat) (b : BitVec 8) : (s.setByte a b).posted = s.posted := rfl
@[simp] theorem State.setByte_fires (a : Nat) (b : BitVec 8) : (s.setByte a b).fires = s.fires := rfl
@[simp] theorem State.setByte_rings (a : Nat) (b : BitVec 8) : (s.setByte a b).rings = s.rings := rfl
@[simp] theorem State.setByte_rxq (a : Nat) (b : BitVec 8) : (s.setByte a b).rxq = s.rxq := rfl
@[simp] theorem State.setByte_lastFrame (a : Nat) (b : BitVec 8) : (s.setByte a b).lastFrame = s.lastFrame := rfl
@[simp] theorem State.setByte_storedReply (a : Nat) (b : BitVec 8) : (s.setByte a b).storedReply = s.storedReply := rfl
@[simp] theorem State.setByte_afe (a : Nat) (b : BitVec 8) : (s.setByte a b).afe = s.afe := rfl
@[simp] theorem State.setByte_answer (a : Nat) (b : BitVec 8) : (s.setByte a b).answer = s.answer := rfl
@[simp] theorem State.setByte_writing (a : Nat) (b : BitVec 8) : (s.setByte a b).writing = s.writing := rfl

/-! useFree -/

@[simp] theorem State.useFree_pending : (s.useFree).pending = s.pending := rfl
@[simp] theorem State.useFree_clock : (s.useFree).clock = s.clock := rfl
@[simp] theorem State.useFree_regs : (s.useFree).regs = s.regs := rfl
@[simp] theorem State.useFree_shadow : (s.useFree).shadow = s.shadow := rfl
@[simp] theorem State.useFree_nv : (s.useFree).nv = s.nv := rfl
@[simp] theorem State.useFree_spent : (s.useFree).spent = s.spent := rfl
@[simp] theorem State.useFree_capture : (s.useFree).capture = s.capture := rfl
@[simp] theorem State.useFree_staging : (s.useFree).staging = s.staging := rfl
@[simp] theorem State.useFree_dies : (s.useFree).dies = s.dies := rfl
@[simp] theorem State.useFree_mem : (s.useFree).mem = s.mem := rfl
@[simp] theorem State.useFree_ring : (s.useFree).ring = s.ring := rfl
@[simp] theorem State.useFree_flash : (s.useFree).flash = s.flash := rfl
@[simp] theorem State.useFree_eraseQ : (s.useFree).eraseQ = s.eraseQ := rfl
@[simp] theorem State.useFree_tokens : (s.useFree).tokens = s.tokens := rfl
@[simp] theorem State.useFree_suppressed : (s.useFree).suppressed = s.suppressed := rfl
@[simp] theorem State.useFree_classMap : (s.useFree).classMap = s.classMap := rfl
@[simp] theorem State.useFree_heldRecs : (s.useFree).heldRecs = s.heldRecs := rfl
@[simp] theorem State.useFree_tach : (s.useFree).tach = s.tach := rfl
@[simp] theorem State.useFree_flowPulses : (s.useFree).flowPulses = s.flowPulses := rfl
@[simp] theorem State.useFree_armed : (s.useFree).armed = s.armed := rfl
@[simp] theorem State.useFree_staged : (s.useFree).staged = s.staged := rfl
@[simp] theorem State.useFree_mcSram : (s.useFree).mcSram = s.mcSram := rfl
@[simp] theorem State.useFree_posted : (s.useFree).posted = s.posted := rfl
@[simp] theorem State.useFree_fires : (s.useFree).fires = s.fires := rfl
@[simp] theorem State.useFree_rings : (s.useFree).rings = s.rings := rfl
@[simp] theorem State.useFree_rxq : (s.useFree).rxq = s.rxq := rfl
@[simp] theorem State.useFree_lastFrame : (s.useFree).lastFrame = s.lastFrame := rfl
@[simp] theorem State.useFree_storedReply : (s.useFree).storedReply = s.storedReply := rfl
@[simp] theorem State.useFree_afe : (s.useFree).afe = s.afe := rfl
@[simp] theorem State.useFree_answer : (s.useFree).answer = s.answer := rfl
@[simp] theorem State.useFree_writing : (s.useFree).writing = s.writing := rfl

/-! Register fields. -/

/-- A field reads what was loaded into it, cut to its width. -/
@[simp] theorem State.get_set_same (f : Field) (v : Nat) : (s.set f v).get f = v % 2 ^ f.width := by
  unfold State.get State.set
  split <;> simp_all

/-- Loading a field leaves a field of another key alone. -/
theorem State.get_set_ne (f g : Field) (v : Nat) (h : f.key ≠ g.key) : (s.set f v).get g = s.get g := by
  unfold State.get State.set
  split <;> split <;> simp [aget_aputD_ne _ _ _ _ _ h]

/-- What a field reads depends on the two register tables alone. -/
theorem State.get_congr (t : State) (hr : t.regs = s.regs) (hn : t.nv = s.nv) (f : Field) : t.get f = s.get f := by
  unfold State.get; rw [hr, hn]

@[simp] theorem State.get_setShadow (g : Field) (v : Nat) (f : Field) : (s.setShadow g v).get f = s.get f := rfl

@[simp] theorem State.get_setDie (d : Nat) (x : Die) (f : Field) : (s.setDie d x).get f = s.get f := rfl

@[simp] theorem State.get_onDie (d : Nat) (g : Die → Die) (f : Field) : (s.onDie d g).get f = s.get f := rfl

@[simp] theorem State.get_setByte (a : Nat) (b : BitVec 8) (f : Field) : (s.setByte a b).get f = s.get f := rfl

@[simp] theorem State.get_useFree (f : Field) : (s.useFree).get f = s.get f := rfl

/-- A saturating count. -/
@[simp] theorem State.get_count_same (f : Field) (n : Nat) : (s.count f n).get f = min (s.get f + n) (2 ^ f.width - 1) := by
  unfold State.count
  rw [State.get_set_same, Nat.mod_eq_of_lt]
  have := Nat.one_le_two_pow (n := f.width)
  omega

@[simp] theorem State.get_wrap_same (f : Field) (n : Nat) : (s.wrap f n).get f = (s.get f + n) % 2 ^ f.width :=
  State.get_set_same s f _

@[simp] theorem State.get_put_same (f : Field) (b : Bool) : (s.put f b).get f = b.toNat % 2 ^ f.width :=
  State.get_set_same s f _

@[simp] theorem State.get_setBit_same (f : Field) (n : Nat) (b : Bool) :
    (s.setBit f n b).get f = withBit (s.get f) n b % 2 ^ f.width := State.get_set_same s f _

theorem State.get_count_ne (f g : Field) (n : Nat) (h : f.key ≠ g.key) : (s.count f n).get g = s.get g := s.get_set_ne f g _ h

theorem State.get_wrap_ne (f g : Field) (n : Nat) (h : f.key ≠ g.key) : (s.wrap f n).get g = s.get g := s.get_set_ne f g _ h

theorem State.get_put_ne (f g : Field) (b : Bool) (h : f.key ≠ g.key) : (s.put f b).get g = s.get g := s.get_set_ne f g _ h

theorem State.get_setBit_ne (f g : Field) (n : Nat) (b : Bool) (h : f.key ≠ g.key) : (s.setBit f n b).get g = s.get g :=
  s.get_set_ne f g _ h

/-! The dies. -/

@[simp] theorem State.die_setDie_same (d : Nat) (x : Die) : (s.setDie d x).die d = x := by simp [State.die, State.setDie]

theorem State.die_setDie_ne (d e : Nat) (x : Die) (h : d ≠ e) : (s.setDie d x).die e = s.die e := by
  simp [State.die, State.setDie, aget_aput_ne _ _ _ _ h]

@[simp] theorem State.die_onDie_same (d : Nat) (g : Die → Die) : (s.onDie d g).die d = g (s.die d) := s.die_setDie_same d _

theorem State.die_onDie_ne (d e : Nat) (g : Die → Die) (h : d ≠ e) : (s.onDie d g).die e = s.die e := s.die_setDie_ne d e _ h

@[simp] theorem State.die_set (f : Field) (v d : Nat) : (s.set f v).die d = s.die d := by simp [State.die]

/-! Memory. -/

@[simp] theorem State.byte_setByte_same (a : Nat) (b : BitVec 8) : (s.setByte a b).byte a = b := by
  simp [State.byte, State.setByte]

theorem State.byte_setByte_ne (a c : Nat) (b : BitVec 8) (h : a ≠ c) : (s.setByte a b).byte c = s.byte c := by
  simp [State.byte, State.setByte, aget_aputD_ne _ _ _ _ _ h]

@[simp] theorem State.byte_set (f : Field) (v a : Nat) : (s.set f v).byte a = s.byte a := by simp [State.byte]

@[simp] theorem State.byte_onDie (d : Nat) (g : Die → Die) (a : Nat) : (s.onDie d g).byte a = s.byte a := rfl

/-- Storing a number leaves every byte outside its range alone. -/
theorem State.byte_store_ne (n : Nat) : ∀ (s : State) (a v c : Nat), (c < a ∨ a + n ≤ c) → (s.store a n v).byte c = s.byte c := by
  induction n with
  | zero => intro s a v c _; rfl
  | succ n ih =>
    intro s a v c h
    show ((s.setByte a _).store (a + 1) n _).byte c = _
    rw [ih _ _ _ _ (by omega), State.byte_setByte_ne _ _ _ _ (by omega)]

end Sys2Proof.Machine
end

