-- ==== Sys2Proof/Laws/Keeps.lean ====
section
/-! SUPPORT. What every command keeps, as one relation between the state before and the state after, and how it passes
through the constructs the meanings are made of. -/

namespace Sys2Proof.Machine

/-- What no command changes or breaks: the queue, the clock, the one form of memory and of the tables, the free values used
and the spent fuses. -/
structure Keeps (s t : State) : Prop where
  pending : t.pending = s.pending
  clock : t.clock = s.clock
  mem : s.memOk → t.memOk
  tables : s.TablesOk → t.TablesOk
  free : s.freeCtr ≤ t.freeCtr
  fused : ∀ k, s.fuseSpent k → t.fuseSpent k

/-- An outcome is a next state that keeps all that. -/
structure KeepsOut (s : State) (o : Out) : Prop where
  next : ∃ t, o = .next t ∧ Keeps s t

/-- A pair whose state keeps all that. -/
structure KeepsFst {α : Type} (s : State) (p : State × α) : Prop where
  fst : Keeps s p.1

/-- The same, of a pair that ends in the state. -/
structure KeepsSnd {α : Type} (s : State) (p : α × State) : Prop where
  snd : Keeps s p.2

theorem Keeps.refl (s : State) : Keeps s s := ⟨rfl, rfl, id, id, Nat.le_refl _, fun _ h => h⟩

theorem Keeps.trans {s t u : State} (h : Keeps s t) (k : Keeps t u) : Keeps s u :=
  ⟨k.pending.trans h.pending, k.clock.trans h.clock, k.mem ∘ h.mem, k.tables ∘ h.tables, Nat.le_trans h.free k.free,
    fun q hq => k.fused q (h.fused q hq)⟩

variable {s0 : State}

/-- A change of other fields than those the relation speaks of. -/
theorem Keeps.frame {s t : State} (h : Keeps s0 s) (e1 : t.pending = s.pending) (e2 : t.clock = s.clock) (e3 : t.mem = s.mem)
    (e4 : t.regs = s.regs) (e5 : t.shadow = s.shadow) (e6 : t.nv = s.nv) (e7 : t.dies = s.dies) (e8 : t.freeCtr = s.freeCtr)
    (e9 : t.spent = s.spent) : Keeps s0 t := by
  refine h.trans ⟨e1, e2, ?_, ?_, Nat.le_of_eq e8.symm, ?_⟩
  · simp [State.memOk, e3]
  · intro k; exact ⟨e4 ▸ k.regs, e5 ▸ k.shadow, e6 ▸ k.nv, e7 ▸ k.dies⟩
  · simp [State.fuseSpent, e9]

/-- A change of memory, tables and spent fields that keeps their form. -/
theorem Keeps.change {s t : State} (h : Keeps s0 s) (e1 : t.pending = s.pending) (e2 : t.clock = s.clock)
    (e3 : t.freeCtr = s.freeCtr) (e4 : memWf s.mem = true → memWf t.mem = true) (e5 : Rising s.regs → Rising t.regs)
    (e6 : Rising s.shadow → Rising t.shadow) (e7 : Rising s.nv → Rising t.nv) (e8 : Rising s.dies → Rising t.dies)
    (e9 : ∀ k, fuseBase ≤ k → k ∈ s.spent → k ∈ t.spent) : Keeps s0 t :=
  h.trans ⟨e1, e2, e4, fun k => ⟨e5 k.regs, e6 k.shadow, e7 k.nv, e8 k.dies⟩, Nat.le_of_eq e3.symm,
    fun k hk => ⟨hk.1, e9 k hk.1 hk.2⟩⟩

/-- An update of fields the relation does not speak of. -/
theorem keeps_update {s : State} {x7 x8 x11 x12 x13 x14 x15 x16 x17 x18 x19 x20 x21 x22 x23 x24 x25 x26 x27 x28 x29 x30 x31} (h : Keeps s0 s) :
    Keeps s0 (State.mk s.pending s.clock s.freeCtr s.regs s.shadow s.nv s.spent x7 x8 s.dies s.mem x11 x12 x13 x14 x15 x16 x17 x18 x19 x20 x21 x22 x23 x24 x25 x26 x27 x28 x29 x30 x31) :=
  h.frame rfl rfl rfl rfl rfl rfl rfl rfl rfl

theorem keeps_ite {c : Prop} [Decidable c] {a b : State} (ha : Keeps s0 a) (hb : Keeps s0 b) :
    Keeps s0 (if c then a else b) := by split <;> assumption

theorem Keeps.cut {P : Prop} (s : State) (h : Keeps s0 s) (k : Keeps s0 s → P) : P := k h

theorem Keeps.cut_fst {P : Prop} {α : Type} (p : State × α) (h : KeepsFst s0 p) (k : Keeps s0 p.1 → P) : P := k h.fst

theorem Keeps.cut_snd {P : Prop} {α : Type} (p : α × State) (h : KeepsSnd s0 p) (k : Keeps s0 p.2 → P) : P := k h.snd

theorem Keeps.cut_any {P : Prop} {α : Type} (f : α → State) (h : ∀ a, Keeps s0 (f a)) (k : (∀ a, Keeps s0 (f a)) → P) : P := k h

theorem Keeps.cut_fun {P : Prop} (f : State → State) (h : ∀ s, Keeps s0 s → Keeps s0 (f s))
    (k : (∀ s, Keeps s0 s → Keeps s0 (f s)) → P) : P := k h

theorem Keeps.cut_fun2 {P : Prop} {α : Type} (f : State → α → State) (h : ∀ s a, Keeps s0 s → Keeps s0 (f s a))
    (k : (∀ s a, Keeps s0 s → Keeps s0 (f s a)) → P) : P := k h

theorem keepsFst_mk {α : Type} {s : State} {a : α} (h : Keeps s0 s) : KeepsFst s0 (s, a) := ⟨h⟩

theorem keepsSnd_mk {α : Type} {s : State} {a : α} (h : Keeps s0 s) : KeepsSnd s0 (a, s) := ⟨h⟩

theorem keepsFst_ite {α : Type} {c : Prop} [Decidable c] {a b : State × α} (ha : KeepsFst s0 a) (hb : KeepsFst s0 b) :
    KeepsFst s0 (if c then a else b) := by split <;> assumption

theorem keepsSnd_ite {α : Type} {c : Prop} [Decidable c] {a b : α × State} (ha : KeepsSnd s0 a) (hb : KeepsSnd s0 b) :
    KeepsSnd s0 (if c then a else b) := by split <;> assumption

theorem KeepsFst.of {α : Type} {p : State × α} {a : State} {b : α} (h : KeepsFst s0 p) (e : p = (a, b)) : Keeps s0 a := by
  subst e; exact h.fst

theorem KeepsSnd.of {α : Type} {p : α × State} {a : State} {b : α} (h : KeepsSnd s0 p) (e : p = (b, a)) : Keeps s0 a := by
  subst e; exact h.snd

theorem keepsOut_next {t : State} (h : Keeps s0 t) : KeepsOut s0 (.next t) := ⟨t, rfl, h⟩

theorem keepsOut_ite {c : Prop} [Decidable c] {a b : Out} (ha : KeepsOut s0 a) (hb : KeepsOut s0 b) :
    KeepsOut s0 (if c then a else b) := by split <;> assumption

theorem keeps_foldl {α : Type} {f : State → α → State} (l : List α) {s : State} (h : Keeps s0 s)
    (hf : ∀ s a, Keeps s0 s → Keeps s0 (f s a)) : Keeps s0 (l.foldl f s) :=
  foldl_keeps (Keeps s0) f hf l s h

theorem keeps_each (l : List Nat) {f : State → Nat → State} {s : State} (h : Keeps s0 s)
    (hf : ∀ s a, Keeps s0 s → Keeps s0 (f s a)) : Keeps s0 (s.each l f) := keeps_foldl l h hf

/-! The primitive changes. -/

theorem keeps_set {s : State} {f : Field} {v : Nat} (h : Keeps s0 s) : Keeps s0 (s.set f v) := by
  unfold State.set
  split
  · exact h.change rfl rfl rfl id id id (fun k => k.aputD _ _ _) id (fun _ _ k => k)
  · exact h.change rfl rfl rfl id (fun k => k.aputD _ _ _) id id id (fun _ _ k => k)

theorem keeps_setShadow {s : State} {f : Field} {v : Nat} (h : Keeps s0 s) : Keeps s0 (s.setShadow f v) :=
  h.change rfl rfl rfl id id (fun k => k.aputD _ _ _) id id (fun _ _ k => k)

theorem keeps_setDie {s : State} {d : Nat} {x : Die} (h : Keeps s0 s) : Keeps s0 (s.setDie d x) :=
  h.change rfl rfl rfl id id id id (fun k => k.aput _ _) (fun _ _ k => k)

theorem keeps_onDie {s : State} {d : Nat} {f : Die → Die} (h : Keeps s0 s) : Keeps s0 (s.onDie d f) := keeps_setDie h

theorem keeps_setByte {s : State} {a : Nat} {b : BitVec 8} (h : Keeps s0 s) : Keeps s0 (s.setByte a b) :=
  h.change rfl rfl rfl (fun k => memWf_aputD k a b) id id id id (fun _ _ k => k)

theorem keeps_useFree {s : State} (h : Keeps s0 s) : Keeps s0 s.useFree :=
  h.trans ⟨rfl, rfl, id, fun k => ⟨k.regs, k.shadow, k.nv, k.dies⟩, Nat.le_succ _, fun _ k => k⟩

theorem keeps_store (n : Nat) : ∀ {s : State} {a v : Nat}, Keeps s0 s → Keeps s0 (s.store a n v) := by
  induction n with
  | zero => intro s a v h; exact h
  | succ n ih => intro s a v h; exact ih (keeps_setByte h)

theorem keeps_storeWords (l : List Nat) : ∀ {s : State} {d a : Nat}, Keeps s0 s → Keeps s0 (s.storeWords d a l) := by
  induction l with
  | nil => intro s d a h; exact h
  | cons w t ih => intro s d a h; exact ih (keeps_store 4 h)

theorem keeps_copyBytes (n : Nat) : ∀ {s : State} {a b : Nat}, Keeps s0 s → Keeps s0 (s.copyBytes a b n) := by
  induction n with
  | zero => intro s a b h; exact h
  | succ n ih => intro s a b h; exact ih (keeps_setByte h)

theorem keeps_moveRange {s : State} {a b n : Nat} (h : Keeps s0 s) : Keeps s0 { s with mem := moveRange s.mem a b n } :=
  h.change rfl rfl rfl (fun k => memWf_moveRange k a b n) id id id id (fun _ _ k => k)

theorem keeps_memFilter {s : State} {p : Host.Cell → Bool} (h : Keeps s0 s) : Keeps s0 { s with mem := s.mem.filter p } :=
  h.change rfl rfl rfl (fun k => memWf_filter k p) id id id id (fun _ _ k => k)

theorem keeps_spend {s : State} {l : List Nat} (h : Keeps s0 s) (hl : ∀ k, k ∈ s.spent → k ∈ l) : Keeps s0 { s with spent := l } :=
  h.change rfl rfl rfl id id id id id (fun k _ hk => hl k hk)

end Sys2Proof.Machine
end

