-- ==== Sys2Proof/Laws/KeepsOps.lean ====
section
/-! SUPPORT. What the operations and meanings of Machine/Ops.lean keep (Laws/Keeps.lean). -/

namespace Sys2Proof.Machine

variable {s0 : State}

theorem keeps_put {s : State} {f : Field} {b : Bool} (hk : Keeps s0 s) : Keeps s0 (State.put s f b) := by
  unfold State.put
  repeat' first
    | with_reducible assumption
    | with_reducible apply keeps_set

theorem keeps_setBit {s : State} {f : Field} {n : Nat} {b : Bool} (hk : Keeps s0 s) : Keeps s0 (State.setBit s f n b) := by
  unfold State.setBit
  repeat' first
    | with_reducible assumption
    | with_reducible apply keeps_set

theorem keeps_count {s : State} {f : Field} {n : Nat} (hk : Keeps s0 s) : Keeps s0 (State.count s f n) := by
  unfold State.count
  repeat' first
    | with_reducible assumption
    | with_reducible apply keeps_set

theorem keeps_wrap {s : State} {f : Field} {n : Nat} (hk : Keeps s0 s) : Keeps s0 (State.wrap s f n) := by
  unfold State.wrap
  repeat' first
    | with_reducible assumption
    | with_reducible apply keeps_set

theorem keeps_setPair {s : State} {lo : Field} {hi : Field} {v : Nat} (hk : Keeps s0 s) : Keeps s0 (State.setPair s lo hi v) := by
  unfold State.setPair
  repeat' first
    | with_reducible assumption
    | with_reducible apply keeps_set

theorem keeps_pageEvent {s : State} {chip : Nat} {p : Page} {bit : Nat} {i : Nat} (hk : Keeps s0 s) : Keeps s0 (State.pageEvent s chip p bit i) := by
  unfold State.pageEvent
  repeat' first
    | with_reducible assumption
    | with_reducible apply keeps_setBit

end Sys2Proof.Machine
end

