-- ==== Sys2Proof/Laws/KeepsRecorder.lean ====
section
/-! SUPPORT. What the operations and meanings of Machine/Recorder.lean keep (Laws/Keeps.lean). -/

namespace Sys2Proof.Machine

variable {s0 : State}

theorem keeps_spendToken {s : State} {code : Nat} (hk : Keeps s0 s) : Keeps s0 (State.spendToken s code) := by
  unfold State.spendToken
  repeat' first
    | with_reducible assumption
    | with_reducible apply keeps_ite
    | (with_reducible apply keeps_update; first | assumption | with_reducible apply keeps_set)

theorem keeps_suppress {s : State} {code : Nat} (hk : Keeps s0 s) : Keeps s0 (State.suppress s code) := by
  unfold State.suppress
  repeat' first
    | with_reducible assumption
    | with_reducible apply keeps_count
    | (with_reducible apply keeps_update; first | assumption | with_reducible apply keeps_count)

theorem keeps_ringRegs {s : State} (hk : Keeps s0 s) : Keeps s0 (State.ringRegs s) := by
  unfold State.ringRegs
  repeat' first
    | ((try lift_lets -underBinder); intro x; clear_value x)
    | (with_reducible intro _)
    | with_reducible assumption
    | with_reducible apply keeps_ite
    | with_reducible apply keeps_set

theorem keeps_place {s : State} {kind : SlotKind} {r : Rec} (hk : Keeps s0 s) : Keeps s0 (State.place s kind r) := by
  unfold State.place
  repeat' first
    | ((try lift_lets -underBinder); intro x; clear_value x)
    | with_reducible assumption
    | with_reducible apply keeps_ringRegs
    | with_reducible apply keeps_wrap
    | (with_reducible apply keeps_update; first | assumption | with_reducible apply keeps_ringRegs | with_reducible apply keeps_wrap)

theorem keeps_loseRecord {s : State} {cause : Nat} (hk : Keeps s0 s) : Keeps s0 (State.loseRecord s cause) := by
  unfold State.loseRecord
  repeat' first
    | with_reducible apply keeps_pageEvent
    | with_reducible assumption
    | with_reducible apply keeps_setBit
    | with_reducible apply keeps_count

theorem keeps_tellLost {s : State} (hk : Keeps s0 s) : Keeps s0 (State.tellLost s) := by
  unfold State.tellLost
  repeat' first
    | ((try lift_lets -underBinder); intro x; clear_value x)
    | with_reducible assumption
    | with_reducible apply keeps_ite
    | with_reducible apply keeps_pageEvent
    | with_reducible apply keeps_set
    | with_reducible apply keeps_place

theorem keeps_startErase {s : State} {b : Nat} (hk : Keeps s0 s) : Keeps s0 (State.startErase s b) := by
  unfold State.startErase
  repeat' first
    | with_reducible assumption
    | with_reducible apply keeps_ite
    | with_reducible apply keeps_set
    | (with_reducible apply keeps_update; first | assumption | with_reducible apply keeps_set)

theorem keeps_flushPage {s : State} (hk : Keeps s0 s) : Keeps s0 (State.flushPage s) := by
  unfold State.flushPage
  repeat' first
    | ((try lift_lets -underBinder); intro x; refine Keeps.cut (s0 := s0) x ?_ ?_ <;> [unfold x; (intro hx; clear_value x)])
    | ((try lift_lets -underBinder); intro x; clear_value x)
    | (with_reducible intro _)
    | with_reducible assumption
    | with_reducible apply keeps_ite
    | with_reducible apply keeps_set
    | with_reducible apply keeps_count
    | with_reducible apply keeps_startErase

theorem keeps_sweep {s : State} (hk : Keeps s0 s) : Keeps s0 (State.sweep s) := by
  unfold State.sweep
  repeat' first
    | ((try lift_lets -underBinder); intro x; refine Keeps.cut (s0 := s0) x ?_ ?_ <;> [unfold x; (intro hx; clear_value x)])
    | with_reducible apply keeps_tellLost
    | (with_reducible intro _)
    | with_reducible assumption
    | with_reducible apply keeps_ite
    | with_reducible apply keeps_place
    | with_reducible apply keeps_loseRecord
    | with_reducible apply keeps_foldl

theorem keeps_startFlush {s : State} {toEnd : Bool} (hk : Keeps s0 s) : Keeps s0 (State.startFlush s toEnd) := by
  unfold State.startFlush
  repeat' first
    | ((try lift_lets -underBinder); intro x; refine Keeps.cut (s0 := s0) x ?_ ?_ <;> [unfold x; (intro hx; clear_value x)])
    | with_reducible assumption
    | with_reducible apply keeps_ite
    | with_reducible apply keeps_set
    | with_reducible apply keeps_sweep
    | with_reducible apply keeps_flushPage
    | with_reducible apply keeps_count
    | with_reducible apply keeps_put

theorem keeps_flushAfter {s : State} {code : Nat} (hk : Keeps s0 s) : Keeps s0 (State.flushAfter s code) := by
  unfold State.flushAfter
  repeat' first
    | with_reducible assumption
    | with_reducible apply keeps_ite
    | with_reducible apply keeps_startFlush
    | with_reducible apply keeps_flushPage

theorem keeps_admitRecord {s : State} {kind : SlotKind} {r : Rec} (hk : Keeps s0 s) : KeepsFst s0 (State.admitRecord s kind r) := by
  unfold State.admitRecord
  repeat' first
    | ((try lift_lets -underBinder); intro x; refine Keeps.cut (s0 := s0) x ?_ ?_ <;> [unfold x; (intro hx; clear_value x)])
    | ((try lift_lets -underBinder); intro x; clear_value x)
    | (with_reducible intro _)
    | with_reducible assumption
    | with_reducible apply keeps_ite
    | with_reducible apply keepsFst_ite
    | with_reducible apply keepsFst_mk
    | with_reducible apply keeps_suppress
    | with_reducible apply keeps_tellLost
    | with_reducible apply keeps_spendToken
    | with_reducible apply keeps_place
    | with_reducible apply keeps_flushAfter

theorem keeps_admit {s : State} {kind : SlotKind} {r : Rec} (hk : Keeps s0 s) : KeepsFst s0 (State.admitRecord s kind r) := by
  unfold State.admitRecord
  repeat' first
    | ((try lift_lets -underBinder); intro x; refine Keeps.cut (s0 := s0) x ?_ ?_ <;> [unfold x; (intro hx; clear_value x)])
    | with_reducible assumption
    | with_reducible apply keeps_ite
    | with_reducible apply keeps_suppress
    | with_reducible apply keeps_tellLost
    | with_reducible apply keeps_flushAfter
    | with_reducible apply keeps_place
    | with_reducible apply keeps_spendToken
    | with_reducible apply keepsFst_ite
    | with_reducible apply keepsFst_mk

theorem keeps_present {s : State} {code : Nat} {origin : Nat} {arg0 : Nat} {arg1 : Nat} {aux : Nat} (hk : Keeps s0 s) : Keeps s0 (State.present s code origin arg0 arg1 aux) := by
  unfold State.present
  repeat' first
    | with_reducible assumption
    | with_reducible apply keeps_ite
    | with_reducible apply keeps_loseRecord
    | with_reducible apply keeps_admit
    | with_reducible apply keepsFst_ite
    | with_reducible apply keepsFst_mk
    | with_reducible exact (keeps_admit ‹_›).of ‹_›
    | with_reducible apply KeepsFst.fst
    | (refine KeepsFst.of (keeps_admit ?_) (by assumption))
    | split
    | (with_reducible apply keeps_update; first | assumption | with_reducible apply keeps_loseRecord | with_reducible apply keeps_admit)

theorem keeps_event {s : State} {p : Page} {code : Nat} {arg0 : Nat} {arg1 : Nat} {aux : Nat} {inst : Nat} (hk : Keeps s0 s) : Keeps s0 (State.event s p code arg0 arg1 aux inst) := by
  unfold State.event
  repeat' first
    | with_reducible assumption
    | with_reducible apply keeps_present

theorem keeps_voidReservation {s : State} {k : Nat} {cause : Nat} (hk : Keeps s0 s) : Keeps s0 (State.voidReservation s k cause) := by
  unfold State.voidReservation
  repeat' first
    | ((try lift_lets -underBinder); intro x; refine Keeps.cut (s0 := s0) x ?_ ?_ <;> [unfold x; (intro hx; clear_value x)])
    | ((try lift_lets -underBinder); intro x; clear_value x)
    | (with_reducible intro _)
    | with_reducible assumption
    | with_reducible apply keeps_ringRegs
    | with_reducible apply keeps_set
    | with_reducible apply keeps_event
    | with_reducible apply keeps_flushPage
    | split
    | (with_reducible apply keeps_update; first | assumption | with_reducible apply keeps_ringRegs | with_reducible apply keeps_set | with_reducible apply keeps_event | with_reducible apply keeps_flushPage)

theorem keeps_devqRegs {s : State} {d : Nat} (hk : Keeps s0 s) : Keeps s0 (State.devqRegs s d) := by
  unfold State.devqRegs
  repeat' first
    | with_reducible assumption
    | with_reducible apply keeps_put
    | with_reducible apply keeps_set

theorem keeps_dieEvent {s : State} {d : Nat} {p : Page} {code : Nat} {arg0 : Nat} {arg1 : Nat} {aux : Nat} {inst : Nat} (hk : Keeps s0 s) : Keeps s0 (State.dieEvent s d p code arg0 arg1 aux inst) := by
  unfold State.dieEvent
  repeat' first
    | ((try lift_lets -underBinder); intro x; clear_value x)
    | (with_reducible intro _)
    | with_reducible assumption
    | with_reducible apply keeps_ite
    | with_reducible apply keeps_devqRegs
    | with_reducible apply keeps_set
    | with_reducible apply keeps_onDie
    | with_reducible apply keeps_count

theorem keeps_chipEvent {s : State} {chip : Nat} {p : Page} {code : Nat} {arg0 : Nat} {arg1 : Nat} {aux : Nat} {inst : Nat} (hk : Keeps s0 s) : Keeps s0 (State.chipEvent s chip p code arg0 arg1 aux inst) := by
  unfold State.chipEvent
  repeat' first
    | with_reducible assumption
    | with_reducible apply keeps_ite
    | with_reducible apply keeps_dieEvent
    | with_reducible apply keeps_event

end Sys2Proof.Machine
end

