-- ==== Sys2Proof/Laws/KeepsPages.lean ====
section
/-! SUPPORT. What the operations and meanings of Machine/Pages.lean keep (Laws/Keeps.lean). -/

namespace Sys2Proof.Machine

variable {s0 : State}

theorem keeps_noteFault {s : State} {b : FaultBit} (hk : Keeps s0 s) : Keeps s0 (State.noteFault s b) := by
  unfold State.noteFault
  repeat' first
    | (with_reducible intro _)
    | with_reducible assumption
    | (with_reducible apply keeps_update; first | assumption)

theorem keeps_pageFault {s : State} {chip : Nat} {p : Page} {inst : Nat} {b : FaultBit} {req : Nat} {off : Nat} {value : Nat} (hk : Keeps s0 s) : Keeps s0 (State.pageFault s chip p inst b req off value) := by
  unfold State.pageFault
  repeat' first
    | ((try lift_lets -underBinder); intro x; refine Keeps.cut (s0 := s0) x ?_ ?_ <;> [unfold x; (intro hx; clear_value x)])
    | ((try lift_lets -underBinder); intro x; clear_value x)
    | (with_reducible intro _)
    | with_reducible assumption
    | with_reducible apply keeps_ite
    | with_reducible apply keeps_pageEvent
    | with_reducible apply keeps_setBit
    | with_reducible apply keeps_noteFault
    | with_reducible apply keeps_chipEvent

theorem keeps_regFault {s : State} {chip : Nat} {p : Page} {r : Reg} {i : Nat} {b : FaultBit} {req : Nat} {value : Nat} (hk : Keeps s0 s) : Keeps s0 (State.regFault s chip p r i b req value) := by
  unfold State.regFault
  repeat' first
    | with_reducible assumption
    | with_reducible apply keeps_pageFault

theorem keeps_resetDomain {s : State} {dom : Domain} {chip : Nat} (hk : Keeps s0 s) : Keeps s0 (s.resetDomain dom chip) := by
  refine hk.change rfl rfl rfl id (fun k => ?_) (fun k => ?_) id id (fun k hk hs => ?_)
  · exact Rising.akeep k (fun k => !inDomain dom chip k)
  · exact Rising.akeep k (fun k => !inDomain dom chip k)
  exact List.mem_filter.2 ⟨hs, by simp [hk]⟩

theorem keeps_softResetPage {s : State} {chip : Nat} {p : Page} {inst : Nat} (hk : Keeps s0 s) :
    Keeps s0 (s.softResetPage chip p inst) :=
  keeps_set (hk.change rfl rfl rfl id (fun k => Rising.akeep k (fun k => !inPage chip p inst k || softKeeps chip p inst k))
    (fun k => Rising.akeep k (fun k => !inPage chip p inst k)) id id (fun _ _ k => k))

theorem keeps_onWrite {s : State} {chip : Nat} {p : Page} {r : Reg} {i : Nat} {req : Nat} {value : Nat} {act : State → State} (hk : Keeps s0 s) (hact : ∀ x0, Keeps s0 x0 → Keeps s0 (act x0)) : Keeps s0 (State.onWrite s chip p r i req value act) := by
  unfold State.onWrite
  repeat' first
    | (with_reducible intro _)
    | with_reducible assumption
    | with_reducible apply keeps_ite
    | with_reducible apply hact
    | with_reducible apply keeps_regFault
    | with_reducible apply keeps_act
    | split

theorem keeps_applyShadow {s : State} {chip : Nat} {p : Page} {inst : Nat} (hk : Keeps s0 s) :
    Keeps s0 (s.applyShadow chip p inst) := by
  refine keeps_pageEvent (keeps_wrap (keeps_set ?_))
  refine hk.change rfl rfl rfl id (fun k => ?_) (fun k => Rising.akeep k (fun k => !inPage chip p inst k)) (fun k => ?_) id (fun _ _ k => k)
  · refine foldl_keeps Rising _ (fun b c h => ?_) _ _ (foldl_keeps Rising _ (fun b c h => ?_) _ _ k)
    · split
      · exact h.adel _
      · exact h
    · split
      · exact h.aput _ _
      · exact h
  · refine foldl_keeps Rising _ (fun b c h => ?_) _ _ k
    split
    · exact h.aput _ _
    · exact h

end Sys2Proof.Machine
end

