-- ==== Sys2Proof/Laws/KeepsLines.lean ====
section
/-! SUPPORT. What the operations and meanings of Machine/Lines.lean keep (Laws/Keeps.lean). -/

namespace Sys2Proof.Machine

variable {s0 : State}

theorem keeps_showWindow {s : State} {k : Nat} (hk : Keeps s0 s) : Keeps s0 (State.showWindow s k) := by
  unfold State.showWindow
  repeat' first
    | ((try lift_lets -underBinder); intro x; refine Keeps.cut (s0 := s0) x ?_ ?_ <;> [unfold x; (intro hx; clear_value x)])
    | ((try lift_lets -underBinder); intro x; clear_value x)
    | with_reducible assumption
    | with_reducible apply keeps_ite
    | with_reducible apply keeps_set

theorem keeps_mirrorWindows {s : State} {d : Nat} {slot : Nat} {status : Nat} {tid : Nat} (hk : Keeps s0 s) : Keeps s0 (State.mirrorWindows s d slot status tid) := by
  unfold State.mirrorWindows
  repeat' first
    | ((try lift_lets -underBinder); intro x; refine Keeps.cut (s0 := s0) x ?_ ?_ <;> [unfold x; (intro hx; clear_value x)])
    | (with_reducible intro _)
    | with_reducible assumption
    | with_reducible apply keeps_ite
    | with_reducible apply keeps_set
    | with_reducible apply keeps_showWindow
    | with_reducible apply keeps_each

theorem keeps_freeSlot {s : State} {d : Nat} {slot : Nat} (hk : Keeps s0 s) : Keeps s0 (State.freeSlot s d slot) := by
  unfold State.freeSlot
  repeat' first
    | ((try lift_lets -underBinder); intro x; refine Keeps.cut (s0 := s0) x ?_ ?_ <;> [unfold x; (intro hx; clear_value x)])
    | ((try lift_lets -underBinder); intro x; clear_value x)
    | (with_reducible intro _)
    | with_reducible assumption
    | with_reducible apply keeps_ite
    | with_reducible apply keeps_set
    | with_reducible apply keeps_setBit
    | with_reducible apply keeps_devqRegs
    | with_reducible apply keeps_each
    | with_reducible apply keeps_showWindow
    | split

theorem keeps_postResult {s : State} {d : Nat} {slot : Nat} {st : MbxStatus} {detail : Nat} (hk : Keeps s0 s) : Keeps s0 (State.postResult s d slot st detail) := by
  unfold State.postResult
  repeat' first
    | ((try lift_lets -underBinder); intro x; refine Keeps.cut (s0 := s0) x ?_ ?_ <;> [unfold x; (intro hx; clear_value x)])
    | ((try lift_lets -underBinder); intro x; clear_value x)
    | (with_reducible intro _)
    | with_reducible assumption
    | with_reducible apply keeps_ite
    | with_reducible apply keeps_set
    | with_reducible apply keeps_setBit
    | with_reducible apply keeps_devqRegs
    | with_reducible apply keeps_dieEvent

theorem keeps_takeResults {s : State} {d : Nat} (hk : Keeps s0 s) : Keeps s0 (State.takeResults s d) := by
  unfold State.takeResults
  repeat' first
    | ((try lift_lets -underBinder); intro x; refine Keeps.cut (s0 := s0) x ?_ ?_ <;> [unfold x; (intro hx; clear_value x)])
    | ((try lift_lets -underBinder); intro x; clear_value x)
    | (with_reducible intro _)
    | with_reducible assumption
    | with_reducible apply keeps_ite
    | with_reducible apply keeps_each
    | with_reducible apply keeps_setBit
    | with_reducible apply keeps_mirrorWindows
    | with_reducible apply keeps_freeSlot
    | with_reducible apply keeps_devqRegs

theorem keeps_discardAccepted {s : State} {d : Nat} (hk : Keeps s0 s) : Keeps s0 (State.discardAccepted s d) := by
  unfold State.discardAccepted
  repeat' first
    | ((try lift_lets -underBinder); intro x; clear_value x)
    | (with_reducible intro _)
    | with_reducible assumption
    | with_reducible apply keeps_ite
    | with_reducible apply keeps_postResult
    | with_reducible apply keeps_each

theorem keeps_discardTripped {s : State} {d : Nat} (hk : Keeps s0 s) : Keeps s0 (State.discardTripped s d) := by
  unfold State.discardTripped
  repeat' first
    | ((try lift_lets -underBinder); intro x; refine Keeps.cut (s0 := s0) x ?_ ?_ <;> [unfold x; (intro hx; clear_value x)])
    | ((try lift_lets -underBinder); intro x; clear_value x)
    | (with_reducible intro _)
    | with_reducible assumption
    | with_reducible apply keeps_ite
    | with_reducible apply keeps_mirrorWindows
    | with_reducible apply keeps_freeSlot
    | with_reducible apply keeps_each

theorem keeps_setDieState {s : State} {n : Nat} {v : Nat} (hk : Keeps s0 s) : Keeps s0 (State.setDieState s n v) := by
  unfold State.setDieState
  repeat' first
    | ((try lift_lets -underBinder); intro x; clear_value x)
    | with_reducible assumption
    | with_reducible apply keeps_set

theorem keeps_mainOpened {s : State} (hk : Keeps s0 s) : Keeps s0 (State.mainOpened s) := by
  unfold State.mainOpened
  repeat' first
    | with_reducible assumption
    | with_reducible apply keeps_set

theorem keeps_turnOff {s : State} {n : Nat} {k : Nat} (hk : Keeps s0 s) : Keeps s0 (State.turnOff s n k) := by
  unfold State.turnOff
  repeat' first
    | ((try lift_lets -underBinder); intro x; refine Keeps.cut (s0 := s0) x ?_ ?_ <;> [unfold x; (intro hx; clear_value x)])
    | ((try lift_lets -underBinder); intro x; clear_value x)
    | (with_reducible intro _)
    | with_reducible assumption
    | with_reducible apply keeps_ite
    | with_reducible apply keeps_setBit
    | with_reducible apply keeps_set

theorem keeps_railsOff {s : State} {n : Nat} (hk : Keeps s0 s) : Keeps s0 (State.railsOff s n) := by
  unfold State.railsOff
  repeat' first
    | ((try lift_lets -underBinder); intro x; refine Keeps.cut (s0 := s0) x ?_ ?_ <;> [unfold x; (intro hx; clear_value x)])
    | ((try lift_lets -underBinder); intro x; clear_value x)
    | (with_reducible intro _)
    | with_reducible assumption
    | with_reducible apply keeps_ite
    | with_reducible apply keeps_setDieState
    | with_reducible apply keeps_setBit
    | with_reducible apply keeps_set
    | with_reducible apply keeps_mainOpened

theorem keeps_railsDown {s : State} {n : Nat} {final : Nat} (hk : Keeps s0 s) : Keeps s0 (State.railsDown s n final) := by
  unfold State.railsDown
  repeat' first
    | ((try lift_lets -underBinder); intro x; refine Keeps.cut (s0 := s0) x ?_ ?_ <;> [unfold x; (intro hx; clear_value x)])
    | ((try lift_lets -underBinder); intro x; clear_value x)
    | (with_reducible intro _)
    | with_reducible assumption
    | with_reducible apply keeps_ite
    | with_reducible apply keeps_set
    | with_reducible apply keeps_railsOff
    | with_reducible apply keeps_turnOff
    | with_reducible apply keeps_setDieState

theorem keeps_allRailsDown {s : State} {final : Nat} (hk : Keeps s0 s) : Keeps s0 (State.allRailsDown s final) := by
  unfold State.allRailsDown
  repeat' first
    | ((try lift_lets -underBinder); intro x; refine Keeps.cut (s0 := s0) x ?_ ?_ <;> [unfold x; (intro hx; clear_value x)])
    | (with_reducible intro _)
    | with_reducible assumption
    | with_reducible apply keeps_ite
    | with_reducible apply keeps_set
    | with_reducible apply keeps_railsDown
    | with_reducible apply keeps_mainOpened
    | with_reducible apply keeps_each

theorem keeps_dieReset {s : State} {n : Nat} (hk : Keeps s0 s) : Keeps s0 (s.dieReset n) := by
  refine keeps_each _ ?_ (fun s g h => keeps_setBit (keeps_setBit (keeps_set h)))
  refine keeps_set (keeps_set (keeps_set (keeps_set (keeps_set (keeps_set (keeps_set ?_))))))
  exact (keeps_resetDomain (dom := .die) (chip := n) hk).change rfl rfl rfl (fun k => memWf_filter k _) id id id (fun k => k.adel _)
    (fun _ _ k => k)

theorem keeps_lineRecord {s : State} {code : Nat} {n : Nat} {src : Nat} (hk : Keeps s0 s) : Keeps s0 (State.lineRecord s code n src) := by
  unfold State.lineRecord
  repeat' first
    | with_reducible assumption
    | with_reducible apply keeps_event

theorem keeps_dieLost {s : State} {n : Nat} (hk : Keeps s0 s) : Keeps s0 (State.dieLost s n) := by
  unfold State.dieLost
  repeat' first
    | with_reducible assumption
    | with_reducible apply keeps_ite
    | with_reducible apply keeps_set
    | with_reducible apply keeps_setBit

theorem keeps_fenceLine {s : State} {n : Nat} {src : Nat} (hk : Keeps s0 s) : Keeps s0 (State.fenceLine s n src) := by
  unfold State.fenceLine
  repeat' first
    | ((try lift_lets -underBinder); intro x; refine Keeps.cut (s0 := s0) x ?_ ?_ <;> [unfold x; (intro hx; clear_value x)])
    | with_reducible assumption
    | with_reducible apply keeps_ite
    | with_reducible apply keeps_count
    | with_reducible apply keeps_set
    | with_reducible apply keeps_setBit
    | with_reducible apply keeps_dieLost
    | with_reducible apply keeps_lineRecord
    | with_reducible apply keeps_pageEvent

theorem keeps_tripLine {s : State} {n : Nat} {src : Nat} (hk : Keeps s0 s) : Keeps s0 (State.tripLine s n src) := by
  unfold State.tripLine
  repeat' first
    | ((try lift_lets -underBinder); intro x; refine Keeps.cut (s0 := s0) x ?_ ?_ <;> [unfold x; (intro hx; clear_value x)])
    | with_reducible assumption
    | with_reducible apply keeps_ite
    | with_reducible apply keeps_set
    | with_reducible apply keeps_setBit
    | with_reducible apply keeps_dieReset
    | with_reducible apply keeps_discardTripped
    | with_reducible apply keeps_dieLost
    | with_reducible apply keeps_lineRecord

theorem keeps_outOfService {s : State} {cause : Nat} (hk : Keeps s0 s) : Keeps s0 (State.outOfService s cause) := by
  unfold State.outOfService
  repeat' first
    | ((try lift_lets -underBinder); intro x; refine Keeps.cut (s0 := s0) x ?_ ?_ <;> [unfold x; (intro hx; clear_value x)])
    | (with_reducible intro _)
    | with_reducible assumption
    | with_reducible apply keeps_ite
    | with_reducible apply keeps_pageEvent
    | with_reducible apply keeps_set
    | with_reducible apply keeps_event
    | with_reducible apply keeps_fenceLine
    | with_reducible apply keeps_each

theorem keeps_checkService {s : State} (hk : Keeps s0 s) : Keeps s0 (State.checkService s) := by
  unfold State.checkService
  repeat' first
    | with_reducible assumption
    | with_reducible apply keeps_ite
    | with_reducible apply keeps_outOfService

theorem keeps_fence {s : State} {n : Nat} {src : Nat} (hk : Keeps s0 s) : Keeps s0 (State.fence s n src) := by
  unfold State.fence
  repeat' first
    | with_reducible assumption
    | with_reducible apply keeps_checkService
    | with_reducible apply keeps_fenceLine

theorem keeps_trip {s : State} {n : Nat} {src : Nat} (hk : Keeps s0 s) : Keeps s0 (State.trip s n src) := by
  unfold State.trip
  repeat' first
    | with_reducible assumption
    | with_reducible apply keeps_checkService
    | with_reducible apply keeps_tripLine

theorem keeps_tripAll {s : State} {src : Nat} (hk : Keeps s0 s) : Keeps s0 (State.tripAll s src) := by
  unfold State.tripAll
  repeat' first
    | (with_reducible intro _)
    | with_reducible assumption
    | with_reducible apply keeps_tripLine
    | with_reducible apply keeps_each

theorem keeps_dieFault {s : State} {d : Nat} {bit : Nat} (hk : Keeps s0 s) : Keeps s0 (State.dieFault s d bit) := by
  unfold State.dieFault
  repeat' first
    | with_reducible assumption
    | with_reducible apply keeps_ite
    | with_reducible apply keeps_dieEvent
    | with_reducible apply keeps_setBit

theorem keeps_toTrayState {s : State} {new : Nat} (hk : Keeps s0 s) : Keeps s0 (State.toTrayState s new) := by
  unfold State.toTrayState
  repeat' first
    | ((try lift_lets -underBinder); intro x; clear_value x)
    | with_reducible assumption
    | with_reducible apply keeps_ite
    | with_reducible apply keeps_event
    | with_reducible apply keeps_set

theorem keeps_dieReady {s : State} {d : Nat} (hk : Keeps s0 s) : Keeps s0 (State.dieReady s d) := by
  unfold State.dieReady
  repeat' first
    | ((try lift_lets -underBinder); intro x; refine Keeps.cut (s0 := s0) x ?_ ?_ <;> [unfold x; (intro hx; clear_value x)])
    | ((try lift_lets -underBinder); intro x; clear_value x)
    | (with_reducible intro _)
    | with_reducible assumption
    | with_reducible apply keeps_ite
    | with_reducible apply keeps_set
    | with_reducible apply keeps_dieEvent

end Sys2Proof.Machine
end

