-- ==== Sys2Proof/Laws/KeepsCooling.lean ====
section
/-! SUPPORT. What the operations and meanings of Machine/Cooling.lean keep (Laws/Keeps.lean). -/

namespace Sys2Proof.Machine

variable {s0 : State}

theorem keeps_coolNow {s : State} (hk : Keeps s0 s) : Keeps s0 (State.coolNow s) := by
  unfold State.coolNow
  repeat' first
    | ((try lift_lets -underBinder); intro x; refine Keeps.cut (s0 := s0) x ?_ ?_ <;> [unfold x; (intro hx; clear_value x)])
    | (with_reducible intro _)
    | with_reducible assumption
    | with_reducible apply keeps_set
    | with_reducible apply keeps_put
    | with_reducible apply keeps_each
    | with_reducible apply hf
    | split

theorem keeps_zoneDemand {s : State} {z : Nat} (hk : Keeps s0 s) : Keeps s0 (State.zoneDemand s z) := by
  unfold State.zoneDemand
  repeat' first
    | ((try lift_lets -underBinder); intro x; clear_value x)
    | with_reducible assumption
    | with_reducible apply keeps_ite
    | with_reducible apply keeps_set

theorem keeps_coolTargets {s : State} (hk : Keeps s0 s) : Keeps s0 (State.coolTargets s) := by
  unfold State.coolTargets
  repeat' first
    | ((try lift_lets -underBinder); intro x; refine Keeps.cut (s0 := s0) x ?_ ?_ <;> [unfold x; (intro hx; clear_value x)])
    | ((try lift_lets -underBinder); intro x; clear_value x)
    | (with_reducible intro _)
    | with_reducible assumption
    | with_reducible apply keeps_set
    | with_reducible apply keeps_each

theorem keeps_coolFollow {s : State} (hk : Keeps s0 s) : Keeps s0 (State.coolFollow s) := by
  unfold State.coolFollow
  repeat' first
    | (with_reducible intro _)
    | with_reducible assumption
    | with_reducible apply keeps_ite
    | with_reducible apply keeps_set
    | with_reducible apply keeps_each

theorem keeps_markWhile {s : State} {mark : Field} {c : Bool} (hk : Keeps s0 s) : Keeps s0 (State.markWhile s mark c) := by
  unfold State.markWhile
  repeat' first
    | with_reducible assumption
    | with_reducible apply keeps_ite
    | with_reducible apply keeps_set

theorem keeps_coolWatch {s : State} (hk : Keeps s0 s) : Keeps s0 (State.coolWatch s) := by
  unfold State.coolWatch
  repeat' first
    | (with_reducible intro _)
    | with_reducible assumption
    | with_reducible apply keeps_each
    | with_reducible apply keeps_markWhile

theorem keeps_coolArm {s : State} (hk : Keeps s0 s) : Keeps s0 (State.coolArm s) := by
  unfold State.coolArm
  repeat' first
    | ((try lift_lets -underBinder); intro x; refine Keeps.cut (s0 := s0) x ?_ ?_ <;> [unfold x; (intro hx; clear_value x)])
    | (with_reducible intro _)
    | with_reducible assumption
    | with_reducible apply keeps_markWhile
    | with_reducible apply keeps_put
    | with_reducible apply keeps_each

theorem keeps_flowRate {s : State} {f : Nat} (hk : Keeps s0 s) : Keeps s0 (State.flowRate s f) := by
  unfold State.flowRate
  repeat' first
    | ((try lift_lets -underBinder); intro x; refine Keeps.cut (s0 := s0) x ?_ ?_ <;> [unfold x; (intro hx; clear_value x)])
    | ((try lift_lets -underBinder); intro x; clear_value x)
    | (with_reducible intro _)
    | with_reducible assumption
    | with_reducible apply keeps_ite
    | with_reducible apply keeps_set
    | with_reducible apply keeps_markWhile
    | with_reducible apply hf
    | (with_reducible apply keeps_update; first | assumption | with_reducible apply keeps_set | with_reducible apply keeps_markWhile)

theorem keeps_flowProven {s : State} (hk : Keeps s0 s) : Keeps s0 (State.flowProven s) := by
  unfold State.flowProven
  repeat' first
    | (with_reducible intro _)
    | with_reducible assumption
    | with_reducible apply keeps_put

theorem keeps_clearFault {s : State} {f : Field} {p : Page} {held : Bool} (hk : Keeps s0 s) : Keeps s0 (State.clearFault s f p held) := by
  unfold State.clearFault
  repeat' first
    | with_reducible assumption
    | with_reducible apply keeps_ite
    | with_reducible apply keeps_coolNow
    | with_reducible apply keeps_event
    | with_reducible apply keeps_set

theorem keeps_execControlPeriod (s : State) : KeepsOut s (execControlPeriod s) := by
  have hk := Keeps.refl s
  unfold execControlPeriod
  repeat' first
    | ((try lift_lets -underBinder); intro x; refine Keeps.cut (s0 := s) x ?_ ?_ <;> [unfold x; (intro hx; clear_value x)])
    | ((try lift_lets -underBinder); intro x; clear_value x)
    | (with_reducible intro _)
    | with_reducible assumption
    | with_reducible apply keepsOut_next
    | with_reducible apply keepsOut_ite
    | with_reducible apply keeps_ite
    | with_reducible apply keeps_each
    | with_reducible apply keeps_zoneDemand
    | with_reducible apply keeps_coolTargets
    | with_reducible apply keeps_coolNow
    | with_reducible apply keeps_coolFollow
    | with_reducible apply keeps_set
    | with_reducible apply keeps_flowRate
    | with_reducible apply keeps_coolArm
    | with_reducible apply keeps_coolWatch
    | with_reducible apply keeps_flowProven

theorem keeps_execPwmPeriod (s : State) : KeepsOut s (execPwmPeriod s) := by
  have hk := Keeps.refl s
  unfold execPwmPeriod
  repeat' first
    | (with_reducible intro _)
    | with_reducible assumption
    | with_reducible apply keepsOut_next
    | with_reducible apply keepsOut_ite
    | with_reducible apply keeps_ite
    | with_reducible apply keeps_each
    | with_reducible apply keeps_set
    | with_reducible apply keeps_coolArm
    | with_reducible apply keeps_coolWatch

theorem keeps_execTachEdge (channel : Fin 14) (us : Nat) (width : Nat) (s : State) : KeepsOut s (execTachEdge channel us width s) := by
  have hk := Keeps.refl s
  unfold execTachEdge
  repeat' first
    | ((try lift_lets -underBinder); intro x; refine Keeps.cut (s0 := s) x ?_ ?_ <;> [unfold x; (intro hx; clear_value x)])
    | ((try lift_lets -underBinder); intro x; clear_value x)
    | (with_reducible intro _)
    | with_reducible assumption
    | with_reducible apply keepsOut_next
    | with_reducible apply keepsOut_ite
    | with_reducible apply keeps_ite
    | with_reducible apply keeps_set
    | with_reducible apply keeps_foldl
    | (with_reducible apply keeps_update; first | assumption | with_reducible apply keeps_set)

theorem keeps_execTachFault (channel : Fin 14) (s : State) : KeepsOut s (execTachFault channel s) := by
  have hk := Keeps.refl s
  unfold execTachFault
  repeat' first
    | ((try lift_lets -underBinder); intro x; refine Keeps.cut (s0 := s) x ?_ ?_ <;> [unfold x; (intro hx; clear_value x)])
    | ((try lift_lets -underBinder); intro x; clear_value x)
    | with_reducible assumption
    | with_reducible apply keepsOut_next
    | with_reducible apply keepsOut_ite
    | with_reducible apply keeps_ite
    | with_reducible apply keeps_set
    | with_reducible apply keeps_pageEvent
    | with_reducible apply keeps_event
    | with_reducible apply keeps_coolNow

theorem keeps_execFlowPulse (input : Fin 2) (s : State) : KeepsOut s (execFlowPulse input s) := by
  have hk := Keeps.refl s
  unfold execFlowPulse
  repeat' first
    | ((try lift_lets -underBinder); intro x; refine Keeps.cut (s0 := s) x ?_ ?_ <;> [unfold x; (intro hx; clear_value x)])
    | ((try lift_lets -underBinder); intro x; clear_value x)
    | (with_reducible intro _)
    | with_reducible assumption
    | with_reducible apply keepsOut_next
    | with_reducible apply keepsOut_ite
    | with_reducible apply keeps_ite
    | with_reducible apply keeps_flowRate
    | with_reducible apply keeps_coolWatch
    | with_reducible apply keeps_flowProven
    | (with_reducible apply keeps_update; first | assumption | with_reducible apply keeps_flowRate | with_reducible apply keeps_coolWatch | with_reducible apply keeps_flowProven)

theorem keeps_execFlowFault (input : Fin 2) (s : State) : KeepsOut s (execFlowFault input s) := by
  have hk := Keeps.refl s
  unfold execFlowFault
  repeat' first
    | ((try lift_lets -underBinder); intro x; clear_value x)
    | with_reducible assumption
    | with_reducible apply keepsOut_next
    | with_reducible apply keepsOut_ite
    | with_reducible apply keeps_ite
    | with_reducible apply keeps_coolNow
    | with_reducible apply keeps_pageEvent
    | with_reducible apply keeps_event
    | with_reducible apply keeps_set

theorem keeps_clearCoolFault {s : State} {ch : Nat} (hk : Keeps s0 s) : Keeps s0 (State.clearCoolFault s ch) := by
  unfold State.clearCoolFault
  repeat' first
    | with_reducible assumption
    | with_reducible apply keeps_ite
    | with_reducible apply keeps_clearFault

theorem keeps_execFaultClear (req : Requester) (channel : Fin 16) (s : State) : KeepsOut s (execFaultClear req channel s) := by
  have hk := Keeps.refl s
  unfold execFaultClear
  repeat' first
    | ((try lift_lets -underBinder); intro x; refine Keeps.cut (s0 := s) x ?_ ?_ <;> [unfold x; (intro hx; clear_value x)])
    | ((try lift_lets -underBinder); intro x; clear_value x)
    | (with_reducible intro _)
    | with_reducible assumption
    | with_reducible apply keepsOut_next
    | with_reducible apply keeps_onWrite
    | with_reducible apply keeps_clearCoolFault

theorem keeps_execLeakCrossing (channel : Fin 4) (current : Nat) (s : State) : KeepsOut s (execLeakCrossing channel current s) := by
  have hk := Keeps.refl s
  unfold execLeakCrossing
  repeat' first
    | ((try lift_lets -underBinder); intro x; refine Keeps.cut (s0 := s) x ?_ ?_ <;> [unfold x; (intro hx; clear_value x)])
    | ((try lift_lets -underBinder); intro x; clear_value x)
    | (with_reducible intro _)
    | with_reducible assumption
    | with_reducible apply keepsOut_next
    | with_reducible apply keepsOut_ite
    | with_reducible apply keeps_ite
    | with_reducible apply keeps_set
    | with_reducible apply keeps_count
    | with_reducible apply keeps_markWhile

theorem keeps_leakTrip {s : State} {n : Nat} (hk : Keeps s0 s) : Keeps s0 (State.leakTrip s n) := by
  unfold State.leakTrip
  repeat' first
    | ((try lift_lets -underBinder); intro x; refine Keeps.cut (s0 := s0) x ?_ ?_ <;> [unfold x; (intro hx; clear_value x)])
    | with_reducible assumption
    | with_reducible apply keeps_tripAll
    | with_reducible apply keeps_set
    | with_reducible apply keeps_outOfService
    | with_reducible apply keeps_allRailsDown
    | with_reducible apply keeps_coolNow
    | with_reducible apply keeps_event

theorem keeps_leakReleased {s : State} {n : Nat} (hk : Keeps s0 s) : Keeps s0 (State.leakReleased s n) := by
  unfold State.leakReleased
  repeat' first
    | with_reducible assumption
    | with_reducible apply keeps_ite
    | with_reducible apply keeps_set

theorem keeps_execLeakFilterDone (channel : Fin 4) (leak : Bool) (s : State) : KeepsOut s (execLeakFilterDone channel leak s) := by
  have hk := Keeps.refl s
  unfold execLeakFilterDone
  repeat' first
    | ((try lift_lets -underBinder); intro x; refine Keeps.cut (s0 := s) x ?_ ?_ <;> [unfold x; (intro hx; clear_value x)])
    | ((try lift_lets -underBinder); intro x; clear_value x)
    | with_reducible assumption
    | with_reducible apply keepsOut_next
    | with_reducible apply keepsOut_ite
    | with_reducible apply keeps_ite
    | with_reducible apply keeps_pageEvent
    | with_reducible apply keeps_set
    | with_reducible apply keeps_flowProven
    | with_reducible apply keeps_leakReleased
    | with_reducible apply keeps_leakTrip
    | with_reducible apply keeps_event

theorem keeps_execLeakSettleEnd (s : State) : KeepsOut s (execLeakSettleEnd s) := by
  have hk := Keeps.refl s
  unfold execLeakSettleEnd
  repeat' first
    | ((try lift_lets -underBinder); intro x; refine Keeps.cut (s0 := s) x ?_ ?_ <;> [unfold x; (intro hx; clear_value x)])
    | ((try lift_lets -underBinder); intro x; clear_value x)
    | (with_reducible intro _)
    | with_reducible assumption
    | with_reducible apply keepsOut_next
    | with_reducible apply keepsOut_ite
    | with_reducible apply keeps_ite
    | with_reducible apply keeps_setBit
    | with_reducible apply keeps_set
    | with_reducible apply keeps_coolNow
    | with_reducible apply keeps_event
    | with_reducible apply keeps_each

theorem keeps_execLeakMeasure (channel : Fin 4) (value : Nat) (ovr : Bool) (s : State) : KeepsOut s (execLeakMeasure channel value ovr s) := by
  have hk := Keeps.refl s
  unfold execLeakMeasure
  repeat' first
    | ((try lift_lets -underBinder); intro x; refine Keeps.cut (s0 := s) x ?_ ?_ <;> [unfold x; (intro hx; clear_value x)])
    | ((try lift_lets -underBinder); intro x; clear_value x)
    | with_reducible assumption
    | with_reducible apply keepsOut_next
    | with_reducible apply keepsOut_ite
    | with_reducible apply keeps_ite
    | with_reducible apply keeps_set
    | with_reducible apply keeps_event
    | with_reducible apply keeps_count

end Sys2Proof.Machine
end

