-- ==== Sys2Proof/Laws/KeepsPower.lean ====
section
/-! SUPPORT. What the operations and meanings of Machine/Power.lean keep (Laws/Keeps.lean). -/

namespace Sys2Proof.Machine

variable {s0 : State}

theorem keeps_enableRail {s : State} {n : Nat} {k : Nat} (hk : Keeps s0 s) : Keeps s0 (State.enableRail s n k) := by
  unfold State.enableRail
  repeat' first
    | with_reducible assumption
    | with_reducible apply keeps_set
    | with_reducible apply keeps_setBit

theorem keeps_loadSetpoints {s : State} {n : Nat} (hk : Keeps s0 s) : Keeps s0 (State.loadSetpoints s n) := by
  unfold State.loadSetpoints
  repeat' first
    | ((try lift_lets -underBinder); intro x; clear_value x)
    | (with_reducible intro _)
    | with_reducible assumption
    | with_reducible apply keeps_set
    | with_reducible apply keeps_each

theorem keeps_noteRailFault {s : State} {n : Nat} {order : Nat} {timeout : Bool} {lost : Bool} (hk : Keeps s0 s) : Keeps s0 (State.noteRailFault s n order timeout lost) := by
  unfold State.noteRailFault
  repeat' first
    | with_reducible assumption
    | with_reducible apply keeps_ite
    | with_reducible apply keeps_put
    | with_reducible apply keeps_set

theorem keeps_execStandbySupplyGood (s : State) : KeepsOut s (execStandbySupplyGood s) := by
  have hk := Keeps.refl s
  unfold execStandbySupplyGood
  repeat' first
    | with_reducible assumption
    | with_reducible apply keepsOut_next
    | with_reducible apply keeps_set

theorem keeps_leakInit {s : State} (hk : Keeps s0 s) : Keeps s0 (State.leakInit s) := by
  unfold State.leakInit
  repeat' first
    | (with_reducible intro _)
    | with_reducible assumption
    | with_reducible apply keeps_ite
    | with_reducible apply keeps_set
    | with_reducible apply keeps_each

theorem keeps_recorderOff {s : State} (hk : Keeps s0 s) : Keeps s0 (State.recorderOff s) := by
  unfold State.recorderOff
  repeat' first
    | with_reducible assumption
    | (with_reducible apply keeps_update; first | assumption | with_reducible apply keeps_set)

theorem keeps_showRx {s : State} (hk : Keeps s0 s) : Keeps s0 s.showRx := by
  unfold State.showRx
  extract_lets t
  have ht : Keeps s0 t := keeps_set hk
  clear_value t
  split
  · exact ht
  · exact keeps_each _ (keeps_setPair (keeps_set (keeps_set (keeps_set (keeps_set (keeps_set ht)))))) (fun s i h => keeps_set h)

theorem keeps_emptyRx {s : State} (hk : Keeps s0 s) : Keeps s0 (State.emptyRx s) := by
  unfold State.emptyRx
  repeat' first
    | with_reducible assumption
    | with_reducible apply keeps_showRx
    | (with_reducible apply keeps_update; first | assumption | with_reducible apply keeps_showRx)

theorem keeps_trayClear {s : State} (hk : Keeps s0 s) : Keeps s0 (State.trayClear s) := by
  unfold State.trayClear
  repeat' first
    | with_reducible assumption
    | with_reducible apply keeps_emptyRx
    | (with_reducible apply keeps_update; first | assumption | with_reducible apply keeps_emptyRx)

theorem keeps_powerOnClear {s : State} (hk : Keeps s0 s) : Keeps s0 (State.powerOnClear s) := by
  unfold State.powerOnClear
  repeat' first
    | ((try lift_lets -underBinder); intro x; refine Keeps.cut (s0 := s0) x ?_ ?_ <;> [unfold x; (intro hx; clear_value x)])
    | ((try lift_lets -underBinder); intro x; clear_value x)
    | (with_reducible intro _)
    | with_reducible assumption
    | with_reducible apply keeps_resetDomain
    | with_reducible apply keeps_recorderOff
    | with_reducible apply keeps_trayClear
    | with_reducible apply keeps_each
    | with_reducible apply keeps_dieReset
    | (with_reducible apply keeps_update; first | assumption | with_reducible apply keeps_resetDomain | with_reducible apply keeps_recorderOff | with_reducible apply keeps_trayClear | with_reducible apply keeps_each | with_reducible apply keeps_dieReset)

theorem keeps_execStandbySupplyLost (s : State) : KeepsOut s (execStandbySupplyLost s) := by
  have hk := Keeps.refl s
  unfold execStandbySupplyLost
  repeat' first
    | ((try lift_lets -underBinder); intro x; refine Keeps.cut (s0 := s) x ?_ ?_ <;> [unfold x; (intro hx; clear_value x)])
    | ((try lift_lets -underBinder); intro x; clear_value x)
    | (with_reducible intro _)
    | with_reducible assumption
    | with_reducible apply keepsOut_next
    | with_reducible apply keeps_powerOnClear
    | with_reducible apply keeps_set

theorem keeps_execPowerOnResetRelease (s : State) : KeepsOut s (execPowerOnResetRelease s) := by
  have hk := Keeps.refl s
  unfold execPowerOnResetRelease
  repeat' first
    | ((try lift_lets -underBinder); intro x; refine Keeps.cut (s0 := s) x ?_ ?_ <;> [unfold x; (intro hx; clear_value x)])
    | ((try lift_lets -underBinder); intro x; clear_value x)
    | (with_reducible intro _)
    | with_reducible assumption
    | with_reducible apply keepsOut_next
    | with_reducible apply keepsOut_ite
    | with_reducible apply keeps_ite
    | with_reducible apply keeps_powerOnClear
    | with_reducible apply keeps_set
    | with_reducible apply keeps_leakInit
    | with_reducible apply keeps_coolNow
    | with_reducible apply keeps_flowProven
    | with_reducible apply keeps_event

theorem keeps_execSlotIdLatch (pins : BitVec 7) (s : State) : KeepsOut s (execSlotIdLatch pins s) := by
  have hk := Keeps.refl s
  unfold execSlotIdLatch
  repeat' first
    | ((try lift_lets -underBinder); intro x; refine Keeps.cut (s0 := s) x ?_ ?_ <;> [unfold x; (intro hx; clear_value x)])
    | ((try lift_lets -underBinder); intro x; clear_value x)
    | (with_reducible intro _)
    | with_reducible assumption
    | with_reducible apply keepsOut_next
    | with_reducible apply keepsOut_ite
    | with_reducible apply keeps_ite
    | with_reducible apply keeps_set
    | with_reducible apply keeps_put

theorem keeps_execPcieReset (endpoint : Fin 9) (s : State) : KeepsOut s (execPcieReset endpoint s) := by
  have hk := Keeps.refl s
  unfold execPcieReset
  repeat' first
    | with_reducible assumption
    | with_reducible apply keepsOut_next
    | with_reducible apply keepsOut_ite
    | with_reducible apply keeps_ite
    | with_reducible apply keeps_count

theorem keeps_execDiePllLoss (die : DieNo) (pll : Fin 11) (s : State) : KeepsOut s (execDiePllLoss die pll s) := by
  have hk := Keeps.refl s
  unfold execDiePllLoss
  repeat' first
    | ((try lift_lets -underBinder); intro x; refine Keeps.cut (s0 := s) x ?_ ?_ <;> [unfold x; (intro hx; clear_value x)])
    | ((try lift_lets -underBinder); intro x; clear_value x)
    | (with_reducible intro _)
    | with_reducible assumption
    | with_reducible apply keepsOut_next
    | with_reducible apply keepsOut_ite
    | with_reducible apply keeps_ite
    | with_reducible apply keeps_set
    | with_reducible apply keeps_setBit
    | with_reducible apply keeps_dieFault
    | with_reducible apply keeps_count
    | split

theorem keeps_execSidebandFrame (die : DieNo) (crcGood : Bool) (s : State) : KeepsOut s (execSidebandFrame die crcGood s) := by
  have hk := Keeps.refl s
  unfold execSidebandFrame
  repeat' first
    | ((try lift_lets -underBinder); intro x; refine Keeps.cut (s0 := s) x ?_ ?_ <;> [unfold x; (intro hx; clear_value x)])
    | ((try lift_lets -underBinder); intro x; clear_value x)
    | (with_reducible intro _)
    | with_reducible assumption
    | with_reducible apply keepsOut_next
    | with_reducible apply keepsOut_ite
    | with_reducible apply keeps_ite
    | with_reducible apply keeps_set
    | with_reducible apply keeps_takeResults
    | with_reducible apply keeps_count
    | with_reducible apply keeps_event

theorem keeps_mainOn {s : State} (hk : Keeps s0 s) : Keeps s0 (State.mainOn s) := by
  unfold State.mainOn
  repeat' first
    | with_reducible assumption
    | with_reducible apply keeps_ite
    | with_reducible apply keeps_set

theorem keeps_execMainOn (req : Requester) (s : State) : KeepsOut s (execMainOn req s) := by
  have hk := Keeps.refl s
  unfold execMainOn
  repeat' first
    | with_reducible assumption
    | with_reducible apply keepsOut_next
    | with_reducible apply keeps_onWrite
    | with_reducible apply keeps_mainOn

theorem keeps_execMainOff (req : Requester) (s : State) : KeepsOut s (execMainOff req s) := by
  have hk := Keeps.refl s
  unfold execMainOff
  repeat' first
    | (with_reducible intro _)
    | with_reducible assumption
    | with_reducible apply keepsOut_next
    | with_reducible apply keepsOut_ite
    | with_reducible apply keeps_ite
    | with_reducible apply keeps_onWrite
    | with_reducible apply keeps_set

theorem keeps_railsUp {s : State} (hk : Keeps s0 s) : Keeps s0 (State.railsUp s) := by
  unfold State.railsUp
  repeat' first
    | ((try lift_lets -underBinder); intro x; clear_value x)
    | (with_reducible intro _)
    | with_reducible assumption
    | with_reducible apply keeps_ite
    | with_reducible apply keeps_set
    | with_reducible apply keeps_enableRail
    | with_reducible apply keeps_setDieState
    | with_reducible apply keeps_each

theorem keeps_execUp (req : Requester) (s : State) : KeepsOut s (execUp req s) := by
  have hk := Keeps.refl s
  unfold execUp
  repeat' first
    | with_reducible assumption
    | with_reducible apply keepsOut_next
    | with_reducible apply keeps_onWrite
    | with_reducible apply keeps_railsUp

theorem keeps_execDown (req : Requester) (s : State) : KeepsOut s (execDown req s) := by
  have hk := Keeps.refl s
  unfold execDown
  repeat' first
    | ((try lift_lets -underBinder); intro x; refine Keeps.cut (s0 := s) x ?_ ?_ <;> [unfold x; (intro hx; clear_value x)])
    | ((try lift_lets -underBinder); intro x; clear_value x)
    | (with_reducible intro _)
    | with_reducible assumption
    | with_reducible apply keepsOut_next
    | with_reducible apply keepsOut_ite
    | with_reducible apply keeps_ite
    | with_reducible apply keeps_onWrite
    | with_reducible apply keeps_regFault
    | with_reducible apply keeps_railsDown
    | with_reducible apply keeps_each

theorem keeps_execSetptOk (req : Requester) (s : State) : KeepsOut s (execSetptOk req s) := by
  have hk := Keeps.refl s
  unfold execSetptOk
  repeat' first
    | (with_reducible intro _)
    | with_reducible assumption
    | with_reducible apply keepsOut_next
    | with_reducible apply keepsOut_ite
    | with_reducible apply keeps_ite
    | with_reducible apply keeps_onWrite
    | with_reducible apply keeps_enableRail
    | with_reducible apply keeps_loadSetpoints
    | with_reducible apply keeps_each

theorem keeps_latchDieFault {s : State} {n : Nat} (hk : Keeps s0 s) : Keeps s0 (State.latchDieFault s n) := by
  unfold State.latchDieFault
  repeat' first
    | ((try lift_lets -underBinder); intro x; refine Keeps.cut (s0 := s0) x ?_ ?_ <;> [unfold x; (intro hx; clear_value x)])
    | ((try lift_lets -underBinder); intro x; clear_value x)
    | (with_reducible intro _)
    | with_reducible assumption
    | with_reducible apply keeps_ite
    | with_reducible apply keeps_set
    | with_reducible apply keeps_event
    | with_reducible apply keeps_fence

theorem keeps_thermRises {s : State} {n : Nat} (hk : Keeps s0 s) : Keeps s0 (State.thermRises s n) := by
  unfold State.thermRises
  repeat' first
    | ((try lift_lets -underBinder); intro x; refine Keeps.cut (s0 := s0) x ?_ ?_ <;> [unfold x; (intro hx; clear_value x)])
    | ((try lift_lets -underBinder); intro x; clear_value x)
    | (with_reducible intro _)
    | with_reducible assumption
    | with_reducible apply keeps_ite
    | with_reducible apply keeps_latchDieFault
    | with_reducible apply keeps_set
    | with_reducible apply keeps_setBit
    | with_reducible apply keeps_count
    | with_reducible apply keeps_event
    | with_reducible apply keeps_coolNow

theorem keeps_thermFalls {s : State} {n : Nat} (hk : Keeps s0 s) : Keeps s0 (State.thermFalls s n) := by
  unfold State.thermFalls
  repeat' first
    | ((try lift_lets -underBinder); intro x; refine Keeps.cut (s0 := s0) x ?_ ?_ <;> [unfold x; (intro hx; clear_value x)])
    | ((try lift_lets -underBinder); intro x; clear_value x)
    | (with_reducible intro _)
    | with_reducible assumption
    | with_reducible apply keeps_ite
    | with_reducible apply keeps_set
    | with_reducible apply keeps_setBit
    | with_reducible apply keeps_coolNow

theorem keeps_execRailPowerGood (die : DieNo) (s : State) : KeepsOut s (execRailPowerGood die s) := by
  have hk := Keeps.refl s
  unfold execRailPowerGood
  repeat' first
    | ((try lift_lets -underBinder); intro x; refine Keeps.cut (s0 := s) x ?_ ?_ <;> [unfold x; (intro hx; clear_value x)])
    | ((try lift_lets -underBinder); intro x; clear_value x)
    | (with_reducible intro _)
    | with_reducible assumption
    | with_reducible apply keepsOut_next
    | with_reducible apply keepsOut_ite
    | with_reducible apply keeps_ite
    | with_reducible apply keeps_setBit
    | with_reducible apply keeps_thermRises
    | with_reducible apply keeps_set
    | with_reducible apply keeps_setDieState
    | with_reducible apply keeps_enableRail

theorem keeps_execPgTimeout (die : DieNo) (s : State) : KeepsOut s (execPgTimeout die s) := by
  have hk := Keeps.refl s
  unfold execPgTimeout
  repeat' first
    | ((try lift_lets -underBinder); intro x; clear_value x)
    | with_reducible assumption
    | with_reducible apply keepsOut_next
    | with_reducible apply keepsOut_ite
    | with_reducible apply keeps_ite
    | with_reducible apply keeps_railsDown
    | with_reducible apply keeps_event
    | with_reducible apply keeps_noteRailFault

theorem keeps_execSetptTimeout (die : DieNo) (s : State) : KeepsOut s (execSetptTimeout die s) := by
  have hk := Keeps.refl s
  unfold execSetptTimeout
  repeat' first
    | ((try lift_lets -underBinder); intro x; clear_value x)
    | with_reducible assumption
    | with_reducible apply keepsOut_next
    | with_reducible apply keepsOut_ite
    | with_reducible apply keeps_ite
    | with_reducible apply keeps_railsDown
    | with_reducible apply keeps_event
    | with_reducible apply keeps_noteRailFault

theorem keeps_execRailPgLoss (die : DieNo) (rail : Fin 9) (s : State) : KeepsOut s (execRailPgLoss die rail s) := by
  have hk := Keeps.refl s
  unfold execRailPgLoss
  repeat' first
    | ((try lift_lets -underBinder); intro x; refine Keeps.cut (s0 := s) x ?_ ?_ <;> [unfold x; (intro hx; clear_value x)])
    | ((try lift_lets -underBinder); intro x; clear_value x)
    | with_reducible assumption
    | with_reducible apply keepsOut_next
    | with_reducible apply keepsOut_ite
    | with_reducible apply keeps_ite
    | with_reducible apply keeps_trip
    | with_reducible apply keeps_noteRailFault
    | with_reducible apply keeps_event
    | with_reducible apply keeps_railsDown

theorem keeps_execIbcLost (converter : Fin 4) (s : State) : KeepsOut s (execIbcLost converter s) := by
  have hk := Keeps.refl s
  unfold execIbcLost
  repeat' first
    | ((try lift_lets -underBinder); intro x; clear_value x)
    | with_reducible assumption
    | with_reducible apply keepsOut_next
    | with_reducible apply keepsOut_ite
    | with_reducible apply keeps_ite
    | with_reducible apply keeps_event
    | with_reducible apply keeps_setBit

theorem keeps_execMainBusUp (s : State) : KeepsOut s (execMainBusUp s) := by
  have hk := Keeps.refl s
  unfold execMainBusUp
  repeat' first
    | with_reducible assumption
    | with_reducible apply keepsOut_next
    | with_reducible apply keepsOut_ite
    | with_reducible apply keeps_ite
    | with_reducible apply keeps_set

theorem keeps_toMgmt {s : State} (hk : Keeps s0 s) : Keeps s0 (State.toMgmt s) := by
  unfold State.toMgmt
  repeat' first
    | with_reducible assumption
    | with_reducible apply keeps_set
    | with_reducible apply keeps_toTrayState

theorem keeps_powerFailFlush {s : State} (hk : Keeps s0 s) : Keeps s0 (State.powerFailFlush s) := by
  unfold State.powerFailFlush
  repeat' first
    | ((try lift_lets -underBinder); intro x; refine Keeps.cut (s0 := s0) x ?_ ?_ <;> [unfold x; (intro hx; clear_value x)])
    | with_reducible assumption
    | with_reducible apply keeps_ite
    | with_reducible apply keeps_set
    | with_reducible apply keeps_flushPage
    | with_reducible apply keeps_startFlush
    | (with_reducible apply keeps_update; first | assumption | with_reducible apply keeps_set | with_reducible apply keeps_flushPage | with_reducible apply keeps_startFlush)

theorem keeps_execPowerFailAssert (s : State) : KeepsOut s (execPowerFailAssert s) := by
  have hk := Keeps.refl s
  unfold execPowerFailAssert
  repeat' first
    | ((try lift_lets -underBinder); intro x; refine Keeps.cut (s0 := s) x ?_ ?_ <;> [unfold x; (intro hx; clear_value x)])
    | with_reducible assumption
    | with_reducible apply keepsOut_next
    | with_reducible apply keepsOut_ite
    | with_reducible apply keeps_ite
    | with_reducible apply keeps_set
    | with_reducible apply keeps_count
    | with_reducible apply keeps_powerFailFlush
    | with_reducible apply keeps_event
    | with_reducible apply keeps_tripAll
    | with_reducible apply keeps_outOfService
    | with_reducible apply keeps_allRailsDown

theorem keeps_execPowerFailRelease (s : State) : KeepsOut s (execPowerFailRelease s) := by
  have hk := Keeps.refl s
  unfold execPowerFailRelease
  repeat' first
    | ((try lift_lets -underBinder); intro x; refine Keeps.cut (s0 := s) x ?_ ?_ <;> [unfold x; (intro hx; clear_value x)])
    | ((try lift_lets -underBinder); intro x; clear_value x)
    | (with_reducible intro _)
    | with_reducible assumption
    | with_reducible apply keepsOut_next
    | with_reducible apply keepsOut_ite
    | with_reducible apply keeps_ite
    | with_reducible apply keeps_set
    | with_reducible apply keeps_toMgmt
    | with_reducible apply keeps_flushPage

theorem keeps_execInputOvercurrent (amps : BitVec 8) (s : State) : KeepsOut s (execInputOvercurrent amps s) := by
  have hk := Keeps.refl s
  unfold execInputOvercurrent
  repeat' first
    | ((try lift_lets -underBinder); intro x; refine Keeps.cut (s0 := s) x ?_ ?_ <;> [unfold x; (intro hx; clear_value x)])
    | with_reducible assumption
    | with_reducible apply keepsOut_next
    | with_reducible apply keepsOut_ite
    | with_reducible apply keeps_ite
    | with_reducible apply keeps_set
    | with_reducible apply keeps_event
    | with_reducible apply keeps_tripAll
    | with_reducible apply keeps_outOfService
    | with_reducible apply keeps_allRailsDown

theorem keeps_execCageOvercurrent (cage : Fin 16) (s : State) : KeepsOut s (execCageOvercurrent cage s) := by
  have hk := Keeps.refl s
  unfold execCageOvercurrent
  repeat' first
    | with_reducible assumption
    | with_reducible apply keepsOut_next
    | with_reducible apply keeps_set

theorem keeps_execCageRetry (cage : Fin 16) (s : State) : KeepsOut s (execCageRetry cage s) := by
  have hk := Keeps.refl s
  unfold execCageRetry
  repeat' first
    | with_reducible assumption
    | with_reducible apply keepsOut_next
    | with_reducible apply keeps_set

theorem keeps_execTransReq (req : Requester) (new : BitVec 3) (s : State) : KeepsOut s (execTransReq req new s) := by
  have hk := Keeps.refl s
  unfold execTransReq
  repeat' first
    | (with_reducible intro _)
    | with_reducible assumption
    | with_reducible apply keepsOut_next
    | with_reducible apply keepsOut_ite
    | with_reducible apply keeps_ite
    | with_reducible apply keeps_onWrite
    | with_reducible apply keeps_toMgmt
    | with_reducible apply keeps_toTrayState
    | with_reducible apply keeps_regFault

theorem keeps_armReset {s : State} {req : Nat} (hk : Keeps s0 s) : Keeps s0 (State.armReset s req) := by
  unfold State.armReset
  repeat' first
    | with_reducible assumption
    | (with_reducible apply keeps_update; first | assumption | with_reducible apply keeps_set)

theorem keeps_trayResetEnd {s : State} (hk : Keeps s0 s) : Keeps s0 (State.trayResetEnd s) := by
  unfold State.trayResetEnd
  repeat' first
    | ((try lift_lets -underBinder); intro x; refine Keeps.cut (s0 := s0) x ?_ ?_ <;> [unfold x; (intro hx; clear_value x)])
    | ((try lift_lets -underBinder); intro x; clear_value x)
    | (with_reducible intro _)
    | with_reducible assumption
    | with_reducible apply keeps_each
    | with_reducible apply keeps_voidReservation
    | with_reducible apply keeps_startFlush
    | with_reducible apply keeps_resetDomain
    | with_reducible apply keeps_trayClear
    | with_reducible apply keeps_set
    | with_reducible apply keeps_put
    | with_reducible apply keeps_foldl
    | with_reducible apply keeps_toTrayState
    | with_reducible apply keeps_leakInit
    | with_reducible apply keeps_coolNow
    | with_reducible apply keeps_flowProven

theorem keeps_tryResetEnd {s : State} (hk : Keeps s0 s) : Keeps s0 (State.tryResetEnd s) := by
  unfold State.tryResetEnd
  repeat' first
    | with_reducible assumption
    | with_reducible apply keeps_ite
    | with_reducible apply keeps_trayResetEnd

theorem keeps_trayReset {s : State} {supv : Bool} (hk : Keeps s0 s) : Keeps s0 (State.trayReset s supv) := by
  unfold State.trayReset
  repeat' first
    | ((try lift_lets -underBinder); intro x; refine Keeps.cut (s0 := s0) x ?_ ?_ <;> [unfold x; (intro hx; clear_value x)])
    | ((try lift_lets -underBinder); intro x; clear_value x)
    | (with_reducible intro _)
    | with_reducible assumption
    | with_reducible apply keeps_ite
    | with_reducible apply keeps_set
    | with_reducible apply keeps_put
    | with_reducible apply keeps_count
    | with_reducible apply keeps_tripAll
    | with_reducible apply keeps_event
    | with_reducible apply keeps_each
    | with_reducible apply keeps_allRailsDown
    | with_reducible apply keeps_tryResetEnd

theorem keeps_execRailOffStep (die : DieNo) (s : State) : KeepsOut s (execRailOffStep die s) := by
  have hk := Keeps.refl s
  unfold execRailOffStep
  repeat' first
    | ((try lift_lets -underBinder); intro x; refine Keeps.cut (s0 := s) x ?_ ?_ <;> [unfold x; (intro hx; clear_value x)])
    | ((try lift_lets -underBinder); intro x; clear_value x)
    | (with_reducible intro _)
    | with_reducible assumption
    | with_reducible apply keepsOut_next
    | with_reducible apply keepsOut_ite
    | with_reducible apply keeps_ite
    | with_reducible apply keeps_setBit
    | with_reducible apply keeps_set
    | with_reducible apply keeps_thermFalls
    | with_reducible apply keeps_railsOff
    | with_reducible apply keeps_tryResetEnd
    | with_reducible apply keeps_turnOff

theorem keeps_execArm (req : Requester) (s : State) : KeepsOut s (execArm req s) := by
  have hk := Keeps.refl s
  unfold execArm
  repeat' first
    | (with_reducible intro _)
    | with_reducible assumption
    | with_reducible apply keepsOut_next
    | with_reducible apply keeps_onWrite
    | with_reducible apply keeps_armReset

theorem keeps_fireReset {s : State} {req : Nat} (hk : Keeps s0 s) : Keeps s0 (State.fireReset s req) := by
  unfold State.fireReset
  repeat' first
    | with_reducible assumption
    | with_reducible apply keeps_ite
    | with_reducible apply keeps_trayReset
    | with_reducible apply keeps_regFault
    | (with_reducible apply keeps_update; first | assumption | with_reducible apply keeps_trayReset | with_reducible apply keeps_regFault)

theorem keeps_execFire (req : Requester) (s : State) : KeepsOut s (execFire req s) := by
  have hk := Keeps.refl s
  unfold execFire
  repeat' first
    | (with_reducible intro _)
    | with_reducible assumption
    | with_reducible apply keepsOut_next
    | with_reducible apply keeps_onWrite
    | with_reducible apply keeps_fireReset

end Sys2Proof.Machine
end

