-- ==== Sys2Proof/Laws/KeepsFirmware.lean ====
section
/-! SUPPORT. What the operations and meanings of Machine/Firmware.lean keep (Laws/Keeps.lean). -/

namespace Sys2Proof.Machine

variable {s0 : State}

theorem keeps_armWatch {s : State} {w : Watch} (hk : Keeps s0 s) : Keeps s0 (State.armWatch s w) := by
  unfold State.armWatch
  repeat' first
    | with_reducible assumption
    | with_reducible apply keeps_set

theorem keeps_runMc {s : State} {k : Nat} {cause : Nat} (hk : Keeps s0 s) : Keeps s0 (State.runMc s k cause) := by
  unfold State.runMc
  repeat' first
    | ((try lift_lets -underBinder); intro x; refine Keeps.cut (s0 := s0) x ?_ ?_ <;> [unfold x; (intro hx; clear_value x)])
    | ((try lift_lets -underBinder); intro x; clear_value x)
    | (with_reducible intro _)
    | with_reducible assumption
    | with_reducible apply keeps_ite
    | with_reducible apply keeps_set
    | with_reducible apply keeps_armWatch

theorem keeps_stopMc {s : State} {k : Nat} (hk : Keeps s0 s) : Keeps s0 (State.stopMc s k) := by
  unfold State.stopMc
  repeat' first
    | ((try lift_lets -underBinder); intro x; refine Keeps.cut (s0 := s0) x ?_ ?_ <;> [unfold x; (intro hx; clear_value x)])
    | with_reducible assumption
    | with_reducible apply keeps_ite
    | with_reducible apply keeps_set

theorem keeps_loadImage {s : State} {b : Bundle} {k : Nat} (hk : Keeps s0 s) : Keeps s0 (State.loadImage s b k) := by
  unfold State.loadImage
  repeat' first
    | (with_reducible intro _)
    | with_reducible assumption
    | with_reducible apply keeps_foldl
    | split
    | (with_reducible apply keeps_update; first | assumption | with_reducible apply keeps_foldl)

theorem keeps_execCoreStartTimeout (s : State) : KeepsOut s (execCoreStartTimeout s) := by
  have hk := Keeps.refl s
  unfold execCoreStartTimeout
  repeat' first
    | (with_reducible intro _)
    | with_reducible assumption
    | with_reducible apply keepsOut_next
    | with_reducible apply keepsOut_ite
    | with_reducible apply keeps_ite
    | with_reducible apply keeps_event
    | with_reducible apply keeps_set
    | with_reducible apply keeps_stopMc
    | with_reducible apply keeps_each

theorem keeps_execDieReadyTimeout (die : DieNo) (s : State) : KeepsOut s (execDieReadyTimeout die s) := by
  have hk := Keeps.refl s
  unfold execDieReadyTimeout
  repeat' first
    | ((try lift_lets -underBinder); intro x; refine Keeps.cut (s0 := s) x ?_ ?_ <;> [unfold x; (intro hx; clear_value x)])
    | ((try lift_lets -underBinder); intro x; clear_value x)
    | with_reducible assumption
    | with_reducible apply keepsOut_next
    | with_reducible apply keepsOut_ite
    | with_reducible apply keeps_ite
    | with_reducible apply keeps_event
    | with_reducible apply keeps_trip
    | with_reducible apply keeps_set

theorem keeps_execFetch (req : Requester) (s : State) : KeepsOut s (execFetch req s) := by
  have hk := Keeps.refl s
  unfold execFetch
  repeat' first
    | (with_reducible intro _)
    | with_reducible assumption
    | with_reducible apply keepsOut_next
    | with_reducible apply keepsOut_ite
    | with_reducible apply keeps_ite
    | with_reducible apply keeps_onWrite
    | with_reducible apply keeps_regFault
    | with_reducible apply keeps_set
    | (with_reducible apply keeps_update; first | assumption | with_reducible apply keeps_onWrite | with_reducible apply keeps_regFault | with_reducible apply keeps_set)

theorem keeps_execFetchDone (bundle : Bundle) (pcieError : Bool) (s : State) : KeepsOut s (execFetchDone bundle pcieError s) := by
  have hk := Keeps.refl s
  unfold execFetchDone
  repeat' first
    | ((try lift_lets -underBinder); intro x; refine Keeps.cut (s0 := s) x ?_ ?_ <;> [unfold x; (intro hx; clear_value x)])
    | with_reducible assumption
    | with_reducible apply keepsOut_next
    | with_reducible apply keepsOut_ite
    | with_reducible apply keeps_ite
    | with_reducible apply keeps_set
    | with_reducible apply keeps_event
    | (with_reducible apply keeps_update; first | assumption | with_reducible apply keeps_set | with_reducible apply keeps_event)

theorem keeps_execBundleCheck (req : Requester) (s : State) : KeepsOut s (execBundleCheck req s) := by
  have hk := Keeps.refl s
  unfold execBundleCheck
  repeat' first
    | (with_reducible intro _)
    | with_reducible assumption
    | with_reducible apply keepsOut_next
    | with_reducible apply keepsOut_ite
    | with_reducible apply keeps_ite
    | with_reducible apply keeps_onWrite
    | with_reducible apply keeps_regFault
    | with_reducible apply keeps_count
    | with_reducible apply keeps_set

theorem keeps_bundleGood {s : State} {b : Bundle} (hk : Keeps s0 s) : Keeps s0 (State.bundleGood s b) := by
  unfold State.bundleGood
  repeat' first
    | ((try lift_lets -underBinder); intro x; refine Keeps.cut (s0 := s0) x ?_ ?_ <;> [unfold x; (intro hx; clear_value x)])
    | ((try lift_lets -underBinder); intro x; clear_value x)
    | (with_reducible intro _)
    | with_reducible assumption
    | with_reducible apply keeps_setPair
    | with_reducible apply keeps_set
    | with_reducible apply keeps_each
    | with_reducible apply keeps_loadImage
    | with_reducible apply keeps_event

theorem keeps_bundleBad {s : State} (hk : Keeps s0 s) : Keeps s0 (State.bundleBad s) := by
  unfold State.bundleBad
  repeat' first
    | with_reducible assumption
    | with_reducible apply keeps_set
    | with_reducible apply keeps_event
    | (with_reducible apply keeps_update; first | assumption | with_reducible apply keeps_set | with_reducible apply keeps_event)

theorem keeps_execBundleCheckDone (s : State) : KeepsOut s (execBundleCheckDone s) := by
  have hk := Keeps.refl s
  unfold execBundleCheckDone
  repeat' first
    | ((try lift_lets -underBinder); intro x; refine Keeps.cut (s0 := s) x ?_ ?_ <;> [unfold x; (intro hx; clear_value x)])
    | ((try lift_lets -underBinder); intro x; clear_value x)
    | (with_reducible intro _)
    | with_reducible assumption
    | with_reducible apply keepsOut_next
    | with_reducible apply keepsOut_ite
    | with_reducible apply keeps_ite
    | with_reducible apply keeps_set
    | with_reducible apply keeps_bundleBad
    | with_reducible apply keeps_bundleGood
    | split

theorem keeps_setSram {s : State} {d : Nat} {core : Nat} {i : Nat} {v : Nat} (hk : Keeps s0 s) : Keeps s0 (State.setSram s d core i v) := by
  unfold State.setSram
  repeat' first
    | (with_reducible intro _)
    | with_reducible assumption
    | with_reducible apply keeps_onDie

theorem keeps_execImgData (req : Requester) (die : DieNo) (value : BitVec 32) (s : State) : KeepsOut s (execImgData req die value s) := by
  have hk := Keeps.refl s
  unfold execImgData
  repeat' first
    | ((try lift_lets -underBinder); intro x; clear_value x)
    | (with_reducible intro _)
    | with_reducible assumption
    | with_reducible apply keepsOut_next
    | with_reducible apply keepsOut_ite
    | with_reducible apply keeps_ite
    | with_reducible apply keeps_onWrite
    | with_reducible apply keeps_regFault
    | with_reducible apply keeps_set
    | with_reducible apply keeps_setSram

theorem keeps_runWarden {s : State} {d : Nat} {k : Nat} {cause : Nat} (hk : Keeps s0 s) : Keeps s0 (State.runWarden s d k cause) := by
  unfold State.runWarden
  repeat' first
    | ((try lift_lets -underBinder); intro x; refine Keeps.cut (s0 := s0) x ?_ ?_ <;> [unfold x; (intro hx; clear_value x)])
    | ((try lift_lets -underBinder); intro x; clear_value x)
    | (with_reducible intro _)
    | with_reducible assumption
    | with_reducible apply keeps_ite
    | with_reducible apply keeps_set
    | with_reducible apply keeps_armWatch
    | with_reducible apply keeps_each
    | with_reducible apply keeps_dieReady

theorem keeps_execWardenRelease (req : Requester) (die : DieNo) (core : Fin 2) (s : State) : KeepsOut s (execWardenRelease req die core s) := by
  have hk := Keeps.refl s
  unfold execWardenRelease
  repeat' first
    | ((try lift_lets -underBinder); intro x; refine Keeps.cut (s0 := s) x ?_ ?_ <;> [unfold x; (intro hx; clear_value x)])
    | ((try lift_lets -underBinder); intro x; clear_value x)
    | (with_reducible intro _)
    | with_reducible assumption
    | with_reducible apply keepsOut_next
    | with_reducible apply keepsOut_ite
    | with_reducible apply keeps_ite
    | with_reducible apply keeps_onWrite
    | with_reducible apply keeps_dieEvent
    | with_reducible apply keeps_set
    | with_reducible apply keeps_setPair
    | with_reducible apply keeps_runWarden

theorem keeps_execDieFuseLoadDone (die : DieNo) (s : State) : KeepsOut s (execDieFuseLoadDone die s) := by
  have hk := Keeps.refl s
  unfold execDieFuseLoadDone
  repeat' first
    | ((try lift_lets -underBinder); intro x; refine Keeps.cut (s0 := s) x ?_ ?_ <;> [unfold x; (intro hx; clear_value x)])
    | ((try lift_lets -underBinder); intro x; clear_value x)
    | with_reducible assumption
    | with_reducible apply keepsOut_next
    | with_reducible apply keepsOut_ite
    | with_reducible apply keeps_ite
    | with_reducible apply keeps_set

theorem keeps_kick {s : State} {chip : Nat} {p : Page} {r : Reg} {i : Nat} {req : Nat} {value : Nat} {w : Watch} (hk : Keeps s0 s) : Keeps s0 (State.kick s chip p r i req value w) := by
  unfold State.kick
  repeat' first
    | (with_reducible intro _)
    | with_reducible assumption
    | with_reducible apply keeps_ite
    | with_reducible apply keeps_onWrite
    | with_reducible apply keeps_regFault
    | with_reducible apply keeps_set
    | with_reducible apply keeps_armWatch

theorem keeps_execWdtKick (req : Requester) (core : Core) (value : BitVec 16) (s : State) : KeepsOut s (execWdtKick req core value s) := by
  have hk := Keeps.refl s
  unfold execWdtKick
  repeat' first
    | with_reducible assumption
    | with_reducible apply keepsOut_next
    | with_reducible apply keeps_kick
    | split

theorem keeps_execCmdPost (req : Requester) (k : Fin 32) (value : BitVec 32) (s : State) : KeepsOut s (execCmdPost req k value s) := by
  have hk := Keeps.refl s
  unfold execCmdPost
  repeat' first
    | ((try lift_lets -underBinder); intro x; refine Keeps.cut (s0 := s) x ?_ ?_ <;> [unfold x; (intro hx; clear_value x)])
    | ((try lift_lets -underBinder); intro x; clear_value x)
    | with_reducible assumption
    | with_reducible apply keepsOut_next
    | with_reducible apply keepsOut_ite
    | with_reducible apply keeps_ite
    | with_reducible apply keeps_pageFault
    | with_reducible apply keeps_wrap
    | with_reducible apply keeps_set
    | with_reducible apply keeps_setBit
    | (with_reducible apply keeps_update; first | assumption | with_reducible apply keeps_pageFault | with_reducible apply keeps_wrap | with_reducible apply keeps_set | with_reducible apply keeps_setBit)

theorem keeps_execCmdLate (k : Fin 20) (s : State) : KeepsOut s (execCmdLate k s) := by
  have hk := Keeps.refl s
  unfold execCmdLate
  repeat' first
    | with_reducible assumption
    | with_reducible apply keepsOut_next
    | with_reducible apply keepsOut_ite
    | with_reducible apply keeps_ite
    | with_reducible apply keeps_event
    | with_reducible apply keeps_pageEvent

theorem keeps_execStale (s : State) : KeepsOut s (execStale s) := by
  have hk := Keeps.refl s
  unfold execStale
  repeat' first
    | with_reducible assumption
    | with_reducible apply keepsOut_next
    | with_reducible apply keepsOut_ite
    | with_reducible apply keeps_ite
    | with_reducible apply keeps_pageEvent
    | with_reducible apply keeps_set

theorem keeps_publish {s : State} {c : Posted} {code : Nat} (hk : Keeps s0 s) : Keeps s0 (State.publish s c code) := by
  unfold State.publish
  repeat' first
    | ((try lift_lets -underBinder); intro x; refine Keeps.cut (s0 := s0) x ?_ ?_ <;> [unfold x; (intro hx; clear_value x)])
    | (with_reducible intro _)
    | with_reducible assumption
    | with_reducible apply keeps_ite
    | with_reducible apply keeps_set
    | with_reducible apply keeps_pageEvent
    | with_reducible apply keeps_setBit
    | (with_reducible apply keeps_update; first | assumption | with_reducible apply keeps_set | with_reducible apply keeps_pageEvent | with_reducible apply keeps_setBit)

theorem keeps_serve {s : State} {k : Nat} {permitted : State → Bool} {act : State → Nat → State × Nat} (hk : Keeps s0 s)
    (hact : ∀ s v, Keeps s0 s → KeepsFst s0 (act s v)) : Keeps s0 (s.serve k permitted act) := by
  unfold State.serve
  split
  · exact hk
  · exact keeps_ite hk (keeps_ite (keeps_publish hk) (keeps_ite (keeps_publish hk) (keeps_ite (keeps_publish hk)
      (keeps_publish (hact _ _ hk).fst))))

theorem keeps_execBringup (s : State) : KeepsOut s (execBringup s) := by
  have hk := Keeps.refl s
  unfold execBringup
  repeat' first
    | ((try lift_lets -underBinder); intro x; refine Keeps.cut (s0 := s) x ?_ ?_ <;> [unfold x; (intro hx; clear_value x)])
    | ((try lift_lets -underBinder); intro x; clear_value x)
    | (with_reducible intro _)
    | with_reducible assumption
    | with_reducible apply keepsOut_next
    | with_reducible apply keepsOut_ite
    | with_reducible apply keeps_ite
    | with_reducible apply keeps_serve
    | with_reducible apply keeps_event
    | with_reducible apply keeps_mainOn
    | with_reducible apply keeps_set
    | with_reducible apply keepsFst_ite
    | with_reducible apply keepsFst_mk
    | with_reducible apply keeps_each

theorem keeps_execPowerDown (s : State) : KeepsOut s (execPowerDown s) := by
  have hk := Keeps.refl s
  unfold execPowerDown
  repeat' first
    | (with_reducible intro _)
    | with_reducible assumption
    | with_reducible apply keepsOut_next
    | with_reducible apply keepsOut_ite
    | with_reducible apply keeps_ite
    | with_reducible apply keeps_serve
    | with_reducible apply keeps_allRailsDown
    | with_reducible apply keeps_trip
    | with_reducible apply keepsFst_ite
    | with_reducible apply keepsFst_mk
    | with_reducible apply keeps_each

theorem keeps_execCtxOpen (s : State) : KeepsOut s (execCtxOpen s) := by
  have hk := Keeps.refl s
  unfold execCtxOpen
  repeat' first
    | ((try lift_lets -underBinder); intro x; clear_value x)
    | (with_reducible intro _)
    | with_reducible assumption
    | with_reducible apply keepsOut_next
    | with_reducible apply keepsOut_ite
    | with_reducible apply keeps_ite
    | with_reducible apply keeps_serve
    | with_reducible apply keeps_set
    | with_reducible apply keepsFst_ite
    | with_reducible apply keepsFst_mk

theorem keeps_execCtxClose (s : State) : KeepsOut s (execCtxClose s) := by
  have hk := Keeps.refl s
  unfold execCtxClose
  repeat' first
    | (with_reducible intro _)
    | with_reducible assumption
    | with_reducible apply keepsOut_next
    | with_reducible apply keepsOut_ite
    | with_reducible apply keeps_ite
    | with_reducible apply keeps_serve
    | with_reducible apply keeps_set
    | with_reducible apply keepsFst_ite
    | with_reducible apply keepsFst_mk

end Sys2Proof.Machine
end

