-- ==== Sys2Proof/Laws/KeepsMemory.lean ====
section
/-! SUPPORT. What the operations and meanings of Machine/Memory.lean keep (Laws/Keeps.lean). -/

namespace Sys2Proof.Machine

variable {s0 : State}

theorem keeps_markCarried {s : State} {d : Nat} {status : Nat} (hk : Keeps s0 s) : Keeps s0 (State.markCarried s d status) := by
  unfold State.markCarried
  repeat' first
    | (with_reducible intro _)
    | with_reducible assumption
    | with_reducible apply keeps_ite
    | with_reducible apply keeps_onDie

theorem keeps_faultHeader {s : State} {d : Nat} {kind : Nat} (hk : Keeps s0 s) : KeepsSnd s0 (State.faultHeader s d kind) := by
  unfold State.faultHeader
  repeat' first
    | with_reducible assumption
    | with_reducible apply keepsSnd_mk
    | with_reducible apply keeps_wrap

theorem keeps_putFault {s : State} {rec_ : List Nat} (hk : Keeps s0 s) : Keeps s0 (State.putFault s rec_) := by
  unfold State.putFault
  repeat' first
    | ((try lift_lets -underBinder); intro x; clear_value x)
    | with_reducible assumption
    | with_reducible apply keeps_pageEvent
    | with_reducible apply keeps_wrap
    | with_reducible apply keeps_storeWords

theorem keeps_lostRecord {s : State} {d : Nat} {lost : Nat} (hk : Keeps s0 s) : KeepsSnd s0 (State.lostRecord s d lost) := by
  unfold State.lostRecord
  repeat' first
    | ((try lift_lets -underBinder); intro x; refine Keeps.cut (s0 := s0) x ?_ ?_ <;> [unfold x; (intro hx; clear_value x)])
    | ((try lift_lets -underBinder); intro x; refine Keeps.cut_fst (s0 := s0) x ?_ ?_ <;> [unfold x; (intro hx; clear_value x)])
    | ((try lift_lets -underBinder); intro x; refine Keeps.cut_snd (s0 := s0) x ?_ ?_ <;> [unfold x; (intro hx; clear_value x)])
    | ((try lift_lets -underBinder); intro x; clear_value x)
    | (with_reducible intro _)
    | with_reducible assumption
    | with_reducible apply keepsSnd_mk
    | with_reducible apply keeps_faultHeader
    | with_reducible refine KeepsFst.fst (keeps_faultHeader ?_)
    | with_reducible refine KeepsSnd.snd (keeps_faultHeader ?_)

theorem keeps_ringFault {s : State} {make : State → List Nat × State} (hk : Keeps s0 s) (hmake : ∀ x0, Keeps s0 x0 → KeepsSnd s0 (make x0)) : Keeps s0 (State.ringFault s make) := by
  unfold State.ringFault
  repeat' first
    | ((try lift_lets -underBinder); intro x; refine Keeps.cut (s0 := s0) x ?_ ?_ <;> [unfold x; (intro hx; clear_value x)])
    | ((try lift_lets -underBinder); intro x; refine Keeps.cut_fst (s0 := s0) x ?_ ?_ <;> [unfold x; (intro hx; clear_value x)])
    | ((try lift_lets -underBinder); intro x; refine Keeps.cut_snd (s0 := s0) x ?_ ?_ <;> [unfold x; (intro hx; clear_value x)])
    | ((try lift_lets -underBinder); intro x; clear_value x)
    | (with_reducible intro _)
    | with_reducible assumption
    | with_reducible apply keeps_ite
    | with_reducible apply keepsFst_ite
    | with_reducible apply hmake
    | with_reducible apply keeps_count
    | with_reducible apply keeps_lostRecord
    | with_reducible apply keeps_putFault
    | with_reducible apply keeps_set
    | with_reducible refine KeepsFst.fst (keeps_lostRecord ?_)
    | with_reducible refine KeepsSnd.snd (keeps_lostRecord ?_)
    | with_reducible refine KeepsSnd.snd (hmake _ ?_)

theorem keeps_fwdFill {s : State} {d : Nat} (hk : Keeps s0 s) : Keeps s0 (State.fwdFill s d) := by
  unfold State.fwdFill
  repeat' first
    | with_reducible assumption
    | with_reducible apply keeps_set

theorem keeps_putFwd {s : State} {d : Nat} {rec_ : List Nat} (hk : Keeps s0 s) : Keeps s0 (State.putFwd s d rec_) := by
  unfold State.putFwd
  repeat' first
    | (with_reducible intro _)
    | with_reducible assumption
    | with_reducible apply keeps_onDie
    | with_reducible apply keeps_fwdFill
    | (with_reducible apply keeps_update; first | assumption | with_reducible apply keeps_onDie | with_reducible apply keeps_fwdFill)

theorem keeps_queueFault {s : State} {d : Nat} {make : State → List Nat × State} (hk : Keeps s0 s) (hmake : ∀ x0, Keeps s0 x0 → KeepsSnd s0 (make x0)) : Keeps s0 (State.queueFault s d make) := by
  unfold State.queueFault
  repeat' first
    | ((try lift_lets -underBinder); intro x; refine Keeps.cut (s0 := s0) x ?_ ?_ <;> [unfold x; (intro hx; clear_value x)])
    | ((try lift_lets -underBinder); intro x; refine Keeps.cut_fst (s0 := s0) x ?_ ?_ <;> [unfold x; (intro hx; clear_value x)])
    | ((try lift_lets -underBinder); intro x; refine Keeps.cut_snd (s0 := s0) x ?_ ?_ <;> [unfold x; (intro hx; clear_value x)])
    | ((try lift_lets -underBinder); intro x; clear_value x)
    | (with_reducible intro _)
    | with_reducible assumption
    | with_reducible apply keeps_ite
    | with_reducible apply keepsFst_ite
    | with_reducible apply hmake
    | with_reducible apply keeps_count
    | with_reducible apply keeps_lostRecord
    | with_reducible apply keeps_putFwd
    | with_reducible apply keeps_set
    | with_reducible refine KeepsFst.fst (keeps_lostRecord ?_)
    | with_reducible refine KeepsSnd.snd (keeps_lostRecord ?_)
    | with_reducible refine KeepsSnd.snd (hmake _ ?_)

theorem keeps_faultRecord {s : State} {d : Nat} {kind : Nat} {body : List Nat} (hk : Keeps s0 s) : Keeps s0 (State.faultRecord s d kind body) := by
  have hm : ∀ t, Keeps s0 t → KeepsSnd s0 ((t.faultHeader d kind).1 ++ body, (t.faultHeader d kind).2) :=
    fun t ht => keepsSnd_mk (keeps_faultHeader ht).snd
  exact keeps_ite (keeps_ringFault hk hm) (keeps_queueFault hk hm)

theorem keeps_memFault {s : State} {d : Nat} {code : Nat} {kind : Nat} {acc : Nat} {index : Nat} {addr : Nat} {len : Nat} (hk : Keeps s0 s) : Keeps s0 (State.memFault s d code kind acc index addr len) := by
  unfold State.memFault
  repeat' first
    | ((try lift_lets -underBinder); intro x; refine Keeps.cut (s0 := s0) x ?_ ?_ <;> [unfold x; (intro hx; clear_value x)])
    | ((try lift_lets -underBinder); intro x; clear_value x)
    | (with_reducible intro _)
    | with_reducible assumption
    | with_reducible apply keeps_ite
    | with_reducible apply keeps_count
    | with_reducible apply keeps_set
    | with_reducible apply keeps_pageEvent
    | with_reducible apply keeps_faultRecord
    | with_reducible apply keeps_each

theorem keeps_memFaultAgain {s : State} {d : Nat} {seq : Nat} {n : Nat} (hk : Keeps s0 s) : Keeps s0 (State.memFaultAgain s d seq n) := by
  unfold State.memFaultAgain
  repeat' first
    | ((try lift_lets -underBinder); intro x; refine Keeps.cut (s0 := s0) x ?_ ?_ <;> [unfold x; (intro hx; clear_value x)])
    | ((try lift_lets -underBinder); intro x; clear_value x)
    | (with_reducible intro _)
    | with_reducible assumption
    | with_reducible apply keeps_ite
    | with_reducible apply keeps_count
    | with_reducible apply keeps_onDie
    | with_reducible apply keeps_each
    | with_reducible apply keeps_storeWords
    | (with_reducible apply keeps_update; first | assumption | with_reducible apply keeps_count | with_reducible apply keeps_onDie | with_reducible apply keeps_each | with_reducible apply keeps_storeWords)

theorem keeps_refuseAccess {s : State} {d : Nat} {kind : Nat} {index : Nat} {src : Nat} {write : Bool} {a : Nat} {n : Nat} (hk : Keeps s0 s) : Keeps s0 (State.refuseAccess s d kind index src write a n) := by
  unfold State.refuseAccess
  repeat' first
    | with_reducible assumption
    | with_reducible apply keeps_memFault
    | with_reducible apply keeps_dieEvent

theorem keeps_tallyUe {s : State} {d : Nat} {a : Nat} (hk : Keeps s0 s) : Keeps s0 (State.tallyUe s d a) := by
  unfold State.tallyUe
  repeat' first
    | ((try lift_lets -underBinder); intro x; refine Keeps.cut (s0 := s0) x ?_ ?_ <;> [unfold x; (intro hx; clear_value x)])
    | ((try lift_lets -underBinder); intro x; clear_value x)
    | (with_reducible intro _)
    | with_reducible assumption
    | with_reducible apply keeps_ite
    | with_reducible apply keeps_onDie
    | with_reducible apply keeps_count
    | with_reducible apply keeps_dieFault

theorem keeps_countUe {s : State} {d : Nat} {a : Nat} (hk : Keeps s0 s) : Keeps s0 (State.countUe s d a) := by
  unfold State.countUe
  repeat' first
    | with_reducible assumption
    | with_reducible apply keeps_dieEvent
    | with_reducible apply keeps_tallyUe
    | with_reducible apply keeps_setPair

theorem keeps_countCe {s : State} {d : Nat} {a : Nat} (hk : Keeps s0 s) : Keeps s0 (State.countCe s d a) := by
  unfold State.countCe
  repeat' first
    | with_reducible assumption
    | with_reducible apply keeps_count

theorem keeps_eccEffects {s : State} {d : Nat} {kind : Nat} {index : Nat} {src : Nat} {write : Bool} {a : Nat} {n : Nat} {ecc : Ecc} {one : Bool} (hk : Keeps s0 s) : Keeps s0 (State.eccEffects s d kind index src write a n ecc one) := by
  unfold State.eccEffects
  repeat' first
    | ((try lift_lets -underBinder); intro x; refine Keeps.cut (s0 := s0) x ?_ ?_ <;> [unfold x; (intro hx; clear_value x)])
    | (with_reducible intro _)
    | with_reducible assumption
    | with_reducible apply keeps_ite
    | with_reducible apply keeps_countCe
    | with_reducible apply keeps_setPair
    | with_reducible apply keeps_countUe
    | with_reducible apply keeps_memFault
    | with_reducible apply keeps_each

theorem keeps_writeBytes (l : List Byte) : ∀ {s : State} {d a : Nat}, Keeps s0 s → Keeps s0 (s.writeBytes d a l) := by
  induction l with
  | nil => intro s d a h; exact h
  | cons b t ih => intro s d a h; exact ih (keeps_setByte h)

theorem keeps_fillBad {s : State} {d : Nat} {bad : List Nat} (hk : Keeps s0 s) : Keeps s0 (State.fillBad s d bad) := by
  unfold State.fillBad
  repeat' first
    | (with_reducible intro _)
    | with_reducible assumption
    | with_reducible apply keeps_writeBytes
    | with_reducible apply keeps_each

theorem keeps_access {s : State} {d : Nat} {kind : Nat} {index : Nat} {src : Nat} {a : Nat} {op : MemOp} {ecc : Ecc} (hk : Keeps s0 s) : KeepsFst s0 (State.access s d kind index src a op ecc) := by
  unfold State.access
  repeat' first
    | ((try lift_lets -underBinder); intro x; clear_value x)
    | with_reducible assumption
    | with_reducible apply keeps_ite
    | with_reducible apply keeps_eccEffects
    | with_reducible apply keeps_refuseAccess
    | with_reducible apply keeps_writeBytes
    | with_reducible apply keeps_fillBad
    | with_reducible apply keepsFst_ite
    | with_reducible apply keepsFst_mk
    | split

theorem keeps_execMemoryAccess (die : DieNo) (agent : Agent) (address : BitVec 40) (op : MemOp) (ecc : Ecc) (s : State) : KeepsOut s (execMemoryAccess die agent address op ecc s) := by
  have hk := Keeps.refl s
  unfold execMemoryAccess
  repeat' first
    | ((try lift_lets -underBinder); intro x; refine Keeps.cut (s0 := s) x ?_ ?_ <;> [unfold x; (intro hx; clear_value x)])
    | ((try lift_lets -underBinder); intro x; refine Keeps.cut_fst (s0 := s) x ?_ ?_ <;> [unfold x; (intro hx; clear_value x)])
    | with_reducible assumption
    | with_reducible apply keepsOut_next
    | with_reducible apply keepsOut_ite
    | with_reducible apply keeps_ite
    | with_reducible apply keeps_access
    | with_reducible apply keepsFst_ite
    | with_reducible apply keepsFst_mk
    | with_reducible exact (keeps_access ‹_›).of ‹_›
    | with_reducible apply KeepsFst.fst
    | (refine KeepsFst.of (keeps_access ?_) (by assumption))
    | (with_reducible apply keeps_update; first | assumption | with_reducible apply keeps_access)

theorem keeps_execBar2Access (die : DieNo) (offset : BitVec 64) (op : MemOp) (ecc : Ecc) (s : State) :
    KeepsOut s (execBar2Access die offset op ecc s) := by
  unfold execBar2Access
  extract_lets d n ones r a bad r2 u w t
  have hk := Keeps.refl s
  have hr : Keeps s r.1 := (keeps_access hk).fst
  have hr2 : Keeps s r2.1 := by
    unfold r2
    split
    · exact hr
    · split
      · exact hr
      · exact keeps_writeBytes _ (keeps_fillBad hk)
  refine keepsOut_ite (keepsOut_next (hk.frame rfl rfl rfl rfl rfl rfl rfl rfl rfl)) (keepsOut_ite (keepsOut_next ?_) (keepsOut_next ?_))
  · exact (keeps_eccEffects hr2).frame rfl rfl rfl rfl rfl rfl rfl rfl rfl
  · have ht : Keeps s t := Keeps.frame (s := w) (keeps_dieEvent hk) rfl rfl rfl rfl rfl rfl rfl rfl rfl
    exact keeps_ite ht (keeps_faultRecord ht)

theorem keeps_execScrubRead (die : DieNo) (stack : Fin 4) (ecc : Ecc) (s : State) : KeepsOut s (execScrubRead die stack ecc s) := by
  have hk := Keeps.refl s
  unfold execScrubRead
  repeat' first
    | ((try lift_lets -underBinder); intro x; refine Keeps.cut (s0 := s) x ?_ ?_ <;> [unfold x; (intro hx; clear_value x)])
    | ((try lift_lets -underBinder); intro x; clear_value x)
    | (with_reducible intro _)
    | with_reducible assumption
    | with_reducible apply keepsOut_next
    | with_reducible apply keepsOut_ite
    | with_reducible apply keeps_ite
    | with_reducible apply keeps_countCe
    | with_reducible apply keeps_countUe
    | with_reducible apply keeps_set
    | with_reducible apply keeps_count
    | with_reducible apply keeps_each

theorem keeps_execRefresh (_die : DieNo) (_stack : Fin 4) (s : State) : KeepsOut s (execRefresh _die _stack s) := by
  have hk := Keeps.refl s
  unfold execRefresh
  repeat' first
    | with_reducible assumption
    | with_reducible apply keepsOut_next

theorem keeps_execStackTempRead (die : DieNo) (stack : Fin 4) (celsius : BitVec 8) (s : State) : KeepsOut s (execStackTempRead die stack celsius s) := by
  have hk := Keeps.refl s
  unfold execStackTempRead
  repeat' first
    | ((try lift_lets -underBinder); intro x; clear_value x)
    | with_reducible assumption
    | with_reducible apply keepsOut_next
    | with_reducible apply keepsOut_ite
    | with_reducible apply keeps_ite
    | with_reducible apply keeps_set

theorem keeps_execHbmStackUntrained (die : DieNo) (stack : Fin 4) (s : State) : KeepsOut s (execHbmStackUntrained die stack s) := by
  have hk := Keeps.refl s
  unfold execHbmStackUntrained
  repeat' first
    | with_reducible assumption
    | with_reducible apply keepsOut_next
    | with_reducible apply keepsOut_ite
    | with_reducible apply keeps_ite
    | with_reducible apply keeps_dieFault
    | with_reducible apply keeps_set

theorem keeps_execWindowEnable (req : Requester) (die : DieNo) (window : Fin 16) (rights : BitVec 3) (s : State) : KeepsOut s (execWindowEnable req die window rights s) := by
  have hk := Keeps.refl s
  unfold execWindowEnable
  repeat' first
    | ((try lift_lets -underBinder); intro x; refine Keeps.cut (s0 := s) x ?_ ?_ <;> [unfold x; (intro hx; clear_value x)])
    | ((try lift_lets -underBinder); intro x; clear_value x)
    | (with_reducible intro _)
    | with_reducible assumption
    | with_reducible apply keepsOut_next
    | with_reducible apply keepsOut_ite
    | with_reducible apply keeps_ite
    | with_reducible apply keeps_onWrite
    | with_reducible apply keeps_regFault
    | with_reducible apply keeps_set

theorem keeps_execHeapInit (req : Requester) (die : DieNo) (s : State) : KeepsOut s (execHeapInit req die s) := by
  have hk := Keeps.refl s
  unfold execHeapInit
  repeat' first
    | ((try lift_lets -underBinder); intro x; clear_value x)
    | (with_reducible intro _)
    | with_reducible assumption
    | with_reducible apply keepsOut_next
    | with_reducible apply keepsOut_ite
    | with_reducible apply keeps_ite
    | with_reducible apply keeps_onWrite
    | with_reducible apply keeps_regFault
    | with_reducible apply keeps_set

theorem keeps_heapRegs {s : State} {d : Nat} (hk : Keeps s0 s) : Keeps s0 (State.heapRegs s d) := by
  unfold State.heapRegs
  repeat' first
    | (with_reducible intro _)
    | with_reducible assumption
    | with_reducible apply keeps_set
    | with_reducible apply keeps_each

theorem keeps_execHeapInitDone (die : DieNo) (s : State) : KeepsOut s (execHeapInitDone die s) := by
  have hk := Keeps.refl s
  unfold execHeapInitDone
  repeat' first
    | ((try lift_lets -underBinder); intro x; clear_value x)
    | (with_reducible intro _)
    | with_reducible assumption
    | with_reducible apply keepsOut_next
    | with_reducible apply keepsOut_ite
    | with_reducible apply keeps_ite
    | with_reducible apply keeps_heapRegs
    | with_reducible apply keeps_set
    | with_reducible apply keeps_onDie

theorem keeps_takeBlock {s : State} {d : Nat} {cls : Nat} {who : Nat} (hk : Keeps s0 s) : KeepsFst s0 (State.takeBlock s d cls who) := by
  unfold State.takeBlock
  repeat' first
    | (with_reducible intro _)
    | with_reducible assumption
    | with_reducible apply keeps_heapRegs
    | with_reducible apply keeps_onDie
    | with_reducible apply keepsFst_mk
    | split

theorem keeps_giveBlock {s : State} {d : Nat} {cls : Nat} {b : Nat} (hk : Keeps s0 s) : Keeps s0 (State.giveBlock s d cls b) := by
  unfold State.giveBlock
  repeat' first
    | (with_reducible intro _)
    | with_reducible assumption
    | with_reducible apply keeps_heapRegs
    | with_reducible apply keeps_onDie

theorem keeps_releaseBlocks {s : State} {d : Nat} {core : Nat} (hk : Keeps s0 s) : Keeps s0 (State.releaseBlocks s d core) := by
  unfold State.releaseBlocks
  repeat' first
    | ((try lift_lets -underBinder); intro x; clear_value x)
    | (with_reducible intro _)
    | with_reducible assumption
    | with_reducible apply keeps_ite
    | with_reducible apply keeps_dieEvent
    | with_reducible apply keeps_giveBlock
    | with_reducible apply keeps_each

theorem keeps_setGate {s : State} {d : Nat} {k : Nat} {g : Gate} (hk : Keeps s0 s) : Keeps s0 (State.setGate s d k g) := by
  unfold State.setGate
  repeat' first
    | (with_reducible intro _)
    | with_reducible assumption
    | with_reducible apply keeps_onDie

theorem keeps_setHandle {s : State} {d : Nat} {k : Nat} {h : Nat} {v : Nat} (hk : Keeps s0 s) : Keeps s0 (State.setHandle s d k h v) := by
  unfold State.setHandle
  repeat' first
    | ((try lift_lets -underBinder); intro x; clear_value x)
    | with_reducible assumption
    | with_reducible apply keeps_setGate

theorem keeps_refuseToken {s : State} {d : Nat} {k : Nat} (hk : Keeps s0 s) : Keeps s0 (State.refuseToken s d k) := by
  unfold State.refuseToken
  repeat' first
    | with_reducible assumption
    | with_reducible apply keeps_memFault
    | with_reducible apply keeps_dieEvent

theorem keeps_serveGate {s : State} {d : Nat} {r : HeapReq} (hk : Keeps s0 s) : Keeps s0 (State.serveGate s d r) := by
  unfold State.serveGate
  repeat' first
    | ((try lift_lets -underBinder); intro x; refine Keeps.cut (s0 := s0) x ?_ ?_ <;> [unfold x; (intro hx; clear_value x)])
    | ((try lift_lets -underBinder); intro x; refine Keeps.cut_fst (s0 := s0) x ?_ ?_ <;> [unfold x; (intro hx; clear_value x)])
    | ((try lift_lets -underBinder); intro x; clear_value x)
    | with_reducible assumption
    | with_reducible apply keeps_ite
    | with_reducible apply keeps_setHandle
    | with_reducible apply keeps_giveBlock
    | with_reducible apply keeps_refuseToken
    | with_reducible apply keeps_takeBlock
    | with_reducible apply keeps_count
    | with_reducible apply keeps_markCarried
    | with_reducible apply keeps_memFault
    | with_reducible apply keeps_dieEvent
    | with_reducible apply keepsFst_ite
    | with_reducible apply keepsFst_mk
    | with_reducible exact (keeps_takeBlock ‹_›).of ‹_›
    | with_reducible apply KeepsFst.fst
    | (refine KeepsFst.of (keeps_takeBlock ?_) (by assumption))
    | split

theorem keeps_serveCall {s : State} {d : Nat} {r : HeapReq} (hk : Keeps s0 s) : Keeps s0 (State.serveCall s d r) := by
  unfold State.serveCall
  repeat' first
    | ((try lift_lets -underBinder); intro x; refine Keeps.cut_fst (s0 := s0) x ?_ ?_ <;> [unfold x; (intro hx; clear_value x)])
    | ((try lift_lets -underBinder); intro x; clear_value x)
    | with_reducible assumption
    | with_reducible apply keeps_ite
    | with_reducible apply keeps_set
    | with_reducible apply keeps_giveBlock
    | with_reducible apply keeps_dieEvent
    | with_reducible apply keeps_count
    | with_reducible apply keeps_takeBlock
    | with_reducible apply keepsFst_ite
    | with_reducible apply keepsFst_mk
    | with_reducible exact (keeps_takeBlock ‹_›).of ‹_›
    | with_reducible apply KeepsFst.fst
    | (refine KeepsFst.of (keeps_takeBlock ?_) (by assumption))
    | split

theorem keeps_execAllocatorServe (die : DieNo) (s : State) : KeepsOut s (execAllocatorServe die s) := by
  have hk := Keeps.refl s
  unfold execAllocatorServe
  repeat' first
    | ((try lift_lets -underBinder); intro x; refine Keeps.cut (s0 := s) x ?_ ?_ <;> [unfold x; (intro hx; clear_value x)])
    | ((try lift_lets -underBinder); intro x; clear_value x)
    | (with_reducible intro _)
    | with_reducible assumption
    | with_reducible apply keepsOut_next
    | with_reducible apply keepsOut_ite
    | with_reducible apply keeps_ite
    | with_reducible apply keeps_onDie
    | with_reducible apply keeps_serveGate
    | with_reducible apply keeps_serveCall
    | with_reducible apply keeps_foldl

theorem keeps_askHeap {s : State} {d : Nat} {r : HeapReq} (hk : Keeps s0 s) : Keeps s0 (State.askHeap s d r) := by
  unfold State.askHeap
  repeat' first
    | (with_reducible intro _)
    | with_reducible assumption
    | with_reducible apply keeps_onDie

theorem keeps_execAlloc (req : Requester) (die : DieNo) (window : Fin 3) (s : State) : KeepsOut s (execAlloc req die window s) := by
  have hk := Keeps.refl s
  unfold execAlloc
  repeat' first
    | ((try lift_lets -underBinder); intro x; clear_value x)
    | (with_reducible intro _)
    | with_reducible assumption
    | with_reducible apply keepsOut_next
    | with_reducible apply keepsOut_ite
    | with_reducible apply keeps_ite
    | with_reducible apply keeps_onWrite
    | with_reducible apply keeps_askHeap

theorem keeps_execFree (req : Requester) (die : DieNo) (window : Fin 3) (s : State) : KeepsOut s (execFree req die window s) := by
  have hk := Keeps.refl s
  unfold execFree
  repeat' first
    | ((try lift_lets -underBinder); intro x; clear_value x)
    | (with_reducible intro _)
    | with_reducible assumption
    | with_reducible apply keepsOut_next
    | with_reducible apply keeps_onWrite
    | with_reducible apply keeps_askHeap

theorem keeps_passToken {s : State} {d : Nat} {k : Nat} {free : Bool} (hk : Keeps s0 s) : Keeps s0 (State.passToken s d k free) := by
  unfold State.passToken
  repeat' first
    | ((try lift_lets -underBinder); intro x; clear_value x)
    | with_reducible assumption
    | with_reducible apply keeps_ite
    | with_reducible apply keeps_askHeap
    | with_reducible apply keeps_setGate
    | split

theorem keeps_execGuAllocToken (die : DieNo) (gate : Fin 256) (s : State) : KeepsOut s (execGuAllocToken die gate s) := by
  have hk := Keeps.refl s
  unfold execGuAllocToken
  repeat' first
    | with_reducible assumption
    | with_reducible apply keepsOut_next
    | with_reducible apply keepsOut_ite
    | with_reducible apply keeps_ite
    | with_reducible apply keeps_passToken

theorem keeps_execGuFreeToken (die : DieNo) (gate : Fin 256) (s : State) : KeepsOut s (execGuFreeToken die gate s) := by
  have hk := Keeps.refl s
  unfold execGuFreeToken
  repeat' first
    | with_reducible assumption
    | with_reducible apply keepsOut_next
    | with_reducible apply keepsOut_ite
    | with_reducible apply keeps_ite
    | with_reducible apply keeps_passToken

theorem keeps_execFqCons (req : Requester) (die : DieNo) (value : BitVec 16) (s : State) : KeepsOut s (execFqCons req die value s) := by
  have hk := Keeps.refl s
  unfold execFqCons
  repeat' first
    | ((try lift_lets -underBinder); intro x; clear_value x)
    | (with_reducible intro _)
    | with_reducible assumption
    | with_reducible apply keepsOut_next
    | with_reducible apply keepsOut_ite
    | with_reducible apply keeps_ite
    | with_reducible apply keeps_onWrite
    | with_reducible apply keeps_regFault
    | with_reducible apply keeps_set

theorem keeps_execFwdPop (req : Requester) (die : DieNo) (s : State) : KeepsOut s (execFwdPop req die s) := by
  have hk := Keeps.refl s
  unfold execFwdPop
  repeat' first
    | ((try lift_lets -underBinder); intro x; clear_value x)
    | (with_reducible intro _)
    | with_reducible assumption
    | with_reducible apply keepsOut_next
    | with_reducible apply keeps_onWrite
    | with_reducible apply keeps_fwdFill
    | with_reducible apply keeps_onDie

end Sys2Proof.Machine
end

