-- ==== Sys2Proof/Laws/KeepsContext.lean ====
section
/-! SUPPORT. What the operations and meanings of Machine/Context.lean keep (Laws/Keeps.lean). -/

namespace Sys2Proof.Machine

variable {s0 : State}

theorem keeps_setPhase {s : State} {d : Nat} {p : Phase} (hk : Keeps s0 s) : Keeps s0 (State.setPhase s d p) := by
  unfold State.setPhase
  repeat' first
    | with_reducible assumption
    | with_reducible apply keeps_set

theorem keeps_runRegs {s : State} {d : Nat} (hk : Keeps s0 s) : Keeps s0 (State.runRegs s d) := by
  unfold State.runRegs
  repeat' first
    | ((try lift_lets -underBinder); intro x; clear_value x)
    | (with_reducible intro _)
    | with_reducible assumption
    | with_reducible apply keeps_set

theorem keeps_setRun {s : State} {d : Nat} {i : Nat} {r : Run} (hk : Keeps s0 s) : Keeps s0 (State.setRun s d i r) := by
  unfold State.setRun
  repeat' first
    | (with_reducible intro _)
    | with_reducible assumption
    | with_reducible apply keeps_runRegs
    | with_reducible apply keeps_onDie

theorem keeps_putCompletion {s : State} {d : Nat} {i : Nat} (hk : Keeps s0 s) : Keeps s0 (State.putCompletion s d i) := by
  unfold State.putCompletion
  repeat' first
    | ((try lift_lets -underBinder); intro x; refine Keeps.cut (s0 := s0) x ?_ ?_ <;> [unfold x; (intro hx; clear_value x)])
    | ((try lift_lets -underBinder); intro x; clear_value x)
    | (with_reducible intro _)
    | with_reducible assumption
    | with_reducible apply keeps_ite
    | with_reducible apply keeps_wrap
    | with_reducible apply keeps_storeWords
    | with_reducible apply keeps_pageEvent
    | with_reducible apply keeps_count
    | with_reducible apply keeps_runRegs
    | with_reducible apply keeps_onDie
    | split

theorem keeps_drainRecords {s : State} {d : Nat} (hk : Keeps s0 s) : Keeps s0 (State.drainRecords s d) := by
  unfold State.drainRecords
  repeat' first
    | (with_reducible intro _)
    | with_reducible assumption
    | with_reducible apply keeps_ite
    | with_reducible apply keeps_putCompletion
    | with_reducible apply keeps_onDie
    | with_reducible apply keeps_foldl

theorem keeps_finishRun {s : State} {d : Nat} {i : Nat} {status : Nat} {detail : Nat} (hk : Keeps s0 s) : Keeps s0 (State.finishRun s d i status detail) := by
  unfold State.finishRun
  repeat' first
    | ((try lift_lets -underBinder); intro x; refine Keeps.cut (s0 := s0) x ?_ ?_ <;> [unfold x; (intro hx; clear_value x)])
    | ((try lift_lets -underBinder); intro x; clear_value x)
    | (with_reducible intro _)
    | with_reducible assumption
    | with_reducible apply keeps_ite
    | with_reducible apply keeps_setRun
    | with_reducible apply keeps_drainRecords
    | with_reducible apply keeps_onDie
    | split

theorem keeps_endRun {s : State} {d : Nat} {i : Nat} {status : Nat} {detail : Nat} (hk : Keeps s0 s) : Keeps s0 (State.endRun s d i status detail) := by
  unfold State.endRun
  repeat' first
    | with_reducible assumption
    | with_reducible apply keeps_ite
    | with_reducible apply keeps_setRun
    | with_reducible apply keeps_finishRun
    | split

theorem keeps_toContext {s : State} {d : Nat} {new : Nat} {cause : Nat} (hk : Keeps s0 s) : Keeps s0 (State.toContext s d new cause) := by
  unfold State.toContext
  repeat' first
    | ((try lift_lets -underBinder); intro x; refine Keeps.cut (s0 := s0) x ?_ ?_ <;> [unfold x; (intro hx; clear_value x)])
    | ((try lift_lets -underBinder); intro x; clear_value x)
    | with_reducible assumption
    | with_reducible apply keeps_pageEvent
    | with_reducible apply keeps_set
    | with_reducible apply keeps_dieEvent

theorem keeps_startScan {s : State} {d : Nat} {kind : Nat} {slot : Nat} {regions : Nat} {quiesced : Bool} (hk : Keeps s0 s) : Keeps s0 (State.startScan s d kind slot regions quiesced) := by
  unfold State.startScan
  repeat' first
    | ((try lift_lets -underBinder); intro x; refine Keeps.cut (s0 := s0) x ?_ ?_ <;> [unfold x; (intro hx; clear_value x)])
    | with_reducible assumption
    | with_reducible apply keeps_set
    | with_reducible apply keeps_put

theorem keeps_autoCapture {s : State} {d : Nat} (hk : Keeps s0 s) : Keeps s0 (State.autoCapture s d) := by
  unfold State.autoCapture
  repeat' first
    | ((try lift_lets -underBinder); intro x; clear_value x)
    | with_reducible assumption
    | with_reducible apply keeps_ite
    | with_reducible apply keeps_dieEvent
    | with_reducible apply keeps_set
    | with_reducible apply keeps_startScan

theorem keeps_contextFault {s : State} {d : Nat} {cause : Nat} (hk : Keeps s0 s) : Keeps s0 (State.contextFault s d cause) := by
  unfold State.contextFault
  repeat' first
    | ((try lift_lets -underBinder); intro x; refine Keeps.cut (s0 := s0) x ?_ ?_ <;> [unfold x; (intro hx; clear_value x)])
    | ((try lift_lets -underBinder); intro x; clear_value x)
    | (with_reducible intro _)
    | with_reducible assumption
    | with_reducible apply keeps_ite
    | with_reducible apply keeps_faultRecord
    | with_reducible apply keeps_toContext
    | with_reducible apply keeps_set
    | with_reducible apply keeps_endRun
    | with_reducible apply keeps_autoCapture
    | with_reducible apply keeps_discardAccepted
    | with_reducible apply keeps_setPhase
    | with_reducible apply keeps_each

end Sys2Proof.Machine
end

