-- ==== Sys2Proof/Laws/KeepsTumbler.lean ====
section
/-! SUPPORT. What the operations and meanings of Machine/Tumbler.lean keep (Laws/Keeps.lean). -/

namespace Sys2Proof.Machine

variable {s0 : State}

theorem keeps_setTum {s : State} {d : Nat} {t : Nat} {x : Tum} (hk : Keeps s0 s) : Keeps s0 (State.setTum s d t x) := by
  unfold State.setTum
  repeat' first
    | (with_reducible intro _)
    | with_reducible assumption
    | with_reducible apply keeps_onDie

theorem keeps_issue {s : State} {tb : Tumbler} {slot : Slot} {op : Nat → Bool} {act : State → Nat → Nat → Tum → Nat → State} (hk : Keeps s0 s) (hact : ∀ x0 x1 x2 x3 x4, Keeps s0 x0 → Keeps s0 (act x0 x1 x2 x3 x4)) : Keeps s0 (State.issue s tb slot op act) := by
  unfold State.issue
  repeat' first
    | ((try lift_lets -underBinder); intro x; refine Keeps.cut (s0 := s0) x ?_ ?_ <;> [unfold x; (intro hx; clear_value x)])
    | ((try lift_lets -underBinder); intro x; clear_value x)
    | with_reducible assumption
    | with_reducible apply keeps_ite
    | with_reducible apply keeps_setTum
    | with_reducible apply hact

theorem keeps_issueTum {s : State} {tb : Tumbler} {slot : Slot} {op : Nat → Bool} {act : Tum → Nat → Tum} (hk : Keeps s0 s) : Keeps s0 (State.issueTum s tb slot op act) := by
  unfold State.issueTum
  repeat' first
    | (with_reducible intro _)
    | with_reducible assumption
    | with_reducible apply keeps_issue
    | with_reducible apply keeps_setTum

theorem keeps_execOuter (t : Tumbler) (s : State) : KeepsOut s (execOuter t s) := by
  have hk := Keeps.refl s
  unfold execOuter
  repeat' first
    | (with_reducible intro _)
    | with_reducible assumption
    | with_reducible apply keepsOut_next
    | with_reducible apply keepsOut_ite
    | with_reducible apply keeps_ite
    | with_reducible apply keeps_issueTum

theorem keeps_execMm4 (t : Tumbler) (s : State) : KeepsOut s (execMm4 t s) := by
  have hk := Keeps.refl s
  unfold execMm4
  repeat' first
    | (with_reducible intro _)
    | with_reducible assumption
    | with_reducible apply keepsOut_next
    | with_reducible apply keeps_issueTum

theorem keeps_execAccrd (t : Tumbler) (s : State) : KeepsOut s (execAccrd t s) := by
  have hk := Keeps.refl s
  unfold execAccrd
  repeat' first
    | (with_reducible intro _)
    | with_reducible assumption
    | with_reducible apply keepsOut_next
    | with_reducible apply keeps_issueTum

theorem keeps_execAccwr (t : Tumbler) (s : State) : KeepsOut s (execAccwr t s) := by
  have hk := Keeps.refl s
  unfold execAccwr
  repeat' first
    | (with_reducible intro _)
    | with_reducible assumption
    | with_reducible apply keepsOut_next
    | with_reducible apply keeps_issueTum

theorem keeps_execPack8 (t : Tumbler) (s : State) : KeepsOut s (execPack8 t s) := by
  have hk := Keeps.refl s
  unfold execPack8
  repeat' first
    | (with_reducible intro _)
    | with_reducible assumption
    | with_reducible apply keepsOut_next
    | with_reducible apply keeps_issueTum

theorem keeps_execPack16 (t : Tumbler) (s : State) : KeepsOut s (execPack16 t s) := by
  have hk := Keeps.refl s
  unfold execPack16
  repeat' first
    | (with_reducible intro _)
    | with_reducible assumption
    | with_reducible apply keepsOut_next
    | with_reducible apply keeps_issueTum

theorem keeps_execUnpack (t : Tumbler) (s : State) : KeepsOut s (execUnpack t s) := by
  have hk := Keeps.refl s
  unfold execUnpack
  repeat' first
    | (with_reducible intro _)
    | with_reducible assumption
    | with_reducible apply keepsOut_next
    | with_reducible apply keeps_issueTum

theorem keeps_execVadd (t : Tumbler) (s : State) : KeepsOut s (execVadd t s) := by
  have hk := Keeps.refl s
  unfold execVadd
  repeat' first
    | (with_reducible intro _)
    | with_reducible assumption
    | with_reducible apply keepsOut_next
    | with_reducible apply keeps_issueTum

theorem keeps_execVsub (t : Tumbler) (s : State) : KeepsOut s (execVsub t s) := by
  have hk := Keeps.refl s
  unfold execVsub
  repeat' first
    | (with_reducible intro _)
    | with_reducible assumption
    | with_reducible apply keepsOut_next
    | with_reducible apply keeps_issueTum

theorem keeps_execVmul (t : Tumbler) (s : State) : KeepsOut s (execVmul t s) := by
  have hk := Keeps.refl s
  unfold execVmul
  repeat' first
    | (with_reducible intro _)
    | with_reducible assumption
    | with_reducible apply keepsOut_next
    | with_reducible apply keeps_issueTum

theorem keeps_execVmax (t : Tumbler) (s : State) : KeepsOut s (execVmax t s) := by
  have hk := Keeps.refl s
  unfold execVmax
  repeat' first
    | (with_reducible intro _)
    | with_reducible assumption
    | with_reducible apply keepsOut_next
    | with_reducible apply keeps_issueTum

theorem keeps_execVmin (t : Tumbler) (s : State) : KeepsOut s (execVmin t s) := by
  have hk := Keeps.refl s
  unfold execVmin
  repeat' first
    | (with_reducible intro _)
    | with_reducible assumption
    | with_reducible apply keepsOut_next
    | with_reducible apply keeps_issueTum

theorem keeps_execVmov (t : Tumbler) (s : State) : KeepsOut s (execVmov t s) := by
  have hk := Keeps.refl s
  unfold execVmov
  repeat' first
    | (with_reducible intro _)
    | with_reducible assumption
    | with_reducible apply keepsOut_next
    | with_reducible apply keeps_issueTum

theorem keeps_setBayLine {s : State} {d : Nat} {t : Nat} {l : Nat} {v : Nat} (hk : Keeps s0 s) : Keeps s0 (State.setBayLine s d t l v) := by
  unfold State.setBayLine
  repeat' first
    | (with_reducible intro _)
    | with_reducible assumption
    | with_reducible apply keeps_onDie

theorem keeps_bayError {s : State} {d : Nat} {t : Nat} {l : Nat} {n : Nat} {len : Nat} (hk : Keeps s0 s) : Keeps s0 (State.bayError s d t l n len) := by
  unfold State.bayError
  repeat' first
    | ((try lift_lets -underBinder); intro x; refine Keeps.cut (s0 := s0) x ?_ ?_ <;> [unfold x; (intro hx; clear_value x)])
    | with_reducible assumption
    | with_reducible apply keeps_ite
    | with_reducible apply keeps_set
    | with_reducible apply keeps_count
    | with_reducible apply keeps_markCarried
    | with_reducible apply keeps_memFault
    | with_reducible apply keeps_useFree
    | with_reducible apply keeps_dieEvent

theorem keeps_bayRead {s : State} {d : Nat} {t : Nat} {l : Nat} {mask : Nat} {corrected : Nat} {bad : Nat} {len : Nat} (hk : Keeps s0 s) : KeepsSnd s0 (State.bayRead s d t l mask corrected bad len) := by
  unfold State.bayRead
  repeat' first
    | ((try lift_lets -underBinder); intro x; clear_value x)
    | (with_reducible intro _)
    | with_reducible assumption
    | with_reducible apply keepsSnd_mk
    | with_reducible apply keepsSnd_ite
    | with_reducible apply keeps_ite
    | with_reducible apply keeps_bayError
    | with_reducible apply keeps_count

theorem keeps_execBld (t : Tumbler) (corrected : BitVec 4) (bad : BitVec 4) (s : State) : KeepsOut s (execBld t corrected bad s) := by
  have hk := Keeps.refl s
  unfold execBld
  repeat' first
    | ((try lift_lets -underBinder); intro x; refine Keeps.cut_snd (s0 := s) x ?_ ?_ <;> [unfold x; (intro hx; clear_value x)])
    | ((try lift_lets -underBinder); intro x; clear_value x)
    | (with_reducible intro _)
    | with_reducible assumption
    | with_reducible apply keepsOut_next
    | with_reducible apply keepsOut_ite
    | with_reducible apply keeps_ite
    | with_reducible apply keeps_issue
    | with_reducible apply keeps_setTum
    | with_reducible apply keeps_bayRead

theorem keeps_execBlds (t : Tumbler) (corrected : BitVec 4) (bad : BitVec 4) (s : State) : KeepsOut s (execBlds t corrected bad s) := by
  have hk := Keeps.refl s
  unfold execBlds
  repeat' first
    | ((try lift_lets -underBinder); intro x; refine Keeps.cut_snd (s0 := s) x ?_ ?_ <;> [unfold x; (intro hx; clear_value x)])
    | ((try lift_lets -underBinder); intro x; clear_value x)
    | (with_reducible intro _)
    | with_reducible assumption
    | with_reducible apply keepsOut_next
    | with_reducible apply keepsOut_ite
    | with_reducible apply keeps_ite
    | with_reducible apply keeps_issue
    | with_reducible apply keeps_setTum
    | with_reducible apply keeps_bayRead

theorem keeps_execBst (t : Tumbler) (s : State) : KeepsOut s (execBst t s) := by
  have hk := Keeps.refl s
  unfold execBst
  repeat' first
    | ((try lift_lets -underBinder); intro x; clear_value x)
    | (with_reducible intro _)
    | with_reducible assumption
    | with_reducible apply keepsOut_next
    | with_reducible apply keepsOut_ite
    | with_reducible apply keeps_ite
    | with_reducible apply keeps_issue
    | with_reducible apply keeps_setTum
    | with_reducible apply keeps_setBayLine

theorem keeps_execBsts (t : Tumbler) (s : State) : KeepsOut s (execBsts t s) := by
  have hk := Keeps.refl s
  unfold execBsts
  repeat' first
    | ((try lift_lets -underBinder); intro x; clear_value x)
    | (with_reducible intro _)
    | with_reducible assumption
    | with_reducible apply keepsOut_next
    | with_reducible apply keepsOut_ite
    | with_reducible apply keeps_ite
    | with_reducible apply keeps_issue
    | with_reducible apply keeps_setTum
    | with_reducible apply keeps_setBayLine

theorem keeps_scalarOp {s : State} {t : Tumbler} {op : Nat} {lat : Nat} {f : Tum → Nat → Nat × Flags} (hk : Keeps s0 s) : Keeps s0 (State.scalarOp s t op lat f) := by
  unfold State.scalarOp
  repeat' first
    | (with_reducible intro _)
    | with_reducible assumption
    | with_reducible apply keeps_issueTum

theorem keeps_predOp {s : State} {t : Tumbler} {op : Nat} {lat : Nat} {f : Tum → Nat → Bool} (hk : Keeps s0 s) : Keeps s0 (State.predOp s t op lat f) := by
  unfold State.predOp
  repeat' first
    | (with_reducible intro _)
    | with_reducible assumption
    | with_reducible apply keeps_issueTum

theorem keeps_execAdd (t : Tumbler) (s : State) : KeepsOut s (execAdd t s) := by
  have hk := Keeps.refl s
  unfold execAdd
  repeat' first
    | (with_reducible intro _)
    | with_reducible assumption
    | with_reducible apply keepsOut_next
    | with_reducible apply keeps_scalarOp

theorem keeps_execSub (t : Tumbler) (s : State) : KeepsOut s (execSub t s) := by
  have hk := Keeps.refl s
  unfold execSub
  repeat' first
    | (with_reducible intro _)
    | with_reducible assumption
    | with_reducible apply keepsOut_next
    | with_reducible apply keeps_scalarOp

theorem keeps_execAddi (t : Tumbler) (s : State) : KeepsOut s (execAddi t s) := by
  have hk := Keeps.refl s
  unfold execAddi
  repeat' first
    | (with_reducible intro _)
    | with_reducible assumption
    | with_reducible apply keepsOut_next
    | with_reducible apply keeps_scalarOp

theorem keeps_execAnd (t : Tumbler) (s : State) : KeepsOut s (execAnd t s) := by
  have hk := Keeps.refl s
  unfold execAnd
  repeat' first
    | (with_reducible intro _)
    | with_reducible assumption
    | with_reducible apply keepsOut_next
    | with_reducible apply keeps_scalarOp

theorem keeps_execOr (t : Tumbler) (s : State) : KeepsOut s (execOr t s) := by
  have hk := Keeps.refl s
  unfold execOr
  repeat' first
    | (with_reducible intro _)
    | with_reducible assumption
    | with_reducible apply keepsOut_next
    | with_reducible apply keeps_scalarOp

theorem keeps_execXor (t : Tumbler) (s : State) : KeepsOut s (execXor t s) := by
  have hk := Keeps.refl s
  unfold execXor
  repeat' first
    | (with_reducible intro _)
    | with_reducible assumption
    | with_reducible apply keepsOut_next
    | with_reducible apply keeps_scalarOp

theorem keeps_execShl (t : Tumbler) (s : State) : KeepsOut s (execShl t s) := by
  have hk := Keeps.refl s
  unfold execShl
  repeat' first
    | (with_reducible intro _)
    | with_reducible assumption
    | with_reducible apply keepsOut_next
    | with_reducible apply keeps_scalarOp

theorem keeps_execShr (t : Tumbler) (s : State) : KeepsOut s (execShr t s) := by
  have hk := Keeps.refl s
  unfold execShr
  repeat' first
    | (with_reducible intro _)
    | with_reducible assumption
    | with_reducible apply keepsOut_next
    | with_reducible apply keeps_scalarOp

theorem keeps_execSra (t : Tumbler) (s : State) : KeepsOut s (execSra t s) := by
  have hk := Keeps.refl s
  unfold execSra
  repeat' first
    | (with_reducible intro _)
    | with_reducible assumption
    | with_reducible apply keepsOut_next
    | with_reducible apply keeps_scalarOp

theorem keeps_execMovi (t : Tumbler) (s : State) : KeepsOut s (execMovi t s) := by
  have hk := Keeps.refl s
  unfold execMovi
  repeat' first
    | (with_reducible intro _)
    | with_reducible assumption
    | with_reducible apply keepsOut_next
    | with_reducible apply keeps_scalarOp

theorem keeps_execOri (t : Tumbler) (s : State) : KeepsOut s (execOri t s) := by
  have hk := Keeps.refl s
  unfold execOri
  repeat' first
    | (with_reducible intro _)
    | with_reducible assumption
    | with_reducible apply keepsOut_next
    | with_reducible apply keeps_scalarOp

theorem keeps_execShli (t : Tumbler) (s : State) : KeepsOut s (execShli t s) := by
  have hk := Keeps.refl s
  unfold execShli
  repeat' first
    | (with_reducible intro _)
    | with_reducible assumption
    | with_reducible apply keepsOut_next
    | with_reducible apply keeps_scalarOp

theorem keeps_execFadd (t : Tumbler) (s : State) : KeepsOut s (execFadd t s) := by
  have hk := Keeps.refl s
  unfold execFadd
  repeat' first
    | (with_reducible intro _)
    | with_reducible assumption
    | with_reducible apply keepsOut_next
    | with_reducible apply keeps_scalarOp

theorem keeps_execFsub (t : Tumbler) (s : State) : KeepsOut s (execFsub t s) := by
  have hk := Keeps.refl s
  unfold execFsub
  repeat' first
    | (with_reducible intro _)
    | with_reducible assumption
    | with_reducible apply keepsOut_next
    | with_reducible apply keeps_scalarOp

theorem keeps_execItof (t : Tumbler) (s : State) : KeepsOut s (execItof t s) := by
  have hk := Keeps.refl s
  unfold execItof
  repeat' first
    | (with_reducible intro _)
    | with_reducible assumption
    | with_reducible apply keepsOut_next
    | with_reducible apply keeps_scalarOp

theorem keeps_execFtoi (t : Tumbler) (s : State) : KeepsOut s (execFtoi t s) := by
  have hk := Keeps.refl s
  unfold execFtoi
  repeat' first
    | (with_reducible intro _)
    | with_reducible assumption
    | with_reducible apply keepsOut_next
    | with_reducible apply keeps_scalarOp

theorem keeps_execCmpeq (t : Tumbler) (s : State) : KeepsOut s (execCmpeq t s) := by
  have hk := Keeps.refl s
  unfold execCmpeq
  repeat' first
    | (with_reducible intro _)
    | with_reducible assumption
    | with_reducible apply keepsOut_next
    | with_reducible apply keeps_predOp

theorem keeps_execCmplt (t : Tumbler) (s : State) : KeepsOut s (execCmplt t s) := by
  have hk := Keeps.refl s
  unfold execCmplt
  repeat' first
    | (with_reducible intro _)
    | with_reducible assumption
    | with_reducible apply keepsOut_next
    | with_reducible apply keeps_predOp

theorem keeps_execCmpltu (t : Tumbler) (s : State) : KeepsOut s (execCmpltu t s) := by
  have hk := Keeps.refl s
  unfold execCmpltu
  repeat' first
    | (with_reducible intro _)
    | with_reducible assumption
    | with_reducible apply keepsOut_next
    | with_reducible apply keeps_predOp

theorem keeps_execFcmplt (t : Tumbler) (s : State) : KeepsOut s (execFcmplt t s) := by
  have hk := Keeps.refl s
  unfold execFcmplt
  repeat' first
    | (with_reducible intro _)
    | with_reducible assumption
    | with_reducible apply keepsOut_next
    | with_reducible apply keeps_predOp

theorem keeps_execFcmpeq (t : Tumbler) (s : State) : KeepsOut s (execFcmpeq t s) := by
  have hk := Keeps.refl s
  unfold execFcmpeq
  repeat' first
    | (with_reducible intro _)
    | with_reducible assumption
    | with_reducible apply keepsOut_next
    | with_reducible apply keeps_predOp

theorem keeps_execCmpeqi (t : Tumbler) (s : State) : KeepsOut s (execCmpeqi t s) := by
  have hk := Keeps.refl s
  unfold execCmpeqi
  repeat' first
    | (with_reducible intro _)
    | with_reducible assumption
    | with_reducible apply keepsOut_next
    | with_reducible apply keeps_predOp

theorem keeps_execPand (t : Tumbler) (s : State) : KeepsOut s (execPand t s) := by
  have hk := Keeps.refl s
  unfold execPand
  repeat' first
    | (with_reducible intro _)
    | with_reducible assumption
    | with_reducible apply keepsOut_next
    | with_reducible apply keeps_predOp

theorem keeps_execPor (t : Tumbler) (s : State) : KeepsOut s (execPor t s) := by
  have hk := Keeps.refl s
  unfold execPor
  repeat' first
    | (with_reducible intro _)
    | with_reducible assumption
    | with_reducible apply keepsOut_next
    | with_reducible apply keeps_predOp

theorem keeps_execPnot (t : Tumbler) (s : State) : KeepsOut s (execPnot t s) := by
  have hk := Keeps.refl s
  unfold execPnot
  repeat' first
    | (with_reducible intro _)
    | with_reducible assumption
    | with_reducible apply keepsOut_next
    | with_reducible apply keeps_predOp

theorem keeps_execLoopi (t : Tumbler) (s : State) : KeepsOut s (execLoopi t s) := by
  have hk := Keeps.refl s
  unfold execLoopi
  repeat' first
    | (with_reducible intro _)
    | with_reducible assumption
    | with_reducible apply keepsOut_next
    | with_reducible apply keeps_issueTum

theorem keeps_sequence {s : State} {tb : Tumbler} {op : Nat → Bool} {go : Tum → Nat → Tum} (hk : Keeps s0 s) : Keeps s0 (State.sequence s tb op go) := by
  unfold State.sequence
  repeat' first
    | ((try lift_lets -underBinder); intro x; refine Keeps.cut (s0 := s0) x ?_ ?_ <;> [unfold x; (intro hx; clear_value x)])
    | ((try lift_lets -underBinder); intro x; clear_value x)
    | (with_reducible intro _)
    | with_reducible assumption
    | with_reducible apply keeps_ite
    | with_reducible apply keeps_set
    | with_reducible apply keeps_setTum
    | with_reducible apply keeps_useFree
    | with_reducible apply keeps_onDie

theorem keeps_execNext (t : Tumbler) (s : State) : KeepsOut s (execNext t s) := by
  have hk := Keeps.refl s
  unfold execNext
  repeat' first
    | (with_reducible intro _)
    | with_reducible assumption
    | with_reducible apply keepsOut_next
    | with_reducible apply keeps_sequence

theorem keeps_execLoopEnd (t : Tumbler) (s : State) : KeepsOut s (execLoopEnd t s) := by
  have hk := Keeps.refl s
  unfold execLoopEnd
  repeat' first
    | (with_reducible intro _)
    | with_reducible assumption
    | with_reducible apply keepsOut_next
    | with_reducible apply keepsOut_ite
    | with_reducible apply keeps_ite
    | with_reducible apply keeps_sequence

theorem keeps_execHalt (t : Tumbler) (s : State) : KeepsOut s (execHalt t s) := by
  have hk := Keeps.refl s
  unfold execHalt
  repeat' first
    | (with_reducible intro _)
    | with_reducible assumption
    | with_reducible apply keepsOut_next
    | with_reducible apply keeps_sequence

theorem keeps_fly {s : State} {d : Nat} {f : Flight} (hk : Keeps s0 s) : Keeps s0 (State.fly s d f) := by
  unfold State.fly
  repeat' first
    | (with_reducible intro _)
    | with_reducible assumption
    | with_reducible apply keeps_onDie

theorem keeps_drive {s : State} {d : Nat} {net : Nat} {gate : Bool} {src : Nat} {n : Nat} {value : Nat} (hk : Keeps s0 s) : Keeps s0 (State.drive s d net gate src n value) := by
  unfold State.drive
  repeat' first
    | ((try lift_lets -underBinder); intro x; clear_value x)
    | (with_reducible intro _)
    | with_reducible assumption
    | with_reducible apply keeps_ite
    | with_reducible apply keeps_count
    | with_reducible apply keeps_fly
    | with_reducible apply keeps_foldl

theorem keeps_captureCount {s : State} {d : Nat} {net : Nat} {gate : Bool} {dst : Nat} (hk : Keeps s0 s) : Keeps s0 (State.captureCount s d net gate dst) := by
  unfold State.captureCount
  repeat' first
    | (with_reducible intro _)
    | with_reducible assumption
    | with_reducible apply keeps_ite
    | with_reducible apply keeps_count

theorem keeps_sendNeighbour {s : State} {d : Nat} {t : Nat} {k : Nat} {n : Nat} {value : Nat} (hk : Keeps s0 s) : Keeps s0 (State.sendNeighbour s d t k n value) := by
  unfold State.sendNeighbour
  repeat' first
    | ((try lift_lets -underBinder); intro x; clear_value x)
    | with_reducible assumption
    | with_reducible apply keeps_ite
    | with_reducible apply keeps_fly

theorem keeps_execVectorRouteSend (t : Tumbler) (s : State) : KeepsOut s (execVectorRouteSend t s) := by
  have hk := Keeps.refl s
  unfold execVectorRouteSend
  repeat' first
    | ((try lift_lets -underBinder); intro x; refine Keeps.cut (s0 := s) x ?_ ?_ <;> [unfold x; (intro hx; clear_value x)])
    | (with_reducible intro _)
    | with_reducible assumption
    | with_reducible apply keepsOut_next
    | with_reducible apply keepsOut_ite
    | with_reducible apply keeps_ite
    | with_reducible apply keeps_issue
    | with_reducible apply keeps_sendNeighbour
    | with_reducible apply keeps_drive
    | with_reducible apply keeps_each

theorem keeps_execVectorRouteCapture (t : Tumbler) (s : State) : KeepsOut s (execVectorRouteCapture t s) := by
  have hk := Keeps.refl s
  unfold execVectorRouteCapture
  repeat' first
    | ((try lift_lets -underBinder); intro x; refine Keeps.cut (s0 := s) x ?_ ?_ <;> [unfold x; (intro hx; clear_value x)])
    | ((try lift_lets -underBinder); intro x; clear_value x)
    | (with_reducible intro _)
    | with_reducible assumption
    | with_reducible apply keepsOut_next
    | with_reducible apply keepsOut_ite
    | with_reducible apply keeps_ite
    | with_reducible apply keeps_issue
    | with_reducible apply keeps_captureCount
    | with_reducible apply keeps_setTum

theorem keeps_execScalarRouteSend (t : Tumbler) (s : State) : KeepsOut s (execScalarRouteSend t s) := by
  have hk := Keeps.refl s
  unfold execScalarRouteSend
  repeat' first
    | (with_reducible intro _)
    | with_reducible assumption
    | with_reducible apply keepsOut_next
    | with_reducible apply keeps_issue
    | with_reducible apply keeps_drive

theorem keeps_execScalarRouteCapture (t : Tumbler) (s : State) : KeepsOut s (execScalarRouteCapture t s) := by
  have hk := Keeps.refl s
  unfold execScalarRouteCapture
  repeat' first
    | ((try lift_lets -underBinder); intro x; clear_value x)
    | (with_reducible intro _)
    | with_reducible assumption
    | with_reducible apply keepsOut_next
    | with_reducible apply keeps_issue
    | with_reducible apply keeps_setTum
    | with_reducible apply keeps_captureCount

theorem keeps_execCtlCapturePredicate (t : Tumbler) (s : State) : KeepsOut s (execCtlCapturePredicate t s) := by
  have hk := Keeps.refl s
  unfold execCtlCapturePredicate
  repeat' first
    | ((try lift_lets -underBinder); intro x; clear_value x)
    | (with_reducible intro _)
    | with_reducible assumption
    | with_reducible apply keepsOut_next
    | with_reducible apply keeps_issue
    | with_reducible apply keeps_setTum
    | with_reducible apply keeps_captureCount

theorem keeps_execCtlDrivePredicate (t : Tumbler) (s : State) : KeepsOut s (execCtlDrivePredicate t s) := by
  have hk := Keeps.refl s
  unfold execCtlDrivePredicate
  repeat' first
    | (with_reducible intro _)
    | with_reducible assumption
    | with_reducible apply keepsOut_next
    | with_reducible apply keeps_issue
    | with_reducible apply keeps_drive

theorem keeps_execCtlCaptureToken (t : Tumbler) (s : State) : KeepsOut s (execCtlCaptureToken t s) := by
  have hk := Keeps.refl s
  unfold execCtlCaptureToken
  repeat' first
    | ((try lift_lets -underBinder); intro x; clear_value x)
    | (with_reducible intro _)
    | with_reducible assumption
    | with_reducible apply keepsOut_next
    | with_reducible apply keeps_issue
    | with_reducible apply keeps_setTum
    | with_reducible apply keeps_captureCount

theorem keeps_execCtlDriveToken (t : Tumbler) (s : State) : KeepsOut s (execCtlDriveToken t s) := by
  have hk := Keeps.refl s
  unfold execCtlDriveToken
  repeat' first
    | (with_reducible intro _)
    | with_reducible assumption
    | with_reducible apply keepsOut_next
    | with_reducible apply keeps_issue
    | with_reducible apply keeps_drive

end Sys2Proof.Machine
end

