-- ==== Sys2Proof/Laws/KeepsKeyring.lean ====
section
/-! SUPPORT. What the operations and meanings of Machine/Keyring.lean keep (Laws/Keeps.lean). -/

namespace Sys2Proof.Machine

variable {s0 : State}

theorem keeps_refuse {s : State} {d : Nat} {r : Refused} {atLoad : Bool} (hk : Keeps s0 s) : Keeps s0 (State.refuse s d r atLoad) := by
  unfold State.refuse
  repeat' first
    | ((try lift_lets -underBinder); intro x; refine Keeps.cut (s0 := s0) x ?_ ?_ <;> [unfold x; (intro hx; clear_value x)])
    | with_reducible assumption
    | with_reducible apply keeps_put
    | with_reducible apply keeps_set
    | with_reducible apply keeps_dieEvent
    | with_reducible apply keeps_pageEvent
    | split

theorem keeps_readEffects {s : State} {d : Nat} {a : Nat} {n : Nat} {ecc : Ecc} (hk : Keeps s0 s) : Keeps s0 (State.readEffects s d a n ecc) := by
  unfold State.readEffects
  repeat' first
    | with_reducible assumption
    | with_reducible apply keeps_ite
    | with_reducible apply keeps_eccEffects
    | with_reducible apply keeps_refuseAccess

theorem keeps_execFuseCol (req : Requester) (die : DieNo) (group : Fin 4) (column : BitVec 5) (s : State) :
    KeepsOut s (execFuseCol req die group column s) := by
  unfold execFuseCol
  refine keepsOut_next (keeps_onWrite (Keeps.refl s) (fun t ht => ?_))
  exact keeps_spend (keeps_setBit (keeps_set ht)) (fun k h => List.mem_cons_of_mem _ (by simpa [State.setBit] using h))

theorem keeps_execKeyringCheck (req : Requester) (die : DieNo) (s : State) : KeepsOut s (execKeyringCheck req die s) := by
  have hk := Keeps.refl s
  unfold execKeyringCheck
  repeat' first
    | ((try lift_lets -underBinder); intro x; clear_value x)
    | (with_reducible intro _)
    | with_reducible assumption
    | with_reducible apply keepsOut_next
    | with_reducible apply keepsOut_ite
    | with_reducible apply keeps_ite
    | with_reducible apply keeps_onWrite
    | with_reducible apply keeps_set

theorem keeps_chooseEntry {s : State} {d : Nat} {key : Nat} {sync : Bool} (hk : Keeps s0 s) : Keeps s0 (State.chooseEntry s d key sync) := by
  unfold State.chooseEntry
  repeat' first
    | ((try lift_lets -underBinder); intro x; refine Keeps.cut (s0 := s0) x ?_ ?_ <;> [unfold x; (intro hx; clear_value x)])
    | (with_reducible intro _)
    | with_reducible assumption
    | with_reducible apply keeps_ite
    | with_reducible apply keeps_onDie
    | with_reducible apply keeps_setRun
    | with_reducible apply hf
    | split

theorem keeps_beginLoad {s : State} {d : Nat} {k : Nat} {req : Nat} (hk : Keeps s0 s) : Keeps s0 (State.beginLoad s d k req) := by
  unfold State.beginLoad
  repeat' first
    | ((try lift_lets -underBinder); intro x; refine Keeps.cut (s0 := s0) x ?_ ?_ <;> [unfold x; (intro hx; clear_value x)])
    | ((try lift_lets -underBinder); intro x; clear_value x)
    | (with_reducible intro _)
    | with_reducible assumption
    | with_reducible apply keeps_ite
    | with_reducible apply keeps_regFault
    | with_reducible apply keeps_set
    | with_reducible apply keeps_onDie
    | with_reducible apply keeps_chooseEntry

theorem keeps_execLoad (req : Requester) (die : DieNo) (key : BitVec 12) (s : State) : KeepsOut s (execLoad req die key s) := by
  have hk := Keeps.refl s
  unfold execLoad
  repeat' first
    | ((try lift_lets -underBinder); intro x; refine Keeps.cut (s0 := s) x ?_ ?_ <;> [unfold x; (intro hx; clear_value x)])
    | ((try lift_lets -underBinder); intro x; clear_value x)
    | (with_reducible intro _)
    | with_reducible assumption
    | with_reducible apply keepsOut_next
    | with_reducible apply keepsOut_ite
    | with_reducible apply keeps_ite
    | with_reducible apply keeps_onWrite
    | with_reducible apply keeps_set
    | with_reducible apply keeps_beginLoad

theorem keeps_loadAfter {s : State} {d : Nat} (hk : Keeps s0 s) : Keeps s0 (State.loadAfter s d) := by
  unfold State.loadAfter
  repeat' first
    | with_reducible assumption
    | with_reducible apply keeps_ite
    | with_reducible apply keeps_set
    | with_reducible apply keeps_beginLoad

theorem keeps_tryReady {s : State} {d : Nat} (hk : Keeps s0 s) : Keeps s0 (State.tryReady s d) := by
  unfold State.tryReady
  repeat' first
    | (with_reducible intro _)
    | with_reducible assumption
    | with_reducible apply keeps_ite
    | with_reducible apply keeps_set

theorem keeps_refusalEvent {s : State} {d : Nat} (hk : Keeps s0 s) : Keeps s0 (State.refusalEvent s d) := by
  unfold State.refusalEvent
  repeat' first
    | ((try lift_lets -underBinder); intro x; refine Keeps.cut (s0 := s0) x ?_ ?_ <;> [unfold x; (intro hx; clear_value x)])
    | ((try lift_lets -underBinder); intro x; clear_value x)
    | (with_reducible intro _)
    | with_reducible assumption
    | with_reducible apply keeps_ite
    | with_reducible apply keeps_dieEvent

theorem keeps_execShadowReady (die : DieNo) (cycles : BitVec 16) (ecc : Ecc) (s : State) : KeepsOut s (execShadowReady die cycles ecc s) := by
  have hk := Keeps.refl s
  unfold execShadowReady
  repeat' first
    | ((try lift_lets -underBinder); intro x; refine Keeps.cut (s0 := s) x ?_ ?_ <;> [unfold x; (intro hx; clear_value x)])
    | ((try lift_lets -underBinder); intro x; clear_value x)
    | (with_reducible intro _)
    | with_reducible assumption
    | with_reducible apply keepsOut_next
    | with_reducible apply keepsOut_ite
    | with_reducible apply keeps_ite
    | with_reducible apply keeps_set
    | with_reducible apply keeps_readEffects
    | with_reducible apply keeps_refuse
    | with_reducible apply keeps_contextFault
    | with_reducible apply keeps_onDie
    | with_reducible apply keeps_tryReady
    | with_reducible apply keeps_count
    | with_reducible apply hf
    | split

end Sys2Proof.Machine
end

