-- ==== Sys2Proof/Laws/KeepsGate.lean ====
section
/-! SUPPORT. What the operations and meanings of Machine/Gate.lean keep (Laws/Keeps.lean). -/

namespace Sys2Proof.Machine

variable {s0 : State}

theorem keeps_sendEdge {s : State} {d : Nat} {k : Nat} {n : Nat} {value : Nat} (hk : Keeps s0 s) : Keeps s0 (State.sendEdge s d k n value) := by
  unfold State.sendEdge
  repeat' first
    | ((try lift_lets -underBinder); intro x; clear_value x)
    | with_reducible assumption
    | with_reducible apply keeps_fly

theorem keeps_gateDrive {s : State} {d : Nat} {k : Nat} {port : Nat} {n : Nat} {value : Nat} (hk : Keeps s0 s) : Keeps s0 (State.gateDrive s d k port n value) := by
  unfold State.gateDrive
  repeat' first
    | with_reducible assumption
    | with_reducible apply keeps_sendEdge
    | with_reducible apply keeps_drive
    | split

theorem keeps_reach {s : State} {d : Nat} {n : Nat} (hk : Keeps s0 s) : Keeps s0 (State.reach s d n) := by
  unfold State.reach
  repeat' first
    | with_reducible assumption
    | with_reducible apply keeps_set

theorem keeps_execGuSend (die : DieNo) (gate : Fin 256) (step : Fin 16) (s : State) : KeepsOut s (execGuSend die gate step s) := by
  have hk := Keeps.refl s
  unfold execGuSend
  repeat' first
    | ((try lift_lets -underBinder); intro x; clear_value x)
    | with_reducible assumption
    | with_reducible apply keepsOut_next
    | with_reducible apply keepsOut_ite
    | with_reducible apply keeps_ite
    | with_reducible apply keeps_reach
    | with_reducible apply keeps_gateDrive
    | with_reducible apply keeps_setGate
    | split

theorem keeps_execGuTake (die : DieNo) (gate : Fin 256) (step : Fin 16) (s : State) : KeepsOut s (execGuTake die gate step s) := by
  have hk := Keeps.refl s
  unfold execGuTake
  repeat' first
    | ((try lift_lets -underBinder); intro x; refine Keeps.cut (s0 := s) x ?_ ?_ <;> [unfold x; (intro hx; clear_value x)])
    | ((try lift_lets -underBinder); intro x; clear_value x)
    | with_reducible assumption
    | with_reducible apply keepsOut_next
    | with_reducible apply keepsOut_ite
    | with_reducible apply keeps_ite
    | with_reducible apply keeps_captureCount
    | with_reducible apply keeps_reach
    | with_reducible apply keeps_setGate
    | split

theorem keeps_faultDesc {s : State} {d : Nat} {k : Nat} {i : Nat} {m : GateMem} {c : Nat} (hk : Keeps s0 s) : Keeps s0 (State.faultDesc s d k i m c) := by
  unfold State.faultDesc
  repeat' first
    | ((try lift_lets -underBinder); intro x; clear_value x)
    | with_reducible assumption
    | with_reducible apply keeps_ite
    | with_reducible apply keeps_markCarried
    | with_reducible apply keeps_setGate

theorem keeps_refuseChunk {s : State} {d : Nat} {k : Nat} {g : Gate} {i : Nat} {m : GateMem} {a : Nat} (hk : Keeps s0 s) : Keeps s0 (State.refuseChunk s d k g i m a) := by
  unfold State.refuseChunk
  repeat' first
    | with_reducible assumption
    | with_reducible apply keeps_ite
    | with_reducible apply keeps_refuseAccess

theorem keeps_chunkErrors {s : State} {d : Nat} {k : Nat} {write : Bool} {a : Nat} {n : Nat} {ecc : Ecc} (hk : Keeps s0 s) : Keeps s0 (State.chunkErrors s d k write a n ecc) := by
  unfold State.chunkErrors
  repeat' first
    | ((try lift_lets -underBinder); intro x; refine Keeps.cut (s0 := s0) x ?_ ?_ <;> [unfold x; (intro hx; clear_value x)])
    | ((try lift_lets -underBinder); intro x; clear_value x)
    | with_reducible assumption
    | with_reducible apply keeps_ite
    | with_reducible apply keeps_eccEffects
    | with_reducible apply keeps_memFault
    | with_reducible apply keeps_memFaultAgain
    | split

theorem keeps_execGuIngressChunk (die : DieNo) (gate : Fin 256) (ecc : Ecc) (s : State) : KeepsOut s (execGuIngressChunk die gate ecc s) := by
  have hk := Keeps.refl s
  unfold execGuIngressChunk
  repeat' first
    | ((try lift_lets -underBinder); intro x; clear_value x)
    | (with_reducible intro _)
    | with_reducible assumption
    | with_reducible apply keepsOut_next
    | with_reducible apply keepsOut_ite
    | with_reducible apply keeps_ite
    | with_reducible apply keeps_faultDesc
    | with_reducible apply keeps_refuseChunk
    | with_reducible apply keeps_refuseAccess
    | with_reducible apply keeps_chunkErrors
    | with_reducible apply keeps_setGate
    | with_reducible apply hf
    | split

theorem keeps_execGuEgressAck (die : DieNo) (gate : Fin 256) (ecc : Ecc) (s : State) : KeepsOut s (execGuEgressAck die gate ecc s) := by
  have hk := Keeps.refl s
  unfold execGuEgressAck
  repeat' first
    | ((try lift_lets -underBinder); intro x; refine Keeps.cut (s0 := s) x ?_ ?_ <;> [unfold x; (intro hx; clear_value x)])
    | ((try lift_lets -underBinder); intro x; clear_value x)
    | with_reducible assumption
    | with_reducible apply keepsOut_next
    | with_reducible apply keepsOut_ite
    | with_reducible apply keeps_ite
    | with_reducible apply keeps_faultDesc
    | with_reducible apply keeps_refuseChunk
    | with_reducible apply keeps_refuseAccess
    | with_reducible apply keeps_chunkErrors
    | with_reducible apply keeps_setGate
    | with_reducible apply keeps_writeBytes
    | split

theorem keeps_execGlobalFreeze (die : DieNo) (gate : Fin 256) (step : Fin 16) (s : State) : KeepsOut s (execGlobalFreeze die gate step s) := by
  have hk := Keeps.refl s
  unfold execGlobalFreeze
  repeat' first
    | ((try lift_lets -underBinder); intro x; refine Keeps.cut (s0 := s) x ?_ ?_ <;> [unfold x; (intro hx; clear_value x)])
    | ((try lift_lets -underBinder); intro x; clear_value x)
    | (with_reducible intro _)
    | with_reducible assumption
    | with_reducible apply keepsOut_next
    | with_reducible apply keepsOut_ite
    | with_reducible apply keeps_ite
    | with_reducible apply keeps_onDie
    | with_reducible apply keeps_set
    | with_reducible apply hf
    | split

theorem keeps_carriedFreeze {s : State} {d : Nat} {cycles : Nat} (hk : Keeps s0 s) : Keeps s0 (State.carriedFreeze s d cycles) := by
  unfold State.carriedFreeze
  repeat' first
    | (with_reducible intro _)
    | with_reducible assumption
    | with_reducible apply keeps_ite
    | with_reducible apply keeps_onDie

theorem keeps_countFreeze {s : State} {d : Nat} {cycles : Nat} {held : List (Nat × Nat)} (hk : Keeps s0 s) : Keeps s0 (State.countFreeze s d cycles held) := by
  unfold State.countFreeze
  repeat' first
    | ((try lift_lets -underBinder); intro x; refine Keeps.cut (s0 := s0) x ?_ ?_ <;> [unfold x; (intro hx; clear_value x)])
    | ((try lift_lets -underBinder); intro x; clear_value x)
    | (with_reducible intro _)
    | with_reducible assumption
    | with_reducible apply keeps_count
    | with_reducible apply keeps_carriedFreeze
    | with_reducible apply keeps_foldl
    | with_reducible apply keeps_setGate

theorem keeps_execFreezeEnd (die : DieNo) (cycles : BitVec 32) (held : List (Nat × Nat)) (s : State) : KeepsOut s (execFreezeEnd die cycles held s) := by
  have hk := Keeps.refl s
  unfold execFreezeEnd
  repeat' first
    | ((try lift_lets -underBinder); intro x; refine Keeps.cut (s0 := s) x ?_ ?_ <;> [unfold x; (intro hx; clear_value x)])
    | ((try lift_lets -underBinder); intro x; clear_value x)
    | (with_reducible intro _)
    | with_reducible assumption
    | with_reducible apply keepsOut_next
    | with_reducible apply keepsOut_ite
    | with_reducible apply keeps_ite
    | with_reducible apply keeps_countFreeze
    | with_reducible apply keeps_onDie
    | with_reducible apply keeps_set
    | (with_reducible apply keeps_update; first | assumption | with_reducible apply keeps_countFreeze | with_reducible apply keeps_onDie | with_reducible apply keeps_set)

theorem keeps_execFreezeLimit (die : DieNo) (gate : Fin 256) (cycles : BitVec 32) (held : List (Nat × Nat)) (s : State) : KeepsOut s (execFreezeLimit die gate cycles held s) := by
  have hk := Keeps.refl s
  unfold execFreezeLimit
  repeat' first
    | ((try lift_lets -underBinder); intro x; refine Keeps.cut (s0 := s) x ?_ ?_ <;> [unfold x; (intro hx; clear_value x)])
    | ((try lift_lets -underBinder); intro x; clear_value x)
    | (with_reducible intro _)
    | with_reducible assumption
    | with_reducible apply keepsOut_next
    | with_reducible apply keepsOut_ite
    | with_reducible apply keeps_ite
    | with_reducible apply keeps_countFreeze
    | with_reducible apply keeps_set
    | with_reducible apply keeps_pageEvent
    | with_reducible apply keeps_dieEvent
    | with_reducible apply keeps_contextFault

theorem keeps_countLimited {s : State} {d : Nat} (hk : Keeps s0 s) : Keeps s0 (State.countLimited s d) := by
  unfold State.countLimited
  repeat' first
    | ((try lift_lets -underBinder); intro x; refine Keeps.cut (s0 := s0) x ?_ ?_ <;> [unfold x; (intro hx; clear_value x)])
    | ((try lift_lets -underBinder); intro x; clear_value x)
    | (with_reducible intro _)
    | with_reducible assumption
    | with_reducible apply keeps_ite
    | with_reducible apply keeps_countFreeze
    | with_reducible apply keeps_set

theorem keeps_gatherStretch {s : State} {d : Nat} (hk : Keeps s0 s) : Keeps s0 (State.gatherStretch s d) := by
  unfold State.gatherStretch
  repeat' first
    | ((try lift_lets -underBinder); intro x; clear_value x)
    | with_reducible assumption
    | with_reducible apply keeps_set

theorem keeps_execSectionEnd (die : DieNo) (s : State) : KeepsOut s (execSectionEnd die s) := by
  have hk := Keeps.refl s
  unfold execSectionEnd
  repeat' first
    | ((try lift_lets -underBinder); intro x; clear_value x)
    | with_reducible assumption
    | with_reducible apply keepsOut_next
    | with_reducible apply keepsOut_ite
    | with_reducible apply keeps_ite
    | with_reducible apply keeps_setPhase
    | with_reducible apply keeps_gatherStretch
    | with_reducible apply keeps_set
    | split

theorem keeps_execStretchCycle (die : DieNo) (s : State) : KeepsOut s (execStretchCycle die s) := by
  have hk := Keeps.refl s
  unfold execStretchCycle
  repeat' first
    | ((try lift_lets -underBinder); intro x; refine Keeps.cut (s0 := s) x ?_ ?_ <;> [unfold x; (intro hx; clear_value x)])
    | ((try lift_lets -underBinder); intro x; clear_value x)
    | with_reducible assumption
    | with_reducible apply keepsOut_next
    | with_reducible apply keepsOut_ite
    | with_reducible apply keeps_ite
    | with_reducible apply keeps_gatherStretch
    | with_reducible apply keeps_set
    | with_reducible apply keeps_carriedFreeze
    | with_reducible apply keeps_count

end Sys2Proof.Machine
end

