-- ==== Sys2Proof/Laws/KeepsHasp.lean ====
section
/-! SUPPORT. What the operations and meanings of Machine/Hasp.lean keep (Laws/Keeps.lean). -/

namespace Sys2Proof.Machine

variable {s0 : State}

theorem keeps_onLink {s : State} {d : Nat} {l : Nat} {f : LinkLog → LinkLog} (hk : Keeps s0 s) : Keeps s0 (State.onLink s d l f) := by
  unfold State.onLink
  repeat' first
    | (with_reducible intro _)
    | with_reducible assumption
    | with_reducible apply keeps_onDie

theorem keeps_onSlink {s : State} {d : Nat} {l : Nat} {f : SLink → SLink} (hk : Keeps s0 s) : Keeps s0 (State.onSlink s d l f) := by
  unfold State.onSlink
  repeat' first
    | (with_reducible intro _)
    | with_reducible assumption
    | with_reducible apply keeps_onDie

theorem keeps_setStream {s : State} {d : Nat} {id : Nat} {x : Stream} (hk : Keeps s0 s) : Keeps s0 (State.setStream s d id x) := by
  unfold State.setStream
  repeat' first
    | ((try lift_lets -underBinder); intro x; refine Keeps.cut (s0 := s0) x ?_ ?_ <;> [unfold x; (intro hx; clear_value x)])
    | (with_reducible intro _)
    | with_reducible assumption
    | with_reducible apply keeps_onDie
    | with_reducible apply keeps_set

theorem keeps_putScq {s : State} {d : Nat} {words : List Nat} (hk : Keeps s0 s) : Keeps s0 (State.putScq s d words) := by
  unfold State.putScq
  repeat' first
    | ((try lift_lets -underBinder); intro x; refine Keeps.cut (s0 := s0) x ?_ ?_ <;> [unfold x; (intro hx; clear_value x)])
    | ((try lift_lets -underBinder); intro x; clear_value x)
    | (with_reducible intro _)
    | with_reducible assumption
    | with_reducible apply keeps_ite
    | with_reducible apply keeps_storeWords
    | with_reducible apply keeps_wrap
    | with_reducible apply keeps_count
    | with_reducible apply keeps_put
    | with_reducible apply keeps_pageEvent

theorem keeps_completeXfer {s : State} {d : Nat} {id : Nat} {x : Stream} {t : Xfer} (hk : Keeps s0 s) : Keeps s0 (State.completeXfer s d id x t) := by
  unfold State.completeXfer
  repeat' first
    | ((try lift_lets -underBinder); intro x; refine Keeps.cut (s0 := s0) x ?_ ?_ <;> [unfold x; (intro hx; clear_value x)])
    | ((try lift_lets -underBinder); intro x; clear_value x)
    | (with_reducible intro _)
    | with_reducible assumption
    | with_reducible apply keeps_ite
    | with_reducible apply keeps_markCarried
    | with_reducible apply keeps_onDie
    | with_reducible apply keeps_putScq

theorem keeps_completeOver {d id : Nat} (n : Nat) : ∀ {s : State}, Keeps s0 s → Keeps s0 (s.completeOver d id n) := by
  induction n with
  | zero => intro s h; exact h
  | succ n ih =>
    intro s h
    unfold State.completeOver
    extract_lets x
    split
    · exact h
    · exact keeps_ite (ih (keeps_setStream (keeps_completeXfer h))) h

theorem keeps_serveStarts {s : State} {d : Nat} (hk : Keeps s0 s) : Keeps s0 (State.serveStarts s d) := by
  unfold State.serveStarts
  repeat' first
    | ((try lift_lets -underBinder); intro x; clear_value x)
    | (with_reducible intro _)
    | with_reducible assumption
    | with_reducible apply keeps_ite
    | with_reducible apply keeps_setStream
    | with_reducible apply keeps_each
    | with_reducible apply keeps_foldl

theorem keeps_askStart {s : State} {d : Nat} {id : Nat} (hk : Keeps s0 s) : Keeps s0 (State.askStart s d id) := by
  unfold State.askStart
  repeat' first
    | ((try lift_lets -underBinder); intro x; clear_value x)
    | (with_reducible intro _)
    | with_reducible assumption
    | with_reducible apply keeps_serveStarts
    | with_reducible apply keeps_setStream

theorem keeps_advanceStream {s : State} {d : Nat} {id : Nat} (hk : Keeps s0 s) : Keeps s0 (State.advanceStream s d id) := by
  unfold State.advanceStream
  repeat' first
    | (with_reducible intro _)
    | with_reducible assumption
    | with_reducible apply keeps_serveStarts
    | with_reducible apply keeps_completeOver

theorem keeps_endXfers {s : State} {d : Nat} {id : Nat} {st : XferStatus} (hk : Keeps s0 s) : Keeps s0 (State.endXfers s d id st) := by
  unfold State.endXfers
  repeat' first
    | ((try lift_lets -underBinder); intro x; refine Keeps.cut (s0 := s0) x ?_ ?_ <;> [unfold x; (intro hx; clear_value x)])
    | ((try lift_lets -underBinder); intro x; clear_value x)
    | (with_reducible intro _)
    | with_reducible assumption
    | with_reducible apply keeps_completeXfer
    | with_reducible apply keeps_setStream
    | with_reducible apply keeps_foldl

theorem keeps_streamFault {s : State} {d : Nat} {code : Nat} {status : Nat} {link : Nat} {id : Nat} {seq : Nat} {chunk : Nat} (hk : Keeps s0 s) : Keeps s0 (State.streamFault s d code status link id seq chunk) := by
  unfold State.streamFault
  repeat' first
    | (with_reducible intro _)
    | with_reducible assumption
    | with_reducible apply keeps_faultRecord

theorem keeps_haltStream {s : State} {d : Nat} {id : Nat} {c : Nat} {st : XferStatus} (hk : Keeps s0 s) : Keeps s0 (State.haltStream s d id c st) := by
  unfold State.haltStream
  repeat' first
    | ((try lift_lets -underBinder); intro x; refine Keeps.cut (s0 := s0) x ?_ ?_ <;> [unfold x; (intro hx; clear_value x)])
    | ((try lift_lets -underBinder); intro x; clear_value x)
    | (with_reducible intro _)
    | with_reducible assumption
    | with_reducible apply keeps_ite
    | with_reducible apply keeps_setStream
    | with_reducible apply keeps_pageEvent
    | with_reducible apply keeps_dieEvent
    | with_reducible apply keeps_advanceStream
    | with_reducible apply keeps_streamFault
    | split

theorem keeps_placeStream {s : State} {d : Nat} {l : Nat} {id : Nat} {alt : Bool} (hk : Keeps s0 s) : Keeps s0 (State.placeStream s d l id alt) := by
  unfold State.placeStream
  repeat' first
    | ((try lift_lets -underBinder); intro x; clear_value x)
    | (with_reducible intro _)
    | with_reducible assumption
    | with_reducible apply keeps_setStream

theorem keeps_takeTable {s : State} {d : Nat} {l : Nat} {b0 : Nat} {t : SlotTable} {alt : Bool} (hk : Keeps s0 s) : Keeps s0 (State.takeTable s d l b0 t alt) := by
  unfold State.takeTable
  repeat' first
    | ((try lift_lets -underBinder); intro x; refine Keeps.cut (s0 := s0) x ?_ ?_ <;> [unfold x; (intro hx; clear_value x)])
    | ((try lift_lets -underBinder); intro x; clear_value x)
    | (with_reducible intro _)
    | with_reducible assumption
    | with_reducible apply keeps_ite
    | with_reducible apply keeps_onSlink
    | with_reducible apply keeps_dieEvent
    | with_reducible apply keeps_each
    | with_reducible apply keeps_placeStream
    | (with_reducible apply keeps_update; first | assumption | with_reducible apply keeps_onSlink | with_reducible apply keeps_dieEvent | with_reducible apply keeps_each | with_reducible apply keeps_placeStream)

theorem keeps_setOut {s : State} {d : Nat} {m : Nat} (hk : Keeps s0 s) : Keeps s0 (State.setOut s d m) := by
  unfold State.setOut
  repeat' first
    | ((try lift_lets -underBinder); intro x; clear_value x)
    | (with_reducible intro _)
    | with_reducible assumption
    | with_reducible apply keeps_set
    | with_reducible apply keeps_setPair

theorem keeps_takeStretch {s : State} {d : Nat} (hk : Keeps s0 s) : Keeps s0 (State.takeStretch s d) := by
  unfold State.takeStretch
  repeat' first
    | ((try lift_lets -underBinder); intro x; refine Keeps.cut (s0 := s0) x ?_ ?_ <;> [unfold x; (intro hx; clear_value x)])
    | ((try lift_lets -underBinder); intro x; clear_value x)
    | with_reducible assumption
    | with_reducible apply keeps_gatherStretch
    | with_reducible apply keeps_set

theorem keeps_selectSet {s : State} {d : Nat} (hk : Keeps s0 s) : Keeps s0 (State.selectSet s d) := by
  unfold State.selectSet
  repeat' first
    | ((try lift_lets -underBinder); intro x; refine Keeps.cut (s0 := s0) x ?_ ?_ <;> [unfold x; (intro hx; clear_value x)])
    | ((try lift_lets -underBinder); intro x; clear_value x)
    | (with_reducible intro _)
    | with_reducible assumption
    | with_reducible apply keeps_ite
    | with_reducible apply keeps_pageEvent
    | with_reducible apply keeps_takeStretch
    | with_reducible apply keeps_set
    | with_reducible apply keeps_dieEvent
    | with_reducible apply keeps_onSlink
    | with_reducible apply keeps_each
    | split

theorem keeps_endFenced {s : State} {d : Nat} (hk : Keeps s0 s) : Keeps s0 (State.endFenced s d) := by
  unfold State.endFenced
  repeat' first
    | ((try lift_lets -underBinder); intro x; refine Keeps.cut (s0 := s0) x ?_ ?_ <;> [unfold x; (intro hx; clear_value x)])
    | ((try lift_lets -underBinder); intro x; clear_value x)
    | (with_reducible intro _)
    | with_reducible assumption
    | with_reducible apply keeps_ite
    | with_reducible apply keeps_foldl
    | with_reducible apply keeps_endXfers
    | with_reducible apply keeps_serveStarts
    | split

theorem keeps_takeSetTable {s : State} {d : Nat} {i : Nat} {l : Nat} {b0 : Nat} (hk : Keeps s0 s) : Keeps s0 (State.takeSetTable s d i l b0) := by
  unfold State.takeSetTable
  repeat' first
    | (with_reducible intro _)
    | with_reducible assumption
    | with_reducible apply keeps_takeTable
    | with_reducible apply keeps_onSlink
    | split
    | (with_reducible apply keeps_update; first | assumption | with_reducible apply keeps_takeTable | with_reducible apply keeps_onSlink)

theorem keeps_linkOut {s : State} {d : Nat} {l : Nat} (hk : Keeps s0 s) : Keeps s0 (State.linkOut s d l) := by
  unfold State.linkOut
  repeat' first
    | ((try lift_lets -underBinder); intro x; refine Keeps.cut (s0 := s0) x ?_ ?_ <;> [unfold x; (intro hx; clear_value x)])
    | ((try lift_lets -underBinder); intro x; clear_value x)
    | (with_reducible intro _)
    | with_reducible assumption
    | with_reducible apply keeps_ite
    | with_reducible apply keeps_setStream
    | with_reducible apply keeps_onSlink
    | with_reducible apply keeps_selectSet
    | with_reducible apply keeps_setOut
    | with_reducible apply keeps_each

theorem keeps_takeRelease {s : State} {d : Nat} {k : Nat} {beat : Nat} (hk : Keeps s0 s) : Keeps s0 (State.takeRelease s d k beat) := by
  unfold State.takeRelease
  repeat' first
    | ((try lift_lets -underBinder); intro x; refine Keeps.cut (s0 := s0) x ?_ ?_ <;> [unfold x; (intro hx; clear_value x)])
    | with_reducible assumption
    | with_reducible apply keeps_ite
    | with_reducible apply keeps_setPair
    | with_reducible apply keeps_set
    | with_reducible apply keeps_dieEvent

theorem keeps_agree {s : State} {d : Nat} (hk : Keeps s0 s) : Keeps s0 (State.agree s d) := by
  unfold State.agree
  repeat' first
    | ((try lift_lets -underBinder); intro x; refine Keeps.cut (s0 := s0) x ?_ ?_ <;> [unfold x; (intro hx; clear_value x)])
    | ((try lift_lets -underBinder); intro x; clear_value x)
    | with_reducible assumption
    | with_reducible apply keeps_ite
    | with_reducible apply keeps_set
    | with_reducible apply keeps_useFree
    | with_reducible apply keeps_takeRelease

theorem keeps_takeNoted {s : State} {d : Nat} (hk : Keeps s0 s) : Keeps s0 (State.takeNoted s d) := by
  unfold State.takeNoted
  repeat' first
    | with_reducible assumption
    | with_reducible apply keeps_ite
    | with_reducible apply keeps_takeRelease

theorem keeps_takeDepth {s : State} {d : Nat} {parent : Nat} (hk : Keeps s0 s) : Keeps s0 (State.takeDepth s d parent) := by
  unfold State.takeDepth
  repeat' first
    | ((try lift_lets -underBinder); intro x; refine Keeps.cut (s0 := s0) x ?_ ?_ <;> [unfold x; (intro hx; clear_value x)])
    | with_reducible assumption
    | with_reducible apply keeps_ite
    | with_reducible apply keeps_set
    | with_reducible apply keeps_dieEvent

theorem keeps_lostParent {s : State} {d : Nat} (hk : Keeps s0 s) : Keeps s0 (State.lostParent s d) := by
  unfold State.lostParent
  repeat' first
    | ((try lift_lets -underBinder); intro x; refine Keeps.cut (s0 := s0) x ?_ ?_ <;> [unfold x; (intro hx; clear_value x)])
    | ((try lift_lets -underBinder); intro x; clear_value x)
    | (with_reducible intro _)
    | with_reducible assumption
    | with_reducible apply keeps_ite
    | with_reducible apply keeps_set
    | with_reducible apply keeps_dieEvent
    | with_reducible apply keeps_onLink
    | with_reducible apply keeps_takeDepth
    | with_reducible apply keeps_agree

theorem keeps_setChild {s : State} {d : Nat} {l : Nat} {b : Bool} (hk : Keeps s0 s) : Keeps s0 (State.setChild s d l b) := by
  unfold State.setChild
  repeat' first
    | ((try lift_lets -underBinder); intro x; refine Keeps.cut (s0 := s0) x ?_ ?_ <;> [unfold x; (intro hx; clear_value x)])
    | ((try lift_lets -underBinder); intro x; clear_value x)
    | (with_reducible intro _)
    | with_reducible assumption
    | with_reducible apply keeps_ite
    | with_reducible apply keeps_onLink
    | with_reducible apply keeps_setBit
    | (with_reducible apply keeps_update; first | assumption | with_reducible apply keeps_onLink | with_reducible apply keeps_setBit)

theorem keeps_putLink {s : State} {d : Nat} {l : Nat} {x : HlState} (hk : Keeps s0 s) : Keeps s0 (State.putLink s d l x) := by
  unfold State.putLink
  repeat' first
    | ((try lift_lets -underBinder); intro x; refine Keeps.cut (s0 := s0) x ?_ ?_ <;> [unfold x; (intro hx; clear_value x)])
    | ((try lift_lets -underBinder); intro x; clear_value x)
    | (with_reducible intro _)
    | with_reducible assumption
    | with_reducible apply keeps_ite
    | with_reducible apply keeps_set
    | with_reducible apply keeps_pageEvent
    | with_reducible apply keeps_onLink
    | (with_reducible apply keeps_update; first | assumption | with_reducible apply keeps_set | with_reducible apply keeps_pageEvent | with_reducible apply keeps_onLink)

theorem keeps_leftUp {s : State} {d : Nat} {ls : List Nat} (hk : Keeps s0 s) : Keeps s0 (State.leftUp s d ls) := by
  unfold State.leftUp
  repeat' first
    | ((try lift_lets -underBinder); intro x; refine Keeps.cut (s0 := s0) x ?_ ?_ <;> [unfold x; (intro hx; clear_value x)])
    | ((try lift_lets -underBinder); intro x; clear_value x)
    | (with_reducible intro _)
    | with_reducible assumption
    | with_reducible apply keeps_ite
    | with_reducible apply keeps_each
    | with_reducible apply keeps_linkOut
    | with_reducible apply keeps_selectSet
    | with_reducible apply keeps_onLink
    | with_reducible apply keeps_setChild
    | with_reducible apply keeps_lostParent
    | with_reducible apply keeps_agree
    | (with_reducible apply keeps_update; first | assumption | with_reducible apply keeps_each | with_reducible apply keeps_linkOut | with_reducible apply keeps_selectSet | with_reducible apply keeps_onLink | with_reducible apply keeps_setChild | with_reducible apply keeps_lostParent | with_reducible apply keeps_agree)

theorem keeps_toLink {s : State} {d : Nat} {l : Nat} {x : HlState} (hk : Keeps s0 s) : Keeps s0 (State.toLink s d l x) := by
  unfold State.toLink
  repeat' first
    | with_reducible assumption
    | with_reducible apply keeps_ite
    | with_reducible apply keeps_putLink
    | with_reducible apply keeps_leftUp

theorem keeps_loseLink {s : State} {d : Nat} {l : Nat} {cause : Nat} (hk : Keeps s0 s) : Keeps s0 (State.loseLink s d l cause) := by
  unfold State.loseLink
  repeat' first
    | ((try lift_lets -underBinder); intro x; refine Keeps.cut (s0 := s0) x ?_ ?_ <;> [unfold x; (intro hx; clear_value x)])
    | ((try lift_lets -underBinder); intro x; clear_value x)
    | (with_reducible intro _)
    | with_reducible assumption
    | with_reducible apply keeps_ite
    | with_reducible apply keeps_dieEvent
    | with_reducible apply keeps_set
    | with_reducible apply keeps_count
    | with_reducible apply keeps_toLink
    | split

theorem keeps_isolateLink {s : State} {d : Nat} {l : Nat} {cause : Nat} (hk : Keeps s0 s) : Keeps s0 (State.isolateLink s d l cause) := by
  unfold State.isolateLink
  repeat' first
    | ((try lift_lets -underBinder); intro x; refine Keeps.cut (s0 := s0) x ?_ ?_ <;> [unfold x; (intro hx; clear_value x)])
    | ((try lift_lets -underBinder); intro x; clear_value x)
    | (with_reducible intro _)
    | with_reducible assumption
    | with_reducible apply keeps_ite
    | with_reducible apply keeps_dieEvent
    | with_reducible apply keeps_set
    | with_reducible apply keeps_toLink
    | split

theorem keeps_fenceLinks {s : State} {d : Nat} (hk : Keeps s0 s) : Keeps s0 (State.fenceLinks s d) := by
  unfold State.fenceLinks
  repeat' first
    | ((try lift_lets -underBinder); intro x; refine Keeps.cut (s0 := s0) x ?_ ?_ <;> [unfold x; (intro hx; clear_value x)])
    | ((try lift_lets -underBinder); intro x; clear_value x)
    | (with_reducible intro _)
    | with_reducible assumption
    | with_reducible apply keeps_each
    | with_reducible apply keeps_putLink
    | with_reducible apply keeps_leftUp

theorem keeps_unfenceLinks {s : State} {d : Nat} (hk : Keeps s0 s) : Keeps s0 (State.unfenceLinks s d) := by
  unfold State.unfenceLinks
  repeat' first
    | (with_reducible intro _)
    | with_reducible assumption
    | with_reducible apply keeps_ite
    | with_reducible apply keeps_toLink
    | with_reducible apply keeps_each

theorem keeps_slotViolations {s : State} {d : Nat} {l : Nat} {n : Nat} (hk : Keeps s0 s) : Keeps s0 (State.slotViolations s d l n) := by
  unfold State.slotViolations
  repeat' first
    | ((try lift_lets -underBinder); intro x; refine Keeps.cut (s0 := s0) x ?_ ?_ <;> [unfold x; (intro hx; clear_value x)])
    | ((try lift_lets -underBinder); intro x; clear_value x)
    | (with_reducible intro _)
    | with_reducible assumption
    | with_reducible apply keeps_ite
    | with_reducible apply keeps_onLink
    | with_reducible apply keeps_count
    | with_reducible apply keeps_isolateLink

theorem keeps_creditViolation {s : State} {d : Nat} {l : Nat} (hk : Keeps s0 s) : Keeps s0 (State.creditViolation s d l) := by
  unfold State.creditViolation
  repeat' first
    | with_reducible assumption
    | with_reducible apply keeps_ite
    | with_reducible apply keeps_isolateLink
    | with_reducible apply keeps_count

theorem keeps_protocolViolation {s : State} {d : Nat} {l : Nat} (hk : Keeps s0 s) : Keeps s0 (State.protocolViolation s d l) := by
  unfold State.protocolViolation
  repeat' first
    | with_reducible assumption
    | with_reducible apply keeps_isolateLink

theorem keeps_linkUp {s : State} {d : Nat} {l : Nat} (hk : Keeps s0 s) : Keeps s0 (State.linkUp s d l) := by
  unfold State.linkUp
  repeat' first
    | ((try lift_lets -underBinder); intro x; refine Keeps.cut (s0 := s0) x ?_ ?_ <;> [unfold x; (intro hx; clear_value x)])
    | ((try lift_lets -underBinder); intro x; clear_value x)
    | (with_reducible intro _)
    | with_reducible assumption
    | with_reducible apply keeps_ite
    | with_reducible apply keeps_set
    | with_reducible apply keeps_dieEvent
    | with_reducible apply keeps_toLink
    | with_reducible apply keeps_onLink
    | with_reducible apply keeps_place
    | with_reducible apply keeps_dieReady
    | with_reducible apply keeps_onSlink
    | (with_reducible apply keeps_update; first | assumption | with_reducible apply keeps_set | with_reducible apply keeps_dieEvent | with_reducible apply keeps_toLink | with_reducible apply keeps_onLink | with_reducible apply keeps_place | with_reducible apply keeps_dieReady | with_reducible apply keeps_onSlink)

theorem keeps_readmitLinks {s : State} {d : Nat} {k : Nat} (hk : Keeps s0 s) : Keeps s0 (State.readmitLinks s d k) := by
  unfold State.readmitLinks
  repeat' first
    | ((try lift_lets -underBinder); intro x; refine Keeps.cut (s0 := s0) x ?_ ?_ <;> [unfold x; (intro hx; clear_value x)])
    | ((try lift_lets -underBinder); intro x; clear_value x)
    | (with_reducible intro _)
    | with_reducible assumption
    | with_reducible apply keeps_ite
    | with_reducible apply keeps_onSlink
    | with_reducible apply keeps_dieEvent
    | with_reducible apply keeps_setOut
    | with_reducible apply keeps_selectSet
    | with_reducible apply keeps_each

theorem keeps_readmitAgain {s : State} {d : Nat} (hk : Keeps s0 s) : Keeps s0 (State.readmitAgain s d) := by
  unfold State.readmitAgain
  repeat' first
    | ((try lift_lets -underBinder); intro x; clear_value x)
    | (with_reducible intro _)
    | with_reducible assumption
    | with_reducible apply keeps_ite
    | with_reducible apply keeps_onSlink
    | with_reducible apply keeps_each

theorem keeps_releaseTables {s : State} {d : Nat} {k : Nat} {b0 : Nat} {key : Key} (hk : Keeps s0 s) : Keeps s0 (State.releaseTables s d k b0 key) := by
  unfold State.releaseTables
  repeat' first
    | ((try lift_lets -underBinder); intro x; refine Keeps.cut (s0 := s0) x ?_ ?_ <;> [unfold x; (intro hx; clear_value x)])
    | ((try lift_lets -underBinder); intro x; clear_value x)
    | (with_reducible intro _)
    | with_reducible assumption
    | with_reducible apply keeps_ite
    | with_reducible apply keeps_set
    | with_reducible apply keeps_readmitLinks
    | with_reducible apply keeps_each
    | with_reducible apply keeps_onSlink
    | with_reducible apply keeps_takeStretch
    | with_reducible apply keeps_takeSetTable
    | with_reducible apply keeps_endFenced
    | with_reducible apply keeps_askStart
    | split
    | (with_reducible apply keeps_update; first | assumption | with_reducible apply keeps_set | with_reducible apply keeps_readmitLinks | with_reducible apply keeps_each | with_reducible apply keeps_onSlink | with_reducible apply keeps_takeStretch | with_reducible apply keeps_takeSetTable | with_reducible apply keeps_endFenced | with_reducible apply keeps_askStart)

theorem keeps_closeStreams {s : State} {d : Nat} (hk : Keeps s0 s) : Keeps s0 (State.closeStreams s d) := by
  unfold State.closeStreams
  repeat' first
    | ((try lift_lets -underBinder); intro x; refine Keeps.cut (s0 := s0) x ?_ ?_ <;> [unfold x; (intro hx; clear_value x)])
    | ((try lift_lets -underBinder); intro x; clear_value x)
    | (with_reducible intro _)
    | with_reducible assumption
    | with_reducible apply keeps_ite
    | with_reducible apply keeps_endXfers
    | with_reducible apply keeps_onSlink
    | with_reducible apply keeps_setOut
    | with_reducible apply keeps_set
    | with_reducible apply keeps_takeStretch
    | with_reducible apply keeps_each
    | with_reducible apply keeps_foldl

theorem keeps_execKeyringCheckDone (die : DieNo) (ecc : Ecc) (s : State) : KeepsOut s (execKeyringCheckDone die ecc s) := by
  have hk := Keeps.refl s
  unfold execKeyringCheckDone
  repeat' first
    | ((try lift_lets -underBinder); intro x; refine Keeps.cut (s0 := s) x ?_ ?_ <;> [unfold x; (intro hx; clear_value x)])
    | ((try lift_lets -underBinder); intro x; clear_value x)
    | (with_reducible intro _)
    | with_reducible assumption
    | with_reducible apply keepsOut_next
    | with_reducible apply keepsOut_ite
    | with_reducible apply keeps_ite
    | with_reducible apply keeps_set
    | with_reducible apply keeps_readEffects
    | with_reducible apply keeps_refuse
    | with_reducible apply keeps_setPair
    | with_reducible apply keeps_selectSet
    | with_reducible apply keeps_foldl
    | with_reducible apply hf
    | split

end Sys2Proof.Machine
end

