-- ==== Sys2Proof/Laws/KeepsLinks.lean ====
section
/-! SUPPORT. What the operations and meanings of Machine/Links.lean keep (Laws/Keeps.lean). -/

namespace Sys2Proof.Machine

variable {s0 : State}

theorem keeps_toDetect {s : State} {d : Nat} {l : Nat} (hk : Keeps s0 s) : Keeps s0 (State.toDetect s d l) := by
  unfold State.toDetect
  repeat' first
    | (with_reducible intro _)
    | with_reducible assumption
    | with_reducible apply keeps_toLink
    | with_reducible apply keeps_onLink

theorem keeps_refuseLink {s : State} {d : Nat} {l : Nat} {code : Nat} (hk : Keeps s0 s) : Keeps s0 (State.refuseLink s d l code) := by
  unfold State.refuseLink
  repeat' first
    | ((try lift_lets -underBinder); intro x; refine Keeps.cut (s0 := s0) x ?_ ?_ <;> [unfold x; (intro hx; clear_value x)])
    | ((try lift_lets -underBinder); intro x; clear_value x)
    | (with_reducible intro _)
    | with_reducible assumption
    | with_reducible apply keeps_ite
    | with_reducible apply keeps_dieEvent
    | with_reducible apply keeps_set
    | with_reducible apply keeps_toLink

theorem keeps_execLinkEnable (req : Requester) (die : DieNo) (link : LinkNo) (s : State) : KeepsOut s (execLinkEnable req die link s) := by
  have hk := Keeps.refl s
  unfold execLinkEnable
  repeat' first
    | ((try lift_lets -underBinder); intro x; refine Keeps.cut (s0 := s) x ?_ ?_ <;> [unfold x; (intro hx; clear_value x)])
    | ((try lift_lets -underBinder); intro x; clear_value x)
    | (with_reducible intro _)
    | with_reducible assumption
    | with_reducible apply keepsOut_next
    | with_reducible apply keepsOut_ite
    | with_reducible apply keeps_ite
    | with_reducible apply keeps_onWrite
    | with_reducible apply keeps_set
    | with_reducible apply keeps_toLink
    | with_reducible apply keeps_toDetect

theorem keeps_execLinkDisable (req : Requester) (die : DieNo) (link : LinkNo) (s : State) : KeepsOut s (execLinkDisable req die link s) := by
  have hk := Keeps.refl s
  unfold execLinkDisable
  repeat' first
    | ((try lift_lets -underBinder); intro x; clear_value x)
    | (with_reducible intro _)
    | with_reducible assumption
    | with_reducible apply keepsOut_next
    | with_reducible apply keeps_onWrite
    | with_reducible apply keeps_toLink
    | with_reducible apply keeps_onLink
    | with_reducible apply keeps_set

theorem keeps_execRetrain (req : Requester) (die : DieNo) (link : LinkNo) (s : State) : KeepsOut s (execRetrain req die link s) := by
  have hk := Keeps.refl s
  unfold execRetrain
  repeat' first
    | ((try lift_lets -underBinder); intro x; clear_value x)
    | (with_reducible intro _)
    | with_reducible assumption
    | with_reducible apply keepsOut_next
    | with_reducible apply keepsOut_ite
    | with_reducible apply keeps_ite
    | with_reducible apply keeps_onWrite
    | with_reducible apply keeps_regFault
    | with_reducible apply keeps_toDetect
    | with_reducible apply keeps_loseLink

theorem keeps_execSignalDetect (die : DieNo) (link : LinkNo) (s : State) : KeepsOut s (execSignalDetect die link s) := by
  have hk := Keeps.refl s
  unfold execSignalDetect
  repeat' first
    | ((try lift_lets -underBinder); intro x; clear_value x)
    | with_reducible assumption
    | with_reducible apply keepsOut_next
    | with_reducible apply keepsOut_ite
    | with_reducible apply keeps_ite
    | with_reducible apply keeps_toLink

theorem keeps_execEqualiseDone (die : DieNo) (link : LinkNo) (swapped : Bool) (partnerPrecodes : Bool) (snr0 : BitVec 8) (snr1 : BitVec 8) (s : State) : KeepsOut s (execEqualiseDone die link swapped partnerPrecodes snr0 snr1 s) := by
  have hk := Keeps.refl s
  unfold execEqualiseDone
  repeat' first
    | ((try lift_lets -underBinder); intro x; refine Keeps.cut (s0 := s) x ?_ ?_ <;> [unfold x; (intro hx; clear_value x)])
    | ((try lift_lets -underBinder); intro x; clear_value x)
    | with_reducible assumption
    | with_reducible apply keepsOut_next
    | with_reducible apply keepsOut_ite
    | with_reducible apply keeps_ite
    | with_reducible apply keeps_put
    | with_reducible apply keeps_toLink
    | with_reducible apply keeps_set

theorem keeps_execFecAlignDone (die : DieNo) (link : LinkNo) (s : State) : KeepsOut s (execFecAlignDone die link s) := by
  have hk := Keeps.refl s
  unfold execFecAlignDone
  repeat' first
    | ((try lift_lets -underBinder); intro x; clear_value x)
    | (with_reducible intro _)
    | with_reducible assumption
    | with_reducible apply keepsOut_next
    | with_reducible apply keepsOut_ite
    | with_reducible apply keeps_ite
    | with_reducible apply keeps_toLink
    | with_reducible apply keeps_onLink

theorem keeps_identified {s : State} {d : Nat} {l : Nat} (hk : Keeps s0 s) : Keeps s0 (State.identified s d l) := by
  unfold State.identified
  repeat' first
    | ((try lift_lets -underBinder); intro x; clear_value x)
    | (with_reducible intro _)
    | with_reducible assumption
    | with_reducible apply keeps_ite
    | with_reducible apply keeps_toLink
    | with_reducible apply keeps_onLink

theorem keeps_takeIdent {s : State} {d : Nat} {l : Nat} {ident : Ident} (hk : Keeps s0 s) : Keeps s0 (State.takeIdent s d l ident) := by
  unfold State.takeIdent
  repeat' first
    | ((try lift_lets -underBinder); intro x; refine Keeps.cut (s0 := s0) x ?_ ?_ <;> [unfold x; (intro hx; clear_value x)])
    | ((try lift_lets -underBinder); intro x; clear_value x)
    | (with_reducible intro _)
    | with_reducible assumption
    | with_reducible apply keeps_ite
    | with_reducible apply keeps_protocolViolation
    | with_reducible apply keeps_setPair
    | with_reducible apply keeps_set
    | with_reducible apply keeps_reach
    | with_reducible apply keeps_refuseLink
    | with_reducible apply keeps_onLink
    | with_reducible apply keeps_identified
    | split
    | (with_reducible apply keeps_update; first | assumption | with_reducible apply keeps_protocolViolation | with_reducible apply keeps_setPair | with_reducible apply keeps_set | with_reducible apply keeps_reach | with_reducible apply keeps_refuseLink | with_reducible apply keeps_onLink | with_reducible apply keeps_identified)

theorem keeps_execIdent (die : DieNo) (link : LinkNo) (ident : Ident) (s : State) : KeepsOut s (execIdent die link ident s) := by
  have hk := Keeps.refl s
  unfold execIdent
  repeat' first
    | with_reducible assumption
    | with_reducible apply keepsOut_next
    | with_reducible apply keeps_takeIdent

theorem keeps_hearIdent {s : State} {d : Nat} {l : Nat} {ident : Ident} (hk : Keeps s0 s) : Keeps s0 (State.hearIdent s d l ident) := by
  unfold State.hearIdent
  repeat' first
    | ((try lift_lets -underBinder); intro x; refine Keeps.cut (s0 := s0) x ?_ ?_ <;> [unfold x; (intro hx; clear_value x)])
    | ((try lift_lets -underBinder); intro x; clear_value x)
    | (with_reducible intro _)
    | with_reducible assumption
    | with_reducible apply keeps_ite
    | with_reducible apply keeps_onLink
    | with_reducible apply keeps_takeIdent
    | (with_reducible apply keeps_update; first | assumption | with_reducible apply keeps_onLink | with_reducible apply keeps_takeIdent)

theorem keeps_takeIdentOk {s : State} {d : Nat} {l : Nat} (hk : Keeps s0 s) : Keeps s0 (State.takeIdentOk s d l) := by
  unfold State.takeIdentOk
  repeat' first
    | (with_reducible intro _)
    | with_reducible assumption
    | with_reducible apply keeps_ite
    | with_reducible apply keeps_onLink
    | with_reducible apply keeps_identified
    | (with_reducible apply keeps_update; first | assumption | with_reducible apply keeps_onLink | with_reducible apply keeps_identified)

theorem keeps_execIdentOk (die : DieNo) (link : LinkNo) (s : State) : KeepsOut s (execIdentOk die link s) := by
  have hk := Keeps.refl s
  unfold execIdentOk
  repeat' first
    | with_reducible assumption
    | with_reducible apply keepsOut_next
    | with_reducible apply keeps_takeIdentOk

theorem keeps_takeRefuse {s : State} {d : Nat} {l : Nat} (hk : Keeps s0 s) : Keeps s0 (State.takeRefuse s d l) := by
  unfold State.takeRefuse
  repeat' first
    | with_reducible assumption
    | with_reducible apply keeps_ite
    | with_reducible apply keeps_refuseLink

theorem keeps_execRefuse (die : DieNo) (link : LinkNo) (_code : BitVec 8) (s : State) : KeepsOut s (execRefuse die link _code s) := by
  have hk := Keeps.refl s
  unfold execRefuse
  repeat' first
    | with_reducible assumption
    | with_reducible apply keepsOut_next
    | with_reducible apply keeps_takeRefuse

theorem keeps_takeProbe {s : State} {d : Nat} {l : Nat} {stamp : BitVec 64} {turnaround : BitVec 32} (hk : Keeps s0 s) : Keeps s0 (State.takeProbe s d l stamp turnaround) := by
  unfold State.takeProbe
  repeat' first
    | (with_reducible intro _)
    | with_reducible assumption
    | with_reducible apply keeps_ite
    | with_reducible apply keeps_onLink
    | (with_reducible apply keeps_update; first | assumption | with_reducible apply keeps_onLink)

theorem keeps_execDelayReq (die : DieNo) (link : LinkNo) (stamp : BitVec 64) (turnaround : BitVec 32) (s : State) : KeepsOut s (execDelayReq die link stamp turnaround s) := by
  have hk := Keeps.refl s
  unfold execDelayReq
  repeat' first
    | with_reducible assumption
    | with_reducible apply keepsOut_next
    | with_reducible apply keeps_takeProbe

theorem keeps_takeReply {s : State} {d : Nat} {l : Nat} {stamp : BitVec 64} {turnaround : BitVec 32} {time : BitVec 64} (hk : Keeps s0 s) : Keeps s0 (State.takeReply s d l stamp turnaround time) := by
  unfold State.takeReply
  repeat' first
    | (with_reducible intro _)
    | with_reducible assumption
    | with_reducible apply keeps_ite
    | with_reducible apply keeps_onLink
    | (with_reducible apply keeps_update; first | assumption | with_reducible apply keeps_onLink)

theorem keeps_execDelayRsp (die : DieNo) (link : LinkNo) (stamp : BitVec 64) (turnaround : BitVec 32) (time : BitVec 64) (s : State) : KeepsOut s (execDelayRsp die link stamp turnaround time s) := by
  have hk := Keeps.refl s
  unfold execDelayRsp
  repeat' first
    | with_reducible assumption
    | with_reducible apply keepsOut_next
    | with_reducible apply keeps_takeReply

theorem keeps_execDelayDone (die : DieNo) (link : LinkNo) (s : State) : KeepsOut s (execDelayDone die link s) := by
  have hk := Keeps.refl s
  unfold execDelayDone
  repeat' first
    | ((try lift_lets -underBinder); intro x; refine Keeps.cut (s0 := s) x ?_ ?_ <;> [unfold x; (intro hx; clear_value x)])
    | ((try lift_lets -underBinder); intro x; clear_value x)
    | with_reducible assumption
    | with_reducible apply keepsOut_next
    | with_reducible apply keepsOut_ite
    | with_reducible apply keeps_ite
    | with_reducible apply keeps_toLink
    | with_reducible apply keeps_set
    | with_reducible apply keeps_useFree

theorem keeps_execBeatLockDone (die : DieNo) (link : LinkNo) (s : State) : KeepsOut s (execBeatLockDone die link s) := by
  have hk := Keeps.refl s
  unfold execBeatLockDone
  repeat' first
    | ((try lift_lets -underBinder); intro x; refine Keeps.cut (s0 := s) x ?_ ?_ <;> [unfold x; (intro hx; clear_value x)])
    | ((try lift_lets -underBinder); intro x; clear_value x)
    | (with_reducible intro _)
    | with_reducible assumption
    | with_reducible apply keepsOut_next
    | with_reducible apply keepsOut_ite
    | with_reducible apply keeps_ite
    | with_reducible apply keeps_set
    | with_reducible apply keeps_linkUp
    | with_reducible apply keeps_agree
    | with_reducible apply keeps_refuseLink

theorem keeps_execTrainTimeout (die : DieNo) (link : LinkNo) (s : State) : KeepsOut s (execTrainTimeout die link s) := by
  have hk := Keeps.refl s
  unfold execTrainTimeout
  repeat' first
    | ((try lift_lets -underBinder); intro x; refine Keeps.cut (s0 := s) x ?_ ?_ <;> [unfold x; (intro hx; clear_value x)])
    | ((try lift_lets -underBinder); intro x; clear_value x)
    | (with_reducible intro _)
    | with_reducible assumption
    | with_reducible apply keepsOut_next
    | with_reducible apply keepsOut_ite
    | with_reducible apply keeps_ite
    | with_reducible apply keeps_count
    | with_reducible apply keeps_dieEvent
    | with_reducible apply keeps_toLink
    | with_reducible apply keeps_onLink
    | split
    | (with_reducible apply keeps_update; first | assumption | with_reducible apply keeps_count | with_reducible apply keeps_dieEvent | with_reducible apply keeps_toLink | with_reducible apply keeps_onLink)

theorem keeps_execTrainRetry (die : DieNo) (link : LinkNo) (s : State) : KeepsOut s (execTrainRetry die link s) := by
  have hk := Keeps.refl s
  unfold execTrainRetry
  repeat' first
    | ((try lift_lets -underBinder); intro x; clear_value x)
    | with_reducible assumption
    | with_reducible apply keepsOut_next
    | with_reducible apply keepsOut_ite
    | with_reducible apply keeps_ite
    | with_reducible apply keeps_toDetect

theorem keeps_takeInfo {s : State} {d : Nat} {l : Nat} {depth : Nat} {parent : Bool} (hk : Keeps s0 s) : Keeps s0 (State.takeInfo s d l depth parent) := by
  unfold State.takeInfo
  repeat' first
    | ((try lift_lets -underBinder); intro x; refine Keeps.cut (s0 := s0) x ?_ ?_ <;> [unfold x; (intro hx; clear_value x)])
    | ((try lift_lets -underBinder); intro x; clear_value x)
    | (with_reducible intro _)
    | with_reducible assumption
    | with_reducible apply keeps_ite
    | with_reducible apply keeps_onLink
    | with_reducible apply keeps_setChild
    | with_reducible apply keeps_takeDepth
    | with_reducible apply keeps_agree
    | (with_reducible apply keeps_update; first | assumption | with_reducible apply keeps_onLink | with_reducible apply keeps_setChild | with_reducible apply keeps_takeDepth | with_reducible apply keeps_agree)

theorem keeps_execBeatInfo (die : DieNo) (link : LinkNo) (depth : BitVec 8) (parent : Bool) (s : State) : KeepsOut s (execBeatInfo die link depth parent s) := by
  have hk := Keeps.refl s
  unfold execBeatInfo
  repeat' first
    | with_reducible assumption
    | with_reducible apply keepsOut_next
    | with_reducible apply keeps_takeInfo

theorem keeps_nakSlot {s : State} {d : Nat} {l : Nat} {beat : Nat} {slot : Nat} (hk : Keeps s0 s) : Keeps s0 (State.nakSlot s d l beat slot) := by
  unfold State.nakSlot
  repeat' first
    | ((try lift_lets -underBinder); intro x; refine Keeps.cut (s0 := s0) x ?_ ?_ <;> [unfold x; (intro hx; clear_value x)])
    | ((try lift_lets -underBinder); intro x; clear_value x)
    | (with_reducible intro _)
    | with_reducible assumption
    | with_reducible apply keeps_ite
    | with_reducible apply keeps_onSlink
    | with_reducible apply keeps_setStream
    | (with_reducible apply keeps_update; first | assumption | with_reducible apply keeps_onSlink | with_reducible apply keeps_setStream)

theorem keeps_correctedSymbols {s : State} {d : Nat} {l : Nat} {n : Nat} (hk : Keeps s0 s) : Keeps s0 (State.correctedSymbols s d l n) := by
  unfold State.correctedSymbols
  repeat' first
    | ((try lift_lets -underBinder); intro x; clear_value x)
    | (with_reducible intro _)
    | with_reducible assumption
    | with_reducible apply keeps_ite
    | with_reducible apply keeps_dieEvent
    | with_reducible apply keeps_pageEvent
    | with_reducible apply keeps_onLink

theorem keeps_parentError {s : State} {d : Nat} {l : Nat} {e : Int} (hk : Keeps s0 s) : Keeps s0 (State.parentError s d l e) := by
  unfold State.parentError
  repeat' first
    | ((try lift_lets -underBinder); intro x; refine Keeps.cut (s0 := s0) x ?_ ?_ <;> [unfold x; (intro hx; clear_value x)])
    | ((try lift_lets -underBinder); intro x; clear_value x)
    | (with_reducible intro _)
    | with_reducible assumption
    | with_reducible apply keeps_ite
    | with_reducible apply keeps_useFree
    | with_reducible apply keeps_onLink
    | with_reducible apply keeps_set
    | with_reducible apply keeps_dieEvent
    | with_reducible apply keeps_protocolViolation
    | with_reducible apply keeps_agree
    | (with_reducible apply keeps_update; first | assumption | with_reducible apply keeps_useFree | with_reducible apply keeps_onLink | with_reducible apply keeps_set | with_reducible apply keeps_dieEvent | with_reducible apply keeps_protocolViolation | with_reducible apply keeps_agree)

theorem keeps_takeMarker {s : State} {d : Nat} {l : Nat} {beat : Nat} {phase : Nat} {stepped : Bool} {locked : Bool} {arrival : Int} (hk : Keeps s0 s) : Keeps s0 (State.takeMarker s d l beat phase stepped locked arrival) := by
  unfold State.takeMarker
  repeat' first
    | ((try lift_lets -underBinder); intro x; refine Keeps.cut (s0 := s0) x ?_ ?_ <;> [unfold x; (intro hx; clear_value x)])
    | ((try lift_lets -underBinder); intro x; clear_value x)
    | (with_reducible intro _)
    | with_reducible assumption
    | with_reducible apply keeps_ite
    | with_reducible apply keeps_protocolViolation
    | with_reducible apply keeps_onLink
    | with_reducible apply keeps_parentError
    | split
    | (with_reducible apply keeps_update; first | assumption | with_reducible apply keeps_protocolViolation | with_reducible apply keeps_onLink | with_reducible apply keeps_parentError)

theorem keeps_execBeatMarker (die : DieNo) (link : LinkNo) (beat : BitVec 56) (phase : BitVec 8) (stepped : Bool) (locked : Bool) (arrival : BitVec 64) (s : State) : KeepsOut s (execBeatMarker die link beat phase stepped locked arrival s) := by
  have hk := Keeps.refl s
  unfold execBeatMarker
  repeat' first
    | with_reducible assumption
    | with_reducible apply keepsOut_next
    | with_reducible apply keeps_takeMarker

theorem keeps_abortCleared {s : State} {d : Nat} (hk : Keeps s0 s) : Keeps s0 (State.abortCleared s d) := by
  unfold State.abortCleared
  repeat' first
    | ((try lift_lets -underBinder); intro x; refine Keeps.cut (s0 := s0) x ?_ ?_ <;> [unfold x; (intro hx; clear_value x)])
    | ((try lift_lets -underBinder); intro x; clear_value x)
    | (with_reducible intro _)
    | with_reducible assumption
    | with_reducible apply keeps_ite
    | with_reducible apply keeps_foldl
    | with_reducible apply keeps_completeXfer
    | with_reducible apply keeps_setStream
    | with_reducible apply keeps_serveStarts
    | (with_reducible apply keeps_update; first | assumption | with_reducible apply keeps_foldl | with_reducible apply keeps_completeXfer | with_reducible apply keeps_setStream | with_reducible apply keeps_serveStarts)

theorem keeps_step {s : State} {d : Nat} {p : Nat} {e : Int} (hk : Keeps s0 s) : Keeps s0 (State.step s d p e) := by
  unfold State.step
  repeat' first
    | ((try lift_lets -underBinder); intro x; refine Keeps.cut (s0 := s0) x ?_ ?_ <;> [unfold x; (intro hx; clear_value x)])
    | ((try lift_lets -underBinder); intro x; clear_value x)
    | (with_reducible intro _)
    | with_reducible assumption
    | with_reducible apply keeps_useFree
    | with_reducible apply keeps_setPair
    | with_reducible apply keeps_set
    | with_reducible apply keeps_onLink
    | with_reducible apply keeps_each
    | (with_reducible apply keeps_update; first | assumption | with_reducible apply keeps_useFree | with_reducible apply keeps_setPair | with_reducible apply keeps_set | with_reducible apply keeps_onLink | with_reducible apply keeps_each)

theorem keeps_slip {s : State} {d : Nat} {p : Nat} {longer : Bool} (hk : Keeps s0 s) : Keeps s0 (State.slip s d p longer) := by
  unfold State.slip
  repeat' first
    | ((try lift_lets -underBinder); intro x; refine Keeps.cut (s0 := s0) x ?_ ?_ <;> [unfold x; (intro hx; clear_value x)])
    | ((try lift_lets -underBinder); intro x; clear_value x)
    | (with_reducible intro _)
    | with_reducible assumption
    | with_reducible apply keeps_ite
    | with_reducible apply keeps_onLink
    | with_reducible apply keeps_count
    | with_reducible apply keeps_set
    | (with_reducible apply keeps_update; first | assumption | with_reducible apply keeps_onLink | with_reducible apply keeps_count | with_reducible apply keeps_set)

theorem keeps_beatOnLinks {s : State} {d : Nat} (hk : Keeps s0 s) : Keeps s0 (State.beatOnLinks s d) := by
  unfold State.beatOnLinks
  repeat' first
    | (with_reducible intro _)
    | with_reducible assumption
    | with_reducible apply keeps_onDie
    | (with_reducible apply keeps_update; first | assumption | with_reducible apply keeps_onDie)

theorem keeps_execBeatBoundary (die : DieNo) (s : State) : KeepsOut s (execBeatBoundary die s) := by
  have hk := Keeps.refl s
  unfold execBeatBoundary
  repeat' first
    | ((try lift_lets -underBinder); intro x; refine Keeps.cut (s0 := s) x ?_ ?_ <;> [unfold x; (intro hx; clear_value x)])
    | ((try lift_lets -underBinder); intro x; clear_value x)
    | (with_reducible intro _)
    | with_reducible assumption
    | with_reducible apply keepsOut_next
    | with_reducible apply keepsOut_ite
    | with_reducible apply keeps_ite
    | with_reducible apply keeps_setPair
    | with_reducible apply keeps_step
    | with_reducible apply keeps_slip
    | with_reducible apply keeps_set
    | with_reducible apply keeps_onDie
    | with_reducible apply keeps_abortCleared
    | with_reducible apply keeps_beatOnLinks
    | with_reducible apply keeps_agree
    | split
    | (with_reducible apply keeps_update; first | assumption | with_reducible apply keeps_setPair | with_reducible apply keeps_step | with_reducible apply keeps_slip | with_reducible apply keeps_set | with_reducible apply keeps_onDie | with_reducible apply keeps_abortCleared | with_reducible apply keeps_beatOnLinks | with_reducible apply keeps_agree)

theorem keeps_takeReady {s : State} {d : Nat} {l : Nat} {k : Nat} (hk : Keeps s0 s) : Keeps s0 (State.takeReady s d l k) := by
  unfold State.takeReady
  repeat' first
    | (with_reducible intro _)
    | with_reducible assumption
    | with_reducible apply keeps_ite
    | with_reducible apply keeps_protocolViolation
    | with_reducible apply keeps_onLink
    | with_reducible apply keeps_agree
    | (with_reducible apply keeps_update; first | assumption | with_reducible apply keeps_protocolViolation | with_reducible apply keeps_onLink | with_reducible apply keeps_agree)

theorem keeps_execReady (die : DieNo) (link : LinkNo) (k : BitVec 32) (s : State) : KeepsOut s (execReady die link k s) := by
  have hk := Keeps.refl s
  unfold execReady
  repeat' first
    | with_reducible assumption
    | with_reducible apply keepsOut_next
    | with_reducible apply keeps_takeReady

theorem keeps_hearRelease {s : State} {d : Nat} {l : Nat} {k : Nat} {beat : Nat} (hk : Keeps s0 s) : Keeps s0 (State.hearRelease s d l k beat) := by
  unfold State.hearRelease
  repeat' first
    | with_reducible assumption
    | with_reducible apply keeps_ite
    | with_reducible apply keeps_protocolViolation
    | with_reducible apply keeps_takeRelease

theorem keeps_execRelease (die : DieNo) (link : LinkNo) (k : BitVec 32) (beat : BitVec 56) (s : State) : KeepsOut s (execRelease die link k beat s) := by
  have hk := Keeps.refl s
  unfold execRelease
  repeat' first
    | with_reducible assumption
    | with_reducible apply keepsOut_next
    | with_reducible apply keeps_hearRelease

theorem keeps_execReleaseTimeout (die : DieNo) (s : State) : KeepsOut s (execReleaseTimeout die s) := by
  have hk := Keeps.refl s
  unfold execReleaseTimeout
  repeat' first
    | ((try lift_lets -underBinder); intro x; clear_value x)
    | with_reducible assumption
    | with_reducible apply keepsOut_next
    | with_reducible apply keepsOut_ite
    | with_reducible apply keeps_ite
    | with_reducible apply keeps_contextFault
    | with_reducible apply keeps_dieEvent

theorem keeps_execLos (die : DieNo) (link : LinkNo) (s : State) : KeepsOut s (execLos die link s) := by
  have hk := Keeps.refl s
  unfold execLos
  repeat' first
    | with_reducible assumption
    | with_reducible apply keepsOut_next
    | with_reducible apply keepsOut_ite
    | with_reducible apply keeps_ite
    | with_reducible apply keeps_loseLink

theorem keeps_execFecUnlock (die : DieNo) (link : LinkNo) (s : State) : KeepsOut s (execFecUnlock die link s) := by
  have hk := Keeps.refl s
  unfold execFecUnlock
  repeat' first
    | with_reducible assumption
    | with_reducible apply keepsOut_next
    | with_reducible apply keepsOut_ite
    | with_reducible apply keeps_ite
    | with_reducible apply keeps_loseLink

theorem keeps_execMarkerMiss (die : DieNo) (link : LinkNo) (s : State) : KeepsOut s (execMarkerMiss die link s) := by
  have hk := Keeps.refl s
  unfold execMarkerMiss
  repeat' first
    | with_reducible assumption
    | with_reducible apply keepsOut_next
    | with_reducible apply keepsOut_ite
    | with_reducible apply keeps_ite
    | with_reducible apply keeps_loseLink

theorem keeps_execPeerDown (die : DieNo) (link : LinkNo) (s : State) : KeepsOut s (execPeerDown die link s) := by
  have hk := Keeps.refl s
  unfold execPeerDown
  repeat' first
    | with_reducible assumption
    | with_reducible apply keepsOut_next
    | with_reducible apply keepsOut_ite
    | with_reducible apply keeps_ite
    | with_reducible apply keeps_loseLink

theorem keeps_execPeerIsolated (die : DieNo) (link : LinkNo) (s : State) : KeepsOut s (execPeerIsolated die link s) := by
  have hk := Keeps.refl s
  unfold execPeerIsolated
  repeat' first
    | with_reducible assumption
    | with_reducible apply keepsOut_next
    | with_reducible apply keepsOut_ite
    | with_reducible apply keeps_ite
    | with_reducible apply keeps_loseLink

theorem keeps_execAutoRetrain (die : DieNo) (link : LinkNo) (s : State) : KeepsOut s (execAutoRetrain die link s) := by
  have hk := Keeps.refl s
  unfold execAutoRetrain
  repeat' first
    | ((try lift_lets -underBinder); intro x; clear_value x)
    | with_reducible assumption
    | with_reducible apply keepsOut_next
    | with_reducible apply keepsOut_ite
    | with_reducible apply keeps_ite
    | with_reducible apply keeps_toDetect

theorem keeps_hearFenced {s : State} {d : Nat} {l : Nat} (hk : Keeps s0 s) : Keeps s0 (State.hearFenced s d l) := by
  unfold State.hearFenced
  repeat' first
    | ((try lift_lets -underBinder); intro x; refine Keeps.cut (s0 := s0) x ?_ ?_ <;> [unfold x; (intro hx; clear_value x)])
    | ((try lift_lets -underBinder); intro x; clear_value x)
    | (with_reducible intro _)
    | with_reducible assumption
    | with_reducible apply keeps_ite
    | with_reducible apply keeps_dieEvent
    | with_reducible apply keeps_toLink

theorem keeps_execPeerFenced (die : DieNo) (link : LinkNo) (s : State) : KeepsOut s (execPeerFenced die link s) := by
  have hk := Keeps.refl s
  unfold execPeerFenced
  repeat' first
    | with_reducible assumption
    | with_reducible apply keepsOut_next
    | with_reducible apply keeps_hearFenced

theorem keeps_endPeerFenced {s : State} {d : Nat} {l : Nat} (hk : Keeps s0 s) : Keeps s0 (State.endPeerFenced s d l) := by
  unfold State.endPeerFenced
  repeat' first
    | with_reducible assumption
    | with_reducible apply keeps_ite
    | with_reducible apply keeps_toDetect

theorem keeps_execPeerFencedEnd (die : DieNo) (link : LinkNo) (s : State) : KeepsOut s (execPeerFencedEnd die link s) := by
  have hk := Keeps.refl s
  unfold execPeerFencedEnd
  repeat' first
    | with_reducible assumption
    | with_reducible apply keepsOut_next
    | with_reducible apply keeps_endPeerFenced

theorem keeps_takeFragment {s : State} {d : Nat} {l : Nat} {fragment : Nat} {seq : Nat} {words : List Nat} (hk : Keeps s0 s) : Keeps s0 (State.takeFragment s d l fragment seq words) := by
  unfold State.takeFragment
  repeat' first
    | ((try lift_lets -underBinder); intro x; refine Keeps.cut (s0 := s0) x ?_ ?_ <;> [unfold x; (intro hx; clear_value x)])
    | ((try lift_lets -underBinder); intro x; clear_value x)
    | (with_reducible intro _)
    | with_reducible assumption
    | with_reducible apply keepsSnd_mk
    | with_reducible apply keepsFst_mk
    | with_reducible apply keepsFst_ite
    | with_reducible apply keepsSnd_ite
    | with_reducible apply keeps_ite
    | with_reducible apply keeps_protocolViolation
    | with_reducible apply keeps_onDie
    | with_reducible apply keeps_ringFault
    | split
    | (with_reducible apply keeps_update; first | assumption | with_reducible apply keeps_protocolViolation | with_reducible apply keeps_onDie | with_reducible apply keeps_ringFault)

theorem keeps_execFaultFwd (die : DieNo) (link : LinkNo) (fragment : Fin 4) (seq : BitVec 6) (words : List (BitVec 32)) (s : State) : KeepsOut s (execFaultFwd die link fragment seq words s) := by
  have hk := Keeps.refl s
  unfold execFaultFwd
  repeat' first
    | with_reducible assumption
    | with_reducible apply keepsOut_next
    | with_reducible apply keeps_takeFragment

theorem keeps_execFaultFwdTimeout (src : DieNo) (seq : BitVec 6) (s : State) : KeepsOut s (execFaultFwdTimeout src seq s) := by
  have hk := Keeps.refl s
  unfold execFaultFwdTimeout
  repeat' first
    | ((try lift_lets -underBinder); intro x; refine Keeps.cut (s0 := s) x ?_ ?_ <;> [unfold x; (intro hx; clear_value x)])
    | ((try lift_lets -underBinder); intro x; clear_value x)
    | (with_reducible intro _)
    | with_reducible assumption
    | with_reducible apply keepsOut_next
    | with_reducible apply keepsOut_ite
    | with_reducible apply keeps_ite
    | with_reducible apply keeps_onDie
    | with_reducible apply keeps_popForwarded
    | with_reducible apply keeps_count

end Sys2Proof.Machine
end

