-- ==== Sys2Proof/Laws/KeepsStreams.lean ====
section
/-! SUPPORT. What the operations and meanings of Machine/Streams.lean keep (Laws/Keeps.lean). -/

namespace Sys2Proof.Machine

variable {s0 : State}

theorem keeps_execSdescWrite (req : Requester) (die : DieNo) (s : State) : KeepsOut s (execSdescWrite req die s) := by
  have hk := Keeps.refl s
  unfold execSdescWrite
  repeat' first
    | ((try lift_lets -underBinder); intro x; refine Keeps.cut (s0 := s) x ?_ ?_ <;> [unfold x; (intro hx; clear_value x)])
    | ((try lift_lets -underBinder); intro x; clear_value x)
    | (with_reducible intro _)
    | with_reducible assumption
    | with_reducible apply keepsOut_next
    | with_reducible apply keepsOut_ite
    | with_reducible apply keeps_ite
    | with_reducible apply keeps_onWrite
    | with_reducible apply keeps_set
    | with_reducible apply keeps_put
    | with_reducible apply keeps_regFault
    | with_reducible apply keeps_onDie
    | with_reducible apply keeps_setStream
    | with_reducible apply keeps_endXfers
    | with_reducible apply keeps_serveStarts

theorem keeps_execSdescRead (req : Requester) (die : DieNo) (s : State) : KeepsOut s (execSdescRead req die s) := by
  have hk := Keeps.refl s
  unfold execSdescRead
  repeat' first
    | ((try lift_lets -underBinder); intro x; clear_value x)
    | (with_reducible intro _)
    | with_reducible assumption
    | with_reducible apply keepsOut_next
    | with_reducible apply keeps_onWrite
    | with_reducible apply keeps_set
    | with_reducible apply keeps_each

theorem keeps_execPostId (req : Requester) (die : DieNo) (id : BitVec 16) (s : State) : KeepsOut s (execPostId req die id s) := by
  have hk := Keeps.refl s
  unfold execPostId
  repeat' first
    | ((try lift_lets -underBinder); intro x; clear_value x)
    | (with_reducible intro _)
    | with_reducible assumption
    | with_reducible apply keepsOut_next
    | with_reducible apply keepsOut_ite
    | with_reducible apply keeps_ite
    | with_reducible apply keeps_onWrite
    | with_reducible apply keeps_regFault
    | with_reducible apply keeps_askStart

theorem keeps_onXfer {s : State} {d : Nat} {id : Nat} {seq : Nat} {f : Xfer → Xfer} (hk : Keeps s0 s) : Keeps s0 (State.onXfer s d id seq f) := by
  unfold State.onXfer
  repeat' first
    | ((try lift_lets -underBinder); intro x; refine Keeps.cut (s0 := s0) x ?_ ?_ <;> [unfold x; (intro hx; clear_value x)])
    | ((try lift_lets -underBinder); intro x; clear_value x)
    | (with_reducible intro _)
    | with_reducible assumption
    | with_reducible apply keeps_ite
    | with_reducible apply hf
    | with_reducible apply keeps_setStream
    | (with_reducible apply keeps_update; first | assumption | with_reducible apply keeps_setStream)

theorem keeps_noteXfer {s : State} {d : Nat} {id : Nat} {seq : Nat} {st : XferStatus} {rec_ : Nat} (hk : Keeps s0 s) : Keeps s0 (State.noteXfer s d id seq st rec_) := by
  unfold State.noteXfer
  repeat' first
    | (with_reducible intro _)
    | with_reducible assumption
    | with_reducible apply keeps_onXfer
    | (with_reducible apply keeps_update; first | assumption | with_reducible apply keeps_onXfer)

theorem keeps_refuseChunkOf {s : State} {d : Nat} {kind : Nat} {id : Nat} {src : Nat} {t : Xfer} {write : Bool} {a : Nat} {n : Nat} (hk : Keeps s0 s) : Keeps s0 (State.refuseChunkOf s d kind id src t write a n) := by
  unfold State.refuseChunkOf
  repeat' first
    | ((try lift_lets -underBinder); intro x; refine Keeps.cut (s0 := s0) x ?_ ?_ <;> [unfold x; (intro hx; clear_value x)])
    | ((try lift_lets -underBinder); intro x; clear_value x)
    | (with_reducible intro _)
    | with_reducible assumption
    | with_reducible apply keeps_memFaultAgain
    | with_reducible apply keeps_noteXfer
    | with_reducible apply keeps_refuseAccess
    | split

theorem keeps_chunkFaults {s : State} {d : Nat} {id : Nat} {t : Xfer} {a : Nat} {n : Nat} {bad : List Nat} (hk : Keeps s0 s) : Keeps s0 (State.chunkFaults s d id t a n bad) := by
  unfold State.chunkFaults
  repeat' first
    | ((try lift_lets -underBinder); intro x; refine Keeps.cut (s0 := s0) x ?_ ?_ <;> [unfold x; (intro hx; clear_value x)])
    | ((try lift_lets -underBinder); intro x; clear_value x)
    | (with_reducible intro _)
    | with_reducible assumption
    | with_reducible apply keeps_ite
    | with_reducible apply keeps_memFaultAgain
    | with_reducible apply keeps_noteXfer
    | with_reducible apply keeps_memFault
    | split

theorem keeps_readChunk {s : State} {d : Nat} {id : Nat} {c : Nat} {ecc : Ecc} (hk : Keeps s0 s) : KeepsFst s0 (State.readChunk s d id c ecc) := by
  unfold State.readChunk
  repeat' first
    | ((try lift_lets -underBinder); intro x; refine Keeps.cut (s0 := s0) x ?_ ?_ <;> [unfold x; (intro hx; clear_value x)])
    | ((try lift_lets -underBinder); intro x; clear_value x)
    | (with_reducible intro _)
    | with_reducible assumption
    | with_reducible apply keeps_ite
    | with_reducible apply keepsFst_ite
    | with_reducible apply keepsFst_mk
    | with_reducible apply keeps_refuseChunkOf
    | with_reducible apply keeps_eccEffects
    | with_reducible apply keeps_chunkFaults

theorem keeps_creditWaits {s : State} {d : Nat} {l : Nat} (hk : Keeps s0 s) : Keeps s0 (State.creditWaits s d l) := by
  unfold State.creditWaits
  repeat' first
    | (with_reducible intro _)
    | with_reducible assumption
    | with_reducible apply keeps_onSlink
    | (with_reducible apply keeps_update; first | assumption | with_reducible apply keeps_onSlink)

theorem keeps_placeChunk {s : State} {d : Nat} {l : Nat} {slot : Nat} {id : Nat} {c : Nat} {again : Bool} {ecc : Ecc} (hk : Keeps s0 s) : KeepsFst s0 (State.placeChunk s d l slot id c again ecc) := by
  unfold State.placeChunk
  repeat' first
    | ((try lift_lets -underBinder); intro x; refine Keeps.cut (s0 := s0) x ?_ ?_ <;> [unfold x; (intro hx; clear_value x)])
    | ((try lift_lets -underBinder); intro x; refine Keeps.cut_fst (s0 := s0) x ?_ ?_ <;> [unfold x; (intro hx; clear_value x)])
    | ((try lift_lets -underBinder); intro x; refine Keeps.cut_snd (s0 := s0) x ?_ ?_ <;> [unfold x; (intro hx; clear_value x)])
    | ((try lift_lets -underBinder); intro x; clear_value x)
    | (with_reducible intro _)
    | with_reducible assumption
    | with_reducible apply keeps_ite
    | with_reducible apply keepsFst_ite
    | with_reducible apply keepsFst_mk
    | with_reducible apply keeps_readChunk
    | with_reducible apply keeps_setStream
    | with_reducible apply keeps_onSlink
    | with_reducible apply keeps_onXfer
    | with_reducible refine KeepsFst.fst (keeps_readChunk ?_)
    | with_reducible refine KeepsSnd.snd (keeps_readChunk ?_)
    | (with_reducible apply keeps_update; first | assumption | with_reducible apply keeps_setStream | with_reducible apply keeps_onSlink | with_reducible apply keeps_onXfer)

theorem keeps_fillSlot {s : State} {d : Nat} {l : Nat} {slot : Nat} {ecc : Ecc} (hk : Keeps s0 s) : KeepsFst s0 (State.fillSlot s d l slot ecc) := by
  unfold State.fillSlot
  repeat' first
    | ((try lift_lets -underBinder); intro x; refine Keeps.cut (s0 := s0) x ?_ ?_ <;> [unfold x; (intro hx; clear_value x)])
    | ((try lift_lets -underBinder); intro x; refine Keeps.cut_fst (s0 := s0) x ?_ ?_ <;> [unfold x; (intro hx; clear_value x)])
    | ((try lift_lets -underBinder); intro x; refine Keeps.cut_snd (s0 := s0) x ?_ ?_ <;> [unfold x; (intro hx; clear_value x)])
    | ((try lift_lets -underBinder); intro x; clear_value x)
    | (with_reducible intro _)
    | with_reducible assumption
    | with_reducible apply keeps_ite
    | with_reducible apply keepsFst_ite
    | with_reducible apply keepsFst_mk
    | with_reducible apply keeps_creditWaits
    | with_reducible apply keeps_haltStream
    | with_reducible apply keeps_placeChunk
    | (refine KeepsFst.of (keeps_placeChunk ?_) (by assumption))
    | with_reducible refine KeepsFst.fst (keeps_placeChunk ?_)
    | with_reducible refine KeepsSnd.snd (keeps_placeChunk ?_)
    | split

theorem keeps_creditChunk {s : State} {d : Nat} {r : SlotRec} (hk : Keeps s0 s) : Keeps s0 (State.creditChunk s d r) := by
  unfold State.creditChunk
  repeat' first
    | ((try lift_lets -underBinder); intro x; clear_value x)
    | (with_reducible intro _)
    | with_reducible assumption
    | with_reducible apply keeps_ite
    | with_reducible apply keeps_advanceStream
    | with_reducible apply keeps_setStream

theorem keeps_takeCredits {s : State} {d : Nat} {l : Nat} {n : Nat} (hk : Keeps s0 s) : Keeps s0 (State.takeCredits s d l n) := by
  unfold State.takeCredits
  repeat' first
    | ((try lift_lets -underBinder); intro x; refine Keeps.cut (s0 := s0) x ?_ ?_ <;> [unfold x; (intro hx; clear_value x)])
    | ((try lift_lets -underBinder); intro x; clear_value x)
    | (with_reducible intro _)
    | with_reducible assumption
    | with_reducible apply keeps_ite
    | with_reducible apply keeps_creditViolation
    | with_reducible apply keeps_onSlink
    | with_reducible apply keeps_foldl
    | with_reducible apply keeps_creditChunk
    | (with_reducible apply keeps_update; first | assumption | with_reducible apply keeps_creditViolation | with_reducible apply keeps_onSlink | with_reducible apply keeps_foldl | with_reducible apply keeps_creditChunk)

theorem keeps_execCreditReturn (die : DieNo) (link : LinkNo) (credits : BitVec 8) (s : State) : KeepsOut s (execCreditReturn die link credits s) := by
  have hk := Keeps.refl s
  unfold execCreditReturn
  repeat' first
    | with_reducible assumption
    | with_reducible apply keepsOut_next
    | with_reducible apply keeps_takeCredits

theorem keeps_nakChunk {s : State} {d : Nat} {l : Nat} {r : SlotRec} (hk : Keeps s0 s) : Keeps s0 (State.nakChunk s d l r) := by
  unfold State.nakChunk
  repeat' first
    | ((try lift_lets -underBinder); intro x; refine Keeps.cut (s0 := s0) x ?_ ?_ <;> [unfold x; (intro hx; clear_value x)])
    | ((try lift_lets -underBinder); intro x; clear_value x)
    | (with_reducible intro _)
    | with_reducible assumption
    | with_reducible apply keeps_ite
    | with_reducible apply keeps_onSlink
    | with_reducible apply keeps_haltStream
    | with_reducible apply keeps_setStream
    | (with_reducible apply keeps_update; first | assumption | with_reducible apply keeps_onSlink | with_reducible apply keeps_haltStream | with_reducible apply keeps_setStream)

theorem keeps_takeNak {s : State} {d : Nat} {l : Nat} {beat : BitVec 8} {slot : Fin 8} (hk : Keeps s0 s) : Keeps s0 (State.takeNak s d l beat slot) := by
  unfold State.takeNak
  repeat' first
    | ((try lift_lets -underBinder); intro x; refine Keeps.cut (s0 := s0) x ?_ ?_ <;> [unfold x; (intro hx; clear_value x)])
    | ((try lift_lets -underBinder); intro x; clear_value x)
    | (with_reducible intro _)
    | with_reducible assumption
    | with_reducible apply keeps_ite
    | with_reducible apply keeps_onSlink
    | with_reducible apply keeps_creditViolation
    | with_reducible apply keeps_nakChunk
    | split
    | (with_reducible apply keeps_update; first | assumption | with_reducible apply keeps_onSlink | with_reducible apply keeps_creditViolation | with_reducible apply keeps_nakChunk)

theorem keeps_execNak (die : DieNo) (link : LinkNo) (beat : BitVec 8) (slot : Fin 8) (s : State) : KeepsOut s (execNak die link beat slot s) := by
  have hk := Keeps.refl s
  unfold execNak
  repeat' first
    | with_reducible assumption
    | with_reducible apply keepsOut_next
    | with_reducible apply keeps_takeNak

theorem keeps_returnCredit {s : State} {d : Nat} {l : Nat} (hk : Keeps s0 s) : Keeps s0 (State.returnCredit s d l) := by
  unfold State.returnCredit
  repeat' first
    | (with_reducible intro _)
    | with_reducible assumption
    | with_reducible apply keeps_onSlink

theorem keeps_settleAcked {s : State} {d : Nat} {id : Nat} (hk : Keeps s0 s) : Keeps s0 (State.settleAcked s d id) := by
  unfold State.settleAcked
  repeat' first
    | ((try lift_lets -underBinder); intro x; refine Keeps.cut (s0 := s0) x ?_ ?_ <;> [unfold x; (intro hx; clear_value x)])
    | ((try lift_lets -underBinder); intro x; clear_value x)
    | (with_reducible intro _)
    | with_reducible assumption
    | with_reducible apply keeps_setStream
    | with_reducible apply keeps_foldl
    | (with_reducible apply keeps_update; first | assumption | with_reducible apply keeps_setStream | with_reducible apply keeps_foldl)

theorem keeps_takeChunk {s : State} {d : Nat} {l : Nat} {id : Nat} {data : List Byte} (hk : Keeps s0 s) : Keeps s0 (State.takeChunk s d l id data) := by
  unfold State.takeChunk
  repeat' first
    | ((try lift_lets -underBinder); intro x; refine Keeps.cut (s0 := s0) x ?_ ?_ <;> [unfold x; (intro hx; clear_value x)])
    | ((try lift_lets -underBinder); intro x; clear_value x)
    | (with_reducible intro _)
    | with_reducible assumption
    | with_reducible apply keeps_ite
    | with_reducible apply keeps_setStream
    | with_reducible apply keeps_onXfer
    | with_reducible apply keeps_writeBytes
    | with_reducible apply keeps_onSlink
    | with_reducible apply keeps_settleAcked
    | with_reducible apply keeps_refuseChunkOf
    | with_reducible apply keeps_returnCredit
    | with_reducible apply keeps_advanceStream
    | split
    | (with_reducible apply keeps_update; first | assumption | with_reducible apply keeps_setStream | with_reducible apply keeps_onXfer | with_reducible apply keeps_writeBytes | with_reducible apply keeps_onSlink | with_reducible apply keeps_settleAcked | with_reducible apply keeps_refuseChunkOf | with_reducible apply keeps_returnCredit | with_reducible apply keeps_advanceStream)

theorem keeps_arriveChunk {s : State} {d : Nat} {l : Nat} {beat : Nat} {slot : Nat} {id : Nat} {seq : Nat} {data : List Byte} (hk : Keeps s0 s) : Keeps s0 (State.arriveChunk s d l beat slot id seq data) := by
  unfold State.arriveChunk
  repeat' first
    | ((try lift_lets -underBinder); intro x; refine Keeps.cut (s0 := s0) x ?_ ?_ <;> [unfold x; (intro hx; clear_value x)])
    | ((try lift_lets -underBinder); intro x; clear_value x)
    | (with_reducible intro _)
    | with_reducible assumption
    | with_reducible apply keeps_ite
    | with_reducible apply keeps_creditViolation
    | with_reducible apply keeps_returnCredit
    | with_reducible apply keeps_slotViolations
    | with_reducible apply keeps_takeChunk

theorem keeps_execChunkArrival (die : DieNo) (link : LinkNo) (beat : Nat) (slot : Fin 8) (id : BitVec 16) (seq : BitVec 16) (data : List Byte) (s : State) : KeepsOut s (execChunkArrival die link beat slot id seq data s) := by
  have hk := Keeps.refl s
  unfold execChunkArrival
  repeat' first
    | with_reducible assumption
    | with_reducible apply keepsOut_next
    | with_reducible apply keeps_arriveChunk

theorem keeps_execChunkWriteAck (die : DieNo) (link : LinkNo) (s : State) : KeepsOut s (execChunkWriteAck die link s) := by
  have hk := Keeps.refl s
  unfold execChunkWriteAck
  repeat' first
    | ((try lift_lets -underBinder); intro x; refine Keeps.cut (s0 := s) x ?_ ?_ <;> [unfold x; (intro hx; clear_value x)])
    | ((try lift_lets -underBinder); intro x; clear_value x)
    | (with_reducible intro _)
    | with_reducible assumption
    | with_reducible apply keepsOut_next
    | with_reducible apply keepsOut_ite
    | with_reducible apply keeps_ite
    | with_reducible apply keeps_onSlink
    | with_reducible apply keeps_returnCredit
    | with_reducible apply keeps_settleAcked
    | with_reducible apply keeps_advanceStream
    | split
    | (with_reducible apply keeps_update; first | assumption | with_reducible apply keeps_onSlink | with_reducible apply keeps_returnCredit | with_reducible apply keeps_settleAcked | with_reducible apply keeps_advanceStream)

theorem keeps_takeSwitch {s : State} {d : Nat} {l : Nat} {beat : BitVec 32} (hk : Keeps s0 s) : Keeps s0 (State.takeSwitch s d l beat) := by
  unfold State.takeSwitch
  repeat' first
    | (with_reducible intro _)
    | with_reducible assumption
    | with_reducible apply keeps_ite
    | with_reducible apply keeps_onSlink
    | (with_reducible apply keeps_update; first | assumption | with_reducible apply keeps_onSlink)

theorem keeps_execSwitch (die : DieNo) (link : LinkNo) (beat : BitVec 32) (s : State) : KeepsOut s (execSwitch die link beat s) := by
  have hk := Keeps.refl s
  unfold execSwitch
  repeat' first
    | with_reducible assumption
    | with_reducible apply keepsOut_next
    | with_reducible apply keeps_takeSwitch

theorem keeps_execSwitchBeat (die : DieNo) (s : State) : KeepsOut s (execSwitchBeat die s) := by
  have hk := Keeps.refl s
  unfold execSwitchBeat
  repeat' first
    | ((try lift_lets -underBinder); intro x; refine Keeps.cut (s0 := s) x ?_ ?_ <;> [unfold x; (intro hx; clear_value x)])
    | ((try lift_lets -underBinder); intro x; clear_value x)
    | (with_reducible intro _)
    | with_reducible assumption
    | with_reducible apply keepsOut_next
    | with_reducible apply keepsOut_ite
    | with_reducible apply keeps_ite
    | with_reducible apply keeps_takeStretch
    | with_reducible apply keeps_onSlink
    | with_reducible apply keeps_takeSetTable
    | with_reducible apply keeps_endFenced
    | with_reducible apply keeps_set
    | with_reducible apply keeps_each

theorem keeps_execSwitchWaitExpiry (die : DieNo) (link : LinkNo) (s : State) : KeepsOut s (execSwitchWaitExpiry die link s) := by
  have hk := Keeps.refl s
  unfold execSwitchWaitExpiry
  repeat' first
    | ((try lift_lets -underBinder); intro x; clear_value x)
    | (with_reducible intro _)
    | with_reducible assumption
    | with_reducible apply keepsOut_next
    | with_reducible apply keepsOut_ite
    | with_reducible apply keeps_ite
    | with_reducible apply keeps_dieEvent
    | with_reducible apply keeps_onSlink

theorem keeps_takeReadmit {s : State} {d : Nat} {l : Nat} {k : BitVec 32} (hk : Keeps s0 s) : Keeps s0 (State.takeReadmit s d l k) := by
  unfold State.takeReadmit
  repeat' first
    | (with_reducible intro _)
    | with_reducible assumption
    | with_reducible apply keeps_ite
    | with_reducible apply keeps_onSlink
    | (with_reducible apply keeps_update; first | assumption | with_reducible apply keeps_onSlink)

theorem keeps_execReadmit (die : DieNo) (link : LinkNo) (k : BitVec 32) (s : State) : KeepsOut s (execReadmit die link k s) := by
  have hk := Keeps.refl s
  unfold execReadmit
  repeat' first
    | with_reducible assumption
    | with_reducible apply keepsOut_next
    | with_reducible apply keeps_takeReadmit

theorem keeps_drainScq {d : Nat} (n : Nat) : ∀ {s : State}, Keeps s0 s → Keeps s0 (s.drainScq d n) := by
  induction n with
  | zero => intro s h; exact h
  | succ n ih =>
    intro s h
    unfold State.drainScq
    split
    · exact h
    · exact keeps_ite (ih (keeps_putScq (keeps_onDie h))) h

theorem keeps_execScqCons (req : Requester) (die : DieNo) (value : BitVec 16) (s : State) : KeepsOut s (execScqCons req die value s) := by
  have hk := Keeps.refl s
  unfold execScqCons
  repeat' first
    | ((try lift_lets -underBinder); intro x; refine Keeps.cut (s0 := s) x ?_ ?_ <;> [unfold x; (intro hx; clear_value x)])
    | ((try lift_lets -underBinder); intro x; clear_value x)
    | (with_reducible intro _)
    | with_reducible assumption
    | with_reducible apply keepsOut_next
    | with_reducible apply keeps_onWrite
    | with_reducible apply keeps_set
    | with_reducible apply keeps_put
    | with_reducible apply keeps_drainScq
    | with_reducible apply keeps_serveStarts

theorem keeps_execXferTo (die : DieNo) (id : BitVec 16) (s : State) : KeepsOut s (execXferTo die id s) := by
  have hk := Keeps.refl s
  unfold execXferTo
  repeat' first
    | ((try lift_lets -underBinder); intro x; clear_value x)
    | (with_reducible intro _)
    | with_reducible assumption
    | with_reducible apply keepsOut_next
    | with_reducible apply keepsOut_ite
    | with_reducible apply keeps_ite
    | with_reducible apply keeps_haltStream
    | split

theorem keeps_execCreditTo (die : DieNo) (link : LinkNo) (s : State) : KeepsOut s (execCreditTo die link s) := by
  have hk := Keeps.refl s
  unfold execCreditTo
  repeat' first
    | ((try lift_lets -underBinder); intro x; clear_value x)
    | (with_reducible intro _)
    | with_reducible assumption
    | with_reducible apply keepsOut_next
    | with_reducible apply keepsOut_ite
    | with_reducible apply keeps_ite
    | with_reducible apply keeps_creditViolation

theorem keeps_execScqTo (die : DieNo) (s : State) : KeepsOut s (execScqTo die s) := by
  have hk := Keeps.refl s
  unfold execScqTo
  repeat' first
    | ((try lift_lets -underBinder); intro x; clear_value x)
    | (with_reducible intro _)
    | with_reducible assumption
    | with_reducible apply keepsOut_next
    | with_reducible apply keepsOut_ite
    | with_reducible apply keeps_ite
    | with_reducible apply keeps_streamFault
    | with_reducible apply keeps_dieEvent
    | split

end Sys2Proof.Machine
end

