-- ==== Sys2Proof/Laws/KeepsCarriage.lean ====
section
/-! SUPPORT. What the operations and meanings of Machine/Carriage.lean keep (Laws/Keeps.lean). -/

namespace Sys2Proof.Machine

variable {s0 : State}

theorem keeps_messageSent {s : State} {d : Nat} {l : Nat} {v : LinkMsg} (hk : Keeps s0 s) : Keeps s0 (State.messageSent s d l v) := by
  unfold State.messageSent
  repeat' first
    | ((try lift_lets -underBinder); intro x; refine Keeps.cut (s0 := s0) x ?_ ?_ <;> [unfold x; (intro hx; clear_value x)])
    | ((try lift_lets -underBinder); intro x; clear_value x)
    | (with_reducible intro _)
    | with_reducible assumption
    | with_reducible apply keeps_ite
    | with_reducible apply keeps_onLink
    | with_reducible apply keeps_onDie
    | with_reducible apply keeps_fwdFill
    | split
    | (with_reducible apply keeps_update; first | assumption | with_reducible apply keeps_onLink | with_reducible apply keeps_onDie | with_reducible apply keeps_fwdFill)

theorem keeps_ccbSent {s : State} {d : Nat} {l : Nat} {c : Ccb} {scrambler : Nat} (hk : Keeps s0 s) : Keeps s0 (State.ccbSent s d l c scrambler) := by
  unfold State.ccbSent
  repeat' first
    | ((try lift_lets -underBinder); intro x; refine Keeps.cut (s0 := s0) x ?_ ?_ <;> [unfold x; (intro hx; clear_value x)])
    | ((try lift_lets -underBinder); intro x; clear_value x)
    | (with_reducible intro _)
    | with_reducible assumption
    | with_reducible apply keeps_ite
    | with_reducible apply keeps_onSlink
    | with_reducible apply keeps_messageSent
    | with_reducible apply keeps_onLink
    | split
    | (with_reducible apply keeps_update; first | assumption | with_reducible apply keeps_onSlink | with_reducible apply keeps_messageSent | with_reducible apply keeps_onLink)

theorem keeps_sendCodeword {s : State} {d : Nat} {l : Nat} {time : BitVec 64} (hk : Keeps s0 s) : Keeps s0 (State.sendCodeword s d l time) := by
  unfold State.sendCodeword
  repeat' first
    | ((try lift_lets -underBinder); intro x; refine Keeps.cut (s0 := s0) x ?_ ?_ <;> [unfold x; (intro hx; clear_value x)])
    | ((try lift_lets -underBinder); intro x; clear_value x)
    | (with_reducible intro _)
    | with_reducible assumption
    | with_reducible apply keeps_ccbSent
    | (with_reducible apply keeps_update; first | assumption | with_reducible apply keeps_ccbSent)

theorem keeps_sendWord {s : State} {d : Nat} {l : Nat} {time : BitVec 64} {w : Nat × Nat} (hk : Keeps s0 s) : Keeps s0 (State.sendWord s d l time w) := by
  unfold State.sendWord
  repeat' first
    | ((try lift_lets -underBinder); intro x; refine Keeps.cut (s0 := s0) x ?_ ?_ <;> [unfold x; (intro hx; clear_value x)])
    | ((try lift_lets -underBinder); intro x; clear_value x)
    | (with_reducible intro _)
    | with_reducible assumption
    | with_reducible apply keeps_ite
    | with_reducible apply keeps_onLink
    | with_reducible apply keeps_sendCodeword
    | (with_reducible apply keeps_update; first | assumption | with_reducible apply keeps_onLink | with_reducible apply keeps_sendCodeword)

theorem keeps_execSlotSend (die : DieNo) (link : LinkNo) (slot : Fin 8) (idle : BitVec 10) (phase : BitVec 8) (time : BitVec 64) (ecc : Ecc) (s : State) : KeepsOut s (execSlotSend die link slot idle phase time ecc s) := by
  have hk := Keeps.refl s
  unfold execSlotSend
  repeat' first
    | ((try lift_lets -underBinder); intro x; refine Keeps.cut (s0 := s) x ?_ ?_ <;> [unfold x; (intro hx; clear_value x)])
    | ((try lift_lets -underBinder); intro x; refine Keeps.cut_fst (s0 := s) x ?_ ?_ <;> [unfold x; (intro hx; clear_value x)])
    | ((try lift_lets -underBinder); intro x; refine Keeps.cut_snd (s0 := s) x ?_ ?_ <;> [unfold x; (intro hx; clear_value x)])
    | ((try lift_lets -underBinder); intro x; clear_value x)
    | (with_reducible intro _)
    | with_reducible assumption
    | with_reducible apply keepsOut_next
    | with_reducible apply keepsOut_ite
    | with_reducible apply keeps_ite
    | with_reducible apply keepsFst_ite
    | with_reducible apply keeps_foldl
    | with_reducible apply keeps_sendWord
    | with_reducible apply keeps_fillSlot
    | with_reducible apply keeps_onLink
    | (refine KeepsFst.of (keeps_fillSlot ?_) (by assumption))
    | with_reducible refine KeepsFst.fst (keeps_fillSlot ?_)
    | with_reducible refine KeepsSnd.snd (keeps_fillSlot ?_)
    | split
    | (with_reducible apply keeps_update; first | assumption | with_reducible apply keeps_foldl | with_reducible apply keeps_sendWord | with_reducible apply keeps_onLink)

theorem keeps_onRx {s : State} {d : Nat} {l : Nat} {f : LinkRx → LinkRx} (hk : Keeps s0 s) : Keeps s0 (State.onRx s d l f) := by
  unfold State.onRx
  repeat' first
    | (with_reducible intro _)
    | with_reducible assumption
    | with_reducible apply hf
    | with_reducible apply keeps_onLink
    | (with_reducible apply keeps_update; first | assumption | with_reducible apply keeps_onLink)

theorem keeps_endSlotRx {s : State} {d : Nat} {l : Nat} {slot : Nat} (hk : Keeps s0 s) : Keeps s0 (State.endSlotRx s d l slot) := by
  unfold State.endSlotRx
  repeat' first
    | ((try lift_lets -underBinder); intro x; refine Keeps.cut (s0 := s0) x ?_ ?_ <;> [unfold x; (intro hx; clear_value x)])
    | ((try lift_lets -underBinder); intro x; clear_value x)
    | (with_reducible intro _)
    | with_reducible assumption
    | with_reducible apply keeps_ite
    | with_reducible apply keeps_arriveChunk
    | with_reducible apply keeps_nakSlot
    | split

theorem keeps_slotWord {s : State} {d : Nat} {l : Nat} {place : Nat} {w : Option (Nat × Nat)} (hk : Keeps s0 s) : Keeps s0 (State.slotWord s d l place w) := by
  unfold State.slotWord
  repeat' first
    | ((try lift_lets -underBinder); intro x; refine Keeps.cut (s0 := s0) x ?_ ?_ <;> [unfold x; (intro hx; clear_value x)])
    | ((try lift_lets -underBinder); intro x; refine Keeps.cut_fun (s0 := s0) x ?_ ?_ <;> [unfold x; (intro hf; clear_value x)])
    | with_reducible apply hf
    | ((try lift_lets -underBinder); intro x; clear_value x)
    | (with_reducible intro _)
    | with_reducible assumption
    | with_reducible apply keeps_ite
    | with_reducible apply keeps_place
    | with_reducible apply keeps_onRx
    | with_reducible apply keeps_slotViolations
    | split
    | (with_reducible apply keeps_update; first | assumption | with_reducible apply keeps_place | with_reducible apply keeps_onRx | with_reducible apply keeps_slotViolations)

theorem keeps_nakSlots {s : State} {d : Nat} {l : Nat} {beat : Nat} {n : Nat} (hk : Keeps s0 s) : Keeps s0 (State.nakSlots s d l beat n) := by
  unfold State.nakSlots
  repeat' first
    | (with_reducible intro _)
    | with_reducible assumption
    | with_reducible apply keeps_each
    | with_reducible apply keeps_nakSlot

theorem keeps_gapWord {s : State} {d : Nat} {l : Nat} {w : Option (Nat × Nat)} (hk : Keeps s0 s) : Keeps s0 (State.gapWord s d l w) := by
  unfold State.gapWord
  repeat' first
    | ((try lift_lets -underBinder); intro x; refine Keeps.cut (s0 := s0) x ?_ ?_ <;> [unfold x; (intro hx; clear_value x)])
    | ((try lift_lets -underBinder); intro x; clear_value x)
    | (with_reducible intro _)
    | with_reducible assumption
    | with_reducible apply keeps_ite
    | with_reducible apply keeps_slotViolations
    | with_reducible apply keeps_nakSlots
    | with_reducible apply keeps_onRx
    | with_reducible apply keeps_place
    | with_reducible apply keeps_slotWord
    | split
    | (with_reducible apply keeps_update; first | assumption | with_reducible apply keeps_slotViolations | with_reducible apply keeps_nakSlots | with_reducible apply keeps_onRx | with_reducible apply keeps_place | with_reducible apply keeps_slotWord)

theorem keeps_beginBeatRx {s : State} {d : Nat} {l : Nat} {m : Marker} (hk : Keeps s0 s) : Keeps s0 (State.beginBeatRx s d l m) := by
  unfold State.beginBeatRx
  repeat' first
    | ((try lift_lets -underBinder); intro x; refine Keeps.cut (s0 := s0) x ?_ ?_ <;> [unfold x; (intro hx; clear_value x)])
    | ((try lift_lets -underBinder); intro x; clear_value x)
    | (with_reducible intro _)
    | with_reducible assumption
    | with_reducible apply keeps_ite
    | with_reducible apply keeps_place
    | with_reducible apply keeps_each
    | with_reducible apply keeps_nakSlots
    | with_reducible apply keeps_onRx
    | (with_reducible apply keeps_update; first | assumption | with_reducible apply keeps_place | with_reducible apply keeps_each | with_reducible apply keeps_nakSlots | with_reducible apply keeps_onRx)

theorem keeps_hearWord {s : State} {d : Nat} {l : Nat} {c : Option (Ccb × List (Nat × Nat))} {i : Nat} (hk : Keeps s0 s) : Keeps s0 (State.hearWord s d l c i) := by
  unfold State.hearWord
  repeat' first
    | ((try lift_lets -underBinder); intro x; refine Keeps.cut (s0 := s0) x ?_ ?_ <;> [unfold x; (intro hx; clear_value x)])
    | ((try lift_lets -underBinder); intro x; clear_value x)
    | (with_reducible intro _)
    | with_reducible assumption
    | with_reducible apply keeps_ite
    | with_reducible apply keeps_beginBeatRx
    | with_reducible apply keeps_place
    | with_reducible apply keeps_gapWord
    | with_reducible apply keeps_onRx
    | with_reducible apply keeps_slotWord
    | with_reducible apply keeps_endSlotRx
    | split
    | (with_reducible apply keeps_update; first | assumption | with_reducible apply keeps_beginBeatRx | with_reducible apply keeps_place | with_reducible apply keeps_gapWord | with_reducible apply keeps_onRx | with_reducible apply keeps_slotWord | with_reducible apply keeps_endSlotRx)

theorem keeps_hearWords {s : State} {d : Nat} {l : Nat} {c : Option (Ccb × List (Nat × Nat))} (hk : Keeps s0 s) : Keeps s0 (State.hearWords s d l c) := by
  unfold State.hearWords
  repeat' first
    | ((try lift_lets -underBinder); intro x; refine Keeps.cut (s0 := s0) x ?_ ?_ <;> [unfold x; (intro hx; clear_value x)])
    | ((try lift_lets -underBinder); intro x; clear_value x)
    | (with_reducible intro _)
    | with_reducible assumption
    | with_reducible apply keeps_ite
    | with_reducible apply keeps_onRx
    | with_reducible apply keeps_each
    | with_reducible apply keeps_hearWord
    | (with_reducible apply keeps_update; first | assumption | with_reducible apply keeps_onRx | with_reducible apply keeps_each | with_reducible apply keeps_hearWord)

theorem keeps_hearMessage {s : State} {d : Nat} {l : Nat} {w : Codeword} {v : LinkMsg} (hk : Keeps s0 s) : Keeps s0 (State.hearMessage s d l w v) := by
  unfold State.hearMessage
  repeat' first
    | with_reducible assumption
    | with_reducible apply keeps_ite
    | with_reducible apply keeps_hearIdent
    | with_reducible apply keeps_takeIdentOk
    | with_reducible apply keeps_refuse
    | with_reducible apply keeps_takeRefuse
    | with_reducible apply keeps_takeProbe
    | with_reducible apply keeps_takeReply
    | with_reducible apply keeps_takeInfo
    | with_reducible apply keeps_takeReady
    | with_reducible apply keeps_hearRelease
    | with_reducible apply keeps_takeFragment
    | with_reducible apply keeps_protocolViolation
    | split

theorem keeps_hearCcb {s : State} {d : Nat} {l : Nat} {w : Codeword} {c : Ccb} {words : List (Nat × Nat)} (hk : Keeps s0 s) : Keeps s0 (State.hearCcb s d l w c words) := by
  unfold State.hearCcb
  repeat' first
    | ((try lift_lets -underBinder); intro x; refine Keeps.cut (s0 := s0) x ?_ ?_ <;> [unfold x; (intro hx; clear_value x)])
    | ((try lift_lets -underBinder); intro x; clear_value x)
    | (with_reducible intro _)
    | with_reducible assumption
    | with_reducible apply keeps_ite
    | with_reducible apply keeps_hearFenced
    | with_reducible apply keeps_endPeerFenced
    | with_reducible apply keeps_onLink
    | with_reducible apply keeps_takeMarker
    | with_reducible apply keeps_hearWords
    | with_reducible apply keeps_takeCredits
    | with_reducible apply keeps_takeNak
    | with_reducible apply keeps_takeSwitch
    | with_reducible apply keeps_takeReadmit
    | with_reducible apply keeps_hearMessage
    | with_reducible apply keeps_loseLink
    | split
    | (with_reducible apply keeps_update; first | assumption | with_reducible apply keeps_hearFenced | with_reducible apply keeps_endPeerFenced | with_reducible apply keeps_onLink | with_reducible apply keeps_takeMarker | with_reducible apply keeps_hearWords | with_reducible apply keeps_takeCredits | with_reducible apply keeps_takeNak | with_reducible apply keeps_takeSwitch | with_reducible apply keeps_takeReadmit | with_reducible apply keeps_hearMessage | with_reducible apply keeps_loseLink)

theorem keeps_uncorrectable {s : State} {d : Nat} {l : Nat} (hk : Keeps s0 s) : Keeps s0 (State.uncorrectable s d l) := by
  unfold State.uncorrectable
  repeat' first
    | ((try lift_lets -underBinder); intro x; refine Keeps.cut (s0 := s0) x ?_ ?_ <;> [unfold x; (intro hx; clear_value x)])
    | ((try lift_lets -underBinder); intro x; clear_value x)
    | (with_reducible intro _)
    | with_reducible assumption
    | with_reducible apply keeps_ite
    | with_reducible apply keeps_count
    | with_reducible apply keeps_onLink
    | with_reducible apply keeps_isolateLink
    | with_reducible apply keeps_hearWords
    | (with_reducible apply keeps_update; first | assumption | with_reducible apply keeps_count | with_reducible apply keeps_onLink | with_reducible apply keeps_isolateLink | with_reducible apply keeps_hearWords)

theorem keeps_execCodewordReceive (die : DieNo) (link : LinkNo) (word : Codeword) (s : State) : KeepsOut s (execCodewordReceive die link word s) := by
  have hk := Keeps.refl s
  unfold execCodewordReceive
  repeat' first
    | ((try lift_lets -underBinder); intro x; refine Keeps.cut (s0 := s) x ?_ ?_ <;> [unfold x; (intro hx; clear_value x)])
    | ((try lift_lets -underBinder); intro x; clear_value x)
    | (with_reducible intro _)
    | with_reducible assumption
    | with_reducible apply keepsOut_next
    | with_reducible apply keepsOut_ite
    | with_reducible apply keeps_ite
    | with_reducible apply keeps_onRx
    | with_reducible apply keeps_uncorrectable
    | with_reducible apply keeps_onLink
    | with_reducible apply keeps_count
    | with_reducible apply keeps_hearWords
    | with_reducible apply keeps_correctedSymbols
    | with_reducible apply keeps_hearCcb
    | split
    | (with_reducible apply keeps_update; first | assumption | with_reducible apply keeps_onRx | with_reducible apply keeps_uncorrectable | with_reducible apply keeps_onLink | with_reducible apply keeps_count | with_reducible apply keeps_hearWords | with_reducible apply keeps_correctedSymbols | with_reducible apply keeps_hearCcb)

end Sys2Proof.Machine
end

