-- ==== Sys2Proof/Laws/KeepsRuns.lean ====
section
/-! SUPPORT. What the operations and meanings of Machine/Runs.lean keep (Laws/Keeps.lean). -/

namespace Sys2Proof.Machine

variable {s0 : State}

theorem keeps_refuseCtx {s : State} {d : Nat} {r : Reg} {code : Nat} {req : Nat} {value : Nat} (hk : Keeps s0 s) : Keeps s0 (State.refuseCtx s d r code req value) := by
  unfold State.refuseCtx
  repeat' first
    | with_reducible assumption
    | with_reducible apply keeps_regFault
    | with_reducible apply keeps_dieEvent
    | with_reducible apply keeps_set

theorem keeps_execOpenCtx (req : Requester) (die : DieNo) (s : State) : KeepsOut s (execOpenCtx req die s) := by
  have hk := Keeps.refl s
  unfold execOpenCtx
  repeat' first
    | ((try lift_lets -underBinder); intro x; refine Keeps.cut (s0 := s) x ?_ ?_ <;> [unfold x; (intro hx; clear_value x)])
    | ((try lift_lets -underBinder); intro x; clear_value x)
    | (with_reducible intro _)
    | with_reducible assumption
    | with_reducible apply keepsOut_next
    | with_reducible apply keepsOut_ite
    | with_reducible apply keeps_ite
    | with_reducible apply keeps_onWrite
    | with_reducible apply keeps_refuseCtx
    | with_reducible apply keeps_set
    | with_reducible apply keeps_runRegs
    | with_reducible apply keeps_onDie
    | with_reducible apply keeps_toContext
    | with_reducible apply keeps_count

theorem keeps_execServe (req : Requester) (die : DieNo) (s : State) : KeepsOut s (execServe req die s) := by
  have hk := Keeps.refl s
  unfold execServe
  repeat' first
    | ((try lift_lets -underBinder); intro x; clear_value x)
    | (with_reducible intro _)
    | with_reducible assumption
    | with_reducible apply keepsOut_next
    | with_reducible apply keepsOut_ite
    | with_reducible apply keeps_ite
    | with_reducible apply keeps_onWrite
    | with_reducible apply keeps_refuseCtx
    | with_reducible apply keeps_set

theorem keeps_execBayImageLoaded (die : DieNo) (ecc : Ecc) (s : State) : KeepsOut s (execBayImageLoaded die ecc s) := by
  have hk := Keeps.refl s
  unfold execBayImageLoaded
  repeat' first
    | ((try lift_lets -underBinder); intro x; refine Keeps.cut (s0 := s) x ?_ ?_ <;> [unfold x; (intro hx; clear_value x)])
    | ((try lift_lets -underBinder); intro x; clear_value x)
    | (with_reducible intro _)
    | with_reducible assumption
    | with_reducible apply keepsOut_next
    | with_reducible apply keepsOut_ite
    | with_reducible apply keeps_ite
    | with_reducible apply keeps_onDie
    | with_reducible apply keeps_set
    | with_reducible apply keeps_eccEffects
    | with_reducible apply keeps_each
    | with_reducible apply keeps_setBayLine
    | with_reducible apply keeps_bayError
    | with_reducible apply keeps_contextFault
    | with_reducible apply keeps_setPhase
    | with_reducible apply keeps_toContext
    | (with_reducible apply keeps_update; first | assumption | with_reducible apply keeps_onDie | with_reducible apply keeps_set | with_reducible apply keeps_eccEffects | with_reducible apply keeps_each | with_reducible apply keeps_setBayLine | with_reducible apply keeps_bayError | with_reducible apply keeps_contextFault | with_reducible apply keeps_setPhase | with_reducible apply keeps_toContext)

theorem keeps_execDrain (req : Requester) (die : DieNo) (s : State) : KeepsOut s (execDrain req die s) := by
  have hk := Keeps.refl s
  unfold execDrain
  repeat' first
    | ((try lift_lets -underBinder); intro x; refine Keeps.cut (s0 := s) x ?_ ?_ <;> [unfold x; (intro hx; clear_value x)])
    | ((try lift_lets -underBinder); intro x; clear_value x)
    | (with_reducible intro _)
    | with_reducible assumption
    | with_reducible apply keepsOut_next
    | with_reducible apply keepsOut_ite
    | with_reducible apply keeps_ite
    | with_reducible apply keeps_onWrite
    | with_reducible apply keeps_refuseCtx
    | with_reducible apply keeps_toContext
    | with_reducible apply keeps_set
    | with_reducible apply keeps_endRun
    | with_reducible apply keeps_each

theorem keeps_abandonCopies {s : State} {d : Nat} (hk : Keeps s0 s) : Keeps s0 (s.abandonCopies d) :=
  keeps_each _ hk (fun _ _ h => by
    split
    · exact h
    · exact keeps_finishRun h)

theorem keeps_beginClose {s : State} {d : Nat} (hk : Keeps s0 s) : Keeps s0 (State.beginClose s d) := by
  unfold State.beginClose
  repeat' first
    | ((try lift_lets -underBinder); intro x; refine Keeps.cut (s0 := s0) x ?_ ?_ <;> [unfold x; (intro hx; clear_value x)])
    | ((try lift_lets -underBinder); intro x; clear_value x)
    | (with_reducible intro _)
    | with_reducible assumption
    | with_reducible apply keeps_abandonCopies
    | with_reducible apply keeps_setPhase
    | with_reducible apply keeps_set
    | with_reducible apply keeps_onDie
    | with_reducible apply keeps_closeStreams
    | with_reducible apply keeps_count
    | with_reducible apply keeps_runRegs

theorem keeps_execClose (req : Requester) (die : DieNo) (s : State) : KeepsOut s (execClose req die s) := by
  have hk := Keeps.refl s
  unfold execClose
  repeat' first
    | ((try lift_lets -underBinder); intro x; clear_value x)
    | (with_reducible intro _)
    | with_reducible assumption
    | with_reducible apply keepsOut_next
    | with_reducible apply keepsOut_ite
    | with_reducible apply keeps_ite
    | with_reducible apply keeps_onWrite
    | with_reducible apply keeps_beginClose
    | with_reducible apply keeps_refuseCtx

theorem keeps_execCloseDone (die : DieNo) (s : State) : KeepsOut s (execCloseDone die s) := by
  have hk := Keeps.refl s
  unfold execCloseDone
  repeat' first
    | ((try lift_lets -underBinder); intro x; refine Keeps.cut (s0 := s) x ?_ ?_ <;> [unfold x; (intro hx; clear_value x)])
    | ((try lift_lets -underBinder); intro x; clear_value x)
    | (with_reducible intro _)
    | with_reducible assumption
    | with_reducible apply keepsOut_next
    | with_reducible apply keepsOut_ite
    | with_reducible apply keeps_ite
    | with_reducible apply keeps_set
    | with_reducible apply keeps_onDie
    | with_reducible apply keeps_setPair
    | with_reducible apply keeps_toContext
    | with_reducible apply keeps_discardAccepted
    | with_reducible apply keeps_each

theorem keeps_execSubPush (req : Requester) (die : DieNo) (s : State) : KeepsOut s (execSubPush req die s) := by
  have hk := Keeps.refl s
  unfold execSubPush
  repeat' first
    | ((try lift_lets -underBinder); intro x; clear_value x)
    | (with_reducible intro _)
    | with_reducible assumption
    | with_reducible apply keepsOut_next
    | with_reducible apply keepsOut_ite
    | with_reducible apply keeps_ite
    | with_reducible apply keeps_onWrite
    | with_reducible apply keeps_pageEvent
    | with_reducible apply keeps_regFault
    | with_reducible apply keeps_wrap
    | with_reducible apply keeps_storeWords

theorem keeps_execRunTake (die : DieNo) (s : State) : KeepsOut s (execRunTake die s) := by
  have hk := Keeps.refl s
  unfold execRunTake
  repeat' first
    | ((try lift_lets -underBinder); intro x; refine Keeps.cut (s0 := s) x ?_ ?_ <;> [unfold x; (intro hx; clear_value x)])
    | ((try lift_lets -underBinder); intro x; clear_value x)
    | (with_reducible intro _)
    | with_reducible assumption
    | with_reducible apply keepsOut_next
    | with_reducible apply keepsOut_ite
    | with_reducible apply keeps_ite
    | with_reducible apply keeps_wrap
    | with_reducible apply keeps_setRun
    | with_reducible apply keeps_endRun
    | with_reducible apply keeps_dieEvent
    | split

theorem keeps_runCopy {s : State} {d src dst n : Nat} {ecc : Ecc} (hk : Keeps s0 s) : KeepsFst s0 (s.runCopy d src dst n ecc) := by
  unfold State.runCopy
  refine keepsFst_ite ⟨hk⟩ ?_
  extract_lets bad readable r torn q q'
  have hr : Keeps s0 r := keeps_ite (keeps_eccEffects hk) (keeps_refuseAccess hk)
  have hq : Keeps s0 q := keeps_fillBad (keeps_eccEffects hr)
  clear_value r q
  refine keepsFst_ite (keepsFst_mk (keeps_refuseAccess hr)) (keepsFst_ite (keepsFst_mk (keeps_writeBytes _ hq)) (keepsFst_mk ?_))
  exact keeps_each _ (keeps_moveRange hq) (fun s u h => keeps_each _ h (fun s i h => keeps_ite (keeps_setByte h) h))

theorem keeps_execInputCopyDone (die : DieNo) (ecc : Ecc) (s : State) : KeepsOut s (execInputCopyDone die ecc s) := by
  have hk := Keeps.refl s
  unfold execInputCopyDone
  repeat' first
    | ((try lift_lets -underBinder); intro x; refine Keeps.cut (s0 := s) x ?_ ?_ <;> [unfold x; (intro hx; clear_value x)])
    | ((try lift_lets -underBinder); intro x; refine Keeps.cut_fst (s0 := s) x ?_ ?_ <;> [unfold x; (intro hx; clear_value x)])
    | ((try lift_lets -underBinder); intro x; clear_value x)
    | (with_reducible intro _)
    | with_reducible assumption
    | with_reducible apply keepsOut_next
    | with_reducible apply keepsOut_ite
    | with_reducible apply keeps_ite
    | with_reducible apply keeps_runCopy
    | with_reducible apply keeps_onDie
    | with_reducible apply keeps_setRun
    | with_reducible apply keeps_finishRun
    | with_reducible apply keeps_tryReady
    | with_reducible apply keepsFst_ite
    | with_reducible apply keepsFst_mk
    | with_reducible exact (keeps_runCopy ‹_›).of ‹_›
    | with_reducible apply KeepsFst.fst
    | with_reducible apply hf
    | (refine KeepsFst.of (keeps_runCopy ?_) (by assumption))
    | split

theorem keeps_execOutputCopyDone (die : DieNo) (ecc : Ecc) (s : State) : KeepsOut s (execOutputCopyDone die ecc s) := by
  have hk := Keeps.refl s
  unfold execOutputCopyDone
  repeat' first
    | ((try lift_lets -underBinder); intro x; refine Keeps.cut (s0 := s) x ?_ ?_ <;> [unfold x; (intro hx; clear_value x)])
    | ((try lift_lets -underBinder); intro x; refine Keeps.cut_fst (s0 := s) x ?_ ?_ <;> [unfold x; (intro hx; clear_value x)])
    | ((try lift_lets -underBinder); intro x; clear_value x)
    | with_reducible assumption
    | with_reducible apply keepsOut_next
    | with_reducible apply keepsOut_ite
    | with_reducible apply keeps_ite
    | with_reducible apply keeps_runCopy
    | with_reducible apply keeps_tryReady
    | with_reducible apply keeps_finishRun
    | with_reducible apply keeps_beginClose
    | with_reducible apply keepsFst_ite
    | with_reducible apply keepsFst_mk
    | with_reducible exact (keeps_runCopy ‹_›).of ‹_›
    | with_reducible apply KeepsFst.fst
    | (refine KeepsFst.of (keeps_runCopy ?_) (by assumption))
    | split

theorem keeps_execCqCons (req : Requester) (die : DieNo) (value : BitVec 16) (s : State) : KeepsOut s (execCqCons req die value s) := by
  have hk := Keeps.refl s
  unfold execCqCons
  repeat' first
    | ((try lift_lets -underBinder); intro x; clear_value x)
    | (with_reducible intro _)
    | with_reducible assumption
    | with_reducible apply keepsOut_next
    | with_reducible apply keepsOut_ite
    | with_reducible apply keeps_ite
    | with_reducible apply keeps_onWrite
    | with_reducible apply keeps_regFault
    | with_reducible apply keeps_drainRecords
    | with_reducible apply keeps_set

end Sys2Proof.Machine
end

