-- ==== Sys2Proof/Laws/KeepsMailbox.lean ====
section
/-! SUPPORT. What the operations and meanings of Machine/Mailbox.lean keep (Laws/Keeps.lean). -/

namespace Sys2Proof.Machine

variable {s0 : State}

theorem keeps_mbxClaim {s : State} {k : Nat} (hk : Keeps s0 s) : Keeps s0 (State.mbxClaim s k) := by
  unfold State.mbxClaim
  repeat' first
    | ((try lift_lets -underBinder); intro x; refine Keeps.cut (s0 := s0) x ?_ ?_ <;> [unfold x; (intro hx; clear_value x)])
    | ((try lift_lets -underBinder); intro x; clear_value x)
    | (with_reducible intro _)
    | with_reducible assumption
    | with_reducible apply keeps_set
    | with_reducible apply keeps_showWindow
    | split

theorem keeps_execMbxClaim (req : Requester) (core : McNo) (s : State) : KeepsOut s (execMbxClaim req core s) := by
  have hk := Keeps.refl s
  unfold execMbxClaim
  repeat' first
    | (with_reducible intro _)
    | with_reducible assumption
    | with_reducible apply keepsOut_next
    | with_reducible apply keeps_onWrite
    | with_reducible apply keeps_mbxClaim

theorem keeps_slotValid {s : State} {d : Nat} {j : Nat} (hk : Keeps s0 s) : Keeps s0 (State.slotValid s d j) := by
  unfold State.slotValid
  repeat' first
    | ((try lift_lets -underBinder); intro x; refine Keeps.cut (s0 := s0) x ?_ ?_ <;> [unfold x; (intro hx; clear_value x)])
    | with_reducible assumption
    | with_reducible apply keeps_ite
    | with_reducible apply keeps_set
    | with_reducible apply keeps_postResult
    | with_reducible apply keeps_setBit

theorem keeps_mbxSend {s : State} {k : Nat} (hk : Keeps s0 s) : Keeps s0 (State.mbxSend s k) := by
  unfold State.mbxSend
  repeat' first
    | ((try lift_lets -underBinder); intro x; refine Keeps.cut (s0 := s0) x ?_ ?_ <;> [unfold x; (intro hx; clear_value x)])
    | ((try lift_lets -underBinder); intro x; clear_value x)
    | (with_reducible intro _)
    | with_reducible assumption
    | with_reducible apply keeps_ite
    | with_reducible apply keeps_set
    | with_reducible apply keeps_setBit
    | with_reducible apply keeps_devqRegs
    | with_reducible apply keeps_showWindow
    | with_reducible apply keeps_slotValid

theorem keeps_execSend (req : Requester) (core : McNo) (s : State) : KeepsOut s (execSend req core s) := by
  have hk := Keeps.refl s
  unfold execSend
  repeat' first
    | (with_reducible intro _)
    | with_reducible assumption
    | with_reducible apply keepsOut_next
    | with_reducible apply keeps_onWrite
    | with_reducible apply keeps_mbxSend

theorem keeps_mc0Post {s : State} {d : Nat} {kind : Nat} {h : Nat} {param : Nat} {tid : Nat} (hk : Keeps s0 s) : KeepsFst s0 (State.mc0Post s d kind h param tid) := by
  unfold State.mc0Post
  repeat' first
    | ((try lift_lets -underBinder); intro x; refine Keeps.cut (s0 := s0) x ?_ ?_ <;> [unfold x; (intro hx; clear_value x)])
    | with_reducible assumption
    | with_reducible apply keeps_ite
    | with_reducible apply keeps_mbxClaim
    | with_reducible apply keeps_set
    | with_reducible apply keeps_mbxSend
    | with_reducible apply keepsFst_ite
    | with_reducible apply keepsFst_mk

theorem keeps_execMbxRelease (req : Requester) (core : McNo) (s : State) : KeepsOut s (execMbxRelease req core s) := by
  have hk := Keeps.refl s
  unfold execMbxRelease
  repeat' first
    | ((try lift_lets -underBinder); intro x; clear_value x)
    | (with_reducible intro _)
    | with_reducible assumption
    | with_reducible apply keepsOut_next
    | with_reducible apply keepsOut_ite
    | with_reducible apply keeps_ite
    | with_reducible apply keeps_onWrite
    | with_reducible apply keeps_setBit
    | with_reducible apply keeps_freeSlot

theorem keeps_switchPoint {s : State} {d : Nat} {op : Nat} (hk : Keeps s0 s) : Keeps s0 (State.switchPoint s d op) := by
  unfold State.switchPoint
  repeat' first
    | ((try lift_lets -underBinder); intro x; refine Keeps.cut (s0 := s0) x ?_ ?_ <;> [unfold x; (intro hx; clear_value x)])
    | with_reducible assumption
    | with_reducible apply keeps_set

theorem keeps_startIdle {s : State} {d : Nat} {op : Nat} (hk : Keeps s0 s) : Keeps s0 (State.startIdle s d op) := by
  unfold State.startIdle
  repeat' first
    | with_reducible assumption
    | with_reducible apply keeps_ite
    | with_reducible apply keeps_set

theorem keeps_tryDrop {s : State} {d : Nat} (hk : Keeps s0 s) : Keeps s0 (State.tryDrop s d) := by
  unfold State.tryDrop
  repeat' first
    | ((try lift_lets -underBinder); intro x; clear_value x)
    | with_reducible assumption
    | with_reducible apply keeps_ite
    | with_reducible apply keeps_set
    | with_reducible apply keeps_switchPoint

theorem keeps_driveOpsel {s : State} {n : Nat} {op : Nat} {check : Bool} (hk : Keeps s0 s) : Keeps s0 (State.driveOpsel s n op check) := by
  unfold State.driveOpsel
  repeat' first
    | ((try lift_lets -underBinder); intro x; refine Keeps.cut (s0 := s0) x ?_ ?_ <;> [unfold x; (intro hx; clear_value x)])
    | with_reducible assumption
    | with_reducible apply keeps_ite
    | with_reducible apply keeps_set
    | with_reducible apply keeps_put

theorem keeps_revise {s : State} {d : Nat} {j : Nat} (hk : Keeps s0 s) : Keeps s0 (State.revise s d j) := by
  unfold State.revise
  repeat' first
    | ((try lift_lets -underBinder); intro x; refine Keeps.cut (s0 := s0) x ?_ ?_ <;> [unfold x; (intro hx; clear_value x)])
    | with_reducible assumption
    | with_reducible apply keeps_ite
    | with_reducible apply keeps_postResult
    | with_reducible apply keeps_set
    | with_reducible apply keeps_startIdle
    | with_reducible apply keeps_tryDrop
    | with_reducible apply keeps_driveOpsel

theorem keeps_request {s : State} {d : Nat} {j : Nat} {kind : Nat} {bad : Bool} {act : State → State} (hk : Keeps s0 s) (hact : ∀ x0, Keeps s0 x0 → Keeps s0 (act x0)) : Keeps s0 (State.request s d j kind bad act) := by
  unfold State.request
  repeat' first
    | ((try lift_lets -underBinder); intro x; refine Keeps.cut (s0 := s0) x ?_ ?_ <;> [unfold x; (intro hx; clear_value x)])
    | with_reducible assumption
    | with_reducible apply keeps_ite
    | with_reducible apply keeps_setBit
    | with_reducible apply keeps_postResult
    | with_reducible apply hact

theorem keeps_execOpChange (die : DieNo) (slot : Fin 8) (s : State) : KeepsOut s (execOpChange die slot s) := by
  have hk := Keeps.refl s
  unfold execOpChange
  repeat' first
    | ((try lift_lets -underBinder); intro x; clear_value x)
    | (with_reducible intro _)
    | with_reducible assumption
    | with_reducible apply keepsOut_next
    | with_reducible apply keepsOut_ite
    | with_reducible apply keeps_ite
    | with_reducible apply keeps_request
    | with_reducible apply keeps_revise
    | with_reducible apply keeps_startIdle

theorem keeps_execThrottle (die : DieNo) (slot : Fin 8) (s : State) : KeepsOut s (execThrottle die slot s) := by
  have hk := Keeps.refl s
  unfold execThrottle
  repeat' first
    | (with_reducible intro _)
    | with_reducible assumption
    | with_reducible apply keepsOut_next
    | with_reducible apply keeps_request
    | assumption

theorem keeps_execTestSlot (die : DieNo) (slot : Fin 8) (s : State) : KeepsOut s (execTestSlot die slot s) := by
  have hk := Keeps.refl s
  unfold execTestSlot
  repeat' first
    | ((try lift_lets -underBinder); intro x; clear_value x)
    | (with_reducible intro _)
    | with_reducible assumption
    | with_reducible apply keepsOut_next
    | with_reducible apply keeps_request
    | assumption

theorem keeps_execOpForce (die : DieNo) (slot : Fin 8) (s : State) : KeepsOut s (execOpForce die slot s) := by
  have hk := Keeps.refl s
  unfold execOpForce
  repeat' first
    | (with_reducible intro _)
    | with_reducible assumption
    | with_reducible apply keepsOut_next
    | with_reducible apply keeps_request
    | assumption

theorem keeps_execIdlePllLock (die : DieNo) (s : State) : KeepsOut s (execIdlePllLock die s) := by
  have hk := Keeps.refl s
  unfold execIdlePllLock
  repeat' first
    | ((try lift_lets -underBinder); intro x; clear_value x)
    | with_reducible assumption
    | with_reducible apply keepsOut_next
    | with_reducible apply keepsOut_ite
    | with_reducible apply keeps_ite
    | with_reducible apply keeps_tryDrop
    | with_reducible apply keeps_set

theorem keeps_execAtHinge (die : DieNo) (s : State) : KeepsOut s (execAtHinge die s) := by
  have hk := Keeps.refl s
  unfold execAtHinge
  repeat' first
    | ((try lift_lets -underBinder); intro x; refine Keeps.cut (s0 := s) x ?_ ?_ <;> [unfold x; (intro hx; clear_value x)])
    | ((try lift_lets -underBinder); intro x; clear_value x)
    | with_reducible assumption
    | with_reducible apply keepsOut_next
    | with_reducible apply keepsOut_ite
    | with_reducible apply keeps_ite
    | with_reducible apply keeps_set
    | with_reducible apply keeps_driveOpsel

theorem keeps_execVoltCheck (die : DieNo) (powerGood : Bool) (s : State) : KeepsOut s (execVoltCheck die powerGood s) := by
  have hk := Keeps.refl s
  unfold execVoltCheck
  repeat' first
    | ((try lift_lets -underBinder); intro x; refine Keeps.cut (s0 := s) x ?_ ?_ <;> [unfold x; (intro hx; clear_value x)])
    | ((try lift_lets -underBinder); intro x; clear_value x)
    | with_reducible assumption
    | with_reducible apply keepsOut_next
    | with_reducible apply keepsOut_ite
    | with_reducible apply keeps_ite
    | with_reducible apply keeps_set
    | with_reducible apply keeps_event

theorem keeps_startTileLock {s : State} {d : Nat} (hk : Keeps s0 s) : Keeps s0 (State.startTileLock s d) := by
  unfold State.startTileLock
  repeat' first
    | with_reducible assumption
    | with_reducible apply keeps_set

theorem keeps_execVoltOk (die : DieNo) (s : State) : KeepsOut s (execVoltOk die s) := by
  have hk := Keeps.refl s
  unfold execVoltOk
  repeat' first
    | ((try lift_lets -underBinder); intro x; refine Keeps.cut (s0 := s) x ?_ ?_ <;> [unfold x; (intro hx; clear_value x)])
    | ((try lift_lets -underBinder); intro x; clear_value x)
    | with_reducible assumption
    | with_reducible apply keepsOut_next
    | with_reducible apply keepsOut_ite
    | with_reducible apply keeps_ite
    | with_reducible apply keeps_set
    | with_reducible apply keeps_startTileLock

theorem keeps_tryFenced {s : State} {d : Nat} (hk : Keeps s0 s) : Keeps s0 (State.tryFenced s d) := by
  unfold State.tryFenced
  repeat' first
    | ((try lift_lets -underBinder); intro x; clear_value x)
    | with_reducible assumption
    | with_reducible apply keeps_ite
    | with_reducible apply keeps_contextFault
    | with_reducible apply keeps_dieEvent
    | with_reducible apply keeps_set

theorem keeps_reportReady {s : State} {d : Nat} (hk : Keeps s0 s) : Keeps s0 (State.reportReady s d) := by
  unfold State.reportReady
  repeat' first
    | with_reducible assumption
    | with_reducible apply keeps_ite
    | with_reducible apply keeps_setPhase
    | with_reducible apply keeps_agree
    | with_reducible apply keeps_takeNoted
    | with_reducible apply keeps_tryFenced

theorem keeps_endRequest {s : State} {d : Nat} {st : MbxStatus} (hk : Keeps s0 s) : Keeps s0 (State.endRequest s d st) := by
  unfold State.endRequest
  repeat' first
    | with_reducible assumption
    | with_reducible apply keeps_ite
    | with_reducible apply keeps_postResult

theorem keeps_endChange {s : State} {d : Nat} (hk : Keeps s0 s) : Keeps s0 (State.endChange s d) := by
  unfold State.endChange
  repeat' first
    | ((try lift_lets -underBinder); intro x; refine Keeps.cut (s0 := s0) x ?_ ?_ <;> [unfold x; (intro hx; clear_value x)])
    | ((try lift_lets -underBinder); intro x; clear_value x)
    | with_reducible assumption
    | with_reducible apply keeps_ite
    | with_reducible apply keeps_switchPoint
    | with_reducible apply keeps_event
    | with_reducible apply keeps_endRequest
    | with_reducible apply keeps_reportReady
    | with_reducible apply keeps_set

theorem keeps_endForce {s : State} {d : Nat} (hk : Keeps s0 s) : Keeps s0 (State.endForce s d) := by
  unfold State.endForce
  repeat' first
    | ((try lift_lets -underBinder); intro x; clear_value x)
    | with_reducible assumption
    | with_reducible apply keeps_ite
    | with_reducible apply keeps_set
    | with_reducible apply keeps_dieEvent
    | with_reducible apply keeps_reportReady
    | with_reducible apply keeps_endRequest
    | with_reducible apply keeps_count

theorem keeps_endSlot {s : State} {d : Nat} (hk : Keeps s0 s) : Keeps s0 (State.endSlot s d) := by
  unfold State.endSlot
  repeat' first
    | ((try lift_lets -underBinder); intro x; refine Keeps.cut (s0 := s0) x ?_ ?_ <;> [unfold x; (intro hx; clear_value x)])
    | with_reducible assumption
    | with_reducible apply keeps_ite
    | with_reducible apply keeps_dieEvent
    | with_reducible apply keeps_pageEvent
    | with_reducible apply keeps_set
    | with_reducible apply keeps_endRequest
    | with_reducible apply keeps_reportReady

theorem keeps_execHoldEnd (die : DieNo) (s : State) : KeepsOut s (execHoldEnd die s) := by
  have hk := Keeps.refl s
  unfold execHoldEnd
  repeat' first
    | ((try lift_lets -underBinder); intro x; refine Keeps.cut (s0 := s) x ?_ ?_ <;> [unfold x; (intro hx; clear_value x)])
    | ((try lift_lets -underBinder); intro x; clear_value x)
    | with_reducible assumption
    | with_reducible apply keepsOut_next
    | with_reducible apply keepsOut_ite
    | with_reducible apply keeps_ite
    | with_reducible apply keeps_set
    | with_reducible apply keeps_endChange
    | with_reducible apply keeps_endSlot
    | with_reducible apply keeps_put
    | with_reducible apply keeps_endForce
    | split

theorem keeps_execFDone (die : DieNo) (s : State) : KeepsOut s (execFDone die s) := by
  have hk := Keeps.refl s
  unfold execFDone
  repeat' first
    | ((try lift_lets -underBinder); intro x; clear_value x)
    | with_reducible assumption
    | with_reducible apply keepsOut_next
    | with_reducible apply keepsOut_ite
    | with_reducible apply keeps_ite
    | with_reducible apply keeps_driveOpsel
    | with_reducible apply keeps_set

theorem keeps_requestTests {s : State} {d : Nat} {mask : Nat} (hk : Keeps s0 s) : Keeps s0 (State.requestTests s d mask) := by
  unfold State.requestTests
  repeat' first
    | ((try lift_lets -underBinder); intro x; refine Keeps.cut (s0 := s0) x ?_ ?_ <;> [unfold x; (intro hx; clear_value x)])
    | ((try lift_lets -underBinder); intro x; clear_value x)
    | with_reducible assumption
    | with_reducible apply keeps_ite
    | with_reducible apply keeps_set
    | with_reducible apply keeps_dieEvent

theorem keeps_supersede {s : State} {d : Nat} {slots : List Nat} (hk : Keeps s0 s) : Keeps s0 (State.supersede s d slots) := by
  unfold State.supersede
  repeat' first
    | ((try lift_lets -underBinder); intro x; refine Keeps.cut (s0 := s0) x ?_ ?_ <;> [unfold x; (intro hx; clear_value x)])
    | (with_reducible intro _)
    | with_reducible assumption
    | with_reducible apply keeps_ite
    | with_reducible apply keeps_postResult
    | with_reducible apply keeps_requestTests
    | with_reducible apply keeps_each

theorem keeps_beginHold {s : State} {d : Nat} {kind : Nat} {j : Nat} (hk : Keeps s0 s) : Keeps s0 (State.beginHold s d kind j) := by
  unfold State.beginHold
  repeat' first
    | ((try lift_lets -underBinder); intro x; refine Keeps.cut (s0 := s0) x ?_ ?_ <;> [unfold x; (intro hx; clear_value x)])
    | with_reducible assumption
    | with_reducible apply keeps_set

theorem keeps_actChange {s : State} {d : Nat} {j : Nat} (hk : Keeps s0 s) : Keeps s0 (State.actChange s d j) := by
  unfold State.actChange
  repeat' first
    | with_reducible assumption
    | with_reducible apply keeps_tryDrop
    | with_reducible apply keeps_set
    | with_reducible apply keeps_beginHold

theorem keeps_actForce {s : State} {d : Nat} {j : Nat} (hk : Keeps s0 s) : Keeps s0 (State.actForce s d j) := by
  unfold State.actForce
  repeat' first
    | ((try lift_lets -underBinder); intro x; refine Keeps.cut (s0 := s0) x ?_ ?_ <;> [unfold x; (intro hx; clear_value x)])
    | with_reducible assumption
    | with_reducible apply keeps_ite
    | with_reducible apply keeps_beginHold
    | with_reducible apply keeps_set
    | with_reducible apply keeps_startScan

end Sys2Proof.Machine
end

