-- ==== Sys2Proof/Laws/KeepsScan.lean ====
section
/-! SUPPORT. What the operations and meanings of Machine/Scan.lean keep (Laws/Keeps.lean). -/

namespace Sys2Proof.Machine

variable {s0 : State}

theorem keeps_writeImage {s : State} {d a n : Nat} {l : Image} (hk : Keeps s0 s) : Keeps s0 (s.writeImage d a n l) := by
  unfold State.writeImage
  exact keeps_foldl _ (keeps_memFilter hk) (fun s e h => keeps_store _ h)

theorem keeps_putImage {s : State} {d : Nat} {slot : Nat} {regions : Nat} {flags : Nat} {cause : Nat} (hk : Keeps s0 s) : Keeps s0 (State.putImage s d slot regions flags cause) := by
  unfold State.putImage
  repeat' first
    | ((try lift_lets -underBinder); intro x; refine Keeps.cut (s0 := s0) x ?_ ?_ <;> [unfold x; (intro hx; clear_value x)])
    | ((try lift_lets -underBinder); intro x; clear_value x)
    | (with_reducible intro _)
    | with_reducible assumption
    | with_reducible apply keeps_writeImage
    | with_reducible apply keeps_store
    | with_reducible apply keeps_foldl

theorem keeps_readImage {s : State} {d : Nat} {slot : Nat} {ecc : Ecc} (hk : Keeps s0 s) : Keeps s0 (State.readImage s d slot ecc) := by
  unfold State.readImage
  repeat' first
    | (with_reducible intro _)
    | with_reducible assumption
    | with_reducible apply keeps_ite
    | with_reducible apply keeps_eccEffects
    | with_reducible apply keeps_refuseAccess
    | with_reducible apply keeps_foldl

theorem keeps_restoreArray {s : State} {d : Nat} {a : Nat} (hk : Keeps s0 s) : Keeps s0 (State.restoreArray s d a) := by
  unfold State.restoreArray
  repeat' first
    | ((try lift_lets -underBinder); intro x; refine Keeps.cut (s0 := s0) x ?_ ?_ <;> [unfold x; (intro hx; clear_value x)])
    | (with_reducible intro _)
    | with_reducible assumption
    | with_reducible apply keeps_set
    | with_reducible apply keeps_foldl

theorem keeps_restoreTums {s : State} {d : Nat} {a : Nat} (hk : Keeps s0 s) : Keeps s0 (State.restoreTums s d a) := by
  unfold State.restoreTums
  repeat' first
    | ((try lift_lets -underBinder); intro x; clear_value x)
    | (with_reducible intro _)
    | with_reducible assumption
    | with_reducible apply keeps_set
    | with_reducible apply keeps_onDie

theorem keeps_restoreGates {s : State} {d : Nat} {a : Nat} (hk : Keeps s0 s) : Keeps s0 (State.restoreGates s d a) := by
  unfold State.restoreGates
  repeat' first
    | ((try lift_lets -underBinder); intro x; clear_value x)
    | (with_reducible intro _)
    | with_reducible assumption
    | with_reducible apply keeps_onDie

theorem keeps_restoreStreams {s : State} {d : Nat} {a : Nat} (hk : Keeps s0 s) : Keeps s0 (State.restoreStreams s d a) := by
  unfold State.restoreStreams
  repeat' first
    | ((try lift_lets -underBinder); intro x; clear_value x)
    | (with_reducible intro _)
    | with_reducible assumption
    | with_reducible apply keeps_ite
    | with_reducible apply keeps_setStream
    | with_reducible apply keeps_each

theorem keeps_restoreLinks {s : State} {d : Nat} {a : Nat} (hk : Keeps s0 s) : Keeps s0 (State.restoreLinks s d a) := by
  unfold State.restoreLinks
  repeat' first
    | ((try lift_lets -underBinder); intro x; refine Keeps.cut (s0 := s0) x ?_ ?_ <;> [unfold x; (intro hx; clear_value x)])
    | ((try lift_lets -underBinder); intro x; clear_value x)
    | (with_reducible intro _)
    | with_reducible assumption
    | with_reducible apply keeps_ite
    | with_reducible apply keeps_onSlink
    | with_reducible apply keeps_setOut
    | with_reducible apply keeps_each

theorem keeps_restore {s : State} {d : Nat} {slot : Nat} {regions : Nat} (hk : Keeps s0 s) : Keeps s0 (State.restore s d slot regions) := by
  unfold State.restore
  repeat' first
    | ((try lift_lets -underBinder); intro x; clear_value x)
    | (with_reducible intro _)
    | with_reducible assumption
    | with_reducible apply keeps_restoreArray
    | with_reducible apply keeps_restoreTums
    | with_reducible apply keeps_restoreGates
    | with_reducible apply keeps_restoreStreams
    | with_reducible apply keeps_restoreLinks
    | with_reducible apply keeps_each
    | split

theorem keeps_refuseScan {s : State} {d : Nat} {code : Nat} (hk : Keeps s0 s) : Keeps s0 (State.refuseScan s d code) := by
  unfold State.refuseScan
  repeat' first
    | with_reducible assumption
    | with_reducible apply keeps_dieEvent
    | with_reducible apply keeps_pageEvent
    | with_reducible apply keeps_set

theorem keeps_startWaiting {s : State} {d : Nat} (hk : Keeps s0 s) : Keeps s0 (State.startWaiting s d) := by
  unfold State.startWaiting
  repeat' first
    | with_reducible assumption
    | with_reducible apply keeps_ite
    | with_reducible apply keeps_startScan
    | with_reducible apply keeps_set

theorem keeps_execScanOut (req : Requester) (die : DieNo) (s : State) : KeepsOut s (execScanOut req die s) := by
  have hk := Keeps.refl s
  unfold execScanOut
  repeat' first
    | ((try lift_lets -underBinder); intro x; refine Keeps.cut (s0 := s) x ?_ ?_ <;> [unfold x; (intro hx; clear_value x)])
    | ((try lift_lets -underBinder); intro x; refine Keeps.cut_fun2 (s0 := s) x ?_ ?_ <;> [unfold x; (intro hf; clear_value x)])
    | with_reducible apply hf
    | ((try lift_lets -underBinder); intro x; clear_value x)
    | (with_reducible intro _)
    | with_reducible assumption
    | with_reducible apply keepsOut_next
    | with_reducible apply keepsOut_ite
    | with_reducible apply keeps_ite
    | with_reducible apply keeps_onWrite
    | with_reducible apply keeps_refuse
    | with_reducible apply keeps_refuseScan
    | with_reducible apply keeps_regFault
    | with_reducible apply keeps_useFree
    | with_reducible apply keeps_startScan
    | with_reducible apply keeps_countLimited
    | with_reducible apply keeps_set
    | with_reducible apply keeps_startWaiting

theorem keeps_execScanIn (req : Requester) (die : DieNo) (ecc : Ecc) (s : State) : KeepsOut s (execScanIn req die ecc s) := by
  have hk := Keeps.refl s
  unfold execScanIn
  repeat' first
    | ((try lift_lets -underBinder); intro x; refine Keeps.cut (s0 := s) x ?_ ?_ <;> [unfold x; (intro hx; clear_value x)])
    | ((try lift_lets -underBinder); intro x; clear_value x)
    | (with_reducible intro _)
    | with_reducible assumption
    | with_reducible apply keepsOut_next
    | with_reducible apply keepsOut_ite
    | with_reducible apply keeps_ite
    | with_reducible apply keeps_onWrite
    | with_reducible apply keeps_regFault
    | with_reducible apply keeps_refuseScan
    | with_reducible apply keeps_readImage
    | with_reducible apply keeps_startScan
    | with_reducible apply keeps_restore

theorem keeps_clockReset {s : State} {d : Nat} (hk : Keeps s0 s) : Keeps s0 (State.clockReset s d) := by
  unfold State.clockReset
  repeat' first
    | (with_reducible intro _)
    | with_reducible assumption
    | with_reducible apply keeps_onDie

theorem keeps_captureNext {s : State} {d : Nat} (hk : Keeps s0 s) : Keeps s0 (State.captureNext s d) := by
  unfold State.captureNext
  repeat' first
    | with_reducible assumption
    | with_reducible apply keeps_ite
    | with_reducible apply keeps_autoCapture
    | with_reducible apply keeps_set

theorem keeps_stayStopped {s : State} {d : Nat} (hk : Keeps s0 s) : Keeps s0 (State.stayStopped s d) := by
  unfold State.stayStopped
  repeat' first
    | ((try lift_lets -underBinder); intro x; refine Keeps.cut (s0 := s0) x ?_ ?_ <;> [unfold x; (intro hx; clear_value x)])
    | (with_reducible intro _)
    | with_reducible assumption
    | with_reducible apply keeps_ite
    | with_reducible apply keeps_set
    | with_reducible apply keeps_setPhase
    | with_reducible apply keeps_onDie

theorem keeps_execScanDone (die : DieNo) (cycles : BitVec 24) (s : State) : KeepsOut s (execScanDone die cycles s) := by
  have hk := Keeps.refl s
  unfold execScanDone
  repeat' first
    | ((try lift_lets -underBinder); intro x; refine Keeps.cut (s0 := s) x ?_ ?_ <;> [unfold x; (intro hx; clear_value x)])
    | ((try lift_lets -underBinder); intro x; clear_value x)
    | with_reducible assumption
    | with_reducible apply keepsOut_next
    | with_reducible apply keepsOut_ite
    | with_reducible apply keeps_ite
    | with_reducible apply keeps_count
    | with_reducible apply keeps_set
    | with_reducible apply keeps_pageEvent
    | with_reducible apply keeps_tryFenced
    | with_reducible apply keeps_captureNext
    | with_reducible apply keeps_dieEvent
    | with_reducible apply keeps_endForce
    | with_reducible apply keeps_putImage
    | with_reducible apply keeps_setBit
    | with_reducible apply keeps_clockReset
    | with_reducible apply keeps_startTileLock
    | with_reducible apply keeps_stayStopped

theorem keeps_execTilePllLock (die : DieNo) (ecc : Ecc) (s : State) : KeepsOut s (execTilePllLock die ecc s) := by
  have hk := Keeps.refl s
  unfold execTilePllLock
  repeat' first
    | ((try lift_lets -underBinder); intro x; clear_value x)
    | with_reducible assumption
    | with_reducible apply keepsOut_next
    | with_reducible apply keepsOut_ite
    | with_reducible apply keeps_ite
    | with_reducible apply keeps_switchPoint
    | with_reducible apply keeps_set
    | with_reducible apply keeps_readImage
    | with_reducible apply keeps_dieFault
    | with_reducible apply keeps_refuseScan
    | with_reducible apply keeps_captureNext
    | with_reducible apply keeps_startScan
    | with_reducible apply keeps_restore

end Sys2Proof.Machine
end

