-- ==== Sys2Proof/Laws/KeepsHinge.lean ====
section
/-! SUPPORT. What the operations and meanings of Machine/Hinge.lean keep (Laws/Keeps.lean). -/

namespace Sys2Proof.Machine

variable {s0 : State}

theorem keeps_enterHinge {s : State} {d : Nat} (hk : Keeps s0 s) : Keeps s0 (State.enterHinge s d) := by
  unfold State.enterHinge
  repeat' first
    | ((try lift_lets -underBinder); intro x; refine Keeps.cut (s0 := s0) x ?_ ?_ <;> [unfold x; (intro hx; clear_value x)])
    | ((try lift_lets -underBinder); intro x; clear_value x)
    | (with_reducible intro _)
    | with_reducible assumption
    | with_reducible apply keeps_ite
    | with_reducible apply keeps_setPhase
    | with_reducible apply keeps_refusalEvent
    | with_reducible apply keeps_contextFault
    | with_reducible apply keeps_tryFenced
    | with_reducible apply keeps_swap
    | with_reducible apply keeps_startWaiting
    | with_reducible apply keeps_pageEvent
    | with_reducible apply keeps_dieEvent

theorem keeps_execQuiesceEnd (die : DieNo) (enabled : BitVec 24) (total : BitVec 24) (s : State) : KeepsOut s (execQuiesceEnd die enabled total s) := by
  have hk := Keeps.refl s
  unfold execQuiesceEnd
  repeat' first
    | ((try lift_lets -underBinder); intro x; refine Keeps.cut (s0 := s) x ?_ ?_ <;> [unfold x; (intro hx; clear_value x)])
    | ((try lift_lets -underBinder); intro x; clear_value x)
    | with_reducible assumption
    | with_reducible apply keepsOut_next
    | with_reducible apply keepsOut_ite
    | with_reducible apply keeps_ite
    | with_reducible apply keeps_set
    | with_reducible apply keeps_reach
    | with_reducible apply keeps_dieEvent
    | with_reducible apply keeps_count
    | with_reducible apply keeps_enterHinge
    | split

theorem keeps_endFlags {s : State} {d : Nat} {key : Key} (hk : Keeps s0 s) : Keeps s0 (State.endFlags s d key) := by
  unfold State.endFlags
  repeat' first
    | ((try lift_lets -underBinder); intro x; refine Keeps.cut (s0 := s0) x ?_ ?_ <;> [unfold x; (intro hx; clear_value x)])
    | ((try lift_lets -underBinder); intro x; clear_value x)
    | (with_reducible intro _)
    | with_reducible assumption
    | with_reducible apply keeps_ite
    | with_reducible apply keeps_useFree
    | with_reducible apply keeps_foldl
    | with_reducible apply keeps_set
    | with_reducible apply keeps_put
    | with_reducible apply keeps_count
    | with_reducible apply keeps_pageEvent
    | with_reducible apply keeps_dieEvent
    | with_reducible apply keeps_onDie
    | (with_reducible apply keeps_update; first | assumption | with_reducible apply keeps_useFree | with_reducible apply keeps_foldl | with_reducible apply keeps_set | with_reducible apply keeps_put | with_reducible apply keeps_count | with_reducible apply keeps_pageEvent | with_reducible apply keeps_dieEvent | with_reducible apply keeps_onDie)

theorem keeps_topGate {s : State} {d : Nat} (hk : Keeps s0 s) : Keeps s0 (State.topGate s d) := by
  unfold State.topGate
  repeat' first
    | ((try lift_lets -underBinder); intro x; clear_value x)
    | (with_reducible intro _)
    | with_reducible assumption
    | with_reducible apply keeps_ite
    | with_reducible apply keeps_set

theorem keeps_restartGates {s : State} {d : Nat} (hk : Keeps s0 s) : Keeps s0 (State.restartGates s d) := by
  unfold State.restartGates
  repeat' first
    | ((try lift_lets -underBinder); intro x; refine Keeps.cut (s0 := s0) x ?_ ?_ <;> [unfold x; (intro hx; clear_value x)])
    | ((try lift_lets -underBinder); intro x; clear_value x)
    | (with_reducible intro _)
    | with_reducible assumption
    | with_reducible apply keeps_topGate
    | with_reducible apply keeps_onDie
    | with_reducible apply keeps_dieEvent
    | with_reducible apply keeps_foldl

theorem keeps_exitRun {s : State} {d : Nat} (hk : Keeps s0 s) : Keeps s0 (State.exitRun s d) := by
  unfold State.exitRun
  repeat' first
    | (with_reducible intro _)
    | with_reducible assumption
    | with_reducible apply keeps_onDie
    | with_reducible apply keeps_setRun
    | split

theorem keeps_kwayCounts {s : State} {d : Nat} {key : Key} (hk : Keeps s0 s) : Keeps s0 (State.kwayCounts s d key) := by
  unfold State.kwayCounts
  repeat' first
    | ((try lift_lets -underBinder); intro x; refine Keeps.cut (s0 := s0) x ?_ ?_ <;> [unfold x; (intro hx; clear_value x)])
    | ((try lift_lets -underBinder); intro x; clear_value x)
    | (with_reducible intro _)
    | with_reducible assumption
    | with_reducible apply keeps_set

theorem keeps_flip {s : State} {d : Nat} {key : Key} (hk : Keeps s0 s) : Keeps s0 (State.flip s d key) := by
  unfold State.flip
  repeat' first
    | ((try lift_lets -underBinder); intro x; refine Keeps.cut (s0 := s0) x ?_ ?_ <;> [unfold x; (intro hx; clear_value x)])
    | (with_reducible intro _)
    | with_reducible assumption
    | with_reducible apply keeps_onDie
    | with_reducible apply keeps_set
    | with_reducible apply keeps_pageEvent
    | with_reducible apply keeps_kwayCounts
    | with_reducible apply keeps_count

theorem keeps_applyAtHinge {s : State} {d : Nat} (hk : Keeps s0 s) : Keeps s0 (State.applyAtHinge s d) := by
  unfold State.applyAtHinge
  repeat' first
    | ((try lift_lets -underBinder); intro x; clear_value x)
    | (with_reducible intro _)
    | with_reducible assumption
    | with_reducible apply keeps_ite
    | with_reducible apply keeps_applyShadow
    | with_reducible apply keeps_each
    | with_reducible apply keeps_foldl

theorem keeps_changeForm {s : State} {d : Nat} (hk : Keeps s0 s) : Keeps s0 (State.changeForm s d) := by
  unfold State.changeForm
  repeat' first
    | ((try lift_lets -underBinder); intro x; refine Keeps.cut (s0 := s0) x ?_ ?_ <;> [unfold x; (intro hx; clear_value x)])
    | ((try lift_lets -underBinder); intro x; clear_value x)
    | (with_reducible intro _)
    | with_reducible assumption
    | with_reducible apply keeps_endRun
    | with_reducible apply keeps_set
    | with_reducible apply keeps_selectSet
    | with_reducible apply keeps_dieEvent
    | with_reducible apply keeps_each

theorem keeps_noEntry {s : State} {d : Nat} {k : Nat} {number : Nat} (hk : Keeps s0 s) : Keeps s0 (State.noEntry s d k number) := by
  unfold State.noEntry
  repeat' first
    | ((try lift_lets -underBinder); intro x; clear_value x)
    | (with_reducible intro _)
    | with_reducible assumption
    | with_reducible apply keeps_endRun
    | with_reducible apply keeps_each

theorem keeps_drainClose {s : State} {d : Nat} (hk : Keeps s0 s) : Keeps s0 (State.drainClose s d) := by
  unfold State.drainClose
  repeat' first
    | ((try lift_lets -underBinder); intro x; refine Keeps.cut (s0 := s0) x ?_ ?_ <;> [unfold x; (intro hx; clear_value x)])
    | ((try lift_lets -underBinder); intro x; clear_value x)
    | (with_reducible intro _)
    | with_reducible assumption
    | with_reducible apply keeps_ite
    | with_reducible apply keeps_endFlags
    | with_reducible apply keeps_setPhase
    | with_reducible apply keeps_each
    | with_reducible apply keeps_onDie
    | with_reducible apply keeps_endRun
    | with_reducible apply keeps_set
    | with_reducible apply keeps_beginClose
    | split
    | (with_reducible apply keeps_update; first | assumption | with_reducible apply keeps_endFlags | with_reducible apply keeps_setPhase | with_reducible apply keeps_each | with_reducible apply keeps_onDie | with_reducible apply keeps_endRun | with_reducible apply keeps_set | with_reducible apply keeps_beginClose)

theorem keeps_applySkip {s : State} {d : Nat} {changed : List Nat} {locked : List Nat} (hk : Keeps s0 s) : Keeps s0 (State.applySkip s d changed locked) := by
  unfold State.applySkip
  repeat' first
    | ((try lift_lets -underBinder); intro x; refine Keeps.cut (s0 := s0) x ?_ ?_ <;> [unfold x; (intro hx; clear_value x)])
    | (with_reducible intro _)
    | with_reducible assumption
    | with_reducible apply keeps_applyShadow
    | with_reducible apply keeps_setBit
    | with_reducible apply keeps_dieEvent
    | with_reducible apply keeps_pageEvent
    | with_reducible apply keeps_set
    | with_reducible apply keeps_each

theorem keeps_takeTests {s : State} {d : Nat} {spent : Nat} {skip : Bool} (hk : Keeps s0 s) : Keeps s0 (State.takeTests s d spent skip) := by
  unfold State.takeTests
  repeat' first
    | ((try lift_lets -underBinder); intro x; refine Keeps.cut (s0 := s0) x ?_ ?_ <;> [unfold x; (intro hx; clear_value x)])
    | ((try lift_lets -underBinder); intro x; clear_value x)
    | (with_reducible intro _)
    | with_reducible assumption
    | with_reducible apply keeps_ite
    | with_reducible apply keeps_set
    | with_reducible apply keeps_dieEvent
    | with_reducible apply keeps_put
    | with_reducible apply keeps_each

theorem keeps_actSlot {s : State} {d : Nat} {j : Nat} (hk : Keeps s0 s) : Keeps s0 (State.actSlot s d j) := by
  unfold State.actSlot
  repeat' first
    | ((try lift_lets -underBinder); intro x; refine Keeps.cut (s0 := s0) x ?_ ?_ <;> [unfold x; (intro hx; clear_value x)])
    | with_reducible assumption
    | with_reducible apply keeps_ite
    | with_reducible apply keeps_set
    | with_reducible apply keeps_beginHold
    | with_reducible apply keeps_count
    | with_reducible apply keeps_takeTests
    | with_reducible apply keeps_applySkip
    | with_reducible apply keeps_pageEvent
    | with_reducible apply keeps_dieEvent

theorem keeps_reloadKey {s : State} {d : Nat} {c : Nat} {ecc : Ecc} (hk : Keeps s0 s) : Keeps s0 (State.reloadKey s d c ecc) := by
  unfold State.reloadKey
  repeat' first
    | ((try lift_lets -underBinder); intro x; refine Keeps.cut (s0 := s0) x ?_ ?_ <;> [unfold x; (intro hx; clear_value x)])
    | ((try lift_lets -underBinder); intro x; clear_value x)
    | (with_reducible intro _)
    | with_reducible assumption
    | with_reducible apply keeps_each
    | with_reducible apply keeps_writeBytes
    | with_reducible apply keeps_eccEffects
    | with_reducible apply keeps_onDie
    | split
    | (with_reducible apply keeps_update; first | assumption | with_reducible apply keeps_each | with_reducible apply keeps_writeBytes | with_reducible apply keeps_eccEffects | with_reducible apply keeps_onDie)

theorem keeps_reloadColumn {s : State} {d : Nat} {c : Nat} {ecc : Ecc} (hk : Keeps s0 s) : Keeps s0 (State.reloadColumn s d c ecc) := by
  unfold State.reloadColumn
  repeat' first
    | ((try lift_lets -underBinder); intro x; refine Keeps.cut (s0 := s0) x ?_ ?_ <;> [unfold x; (intro hx; clear_value x)])
    | ((try lift_lets -underBinder); intro x; clear_value x)
    | (with_reducible intro _)
    | with_reducible assumption
    | with_reducible apply keeps_reloadKey
    | with_reducible apply keeps_onDie
    | with_reducible apply keeps_foldl
    | with_reducible apply keeps_eccEffects
    | with_reducible apply keeps_each
    | with_reducible apply keeps_setBayLine
    | with_reducible apply keeps_bayError
    | (with_reducible apply keeps_update; first | assumption | with_reducible apply keeps_reloadKey | with_reducible apply keeps_onDie | with_reducible apply keeps_foldl | with_reducible apply keeps_eccEffects | with_reducible apply keeps_each | with_reducible apply keeps_setBayLine | with_reducible apply keeps_bayError)

theorem keeps_execSkipPhaseComplete (die : DieNo) (cycles : BitVec 32) (ecc : Ecc) (s : State) : KeepsOut s (execSkipPhaseComplete die cycles ecc s) := by
  have hk := Keeps.refl s
  unfold execSkipPhaseComplete
  repeat' first
    | ((try lift_lets -underBinder); intro x; refine Keeps.cut (s0 := s) x ?_ ?_ <;> [unfold x; (intro hx; clear_value x)])
    | ((try lift_lets -underBinder); intro x; clear_value x)
    | (with_reducible intro _)
    | with_reducible assumption
    | with_reducible apply keepsOut_next
    | with_reducible apply keepsOut_ite
    | with_reducible apply keeps_ite
    | with_reducible apply keeps_reloadColumn
    | with_reducible apply keeps_count
    | with_reducible apply keeps_set
    | with_reducible apply keeps_endSlot
    | with_reducible apply keeps_takeTests
    | with_reducible apply keeps_markCarried
    | with_reducible apply keeps_applySkip
    | with_reducible apply keeps_each

theorem keeps_actMailbox {s : State} {d : Nat} (hk : Keeps s0 s) : Keeps s0 (s.actMailbox d) := by
  unfold State.actMailbox
  extract_lets throttles forces changes tests a b c e
  have hc : Keeps s0 c := keeps_supersede (keeps_supersede (keeps_supersede hk))
  clear_value throttles forces changes tests
  have he : Keeps s0 e := by
    unfold e; split
    · exact keeps_postResult (keeps_set hc)
    · exact hc
  clear_value e
  split
  · exact keeps_actForce he
  · exact keeps_actChange he
  · exact keeps_actSlot he
  · exact keeps_reportReady he

theorem keeps_stepOne {s : State} {d : Nat} (hk : Keeps s0 s) : Keeps s0 (State.stepOne s d) := by
  unfold State.stepOne
  repeat' first
    | with_reducible assumption
    | with_reducible apply keeps_exitRun
    | with_reducible apply keeps_restartGates
    | with_reducible apply keeps_endFlags
    | split

theorem keeps_swap {s : State} {d : Nat} {key : Key} (hk : Keeps s0 s) : Keeps s0 (State.swap s d key) := by
  unfold State.swap
  repeat' first
    | ((try lift_lets -underBinder); intro x; refine Keeps.cut (s0 := s0) x ?_ ?_ <;> [unfold x; (intro hx; clear_value x)])
    | ((try lift_lets -underBinder); intro x; clear_value x)
    | (with_reducible intro _)
    | with_reducible assumption
    | with_reducible apply keeps_ite
    | with_reducible apply keeps_stepOne
    | with_reducible apply keeps_flip
    | with_reducible apply keeps_applyAtHinge
    | with_reducible apply keeps_loadAfter
    | with_reducible apply keeps_setPhase
    | with_reducible apply keeps_tryFenced
    | with_reducible apply keeps_tryReady
    | with_reducible apply keeps_set
    | with_reducible apply keeps_changeForm
    | with_reducible apply keeps_noEntry
    | with_reducible apply keeps_readmitAgain
    | with_reducible apply keeps_contextFault
    | with_reducible apply keeps_actMailbox

theorem keeps_execHinge (die : DieNo) (waited : BitVec 32) (s : State) : KeepsOut s (execHinge die waited s) := by
  have hk := Keeps.refl s
  unfold execHinge
  repeat' first
    | ((try lift_lets -underBinder); intro x; refine Keeps.cut (s0 := s) x ?_ ?_ <;> [unfold x; (intro hx; clear_value x)])
    | ((try lift_lets -underBinder); intro x; clear_value x)
    | (with_reducible intro _)
    | with_reducible assumption
    | with_reducible apply keepsOut_next
    | with_reducible apply keepsOut_ite
    | with_reducible apply keeps_ite
    | with_reducible apply keeps_count
    | with_reducible apply keeps_contextFault
    | with_reducible apply keeps_set
    | with_reducible apply keeps_drainClose
    | with_reducible apply keeps_swap
    | split

theorem keeps_execKeyStart (die : DieNo) (waited : BitVec 24) (s : State) : KeepsOut s (execKeyStart die waited s) := by
  have hk := Keeps.refl s
  unfold execKeyStart
  repeat' first
    | ((try lift_lets -underBinder); intro x; refine Keeps.cut (s0 := s) x ?_ ?_ <;> [unfold x; (intro hx; clear_value x)])
    | ((try lift_lets -underBinder); intro x; clear_value x)
    | (with_reducible intro _)
    | with_reducible assumption
    | with_reducible apply keepsOut_next
    | with_reducible apply keepsOut_ite
    | with_reducible apply keeps_ite
    | with_reducible apply keeps_set
    | with_reducible apply keeps_releaseTables
    | with_reducible apply keeps_onDie
    | with_reducible apply keeps_tryReady
    | with_reducible apply keeps_setPhase
    | with_reducible apply keeps_runRegs
    | with_reducible apply hf
    | split

end Sys2Proof.Machine
end

