-- ==== Sys2Proof/Laws/KeepsAfe.lean ====
section
/-! SUPPORT. What the operations and meanings of Machine/Afe.lean keep (Laws/Keeps.lean). -/

namespace Sys2Proof.Machine

variable {s0 : State}

theorem keeps_engineRegs {s : State} {e : Nat} (hk : Keeps s0 s) : Keeps s0 (State.engineRegs s e) := by
  unfold State.engineRegs
  repeat' first
    | ((try lift_lets -underBinder); intro x; clear_value x)
    | with_reducible assumption
    | with_reducible apply keeps_ite
    | with_reducible apply keeps_set
    | with_reducible apply keeps_put

theorem keeps_setEngine {s : State} {e : Nat} {x : AfeEngine} (hk : Keeps s0 s) : Keeps s0 (State.setEngine s e x) := by
  unfold State.setEngine
  repeat' first
    | with_reducible assumption
    | with_reducible apply keeps_ite
    | with_reducible apply keeps_engineRegs
    | (with_reducible apply keeps_update; first | assumption | with_reducible apply keeps_engineRegs)

theorem keeps_answerPort {s : State} {port : Nat} {r : AfeResult} (hk : Keeps s0 s) : Keeps s0 (State.answerPort s port r) := by
  unfold State.answerPort
  repeat' first
    | ((try lift_lets -underBinder); intro x; refine Keeps.cut (s0 := s0) x ?_ ?_ <;> [unfold x; (intro hx; clear_value x)])
    | with_reducible assumption
    | with_reducible apply keeps_ite
    | with_reducible apply keeps_set
    | with_reducible apply keeps_setPair
    | with_reducible apply keeps_pageEvent

theorem keeps_showStored {s : State} (hk : Keeps s0 s) : Keeps s0 (State.showStored s) := by
  unfold State.showStored
  repeat' first
    | ((try lift_lets -underBinder); intro x; refine Keeps.cut (s0 := s0) x ?_ ?_ <;> [unfold x; (intro hx; clear_value x)])
    | ((try lift_lets -underBinder); intro x; clear_value x)
    | with_reducible assumption
    | with_reducible apply keeps_set
    | with_reducible apply keeps_setPair

theorem keeps_storeResult {s : State} {r : AfeResult} (hk : Keeps s0 s) : Keeps s0 (State.storeResult s r) := by
  unfold State.storeResult
  repeat' first
    | with_reducible assumption
    | with_reducible apply keeps_showStored
    | (with_reducible apply keeps_update; first | assumption | with_reducible apply keeps_showStored)

theorem keeps_answerStale {s : State} {port : Nat} {profile : Nat} {flags : Nat} (hk : Keeps s0 s) : Keeps s0 (State.answerStale s port profile flags) := by
  unfold State.answerStale
  repeat' first
    | ((try lift_lets -underBinder); intro x; refine Keeps.cut (s0 := s0) x ?_ ?_ <;> [unfold x; (intro hx; clear_value x)])
    | with_reducible assumption
    | with_reducible apply keeps_count
    | with_reducible apply keeps_answerPort
    | with_reducible apply keeps_useFree
    | split

theorem keeps_holdRegs {s : State} {e : Nat} (hk : Keeps s0 s) : Keeps s0 (State.holdRegs s e) := by
  unfold State.holdRegs
  repeat' first
    | ((try lift_lets -underBinder); intro x; refine Keeps.cut (s0 := s0) x ?_ ?_ <;> [unfold x; (intro hx; clear_value x)])
    | ((try lift_lets -underBinder); intro x; clear_value x)
    | (with_reducible intro _)
    | with_reducible assumption
    | with_reducible apply keeps_ite
    | with_reducible apply keeps_set
    | with_reducible apply keeps_setBit

theorem keeps_startCal {s : State} {e : Nat} (hk : Keeps s0 s) : Keeps s0 (State.startCal s e) := by
  unfold State.startCal
  repeat' first
    | with_reducible assumption
    | with_reducible apply keeps_set

theorem keeps_calibrateBoth {s : State} (hk : Keeps s0 s) : Keeps s0 (State.calibrateBoth s) := by
  unfold State.calibrateBoth
  repeat' first
    | with_reducible assumption
    | with_reducible apply keeps_ite
    | with_reducible apply keeps_startCal

theorem keeps_execAfeEnable (req : Requester) (s : State) : KeepsOut s (execAfeEnable req s) := by
  have hk := Keeps.refl s
  unfold execAfeEnable
  repeat' first
    | with_reducible assumption
    | with_reducible apply keepsOut_next
    | with_reducible apply keepsOut_ite
    | with_reducible apply keeps_ite
    | with_reducible apply keeps_set
    | with_reducible apply keeps_calibrateBoth
    | with_reducible apply keeps_pageFault

theorem keeps_execAfePllLock (s : State) : KeepsOut s (execAfePllLock s) := by
  have hk := Keeps.refl s
  unfold execAfePllLock
  repeat' first
    | with_reducible assumption
    | with_reducible apply keepsOut_next
    | with_reducible apply keepsOut_ite
    | with_reducible apply keeps_ite
    | with_reducible apply keeps_calibrateBoth
    | with_reducible apply keeps_set

theorem keeps_calibrate {s : State} {e : Nat} {req : Nat} (hk : Keeps s0 s) : Keeps s0 (State.calibrate s e req) := by
  unfold State.calibrate
  repeat' first
    | with_reducible assumption
    | with_reducible apply keeps_ite
    | with_reducible apply keeps_regFault
    | with_reducible apply keeps_set
    | with_reducible apply keeps_startCal

theorem keeps_execCalibrate (req : Requester) (engines : BitVec 2) (s : State) : KeepsOut s (execCalibrate req engines s) := by
  have hk := Keeps.refl s
  unfold execCalibrate
  repeat' first
    | (with_reducible intro _)
    | with_reducible assumption
    | with_reducible apply keepsOut_next
    | with_reducible apply keeps_onWrite
    | with_reducible apply keeps_calibrate
    | with_reducible apply keeps_each

theorem keeps_noteCalTemp {s : State} {e : Nat} (hk : Keeps s0 s) : Keeps s0 (State.noteCalTemp s e) := by
  unfold State.noteCalTemp
  repeat' first
    | with_reducible assumption
    | with_reducible apply keeps_set
    | split

theorem keeps_calibrationDone {s : State} {e : Nat} {zero full : List (BitVec 24)} {tia : List (BitVec 32)} (hk : Keeps s0 s) :
    Keeps s0 (s.calibrationDone e zero full tia) := by
  unfold State.calibrationDone
  extract_lets z f a b u v c
  have hb : Keeps s0 b := keeps_noteCalTemp (keeps_set (keeps_set hk))
  have hu : Keeps s0 u := keeps_each _ hb (fun s g h => keeps_set (keeps_set h))
  have hv : Keeps s0 v := keeps_ite (keeps_each _ hu (fun s r h => keeps_set h)) hu
  have hc : Keeps s0 c := by
    unfold c
    split
    · exact keeps_event (keeps_pageEvent (keeps_set hb))
    · exact keeps_event (keeps_pageEvent (keeps_set hv))
  exact keeps_ite hk (keeps_ite (keeps_set hc) hc)

theorem keeps_afeRequest {s : State} {k : Nat} {p : Nat} {req : Nat} (hk : Keeps s0 s) : Keeps s0 (State.afeRequest s k p req) := by
  unfold State.afeRequest
  repeat' first
    | ((try lift_lets -underBinder); intro x; refine Keeps.cut (s0 := s0) x ?_ ?_ <;> [unfold x; (intro hx; clear_value x)])
    | ((try lift_lets -underBinder); intro x; clear_value x)
    | (with_reducible intro _)
    | with_reducible assumption
    | with_reducible apply keeps_ite
    | with_reducible apply keeps_onWrite
    | with_reducible apply keeps_regFault
    | with_reducible apply keeps_answerStale
    | with_reducible apply keeps_set
    | with_reducible apply keeps_setEngine
    | (with_reducible apply keeps_update; first | assumption | with_reducible apply keeps_onWrite | with_reducible apply keeps_regFault | with_reducible apply keeps_answerStale | with_reducible apply keeps_set | with_reducible apply keeps_setEngine)

theorem keeps_execAfeRequest (req : Requester) (port : Fin 5) (profile : BitVec 6) (s : State) : KeepsOut s (execAfeRequest req port profile s) := by
  have hk := Keeps.refl s
  unfold execAfeRequest
  repeat' first
    | with_reducible assumption
    | with_reducible apply keepsOut_next
    | with_reducible apply keeps_afeRequest

theorem keeps_beginRound {s : State} {e : Nat} {q : AfeRequest} {rest : List AfeRequest} (hk : Keeps s0 s) : Keeps s0 (State.beginRound s e q rest) := by
  unfold State.beginRound
  repeat' first
    | ((try lift_lets -underBinder); intro x; refine Keeps.cut (s0 := s0) x ?_ ?_ <;> [unfold x; (intro hx; clear_value x)])
    | ((try lift_lets -underBinder); intro x; clear_value x)
    | with_reducible assumption
    | with_reducible apply keeps_ite
    | with_reducible apply keeps_set
    | with_reducible apply keeps_count
    | with_reducible apply keeps_wrap
    | with_reducible apply keeps_setEngine
    | with_reducible apply keeps_answerPort
    | with_reducible apply keeps_event
    | with_reducible apply keeps_useFree
    | with_reducible apply keeps_holdRegs

theorem keeps_roundStart {s : State} {e : Nat} (hk : Keeps s0 s) : Keeps s0 (State.roundStart s e) := by
  unfold State.roundStart
  repeat' first
    | ((try lift_lets -underBinder); intro x; refine Keeps.cut (s0 := s0) x ?_ ?_ <;> [unfold x; (intro hx; clear_value x)])
    | ((try lift_lets -underBinder); intro x; clear_value x)
    | (with_reducible intro _)
    | with_reducible assumption
    | with_reducible apply keeps_ite
    | with_reducible apply keeps_count
    | with_reducible apply keeps_setEngine
    | with_reducible apply keeps_beginRound
    | split
    | (with_reducible apply keeps_update; first | assumption | with_reducible apply keeps_count | with_reducible apply keeps_setEngine | with_reducible apply keeps_beginRound)

theorem keeps_calAfterRound {s : State} {e : Nat} (hk : Keeps s0 s) : Keeps s0 (State.calAfterRound s e) := by
  unfold State.calAfterRound
  repeat' first
    | with_reducible assumption
    | with_reducible apply keeps_ite
    | with_reducible apply keeps_startCal

theorem keeps_conversion {s : State} {e : Nat} {r : AfeRound} {ph : AfePhase} {rest : List AfePhase} {code : Int} {outA : Bool} {outB : Bool} (hk : Keeps s0 s) : Keeps s0 (State.conversion s e r ph rest code outA outB) := by
  unfold State.conversion
  repeat' first
    | ((try lift_lets -underBinder); intro x; refine Keeps.cut (s0 := s0) x ?_ ?_ <;> [unfold x; (intro hx; clear_value x)])
    | ((try lift_lets -underBinder); intro x; clear_value x)
    | (with_reducible intro _)
    | with_reducible assumption
    | with_reducible apply keeps_ite
    | with_reducible apply keeps_event
    | with_reducible apply keeps_setEngine
    | with_reducible apply keeps_storeResult
    | with_reducible apply keeps_calAfterRound
    | with_reducible apply keeps_holdRegs
    | with_reducible apply keeps_answerPort

theorem keeps_conversionDone {s : State} {e : Nat} {code : BitVec 32} {outA : Bool} {outB : Bool} (hk : Keeps s0 s) : Keeps s0 (State.conversionDone s e code outA outB) := by
  unfold State.conversionDone
  repeat' first
    | with_reducible assumption
    | with_reducible apply keeps_conversion
    | split

theorem keeps_abandon {s : State} (hk : Keeps s0 s) : Keeps s0 (State.abandon s) := by
  unfold State.abandon
  repeat' first
    | ((try lift_lets -underBinder); intro x; refine Keeps.cut (s0 := s0) x ?_ ?_ <;> [unfold x; (intro hx; clear_value x)])
    | ((try lift_lets -underBinder); intro x; clear_value x)
    | (with_reducible intro _)
    | with_reducible assumption
    | with_reducible apply keeps_answerStale
    | with_reducible apply keeps_set
    | with_reducible apply keeps_holdRegs
    | with_reducible apply keeps_setEngine
    | with_reducible apply keeps_each
    | with_reducible apply keeps_foldl
    | with_reducible apply hf
    | split

theorem keeps_execAfeClockLost (s : State) : KeepsOut s (execAfeClockLost s) := by
  have hk := Keeps.refl s
  unfold execAfeClockLost
  repeat' first
    | ((try lift_lets -underBinder); intro x; refine Keeps.cut (s0 := s) x ?_ ?_ <;> [unfold x; (intro hx; clear_value x)])
    | with_reducible assumption
    | with_reducible apply keepsOut_next
    | with_reducible apply keepsOut_ite
    | with_reducible apply keeps_ite
    | with_reducible apply keeps_set
    | with_reducible apply keeps_abandon
    | with_reducible apply keeps_event
    | with_reducible apply keeps_pageEvent

theorem keeps_execAfeCalibrate (s : State) : KeepsOut s (execAfeCalibrate s) := by
  have hk := Keeps.refl s
  unfold execAfeCalibrate
  repeat' first
    | (with_reducible intro _)
    | with_reducible assumption
    | with_reducible apply keepsOut_next
    | with_reducible apply keeps_serve
    | with_reducible apply keeps_calibrate
    | with_reducible apply keepsFst_mk
    | with_reducible apply keeps_each

theorem keeps_execAfeCalPeriod (engine : Fin 2) (s : State) : KeepsOut s (execAfeCalPeriod engine s) := by
  have hk := Keeps.refl s
  unfold execAfeCalPeriod
  repeat' first
    | ((try lift_lets -underBinder); intro x; clear_value x)
    | with_reducible assumption
    | with_reducible apply keepsOut_next
    | with_reducible apply keepsOut_ite
    | with_reducible apply keeps_ite
    | with_reducible apply keeps_calibrate

end Sys2Proof.Machine
end

