-- ==== Sys2Proof/Laws/KeepsTemperature.lean ====
section
/-! SUPPORT. What the operations and meanings of Machine/Temperature.lean keep (Laws/Keeps.lean). -/

namespace Sys2Proof.Machine

variable {s0 : State}

theorem keeps_emptyRing {s : State} {k : Nat} (hk : Keeps s0 s) : Keeps s0 (State.emptyRing s k) := by
  unfold State.emptyRing
  repeat' first
    | with_reducible assumption
    | with_reducible apply keeps_set
    | (with_reducible apply keeps_update; first | assumption | with_reducible apply keeps_set)

theorem keeps_showCount {s : State} {k : Nat} (hk : Keeps s0 s) : Keeps s0 (State.showCount s k) := by
  unfold State.showCount
  repeat' first
    | ((try lift_lets -underBinder); intro x; clear_value x)
    | with_reducible assumption
    | with_reducible apply keeps_ite
    | with_reducible apply keeps_set

theorem keeps_sensorTo {s : State} {k : Nat} {st : Nat} (hk : Keeps s0 s) : Keeps s0 (State.sensorTo s k st) := by
  unfold State.sensorTo
  repeat' first
    | ((try lift_lets -underBinder); intro x; refine Keeps.cut (s0 := s0) x ?_ ?_ <;> [unfold x; (intro hx; clear_value x)])
    | with_reducible assumption
    | with_reducible apply keeps_ite
    | with_reducible apply keeps_emptyRing
    | with_reducible apply keeps_set
    | with_reducible apply keeps_pageEvent

theorem keeps_clearSensor {s : State} {k : Nat} (hk : Keeps s0 s) : Keeps s0 (State.clearSensor s k) := by
  unfold State.clearSensor
  repeat' first
    | ((try lift_lets -underBinder); intro x; refine Keeps.cut (s0 := s0) x ?_ ?_ <;> [unfold x; (intro hx; clear_value x)])
    | with_reducible assumption
    | with_reducible apply keeps_emptyRing
    | with_reducible apply keeps_sensorTo
    | with_reducible apply keeps_set

theorem keeps_setLevel {s : State} {z : Nat} {new : Nat} (hk : Keeps s0 s) : Keeps s0 (State.setLevel s z new) := by
  unfold State.setLevel
  repeat' first
    | ((try lift_lets -underBinder); intro x; refine Keeps.cut (s0 := s0) x ?_ ?_ <;> [unfold x; (intro hx; clear_value x)])
    | ((try lift_lets -underBinder); intro x; clear_value x)
    | with_reducible assumption
    | with_reducible apply keeps_ite
    | with_reducible apply keeps_set
    | with_reducible apply keeps_event
    | with_reducible apply keeps_pageEvent

theorem keeps_zone {s : State} {z : Nat} (hk : Keeps s0 s) : Keeps s0 (State.zone s z) := by
  unfold State.zone
  repeat' first
    | ((try lift_lets -underBinder); intro x; refine Keeps.cut (s0 := s0) x ?_ ?_ <;> [unfold x; (intro hx; clear_value x)])
    | ((try lift_lets -underBinder); intro x; clear_value x)
    | (with_reducible intro _)
    | with_reducible assumption
    | with_reducible apply keeps_ite
    | with_reducible apply keeps_set
    | with_reducible apply keeps_setLevel
    | with_reducible apply keeps_event
    | with_reducible apply keeps_put
    | with_reducible apply keeps_markWhile
    | with_reducible apply hf
    | split

theorem keeps_evaluate {s : State} (hk : Keeps s0 s) : Keeps s0 (State.evaluate s) := by
  unfold State.evaluate
  repeat' first
    | ((try lift_lets -underBinder); intro x; refine Keeps.cut (s0 := s0) x ?_ ?_ <;> [unfold x; (intro hx; clear_value x)])
    | (with_reducible intro _)
    | with_reducible assumption
    | with_reducible apply keeps_set
    | with_reducible apply keeps_zone
    | with_reducible apply keeps_each
    | with_reducible apply hf
    | split

theorem keeps_ratePoint {s : State} {k : Nat} {v : Int} {t : Nat} (hk : Keeps s0 s) : Keeps s0 (State.ratePoint s k v t) := by
  unfold State.ratePoint
  repeat' first
    | ((try lift_lets -underBinder); intro x; refine Keeps.cut (s0 := s0) x ?_ ?_ <;> [unfold x; (intro hx; clear_value x)])
    | ((try lift_lets -underBinder); intro x; clear_value x)
    | with_reducible assumption
    | with_reducible apply keeps_ite
    | with_reducible apply keeps_useFree
    | with_reducible apply keeps_set
    | with_reducible apply keeps_put
    | split
    | (with_reducible apply keeps_update; first | assumption | with_reducible apply keeps_useFree | with_reducible apply keeps_set | with_reducible apply keeps_put)

theorem keeps_goodInOk {s : State} {k : Nat} {bad : Bool} (hk : Keeps s0 s) : Keeps s0 (State.goodInOk s k bad) := by
  unfold State.goodInOk
  repeat' first
    | ((try lift_lets -underBinder); intro x; refine Keeps.cut (s0 := s0) x ?_ ?_ <;> [unfold x; (intro hx; clear_value x)])
    | with_reducible assumption
    | with_reducible apply keeps_ite
    | with_reducible apply keeps_sensorTo
    | with_reducible apply keeps_set
    | with_reducible apply keeps_event

theorem keeps_goodElsewhere {s : State} {k : Nat} {bad : Bool} (hk : Keeps s0 s) : Keeps s0 (State.goodElsewhere s k bad) := by
  unfold State.goodElsewhere
  repeat' first
    | ((try lift_lets -underBinder); intro x; refine Keeps.cut (s0 := s0) x ?_ ?_ <;> [unfold x; (intro hx; clear_value x)])
    | ((try lift_lets -underBinder); intro x; clear_value x)
    | with_reducible assumption
    | with_reducible apply keeps_ite
    | with_reducible apply keeps_set
    | with_reducible apply keeps_event
    | with_reducible apply keeps_sensorTo

theorem keeps_badSample {s : State} {k : Nat} {t : Nat} {v : Int} (hk : Keeps s0 s) : Keeps s0 (State.badSample s k t v) := by
  unfold State.badSample
  repeat' first
    | ((try lift_lets -underBinder); intro x; refine Keeps.cut (s0 := s0) x ?_ ?_ <;> [unfold x; (intro hx; clear_value x)])
    | ((try lift_lets -underBinder); intro x; clear_value x)
    | with_reducible assumption
    | with_reducible apply keeps_ite
    | with_reducible apply keeps_set
    | with_reducible apply keeps_sensorTo

theorem keeps_sample {s : State} {k : Nat} {v : Int} {flags : Nat} {srcFault : Bool} {t : Nat} (hk : Keeps s0 s) : Keeps s0 (State.sample s k v flags srcFault t) := by
  unfold State.sample
  repeat' first
    | ((try lift_lets -underBinder); intro x; refine Keeps.cut (s0 := s0) x ?_ ?_ <;> [unfold x; (intro hx; clear_value x)])
    | with_reducible assumption
    | with_reducible apply keeps_ite
    | with_reducible apply keeps_set
    | with_reducible apply keeps_badSample
    | with_reducible apply keeps_goodInOk
    | with_reducible apply keeps_goodElsewhere
    | with_reducible apply keeps_ratePoint
    | with_reducible apply keeps_evaluate
    | with_reducible apply keeps_showCount

theorem keeps_calBaseline {s : State} (hk : Keeps s0 s) : Keeps s0 (State.calBaseline s) := by
  unfold State.calBaseline
  repeat' first
    | (with_reducible intro _)
    | with_reducible assumption
    | with_reducible apply keeps_ite
    | with_reducible apply keeps_each
    | with_reducible apply keeps_noteCalTemp

theorem keeps_feed {s : State} {w : Nat} {req : Nat} (hk : Keeps s0 s) : Keeps s0 (State.feed s w req) := by
  unfold State.feed
  repeat' first
    | ((try lift_lets -underBinder); intro x; refine Keeps.cut (s0 := s0) x ?_ ?_ <;> [unfold x; (intro hx; clear_value x)])
    | ((try lift_lets -underBinder); intro x; refine Keeps.cut_fun (s0 := s0) x ?_ ?_ <;> [unfold x; (intro hf; clear_value x)])
    | ((try lift_lets -underBinder); intro x; refine Keeps.cut_fun2 (s0 := s0) x ?_ ?_ <;> [unfold x; (intro hf; clear_value x)])
    | with_reducible apply hf
    | ((try lift_lets -underBinder); intro x; clear_value x)
    | (with_reducible intro _)
    | with_reducible assumption
    | with_reducible apply keepsSnd_mk
    | with_reducible apply keepsFst_mk
    | with_reducible apply keepsFst_ite
    | with_reducible apply keepsSnd_ite
    | with_reducible apply keeps_ite
    | with_reducible apply keeps_onWrite
    | with_reducible apply keeps_set
    | with_reducible apply keeps_count
    | with_reducible apply keeps_regFault
    | with_reducible apply keeps_useFree
    | with_reducible apply keeps_setBit
    | with_reducible apply keeps_sample
    | with_reducible apply keeps_calBaseline

theorem keeps_execFeed (req : Requester) (window : Fin 2) (s : State) : KeepsOut s (execFeed req window s) := by
  have hk := Keeps.refl s
  unfold execFeed
  repeat' first
    | with_reducible assumption
    | with_reducible apply keepsOut_next
    | with_reducible apply keeps_feed

theorem keeps_execSensorStale (sensor : Fin 48) (s : State) : KeepsOut s (execSensorStale sensor s) := by
  have hk := Keeps.refl s
  unfold execSensorStale
  repeat' first
    | ((try lift_lets -underBinder); intro x; clear_value x)
    | with_reducible assumption
    | with_reducible apply keepsOut_next
    | with_reducible apply keepsOut_ite
    | with_reducible apply keeps_ite
    | with_reducible apply keeps_evaluate
    | with_reducible apply keeps_showCount
    | with_reducible apply keeps_event
    | with_reducible apply keeps_sensorTo

theorem keeps_sensorsCommitted {s : State} {before : State} (hk : Keeps s0 s) : Keeps s0 (State.sensorsCommitted s before) := by
  unfold State.sensorsCommitted
  repeat' first
    | ((try lift_lets -underBinder); intro x; refine Keeps.cut (s0 := s0) x ?_ ?_ <;> [unfold x; (intro hx; clear_value x)])
    | (with_reducible intro _)
    | with_reducible assumption
    | with_reducible apply keeps_ite
    | with_reducible apply keeps_evaluate
    | with_reducible apply keeps_clearSensor
    | with_reducible apply keeps_emptyRing
    | with_reducible apply keeps_each

theorem keeps_zonesCommitted {s : State} {before : State} (hk : Keeps s0 s) : Keeps s0 (State.zonesCommitted s before) := by
  unfold State.zonesCommitted
  repeat' first
    | (with_reducible intro _)
    | with_reducible assumption
    | with_reducible apply keeps_ite
    | with_reducible apply keeps_evaluate
    | with_reducible apply keeps_setLevel
    | with_reducible apply keeps_each

theorem keeps_postStep {s : State} {z : Nat} {idle : Nat} {code : Nat} (hk : Keeps s0 s) : Keeps s0 (State.postStep s z idle code) := by
  unfold State.postStep
  repeat' first
    | ((try lift_lets -underBinder); intro x; refine Keeps.cut (s0 := s0) x ?_ ?_ <;> [unfold x; (intro hx; clear_value x)])
    | ((try lift_lets -underBinder); intro x; refine Keeps.cut_fst (s0 := s0) x ?_ ?_ <;> [unfold x; (intro hx; clear_value x)])
    | ((try lift_lets -underBinder); intro x; clear_value x)
    | (with_reducible intro _)
    | with_reducible assumption
    | with_reducible apply keeps_ite
    | with_reducible apply keeps_set
    | with_reducible apply keeps_freeSlot
    | with_reducible apply keeps_mc0Post
    | with_reducible apply keeps_event
    | with_reducible apply keeps_wrap
    | with_reducible apply keepsFst_ite
    | with_reducible apply keepsFst_mk
    | with_reducible exact (keeps_mc0Post ‹_›).of ‹_›
    | with_reducible apply KeepsFst.fst
    | with_reducible apply keeps_each
    | with_reducible apply hf
    | (refine KeepsFst.of (keeps_mc0Post ?_) (by assumption))
    | split

theorem keeps_execThrottleStep (zone : Fin 16) (s : State) : KeepsOut s (execThrottleStep zone s) := by
  have hk := Keeps.refl s
  unfold execThrottleStep
  repeat' first
    | ((try lift_lets -underBinder); intro x; clear_value x)
    | (with_reducible intro _)
    | with_reducible assumption
    | with_reducible apply keepsOut_next
    | with_reducible apply keepsOut_ite
    | with_reducible apply keeps_ite
    | with_reducible apply keeps_postStep

theorem keeps_execThrottleRelease (zone : Fin 16) (s : State) : KeepsOut s (execThrottleRelease zone s) := by
  have hk := Keeps.refl s
  unfold execThrottleRelease
  repeat' first
    | ((try lift_lets -underBinder); intro x; clear_value x)
    | (with_reducible intro _)
    | with_reducible assumption
    | with_reducible apply keepsOut_next
    | with_reducible apply keepsOut_ite
    | with_reducible apply keeps_ite
    | with_reducible apply keeps_postStep

theorem keeps_execZoneTripFence (zone : Fin 16) (s : State) : KeepsOut s (execZoneTripFence zone s) := by
  have hk := Keeps.refl s
  unfold execZoneTripFence
  repeat' first
    | ((try lift_lets -underBinder); intro x; clear_value x)
    | (with_reducible intro _)
    | with_reducible assumption
    | with_reducible apply keepsOut_next
    | with_reducible apply keepsOut_ite
    | with_reducible apply keeps_ite
    | with_reducible apply keeps_fence
    | with_reducible apply keeps_each

end Sys2Proof.Machine
end

