-- ==== Sys2Proof/Laws/KeepsCommit.lean ====
section
/-! SUPPORT. What the operations and meanings of Machine/Commit.lean keep (Laws/Keeps.lean). -/

namespace Sys2Proof.Machine

variable {s0 : State}

theorem keeps_skipAccepted {s : State} {d : Nat} (hk : Keeps s0 s) : Keeps s0 (State.skipAccepted s d) := by
  unfold State.skipAccepted
  repeat' first
    | ((try lift_lets -underBinder); intro x; clear_value x)
    | (with_reducible intro _)
    | with_reducible assumption
    | with_reducible apply keeps_dieEvent

theorem keeps_commitRequest {s : State} {chip : Nat} {p : Page} {inst : Nat} {req : Nat} {value : Nat} (hk : Keeps s0 s) : Keeps s0 (State.commitRequest s chip p inst req value) := by
  unfold State.commitRequest
  repeat' first
    | ((try lift_lets -underBinder); intro x; refine Keeps.cut (s0 := s0) x ?_ ?_ <;> [unfold x; (intro hx; clear_value x)])
    | ((try lift_lets -underBinder); intro x; refine Keeps.cut_any (s0 := s0) x ?_ ?_ <;> [unfold x; (intro hf; clear_value x)])
    | ((try lift_lets -underBinder); intro x; clear_value x)
    | (with_reducible intro _)
    | with_reducible assumption
    | with_reducible apply keeps_ite
    | with_reducible apply keeps_pageFault
    | with_reducible apply keeps_set
    | with_reducible apply keeps_skipAccepted
    | with_reducible apply hf

theorem keeps_demandCommitted {s : State} {before : State} (hk : Keeps s0 s) : Keeps s0 (State.demandCommitted s before) := by
  unfold State.demandCommitted
  repeat' first
    | (with_reducible intro _)
    | with_reducible assumption
    | with_reducible apply keeps_ite
    | with_reducible apply keeps_set
    | with_reducible apply keeps_each

theorem keeps_commitApply {s : State} {chip : Nat} {p : Page} {inst : Nat} (hk : Keeps s0 s) : Keeps s0 (State.commitApply s chip p inst) := by
  unfold State.commitApply
  repeat' first
    | ((try lift_lets -underBinder); intro x; refine Keeps.cut (s0 := s0) x ?_ ?_ <;> [unfold x; (intro hx; clear_value x)])
    | with_reducible assumption
    | with_reducible apply keeps_ite
    | with_reducible apply keeps_applyShadow
    | with_reducible apply keeps_sensorsCommitted
    | with_reducible apply keeps_zonesCommitted
    | with_reducible apply keeps_demandCommitted

theorem keeps_commitBy {s : State} {req : Nat} {p : Page} {inst : Nat} (hk : Keeps s0 s) : KeepsFst s0 (State.commitBy s req p inst) := by
  unfold State.commitBy
  repeat' first
    | ((try lift_lets -underBinder); intro x; refine Keeps.cut (s0 := s0) x ?_ ?_ <;> [unfold x; (intro hx; clear_value x)])
    | ((try lift_lets -underBinder); intro x; clear_value x)
    | with_reducible assumption
    | with_reducible apply keeps_ite
    | with_reducible apply keeps_commitRequest
    | with_reducible apply keeps_commitApply
    | with_reducible apply keepsFst_ite
    | with_reducible apply keepsFst_mk

end Sys2Proof.Machine
end

