-- ==== Sys2Proof/Laws/KeepsSelfTest.lean ====
section
/-! SUPPORT. What the operations and meanings of Machine/SelfTest.lean keep (Laws/Keeps.lean). -/

namespace Sys2Proof.Machine

variable {s0 : State}

theorem keeps_execReqTests (req : Requester) (die : DieNo) (tests : BitVec 3) (s : State) : KeepsOut s (execReqTests req die tests s) := by
  have hk := Keeps.refl s
  unfold execReqTests
  repeat' first
    | ((try lift_lets -underBinder); intro x; clear_value x)
    | (with_reducible intro _)
    | with_reducible assumption
    | with_reducible apply keepsOut_next
    | with_reducible apply keeps_onWrite
    | with_reducible apply keeps_requestTests

theorem keeps_postSlots {s : State} {h : Nat} {hold : Nat} (hk : Keeps s0 s) : Keeps s0 (State.postSlots s h hold) := by
  unfold State.postSlots
  repeat' first
    | ((try lift_lets -underBinder); intro x; refine Keeps.cut_fst (s0 := s0) x ?_ ?_ <;> [unfold x; (intro hx; clear_value x)])
    | (with_reducible intro _)
    | with_reducible assumption
    | with_reducible apply keeps_ite
    | with_reducible apply keeps_mc0Post
    | with_reducible apply keeps_set
    | with_reducible apply keepsFst_ite
    | with_reducible apply keepsFst_mk
    | with_reducible exact (keeps_mc0Post ‹_›).of ‹_›
    | with_reducible apply KeepsFst.fst
    | with_reducible apply keeps_each

theorem keeps_postSlotsLocal {s : State} (hk : Keeps s0 s) : Keeps s0 (State.postSlotsLocal s) := by
  unfold State.postSlotsLocal
  repeat' first
    | ((try lift_lets -underBinder); intro x; clear_value x)
    | (with_reducible intro _)
    | with_reducible assumption
    | with_reducible apply keeps_ite
    | with_reducible apply keeps_postSlots

theorem keeps_heardTests {s : State} {n : Nat} {code : Nat} {arg : Nat} (hk : Keeps s0 s) : Keeps s0 (State.heardTests s n code arg) := by
  unfold State.heardTests
  repeat' first
    | ((try lift_lets -underBinder); intro x; refine Keeps.cut (s0 := s0) x ?_ ?_ <;> [unfold x; (intro hx; clear_value x)])
    | ((try lift_lets -underBinder); intro x; clear_value x)
    | (with_reducible intro _)
    | with_reducible assumption
    | with_reducible apply keeps_ite
    | with_reducible apply keeps_set
    | with_reducible apply keeps_postSlotsLocal
    | with_reducible apply keeps_wrap
    | with_reducible apply keeps_put
    | split

theorem keeps_execTestRequest (s : State) : KeepsOut s (execTestRequest s) := by
  have hk := Keeps.refl s
  unfold execTestRequest
  repeat' first
    | ((try lift_lets -underBinder); intro x; refine Keeps.cut (s0 := s) x ?_ ?_ <;> [unfold x; (intro hx; clear_value x)])
    | ((try lift_lets -underBinder); intro x; clear_value x)
    | (with_reducible intro _)
    | with_reducible assumption
    | with_reducible apply keepsOut_next
    | with_reducible apply keepsOut_ite
    | with_reducible apply keeps_ite
    | with_reducible apply keeps_serve
    | with_reducible apply keeps_set
    | with_reducible apply keeps_postSlotsLocal
    | with_reducible apply keepsFst_ite
    | with_reducible apply keepsFst_mk
    | with_reducible apply keeps_each

theorem keeps_execTestCancel (s : State) : KeepsOut s (execTestCancel s) := by
  have hk := Keeps.refl s
  unfold execTestCancel
  repeat' first
    | (with_reducible intro _)
    | with_reducible assumption
    | with_reducible apply keepsOut_next
    | with_reducible apply keeps_serve
    | with_reducible apply keeps_set
    | with_reducible apply keepsFst_mk
    | with_reducible apply keeps_each

theorem keeps_execSetTestPeriod (s : State) : KeepsOut s (execSetTestPeriod s) := by
  have hk := Keeps.refl s
  unfold execSetTestPeriod
  repeat' first
    | (with_reducible intro _)
    | with_reducible assumption
    | with_reducible apply keepsOut_next
    | with_reducible apply keeps_serve
    | with_reducible apply keeps_set
    | with_reducible apply keepsFst_mk

theorem keeps_execTestPeriodTimer (s : State) : KeepsOut s (execTestPeriodTimer s) := by
  have hk := Keeps.refl s
  unfold execTestPeriodTimer
  repeat' first
    | ((try lift_lets -underBinder); intro x; refine Keeps.cut (s0 := s) x ?_ ?_ <;> [unfold x; (intro hx; clear_value x)])
    | ((try lift_lets -underBinder); intro x; clear_value x)
    | (with_reducible intro _)
    | with_reducible assumption
    | with_reducible apply keepsOut_next
    | with_reducible apply keepsOut_ite
    | with_reducible apply keeps_ite
    | with_reducible apply keeps_set
    | with_reducible apply keeps_setBit
    | with_reducible apply keeps_postSlotsLocal
    | with_reducible apply keeps_each

theorem keeps_skipColumn {s : State} {d : Nat} {g : Nat} {p : Nat} (hk : Keeps s0 s) : Keeps s0 (State.skipColumn s d g p) := by
  unfold State.skipColumn
  repeat' first
    | with_reducible assumption
    | with_reducible apply keeps_ite
    | with_reducible apply keeps_setBit
    | with_reducible apply keeps_setShadow

theorem keeps_markFailure {s : State} {d : Nat} {f : TumblerFailure} (hk : Keeps s0 s) : Keeps s0 (State.markFailure s d f) := by
  unfold State.markFailure
  repeat' first
    | ((try lift_lets -underBinder); intro x; refine Keeps.cut (s0 := s0) x ?_ ?_ <;> [unfold x; (intro hx; clear_value x)])
    | ((try lift_lets -underBinder); intro x; clear_value x)
    | with_reducible assumption
    | with_reducible apply keeps_ite
    | with_reducible apply keeps_setBit
    | with_reducible apply keeps_set
    | with_reducible apply keeps_dieEvent

theorem keeps_actOnFailures {s : State} {d : Nat} {passthru : List Nat} (hk : Keeps s0 s) : Keeps s0 (State.actOnFailures s d passthru) := by
  unfold State.actOnFailures
  repeat' first
    | ((try lift_lets -underBinder); intro x; refine Keeps.cut (s0 := s0) x ?_ ?_ <;> [unfold x; (intro hx; clear_value x)])
    | ((try lift_lets -underBinder); intro x; clear_value x)
    | (with_reducible intro _)
    | with_reducible assumption
    | with_reducible apply keeps_ite
    | with_reducible apply keeps_dieFault
    | with_reducible apply keeps_each
    | with_reducible apply keeps_skipColumn
    | with_reducible apply keeps_commitRequest
    | split

theorem keeps_execTumblerTestDone (die : DieNo) (failures : List TumblerFailure) (fixed : BitVec 32) (s : State) : KeepsOut s (execTumblerTestDone die failures fixed s) := by
  have hk := Keeps.refl s
  unfold execTumblerTestDone
  repeat' first
    | ((try lift_lets -underBinder); intro x; refine Keeps.cut (s0 := s) x ?_ ?_ <;> [unfold x; (intro hx; clear_value x)])
    | ((try lift_lets -underBinder); intro x; clear_value x)
    | (with_reducible intro _)
    | with_reducible assumption
    | with_reducible apply keepsOut_next
    | with_reducible apply keepsOut_ite
    | with_reducible apply keeps_ite
    | with_reducible apply keeps_set
    | with_reducible apply keeps_count
    | with_reducible apply keeps_onDie
    | with_reducible apply keeps_each
    | with_reducible apply keeps_foldl
    | with_reducible apply keeps_markFailure
    | with_reducible apply keeps_pageEvent
    | with_reducible apply keeps_actOnFailures
    | with_reducible apply keeps_loadAfter
    | with_reducible apply keeps_endSlot
    | (with_reducible apply keeps_update; first | assumption | with_reducible apply keeps_set | with_reducible apply keeps_count | with_reducible apply keeps_onDie | with_reducible apply keeps_each | with_reducible apply keeps_foldl | with_reducible apply keeps_markFailure | with_reducible apply keeps_pageEvent | with_reducible apply keeps_actOnFailures | with_reducible apply keeps_loadAfter | with_reducible apply keeps_endSlot)

theorem keeps_execLinkTestDone (die : DieNo) (spans : List LinkSpan) (s : State) :
    KeepsOut s (execLinkTestDone die spans s) := by
  unfold execLinkTestDone
  extract_lets d a b
  have ha : Keeps s a := keeps_set (Keeps.refl s)
  clear_value a
  have hb : Keeps s b := by
    refine keeps_foldl _ ha (fun t x ht => ?_)
    extract_lets l u bad m v
    have hv : Keeps s v := keeps_setPair (keeps_set (keeps_set ht))
    exact keeps_ite ht (keeps_ite (keeps_dieEvent hv) hv)
  clear_value b
  exact keepsOut_next (keeps_ite (Keeps.refl s) (keeps_endSlot hb))

theorem keeps_memoryFailure {s : State} {d : Nat} {u : Nat} (hk : Keeps s0 s) : Keeps s0 (State.memoryFailure s d u) := by
  unfold State.memoryFailure
  repeat' first
    | ((try lift_lets -underBinder); intro x; refine Keeps.cut (s0 := s0) x ?_ ?_ <;> [unfold x; (intro hx; clear_value x)])
    | with_reducible assumption
    | with_reducible apply keeps_setPair
    | with_reducible apply keeps_count
    | with_reducible apply keeps_tallyUe
    | with_reducible apply keeps_dieEvent

theorem keeps_execMemoryTestDone (die : DieNo) (units : BitVec 32) (ecc : Ecc) (s : State) : KeepsOut s (execMemoryTestDone die units ecc s) := by
  have hk := Keeps.refl s
  unfold execMemoryTestDone
  repeat' first
    | ((try lift_lets -underBinder); intro x; refine Keeps.cut (s0 := s) x ?_ ?_ <;> [unfold x; (intro hx; clear_value x)])
    | ((try lift_lets -underBinder); intro x; clear_value x)
    | (with_reducible intro _)
    | with_reducible assumption
    | with_reducible apply keepsOut_next
    | with_reducible apply keepsOut_ite
    | with_reducible apply keeps_ite
    | with_reducible apply keeps_set
    | with_reducible apply keeps_countCe
    | with_reducible apply keeps_memoryFailure
    | with_reducible apply keeps_endSlot
    | with_reducible apply keeps_setPair
    | with_reducible apply keeps_each

end Sys2Proof.Machine
end

