-- ==== Sys2Proof/Laws/KeepsRecords.lean ====
section
/-! SUPPORT. What the operations and meanings of Machine/Records.lean keep (Laws/Keeps.lean). -/

namespace Sys2Proof.Machine

variable {s0 : State}

theorem keeps_execRecordPresent (writer : Writer) (code : BitVec 16) (origin : BitVec 24) (arg0 : BitVec 32) (arg1 : BitVec 32) (aux : BitVec 16) (waiting : Fin 17) (s : State) : KeepsOut s (execRecordPresent writer code origin arg0 arg1 aux waiting s) := by
  have hk := Keeps.refl s
  unfold execRecordPresent
  repeat' first
    | with_reducible assumption
    | with_reducible apply keepsOut_next
    | with_reducible apply keepsOut_ite
    | with_reducible apply keeps_ite
    | with_reducible apply keeps_loseRecord
    | with_reducible apply keeps_count
    | with_reducible apply keeps_present

theorem keeps_dieAdmitted {s : State} {n : Nat} {r : DieRec} (hk : Keeps s0 s) : Keeps s0 (State.dieAdmitted s n r) := by
  unfold State.dieAdmitted
  repeat' first
    | ((try lift_lets -underBinder); intro x; refine Keeps.cut (s0 := s0) x ?_ ?_ <;> [unfold x; (intro hx; clear_value x)])
    | ((try lift_lets -underBinder); intro x; clear_value x)
    | (with_reducible intro _)
    | with_reducible assumption
    | with_reducible apply keeps_ite
    | with_reducible apply keeps_heardTests
    | with_reducible apply keeps_setBit
    | with_reducible apply keeps_fence
    | split

theorem keeps_execDieRecord (die : DieNo) (s : State) : KeepsOut s (execDieRecord die s) := by
  have hk := Keeps.refl s
  unfold execDieRecord
  repeat' first
    | ((try lift_lets -underBinder); intro x; refine Keeps.cut (s0 := s) x ?_ ?_ <;> [unfold x; (intro hx; clear_value x)])
    | ((try lift_lets -underBinder); intro x; refine Keeps.cut_fst (s0 := s) x ?_ ?_ <;> [unfold x; (intro hx; clear_value x)])
    | ((try lift_lets -underBinder); intro x; refine Keeps.cut_snd (s0 := s) x ?_ ?_ <;> [unfold x; (intro hx; clear_value x)])
    | ((try lift_lets -underBinder); intro x; clear_value x)
    | (with_reducible intro _)
    | with_reducible assumption
    | with_reducible apply keepsOut_next
    | with_reducible apply keepsOut_ite
    | with_reducible apply keeps_ite
    | with_reducible apply keepsFst_ite
    | with_reducible apply keeps_onDie
    | with_reducible apply keeps_devqRegs
    | with_reducible apply keeps_count
    | with_reducible apply keeps_admitRecord
    | with_reducible apply keeps_dieAdmitted
    | (refine KeepsFst.of (keeps_admitRecord ?_) (by assumption))
    | split
    | (with_reducible apply keeps_update; first | assumption | with_reducible apply keeps_onDie | with_reducible apply keeps_devqRegs | with_reducible apply keeps_count | with_reducible apply keeps_dieAdmitted)

theorem keeps_execReserve (req : Requester) (core : McNo) (s : State) : KeepsOut s (execReserve req core s) := by
  have hk := Keeps.refl s
  unfold execReserve
  repeat' first
    | ((try lift_lets -underBinder); intro x; clear_value x)
    | (with_reducible intro _)
    | with_reducible assumption
    | with_reducible apply keepsOut_next
    | with_reducible apply keepsOut_ite
    | with_reducible apply keeps_ite
    | with_reducible apply keeps_onWrite
    | with_reducible apply keeps_regFault
    | with_reducible apply keeps_count
    | with_reducible apply keeps_set
    | with_reducible apply keeps_admit
    | with_reducible apply keepsFst_ite
    | with_reducible apply keepsFst_mk
    | with_reducible exact (keeps_admit ‹_›).of ‹_›
    | with_reducible apply KeepsFst.fst
    | (refine KeepsFst.of (keeps_admit ?_) (by assumption))
    | split

theorem keeps_execCommit (req : Requester) (core : McNo) (s : State) : KeepsOut s (execCommit req core s) := by
  have hk := Keeps.refl s
  unfold execCommit
  repeat' first
    | ((try lift_lets -underBinder); intro x; clear_value x)
    | (with_reducible intro _)
    | with_reducible assumption
    | with_reducible apply keepsOut_next
    | with_reducible apply keeps_onWrite
    | with_reducible apply keeps_flushPage
    | with_reducible apply keeps_set
    | with_reducible apply keeps_ringRegs
    | split
    | (with_reducible apply keeps_update; first | assumption | with_reducible apply keeps_onWrite | with_reducible apply keeps_flushPage | with_reducible apply keeps_set | with_reducible apply keeps_ringRegs)

theorem keeps_execCancel (req : Requester) (core : McNo) (s : State) : KeepsOut s (execCancel req core s) := by
  have hk := Keeps.refl s
  unfold execCancel
  repeat' first
    | (with_reducible intro _)
    | with_reducible assumption
    | with_reducible apply keepsOut_next
    | with_reducible apply keeps_onWrite
    | with_reducible apply keeps_voidReservation

theorem keeps_execReservationTimeout (core : McNo) (s : State) : KeepsOut s (execReservationTimeout core s) := by
  have hk := Keeps.refl s
  unfold execReservationTimeout
  repeat' first
    | with_reducible assumption
    | with_reducible apply keepsOut_next
    | with_reducible apply keeps_voidReservation

theorem keeps_execBucketRefill (s : State) : KeepsOut s (execBucketRefill s) := by
  have hk := Keeps.refl s
  unfold execBucketRefill
  exact keepsOut_ite (keepsOut_next hk) (keepsOut_next (keeps_each _ (keeps_update hk) (fun _ _ h => keeps_set h)))

theorem keeps_execSweep (s : State) : KeepsOut s (execSweep s) := by
  have hk := Keeps.refl s
  unfold execSweep
  repeat' first
    | with_reducible assumption
    | with_reducible apply keepsOut_next
    | with_reducible apply keepsOut_ite
    | with_reducible apply keeps_ite
    | with_reducible apply keeps_flushAfter
    | with_reducible apply keeps_sweep

theorem keeps_setClass {s : State} {code cls : Nat} (hk : Keeps s0 s) : Keeps s0 (s.setClass code cls) :=
  hk.frame rfl rfl rfl rfl rfl rfl rfl rfl rfl

theorem keeps_execCmSet (req : Requester) (s : State) : KeepsOut s (execCmSet req s) := by
  have hk := Keeps.refl s
  unfold execCmSet
  repeat' first
    | ((try lift_lets -underBinder); intro x; clear_value x)
    | (with_reducible intro _)
    | with_reducible assumption
    | with_reducible apply keepsOut_next
    | with_reducible apply keepsOut_ite
    | with_reducible apply keeps_ite
    | with_reducible apply keeps_onWrite
    | with_reducible apply keeps_setClass
    | with_reducible apply keeps_regFault

theorem keeps_execEvrecFlush (req : Requester) (s : State) : KeepsOut s (execEvrecFlush req s) := by
  have hk := Keeps.refl s
  unfold execEvrecFlush
  repeat' first
    | (with_reducible intro _)
    | with_reducible assumption
    | with_reducible apply keepsOut_next
    | with_reducible apply keeps_onWrite
    | with_reducible apply keeps_startFlush

theorem keeps_flashFault {s : State} {address : Nat} (hk : Keeps s0 s) : Keeps s0 (State.flashFault s address) := by
  unfold State.flashFault
  repeat' first
    | ((try lift_lets -underBinder); intro x; refine Keeps.cut (s0 := s0) x ?_ ?_ <;> [unfold x; (intro hx; clear_value x)])
    | with_reducible assumption
    | with_reducible apply keeps_set
    | with_reducible apply keeps_event
    | with_reducible apply keeps_pageEvent

theorem keeps_clearFlashFault {s : State} (hk : Keeps s0 s) : Keeps s0 (State.clearFlashFault s) := by
  unfold State.clearFlashFault
  repeat' first
    | ((try lift_lets -underBinder); intro x; refine Keeps.cut (s0 := s0) x ?_ ?_ <;> [unfold x; (intro hx; clear_value x)])
    | ((try lift_lets -underBinder); intro x; clear_value x)
    | with_reducible assumption
    | with_reducible apply keeps_ite
    | with_reducible apply keeps_set
    | with_reducible apply keeps_startFlush
    | with_reducible apply keeps_startErase
    | (with_reducible apply keeps_update; first | assumption | with_reducible apply keeps_set | with_reducible apply keeps_startFlush | with_reducible apply keeps_startErase)

theorem keeps_execEvrecClearFlashFault (req : Requester) (s : State) : KeepsOut s (execEvrecClearFlashFault req s) := by
  have hk := Keeps.refl s
  unfold execEvrecClearFlashFault
  repeat' first
    | with_reducible assumption
    | with_reducible apply keepsOut_next
    | with_reducible apply keeps_onWrite
    | with_reducible apply keeps_clearFlashFault

theorem keeps_writePage {s : State} {marked : Bool} (hk : Keeps s0 s) : Keeps s0 (State.writePage s marked) := by
  unfold State.writePage
  repeat' first
    | ((try lift_lets -underBinder); intro x; clear_value x)
    | (with_reducible intro _)
    | with_reducible assumption
    | with_reducible apply keeps_ite
    | with_reducible apply keeps_each
    | split
    | (with_reducible apply keeps_update; first | assumption | with_reducible apply keeps_set)

theorem keeps_execPageProgramDone (ok : Bool) (s : State) : KeepsOut s (execPageProgramDone ok s) := by
  have hk := Keeps.refl s
  unfold execPageProgramDone
  repeat' first
    | ((try lift_lets -underBinder); intro x; clear_value x)
    | with_reducible assumption
    | with_reducible apply keepsOut_next
    | with_reducible apply keepsOut_ite
    | with_reducible apply keeps_ite
    | with_reducible apply keeps_flashFault
    | with_reducible apply keeps_writePage
    | with_reducible apply keeps_flushPage
    | with_reducible apply keeps_set
    | with_reducible apply keeps_ringRegs
    | split

theorem keeps_execEraseDone (ok : Bool) (s : State) : KeepsOut s (execEraseDone ok s) := by
  have hk := Keeps.refl s
  unfold execEraseDone
  repeat' first
    | ((try lift_lets -underBinder); intro x; refine Keeps.cut (s0 := s) x ?_ ?_ <;> [unfold x; (intro hx; clear_value x)])
    | (with_reducible intro _)
    | with_reducible assumption
    | with_reducible apply keepsOut_next
    | with_reducible apply keepsOut_ite
    | with_reducible apply keeps_ite
    | with_reducible apply keeps_flashFault
    | with_reducible apply keeps_put
    | with_reducible apply keeps_flushPage
    | with_reducible apply hf
    | split
    | (with_reducible apply keeps_update; first | assumption | with_reducible apply keeps_flashFault | with_reducible apply keeps_put | with_reducible apply keeps_flushPage)

theorem keeps_execEraseTimeout (s : State) : KeepsOut s (execEraseTimeout s) := by
  have hk := Keeps.refl s
  unfold execEraseTimeout
  repeat' first
    | with_reducible assumption
    | with_reducible apply keepsOut_next
    | with_reducible apply keeps_flashFault
    | with_reducible apply keeps_put
    | split
    | (with_reducible apply keeps_update; first | assumption | with_reducible apply keeps_flashFault | with_reducible apply keeps_put)

theorem keeps_execPfFlushLimit (s : State) : KeepsOut s (execPfFlushLimit s) := by
  have hk := Keeps.refl s
  unfold execPfFlushLimit
  repeat' first
    | with_reducible assumption
    | with_reducible apply keepsOut_next
    | with_reducible apply keepsOut_ite
    | with_reducible apply keeps_ite
    | with_reducible apply keeps_flushPage
    | with_reducible apply keeps_set

theorem keeps_execStartupSearchDone (s : State) : KeepsOut s (execStartupSearchDone s) := by
  have hk := Keeps.refl s
  unfold execStartupSearchDone
  repeat' first
    | ((try lift_lets -underBinder); intro x; refine Keeps.cut (s0 := s) x ?_ ?_ <;> [unfold x; (intro hx; clear_value x)])
    | ((try lift_lets -underBinder); intro x; clear_value x)
    | (with_reducible intro _)
    | with_reducible assumption
    | with_reducible apply keepsOut_next
    | with_reducible apply keepsOut_ite
    | with_reducible apply keeps_ite
    | with_reducible apply keeps_set
    | with_reducible apply keeps_ringRegs
    | with_reducible apply keeps_startErase
    | with_reducible apply keeps_event
    | with_reducible apply keeps_admit
    | with_reducible apply keeps_loseRecord
    | with_reducible apply keepsFst_ite
    | with_reducible apply keepsFst_mk
    | with_reducible exact (keeps_admit ‹_›).of ‹_›
    | with_reducible apply KeepsFst.fst
    | with_reducible apply keeps_foldl
    | with_reducible apply hf
    | (refine KeepsFst.of (keeps_admit ?_) (by assumption))
    | split
    | (with_reducible apply keeps_update; first | assumption | with_reducible apply keeps_set | with_reducible apply keeps_ringRegs | with_reducible apply keeps_startErase | with_reducible apply keeps_event | with_reducible apply keeps_admit | with_reducible apply keeps_loseRecord)

theorem keeps_execRdSeq (req : Requester) (window : Fin 5) (seq : BitVec 32) (s : State) : KeepsOut s (execRdSeq req window seq s) := by
  have hk := Keeps.refl s
  unfold execRdSeq
  repeat' first
    | ((try lift_lets -underBinder); intro x; refine Keeps.cut (s0 := s) x ?_ ?_ <;> [unfold x; (intro hx; clear_value x)])
    | ((try lift_lets -underBinder); intro x; clear_value x)
    | (with_reducible intro _)
    | with_reducible assumption
    | with_reducible apply keepsOut_next
    | with_reducible apply keepsOut_ite
    | with_reducible apply keeps_ite
    | with_reducible apply keeps_onWrite
    | with_reducible apply keeps_set
    | with_reducible apply keeps_each
    | split

theorem keeps_execFlSeq (req : Requester) (window : Fin 5) (seq : BitVec 32) (s : State) : KeepsOut s (execFlSeq req window seq s) := by
  have hk := Keeps.refl s
  unfold execFlSeq
  repeat' first
    | ((try lift_lets -underBinder); intro x; refine Keeps.cut (s0 := s) x ?_ ?_ <;> [unfold x; (intro hx; clear_value x)])
    | ((try lift_lets -underBinder); intro x; clear_value x)
    | (with_reducible intro _)
    | with_reducible assumption
    | with_reducible apply keepsOut_next
    | with_reducible apply keepsOut_ite
    | with_reducible apply keeps_ite
    | with_reducible apply keeps_onWrite
    | with_reducible apply keeps_set
    | with_reducible apply keeps_pageEvent

theorem keeps_execFlashReadDone (window : Fin 5) (read : Option (List (BitVec 32))) (s : State) : KeepsOut s (execFlashReadDone window read s) := by
  have hk := Keeps.refl s
  unfold execFlashReadDone
  repeat' first
    | ((try lift_lets -underBinder); intro x; refine Keeps.cut (s0 := s) x ?_ ?_ <;> [unfold x; (intro hx; clear_value x)])
    | ((try lift_lets -underBinder); intro x; clear_value x)
    | (with_reducible intro _)
    | with_reducible assumption
    | with_reducible apply keepsOut_next
    | with_reducible apply keepsOut_ite
    | with_reducible apply keeps_ite
    | with_reducible apply keeps_each
    | with_reducible apply keeps_set
    | with_reducible apply keeps_pageEvent
    | split

theorem keeps_execFlush (s : State) : KeepsOut s (execFlush s) := by
  have hk := Keeps.refl s
  unfold execFlush
  repeat' first
    | (with_reducible intro _)
    | with_reducible assumption
    | with_reducible apply keepsOut_next
    | with_reducible apply keepsOut_ite
    | with_reducible apply keeps_ite
    | with_reducible apply keeps_serve
    | with_reducible apply keeps_startFlush
    | with_reducible apply keepsFst_ite
    | with_reducible apply keepsFst_mk

theorem keeps_execSetClass (s : State) : KeepsOut s (execSetClass s) := by
  have hk := Keeps.refl s
  unfold execSetClass
  repeat' first
    | (with_reducible intro _)
    | with_reducible assumption
    | with_reducible apply keepsOut_next
    | with_reducible apply keepsOut_ite
    | with_reducible apply keeps_ite
    | with_reducible apply keeps_serve
    | with_reducible apply keeps_setClass
    | with_reducible apply keepsFst_ite
    | with_reducible apply keepsFst_mk

theorem keeps_execSetFlushMark (s : State) : KeepsOut s (execSetFlushMark s) := by
  have hk := Keeps.refl s
  unfold execSetFlushMark
  repeat' first
    | ((try lift_lets -underBinder); intro x; clear_value x)
    | (with_reducible intro _)
    | with_reducible assumption
    | with_reducible apply keepsOut_next
    | with_reducible apply keepsOut_ite
    | with_reducible apply keeps_ite
    | with_reducible apply keeps_serve
    | with_reducible apply keeps_set
    | with_reducible apply keepsFst_ite
    | with_reducible apply keepsFst_mk

theorem keeps_execClearFlashFault (s : State) : KeepsOut s (execClearFlashFault s) := by
  have hk := Keeps.refl s
  unfold execClearFlashFault
  repeat' first
    | (with_reducible intro _)
    | with_reducible assumption
    | with_reducible apply keepsOut_next
    | with_reducible apply keepsOut_ite
    | with_reducible apply keeps_ite
    | with_reducible apply keeps_serve
    | with_reducible apply keeps_clearFlashFault
    | with_reducible apply keepsFst_ite
    | with_reducible apply keepsFst_mk

end Sys2Proof.Machine
end

