-- ==== Sys2Proof/Laws/KeepsTwoWire.lean ====
section
/-! SUPPORT. What the operations and meanings of Machine/TwoWire.lean keep (Laws/Keeps.lean). -/

namespace Sys2Proof.Machine

variable {s0 : State}

theorem keeps_eventFree {s : State} {p : Page} {code : Nat} {inst : Nat} (hk : Keeps s0 s) : Keeps s0 (State.eventFree s p code inst) := by
  unfold State.eventFree
  repeat' first
    | with_reducible assumption
    | with_reducible apply keeps_useFree
    | with_reducible apply keeps_event

theorem keeps_twSafe {s : State} {k : Nat} (hk : Keeps s0 s) : Keeps s0 (State.twSafe s k) := by
  unfold State.twSafe
  repeat' first
    | ((try lift_lets -underBinder); intro x; refine Keeps.cut (s0 := s0) x ?_ ?_ <;> [unfold x; (intro hx; clear_value x)])
    | (with_reducible intro _)
    | with_reducible assumption
    | with_reducible apply keeps_set
    | with_reducible apply keeps_each

theorem keeps_twRecover {s : State} {k : Nat} (hk : Keeps s0 s) : Keeps s0 (State.twRecover s k) := by
  unfold State.twRecover
  repeat' first
    | with_reducible assumption
    | with_reducible apply keeps_put
    | with_reducible apply keeps_set

theorem keeps_twCut {s : State} {k : Nat} (hk : Keeps s0 s) : Keeps s0 (State.twCut s k) := by
  unfold State.twCut
  repeat' first
    | with_reducible assumption
    | with_reducible apply keeps_ite
    | with_reducible apply keeps_eventFree
    | with_reducible apply keeps_set

theorem keeps_twResult {s : State} {k : Nat} {result : Nat} (hk : Keeps s0 s) : Keeps s0 (State.twResult s k result) := by
  unfold State.twResult
  repeat' first
    | ((try lift_lets -underBinder); intro x; refine Keeps.cut (s0 := s0) x ?_ ?_ <;> [unfold x; (intro hx; clear_value x)])
    | with_reducible assumption
    | with_reducible apply keeps_ite
    | with_reducible apply keeps_pageEvent
    | with_reducible apply keeps_set
    | with_reducible apply keeps_count
    | with_reducible apply keeps_event

theorem keeps_twWatchdog {s : State} {k : Nat} (hk : Keeps s0 s) : Keeps s0 (State.twWatchdog s k) := by
  unfold State.twWatchdog
  repeat' first
    | ((try lift_lets -underBinder); intro x; refine Keeps.cut (s0 := s0) x ?_ ?_ <;> [unfold x; (intro hx; clear_value x)])
    | ((try lift_lets -underBinder); intro x; clear_value x)
    | with_reducible assumption
    | with_reducible apply keeps_ite
    | with_reducible apply keeps_twSafe
    | with_reducible apply keeps_twCut
    | with_reducible apply keeps_twRecover
    | with_reducible apply keeps_set

theorem keeps_twDisable {s : State} {k : Nat} (hk : Keeps s0 s) : Keeps s0 (State.twDisable s k) := by
  unfold State.twDisable
  repeat' first
    | ((try lift_lets -underBinder); intro x; refine Keeps.cut (s0 := s0) x ?_ ?_ <;> [unfold x; (intro hx; clear_value x)])
    | with_reducible assumption
    | with_reducible apply keeps_ite
    | with_reducible apply keeps_twCut
    | with_reducible apply keeps_set
    | with_reducible apply keeps_twResult
    | with_reducible apply keeps_twSafe

theorem keeps_twEnableOn {s : State} {k : Nat} {req : Nat} {value : Nat} (hk : Keeps s0 s) : Keeps s0 (State.twEnableOn s k req value) := by
  unfold State.twEnableOn
  repeat' first
    | with_reducible assumption
    | with_reducible apply keeps_ite
    | with_reducible apply keeps_pageFault
    | with_reducible apply keeps_twRecover
    | with_reducible apply keeps_set

theorem keeps_execTwoWireEnable (req : Requester) (bus : Fin 6) (s : State) : KeepsOut s (execTwoWireEnable req bus s) := by
  have hk := Keeps.refl s
  unfold execTwoWireEnable
  repeat' first
    | with_reducible assumption
    | with_reducible apply keepsOut_next
    | with_reducible apply keepsOut_ite
    | with_reducible apply keeps_ite
    | with_reducible apply keeps_set
    | with_reducible apply keeps_twEnableOn

theorem keeps_execTwClaim (req : Requester) (bus : Fin 6) (core : McNo) (s : State) : KeepsOut s (execTwClaim req bus core s) := by
  have hk := Keeps.refl s
  unfold execTwClaim
  repeat' first
    | ((try lift_lets -underBinder); intro x; clear_value x)
    | (with_reducible intro _)
    | with_reducible assumption
    | with_reducible apply keepsOut_next
    | with_reducible apply keepsOut_ite
    | with_reducible apply keeps_ite
    | with_reducible apply keeps_onWrite
    | with_reducible apply keeps_set

theorem keeps_execTwRelease (req : Requester) (bus : Fin 6) (core : McNo) (s : State) : KeepsOut s (execTwRelease req bus core s) := by
  have hk := Keeps.refl s
  unfold execTwRelease
  repeat' first
    | ((try lift_lets -underBinder); intro x; clear_value x)
    | (with_reducible intro _)
    | with_reducible assumption
    | with_reducible apply keepsOut_next
    | with_reducible apply keepsOut_ite
    | with_reducible apply keeps_ite
    | with_reducible apply keeps_onWrite
    | with_reducible apply keeps_regFault
    | with_reducible apply keeps_set
    | with_reducible apply keeps_twSafe

theorem keeps_twGo {s : State} {k : Nat} {op : Nat} {req : Nat} {pec : Bool} {addr : Nat} {seg : Nat} (hk : Keeps s0 s) : Keeps s0 (State.twGo s k op req pec addr seg) := by
  unfold State.twGo
  repeat' first
    | ((try lift_lets -underBinder); intro x; refine Keeps.cut (s0 := s0) x ?_ ?_ <;> [unfold x; (intro hx; clear_value x)])
    | ((try lift_lets -underBinder); intro x; clear_value x)
    | with_reducible assumption
    | with_reducible apply keeps_ite
    | with_reducible apply keeps_regFault
    | with_reducible apply keeps_set
    | with_reducible apply keeps_put
    | with_reducible apply keeps_twResult
    | with_reducible apply keeps_count
    | with_reducible apply keeps_twRecover
    | with_reducible apply keeps_setBit

theorem keeps_execTwWrite (req : Requester) (bus : Fin 6) (pec : Bool) (address : BitVec 7) (segment : Fin 8) (s : State) : KeepsOut s (execTwWrite req bus pec address segment s) := by
  have hk := Keeps.refl s
  unfold execTwWrite
  repeat' first
    | with_reducible assumption
    | with_reducible apply keepsOut_next
    | with_reducible apply keeps_twGo

theorem keeps_execTwRead (req : Requester) (bus : Fin 6) (pec : Bool) (address : BitVec 7) (segment : Fin 8) (s : State) : KeepsOut s (execTwRead req bus pec address segment s) := by
  have hk := Keeps.refl s
  unfold execTwRead
  repeat' first
    | with_reducible assumption
    | with_reducible apply keepsOut_next
    | with_reducible apply keeps_twGo

theorem keeps_execWriteRead (req : Requester) (bus : Fin 6) (pec : Bool) (address : BitVec 7) (segment : Fin 8) (s : State) : KeepsOut s (execWriteRead req bus pec address segment s) := by
  have hk := Keeps.refl s
  unfold execWriteRead
  repeat' first
    | with_reducible assumption
    | with_reducible apply keepsOut_next
    | with_reducible apply keeps_twGo

theorem keeps_execBlockRead (req : Requester) (bus : Fin 6) (pec : Bool) (address : BitVec 7) (segment : Fin 8) (s : State) : KeepsOut s (execBlockRead req bus pec address segment s) := by
  have hk := Keeps.refl s
  unfold execBlockRead
  repeat' first
    | with_reducible assumption
    | with_reducible apply keepsOut_next
    | with_reducible apply keeps_twGo

theorem keeps_twStore {s : State} {k : Nat} {bytes : List Nat} (hk : Keeps s0 s) : Keeps s0 (State.twStore s k bytes) := by
  unfold State.twStore
  repeat' first
    | (with_reducible intro _)
    | with_reducible assumption
    | with_reducible apply keeps_each
    | with_reducible apply keeps_set

theorem keeps_twFinish {s : State} {k : Nat} {result : Nat} (hk : Keeps s0 s) : Keeps s0 (State.twFinish s k result) := by
  unfold State.twFinish
  repeat' first
    | with_reducible assumption
    | with_reducible apply keeps_ite
    | with_reducible apply keeps_twRecover
    | with_reducible apply keeps_set
    | with_reducible apply keeps_twResult

theorem keeps_execTransactionEnd (bus : Fin 6) (result : TwEnd) (count : Fin 257) (data : List Byte) (blockCount : Byte) (pec : Byte) (s : State) : KeepsOut s (execTransactionEnd bus result count data blockCount pec s) := by
  have hk := Keeps.refl s
  unfold execTransactionEnd
  repeat' first
    | ((try lift_lets -underBinder); intro x; refine Keeps.cut (s0 := s) x ?_ ?_ <;> [unfold x; (intro hx; clear_value x)])
    | ((try lift_lets -underBinder); intro x; clear_value x)
    | (with_reducible intro _)
    | with_reducible assumption
    | with_reducible apply keepsOut_next
    | with_reducible apply keepsOut_ite
    | with_reducible apply keeps_ite
    | with_reducible apply keeps_set
    | with_reducible apply keeps_count
    | with_reducible apply keeps_twStore
    | with_reducible apply keeps_twFinish

theorem keeps_execAbort (req : Requester) (bus : Fin 6) (s : State) : KeepsOut s (execAbort req bus s) := by
  have hk := Keeps.refl s
  unfold execAbort
  repeat' first
    | ((try lift_lets -underBinder); intro x; clear_value x)
    | with_reducible assumption
    | with_reducible apply keepsOut_next
    | with_reducible apply keepsOut_ite
    | with_reducible apply keeps_ite
    | with_reducible apply keeps_regFault
    | with_reducible apply keeps_twRecover
    | with_reducible apply keeps_twCut

theorem keeps_execStretchTimeout (bus : Fin 6) (s : State) : KeepsOut s (execStretchTimeout bus s) := by
  have hk := Keeps.refl s
  unfold execStretchTimeout
  repeat' first
    | with_reducible assumption
    | with_reducible apply keepsOut_next
    | with_reducible apply keepsOut_ite
    | with_reducible apply keeps_ite
    | with_reducible apply keeps_twFinish

theorem keeps_execTransactionTimeout (bus : Fin 6) (s : State) : KeepsOut s (execTransactionTimeout bus s) := by
  have hk := Keeps.refl s
  unfold execTransactionTimeout
  repeat' first
    | with_reducible assumption
    | with_reducible apply keepsOut_next
    | with_reducible apply keepsOut_ite
    | with_reducible apply keeps_ite
    | with_reducible apply keeps_twFinish

theorem keeps_twSettle {s : State} {k : Nat} {st : Nat} (hk : Keeps s0 s) : Keeps s0 (State.twSettle s k st) := by
  unfold State.twSettle
  repeat' first
    | ((try lift_lets -underBinder); intro x; refine Keeps.cut (s0 := s0) x ?_ ?_ <;> [unfold x; (intro hx; clear_value x)])
    | with_reducible assumption
    | with_reducible apply keeps_ite
    | with_reducible apply keeps_set
    | with_reducible apply keeps_twResult
    | with_reducible apply keeps_twSafe

theorem keeps_execRecoveryEnd (bus : Fin 6) (ok : Bool) (scl : Bool) (trunkHigh : Bool) (s : State) : KeepsOut s (execRecoveryEnd bus ok scl trunkHigh s) := by
  have hk := Keeps.refl s
  unfold execRecoveryEnd
  repeat' first
    | ((try lift_lets -underBinder); intro x; refine Keeps.cut (s0 := s) x ?_ ?_ <;> [unfold x; (intro hx; clear_value x)])
    | ((try lift_lets -underBinder); intro x; clear_value x)
    | with_reducible assumption
    | with_reducible apply keepsOut_next
    | with_reducible apply keepsOut_ite
    | with_reducible apply keeps_ite
    | with_reducible apply keeps_count
    | with_reducible apply keeps_set
    | with_reducible apply keeps_twSettle
    | with_reducible apply keeps_event
    | with_reducible apply keeps_setBit
    | with_reducible apply keeps_twResult
    | with_reducible apply keeps_pageEvent

theorem keeps_execClearStuck (req : Requester) (bus : Fin 6) (s : State) : KeepsOut s (execClearStuck req bus s) := by
  have hk := Keeps.refl s
  unfold execClearStuck
  repeat' first
    | ((try lift_lets -underBinder); intro x; refine Keeps.cut (s0 := s) x ?_ ?_ <;> [unfold x; (intro hx; clear_value x)])
    | ((try lift_lets -underBinder); intro x; clear_value x)
    | (with_reducible intro _)
    | with_reducible assumption
    | with_reducible apply keepsOut_next
    | with_reducible apply keepsOut_ite
    | with_reducible apply keeps_ite
    | with_reducible apply keeps_onWrite
    | with_reducible apply keeps_set
    | with_reducible apply keeps_twRecover

theorem keeps_execCorePllLoss (s : State) : KeepsOut s (execCorePllLoss s) := by
  have hk := Keeps.refl s
  unfold execCorePllLoss
  repeat' first
    | ((try lift_lets -underBinder); intro x; refine Keeps.cut (s0 := s) x ?_ ?_ <;> [unfold x; (intro hx; clear_value x)])
    | (with_reducible intro _)
    | with_reducible assumption
    | with_reducible apply keepsOut_next
    | with_reducible apply keepsOut_ite
    | with_reducible apply keeps_ite
    | with_reducible apply keeps_event
    | with_reducible apply keeps_set
    | with_reducible apply keeps_twRecover
    | with_reducible apply keeps_twCut
    | with_reducible apply keeps_each

theorem keeps_execCorePllRelock (s : State) : KeepsOut s (execCorePllRelock s) := by
  have hk := Keeps.refl s
  unfold execCorePllRelock
  repeat' first
    | (with_reducible intro _)
    | with_reducible assumption
    | with_reducible apply keepsOut_next
    | with_reducible apply keeps_set
    | with_reducible apply keeps_each

end Sys2Proof.Machine
end

