-- ==== Sys2Proof/Laws/KeepsHostCommands.lean ====
section
/-! SUPPORT. What the operations and meanings of Machine/HostCommands.lean keep (Laws/Keeps.lean). -/

namespace Sys2Proof.Machine

variable {s0 : State}

theorem keeps_execClearTrip (s : State) : KeepsOut s (execClearTrip s) := by
  have hk := Keeps.refl s
  unfold execClearTrip
  repeat' first
    | ((try lift_lets -underBinder); intro x; clear_value x)
    | (with_reducible intro _)
    | with_reducible assumption
    | with_reducible apply keepsOut_next
    | with_reducible apply keepsOut_ite
    | with_reducible apply keeps_ite
    | with_reducible apply keeps_serve
    | with_reducible apply keeps_set
    | with_reducible apply keepsFst_ite
    | with_reducible apply keepsFst_mk

theorem keeps_execSetThrottle (s : State) : KeepsOut s (execSetThrottle s) := by
  have hk := Keeps.refl s
  unfold execSetThrottle
  repeat' first
    | ((try lift_lets -underBinder); intro x; refine Keeps.cut_fst (s0 := s) x ?_ ?_ <;> [unfold x; (intro hx; clear_value x)])
    | ((try lift_lets -underBinder); intro x; clear_value x)
    | (with_reducible intro _)
    | with_reducible assumption
    | with_reducible apply keepsOut_next
    | with_reducible apply keepsOut_ite
    | with_reducible apply keeps_ite
    | with_reducible apply keeps_serve
    | with_reducible apply keeps_commitBy
    | with_reducible apply keeps_setShadow
    | with_reducible apply keepsFst_ite
    | with_reducible apply keepsFst_mk

theorem keeps_execSetForecast (s : State) : KeepsOut s (execSetForecast s) := by
  have hk := Keeps.refl s
  unfold execSetForecast
  repeat' first
    | (with_reducible intro _)
    | with_reducible assumption
    | with_reducible apply keepsOut_next
    | with_reducible apply keeps_serve
    | with_reducible apply keeps_set
    | with_reducible apply keepsFst_mk

theorem keeps_execClearSensor (s : State) : KeepsOut s (execClearSensor s) := by
  have hk := Keeps.refl s
  unfold execClearSensor
  repeat' first
    | ((try lift_lets -underBinder); intro x; clear_value x)
    | (with_reducible intro _)
    | with_reducible assumption
    | with_reducible apply keepsOut_next
    | with_reducible apply keepsOut_ite
    | with_reducible apply keeps_ite
    | with_reducible apply keeps_serve
    | with_reducible apply keeps_evaluate
    | with_reducible apply keeps_clearSensor
    | with_reducible apply keepsFst_ite
    | with_reducible apply keepsFst_mk

theorem keeps_setFloor {s : State} {r : Reg} {i : Nat} {p : Page} {v : Nat} (hk : Keeps s0 s) :
    KeepsFst s0 (s.setFloor r i p v) := keeps_commitBy (keeps_setShadow hk)

theorem keeps_execSetFanFloor (s : State) : KeepsOut s (execSetFanFloor s) := by
  have hk := Keeps.refl s
  unfold execSetFanFloor
  repeat' first
    | ((try lift_lets -underBinder); intro x; refine Keeps.cut_fst (s0 := s) x ?_ ?_ <;> [unfold x; (intro hx; clear_value x)])
    | ((try lift_lets -underBinder); intro x; clear_value x)
    | (with_reducible intro _)
    | with_reducible assumption
    | with_reducible apply keepsOut_next
    | with_reducible apply keepsOut_ite
    | with_reducible apply keeps_ite
    | with_reducible apply keeps_serve
    | with_reducible apply keeps_setFloor
    | with_reducible apply keepsFst_ite
    | with_reducible apply keepsFst_mk

theorem keeps_execSetPumpFloor (s : State) : KeepsOut s (execSetPumpFloor s) := by
  have hk := Keeps.refl s
  unfold execSetPumpFloor
  repeat' first
    | ((try lift_lets -underBinder); intro x; refine Keeps.cut_fst (s0 := s) x ?_ ?_ <;> [unfold x; (intro hx; clear_value x)])
    | ((try lift_lets -underBinder); intro x; clear_value x)
    | (with_reducible intro _)
    | with_reducible assumption
    | with_reducible apply keepsOut_next
    | with_reducible apply keepsOut_ite
    | with_reducible apply keeps_ite
    | with_reducible apply keeps_serve
    | with_reducible apply keeps_setFloor
    | with_reducible apply keepsFst_ite
    | with_reducible apply keepsFst_mk

theorem keeps_execClearCoolFault (s : State) : KeepsOut s (execClearCoolFault s) := by
  have hk := Keeps.refl s
  unfold execClearCoolFault
  repeat' first
    | ((try lift_lets -underBinder); intro x; clear_value x)
    | (with_reducible intro _)
    | with_reducible assumption
    | with_reducible apply keepsOut_next
    | with_reducible apply keepsOut_ite
    | with_reducible apply keeps_ite
    | with_reducible apply keeps_serve
    | with_reducible apply keeps_clearCoolFault
    | with_reducible apply keepsFst_ite
    | with_reducible apply keepsFst_mk

theorem keeps_execClearHostFloors (s : State) : KeepsOut s (execClearHostFloors s) := by
  have hk := Keeps.refl s
  unfold execClearHostFloors
  repeat' first
    | ((try lift_lets -underBinder); intro x; refine Keeps.cut (s0 := s) x ?_ ?_ <;> [unfold x; (intro hx; clear_value x)])
    | (with_reducible intro _)
    | with_reducible assumption
    | with_reducible apply keepsOut_next
    | with_reducible apply keepsOut_ite
    | with_reducible apply keeps_ite
    | with_reducible apply keeps_serve
    | with_reducible apply keeps_setShadow
    | with_reducible apply keeps_commitBy
    | with_reducible apply keepsFst_ite
    | with_reducible apply keepsFst_mk
    | with_reducible exact (keeps_commitBy ‹_›).of ‹_›
    | with_reducible apply KeepsFst.fst
    | with_reducible apply keeps_each

end Sys2Proof.Machine
end

