-- ==== Sys2Proof/Laws/KeepsStart.lean ====
section
/-! SUPPORT. What the operations and meanings of Machine/Start.lean keep (Laws/Keeps.lean). -/

namespace Sys2Proof.Machine

variable {s0 : State}

theorem keeps_loadProfiles {s : State} {l : List FruProfile} (hk : Keeps s0 s) : Keeps s0 (State.loadProfiles s l) := by
  unfold State.loadProfiles
  repeat' first
    | (with_reducible intro _)
    | with_reducible assumption
    | with_reducible apply keeps_foldl
    | with_reducible apply keeps_each
    | with_reducible apply keeps_set

theorem keeps_loadField {s : State} {r : Reg} {i : Nat} {v : Nat} (hk : Keeps s0 s) : Keeps s0 (State.loadField s r i v) := by
  unfold State.loadField
  repeat' first
    | with_reducible assumption
    | with_reducible apply keeps_setShadow

theorem keeps_loadSensors {s : State} (hk : Keeps s0 s) : Keeps s0 (State.loadSensors s) := by
  unfold State.loadSensors
  repeat' first
    | ((try lift_lets -underBinder); intro x; refine Keeps.cut (s0 := s0) x ?_ ?_ <;> [unfold x; (intro hx; clear_value x)])
    | ((try lift_lets -underBinder); intro x; clear_value x)
    | (with_reducible intro _)
    | with_reducible assumption
    | with_reducible apply keeps_each
    | with_reducible apply keeps_loadField
    | split

theorem keeps_loadZones {s : State} (hk : Keeps s0 s) : Keeps s0 (State.loadZones s) := by
  unfold State.loadZones
  repeat' first
    | ((try lift_lets -underBinder); intro x; refine Keeps.cut (s0 := s0) x ?_ ?_ <;> [unfold x; (intro hx; clear_value x)])
    | ((try lift_lets -underBinder); intro x; clear_value x)
    | (with_reducible intro _)
    | with_reducible assumption
    | with_reducible apply keeps_each
    | with_reducible apply keeps_loadField
    | with_reducible apply keeps_trip
    | split

theorem keeps_loadPoints {s : State} {z : Nat} {at_ : Nat → Nat × Nat} (hk : Keeps s0 s) : Keeps s0 (State.loadPoints s z at_) := by
  unfold State.loadPoints
  repeat' first
    | (with_reducible intro _)
    | with_reducible assumption
    | with_reducible apply hat_
    | with_reducible apply keeps_each
    | with_reducible apply keeps_loadField
    | with_reducible refine KeepsFst.fst (hat_ _ ?_)

theorem keeps_loadDemands {s : State} (hk : Keeps s0 s) : Keeps s0 (State.loadDemands s) := by
  unfold State.loadDemands
  repeat' first
    | ((try lift_lets -underBinder); intro x; refine Keeps.cut (s0 := s0) x ?_ ?_ <;> [unfold x; (intro hx; clear_value x)])
    | ((try lift_lets -underBinder); intro x; clear_value x)
    | (with_reducible intro _)
    | with_reducible assumption
    | with_reducible apply keeps_each
    | with_reducible apply keeps_loadField
    | with_reducible apply keeps_loadPoints
    | split

theorem keeps_loadOutputs {s : State} (hk : Keeps s0 s) : Keeps s0 (State.loadOutputs s) := by
  unfold State.loadOutputs
  repeat' first
    | ((try lift_lets -underBinder); intro x; refine Keeps.cut (s0 := s0) x ?_ ?_ <;> [unfold x; (intro hx; clear_value x)])
    | ((try lift_lets -underBinder); intro x; clear_value x)
    | (with_reducible intro _)
    | with_reducible assumption
    | with_reducible apply keeps_ite
    | with_reducible apply keeps_foldl
    | with_reducible apply keeps_loadField
    | with_reducible apply keeps_each

theorem keeps_mc1Commit {s : State} {p : Page} {inst : Nat} (hk : Keeps s0 s) : Keeps s0 (State.mc1Commit s p inst) := by
  unfold State.mc1Commit
  repeat' first
    | with_reducible assumption
    | with_reducible apply keeps_commitBy
    | with_reducible refine KeepsFst.fst (keeps_commitBy ?_)

theorem keeps_startCooling {s : State} (hk : Keeps s0 s) : Keeps s0 (State.startCooling s) := by
  unfold State.startCooling
  repeat' first
    | ((try lift_lets -underBinder); intro x; refine Keeps.cut (s0 := s0) x ?_ ?_ <;> [unfold x; (intro hx; clear_value x)])
    | ((try lift_lets -underBinder); intro x; clear_value x)
    | (with_reducible intro _)
    | with_reducible assumption
    | with_reducible apply keeps_ite
    | with_reducible apply keeps_loadDemands
    | with_reducible apply keeps_loadOutputs
    | with_reducible apply keeps_mc1Commit
    | with_reducible apply keeps_set
    | with_reducible apply keeps_coolNow

theorem keeps_mc1Feed {s : State} (hk : Keeps s0 s) : Keeps s0 (State.mc1Feed s) := by
  unfold State.mc1Feed
  repeat' first
    | ((try lift_lets -underBinder); intro x; refine Keeps.cut (s0 := s0) x ?_ ?_ <;> [unfold x; (intro hx; clear_value x)])
    | ((try lift_lets -underBinder); intro x; clear_value x)
    | (with_reducible intro _)
    | with_reducible assumption
    | with_reducible apply keeps_ite
    | with_reducible apply keeps_set
    | with_reducible apply keeps_setPair
    | with_reducible apply keeps_feed
    | with_reducible apply keeps_setBit

theorem keeps_mc1Ask {s : State} (hk : Keeps s0 s) : Keeps s0 (State.mc1Ask s) := by
  unfold State.mc1Ask
  repeat' first
    | (with_reducible intro _)
    | with_reducible assumption
    | with_reducible apply keeps_ite
    | with_reducible apply keeps_set
    | with_reducible apply keeps_afeRequest
    | split

theorem keeps_mc1Turn {s : State} (hk : Keeps s0 s) : Keeps s0 (State.mc1Turn s) := by
  unfold State.mc1Turn
  repeat' first
    | with_reducible assumption
    | with_reducible apply keeps_mc1Feed
    | with_reducible apply keeps_mc1Ask

theorem keeps_execConversionDone (engine : Fin 2) (code : BitVec 32) (outA : Bool) (outB : Bool) (s : State) : KeepsOut s (execConversionDone engine code outA outB s) := by
  have hk := Keeps.refl s
  unfold execConversionDone
  repeat' first
    | with_reducible assumption
    | with_reducible apply keepsOut_next
    | with_reducible apply keeps_conversionDone
    | with_reducible apply keeps_mc1Turn

theorem keeps_execRoundStart (engine : Fin 2) (s : State) : KeepsOut s (execRoundStart engine s) := by
  have hk := Keeps.refl s
  unfold execRoundStart
  repeat' first
    | with_reducible assumption
    | with_reducible apply keepsOut_next
    | with_reducible apply keeps_roundStart
    | with_reducible apply keeps_mc1Turn

theorem keeps_execCalibrationDone (engine : Fin 2) (zero : List (BitVec 24)) (full : List (BitVec 24)) (tia : List (BitVec 32)) (s : State) : KeepsOut s (execCalibrationDone engine zero full tia s) := by
  have hk := Keeps.refl s
  unfold execCalibrationDone
  repeat' first
    | with_reducible assumption
    | with_reducible apply keepsOut_next
    | with_reducible apply keeps_calibrationDone
    | with_reducible apply keeps_mc1Turn

theorem keeps_startMc1 {s : State} (hk : Keeps s0 s) : Keeps s0 (State.startMc1 s) := by
  unfold State.startMc1
  repeat' first
    | ((try lift_lets -underBinder); intro x; refine Keeps.cut (s0 := s0) x ?_ ?_ <;> [unfold x; (intro hx; clear_value x)])
    | ((try lift_lets -underBinder); intro x; clear_value x)
    | (with_reducible intro _)
    | with_reducible assumption
    | with_reducible apply keeps_loadProfiles
    | with_reducible apply keeps_loadSensors
    | with_reducible apply keeps_mc1Commit
    | with_reducible apply keeps_loadZones
    | with_reducible apply keeps_startCooling
    | with_reducible apply keeps_set
    | with_reducible apply keeps_mc1Ask

theorem keeps_startMc2 {s : State} (hk : Keeps s0 s) : Keeps s0 (State.startMc2 s) := by
  unfold State.startMc2
  repeat' first
    | ((try lift_lets -underBinder); intro x; refine Keeps.cut (s0 := s0) x ?_ ?_ <;> [unfold x; (intro hx; clear_value x)])
    | ((try lift_lets -underBinder); intro x; clear_value x)
    | (with_reducible intro _)
    | with_reducible assumption
    | with_reducible apply keeps_loadProfiles
    | with_reducible apply keeps_each
    | with_reducible apply keeps_clearSensor
    | with_reducible apply keeps_evaluate

theorem keeps_startMc {s : State} {k : Nat} {cause : Nat} (hk : Keeps s0 s) : Keeps s0 (State.startMc s k cause) := by
  unfold State.startMc
  repeat' first
    | ((try lift_lets -underBinder); intro x; refine Keeps.cut (s0 := s0) x ?_ ?_ <;> [unfold x; (intro hx; clear_value x)])
    | ((try lift_lets -underBinder); intro x; clear_value x)
    | (with_reducible intro _)
    | with_reducible assumption
    | with_reducible apply keeps_ite
    | with_reducible apply keeps_runMc
    | with_reducible apply keeps_startMc1
    | with_reducible apply keeps_startMc2

theorem keeps_execCoresRelease (s : State) : KeepsOut s (execCoresRelease s) := by
  have hk := Keeps.refl s
  unfold execCoresRelease
  repeat' first
    | ((try lift_lets -underBinder); intro x; refine Keeps.cut (s0 := s) x ?_ ?_ <;> [unfold x; (intro hx; clear_value x)])
    | ((try lift_lets -underBinder); intro x; clear_value x)
    | (with_reducible intro _)
    | with_reducible assumption
    | with_reducible apply keepsOut_next
    | with_reducible apply keepsOut_ite
    | with_reducible apply keeps_ite
    | with_reducible apply keeps_set
    | with_reducible apply keeps_each
    | with_reducible apply keeps_startMc
    | with_reducible apply keeps_coolNow

theorem keeps_execCoreReady (core : McNo) (s : State) : KeepsOut s (execCoreReady core s) := by
  have hk := Keeps.refl s
  unfold execCoreReady
  repeat' first
    | with_reducible assumption
    | with_reducible apply keepsOut_next
    | with_reducible apply keepsOut_ite
    | with_reducible apply keeps_ite
    | with_reducible apply keeps_setBit

theorem keeps_execCoreRestart (core : Core) (s : State) : KeepsOut s (execCoreRestart core s) := by
  have hk := Keeps.refl s
  unfold execCoreRestart
  repeat' first
    | with_reducible assumption
    | with_reducible apply keepsOut_next
    | with_reducible apply keepsOut_ite
    | with_reducible apply keeps_ite
    | with_reducible apply keeps_startMc
    | with_reducible apply keeps_runWarden
    | split

end Sys2Proof.Machine
end

