-- ==== Sys2Proof/Laws/KeepsFences.lean ====
section
/-! SUPPORT. What the operations and meanings of Machine/Fences.lean keep (Laws/Keeps.lean). -/

namespace Sys2Proof.Machine

variable {s0 : State}

theorem keeps_execFenceSet (req : Requester) (mask : BitVec 8) (s : State) : KeepsOut s (execFenceSet req mask s) := by
  have hk := Keeps.refl s
  unfold execFenceSet
  repeat' first
    | (with_reducible intro _)
    | with_reducible assumption
    | with_reducible apply keepsOut_next
    | with_reducible apply keeps_onWrite
    | with_reducible apply keeps_checkService
    | with_reducible apply keeps_fenceLine
    | with_reducible apply keeps_each

theorem keeps_execTripSet (req : Requester) (mask : BitVec 8) (s : State) : KeepsOut s (execTripSet req mask s) := by
  have hk := Keeps.refl s
  unfold execTripSet
  repeat' first
    | (with_reducible intro _)
    | with_reducible assumption
    | with_reducible apply keepsOut_next
    | with_reducible apply keeps_onWrite
    | with_reducible apply keeps_checkService
    | with_reducible apply keeps_tripLine
    | with_reducible apply keeps_each

theorem keeps_heldAtRelease {s : State} {n : Nat} (hk : Keeps s0 s) : Keeps s0 (State.heldAtRelease s n) := by
  unfold State.heldAtRelease
  repeat' first
    | with_reducible assumption
    | with_reducible apply keeps_railsDown
    | with_reducible apply keeps_event
    | with_reducible apply keeps_setBit

theorem keeps_releaseTrip {s : State} {n : Nat} (hk : Keeps s0 s) : Keeps s0 (State.releaseTrip s n) := by
  unfold State.releaseTrip
  repeat' first
    | ((try lift_lets -underBinder); intro x; refine Keeps.cut (s0 := s0) x ?_ ?_ <;> [unfold x; (intro hx; clear_value x)])
    | (with_reducible intro _)
    | with_reducible assumption
    | with_reducible apply keeps_ite
    | with_reducible apply keeps_setBit

theorem keeps_execTripRel (req : Requester) (mask : BitVec 8) (s : State) : KeepsOut s (execTripRel req mask s) := by
  have hk := Keeps.refl s
  unfold execTripRel
  repeat' first
    | (with_reducible intro _)
    | with_reducible assumption
    | with_reducible apply keepsOut_next
    | with_reducible apply keepsOut_ite
    | with_reducible apply keeps_ite
    | with_reducible apply keeps_onWrite
    | with_reducible apply keeps_regFault
    | with_reducible apply keeps_heldAtRelease
    | with_reducible apply keeps_releaseTrip
    | with_reducible apply keeps_each

theorem keeps_execFenceAssert (die : DieNo) (s : State) : KeepsOut s (execFenceAssert die s) := by
  have hk := Keeps.refl s
  unfold execFenceAssert
  repeat' first
    | ((try lift_lets -underBinder); intro x; clear_value x)
    | with_reducible assumption
    | with_reducible apply keepsOut_next
    | with_reducible apply keepsOut_ite
    | with_reducible apply keeps_ite
    | with_reducible apply keeps_tryFenced
    | with_reducible apply keeps_discardAccepted
    | with_reducible apply keeps_fenceLinks
    | with_reducible apply keeps_set

theorem keeps_execTripAssert (die : DieNo) (s : State) : KeepsOut s (execTripAssert die s) := by
  have hk := Keeps.refl s
  unfold execTripAssert
  repeat' first
    | ((try lift_lets -underBinder); intro x; refine Keeps.cut (s0 := s) x ?_ ?_ <;> [unfold x; (intro hx; clear_value x)])
    | ((try lift_lets -underBinder); intro x; clear_value x)
    | with_reducible assumption
    | with_reducible apply keepsOut_next
    | with_reducible apply keepsOut_ite
    | with_reducible apply keeps_ite
    | with_reducible apply keeps_dieReset
    | with_reducible apply keeps_evaluate
    | with_reducible apply keeps_clearSensor

theorem keeps_execFenceTo (die : DieNo) (s : State) : KeepsOut s (execFenceTo die s) := by
  have hk := Keeps.refl s
  unfold execFenceTo
  repeat' first
    | ((try lift_lets -underBinder); intro x; clear_value x)
    | with_reducible assumption
    | with_reducible apply keepsOut_next
    | with_reducible apply keepsOut_ite
    | with_reducible apply keeps_ite
    | with_reducible apply keeps_event
    | with_reducible apply keeps_trip

theorem keeps_execThermAlert (die : DieNo) (s : State) : KeepsOut s (execThermAlert die s) := by
  have hk := Keeps.refl s
  unfold execThermAlert
  repeat' first
    | with_reducible assumption
    | with_reducible apply keepsOut_next
    | with_reducible apply keeps_thermRises

theorem keeps_execThermAlertRelease (die : DieNo) (s : State) : KeepsOut s (execThermAlertRelease die s) := by
  have hk := Keeps.refl s
  unfold execThermAlertRelease
  repeat' first
    | with_reducible assumption
    | with_reducible apply keepsOut_next
    | with_reducible apply keeps_thermFalls

theorem keeps_execThermAlertFence (die : DieNo) (s : State) : KeepsOut s (execThermAlertFence die s) := by
  have hk := Keeps.refl s
  unfold execThermAlertFence
  repeat' first
    | ((try lift_lets -underBinder); intro x; clear_value x)
    | with_reducible assumption
    | with_reducible apply keepsOut_next
    | with_reducible apply keepsOut_ite
    | with_reducible apply keeps_ite
    | with_reducible apply keeps_fence
    | with_reducible apply keeps_event

theorem keeps_execThermAlertTrip (die : DieNo) (s : State) : KeepsOut s (execThermAlertTrip die s) := by
  have hk := Keeps.refl s
  unfold execThermAlertTrip
  repeat' first
    | ((try lift_lets -underBinder); intro x; clear_value x)
    | with_reducible assumption
    | with_reducible apply keepsOut_next
    | with_reducible apply keepsOut_ite
    | with_reducible apply keeps_ite
    | with_reducible apply keeps_trip
    | with_reducible apply keeps_event

theorem keeps_execDieFault (die : DieNo) (s : State) : KeepsOut s (execDieFault die s) := by
  have hk := Keeps.refl s
  unfold execDieFault
  repeat' first
    | with_reducible assumption
    | with_reducible apply keepsOut_next
    | with_reducible apply keeps_latchDieFault

theorem keeps_writeLimit {s : State} {k value : Nat} (hk : Keeps s0 s) : Keeps s0 (s.writeLimit k value) := by
  unfold State.writeLimit
  exact keeps_spend (keeps_setBit (keeps_set hk)) (fun k h => List.mem_cons_of_mem _ (by simpa [State.setBit] using h))

theorem keeps_writeLimits {s : State} {ks : List Nat} {req : Nat} {value : Nat} (hk : Keeps s0 s) : Keeps s0 (State.writeLimits s ks req value) := by
  unfold State.writeLimits
  repeat' first
    | ((try lift_lets -underBinder); intro x; refine Keeps.cut (s0 := s0) x ?_ ?_ <;> [unfold x; (intro hx; clear_value x)])
    | ((try lift_lets -underBinder); intro x; refine Keeps.cut_fun (s0 := s0) x ?_ ?_ <;> [unfold x; (intro hf; clear_value x)])
    | ((try lift_lets -underBinder); intro x; refine Keeps.cut_fun2 (s0 := s0) x ?_ ?_ <;> [unfold x; (intro hf; clear_value x)])
    | with_reducible apply hf
    | ((try lift_lets -underBinder); intro x; clear_value x)
    | (with_reducible intro _)
    | with_reducible assumption
    | with_reducible apply keepsSnd_mk
    | with_reducible apply keepsFst_mk
    | with_reducible apply keepsFst_ite
    | with_reducible apply keepsSnd_ite
    | with_reducible apply keeps_ite
    | with_reducible apply keeps_each
    | with_reducible apply keeps_writeLimit
    | with_reducible apply keeps_foldl
    | with_reducible apply keeps_regFault

theorem keeps_execLimitWrite (req : Requester) (word : Fin 4) (value : BitVec 32) (s : State) : KeepsOut s (execLimitWrite req word value s) := by
  have hk := Keeps.refl s
  unfold execLimitWrite
  repeat' first
    | with_reducible assumption
    | with_reducible apply keepsOut_next
    | with_reducible apply keepsOut_ite
    | with_reducible apply keeps_ite
    | with_reducible apply keeps_writeLimits

theorem keeps_recheckRuns {s : State} {d : Nat} (hk : Keeps s0 s) : Keeps s0 (State.recheckRuns s d) := by
  unfold State.recheckRuns
  repeat' first
    | ((try lift_lets -underBinder); intro x; clear_value x)
    | (with_reducible intro _)
    | with_reducible assumption
    | with_reducible apply keeps_endRun
    | with_reducible apply keeps_dieEvent
    | with_reducible apply keeps_each

theorem keeps_execFormGo (req : Requester) (die : DieNo) (s : State) : KeepsOut s (execFormGo req die s) := by
  have hk := Keeps.refl s
  unfold execFormGo
  repeat' first
    | ((try lift_lets -underBinder); intro x; refine Keeps.cut (s0 := s) x ?_ ?_ <;> [unfold x; (intro hx; clear_value x)])
    | ((try lift_lets -underBinder); intro x; clear_value x)
    | (with_reducible intro _)
    | with_reducible assumption
    | with_reducible apply keepsOut_next
    | with_reducible apply keepsOut_ite
    | with_reducible apply keeps_ite
    | with_reducible apply keeps_onWrite
    | with_reducible apply keeps_dieEvent
    | with_reducible apply keeps_set
    | with_reducible apply keeps_regFault
    | with_reducible apply keeps_recheckRuns

theorem keeps_execSemClaim (req : Requester) (core : McNo) (s : State) : KeepsOut s (execSemClaim req core s) := by
  have hk := Keeps.refl s
  unfold execSemClaim
  repeat' first
    | ((try lift_lets -underBinder); intro x; clear_value x)
    | (with_reducible intro _)
    | with_reducible assumption
    | with_reducible apply keepsOut_next
    | with_reducible apply keepsOut_ite
    | with_reducible apply keeps_ite
    | with_reducible apply keeps_onWrite
    | with_reducible apply keeps_set

theorem keeps_execSemRelease (req : Requester) (core : McNo) (s : State) : KeepsOut s (execSemRelease req core s) := by
  have hk := Keeps.refl s
  unfold execSemRelease
  repeat' first
    | ((try lift_lets -underBinder); intro x; clear_value x)
    | (with_reducible intro _)
    | with_reducible assumption
    | with_reducible apply keepsOut_next
    | with_reducible apply keepsOut_ite
    | with_reducible apply keeps_ite
    | with_reducible apply keeps_onWrite
    | with_reducible apply keeps_set

end Sys2Proof.Machine
end

