-- ==== Sys2Proof/Laws/KeepsSupervisor.lean ====
section
/-! SUPPORT. What the operations and meanings of Machine/Supervisor.lean keep (Laws/Keeps.lean). -/

namespace Sys2Proof.Machine

variable {s0 : State}

theorem keeps_reply {s : State} {f : Frame} {payload : List Byte} (hk : Keeps s0 s) : Keeps s0 (State.reply s f payload) := by
  unfold State.reply
  repeat' first
    | ((try lift_lets -underBinder); intro x; clear_value x)
    | with_reducible assumption
    | with_reducible apply keeps_ite
    | with_reducible apply keeps_set
    | (with_reducible apply keeps_update; first | assumption | with_reducible apply keeps_set)

theorem keeps_replyCode {s : State} {f : Frame} {code : Nat} (hk : Keeps s0 s) : Keeps s0 (State.replyCode s f code) := by
  unfold State.replyCode
  repeat' first
    | with_reducible assumption
    | with_reducible apply keeps_reply

theorem keeps_replyBusy {s : State} {f : Frame} (hk : Keeps s0 s) : Keeps s0 (State.replyBusy s f) := by
  unfold State.replyBusy
  repeat' first
    | with_reducible assumption
    | with_reducible apply keeps_ite
    | with_reducible apply keeps_count
    | with_reducible apply keeps_replyCode

theorem keeps_badFrame {s : State} {framing : Bool} (hk : Keeps s0 s) : Keeps s0 (State.badFrame s framing) := by
  unfold State.badFrame
  repeat' first
    | with_reducible assumption
    | with_reducible apply keeps_ite
    | with_reducible apply keeps_event
    | with_reducible apply keeps_count

theorem keeps_validFrame {s : State} (hk : Keeps s0 s) : Keeps s0 (State.validFrame s) := by
  unfold State.validFrame
  repeat' first
    | ((try lift_lets -underBinder); intro x; refine Keeps.cut (s0 := s0) x ?_ ?_ <;> [unfold x; (intro hx; clear_value x)])
    | with_reducible assumption
    | with_reducible apply keeps_ite
    | with_reducible apply keeps_setPair
    | with_reducible apply keeps_count
    | with_reducible apply keeps_set
    | with_reducible apply keeps_coolNow
    | with_reducible apply keeps_event

theorem keeps_receive {s : State} {f : Frame} {server : State → State} (hk : Keeps s0 s) (hserver : ∀ x0, Keeps s0 x0 → Keeps s0 (server x0)) : Keeps s0 (State.receive s f server) := by
  unfold State.receive
  repeat' first
    | ((try lift_lets -underBinder); intro x; refine Keeps.cut (s0 := s0) x ?_ ?_ <;> [unfold x; (intro hx; clear_value x)])
    | with_reducible assumption
    | with_reducible apply keeps_ite
    | with_reducible apply keeps_badFrame
    | with_reducible apply keeps_validFrame
    | with_reducible apply hserver

theorem keeps_queueFrame {s : State} {f : Frame} (hk : Keeps s0 s) : Keeps s0 (State.queueFrame s f) := by
  unfold State.queueFrame
  repeat' first
    | ((try lift_lets -underBinder); intro x; refine Keeps.cut (s0 := s0) x ?_ ?_ <;> [unfold x; (intro hx; clear_value x)])
    | ((try lift_lets -underBinder); intro x; clear_value x)
    | (with_reducible intro _)
    | with_reducible assumption
    | with_reducible apply keeps_ite
    | with_reducible apply keeps_replyCode
    | with_reducible apply keeps_count
    | with_reducible apply keeps_replyBusy
    | with_reducible apply keeps_reply
    | with_reducible apply keeps_pageEvent
    | with_reducible apply keeps_showRx
    | split
    | (with_reducible apply keeps_update; first | assumption | with_reducible apply keeps_replyCode | with_reducible apply keeps_count | with_reducible apply keeps_replyBusy | with_reducible apply keeps_reply | with_reducible apply keeps_pageEvent | with_reducible apply keeps_showRx)

theorem keeps_popRx {s : State} (hk : Keeps s0 s) : Keeps s0 (State.popRx s) := by
  unfold State.popRx
  repeat' first
    | with_reducible assumption
    | with_reducible apply keeps_showRx
    | (with_reducible apply keeps_update; first | assumption | with_reducible apply keeps_showRx)

theorem keeps_commitReply {s : State} {payload : List Byte} (hk : Keeps s0 s) : Keeps s0 (State.commitReply s payload) := by
  unfold State.commitReply
  repeat' first
    | ((try lift_lets -underBinder); intro x; refine Keeps.cut (s0 := s0) x ?_ ?_ <;> [unfold x; (intro hx; clear_value x)])
    | ((try lift_lets -underBinder); intro x; clear_value x)
    | with_reducible assumption
    | with_reducible apply keeps_ite
    | with_reducible apply keeps_popRx
    | with_reducible apply keeps_reply
    | split
    | (with_reducible apply keeps_update; first | assumption | with_reducible apply keeps_popRx | with_reducible apply keeps_reply)

theorem keeps_mc3Reply {s : State} {payload : List Byte} (hk : Keeps s0 s) : Keeps s0 (State.mc3Reply s payload) := by
  unfold State.mc3Reply
  repeat' first
    | ((try lift_lets -underBinder); intro x; refine Keeps.cut (s0 := s0) x ?_ ?_ <;> [unfold x; (intro hx; clear_value x)])
    | (with_reducible intro _)
    | with_reducible assumption
    | with_reducible apply keeps_set
    | with_reducible apply keeps_commitReply
    | with_reducible apply keeps_each

theorem keeps_mc3Code {s : State} {code : Nat} (hk : Keeps s0 s) : Keeps s0 (State.mc3Code s code) := by
  unfold State.mc3Code
  repeat' first
    | with_reducible assumption
    | with_reducible apply keeps_mc3Reply

theorem keeps_mc3Frame {s : State} {event : FrameEvent} {type : Nat} {len : Nat} {act : State → RxFrame → State} (hk : Keeps s0 s) (hact : ∀ x0 x1, Keeps s0 x0 → Keeps s0 (act x0 x1)) : Keeps s0 (State.mc3Frame s event type len act) := by
  unfold State.mc3Frame
  repeat' first
    | (with_reducible intro _)
    | with_reducible assumption
    | with_reducible apply keeps_ite
    | with_reducible apply keeps_receive
    | with_reducible apply keeps_queueFrame
    | with_reducible apply keeps_mc3Code
    | with_reducible apply hact
    | split

theorem keeps_execPing (frame : Frame) (s : State) : KeepsOut s (execPing frame s) := by
  have hk := Keeps.refl s
  unfold execPing
  repeat' first
    | ((try lift_lets -underBinder); intro x; clear_value x)
    | (with_reducible intro _)
    | with_reducible assumption
    | with_reducible apply keepsOut_next
    | with_reducible apply keepsOut_ite
    | with_reducible apply keeps_ite
    | with_reducible apply keeps_receive
    | with_reducible apply keeps_reply
    | with_reducible apply keeps_replyCode

theorem keeps_execFrameError (framing : Bool) (s : State) : KeepsOut s (execFrameError framing s) := by
  have hk := Keeps.refl s
  unfold execFrameError
  repeat' first
    | with_reducible assumption
    | with_reducible apply keepsOut_next
    | with_reducible apply keepsOut_ite
    | with_reducible apply keeps_ite
    | with_reducible apply keeps_badFrame

theorem keeps_execResetArm (frame : Frame) (s : State) : KeepsOut s (execResetArm frame s) := by
  have hk := Keeps.refl s
  unfold execResetArm
  repeat' first
    | (with_reducible intro _)
    | with_reducible assumption
    | with_reducible apply keepsOut_next
    | with_reducible apply keepsOut_ite
    | with_reducible apply keeps_ite
    | with_reducible apply keeps_receive
    | with_reducible apply keeps_replyCode
    | with_reducible apply keeps_armReset

theorem keeps_execResetFire (frame : Frame) (s : State) : KeepsOut s (execResetFire frame s) := by
  have hk := Keeps.refl s
  unfold execResetFire
  repeat' first
    | (with_reducible intro _)
    | with_reducible assumption
    | with_reducible apply keepsOut_next
    | with_reducible apply keepsOut_ite
    | with_reducible apply keeps_ite
    | with_reducible apply keeps_receive
    | with_reducible apply keeps_replyCode
    | with_reducible apply keeps_fireReset

theorem keeps_execStatus (event : FrameEvent) (s : State) : KeepsOut s (execStatus event s) := by
  have hk := Keeps.refl s
  unfold execStatus
  repeat' first
    | (with_reducible intro _)
    | with_reducible assumption
    | with_reducible apply keepsOut_next
    | with_reducible apply keepsOut_ite
    | with_reducible apply keeps_ite
    | with_reducible apply keeps_mc3Frame
    | with_reducible apply keeps_mc3Reply
    | with_reducible apply keeps_mc3Code

theorem keeps_serveRequest {s : State} {x : RxFrame} {kind h tid : Nat} {post : State → State} (hk : Keeps s0 s)
    (hpost : ∀ s, Keeps s0 s → Keeps s0 (post s)) : Keeps s0 (s.serveRequest x kind h tid post) := by
  unfold State.serveRequest
  extract_lets dies stands a b answers
  have ha : Keeps s0 a := keeps_ite hk (hpost _ hk)
  have hb : Keeps s0 b := by
    unfold b; split
    · exact ha.frame rfl rfl rfl rfl rfl rfl rfl rfl rfl
    · exact ha
  clear_value b
  refine keeps_ite hb ?_
  split
  · exact keeps_mc3Code hb
  · exact keeps_mc3Code hb

theorem keeps_requestFrame {s : State} {ok : Bool} {act : State → State} (hk : Keeps s0 s) (hact : ∀ x0, Keeps s0 x0 → Keeps s0 (act x0)) : Keeps s0 (State.requestFrame s ok act) := by
  unfold State.requestFrame
  repeat' first
    | with_reducible assumption
    | with_reducible apply keeps_ite
    | with_reducible apply keeps_mc3Code
    | with_reducible apply hact

theorem keeps_execOpSet (event : FrameEvent) (s : State) : KeepsOut s (execOpSet event s) := by
  have hk := Keeps.refl s
  unfold execOpSet
  repeat' first
    | ((try lift_lets -underBinder); intro x; clear_value x)
    | (with_reducible intro _)
    | with_reducible assumption
    | with_reducible apply keepsOut_next
    | with_reducible apply keeps_mc3Frame
    | with_reducible apply keeps_requestFrame
    | with_reducible apply keeps_serveRequest
    | with_reducible apply keeps_mc0Post
    | with_reducible apply keepsFst_mk
    | with_reducible exact (keeps_mc0Post ‹_›).of ‹_›
    | with_reducible apply KeepsFst.fst
    | with_reducible apply keeps_each

theorem keeps_execThrottleFrame (event : FrameEvent) (s : State) : KeepsOut s (execThrottleFrame event s) := by
  have hk := Keeps.refl s
  unfold execThrottleFrame
  repeat' first
    | ((try lift_lets -underBinder); intro x; refine Keeps.cut (s0 := s) x ?_ ?_ <;> [unfold x; (intro hx; clear_value x)])
    | ((try lift_lets -underBinder); intro x; clear_value x)
    | (with_reducible intro _)
    | with_reducible assumption
    | with_reducible apply keepsOut_next
    | with_reducible apply keepsOut_ite
    | with_reducible apply keeps_ite
    | with_reducible apply keeps_mc3Frame
    | with_reducible apply keeps_requestFrame
    | with_reducible apply keeps_serveRequest
    | with_reducible apply keeps_mc0Post
    | with_reducible apply keeps_event
    | with_reducible apply keeps_wrap
    | with_reducible apply keeps_set
    | with_reducible apply keepsFst_ite
    | with_reducible apply keepsFst_mk
    | with_reducible exact (keeps_mc0Post ‹_›).of ‹_›
    | with_reducible apply KeepsFst.fst
    | with_reducible apply keeps_each

theorem keeps_execTestSlotFrame (event : FrameEvent) (s : State) : KeepsOut s (execTestSlotFrame event s) := by
  have hk := Keeps.refl s
  unfold execTestSlotFrame
  repeat' first
    | ((try lift_lets -underBinder); intro x; clear_value x)
    | (with_reducible intro _)
    | with_reducible assumption
    | with_reducible apply keepsOut_next
    | with_reducible apply keeps_mc3Frame
    | with_reducible apply keeps_requestFrame
    | with_reducible apply keeps_serveRequest
    | with_reducible apply keeps_postSlots

theorem keeps_loadCalendar {s : State} {req : Nat} {value : Nat} (hk : Keeps s0 s) : Keeps s0 (State.loadCalendar s req value) := by
  unfold State.loadCalendar
  repeat' first
    | ((try lift_lets -underBinder); intro x; refine Keeps.cut (s0 := s0) x ?_ ?_ <;> [unfold x; (intro hx; clear_value x)])
    | with_reducible assumption
    | with_reducible apply keeps_ite
    | with_reducible apply keeps_regFault
    | with_reducible apply keeps_set
    | with_reducible apply keeps_setPair
    | with_reducible apply keeps_count

theorem keeps_execCalendarLoad (req : Requester) (value : BitVec 64) (s : State) : KeepsOut s (execCalendarLoad req value s) := by
  have hk := Keeps.refl s
  unfold execCalendarLoad
  repeat' first
    | (with_reducible intro _)
    | with_reducible assumption
    | with_reducible apply keepsOut_next
    | with_reducible apply keeps_onWrite
    | with_reducible apply keeps_loadCalendar

theorem keeps_execCalendarTick (s : State) : KeepsOut s (execCalendarTick s) := by
  have hk := Keeps.refl s
  unfold execCalendarTick
  repeat' first
    | with_reducible assumption
    | with_reducible apply keepsOut_next
    | with_reducible apply keepsOut_ite
    | with_reducible apply keeps_ite
    | with_reducible apply keeps_setPair
    | with_reducible apply keeps_set
    | with_reducible apply keeps_wrap

theorem keeps_execSlew (req : Requester) (ticks : BitVec 24) (s : State) : KeepsOut s (execSlew req ticks s) := by
  have hk := Keeps.refl s
  unfold execSlew
  repeat' first
    | (with_reducible intro _)
    | with_reducible assumption
    | with_reducible apply keepsOut_next
    | with_reducible apply keeps_onWrite
    | with_reducible apply keeps_set

theorem keeps_execSupplySwitchover (millivolts : BitVec 16) (s : State) : KeepsOut s (execSupplySwitchover millivolts s) := by
  have hk := Keeps.refl s
  unfold execSupplySwitchover
  repeat' first
    | ((try lift_lets -underBinder); intro x; clear_value x)
    | with_reducible assumption
    | with_reducible apply keepsOut_next
    | with_reducible apply keepsOut_ite
    | with_reducible apply keeps_ite
    | with_reducible apply keeps_set

theorem keeps_execVbatSample (millivolts : BitVec 16) (s : State) : KeepsOut s (execVbatSample millivolts s) := by
  have hk := Keeps.refl s
  unfold execVbatSample
  repeat' first
    | ((try lift_lets -underBinder); intro x; clear_value x)
    | with_reducible assumption
    | with_reducible apply keepsOut_next
    | with_reducible apply keepsOut_ite
    | with_reducible apply keeps_ite
    | with_reducible apply keeps_event
    | with_reducible apply keeps_set

theorem keeps_execCalendarDomainReset (s : State) : KeepsOut s (execCalendarDomainReset s) := by
  have hk := Keeps.refl s
  unfold execCalendarDomainReset
  repeat' first
    | with_reducible assumption
    | with_reducible apply keepsOut_next
    | with_reducible apply keeps_set
    | with_reducible apply keeps_resetDomain

theorem keeps_execTime (event : FrameEvent) (s : State) : KeepsOut s (execTime event s) := by
  have hk := Keeps.refl s
  unfold execTime
  repeat' first
    | ((try lift_lets -underBinder); intro x; refine Keeps.cut (s0 := s) x ?_ ?_ <;> [unfold x; (intro hx; clear_value x)])
    | ((try lift_lets -underBinder); intro x; clear_value x)
    | (with_reducible intro _)
    | with_reducible assumption
    | with_reducible apply keepsOut_next
    | with_reducible apply keepsOut_ite
    | with_reducible apply keeps_ite
    | with_reducible apply keeps_mc3Frame
    | with_reducible apply keeps_mc3Code
    | with_reducible apply keeps_event
    | with_reducible apply keeps_loadCalendar
    | with_reducible apply keeps_set

theorem keeps_writeTag {s : State} {tag : Nat} (hk : Keeps s0 s) : Keeps s0 (s.writeTag tag) := by
  unfold State.writeTag
  exact keeps_event (keeps_spend (keeps_set (keeps_setPair hk)) (fun k h => List.mem_cons_of_mem _ (List.mem_cons_of_mem _ h)))

theorem keeps_execSetTag (event : FrameEvent) (s : State) : KeepsOut s (execSetTag event s) := by
  have hk := Keeps.refl s
  unfold execSetTag
  repeat' first
    | ((try lift_lets -underBinder); intro x; clear_value x)
    | (with_reducible intro _)
    | with_reducible assumption
    | with_reducible apply keepsOut_next
    | with_reducible apply keepsOut_ite
    | with_reducible apply keeps_ite
    | with_reducible apply keeps_mc3Frame
    | with_reducible apply keeps_mc3Code
    | with_reducible apply keeps_writeTag

theorem keeps_execRevoke (req : Requester) (key : Fin 4) (value : BitVec 1) (s : State) :
    KeepsOut s (execRevoke req key value s) := by
  unfold execRevoke
  refine keepsOut_next (keeps_onWrite (Keeps.refl s) fun s' hk => ?_)
  dsimp only
  split
  · exact keeps_regFault hk
  · have h2 := keeps_spend (l := fuseKey (TRAYID.REVOKE.clAt key.val) :: s'.spent)
      (keeps_set (f := TRAYID.REVOKE.clAt key.val) (v := value.toNat) hk) (fun k h => List.mem_cons_of_mem _ (by simpa using h))
    split
    · exact keeps_event h2
    · exact h2

theorem keeps_execReplyDeadline (s : State) : KeepsOut s (execReplyDeadline s) := by
  have hk := Keeps.refl s
  unfold execReplyDeadline
  repeat' first
    | (with_reducible intro _)
    | with_reducible assumption
    | with_reducible apply keepsOut_next
    | with_reducible apply keeps_replyBusy
    | split
    | (with_reducible apply keeps_update; first | assumption | with_reducible apply keeps_replyBusy)

theorem keeps_execTxCommit (req : Requester) (s : State) : KeepsOut s (execTxCommit req s) := by
  have hk := Keeps.refl s
  unfold execTxCommit
  repeat' first
    | ((try lift_lets -underBinder); intro x; clear_value x)
    | (with_reducible intro _)
    | with_reducible assumption
    | with_reducible apply keepsOut_next
    | with_reducible apply keeps_onWrite
    | with_reducible apply keeps_commitReply

theorem keeps_execRxPop (req : Requester) (s : State) : KeepsOut s (execRxPop req s) := by
  have hk := Keeps.refl s
  unfold execRxPop
  repeat' first
    | with_reducible assumption
    | with_reducible apply keepsOut_next
    | with_reducible apply keeps_onWrite
    | with_reducible apply keeps_popRx

theorem keeps_execCollision (s : State) : KeepsOut s (execCollision s) := by
  have hk := Keeps.refl s
  unfold execCollision
  repeat' first
    | with_reducible assumption
    | with_reducible apply keepsOut_next
    | with_reducible apply keepsOut_ite
    | with_reducible apply keeps_ite
    | with_reducible apply keeps_event
    | with_reducible apply keeps_count
    | with_reducible apply keeps_set
    | (with_reducible apply keeps_update; first | assumption | with_reducible apply keeps_event | with_reducible apply keeps_count | with_reducible apply keeps_set)

theorem keeps_execSilence (s : State) : KeepsOut s (execSilence s) := by
  have hk := Keeps.refl s
  unfold execSilence
  repeat' first
    | ((try lift_lets -underBinder); intro x; refine Keeps.cut (s0 := s) x ?_ ?_ <;> [unfold x; (intro hx; clear_value x)])
    | with_reducible assumption
    | with_reducible apply keepsOut_next
    | with_reducible apply keepsOut_ite
    | with_reducible apply keeps_ite
    | with_reducible apply keeps_set
    | with_reducible apply keeps_pageEvent
    | with_reducible apply keeps_coolNow
    | with_reducible apply keeps_event

end Sys2Proof.Machine
end

