-- ==== Sys2Proof/Laws/KeepsWatchdog.lean ====
section
/-! SUPPORT. What the operations and meanings of Machine/Watchdog.lean keep (Laws/Keeps.lean). -/

namespace Sys2Proof.Machine

variable {s0 : State}

theorem keeps_passSlot {s : State} {k : Nat} {i : Nat} (hk : Keeps s0 s) : Keeps s0 (State.passSlot s k i) := by
  unfold State.passSlot
  repeat' first
    | ((try lift_lets -underBinder); intro x; refine Keeps.cut (s0 := s0) x ?_ ?_ <;> [unfold x; (intro hx; clear_value x)])
    | with_reducible assumption
    | with_reducible apply keeps_ite
    | with_reducible apply keeps_set
    | with_reducible apply keeps_showWindow
    | with_reducible apply keeps_setBit
    | with_reducible apply keeps_freeSlot

theorem keeps_releaseCore {s : State} {k : Nat} (hk : Keeps s0 s) : Keeps s0 (State.releaseCore s k) := by
  unfold State.releaseCore
  repeat' first
    | ((try lift_lets -underBinder); intro x; refine Keeps.cut (s0 := s0) x ?_ ?_ <;> [unfold x; (intro hx; clear_value x)])
    | ((try lift_lets -underBinder); intro x; clear_value x)
    | (with_reducible intro _)
    | with_reducible assumption
    | with_reducible apply keeps_ite
    | with_reducible apply keeps_voidReservation
    | with_reducible apply keeps_twWatchdog
    | with_reducible apply keeps_passSlot
    | with_reducible apply keeps_set
    | with_reducible apply keeps_event
    | with_reducible apply keeps_count
    | with_reducible apply keeps_each

theorem keeps_addFire {s : State} {i : Nat} (hk : Keeps s0 s) : Keeps s0 (State.addFire s i) := by
  unfold State.addFire
  repeat' first
    | with_reducible assumption
    | (with_reducible apply keeps_update; first | assumption | with_reducible apply keeps_set)

theorem keeps_mcFires {s : State} {k : Nat} (hk : Keeps s0 s) : Keeps s0 (State.mcFires s k) := by
  unfold State.mcFires
  repeat' first
    | ((try lift_lets -underBinder); intro x; refine Keeps.cut (s0 := s0) x ?_ ?_ <;> [unfold x; (intro hx; clear_value x)])
    | with_reducible assumption
    | with_reducible apply keeps_ite
    | with_reducible apply keeps_addFire
    | with_reducible apply keeps_setBit
    | with_reducible apply keeps_set
    | with_reducible apply keeps_stopMc
    | with_reducible apply keeps_releaseCore
    | with_reducible apply keeps_event
    | with_reducible apply keeps_emptyRx
    | with_reducible apply keeps_outOfService

theorem keeps_wardenFires {s : State} {d : Nat} {k : Nat} (hk : Keeps s0 s) : Keeps s0 (State.wardenFires s d k) := by
  unfold State.wardenFires
  repeat' first
    | ((try lift_lets -underBinder); intro x; refine Keeps.cut (s0 := s0) x ?_ ?_ <;> [unfold x; (intro hx; clear_value x)])
    | ((try lift_lets -underBinder); intro x; clear_value x)
    | with_reducible assumption
    | with_reducible apply keeps_ite
    | with_reducible apply keeps_addFire
    | with_reducible apply keeps_set
    | with_reducible apply keeps_dieEvent
    | with_reducible apply keeps_count
    | with_reducible apply keeps_releaseBlocks
    | with_reducible apply keeps_contextFault
    | with_reducible apply keeps_dieFault

theorem keeps_execWatchdogFire (core : Core) (s : State) : KeepsOut s (execWatchdogFire core s) := by
  have hk := Keeps.refl s
  unfold execWatchdogFire
  repeat' first
    | with_reducible assumption
    | with_reducible apply keepsOut_next
    | with_reducible apply keepsOut_ite
    | with_reducible apply keeps_ite
    | with_reducible apply keeps_mcFires
    | with_reducible apply keeps_wardenFires
    | split

theorem keeps_publishWords {s : State} {r : Reg} {at_ : Nat} {words : List Nat} (hk : Keeps s0 s) : Keeps s0 (State.publishWords s r at_ words) := by
  unfold State.publishWords
  repeat' first
    | (with_reducible intro _)
    | with_reducible assumption
    | with_reducible apply keeps_set
    | with_reducible apply keeps_each

theorem keeps_publishCooling {s : State} (hk : Keeps s0 s) : Keeps s0 (State.publishCooling s) := by
  unfold State.publishCooling
  repeat' first
    | ((try lift_lets -underBinder); intro x; refine Keeps.cut (s0 := s0) x ?_ ?_ <;> [unfold x; (intro hx; clear_value x)])
    | (with_reducible intro _)
    | with_reducible assumption
    | with_reducible apply keeps_publishWords

theorem keeps_execPublishSwap (vin : BitVec 16) (iin : BitVec 8) (s : State) : KeepsOut s (execPublishSwap vin iin s) := by
  have hk := Keeps.refl s
  unfold execPublishSwap
  repeat' first
    | ((try lift_lets -underBinder); intro x; refine Keeps.cut (s0 := s) x ?_ ?_ <;> [unfold x; (intro hx; clear_value x)])
    | ((try lift_lets -underBinder); intro x; clear_value x)
    | (with_reducible intro _)
    | with_reducible assumption
    | with_reducible apply keepsOut_next
    | with_reducible apply keepsOut_ite
    | with_reducible apply keeps_ite
    | with_reducible apply keeps_set
    | with_reducible apply keeps_wrap
    | with_reducible apply keeps_setPair
    | with_reducible apply keeps_each
    | with_reducible apply keeps_publishWords
    | with_reducible apply keeps_publishCooling

end Sys2Proof.Machine
end

