-- ==== Sys2Proof/Laws/KeepsFields.lean ====
section
/-! SUPPORT. What the operations and meanings of Machine/Fields.lean keep (Laws/Keeps.lean). -/

namespace Sys2Proof.Machine

variable {s0 : State}

theorem keeps_loadSelected {s : State} {d : Nat} {r : Reg} {v : Nat} (hk : Keeps s0 s) : Keeps s0 (State.loadSelected s d r v) := by
  unfold State.loadSelected
  repeat' first
    | ((try lift_lets -underBinder); intro x; clear_value x)
    | (with_reducible intro _)
    | with_reducible assumption
    | with_reducible apply keeps_ite
    | with_reducible apply keeps_setGate
    | with_reducible apply keeps_onSlink

theorem keeps_afterDieWrite {s : State} {d : Nat} {r : Reg} {i : Nat} {v : Nat} (hk : Keeps s0 s) : Keeps s0 (State.afterDieWrite s d r i v) := by
  unfold State.afterDieWrite
  repeat' first
    | with_reducible assumption
    | with_reducible apply keeps_ite
    | with_reducible apply keeps_setBit
    | with_reducible apply keeps_slotValid
    | with_reducible apply keeps_dieReady

theorem keeps_afterClWrite {s : State} {r : Reg} {i : Nat} (hk : Keeps s0 s) : Keeps s0 (State.afterClWrite s r i) := by
  unfold State.afterClWrite
  repeat' first
    | with_reducible assumption
    | with_reducible apply keeps_ite
    | with_reducible apply keeps_showWindow
    | with_reducible apply keeps_showStored
    | with_reducible apply keeps_coolNow

theorem keeps_storeField {s : State} {chip : Nat} {r : Reg} {i v : Nat} (hk : Keeps s0 s) :
    Keeps s0 (s.storeField chip r i v) := by
  unfold State.storeField
  extract_lets f
  split
  · exact keeps_ite (keeps_setShadow hk) (keeps_set hk)
  · exact keeps_ite (keeps_setShadow hk) (keeps_set hk)
  · exact keeps_set (keeps_ite (keeps_loadSelected hk) hk)
  · exact keeps_set hk
  · exact keeps_set hk
  · have h := keeps_spend (l := f.key :: s.spent) (keeps_set (f := f) (v := v) hk) (fun k h => List.mem_cons_of_mem _ (by simpa using h))
    exact h
  all_goals exact hk

theorem keeps_afterWrite {s : State} {chip : Nat} {r : Reg} {i : Nat} {v : Nat} (hk : Keeps s0 s) : Keeps s0 (State.afterWrite s chip r i v) := by
  unfold State.afterWrite
  repeat' first
    | with_reducible assumption
    | with_reducible apply keeps_ite
    | with_reducible apply keeps_afterDieWrite
    | with_reducible apply keeps_afterClWrite

theorem keeps_stageLow {s : State} {chip : Nat} {p : Page} {inst : Nat} {lo : Reg} {i : Nat} {req : Nat} {off : Nat} {value : Nat} (hk : Keeps s0 s) : Keeps s0 (State.stageLow s chip p inst lo i req off value) := by
  unfold State.stageLow
  repeat' first
    | ((try lift_lets -underBinder); intro x; clear_value x)
    | with_reducible assumption
    | with_reducible apply keeps_ite
    | with_reducible apply keeps_pageFault
    | (with_reducible apply keeps_update; first | assumption | with_reducible apply keeps_pageFault)

theorem keeps_loadPair {s : State} {chip : Nat} {lo hi : Reg} {i req v : Nat} (hk : Keeps s0 s) :
    Keeps s0 (s.loadPair chip lo hi i req v) := by
  unfold State.loadPair
  extract_lets f g
  have hp {a b : Field} : Keeps s0 { s.setPair f g v with spent := a.key :: b.key :: s.spent } :=
    keeps_spend (keeps_setPair hk) (fun k h => List.mem_cons_of_mem _ (List.mem_cons_of_mem _ (by simpa [State.setPair] using h)))
  have ht {t : Field} : Keeps s0 { (s.setPair f g v).set t 1 with spent := f.key :: g.key :: s.spent } :=
    keeps_spend (keeps_set (keeps_setPair hk))
      (fun k h => List.mem_cons_of_mem _ (List.mem_cons_of_mem _ (by simpa [State.setPair] using h)))
  exact keeps_ite (keeps_loadCalendar hk) (keeps_ite (keeps_writeTag hk)
    (keeps_ite ht (keeps_ite ht (keeps_ite hp (keeps_setPair hk)))))

theorem keeps_writeHigh {s : State} {chip : Nat} {p : Page} {inst : Nat} {lo : Reg} {hi : Reg} {i : Nat} {req : Nat} {off : Nat} {value : Nat} (hk : Keeps s0 s) : Keeps s0 (State.writeHigh s chip p inst lo hi i req off value) := by
  unfold State.writeHigh
  repeat' first
    | ((try lift_lets -underBinder); intro x; refine Keeps.cut (s0 := s0) x ?_ ?_ <;> [unfold x; (intro hx; clear_value x)])
    | ((try lift_lets -underBinder); intro x; clear_value x)
    | with_reducible assumption
    | with_reducible apply keeps_ite
    | with_reducible apply keeps_pageFault
    | with_reducible apply keeps_loadPair
    | split
    | (with_reducible apply keeps_update; first | assumption | with_reducible apply keeps_pageFault | with_reducible apply keeps_loadPair)

end Sys2Proof.Machine
end

