-- ==== Sys2Proof/Laws/KeepsActions.lean ====
section
/-! SUPPORT. What the operations and meanings of Machine/Actions.lean keep (Laws/Keeps.lean). -/

namespace Sys2Proof.Machine

variable {s0 : State}

theorem keeps_ran {o : Out} {s : State} (ho : KeepsOut s o) : Keeps s (ran o s) := by
  obtain ⟨t, rfl, ht⟩ := ho.next; exact ht

theorem keeps_goNow {s : State} {k : Nat} {req : Nat} (hk : Keeps s0 s) : Keeps s0 (State.goNow s k req) := by
  unfold State.goNow
  repeat' first
    | with_reducible assumption
    | with_reducible apply keeps_twGo

/-- A list of actions whose meanings all keep what every command keeps. -/
def ActionsKeep {α : Type} (l : List (Action α)) : Prop := ∀ x ∈ l, ∀ q a i v s, KeepsOut s (x.2 q a i v s)

theorem actionsKeep_nil {α : Type} : ActionsKeep ([] : List (Action α)) := fun _ h => by cases h

theorem actionsKeep_cons {α : Type} {r : Reg} {f : Requester → α → Nat → Nat → State → Out} {l : List (Action α)}
    (hf : ∀ q a i v s, KeepsOut s (f q a i v s)) (hl : ActionsKeep l) : ActionsKeep ((r, f) :: l) := by
  intro x hx
  rcases List.mem_cons.1 hx with rfl | hx
  · exact hf
  · exact hl x hx

theorem dieCommands_keep : ActionsKeep dieCommands := by
  unfold dieCommands
  repeat' first
    | with_reducible exact actionsKeep_nil
    | (with_reducible apply actionsKeep_cons; intro q d i v s)
    | with_reducible apply keeps_execWardenRelease
    | with_reducible apply keeps_execLoad
    | with_reducible apply keeps_execKeyringCheck
    | with_reducible apply keeps_execHeapInit
    | with_reducible apply keeps_execAlloc
    | with_reducible apply keeps_execFree
    | with_reducible apply keeps_execRetrain
    | with_reducible apply keeps_execSdescWrite
    | with_reducible apply keeps_execSdescRead
    | with_reducible apply keeps_execOpenCtx
    | with_reducible apply keeps_execServe
    | with_reducible apply keeps_execDrain
    | with_reducible apply keeps_execClose
    | with_reducible apply keeps_execSubPush
    | with_reducible apply keeps_execFwdPop
    | with_reducible apply keeps_execScanOut
    | with_reducible apply keeps_execScanIn
    | with_reducible apply keeps_execFormGo
    | with_reducible apply keeps_execWindowEnable

theorem dieValues_keep : ActionsKeep dieValues := by
  unfold dieValues
  repeat' first
    | with_reducible exact actionsKeep_nil
    | (with_reducible apply actionsKeep_cons; intro q d i v s)
    | with_reducible apply keepsOut_ite
    | with_reducible apply keeps_execImgData
    | with_reducible apply keeps_execWdtKick
    | with_reducible apply keeps_execPostId
    | with_reducible apply keeps_execScqCons
    | with_reducible apply keeps_execCqCons
    | with_reducible apply keeps_execFqCons
    | with_reducible apply keeps_execFuseCol
    | with_reducible apply keeps_execReqTests
    | with_reducible apply keeps_execLinkEnable
    | with_reducible apply keeps_execLinkDisable

theorem clCommands_keep : ActionsKeep clCommands := by
  unfold clCommands
  repeat' first
    | with_reducible exact actionsKeep_nil
    | (with_reducible apply actionsKeep_cons; intro q d i v s)
    | with_reducible apply keeps_execArm
    | with_reducible apply keeps_execFire
    | with_reducible apply keeps_execMainOn
    | with_reducible apply keeps_execMainOff
    | with_reducible apply keeps_execUp
    | with_reducible apply keeps_execDown
    | with_reducible apply keeps_execSetptOk
    | with_reducible apply keeps_execMbxClaim
    | with_reducible apply keeps_execSend
    | with_reducible apply keeps_execMbxRelease
    | with_reducible apply keeps_execFetch
    | with_reducible apply keeps_execBundleCheck
    | with_reducible apply keeps_execCalibrate
    | with_reducible apply keeps_execFeed
    | with_reducible apply keeps_execTwClaim
    | with_reducible apply keeps_execTwRelease
    | with_reducible apply keepsOut_next
    | with_reducible apply keeps_goNow
    | with_reducible exact Keeps.refl _
    | with_reducible apply keeps_execAbort
    | with_reducible apply keeps_execClearStuck
    | with_reducible apply keeps_execEvrecFlush
    | with_reducible apply keeps_execEvrecClearFlashFault
    | with_reducible apply keeps_execReserve
    | with_reducible apply keeps_execCommit
    | with_reducible apply keeps_execCancel
    | with_reducible apply keeps_execCmSet
    | with_reducible apply keeps_execRxPop
    | with_reducible apply keeps_execTxCommit
    | with_reducible apply keeps_execSemClaim
    | with_reducible apply keeps_execSemRelease
    | with_reducible apply keeps_execFaultClear

theorem clValues_keep : ActionsKeep clValues := by
  unfold clValues
  repeat' first
    | with_reducible exact actionsKeep_nil
    | (with_reducible apply actionsKeep_cons; intro q d i v s)
    | with_reducible apply keeps_execTransReq
    | with_reducible apply keeps_execWdtKick
    | with_reducible apply keeps_execCmdPost
    | with_reducible apply keeps_execAfeRequest
    | with_reducible apply keeps_execFenceSet
    | with_reducible apply keeps_execTripSet
    | with_reducible apply keeps_execTripRel
    | with_reducible apply keeps_execRdSeq
    | with_reducible apply keeps_execFlSeq
    | with_reducible apply keeps_execSlew
    | with_reducible apply keeps_execRevoke
    | with_reducible apply keeps_onWrite
    | with_reducible apply keeps_writeLimits
    | with_reducible apply keepsOut_next
    | (with_reducible intro t ht)
    | with_reducible assumption
    | with_reducible exact Keeps.refl _

theorem keeps_actionOf {α : Type} {commands values : List (Action α)} (hc : ActionsKeep commands) (hv : ActionsKeep values)
    {r : Reg} {q : Requester} {a : α} {i v : Nat} {f : State → State} (h : actionOf commands values r q a i v = some f) (s : State) :
    Keeps s (f s) := by
  unfold actionOf at h
  split at h
  · next x hx =>
    cases h
    exact keeps_ite (keeps_ran (hc x (List.mem_of_find?_eq_some hx) q a i v s)) (Keeps.refl s)
  · cases hx : values.find? (fun x => x.1.same r) with
    | none => rw [hx] at h; cases h
    | some x =>
      rw [hx] at h; cases h
      exact keeps_ran (hv x (List.mem_of_find?_eq_some hx) q a i v s)

theorem keeps_act {s : State} {q : Requester} {chip : Fin 9} {r : Reg} {i v : Nat} (hk : Keeps s0 s) :
    Keeps s0 (s.act q chip r i v) := by
  refine hk.trans ?_
  unfold State.act
  by_cases hd : chip.val < 8
  · simp only [hd, dite_true]
    split
    · next f hf => exact keeps_actionOf dieCommands_keep dieValues_keep hf s
    · exact Keeps.refl s
  · simp only [hd, dite_false]
    split
    · next f hf => exact keeps_actionOf clCommands_keep clValues_keep hf s
    · exact Keeps.refl s

end Sys2Proof.Machine
end

