-- ==== Sys2Proof/Laws/KeepsRegisterRows.lean ====
section
/-! SUPPORT. What the operations and meanings of Machine/RegisterRows.lean keep (Laws/Keeps.lean). -/

namespace Sys2Proof.Machine

variable {s0 : State}

theorem keeps_noPage {s : State} {chip : Nat} {req : Nat} {off : Nat} {value : Nat} (hk : Keeps s0 s) : Keeps s0 (State.noPage s chip req off value) := by
  unfold State.noPage
  repeat' first
    | with_reducible assumption
    | with_reducible apply keeps_pageFault

theorem keeps_notServed {s : State} {req : Nat} {off : Nat} {value : Nat} (hk : Keeps s0 s) : Keeps s0 (State.notServed s req off value) := by
  unfold State.notServed
  repeat' first
    | with_reducible assumption
    | with_reducible apply keeps_pageFault

theorem keeps_toPage {s : State} {chip : Nat} {req : Nat} {off : Nat} {value : Nat} {act : Page → Nat → State} (hk : Keeps s0 s) (hact : ∀ x0 x1, Keeps s0 (act x0 x1)) : Keeps s0 (State.toPage s chip req off value act) := by
  unfold State.toPage
  repeat' first
    | with_reducible assumption
    | with_reducible apply keeps_ite
    | with_reducible apply keeps_noPage
    | with_reducible apply keeps_notServed
    | with_reducible apply hact
    | split

theorem keeps_lockPage {s : State} {chip : Nat} {p : Page} {inst : Nat} {req : Nat} {value : Nat} (hk : Keeps s0 s) : Keeps s0 (State.lockPage s chip p inst req value) := by
  unfold State.lockPage
  repeat' first
    | ((try lift_lets -underBinder); intro x; refine Keeps.cut (s0 := s0) x ?_ ?_ <;> [unfold x; (intro hx; clear_value x)])
    | ((try lift_lets -underBinder); intro x; clear_value x)
    | (with_reducible intro _)
    | with_reducible assumption
    | with_reducible apply keeps_ite
    | with_reducible apply keeps_pageFault
    | with_reducible apply keeps_set

theorem keeps_clearWords {s : State} {chip : Nat} {ranges : List (Nat × Nat)} (hk : Keeps s0 s) :
    Keeps s0 (s.clearWords chip ranges) :=
  hk.change rfl rfl rfl id (fun k => List.Pairwise.filter _ k) id id id (fun _ _ k => k)

theorem keeps_clearClBlock {s : State} {block : Nat} (hk : Keeps s0 s) : Keeps s0 (State.clearClBlock s block) := by
  unfold State.clearClBlock
  repeat' first
    | (with_reducible intro _)
    | with_reducible assumption
    | with_reducible apply keeps_emptyRx
    | with_reducible apply keeps_dieReset
    | with_reducible apply keeps_each
    | with_reducible apply keeps_set
    | split
    | (with_reducible apply keeps_update; first | assumption | with_reducible apply keeps_emptyRx | with_reducible apply keeps_dieReset)

theorem keeps_beforeSoftReset {s : State} {chip : Nat} {p : Page} {inst : Nat} (hk : Keeps s0 s) : Keeps s0 (State.beforeSoftReset s chip p inst) := by
  unfold State.beforeSoftReset
  repeat' first
    | (with_reducible intro _)
    | with_reducible assumption
    | with_reducible apply keeps_ite
    | with_reducible apply keeps_toLink
    | with_reducible apply keeps_each
    | with_reducible apply keeps_tripLine
    | with_reducible apply keeps_checkService
    | with_reducible apply keeps_twCut
    | with_reducible apply keeps_event
    | with_reducible apply keeps_abandon

theorem keeps_afterSoftReset {s : State} {chip : Nat} {p : Page} (hk : Keeps s0 s) : Keeps s0 (State.afterSoftReset s chip p) := by
  unfold State.afterSoftReset
  repeat' first
    | (with_reducible intro _)
    | with_reducible assumption
    | with_reducible apply keeps_ite
    | with_reducible apply keeps_clearSensor
    | with_reducible apply keeps_coolNow
    | with_reducible apply keeps_each

theorem keeps_clearFires {s : State} {d : Nat} {p : Page} {inst : Nat} (hk : Keeps s0 s) : Keeps s0 (State.clearFires s d p inst) := by
  unfold State.clearFires
  repeat' first
    | (with_reducible intro _)
    | with_reducible assumption
    | with_reducible apply keeps_ite
    | (with_reducible apply keeps_update; first | assumption)

theorem keeps_softReset {s : State} {chip : Nat} {p : Page} {inst : Nat} (hk : Keeps s0 s) : Keeps s0 (State.softReset s chip p inst) := by
  unfold State.softReset
  repeat' first
    | ((try lift_lets -underBinder); intro x; refine Keeps.cut (s0 := s0) x ?_ ?_ <;> [unfold x; (intro hx; clear_value x)])
    | ((try lift_lets -underBinder); intro x; clear_value x)
    | (with_reducible intro _)
    | with_reducible assumption
    | with_reducible apply keeps_ite
    | with_reducible apply keeps_beforeSoftReset
    | with_reducible apply keeps_softResetPage
    | with_reducible apply keeps_clearWords
    | with_reducible apply keeps_clearFires
    | with_reducible apply keeps_onDie
    | with_reducible apply keeps_clearClBlock
    | with_reducible apply keeps_afterSoftReset

theorem keeps_enableTakes {s : State} {chip : Nat} {p : Page} {inst : Nat} {req : Nat} {value : Nat} {on : Bool} (hk : Keeps s0 s) : Keeps s0 (State.enableTakes s chip p inst req value on) := by
  unfold State.enableTakes
  repeat' first
    | ((try lift_lets -underBinder); intro x; clear_value x)
    | with_reducible assumption
    | with_reducible apply keeps_ite
    | with_reducible apply keeps_twEnableOn
    | with_reducible apply keeps_twDisable
    | with_reducible apply keeps_calibrateBoth
    | with_reducible apply keeps_set
    | with_reducible apply keeps_abandon
    | with_reducible apply keeps_put

theorem keeps_softResetEnd {s : State} {chip : Nat} {p : Page} {inst : Nat} (hk : Keeps s0 s) : Keeps s0 (State.softResetEnd s chip p inst) := by
  unfold State.softResetEnd
  repeat' first
    | ((try lift_lets -underBinder); intro x; refine Keeps.cut (s0 := s0) x ?_ ?_ <;> [unfold x; (intro hx; clear_value x)])
    | ((try lift_lets -underBinder); intro x; clear_value x)
    | with_reducible assumption
    | with_reducible apply keeps_ite
    | with_reducible apply keeps_set
    | with_reducible apply keeps_enableTakes

theorem keeps_writeCtrl {s : State} {chip : Nat} {p : Page} {inst : Nat} {req : Nat} {value : Nat} (hk : Keeps s0 s) : Keeps s0 (State.writeCtrl s chip p inst req value) := by
  unfold State.writeCtrl
  repeat' first
    | ((try lift_lets -underBinder); intro x; refine Keeps.cut (s0 := s0) x ?_ ?_ <;> [unfold x; (intro hx; clear_value x)])
    | with_reducible assumption
    | with_reducible apply keeps_ite
    | with_reducible apply keeps_put
    | with_reducible apply keeps_pageFault
    | with_reducible apply keeps_enableTakes
    | with_reducible apply keeps_softReset

theorem keeps_writeHeader {s : State} {chip : Nat} {p : Page} {inst : Nat} {req : Nat} {o : Nat} {value : Nat} (hk : Keeps s0 s) : Keeps s0 (State.writeHeader s chip p inst req o value) := by
  unfold State.writeHeader
  repeat' first
    | ((try lift_lets -underBinder); intro x; refine Keeps.cut (s0 := s0) x ?_ ?_ <;> [unfold x; (intro hx; clear_value x)])
    | ((try lift_lets -underBinder); intro x; clear_value x)
    | (with_reducible intro _)
    | with_reducible assumption
    | with_reducible apply keeps_writeCtrl
    | with_reducible apply keeps_set
    | with_reducible apply keeps_lockPage
    | with_reducible apply keeps_commitRequest
    | with_reducible apply keeps_pageFault
    | split

theorem keeps_writeFields {s : State} {q : Requester} {chip : Fin 9} {p : Page} {inst : Nat} {off : Nat} {value : Nat} {hits : List Hit} (hk : Keeps s0 s) : Keeps s0 (State.writeFields s q chip p inst off value hits) := by
  unfold State.writeFields
  repeat' first
    | ((try lift_lets -underBinder); intro x; refine Keeps.cut (s0 := s0) x ?_ ?_ <;> [unfold x; (intro hx; clear_value x)])
    | ((try lift_lets -underBinder); intro x; clear_value x)
    | (with_reducible intro _)
    | with_reducible assumption
    | with_reducible apply keeps_ite
    | with_reducible apply keeps_foldl
    | with_reducible apply keeps_storeField
    | with_reducible apply keeps_afterWrite
    | with_reducible apply keeps_pageFault
    | with_reducible apply keeps_act
    | (with_reducible apply keeps_update; first | assumption | with_reducible apply keeps_foldl | with_reducible apply keeps_storeField | with_reducible apply keeps_afterWrite | with_reducible apply keeps_pageFault | with_reducible apply keeps_act)

theorem keeps_writeBlock {s : State} {q : Requester} {chip : Fin 9} {p : Page} {inst : Nat} {off : Nat} {value : Nat} (hk : Keeps s0 s) : Keeps s0 (State.writeBlock s q chip p inst off value) := by
  unfold State.writeBlock
  repeat' first
    | ((try lift_lets -underBinder); intro x; clear_value x)
    | with_reducible assumption
    | with_reducible apply keeps_ite
    | with_reducible apply keeps_pageFault
    | with_reducible apply keeps_stageLow
    | with_reducible apply keeps_writeHigh
    | with_reducible apply keeps_writeFields
    | split

theorem keeps_collided {t : State} {s : State} {chip : Nat} {p : Page} {inst : Nat} {req : Nat} {off : Nat} {value : Nat} (hk : Keeps s0 t) : Keeps s0 (State.collided t s chip p inst req off value) := by
  unfold State.collided
  repeat' first
    | (with_reducible intro _)
    | with_reducible assumption
    | with_reducible apply keeps_ite
    | with_reducible apply keeps_pageFault

theorem keeps_write32 {s : State} {q : Requester} {chip : Fin 9} {off : Nat} {enables : BitVec 4} {value : Nat} {collide : Bool} (hk : Keeps s0 s) : Keeps s0 (State.write32 s q chip off enables value collide) := by
  unfold State.write32
  repeat' first
    | ((try lift_lets -underBinder); intro x; refine Keeps.cut (s0 := s0) x ?_ ?_ <;> [unfold x; (intro hx; clear_value x)])
    | ((try lift_lets -underBinder); intro x; clear_value x)
    | (with_reducible intro _)
    | with_reducible assumption
    | with_reducible apply keeps_ite
    | with_reducible apply keeps_toPage
    | with_reducible apply keeps_pageFault
    | with_reducible apply keeps_writeHeader
    | with_reducible apply keeps_writeBlock
    | with_reducible apply keeps_collided

theorem keeps_execRegisterWrite (req : Requester) (chip : Fin 9) (offset : BitVec 24) (enables : BitVec 4) (value : BitVec 32) (collide : Bool) (high : Option (BitVec 4 × BitVec 32)) (s : State) : KeepsOut s (execRegisterWrite req chip offset enables value collide high s) := by
  have hk := Keeps.refl s
  unfold execRegisterWrite
  repeat' first
    | ((try lift_lets -underBinder); intro x; refine Keeps.cut (s0 := s) x ?_ ?_ <;> [unfold x; (intro hx; clear_value x)])
    | ((try lift_lets -underBinder); intro x; clear_value x)
    | (with_reducible intro _)
    | with_reducible assumption
    | with_reducible apply keepsOut_next
    | with_reducible apply keeps_write32
    | split

theorem keeps_execReservedRangeAccess (req : Requester) (chip : Fin 9) (offset : BitVec 24) (write : Bool) (value : BitVec 32) (s : State) : KeepsOut s (execReservedRangeAccess req chip offset write value s) := by
  have hk := Keeps.refl s
  unfold execReservedRangeAccess
  repeat' first
    | ((try lift_lets -underBinder); intro x; refine Keeps.cut (s0 := s) x ?_ ?_ <;> [unfold x; (intro hx; clear_value x)])
    | ((try lift_lets -underBinder); intro x; clear_value x)
    | with_reducible assumption
    | with_reducible apply keepsOut_next
    | with_reducible apply keepsOut_ite
    | with_reducible apply keeps_ite
    | with_reducible apply keeps_noPage
    | (with_reducible apply keeps_update; first | assumption | with_reducible apply keeps_noPage)

theorem keeps_read32 {s : State} {req : Nat} {chip : Nat} {off : Nat} {enables : BitVec 4} (hk : Keeps s0 s) : Keeps s0 (State.read32 s req chip off enables) := by
  unfold State.read32
  repeat' first
    | ((try lift_lets -underBinder); intro x; refine Keeps.cut (s0 := s0) x ?_ ?_ <;> [unfold x; (intro hx; clear_value x)])
    | ((try lift_lets -underBinder); intro x; clear_value x)
    | (with_reducible intro _)
    | with_reducible assumption
    | with_reducible apply keeps_ite
    | with_reducible apply keeps_noPage
    | split
    | (with_reducible apply keeps_update; first | assumption | with_reducible apply keeps_noPage)

theorem keeps_execLowWordRead (req : Requester) (chip : Fin 9) (offset : BitVec 24) (enables : BitVec 4) (high : Option (BitVec 4)) (s : State) : KeepsOut s (execLowWordRead req chip offset enables high s) := by
  have hk := Keeps.refl s
  unfold execLowWordRead
  repeat' first
    | ((try lift_lets -underBinder); intro x; refine Keeps.cut (s0 := s) x ?_ ?_ <;> [unfold x; (intro hx; clear_value x)])
    | ((try lift_lets -underBinder); intro x; clear_value x)
    | (with_reducible intro _)
    | with_reducible assumption
    | with_reducible apply keepsOut_next
    | with_reducible apply keeps_read32
    | split
    | (with_reducible apply keeps_update; first | assumption | with_reducible apply keeps_read32)

theorem keeps_execLowWordWrite (req : Requester) (chip : Fin 9) (offset : BitVec 24) (value : BitVec 32) (s : State) : KeepsOut s (execLowWordWrite req chip offset value s) := by
  have hk := Keeps.refl s
  unfold execLowWordWrite
  repeat' first
    | ((try lift_lets -underBinder); intro x; clear_value x)
    | (with_reducible intro _)
    | with_reducible assumption
    | with_reducible apply keepsOut_next
    | with_reducible apply keeps_toPage
    | with_reducible apply keeps_stageLow
    | split

theorem keeps_execHighWordWrite (req : Requester) (chip : Fin 9) (offset : BitVec 24) (value : BitVec 32) (s : State) : KeepsOut s (execHighWordWrite req chip offset value s) := by
  have hk := Keeps.refl s
  unfold execHighWordWrite
  repeat' first
    | ((try lift_lets -underBinder); intro x; clear_value x)
    | (with_reducible intro _)
    | with_reducible assumption
    | with_reducible apply keepsOut_next
    | with_reducible apply keeps_toPage
    | with_reducible apply keeps_writeHigh
    | split

theorem keeps_execPageLock (req : Requester) (chip : Fin 9) (page : Fin 4096) (s : State) : KeepsOut s (execPageLock req chip page s) := by
  have hk := Keeps.refl s
  unfold execPageLock
  repeat' first
    | (with_reducible intro _)
    | with_reducible assumption
    | with_reducible apply keepsOut_next
    | with_reducible apply keeps_toPage
    | with_reducible apply keeps_lockPage

theorem keeps_execSoftReset (req : Requester) (chip : Fin 9) (page : Fin 4096) (s : State) : KeepsOut s (execSoftReset req chip page s) := by
  have hk := Keeps.refl s
  unfold execSoftReset
  repeat' first
    | (with_reducible intro _)
    | with_reducible assumption
    | with_reducible apply keepsOut_next
    | with_reducible apply keeps_toPage
    | with_reducible apply keeps_softReset

theorem keeps_execSoftResetEnd (chip : Fin 9) (page : Fin 4096) (s : State) : KeepsOut s (execSoftResetEnd chip page s) := by
  have hk := Keeps.refl s
  unfold execSoftResetEnd
  repeat' first
    | with_reducible assumption
    | with_reducible apply keepsOut_next
    | with_reducible apply keeps_softResetEnd
    | split

theorem keeps_execCommitRequest (req : Requester) (chip : Fin 9) (page : Fin 4096) (value : BitVec 32) (s : State) : KeepsOut s (execCommitRequest req chip page value s) := by
  have hk := Keeps.refl s
  unfold execCommitRequest
  repeat' first
    | (with_reducible intro _)
    | with_reducible assumption
    | with_reducible apply keepsOut_next
    | with_reducible apply keeps_toPage
    | with_reducible apply keeps_commitRequest

theorem keeps_execCommitApply (chip : Fin 9) (page : Fin 4096) (s : State) : KeepsOut s (execCommitApply chip page s) := by
  have hk := Keeps.refl s
  unfold execCommitApply
  repeat' first
    | with_reducible assumption
    | with_reducible apply keepsOut_next
    | with_reducible apply keepsOut_ite
    | with_reducible apply keeps_ite
    | with_reducible apply keeps_commitApply
    | split

end Sys2Proof.Machine
end

