-- ==== Sys2Proof/Laws/KeepsExec.lean ====
section
/-! SUPPORT. What every command keeps, of all of them at once. -/

namespace Sys2Proof.Machine

/-- Every command answers a next state, which keeps the queue, the clock, the form of the tables and of memory, and the spent
fuses. -/
theorem keeps_exec (c : Instr) (s : State) : KeepsOut s (exec c s) := by
  cases c with
  | registerWrite req chip offset enables value collide high => exact keeps_execRegisterWrite req chip offset enables value collide high s
  | reservedRangeAccess req chip offset write value => exact keeps_execReservedRangeAccess req chip offset write value s
  | lowWordRead req chip offset enables high => exact keeps_execLowWordRead req chip offset enables high s
  | lowWordWrite req chip offset value => exact keeps_execLowWordWrite req chip offset value s
  | highWordWrite req chip offset value => exact keeps_execHighWordWrite req chip offset value s
  | pageLock req chip page => exact keeps_execPageLock req chip page s
  | softReset req chip page => exact keeps_execSoftReset req chip page s
  | softResetEnd chip page => exact keeps_execSoftResetEnd chip page s
  | commitRequest req chip page value => exact keeps_execCommitRequest req chip page value s
  | commitApply chip page => exact keeps_execCommitApply chip page s
  | bar2Access die offset op ecc => exact keeps_execBar2Access die offset op ecc s
  | pcieReset endpoint => exact keeps_execPcieReset endpoint s
  | standbySupplyGood => exact keeps_execStandbySupplyGood s
  | standbySupplyLost => exact keeps_execStandbySupplyLost s
  | powerOnResetRelease => exact keeps_execPowerOnResetRelease s
  | slotIdLatch pins => exact keeps_execSlotIdLatch pins s
  | corePllLoss => exact keeps_execCorePllLoss s
  | corePllRelock => exact keeps_execCorePllRelock s
  | diePllLoss die pll => exact keeps_execDiePllLoss die pll s
  | sidebandFrame die crcGood => exact keeps_execSidebandFrame die crcGood s
  | mainOn req => exact keeps_execMainOn req s
  | mainOff req => exact keeps_execMainOff req s
  | up req => exact keeps_execUp req s
  | down req => exact keeps_execDown req s
  | setptOk req => exact keeps_execSetptOk req s
  | railPowerGood die => exact keeps_execRailPowerGood die s
  | railOffStep die => exact keeps_execRailOffStep die s
  | pgTimeout die => exact keeps_execPgTimeout die s
  | setptTimeout die => exact keeps_execSetptTimeout die s
  | railPgLoss die rail => exact keeps_execRailPgLoss die rail s
  | ibcLost converter => exact keeps_execIbcLost converter s
  | powerFailAssert => exact keeps_execPowerFailAssert s
  | powerFailRelease => exact keeps_execPowerFailRelease s
  | inputOvercurrent amps => exact keeps_execInputOvercurrent amps s
  | mbxClaim req core => exact keeps_execMbxClaim req core s
  | send req core => exact keeps_execSend req core s
  | mbxRelease req core => exact keeps_execMbxRelease req core s
  | opChange die slot => exact keeps_execOpChange die slot s
  | throttle die slot => exact keeps_execThrottle die slot s
  | testSlot die slot => exact keeps_execTestSlot die slot s
  | opForce die slot => exact keeps_execOpForce die slot s
  | idlePllLock die => exact keeps_execIdlePllLock die s
  | atHinge die => exact keeps_execAtHinge die s
  | voltCheck die powerGood => exact keeps_execVoltCheck die powerGood s
  | voltOk die => exact keeps_execVoltOk die s
  | holdEnd die => exact keeps_execHoldEnd die s
  | fDone die => exact keeps_execFDone die s
  | transReq req new => exact keeps_execTransReq req new s
  | arm req => exact keeps_execArm req s
  | fire req => exact keeps_execFire req s
  | coresRelease => exact keeps_execCoresRelease s
  | coreReady core => exact keeps_execCoreReady core s
  | coreStartTimeout => exact keeps_execCoreStartTimeout s
  | dieReadyTimeout die => exact keeps_execDieReadyTimeout die s
  | fetch req => exact keeps_execFetch req s
  | fetchDone bundle pcieError => exact keeps_execFetchDone bundle pcieError s
  | bundleCheck req => exact keeps_execBundleCheck req s
  | bundleCheckDone => exact keeps_execBundleCheckDone s
  | imgData req die value => exact keeps_execImgData req die value s
  | wardenRelease req die core => exact keeps_execWardenRelease req die core s
  | wdtKick req core value => exact keeps_execWdtKick req core value s
  | watchdogFire core => exact keeps_execWatchdogFire core s
  | coreRestart core => exact keeps_execCoreRestart core s
  | cmdPost req k value => exact keeps_execCmdPost req k value s
  | cmdLate k => exact keeps_execCmdLate k s
  | publishSwap vin iin => exact keeps_execPublishSwap vin iin s
  | stale => exact keeps_execStale s
  | bringup => exact keeps_execBringup s
  | powerDown => exact keeps_execPowerDown s
  | ctxOpen => exact keeps_execCtxOpen s
  | ctxClose => exact keeps_execCtxClose s
  | clearTrip => exact keeps_execClearTrip s
  | setThrottle => exact keeps_execSetThrottle s
  | setForecast => exact keeps_execSetForecast s
  | clearSensor => exact keeps_execClearSensor s
  | setFanFloor => exact keeps_execSetFanFloor s
  | setPumpFloor => exact keeps_execSetPumpFloor s
  | clearCoolFault => exact keeps_execClearCoolFault s
  | clearHostFloors => exact keeps_execClearHostFloors s
  | testRequest => exact keeps_execTestRequest s
  | testCancel => exact keeps_execTestCancel s
  | afeCalibrate => exact keeps_execAfeCalibrate s
  | setTestPeriod => exact keeps_execSetTestPeriod s
  | flush => exact keeps_execFlush s
  | setClass => exact keeps_execSetClass s
  | setFlushMark => exact keeps_execSetFlushMark s
  | clearFlashFault => exact keeps_execClearFlashFault s
  | outer t => exact keeps_execOuter t s
  | mm4 t => exact keeps_execMm4 t s
  | accrd t => exact keeps_execAccrd t s
  | accwr t => exact keeps_execAccwr t s
  | pack8 t => exact keeps_execPack8 t s
  | pack16 t => exact keeps_execPack16 t s
  | unpack t => exact keeps_execUnpack t s
  | vadd t => exact keeps_execVadd t s
  | vsub t => exact keeps_execVsub t s
  | vmul t => exact keeps_execVmul t s
  | vmax t => exact keeps_execVmax t s
  | vmin t => exact keeps_execVmin t s
  | vmov t => exact keeps_execVmov t s
  | bld t corrected bad => exact keeps_execBld t corrected bad s
  | bst t => exact keeps_execBst t s
  | blds t corrected bad => exact keeps_execBlds t corrected bad s
  | bsts t => exact keeps_execBsts t s
  | add t => exact keeps_execAdd t s
  | sub t => exact keeps_execSub t s
  | addi t => exact keeps_execAddi t s
  | and t => exact keeps_execAnd t s
  | or t => exact keeps_execOr t s
  | xor t => exact keeps_execXor t s
  | shl t => exact keeps_execShl t s
  | shr t => exact keeps_execShr t s
  | sra t => exact keeps_execSra t s
  | movi t => exact keeps_execMovi t s
  | ori t => exact keeps_execOri t s
  | shli t => exact keeps_execShli t s
  | fadd t => exact keeps_execFadd t s
  | fsub t => exact keeps_execFsub t s
  | cmpeq t => exact keeps_execCmpeq t s
  | cmplt t => exact keeps_execCmplt t s
  | cmpltu t => exact keeps_execCmpltu t s
  | fcmplt t => exact keeps_execFcmplt t s
  | fcmpeq t => exact keeps_execFcmpeq t s
  | cmpeqi t => exact keeps_execCmpeqi t s
  | pand t => exact keeps_execPand t s
  | por t => exact keeps_execPor t s
  | pnot t => exact keeps_execPnot t s
  | loopi t => exact keeps_execLoopi t s
  | itof t => exact keeps_execItof t s
  | ftoi t => exact keeps_execFtoi t s
  | next t => exact keeps_execNext t s
  | loopEnd t => exact keeps_execLoopEnd t s
  | halt t => exact keeps_execHalt t s
  | vectorRouteSend t => exact keeps_execVectorRouteSend t s
  | vectorRouteCapture t => exact keeps_execVectorRouteCapture t s
  | scalarRouteSend t => exact keeps_execScalarRouteSend t s
  | scalarRouteCapture t => exact keeps_execScalarRouteCapture t s
  | ctlCapturePredicate t => exact keeps_execCtlCapturePredicate t s
  | ctlDrivePredicate t => exact keeps_execCtlDrivePredicate t s
  | ctlCaptureToken t => exact keeps_execCtlCaptureToken t s
  | ctlDriveToken t => exact keeps_execCtlDriveToken t s
  | fuseCol req die group column => exact keeps_execFuseCol req die group column s
  | keyringCheck req die => exact keeps_execKeyringCheck req die s
  | keyringCheckDone die ecc => exact keeps_execKeyringCheckDone die ecc s
  | load req die key => exact keeps_execLoad req die key s
  | shadowReady die cycles ecc => exact keeps_execShadowReady die cycles ecc s
  | guSend die gate step => exact keeps_execGuSend die gate step s
  | guTake die gate step => exact keeps_execGuTake die gate step s
  | guIngressChunk die gate ecc => exact keeps_execGuIngressChunk die gate ecc s
  | guEgressAck die gate ecc => exact keeps_execGuEgressAck die gate ecc s
  | globalFreeze die gate step => exact keeps_execGlobalFreeze die gate step s
  | freezeEnd die cycles held => exact keeps_execFreezeEnd die cycles held s
  | freezeLimit die gate cycles held => exact keeps_execFreezeLimit die gate cycles held s
  | sectionEnd die => exact keeps_execSectionEnd die s
  | quiesceEnd die enabled total => exact keeps_execQuiesceEnd die enabled total s
  | hinge die waited => exact keeps_execHinge die waited s
  | skipPhaseComplete die cycles ecc => exact keeps_execSkipPhaseComplete die cycles ecc s
  | keyStart die waited => exact keeps_execKeyStart die waited s
  | stretchCycle die => exact keeps_execStretchCycle die s
  | memoryAccess die agent address op ecc => exact keeps_execMemoryAccess die agent address op ecc s
  | scrubRead die stack ecc => exact keeps_execScrubRead die stack ecc s
  | refresh die stack => exact keeps_execRefresh die stack s
  | stackTempRead die stack celsius => exact keeps_execStackTempRead die stack celsius s
  | windowEnable req die window rights => exact keeps_execWindowEnable req die window rights s
  | heapInit req die => exact keeps_execHeapInit req die s
  | heapInitDone die => exact keeps_execHeapInitDone die s
  | alloc req die window => exact keeps_execAlloc req die window s
  | free req die window => exact keeps_execFree req die window s
  | guAllocToken die gate => exact keeps_execGuAllocToken die gate s
  | guFreeToken die gate => exact keeps_execGuFreeToken die gate s
  | allocatorServe die => exact keeps_execAllocatorServe die s
  | linkEnable req die link => exact keeps_execLinkEnable req die link s
  | linkDisable req die link => exact keeps_execLinkDisable req die link s
  | retrain req die link => exact keeps_execRetrain req die link s
  | signalDetect die link => exact keeps_execSignalDetect die link s
  | equaliseDone die link swapped partnerPrecodes snr0 snr1 => exact keeps_execEqualiseDone die link swapped partnerPrecodes snr0 snr1 s
  | fecAlignDone die link => exact keeps_execFecAlignDone die link s
  | delayDone die link => exact keeps_execDelayDone die link s
  | beatLockDone die link => exact keeps_execBeatLockDone die link s
  | trainTimeout die link => exact keeps_execTrainTimeout die link s
  | trainRetry die link => exact keeps_execTrainRetry die link s
  | ident die link ident => exact keeps_execIdent die link ident s
  | identOk die link => exact keeps_execIdentOk die link s
  | refuse die link code => exact keeps_execRefuse die link code s
  | delayReq die link stamp turnaround => exact keeps_execDelayReq die link stamp turnaround s
  | delayRsp die link stamp turnaround time => exact keeps_execDelayRsp die link stamp turnaround time s
  | beatInfo die link depth parent => exact keeps_execBeatInfo die link depth parent s
  | codewordReceive die link word => exact keeps_execCodewordReceive die link word s
  | beatMarker die link beat phase stepped locked arrival => exact keeps_execBeatMarker die link beat phase stepped locked arrival s
  | beatBoundary die => exact keeps_execBeatBoundary die s
  | ready die link k => exact keeps_execReady die link k s
  | release die link k beat => exact keeps_execRelease die link k beat s
  | releaseTimeout die => exact keeps_execReleaseTimeout die s
  | los die link => exact keeps_execLos die link s
  | fecUnlock die link => exact keeps_execFecUnlock die link s
  | markerMiss die link => exact keeps_execMarkerMiss die link s
  | peerDown die link => exact keeps_execPeerDown die link s
  | peerIsolated die link => exact keeps_execPeerIsolated die link s
  | autoRetrain die link => exact keeps_execAutoRetrain die link s
  | peerFenced die link => exact keeps_execPeerFenced die link s
  | peerFencedEnd die link => exact keeps_execPeerFencedEnd die link s
  | faultFwd die link fragment seq words => exact keeps_execFaultFwd die link fragment seq words s
  | faultFwdTimeout src seq => exact keeps_execFaultFwdTimeout src seq s
  | sdescWrite req die => exact keeps_execSdescWrite req die s
  | sdescRead req die => exact keeps_execSdescRead req die s
  | postId req die id => exact keeps_execPostId req die id s
  | slotSend die link slot idle phase time ecc => exact keeps_execSlotSend die link slot idle phase time ecc s
  | chunkArrival die link beat slot id seq data => exact keeps_execChunkArrival die link beat slot id seq data s
  | chunkWriteAck die link => exact keeps_execChunkWriteAck die link s
  | creditReturn die link credits => exact keeps_execCreditReturn die link credits s
  | nak die link beat slot => exact keeps_execNak die link beat slot s
  | switch die link beat => exact keeps_execSwitch die link beat s
  | switchBeat die => exact keeps_execSwitchBeat die s
  | switchWaitExpiry die link => exact keeps_execSwitchWaitExpiry die link s
  | readmit die link k => exact keeps_execReadmit die link k s
  | scqCons req die value => exact keeps_execScqCons req die value s
  | xferTo die id => exact keeps_execXferTo die id s
  | creditTo die link => exact keeps_execCreditTo die link s
  | scqTo die => exact keeps_execScqTo die s
  | openCtx req die => exact keeps_execOpenCtx req die s
  | serve req die => exact keeps_execServe req die s
  | bayImageLoaded die ecc => exact keeps_execBayImageLoaded die ecc s
  | drain req die => exact keeps_execDrain req die s
  | close req die => exact keeps_execClose req die s
  | closeDone die => exact keeps_execCloseDone die s
  | subPush req die => exact keeps_execSubPush req die s
  | runTake die => exact keeps_execRunTake die s
  | inputCopyDone die ecc => exact keeps_execInputCopyDone die ecc s
  | outputCopyDone die ecc => exact keeps_execOutputCopyDone die ecc s
  | cqCons req die value => exact keeps_execCqCons req die value s
  | fqCons req die value => exact keeps_execFqCons req die value s
  | fwdPop req die => exact keeps_execFwdPop req die s
  | scanOut req die => exact keeps_execScanOut req die s
  | scanIn req die ecc => exact keeps_execScanIn req die ecc s
  | scanDone die cycles => exact keeps_execScanDone die cycles s
  | tilePllLock die ecc => exact keeps_execTilePllLock die ecc s
  | afeEnable req => exact keeps_execAfeEnable req s
  | calibrate req engines => exact keeps_execCalibrate req engines s
  | calibrationDone engine zero full tia => exact keeps_execCalibrationDone engine zero full tia s
  | afeRequest req port profile => exact keeps_execAfeRequest req port profile s
  | roundStart engine => exact keeps_execRoundStart engine s
  | conversionDone engine code outA outB => exact keeps_execConversionDone engine code outA outB s
  | afeClockLost => exact keeps_execAfeClockLost s
  | feed req window => exact keeps_execFeed req window s
  | sensorStale sensor => exact keeps_execSensorStale sensor s
  | throttleStep zone => exact keeps_execThrottleStep zone s
  | throttleRelease zone => exact keeps_execThrottleRelease zone s
  | zoneTripFence zone => exact keeps_execZoneTripFence zone s
  | controlPeriod => exact keeps_execControlPeriod s
  | pwmPeriod => exact keeps_execPwmPeriod s
  | tachEdge channel us width => exact keeps_execTachEdge channel us width s
  | tachFault channel => exact keeps_execTachFault channel s
  | flowPulse input => exact keeps_execFlowPulse input s
  | flowFault input => exact keeps_execFlowFault input s
  | faultClear req channel => exact keeps_execFaultClear req channel s
  | leakCrossing channel current => exact keeps_execLeakCrossing channel current s
  | leakFilterDone channel leak => exact keeps_execLeakFilterDone channel leak s
  | leakSettleEnd => exact keeps_execLeakSettleEnd s
  | leakMeasure channel value ovr => exact keeps_execLeakMeasure channel value ovr s
  | twoWireEnable req bus => exact keeps_execTwoWireEnable req bus s
  | twClaim req bus core => exact keeps_execTwClaim req bus core s
  | twRelease req bus core => exact keeps_execTwRelease req bus core s
  | twWrite req bus pec address segment => exact keeps_execTwWrite req bus pec address segment s
  | twRead req bus pec address segment => exact keeps_execTwRead req bus pec address segment s
  | writeRead req bus pec address segment => exact keeps_execWriteRead req bus pec address segment s
  | blockRead req bus pec address segment => exact keeps_execBlockRead req bus pec address segment s
  | transactionEnd bus result count data blockCount pec => exact keeps_execTransactionEnd bus result count data blockCount pec s
  | abort req bus => exact keeps_execAbort req bus s
  | stretchTimeout bus => exact keeps_execStretchTimeout bus s
  | transactionTimeout bus => exact keeps_execTransactionTimeout bus s
  | recoveryEnd bus ok scl trunkHigh => exact keeps_execRecoveryEnd bus ok scl trunkHigh s
  | clearStuck req bus => exact keeps_execClearStuck req bus s
  | recordPresent writer code origin arg0 arg1 aux waiting => exact keeps_execRecordPresent writer code origin arg0 arg1 aux waiting s
  | dieRecord die => exact keeps_execDieRecord die s
  | reserve req core => exact keeps_execReserve req core s
  | commit req core => exact keeps_execCommit req core s
  | cancel req core => exact keeps_execCancel req core s
  | reservationTimeout core => exact keeps_execReservationTimeout core s
  | bucketRefill => exact keeps_execBucketRefill s
  | sweep => exact keeps_execSweep s
  | evrecFlush req => exact keeps_execEvrecFlush req s
  | evrecClearFlashFault req => exact keeps_execEvrecClearFlashFault req s
  | pageProgramDone ok => exact keeps_execPageProgramDone ok s
  | eraseDone ok => exact keeps_execEraseDone ok s
  | eraseTimeout => exact keeps_execEraseTimeout s
  | pfFlushLimit => exact keeps_execPfFlushLimit s
  | startupSearchDone => exact keeps_execStartupSearchDone s
  | rdSeq req window seq => exact keeps_execRdSeq req window seq s
  | flSeq req window seq => exact keeps_execFlSeq req window seq s
  | flashReadDone window read => exact keeps_execFlashReadDone window read s
  | cmSet req => exact keeps_execCmSet req s
  | frameError framing => exact keeps_execFrameError framing s
  | ping frame => exact keeps_execPing frame s
  | status event => exact keeps_execStatus event s
  | opSet event => exact keeps_execOpSet event s
  | throttleFrame event => exact keeps_execThrottleFrame event s
  | testSlotFrame event => exact keeps_execTestSlotFrame event s
  | time event => exact keeps_execTime event s
  | setTag event => exact keeps_execSetTag event s
  | resetArm frame => exact keeps_execResetArm frame s
  | resetFire frame => exact keeps_execResetFire frame s
  | replyDeadline => exact keeps_execReplyDeadline s
  | txCommit req => exact keeps_execTxCommit req s
  | rxPop req => exact keeps_execRxPop req s
  | collision => exact keeps_execCollision s
  | silence => exact keeps_execSilence s
  | calendarTick => exact keeps_execCalendarTick s
  | calendarLoad req value => exact keeps_execCalendarLoad req value s
  | slew req ticks => exact keeps_execSlew req ticks s
  | supplySwitchover millivolts => exact keeps_execSupplySwitchover millivolts s
  | vbatSample millivolts => exact keeps_execVbatSample millivolts s
  | revoke req key value => exact keeps_execRevoke req key value s
  | fenceSet req mask => exact keeps_execFenceSet req mask s
  | tripSet req mask => exact keeps_execTripSet req mask s
  | tripRel req mask => exact keeps_execTripRel req mask s
  | fenceAssert die => exact keeps_execFenceAssert die s
  | tripAssert die => exact keeps_execTripAssert die s
  | thermAlert die => exact keeps_execThermAlert die s
  | thermAlertFence die => exact keeps_execThermAlertFence die s
  | thermAlertTrip die => exact keeps_execThermAlertTrip die s
  | dieFault die => exact keeps_execDieFault die s
  | fenceTo die => exact keeps_execFenceTo die s
  | limitWrite req word value => exact keeps_execLimitWrite req word value s
  | formGo req die => exact keeps_execFormGo req die s
  | semClaim req core => exact keeps_execSemClaim req core s
  | semRelease req core => exact keeps_execSemRelease req core s
  | reqTests req die tests => exact keeps_execReqTests req die tests s
  | tumblerTestDone die failures fixed => exact keeps_execTumblerTestDone die failures fixed s
  | linkTestDone die spans => exact keeps_execLinkTestDone die spans s
  | memoryTestDone die units ecc => exact keeps_execMemoryTestDone die units ecc s
  | testPeriodTimer => exact keeps_execTestPeriodTimer s
  | afeCalPeriod engine => exact keeps_execAfeCalPeriod engine s
  | cageOvercurrent cage => exact keeps_execCageOvercurrent cage s
  | cageRetry cage => exact keeps_execCageRetry cage s
  | afePllLock => exact keeps_execAfePllLock s
  | thermAlertRelease die => exact keeps_execThermAlertRelease die s
  | calendarDomainReset => exact keeps_execCalendarDomainReset s
  | mainBusUp => exact keeps_execMainBusUp s
  | hbmStackUntrained die stack => exact keeps_execHbmStackUntrained die stack s
  | dieFuseLoadDone die => exact keeps_execDieFuseLoadDone die s

end Sys2Proof.Machine
end

