-- ==== Sys2Proof/Laws/Recorder.lean ====
section
/-! SUPPORT. What recording an event changes: the recorder's own state for the Clachasel, the record queue for a die. -/

namespace Sys2Proof.Machine

/-- The keys of the recorder: the fields of EVREC, and its internal registers. -/
def recorderKey (k : Nat) : Bool :=
  decide ((fieldKey 8 EVREC.page.base 0 ≤ k ∧ k < fieldKey 8 (EVREC.page.base + 0x1000) 0) ∨
    (fieldKey 24 0x400 0 ≤ k ∧ k < fieldKey 24 0x41C 0))

/-- A change that the recorder makes: its own registers, the ring, the suppressed counts, the buckets, the erases asked for and the
records held at start-up. -/
structure Recorded (s t : State) : Prop where
  get : ∀ f : Field, recorderKey f.key = false → t.get f = s.get f
  pending : t.pending = s.pending
  clock : t.clock = s.clock
  freeCtr : t.freeCtr = s.freeCtr
  shadow : t.shadow = s.shadow
  spent : t.spent = s.spent
  capture : t.capture = s.capture
  staging : t.staging = s.staging
  dies : t.dies = s.dies
  mem : t.mem = s.mem
  flash : t.flash = s.flash
  classMap : t.classMap = s.classMap
  tach : t.tach = s.tach
  flowPulses : t.flowPulses = s.flowPulses
  armed : t.armed = s.armed
  staged : t.staged = s.staged
  mcSram : t.mcSram = s.mcSram
  posted : t.posted = s.posted
  fires : t.fires = s.fires
  rings : t.rings = s.rings
  rxq : t.rxq = s.rxq
  lastFrame : t.lastFrame = s.lastFrame
  storedReply : t.storedReply = s.storedReply
  afe : t.afe = s.afe
  answer : t.answer = s.answer
  writing : t.writing = s.writing

theorem Recorded.refl (s : State) : Recorded s s :=
  by constructor <;> intros <;> rfl

theorem Recorded.trans {s t u : State} (h : Recorded s t) (k : Recorded t u) : Recorded s u :=
  ⟨fun f hf => (k.get f hf).trans (h.get f hf), k.pending.trans h.pending, k.clock.trans h.clock, k.freeCtr.trans h.freeCtr,
    k.shadow.trans h.shadow, k.spent.trans h.spent, k.capture.trans h.capture, k.staging.trans h.staging, k.dies.trans h.dies,
    k.mem.trans h.mem, k.flash.trans h.flash, k.classMap.trans h.classMap, k.tach.trans h.tach, k.flowPulses.trans h.flowPulses,
    k.armed.trans h.armed, k.staged.trans h.staged, k.mcSram.trans h.mcSram, k.posted.trans h.posted, k.fires.trans h.fires, k.rings.trans h.rings,
    k.rxq.trans h.rxq, k.lastFrame.trans h.lastFrame, k.storedReply.trans h.storedReply, k.afe.trans h.afe,
    k.answer.trans h.answer, k.writing.trans h.writing⟩

/-- A load of a register of the recorder. -/
theorem recorded_set {s t : State} {g : Field} {v : Nat} (h : Recorded s t) (hg : recorderKey g.key = true) :
    Recorded s (t.set g v) := by
  refine h.trans (by constructor <;> first | (intro f hf; exact t.get_set_ne g f v (fun e => by rw [e, hf] at hg; cases hg)) | simp)

/-- A change of the ring, the suppressed counts, the buckets, the erases and the records held. -/
theorem recorded_update {s t : State} {a b c d e} (h : Recorded s t) :
    Recorded s { t with ring := a, suppressed := b, tokens := c, eraseQ := d, heldRecs := e } :=
  h.trans (by constructor <;> intros <;> rfl)

theorem recorded_ite {s a b : State} {c : Prop} [Decidable c] (ha : Recorded s a) (hb : Recorded s b) :
    Recorded s (if c then a else b) := by split <;> assumption

variable {s0 s : State}

theorem recorded_count {g : Field} {n : Nat} (h : Recorded s0 s) (hg : recorderKey g.key = true) : Recorded s0 (s.count g n) :=
  recorded_set h hg

theorem recorded_wrap {g : Field} {n : Nat} (h : Recorded s0 s) (hg : recorderKey g.key = true) : Recorded s0 (s.wrap g n) :=
  recorded_set h hg

theorem recorded_setBit {g : Field} {n : Nat} {b : Bool} (h : Recorded s0 s) (hg : recorderKey g.key = true) :
    Recorded s0 (s.setBit g n b) := recorded_set h hg

theorem recorded_ringRegs (h : Recorded s0 s) : Recorded s0 s.ringRegs :=
  recorded_set (recorded_set (recorded_set h (by decide)) (by decide)) (by decide)

theorem recorded_place {kind : SlotKind} {r : Rec} (h : Recorded s0 s) : Recorded s0 (s.place kind r) :=
  recorded_ringRegs (recorded_wrap (recorded_update h) (by decide))

theorem recorded_loseRecord {cause : Nat} (h : Recorded s0 s) : Recorded s0 (s.loseRecord cause) := by
  unfold State.loseRecord State.pageEvent
  exact recorded_setBit (recorded_setBit (recorded_count (recorded_count h (by decide)) (by decide)) (by decide)) (by decide)

theorem recorded_suppress {code : Nat} (h : Recorded s0 s) : Recorded s0 (s.suppress code) :=
  recorded_count (recorded_update h) (by decide)

theorem recorded_spendToken {code : Nat} (h : Recorded s0 s) : Recorded s0 (s.spendToken code) :=
  recorded_ite h (recorded_update h)

theorem recorded_tellLost (h : Recorded s0 s) : Recorded s0 s.tellLost := by
  unfold State.tellLost
  refine recorded_ite h (recorded_ite ?_ h)
  exact recorded_set (recorded_set (recorded_place h) (by decide)) (by decide)

theorem recorded_startErase {b : Nat} (h : Recorded s0 s) : Recorded s0 (s.startErase b) :=
  recorded_ite h (recorded_set (recorded_update h) (by decide))

theorem recorded_flushPage (h : Recorded s0 s) : Recorded s0 s.flushPage := by
  unfold State.flushPage
  extract_lets q head pageEnd held stop t
  have ht : Recorded s0 t := recorded_set (recorded_set (recorded_set h (by decide)) (by decide)) (by decide)
  refine recorded_ite h (recorded_ite ?_ (recorded_ite h (recorded_ite (recorded_ite h ?_) (recorded_ite ht ?_))))
  · exact recorded_set (recorded_set (recorded_set (recorded_set h (by decide)) (by decide)) (by decide)) (by decide)
  · exact recorded_count (recorded_set h (by decide)) (by decide)
  · exact recorded_startErase (recorded_set ht (by decide))

theorem recorded_sweep (h : Recorded s0 s) : Recorded s0 s.sweep :=
  foldl_keeps (Recorded s0) _ (fun _ _ h =>
    recorded_ite (recorded_place (recorded_tellLost h)) (recorded_loseRecord (recorded_tellLost h))) _ _ h

theorem recorded_startFlush {toEnd : Bool} (h : Recorded s0 s) : Recorded s0 (s.startFlush toEnd) := by
  unfold State.startFlush
  extract_lets t
  have ht : Recorded s0 t := recorded_ite (recorded_sweep h) h
  refine recorded_ite h (recorded_ite (recorded_ite (recorded_set h (by decide)) h) (recorded_ite h ?_))
  exact recorded_flushPage (recorded_count (recorded_set (recorded_set ht (by decide)) (by decide)) (by decide))

theorem recorded_flushAfter {code : Nat} (h : Recorded s0 s) : Recorded s0 (s.flushAfter code) :=
  recorded_ite (recorded_startFlush h) (recorded_ite (recorded_startFlush h) (recorded_flushPage h))

/-- A pair whose state the recorder made. -/
structure RecordedFst {α : Type} (s : State) (p : State × α) : Prop where
  fst : Recorded s p.1

theorem recordedFst_ite {α : Type} {s : State} {a b : State × α} {c : Prop} [Decidable c] (ha : RecordedFst s a)
    (hb : RecordedFst s b) : RecordedFst s (if c then a else b) := by split <;> assumption

theorem recorded_admit {kind : SlotKind} {r : Rec} (h : Recorded s0 s) : RecordedFst s0 (s.admitRecord kind r) := by
  have ht : Recorded s0 s.tellLost := recorded_tellLost h
  unfold State.admitRecord
  exact recordedFst_ite ⟨recorded_suppress h⟩ (recordedFst_ite ⟨recorded_flushAfter (recorded_place (recorded_spendToken ht))⟩ ⟨ht⟩)

theorem RecordedFst.of {α : Type} {s : State} {p : State × α} {a : State} {b : α} (h : RecordedFst s p) (e : p = (a, b)) :
    Recorded s a := by subst e; exact h.fst

theorem recorded_present {code origin arg0 arg1 aux : Nat} (h : Recorded s0 s) : Recorded s0 (s.present code origin arg0 arg1 aux) := by
  unfold State.present
  refine recorded_ite h (recorded_ite (recorded_ite (recorded_update h) (recorded_loseRecord h)) ?_)
  split
  · next e => exact recorded_loseRecord ((recorded_admit h).of e)
  · next e => exact (recorded_admit h).of e

/-- Recording an event of the Clachasel changes the recorder alone. -/
theorem recorded_event (s : State) (p : Page) (code a b x i : Nat) : Recorded s (s.event p code a b x i) :=
  recorded_present (Recorded.refl s)

theorem State.get_event (s : State) (p : Page) (code a b x i : Nat) (f : Field) (h : recorderKey f.key = false) :
    (s.event p code a b x i).get f = s.get f := (recorded_event s p code a b x i).get f h

@[simp] theorem State.event_pending (s : State) (p : Page) (code a b x i : Nat) : (s.event p code a b x i).pending = s.pending :=
  (recorded_event s p code a b x i).pending
@[simp] theorem State.event_clock (s : State) (p : Page) (code a b x i : Nat) : (s.event p code a b x i).clock = s.clock :=
  (recorded_event s p code a b x i).clock
@[simp] theorem State.event_freeCtr (s : State) (p : Page) (code a b x i : Nat) : (s.event p code a b x i).freeCtr = s.freeCtr :=
  (recorded_event s p code a b x i).freeCtr
@[simp] theorem State.event_shadow (s : State) (p : Page) (code a b x i : Nat) : (s.event p code a b x i).shadow = s.shadow :=
  (recorded_event s p code a b x i).shadow
@[simp] theorem State.event_spent (s : State) (p : Page) (code a b x i : Nat) : (s.event p code a b x i).spent = s.spent :=
  (recorded_event s p code a b x i).spent
@[simp] theorem State.event_capture (s : State) (p : Page) (code a b x i : Nat) : (s.event p code a b x i).capture = s.capture :=
  (recorded_event s p code a b x i).capture
@[simp] theorem State.event_staging (s : State) (p : Page) (code a b x i : Nat) : (s.event p code a b x i).staging = s.staging :=
  (recorded_event s p code a b x i).staging
@[simp] theorem State.event_dies (s : State) (p : Page) (code a b x i : Nat) : (s.event p code a b x i).dies = s.dies :=
  (recorded_event s p code a b x i).dies
@[simp] theorem State.event_mem (s : State) (p : Page) (code a b x i : Nat) : (s.event p code a b x i).mem = s.mem :=
  (recorded_event s p code a b x i).mem
@[simp] theorem State.event_flash (s : State) (p : Page) (code a b x i : Nat) : (s.event p code a b x i).flash = s.flash :=
  (recorded_event s p code a b x i).flash
@[simp] theorem State.event_classMap (s : State) (p : Page) (code a b x i : Nat) : (s.event p code a b x i).classMap = s.classMap :=
  (recorded_event s p code a b x i).classMap
@[simp] theorem State.event_tach (s : State) (p : Page) (code a b x i : Nat) : (s.event p code a b x i).tach = s.tach :=
  (recorded_event s p code a b x i).tach
@[simp] theorem State.event_flowPulses (s : State) (p : Page) (code a b x i : Nat) : (s.event p code a b x i).flowPulses = s.flowPulses :=
  (recorded_event s p code a b x i).flowPulses
@[simp] theorem State.event_armed (s : State) (p : Page) (code a b x i : Nat) : (s.event p code a b x i).armed = s.armed :=
  (recorded_event s p code a b x i).armed
@[simp] theorem State.event_staged (s : State) (p : Page) (code a b x i : Nat) : (s.event p code a b x i).staged = s.staged :=
  (recorded_event s p code a b x i).staged
@[simp] theorem State.event_mcSram (s : State) (p : Page) (code a b x i : Nat) : (s.event p code a b x i).mcSram = s.mcSram :=
  (recorded_event s p code a b x i).mcSram
@[simp] theorem State.event_posted (s : State) (p : Page) (code a b x i : Nat) : (s.event p code a b x i).posted = s.posted :=
  (recorded_event s p code a b x i).posted
@[simp] theorem State.event_fires (s : State) (p : Page) (code a b x i : Nat) : (s.event p code a b x i).fires = s.fires :=
  (recorded_event s p code a b x i).fires
@[simp] theorem State.event_rings (s : State) (p : Page) (code a b x i : Nat) : (s.event p code a b x i).rings = s.rings :=
  (recorded_event s p code a b x i).rings
@[simp] theorem State.event_rxq (s : State) (p : Page) (code a b x i : Nat) : (s.event p code a b x i).rxq = s.rxq :=
  (recorded_event s p code a b x i).rxq
@[simp] theorem State.event_lastFrame (s : State) (p : Page) (code a b x i : Nat) : (s.event p code a b x i).lastFrame = s.lastFrame :=
  (recorded_event s p code a b x i).lastFrame
@[simp] theorem State.event_storedReply (s : State) (p : Page) (code a b x i : Nat) : (s.event p code a b x i).storedReply = s.storedReply :=
  (recorded_event s p code a b x i).storedReply
@[simp] theorem State.event_afe (s : State) (p : Page) (code a b x i : Nat) : (s.event p code a b x i).afe = s.afe :=
  (recorded_event s p code a b x i).afe
@[simp] theorem State.event_answer (s : State) (p : Page) (code a b x i : Nat) : (s.event p code a b x i).answer = s.answer :=
  (recorded_event s p code a b x i).answer
@[simp] theorem State.event_writing (s : State) (p : Page) (code a b x i : Nat) : (s.event p code a b x i).writing = s.writing :=
  (recorded_event s p code a b x i).writing
@[simp] theorem State.event_die (s : State) (p : Page) (code a b x i d : Nat) : (s.event p code a b x i).die d = s.die d := by
  simp [State.die]

@[simp] theorem State.event_byte (s : State) (p : Page) (code a b x i c : Nat) : (s.event p code a b x i).byte c = s.byte c := by
  simp [State.byte]

/-! Die records. -/

/-- The keys that a die's record queue shows in: DEVQ of the die, its count of losses, and its SB_IRQ_n line. -/
def devqKey (d k : Nat) : Bool :=
  k == (DEVQ.FILL.on d).key || k == (DEVQ.LOST.on d).key || k == (DEVQI.LOST_SINCE.on d).key || k == (CSB.IRQ.clAt d).key

theorem State.get_dieEvent (s : State) (d : Nat) (p : Page) (code a b x i : Nat) (f : Field) (h : devqKey d f.key = false) :
    (s.dieEvent d p code a b x i).get f = s.get f := by
  simp only [devqKey, Bool.or_eq_false_iff, beq_eq_false_iff_ne, ne_eq] at h
  obtain ⟨⟨⟨h1, h2⟩, h3⟩, h4⟩ := h
  unfold State.dieEvent State.devqRegs
  extract_lets q lost notice r
  split
  · rfl
  · split
    · rw [State.get_put_ne _ _ _ _ (Ne.symm h4), State.get_set_ne _ _ _ _ (Ne.symm h1), State.get_set_ne _ _ _ _ (Ne.symm h3),
        State.get_onDie]
    · rw [State.get_count_ne _ _ _ _ (Ne.symm h3), State.get_count_ne _ _ _ _ (Ne.symm h2)]

/-- Recording an event of a die changes the record queue of that die and no other part of it. -/
theorem State.die_dieEvent_same (s : State) (d : Nat) (p : Page) (code a b x i : Nat) :
    ∃ q, (s.dieEvent d p code a b x i).die d = { s.die d with devq := q } := by
  unfold State.dieEvent State.devqRegs
  extract_lets q lost notice r
  split
  · exact ⟨q, rfl⟩
  · split
    · exact ⟨q ++ notice ++ [r], by
        rw [State.put, State.die_set, State.die_set, State.die_set, State.die_onDie_same]⟩
    · exact ⟨q, by rw [State.count, State.die_set, State.count, State.die_set]⟩

theorem State.die_dieEvent_ne (s : State) (d e : Nat) (p : Page) (code a b x i : Nat) (h : d ≠ e) :
    (s.dieEvent d p code a b x i).die e = s.die e := by
  unfold State.dieEvent State.devqRegs
  extract_lets q lost notice r
  split
  · rfl
  · split
    · simp [State.put, State.die_onDie_ne _ _ _ _ h]
    · simp [State.count]

@[simp] theorem State.dieEvent_die_sram (s : State) (d : Nat) (p : Page) (code a b x i e : Nat) :
    ((s.dieEvent d p code a b x i).die e).sram = (s.die e).sram := by
  by_cases h : d = e
  · subst h; obtain ⟨q, hq⟩ := s.die_dieEvent_same d p code a b x i; rw [hq]
  · rw [s.die_dieEvent_ne d e p code a b x i h]
@[simp] theorem State.dieEvent_die_tums (s : State) (d : Nat) (p : Page) (code a b x i e : Nat) :
    ((s.dieEvent d p code a b x i).die e).tums = (s.die e).tums := by
  by_cases h : d = e
  · subst h; obtain ⟨q, hq⟩ := s.die_dieEvent_same d p code a b x i; rw [hq]
  · rw [s.die_dieEvent_ne d e p code a b x i h]
@[simp] theorem State.dieEvent_die_bays (s : State) (d : Nat) (p : Page) (code a b x i e : Nat) :
    ((s.dieEvent d p code a b x i).die e).bays = (s.die e).bays := by
  by_cases h : d = e
  · subst h; obtain ⟨q, hq⟩ := s.die_dieEvent_same d p code a b x i; rw [hq]
  · rw [s.die_dieEvent_ne d e p code a b x i h]
@[simp] theorem State.dieEvent_die_active (s : State) (d : Nat) (p : Page) (code a b x i e : Nat) :
    ((s.dieEvent d p code a b x i).die e).active = (s.die e).active := by
  by_cases h : d = e
  · subst h; obtain ⟨q, hq⟩ := s.die_dieEvent_same d p code a b x i; rw [hq]
  · rw [s.die_dieEvent_ne d e p code a b x i h]
@[simp] theorem State.dieEvent_die_shadowKey (s : State) (d : Nat) (p : Page) (code a b x i e : Nat) :
    ((s.dieEvent d p code a b x i).die e).shadowKey = (s.die e).shadowKey := by
  by_cases h : d = e
  · subst h; obtain ⟨q, hq⟩ := s.die_dieEvent_same d p code a b x i; rw [hq]
  · rw [s.die_dieEvent_ne d e p code a b x i h]
@[simp] theorem State.dieEvent_die_flights (s : State) (d : Nat) (p : Page) (code a b x i e : Nat) :
    ((s.dieEvent d p code a b x i).die e).flights = (s.die e).flights := by
  by_cases h : d = e
  · subst h; obtain ⟨q, hq⟩ := s.die_dieEvent_same d p code a b x i; rw [hq]
  · rw [s.die_dieEvent_ne d e p code a b x i h]
@[simp] theorem State.dieEvent_die_gates (s : State) (d : Nat) (p : Page) (code a b x i e : Nat) :
    ((s.dieEvent d p code a b x i).die e).gates = (s.die e).gates := by
  by_cases h : d = e
  · subst h; obtain ⟨q, hq⟩ := s.die_dieEvent_same d p code a b x i; rw [hq]
  · rw [s.die_dieEvent_ne d e p code a b x i h]
@[simp] theorem State.dieEvent_die_heap (s : State) (d : Nat) (p : Page) (code a b x i e : Nat) :
    ((s.dieEvent d p code a b x i).die e).heap = (s.die e).heap := by
  by_cases h : d = e
  · subst h; obtain ⟨q, hq⟩ := s.die_dieEvent_same d p code a b x i; rw [hq]
  · rw [s.die_dieEvent_ne d e p code a b x i h]
@[simp] theorem State.dieEvent_die_holders (s : State) (d : Nat) (p : Page) (code a b x i e : Nat) :
    ((s.dieEvent d p code a b x i).die e).holders = (s.die e).holders := by
  by_cases h : d = e
  · subst h; obtain ⟨q, hq⟩ := s.die_dieEvent_same d p code a b x i; rw [hq]
  · rw [s.die_dieEvent_ne d e p code a b x i h]
@[simp] theorem State.dieEvent_die_heapQ (s : State) (d : Nat) (p : Page) (code a b x i e : Nat) :
    ((s.dieEvent d p code a b x i).die e).heapQ = (s.die e).heapQ := by
  by_cases h : d = e
  · subst h; obtain ⟨q, hq⟩ := s.die_dieEvent_same d p code a b x i; rw [hq]
  · rw [s.die_dieEvent_ne d e p code a b x i h]
@[simp] theorem State.dieEvent_die_fwdq (s : State) (d : Nat) (p : Page) (code a b x i e : Nat) :
    ((s.dieEvent d p code a b x i).die e).fwdq = (s.die e).fwdq := by
  by_cases h : d = e
  · subst h; obtain ⟨q, hq⟩ := s.die_dieEvent_same d p code a b x i; rw [hq]
  · rw [s.die_dieEvent_ne d e p code a b x i h]
@[simp] theorem State.dieEvent_die_frags (s : State) (d : Nat) (p : Page) (code a b x i e : Nat) :
    ((s.dieEvent d p code a b x i).die e).frags = (s.die e).frags := by
  by_cases h : d = e
  · subst h; obtain ⟨q, hq⟩ := s.die_dieEvent_same d p code a b x i; rw [hq]
  · rw [s.die_dieEvent_ne d e p code a b x i h]
@[simp] theorem State.dieEvent_die_runs (s : State) (d : Nat) (p : Page) (code a b x i e : Nat) :
    ((s.dieEvent d p code a b x i).die e).runs = (s.die e).runs := by
  by_cases h : d = e
  · subst h; obtain ⟨q, hq⟩ := s.die_dieEvent_same d p code a b x i; rw [hq]
  · rw [s.die_dieEvent_ne d e p code a b x i h]
@[simp] theorem State.dieEvent_die_copyIn (s : State) (d : Nat) (p : Page) (code a b x i e : Nat) :
    ((s.dieEvent d p code a b x i).die e).copyIn = (s.die e).copyIn := by
  by_cases h : d = e
  · subst h; obtain ⟨q, hq⟩ := s.die_dieEvent_same d p code a b x i; rw [hq]
  · rw [s.die_dieEvent_ne d e p code a b x i h]
@[simp] theorem State.dieEvent_die_copyOut (s : State) (d : Nat) (p : Page) (code a b x i e : Nat) :
    ((s.dieEvent d p code a b x i).die e).copyOut = (s.die e).copyOut := by
  by_cases h : d = e
  · subst h; obtain ⟨q, hq⟩ := s.die_dieEvent_same d p code a b x i; rw [hq]
  · rw [s.die_dieEvent_ne d e p code a b x i h]
@[simp] theorem State.dieEvent_die_records (s : State) (d : Nat) (p : Page) (code a b x i e : Nat) :
    ((s.dieEvent d p code a b x i).die e).records = (s.die e).records := by
  by_cases h : d = e
  · subst h; obtain ⟨q, hq⟩ := s.die_dieEvent_same d p code a b x i; rw [hq]
  · rw [s.die_dieEvent_ne d e p code a b x i h]
@[simp] theorem State.dieEvent_die_ueTimes (s : State) (d : Nat) (p : Page) (code a b x i e : Nat) :
    ((s.dieEvent d p code a b x i).die e).ueTimes = (s.die e).ueTimes := by
  by_cases h : d = e
  · subst h; obtain ⟨q, hq⟩ := s.die_dieEvent_same d p code a b x i; rw [hq]
  · rw [s.die_dieEvent_ne d e p code a b x i h]
@[simp] theorem State.dieEvent_die_freezers (s : State) (d : Nat) (p : Page) (code a b x i e : Nat) :
    ((s.dieEvent d p code a b x i).die e).freezers = (s.die e).freezers := by
  by_cases h : d = e
  · subst h; obtain ⟨q, hq⟩ := s.die_dieEvent_same d p code a b x i; rw [hq]
  · rw [s.die_dieEvent_ne d e p code a b x i h]
@[simp] theorem State.dieEvent_die_streams (s : State) (d : Nat) (p : Page) (code a b x i e : Nat) :
    ((s.dieEvent d p code a b x i).die e).streams = (s.die e).streams := by
  by_cases h : d = e
  · subst h; obtain ⟨q, hq⟩ := s.die_dieEvent_same d p code a b x i; rw [hq]
  · rw [s.die_dieEvent_ne d e p code a b x i h]
@[simp] theorem State.dieEvent_die_slinks (s : State) (d : Nat) (p : Page) (code a b x i e : Nat) :
    ((s.dieEvent d p code a b x i).die e).slinks = (s.die e).slinks := by
  by_cases h : d = e
  · subst h; obtain ⟨q, hq⟩ := s.die_dieEvent_same d p code a b x i; rw [hq]
  · rw [s.die_dieEvent_ne d e p code a b x i h]
@[simp] theorem State.dieEvent_die_links (s : State) (d : Nat) (p : Page) (code a b x i e : Nat) :
    ((s.dieEvent d p code a b x i).die e).links = (s.die e).links := by
  by_cases h : d = e
  · subst h; obtain ⟨q, hq⟩ := s.die_dieEvent_same d p code a b x i; rw [hq]
  · rw [s.die_dieEvent_ne d e p code a b x i h]
@[simp] theorem State.dieEvent_die_scqWait (s : State) (d : Nat) (p : Page) (code a b x i e : Nat) :
    ((s.dieEvent d p code a b x i).die e).scqWait = (s.die e).scqWait := by
  by_cases h : d = e
  · subst h; obtain ⟨q, hq⟩ := s.die_dieEvent_same d p code a b x i; rw [hq]
  · rw [s.die_dieEvent_ne d e p code a b x i h]

@[simp] theorem State.dieEvent_pending (s : State) (d : Nat) (p : Page) (code a b x i : Nat) :
    (s.dieEvent d p code a b x i).pending = s.pending := by
  unfold State.dieEvent State.devqRegs; extract_lets q lost notice r; split
  · rfl
  · split <;> simp [State.put, State.count]
@[simp] theorem State.dieEvent_clock (s : State) (d : Nat) (p : Page) (code a b x i : Nat) :
    (s.dieEvent d p code a b x i).clock = s.clock := by
  unfold State.dieEvent State.devqRegs; extract_lets q lost notice r; split
  · rfl
  · split <;> simp [State.put, State.count]
@[simp] theorem State.dieEvent_freeCtr (s : State) (d : Nat) (p : Page) (code a b x i : Nat) :
    (s.dieEvent d p code a b x i).freeCtr = s.freeCtr := by
  unfold State.dieEvent State.devqRegs; extract_lets q lost notice r; split
  · rfl
  · split <;> simp [State.put, State.count]
@[simp] theorem State.dieEvent_shadow (s : State) (d : Nat) (p : Page) (code a b x i : Nat) :
    (s.dieEvent d p code a b x i).shadow = s.shadow := by
  unfold State.dieEvent State.devqRegs; extract_lets q lost notice r; split
  · rfl
  · split <;> simp [State.put, State.count]
@[simp] theorem State.dieEvent_spent (s : State) (d : Nat) (p : Page) (code a b x i : Nat) :
    (s.dieEvent d p code a b x i).spent = s.spent := by
  unfold State.dieEvent State.devqRegs; extract_lets q lost notice r; split
  · rfl
  · split <;> simp [State.put, State.count]
@[simp] theorem State.dieEvent_capture (s : State) (d : Nat) (p : Page) (code a b x i : Nat) :
    (s.dieEvent d p code a b x i).capture = s.capture := by
  unfold State.dieEvent State.devqRegs; extract_lets q lost notice r; split
  · rfl
  · split <;> simp [State.put, State.count]
@[simp] theorem State.dieEvent_staging (s : State) (d : Nat) (p : Page) (code a b x i : Nat) :
    (s.dieEvent d p code a b x i).staging = s.staging := by
  unfold State.dieEvent State.devqRegs; extract_lets q lost notice r; split
  · rfl
  · split <;> simp [State.put, State.count]
@[simp] theorem State.dieEvent_mem (s : State) (d : Nat) (p : Page) (code a b x i : Nat) :
    (s.dieEvent d p code a b x i).mem = s.mem := by
  unfold State.dieEvent State.devqRegs; extract_lets q lost notice r; split
  · rfl
  · split <;> simp [State.put, State.count]
@[simp] theorem State.dieEvent_ring (s : State) (d : Nat) (p : Page) (code a b x i : Nat) :
    (s.dieEvent d p code a b x i).ring = s.ring := by
  unfold State.dieEvent State.devqRegs; extract_lets q lost notice r; split
  · rfl
  · split <;> simp [State.put, State.count]
@[simp] theorem State.dieEvent_flash (s : State) (d : Nat) (p : Page) (code a b x i : Nat) :
    (s.dieEvent d p code a b x i).flash = s.flash := by
  unfold State.dieEvent State.devqRegs; extract_lets q lost notice r; split
  · rfl
  · split <;> simp [State.put, State.count]
@[simp] theorem State.dieEvent_eraseQ (s : State) (d : Nat) (p : Page) (code a b x i : Nat) :
    (s.dieEvent d p code a b x i).eraseQ = s.eraseQ := by
  unfold State.dieEvent State.devqRegs; extract_lets q lost notice r; split
  · rfl
  · split <;> simp [State.put, State.count]
@[simp] theorem State.dieEvent_tokens (s : State) (d : Nat) (p : Page) (code a b x i : Nat) :
    (s.dieEvent d p code a b x i).tokens = s.tokens := by
  unfold State.dieEvent State.devqRegs; extract_lets q lost notice r; split
  · rfl
  · split <;> simp [State.put, State.count]
@[simp] theorem State.dieEvent_suppressed (s : State) (d : Nat) (p : Page) (code a b x i : Nat) :
    (s.dieEvent d p code a b x i).suppressed = s.suppressed := by
  unfold State.dieEvent State.devqRegs; extract_lets q lost notice r; split
  · rfl
  · split <;> simp [State.put, State.count]
@[simp] theorem State.dieEvent_classMap (s : State) (d : Nat) (p : Page) (code a b x i : Nat) :
    (s.dieEvent d p code a b x i).classMap = s.classMap := by
  unfold State.dieEvent State.devqRegs; extract_lets q lost notice r; split
  · rfl
  · split <;> simp [State.put, State.count]
@[simp] theorem State.dieEvent_heldRecs (s : State) (d : Nat) (p : Page) (code a b x i : Nat) :
    (s.dieEvent d p code a b x i).heldRecs = s.heldRecs := by
  unfold State.dieEvent State.devqRegs; extract_lets q lost notice r; split
  · rfl
  · split <;> simp [State.put, State.count]
@[simp] theorem State.dieEvent_tach (s : State) (d : Nat) (p : Page) (code a b x i : Nat) :
    (s.dieEvent d p code a b x i).tach = s.tach := by
  unfold State.dieEvent State.devqRegs; extract_lets q lost notice r; split
  · rfl
  · split <;> simp [State.put, State.count]
@[simp] theorem State.dieEvent_flowPulses (s : State) (d : Nat) (p : Page) (code a b x i : Nat) :
    (s.dieEvent d p code a b x i).flowPulses = s.flowPulses := by
  unfold State.dieEvent State.devqRegs; extract_lets q lost notice r; split
  · rfl
  · split <;> simp [State.put, State.count]
@[simp] theorem State.dieEvent_armed (s : State) (d : Nat) (p : Page) (code a b x i : Nat) :
    (s.dieEvent d p code a b x i).armed = s.armed := by
  unfold State.dieEvent State.devqRegs; extract_lets q lost notice r; split
  · rfl
  · split <;> simp [State.put, State.count]
@[simp] theorem State.dieEvent_staged (s : State) (d : Nat) (p : Page) (code a b x i : Nat) :
    (s.dieEvent d p code a b x i).staged = s.staged := by
  unfold State.dieEvent State.devqRegs; extract_lets q lost notice r; split
  · rfl
  · split <;> simp [State.put, State.count]
@[simp] theorem State.dieEvent_mcSram (s : State) (d : Nat) (p : Page) (code a b x i : Nat) :
    (s.dieEvent d p code a b x i).mcSram = s.mcSram := by
  unfold State.dieEvent State.devqRegs; extract_lets q lost notice r; split
  · rfl
  · split <;> simp [State.put, State.count]
@[simp] theorem State.dieEvent_posted (s : State) (d : Nat) (p : Page) (code a b x i : Nat) :
    (s.dieEvent d p code a b x i).posted = s.posted := by
  unfold State.dieEvent State.devqRegs; extract_lets q lost notice r; split
  · rfl
  · split <;> simp [State.put, State.count]
@[simp] theorem State.dieEvent_fires (s : State) (d : Nat) (p : Page) (code a b x i : Nat) :
    (s.dieEvent d p code a b x i).fires = s.fires := by
  unfold State.dieEvent State.devqRegs; extract_lets q lost notice r; split
  · rfl
  · split <;> simp [State.put, State.count]
@[simp] theorem State.dieEvent_rings (s : State) (d : Nat) (p : Page) (code a b x i : Nat) :
    (s.dieEvent d p code a b x i).rings = s.rings := by
  unfold State.dieEvent State.devqRegs; extract_lets q lost notice r; split
  · rfl
  · split <;> simp [State.put, State.count]
@[simp] theorem State.dieEvent_rxq (s : State) (d : Nat) (p : Page) (code a b x i : Nat) :
    (s.dieEvent d p code a b x i).rxq = s.rxq := by
  unfold State.dieEvent State.devqRegs; extract_lets q lost notice r; split
  · rfl
  · split <;> simp [State.put, State.count]
@[simp] theorem State.dieEvent_lastFrame (s : State) (d : Nat) (p : Page) (code a b x i : Nat) :
    (s.dieEvent d p code a b x i).lastFrame = s.lastFrame := by
  unfold State.dieEvent State.devqRegs; extract_lets q lost notice r; split
  · rfl
  · split <;> simp [State.put, State.count]
@[simp] theorem State.dieEvent_storedReply (s : State) (d : Nat) (p : Page) (code a b x i : Nat) :
    (s.dieEvent d p code a b x i).storedReply = s.storedReply := by
  unfold State.dieEvent State.devqRegs; extract_lets q lost notice r; split
  · rfl
  · split <;> simp [State.put, State.count]
@[simp] theorem State.dieEvent_afe (s : State) (d : Nat) (p : Page) (code a b x i : Nat) :
    (s.dieEvent d p code a b x i).afe = s.afe := by
  unfold State.dieEvent State.devqRegs; extract_lets q lost notice r; split
  · rfl
  · split <;> simp [State.put, State.count]
@[simp] theorem State.dieEvent_answer (s : State) (d : Nat) (p : Page) (code a b x i : Nat) :
    (s.dieEvent d p code a b x i).answer = s.answer := by
  unfold State.dieEvent State.devqRegs; extract_lets q lost notice r; split
  · rfl
  · split <;> simp [State.put, State.count]
@[simp] theorem State.dieEvent_writing (s : State) (d : Nat) (p : Page) (code a b x i : Nat) :
    (s.dieEvent d p code a b x i).writing = s.writing := by
  unfold State.dieEvent State.devqRegs; extract_lets q lost notice r; split
  · rfl
  · split <;> simp [State.put, State.count]
@[simp] theorem State.dieEvent_byte (s : State) (d : Nat) (p : Page) (code a b x i c : Nat) :
    (s.dieEvent d p code a b x i).byte c = s.byte c := by simp [State.byte]

end Sys2Proof.Machine
end

