-- ==== Sys2Proof/Laws/Ops.lean ====
section
/-! SUPPORT. The shared operations over registers and memory: what each reads and leaves alone. -/

namespace Sys2Proof.Machine

variable (s : State)

/-! Writes. -/

/-- A command whose write is let through acts. -/
theorem State.onWrite_of_reaches {chip : Nat} {p : Page} {r : Reg} {i : Nat} {req : Requester} {act : State → State} {v : Nat}
    (h : s.Reaches chip p r i req) : s.onWrite chip p r i req.val v act = act s := by
  have k : s.writeBar chip p r i req.val = none := Option.isNone_iff_eq_none.1 h.2
  unfold State.onWrite; simp [h.1, k]

/-- A write that does not reach its block is not served, or discarded (R41, R52, R61). -/
theorem State.onWrite_discards {chip : Nat} {p : Page} {r : Reg} {i req v : Nat} {act : State → State} :
    Discards s chip p r i req v (.next (s.onWrite chip p r i req v act)) := by
  refine ⟨fun h => ?_, fun h b k => ?_⟩
  · unfold State.onWrite; rw [if_pos h]
  · unfold State.onWrite; rw [if_neg (by simp [h]), k]

/-- What serving a command answers where it is not done (R163, R164, R170). -/
theorem State.serve_refuses {k : Nat} {permitted : State → Bool} {act : State → Nat → State × Nat} :
    RefusesInOrder s k permitted (.next (s.serve k permitted act)) := by
  refine ⟨fun h => ?_, fun c h => ⟨fun r => ?_, fun r e => ?_, fun r e g => ?_, fun r g => ?_⟩⟩
  · unfold State.serve; rw [h]
  · unfold State.serve; rw [h]; simp [r]
  · unfold State.serve; rw [h]; simp only [r]; rw [if_neg (by simp), if_pos e]
  · unfold State.serve; rw [h]; simp only [r]; rw [if_neg (by simp), if_neg (by omega), if_pos g]
  · obtain ⟨-, r, e, t⟩ := r
    unfold State.serve; rw [h]; simp only [r]
    rw [if_neg (by simp), if_neg (by omega), if_neg (by simp [t]), if_pos (by simp [g])]

/-- A command to a chip held in reset is not served (R41). -/
theorem State.onWrite_of_inReset {chip : Nat} {p : Page} {r : Reg} {i req v : Nat} {act : State → State}
    (h : s.inReset chip = true) : s.onWrite chip p r i req v act = s := by
  unfold State.onWrite; simp [h]

/-- A write that is barred is discarded with the fault that bars it (R52, R58, R61). -/
theorem State.onWrite_of_barred {chip : Nat} {p : Page} {r : Reg} {i req v : Nat} {act : State → State}
    {b : FaultBit} (h : s.inReset chip = false) (k : s.writeBar chip p r i req = some b) :
    s.onWrite chip p r i req v act = s.regFault chip p r i b req v := by
  unfold State.onWrite; simp [h, k]

/-- A command of the emulated page that can be served and is permitted is done and its result published (R163, R164). -/
theorem State.serve_of_canServe {k : Nat} {c : Posted} {permitted : State → Bool} {act : State → Nat → State × Nat}
    (h : s.CanServe k c) (p : permitted s = true) :
    s.serve k permitted act = (act s c.value).1.publish c (act s c.value).2 := by
  obtain ⟨h1, h2, h3, h4⟩ := h
  unfold State.serve
  simp only [h1, h2, Nat.not_lt.2 h3, h4, p, not_true, if_false, ne_eq]

/-- A frame the tray can receive feeds the silence timer and reaches its server (R601 to R603). -/
theorem State.receive_of_canReceive {f : Frame} (server : State → State) (h : s.CanReceive f) :
    s.receive f server = server s.validFrame := by
  obtain ⟨h1, h2, h3, h4, h5, h6, h7, h8⟩ := h
  unfold State.receive
  rw [if_neg (by simp [h1, h2]), if_neg (Nat.not_lt.2 h3), if_neg (by simp [h4]), if_neg (by simp [h5])]
  refine if_neg ?_
  rintro (a | a)
  · rcases h7 with h7 | h7 <;> simp [h6, h7] at a
  · omega

/-- A frame MC3 can answer is acted on (R608). -/
theorem State.mc3Frame_of_canAnswer {type len : Nat} {x : RxFrame} (act : State → RxFrame → State) (h : s.CanAnswer type len x) :
    s.mc3Frame .served type len act = act s x := by
  obtain ⟨h1, h2, h3, h4, h5⟩ := h
  unfold State.mc3Frame
  cases hq : s.rxq with
  | nil => simp [hq] at h1
  | cons y t =>
    simp only [hq, List.head?_cons, Option.some.injEq] at h1
    subst h1
    simp [h2, h3, h4, h5]

/-! Something done once for each of a list. -/

@[simp] theorem State.each_nil (f : State → Nat → State) : s.each [] f = s := rfl

@[simp] theorem State.each_cons (n : Nat) (l : List Nat) (f : State → Nat → State) : s.each (n :: l) f = (f s n).each l f := rfl

/-- What every single change leaves alone, all of them leave alone. -/
theorem State.each_congr {α : Type} (g : State → α) (l : List Nat) (f : State → Nat → State)
    (h : ∀ s, ∀ n ∈ l, g (f s n) = g s) : g (s.each l f) = g s := by
  induction l generalizing s with
  | nil => rfl
  | cons n l ih =>
    rw [State.each_cons, ih _ (fun s m hm => h s m (List.mem_cons_of_mem _ hm)), h s n (by simp)]

theorem State.get_each (g : Field) (l : List Nat) (f : State → Nat → State) (h : ∀ s, ∀ n ∈ l, (f s n).get g = s.get g) :
    (s.each l f).get g = s.get g := s.each_congr (fun s => s.get g) l f h

/-! Pairs. -/

theorem State.get_setPair_ne (lo hi g : Field) (v : Nat) (h : lo.key ≠ g.key) (k : hi.key ≠ g.key) :
    (s.setPair lo hi v).get g = s.get g := by
  unfold State.setPair; rw [State.get_set_ne _ _ _ _ k, State.get_set_ne _ _ _ _ h]

/-- A pair of words reads the number loaded into it. -/
theorem State.pair_setPair (lo hi : Field) (v : Nat) (hl : lo.width = 32) (hh : hi.width = 32) (h : lo.key ≠ hi.key)
    (hv : v < 18446744073709551616) : (s.setPair lo hi v).pair lo hi = v := by
  unfold State.pair State.setPair
  rw [State.get_set_same, State.get_set_ne _ _ _ _ h.symm, State.get_set_same, hl, hh]
  omega

/-! Page events. -/

theorem State.get_pageEvent_ne (chip : Nat) (p : Page) (bit i : Nat) (g : Field) (h : (hdr HDR.EVENT chip (p.at i)).key ≠ g.key) :
    (s.pageEvent chip p bit i).get g = s.get g := s.get_setBit_ne _ _ _ _ h

/-! Tests of fields: what writes to other fields leave alone. -/

theorem State.is_set_ne (f g : Field) (v : Nat) (h : f.key ≠ g.key) : (s.set f v).is g = s.is g := by
  unfold State.is; rw [State.get_set_ne _ _ _ _ h]

theorem State.bit_set_ne (f g : Field) (v : Nat) (m : Nat) (h : f.key ≠ g.key) : (s.set f v).bit g m = s.bit g m := by
  unfold State.bit; rw [State.get_set_ne _ _ _ _ h]

theorem State.is_put_ne (f g : Field) (b : Bool) (h : f.key ≠ g.key) : (s.put f b).is g = s.is g := by
  unfold State.is; rw [State.get_put_ne _ _ _ _ h]

theorem State.bit_put_ne (f g : Field) (b : Bool) (m : Nat) (h : f.key ≠ g.key) : (s.put f b).bit g m = s.bit g m := by
  unfold State.bit; rw [State.get_put_ne _ _ _ _ h]

theorem State.is_setBit_ne (f g : Field) (n : Nat) (b : Bool) (h : f.key ≠ g.key) : (s.setBit f n b).is g = s.is g := by
  unfold State.is; rw [State.get_setBit_ne _ _ _ _ _ h]

theorem State.bit_setBit_ne (f g : Field) (n : Nat) (b : Bool) (m : Nat) (h : f.key ≠ g.key) : (s.setBit f n b).bit g m = s.bit g m := by
  unfold State.bit; rw [State.get_setBit_ne _ _ _ _ _ h]

theorem State.is_count_ne (f g : Field) (n : Nat) (h : f.key ≠ g.key) : (s.count f n).is g = s.is g := by
  unfold State.is; rw [State.get_count_ne _ _ _ _ h]

theorem State.bit_count_ne (f g : Field) (n : Nat) (m : Nat) (h : f.key ≠ g.key) : (s.count f n).bit g m = s.bit g m := by
  unfold State.bit; rw [State.get_count_ne _ _ _ _ h]

theorem State.is_wrap_ne (f g : Field) (n : Nat) (h : f.key ≠ g.key) : (s.wrap f n).is g = s.is g := by
  unfold State.is; rw [State.get_wrap_ne _ _ _ _ h]

theorem State.bit_wrap_ne (f g : Field) (n : Nat) (m : Nat) (h : f.key ≠ g.key) : (s.wrap f n).bit g m = s.bit g m := by
  unfold State.bit; rw [State.get_wrap_ne _ _ _ _ h]

theorem State.is_pageEvent_ne (chip : Nat) (p : Page) (bit i : Nat) (g : Field) (h : (hdr HDR.EVENT chip (p.at i)).key ≠ g.key) :
    (s.pageEvent chip p bit i).is g = s.is g := s.is_setBit_ne _ _ _ _ h

theorem State.bit_pageEvent_ne (chip : Nat) (p : Page) (bit i : Nat) (g : Field) (m : Nat)
    (h : (hdr HDR.EVENT chip (p.at i)).key ≠ g.key) : (s.pageEvent chip p bit i).bit g m = s.bit g m :=
  s.bit_setBit_ne _ _ _ _ _ h

/-- A bit that is set tests as set. -/
theorem testBit_withBit_true (v n : Nat) : (withBit v n true).testBit n = true := by
  unfold withBit
  split
  · assumption
  · next h =>
    have h : v.testBit n = false := by simpa using h
    simp only [if_true]
    rw [Nat.add_comm, Nat.testBit_two_pow_add_eq]; simp [h]

end Sys2Proof.Machine
end

