-- ==== Sys2Proof/Laws/Registers.lean ====
section
/-! SUPPORT. Reads of registers: what one changes. -/

namespace Sys2Proof.Machine

/-- An entry of another pair or requester hides nothing. -/
theorem pairEntry_cons_ne {l : List (Nat × Nat × Nat)} {k r k' r' v : Nat} (h : ¬ (k' = k ∧ r' = r)) :
    pairEntry ((k', r', v) :: l) k r = pairEntry l k r := by
  unfold pairEntry; rw [List.find?_cons_of_neg (by simpa using h)]

/-- Dropping one requester's entry of a pair leaves every other one. -/
theorem pairEntry_drop_ne {l : List (Nat × Nat × Nat)} {k r k' r' : Nat} (h : ¬ (k' = k ∧ r' = r)) :
    pairEntry (pairDrop l k' r') k r = pairEntry l k r := by
  unfold pairEntry pairDrop
  induction l with
  | nil => rfl
  | cons a t ih =>
    rw [List.filter_cons]
    by_cases c : a.1 = k' ∧ a.2.1 = r'
    · have e : (!(a.1 == k' && a.2.1 == r')) = false := by simp [c]
      have e2 : (a.1 == k && a.2.1 == r) = false := by
        simp; intro x y; exact h ⟨c.1 ▸ x, c.2 ▸ y⟩
      rw [e, if_neg (by simp), List.find?_cons_of_neg (by simpa using e2), ih]
    · have e : (!(a.1 == k' && a.2.1 == r')) = true := by simpa [← not_and_or] using c
      rw [e, if_pos rfl]
      by_cases e2 : (a.1 == k && a.2.1 == r) = true
      · simp [e2]
      · simpa [List.find?_cons, e2] using ih

/-- All that a read can do: it answers, and changes at most the requester's own capture of the pair that stands at the offset (R48, R49). -/
theorem State.read32_captures (s : State) (req chip off : Nat) (e : BitVec 4) (h : reservedRange chip off = false) :
    ∃ captures a, s.read32 req chip off e = { s with capture := captures, answer := a } ∧
      ∀ k r, (r ≠ req ∨ ∀ lo hi i, lowPairAt chip off = some (lo, hi, i) ∨ highPairAt chip off = some (lo, hi, i) →
        k ≠ (lo.at chip i).key) → pairEntry captures k r = pairEntry s.capture k r := by
  unfold State.read32
  by_cases hr : s.inReset chip
  · rw [if_pos hr]; exact ⟨s.capture, [], rfl, fun _ _ _ => rfl⟩
  · rw [if_neg hr, if_neg (by simp [h])]
    split
    · rename_i lo hi i x
      refine ⟨_, _, rfl, fun k r q => ?_⟩
      have : ¬ ((lo.at chip i).key = k ∧ req = r) := by
        rintro ⟨a, b⟩; rcases q with q | q
        · exact q b.symm
        · exact q lo hi i (.inl x) a.symm
      rw [pairEntry_cons_ne this, pairEntry_drop_ne this]
    · rename_i lo hi i x y
      refine ⟨_, _, rfl, fun k r q => ?_⟩
      have : ¬ ((lo.at chip i).key = k ∧ req = r) := by
        rintro ⟨a, b⟩; rcases q with q | q
        · exact q b.symm
        · exact q lo hi i (.inr y) a.symm
      rw [pairEntry_drop_ne this]
    · exact ⟨s.capture, _, rfl, fun _ _ _ => rfl⟩

end Sys2Proof.Machine
end

