-- ==== Sys2Proof/Laws/Tumbler.lean ====
section
/-! SUPPORT. The tumbler: what issuing a slot does, and when a result can be read. -/

namespace Sys2Proof.Machine

variable (s : State)

/-- A tumbler that is written reads as written. -/
@[simp] theorem State.tum_setTum (d t : Nat) (x : Tum) : (s.setTum d t x).tum d t = x := by
  simp [State.tum, State.setTum, State.onDie, State.die, State.setDie]

/-- The second of two writes of a tumbler stands. -/
@[simp] theorem State.setTum_setTum (d t : Nat) (x y : Tum) : (s.setTum d t x).setTum d t y = s.setTum d t y := by
  simp [State.setTum, State.onDie, State.die, State.setDie]

/-- A slot that can issue has its effect, with the slot spent. -/
theorem State.issue_of_canIssue {t : Tumbler} {slot : Slot} {y : Tum} {w : Nat} {op : Nat → Bool}
    {act : State → Nat → Nat → Tum → Nat → State} (h : s.CanIssue t slot y w) (o : op w = true) :
    s.issue t slot op act = act (s.setTum t.die.val (posOf t) y) t.die.val (posOf t) y w := by
  obtain ⟨h1, h2, h3, h4, h5⟩ := h
  unfold State.issue
  simp only [← h1, h3, h4, o, Bool.not_false, Bool.and_self, if_true]
  rw [← h2, if_pos h5]

/-- A slot whose effect is on the tumbler alone, and can issue, leaves the tumbler as the effect says. -/
theorem State.issueTum_of_canIssue {t : Tumbler} {slot : Slot} {y : Tum} {w : Nat} {op : Nat → Bool} {act : Tum → Nat → Tum}
    (h : s.CanIssue t slot y w) (o : op w = true) :
    s.issueTum t slot op act = s.setTum t.die.val (posOf t) (act y w) := by
  unfold State.issueTum
  rw [s.issue_of_canIssue h o, State.setTum_setTum]

/-- A slot whose guard is false, or that has issued in this cycle, leaves every register of the tumbler alone. -/
theorem State.issue_of_guarded {t : Tumbler} {slot : Slot} {op : Nat → Bool} {act : State → Nat → Nat → Tum → Nat → State}
    (g : guardHolds { s.tum t.die.val (posOf t) with slots := withBit (s.tum t.die.val (posOf t)).slots slot.num true } (s.uword t.die.val (posOf t) (s.tum t.die.val (posOf t))) slot = false) :
    s.issue t slot op act = s ∨ s.issue t slot op act = s.setTum t.die.val (posOf t) { s.tum t.die.val (posOf t) with slots := withBit (s.tum t.die.val (posOf t)).slots slot.num true } := by
  unfold State.issue
  simp only [g]
  split
  · exact .inr rfl
  · exact .inl rfl

@[simp] theorem Tum.flag_zero (x : Tum) : x.flag 0 = x := by
  unfold Tum.flag
  have e : Nat.lor x.flags 0 = x.flags := Nat.or_zero _
  rw [e]

/-- The flags of a conversion that raises none. -/
@[simp] theorem Flags.bits_empty : ({} : Flags).bits = 0 := rfl

/-- A scalar operation that can issue. -/
theorem State.scalarOp_of_canIssue {t : Tumbler} {op lat : Nat} {f : Tum → Nat → Nat × Flags} {y : Tum} {w : Nat}
    (h : s.CanIssue t .scalar y w) (o : sop w = op) :
    s.scalarOp t op lat f = s.setTum t.die.val (posOf t) ((y.later lat .scal (destS w) 0 32 (f y w).1 2).flag (f y w).2.bits) := by
  unfold State.scalarOp
  rw [s.issueTum_of_canIssue h (by simp [o])]

/-- A predicate operation that can issue. -/
theorem State.predOp_of_canIssue {t : Tumbler} {op lat : Nat} {f : Tum → Nat → Bool} {y : Tum} {w : Nat}
    (h : s.CanIssue t .scalar y w) (o : sop w = op) :
    s.predOp t op lat f = s.setTum t.die.val (posOf t) (y.later lat .pred (destS w % 8) 0 1 (f y w).toNat 0) := by
  unfold State.predOp
  rw [s.issueTum_of_canIssue h (by simp [o])]

end Sys2Proof.Machine
end

