-- ==== Sys2Proof/WellFormed.lean ====
section
/-! DEFINITION. Which commands are well formed: what the types of the operands do not say. The checks bind the sender; the
meanings are total and answer an ill-formed command too. -/

namespace Sys2Proof

/-- A register offset of a chip: a word of BAR0; the Clachasel's part is 1 MiB (R30, R31, R46). -/
def offsetOk (chip : Fin 9) (offset : BitVec 24) : Bool :=
  offset.toNat % 4 == 0 && (chip.val != 8 || decide (offset.toNat < 0x100000))

/-- The second half of a 64-bit access lies in the chip's part too (R47). -/
def wideOk {α : Type} (chip : Fin 9) (offset : BitVec 24) (high : Option α) : Bool := high.isNone || offsetOk chip (offset + 4)

/-- A page of a chip: a page of 4 KiB within its part of BAR0 (R30, R31). -/
def pageOk (chip : Fin 9) (page : Fin 4096) : Bool := chip.val != 8 || decide (page.val < 256)

/-- No unit reads both corrected and bad (R270). -/
def Ecc.ok (e : Ecc) : Bool := e.corrected.all (fun u => !e.bad.contains u)

/-- A memory access moves at least one byte (R279). -/
def MemOp.ok : MemOp → Bool
  | .read n => decide (0 < n.toNat)
  | .write data => !data.isEmpty

/-- A frame's payload is 240 bytes at most (R600). -/
def Frame.ok (f : Frame) : Bool := decide (f.payload.length ≤ 240)

/-- The frame of a frame event. -/
def FrameEvent.ok : FrameEvent → Bool
  | .received f => f.ok
  | .served => true

/-- A command is well formed. [DESIGN CHOICE, log entry 6] -/
def Instr.wf : Instr → Bool
  | .registerWrite _ chip offset _ _ _ high => offsetOk chip offset && wideOk chip offset high
  | .reservedRangeAccess _ chip offset _ _ => offsetOk chip offset
  | .lowWordRead _ chip offset _ high => offsetOk chip offset && wideOk chip offset high
  | .lowWordWrite _ chip offset _ => offsetOk chip offset
  | .highWordWrite _ chip offset _ => offsetOk chip offset
  | .pageLock _ chip page => pageOk chip page
  | .softReset _ chip page => pageOk chip page
  | .softResetEnd chip page => pageOk chip page
  | .commitRequest _ chip page _ => pageOk chip page
  | .commitApply chip page => pageOk chip page
  | .bar2Access _ _ op ecc => op.ok && ecc.ok
  | .memoryAccess _ _ _ op ecc => op.ok && ecc.ok
  | .keyringCheckDone _ ecc => ecc.ok
  | .shadowReady _ _ ecc => ecc.ok
  | .guIngressChunk _ _ ecc => ecc.ok
  | .guEgressAck _ _ ecc => ecc.ok
  | .skipPhaseComplete _ _ ecc => ecc.ok
  | .scrubRead _ _ ecc => ecc.ok
  | .slotSend _ _ _ _ _ _ ecc => ecc.ok
  | .bayImageLoaded _ ecc => ecc.ok
  | .inputCopyDone _ ecc => ecc.ok
  | .outputCopyDone _ ecc => ecc.ok
  | .scanIn _ _ ecc => ecc.ok
  | .tilePllLock _ ecc => ecc.ok
  | .memoryTestDone _ _ ecc => ecc.ok
  | .bld _ corrected bad => corrected &&& bad == 0
  | .blds _ corrected bad => corrected &&& bad == 0
  | .flashReadDone _ read => (match read with | some ws => ws.length == 8 | none => true)
  | .faultFwd _ _ _ _ words => words.length == 4
  | .codewordReceive _ _ word => word.lane0.length == 272 && word.lane1.length == 272
  | .chunkArrival _ _ _ _ _ _ data => data.length == 512
  | .transactionEnd _ _ _ data _ _ => decide (data.length ≤ 256)
  | .calibrationDone _ zero full tia => zero.length == 8 && full.length == 8 && tia.length == 5
  | .ping frame => frame.ok
  | .resetArm frame => frame.ok
  | .resetFire frame => frame.ok
  | .status event => event.ok
  | .opSet event => event.ok
  | .throttleFrame event => event.ok
  | .testSlotFrame event => event.ok
  | .time event => event.ok
  | .setTag event => event.ok
  | _ => true

end Sys2Proof
end

