-- ==== Sys2Proof/Tests/Slice0.lean ====
section
/-! SUPPORT. Tests: ill-formed commands are refused by WellFormed, a few results worked out from the spec, and for every statement
of Certificates/Slice0/Obligations.lean a state and operands that meet its hypotheses. -/

namespace Sys2Proof.Tests

/-! One theorem at a time: an evaluation by the kernel waits for the theorems before it, and each that waits in parallel holds a stack. -/

set_option Elab.async false

open Sys2Proof.Machine

/-! Small states. -/

/-- The Clachasel runs: the supplies are up, power-on reset has been released and the core PLL is locked; every TRIP_n is asserted. -/
def up : State := (State.reset.set RECI.RUNS.cl 1).set CCLK.CORE_LOCK.cl 1
/-- The Clachasel runs and every die is out of reset. -/
def on : State := up.set FENCE.TRIP_NOW.cl 0
/-- MC3 runs in MGMT_READY with value `v` posted on CMDk. -/
def serving (k v : Nat) : State :=
  { (up.set (MCCTL.RUNNING.clAt 3) 1).set CSYS.TRAY_STATE.cl 2 with posted := [⟨k, v, 0, 0, 1⟩] }
/-- A bundle of 584 bytes whose check answers OK: a header, the six sections of the core types, each with the one image of 64 bytes, key 0
and a signature (R144, R145). -/
def okBundle : Bundle :=
  let zeros (n : Nat) : List Byte := List.replicate n 0
  let entry (t : Nat) : List Byte := byteList 2 t ++ zeros 2 ++ byteList 4 416 ++ byteList 4 64 ++ zeros 52
  let image := byteList 4 0x474D4941 ++ zeros 8 ++ byteList 4 64 ++ byteList 8 7 ++ zeros 40
  ⟨byteList 4 0x42564441 ++ byteList 2 1 ++ byteList 2 6 ++ byteList 8 7 ++ byteList 4 584 ++ zeros 12 ++
    [1, 2, 3, 4, 16, 17].flatMap entry ++ image ++ zeros 104, true, List.replicate 6 true⟩
/-- The start-up search of the recorder has ended. -/
def scanned : State := on.set EVREC.SCANNING.cl 0
/-- TW0 with a timing set for 100 kHz that passes the check. -/
def timed : State :=
  [(TW.TLOW, 1000), (TW.THIGH, 1000), (TW.TSU_DAT, 60), (TW.THD_DAT, 100), (TW.TSU_STA, 1000), (TW.THD_STA, 1000), (TW.TSU_STO, 1000),
    (TW.TBUF, 1000), (TW.FILT, 1), (TW.TRISE, 100), (TW.STRETCH_MAX, 1), (TW.XFER_MAX, 1)].foldl (fun s r => s.set (r.1.clAt 0) r.2) up
/-- Die 0 runs a section whose key gives tumbler 0 one word, at its address 0. -/
def issuing (w : Nat) : State :=
  (on.set (ARRAY.PHASE.on 0) 1).onDie 0 (fun x =>
    { x with active := some ⟨1, 0, false, 10, 0, 0, 0, [(0, 0)], [(0, 1)], [(0, w)], [], [], []⟩ })
/-- Die 0 runs a section whose key has gate unit 0 with one step, due in cycle 3, and a descriptor each way. -/
def gated (take : Bool) : State :=
  (on.set (ARRAY.PHASE.on 0) 1).onDie 0 (fun x =>
    { x with active := some ⟨1, 0, false, 10, 0, 0, 0, [], [], [], [],
              [⟨0, 16, [⟨false, false, 0, 0, 32, 2, 0⟩, ⟨true, false, 0, 0, 32, 2, 0⟩], [⟨3, 2, 4, 0, take⟩]⟩], []⟩ })
/-- Window 0 of die 0 grants every right to its first 64 KiB. -/
def windowed (s : State) : State :=
  (((s.set (WIN.EN.at 0 0) 1).set (WIN.R.at 0 0) 1).set (WIN.W.at 0 0) 1).set (WIN.X.at 0 0) 1
/-- Hasp link `l` of die 0 stands in the state of code `k`. -/
def linked (l k : Nat) : State := on.set (HL.STATE.at 0 l) k
/-- Link 0 of die 0 is UP and in service with 64 credits; every slot of its table sends stream 0 and receives stream `rx`. Stream
0 has one chunk to send, stream 1 receives. -/
def streaming (rx : Nat) : State :=
  (linked 0 7).onDie 0 (fun x =>
    { x with slinks := [(0, { state := 0, credits := 64, table := some ⟨0, 1, 0, List.replicate 8 (65536 * rx)⟩ })],
             streams := [(0, { ctrl := 1, chunks := 1, tail := 16, wrap := 1, state := .active, xfers := [{ seq := 0, first := 0 }] }),
                         (1, { ctrl := 3, chunks := 1, tail := 16, wrap := 1, state := .active, xfers := [{ seq := 0, first := 0 }] })] })
/-- A codeword of two lanes. -/
def carried (lane0 lane1 : List (BitVec 10)) : Codeword := ⟨lane0, lane1, 0, 0, 0⟩
/-- What is sent for a CCB of zeros and 17 idle words of zeros, from a scrambler of zeros. -/
def blankSent : List Nat × Nat := codewordOf 0 (messageOf {} (List.replicate 17 (0, 0)))
/-- That codeword as it arrives. -/
def blank : Codeword := carried ((dealt blankSent.1).1.map (BitVec.ofNat 10)) ((dealt blankSent.1).2.map (BitVec.ofNat 10))
/-- A codeword of 17 symbols in error, two more than can be corrected. -/
def garbled : Codeword :=
  let g := dealt (List.replicate 527 0 ++ [1, 568, 550, 748, 724, 650, 1005, 744, 27, 204, 617, 218, 595, 461, 746, 960, 888])
  carried (g.1.map (BitVec.ofNat 10)) (g.2.map (BitVec.ofNat 10))
/-- A frame for the tray in slot 5, with its CRC right. -/
def framed (type : BitVec 8) (payload : List Byte) : Frame :=
  ⟨5, 0, type, 1, payload, BitVec.ofNat 16 (crc16 (frameBody 5 0 type.toNat 1 payload))⟩
/-- The tray stands in slot 5. -/
def slotted : State := (up.set SUPV.ADDR_VALID.cl 1).set SUPV.SLOT_ID.cl 5
/-- A frame of a type heads the queue of MC3, which runs; the tray is in a state. -/
def asked (type : BitVec 8) (payload : List Byte) (tray : Nat) : State :=
  { (slotted.set (MCCTL.RUNNING.clAt 3) 1).set CSYS.TRAY_STATE.cl tray with rxq := [⟨framed type payload, 0, 0, false, false⟩] }
/-- Zone 0 has four points 1 degree apart, from 0 degrees and demand 100, each 100 above the last; it reads `t` sixteenths. -/
def curved (t : Nat) : State :=
  ((List.range 4).foldl (fun s i => (s.set (CDEM.T.clAt i) (16 * i)).set (CDEM.D.clAt i) (100 + 100 * i)) up).set (TZONE.T_Z.clAt 0) t
/-- Zone Z3 with the active set throttle 85, trip 95 degrees and a shadow throttle of `c` degrees; PAGE_GEN 12. -/
def zoned (c : Nat) : State :=
  ((((((up.set (TZONE.ZEN.clAt 3) 1).set (TZONE.HYST.clAt 3) 32).set (TZONE.WARN.clAt 3) 1280).set (TZONE.THROTTLE.clAt 3) 1360).set (TZONE.TRIP.clAt 3) 1520).setShadow (TZONE.THROTTLE.clAt 3)
    (16 * c)).set (hdr HDR.GEN 8 0x22000) 12

/-- One field of the state an outcome answers. -/
def after (o : Out) (f : Field) : Option Nat :=
  match o with
  | .next t => some (t.get f)
  | _ => none

/-! Ill-formed commands. -/

theorem test_ill_formed_offset_not_a_word : Instr.wf (.registerWrite 1 8 2 15 0 false none) = false := by decide

theorem test_ill_formed_offset_beyond_the_clachasel : Instr.wf (.lowWordRead 1 8 0x100000 15 none) = false := by decide

theorem test_ill_formed_reserved_offset_not_a_word : Instr.wf (.reservedRangeAccess 1 8 1 false 0) = false := by decide

theorem test_ill_formed_low_word_offset : Instr.wf (.lowWordWrite 1 8 3 0) = false := by decide

theorem test_ill_formed_high_word_offset : Instr.wf (.highWordWrite 1 8 3 0) = false := by decide

theorem test_ill_formed_lock_page_beyond_the_clachasel : Instr.wf (.pageLock 1 8 256) = false := by decide

theorem test_ill_formed_soft_reset_page : Instr.wf (.softReset 1 8 256) = false := by decide

theorem test_ill_formed_soft_reset_end_page : Instr.wf (.softResetEnd 8 256) = false := by decide

theorem test_ill_formed_commit_page : Instr.wf (.commitRequest 1 8 256 0) = false := by decide

theorem test_ill_formed_commit_apply_page : Instr.wf (.commitApply 8 256) = false := by decide

theorem test_ill_formed_empty_access : Instr.wf (.memoryAccess 0 .keys 0 (.read 0) ⟨[], []⟩) = false := by decide

theorem test_ill_formed_unit_corrected_and_bad : Instr.wf (.memoryAccess 0 .keys 0 (.read 1) ⟨[0], [0]⟩) = false := by decide

theorem test_ill_formed_empty_bar2_write : Instr.wf (.bar2Access 0 0 (.write []) ⟨[], []⟩) = false := by decide

theorem test_ill_formed_bay_word_corrected_and_bad : Instr.wf (.bld ⟨0, 0, 0⟩ 1 1) = false := by decide

theorem test_ill_formed_bay_word_corrected_and_bad_scalar : Instr.wf (.blds ⟨0, 0, 0⟩ 1 1) = false := by decide

theorem test_ill_formed_payload_of_241 : Instr.wf (.ping ⟨5, 0, 1, 0, List.replicate 241 0, 0⟩) = false := by decide +kernel

theorem test_ill_formed_event_payload_of_241 : Instr.wf (.status (.received ⟨5, 0, 2, 0, List.replicate 241 0, 0⟩)) = false := by decide +kernel

theorem test_ill_formed_errors_of_engines : ∀ c ∈ ([
    .keyringCheckDone 0 ⟨[0], [0]⟩,
    .shadowReady 0 0 ⟨[0], [0]⟩,
    .guIngressChunk 0 0 ⟨[0], [0]⟩,
    .guEgressAck 0 0 ⟨[0], [0]⟩,
    .skipPhaseComplete 0 0 ⟨[0], [0]⟩,
    .scrubRead 0 0 ⟨[0], [0]⟩,
    .slotSend 0 0 0 0 0 0 ⟨[0], [0]⟩,
    .bayImageLoaded 0 ⟨[0], [0]⟩,
    .inputCopyDone 0 ⟨[0], [0]⟩,
    .outputCopyDone 0 ⟨[0], [0]⟩,
    .scanIn 0 0 ⟨[0], [0]⟩,
    .tilePllLock 0 ⟨[0], [0]⟩,
    .memoryTestDone 0 0 ⟨[0], [0]⟩] : List Instr), Instr.wf c = false := by decide

theorem test_ill_formed_lists : ∀ c ∈ ([
    .faultFwd 0 0 0 0 [],
    .chunkArrival 0 0 0 0 0 0 [],
    .transactionEnd 0 .done 0 (List.replicate 257 0) 0 0,
    .calibrationDone 0 [] [] []] : List Instr), Instr.wf c = false := by decide +kernel

theorem test_ill_formed_frames : ∀ c ∈ ([
    .resetArm ⟨5, 0, 1, 0, List.replicate 241 0, 0⟩,
    .resetFire ⟨5, 0, 1, 0, List.replicate 241 0, 0⟩,
    .opSet (.received ⟨5, 0, 1, 0, List.replicate 241 0, 0⟩),
    .throttleFrame (.received ⟨5, 0, 1, 0, List.replicate 241 0, 0⟩),
    .testSlotFrame (.received ⟨5, 0, 1, 0, List.replicate 241 0, 0⟩),
    .time (.received ⟨5, 0, 1, 0, List.replicate 241 0, 0⟩),
    .setTag (.received ⟨5, 0, 1, 0, List.replicate 241 0, 0⟩)] : List Instr), Instr.wf c = false := by decide +kernel

theorem test_well_formed_access : Instr.wf (.memoryAccess 0 .keys 0 (.read 1) ⟨[0], [1]⟩) = true := by decide

/-! Results worked out from the spec. -/

/-- R600: CRC-16, polynomial 0x1021, initial value 0xFFFF: its published check value, over the digits 1 to 9. -/
theorem test_crc16 : crc16 [49, 50, 51, 52, 53, 54, 55, 56, 57] = 0x29B1 := by decide +kernel

/-- R565: CRC-8, polynomial x^8 + x^2 + x + 1, initial value 0: its published check value. -/
theorem test_crc8 : crc8 [49, 50, 51, 52, 53, 54, 55, 56, 57] = 0xF4 := by decide +kernel

/-- R237, R245: CRC-32C over deep memory: its published check value. -/
theorem test_crc32c : (State.crc32c { State.reset with mem := [(0, 49), (1, 50), (2, 51), (3, 52), (4, 53), (5, 54), (6, 55), (7, 56), (8, 57)] } 0 0 9) = 0xE3069283 := by decide +kernel

/-- "CCB layout": the same CRC-32C over the bytes of a CCB. -/
theorem test_crc32c_of_bytes : crcOf [49, 50, 51, 52, 53, 54, 55, 56, 57] = 0xE3069283 := by decide +kernel

/-- R304: a codeword is 0 at the 30 roots of the generator. -/
theorem test_codeword_vanishes_at_the_roots :
    (List.range 30).all (fun j => gfEval (rsEncode [1, 2, 3]).reverse (gfPow 2 j) == 0) = true := by decide +kernel

/-- 1 + 1 = 2 in binary32. -/
theorem test_fadd_one_one : fadd 0x3F800000 0x3F800000 = (0x40000000, {}) := by decide +kernel

/-- R196: the sum of infinities of opposite sign is the produced NaN, with NV. -/
theorem test_fadd_infinities : (fadd 0x7F800000 0xFF800000).2 = { nv := true } := by decide +kernel

/-- R195: 1.0 in E4M3 is 0x38. -/
theorem test_e4m3_one : toE4m3 0x3F800000 = (0x38, {}) := by decide +kernel

/-- R195: 1000.0 saturates in E4M3 at 448, 0x7E, with SAT. -/
theorem test_e4m3_saturates : toE4m3 0x447A0000 = (0x7E, { sat := true }) := by decide +kernel

/-- R195: 2.5 rounds to the even integer 2. -/
theorem test_ftoi_half_to_even : f32ToInt 32 0x40200000 = (2, {}) := by decide +kernel

/-- R195: 2^24 + 1 rounds to the even binary32 value 2^24. -/
theorem test_itof_half_to_even : intToF32 16777217 = 0x4B800000 := by decide +kernel

/-- R510: between (16, 200) and (32, 300), at 17, the demand is 206.25, nearest 206. -/
theorem test_curve_demand : (curved 17).curveDemand 0 = 206 := by decide +kernel

/-- The walkthrough of spec/02_register_pages.md, step 2: 96 against a trip of 95 degrees is refused and the generation stays 12. -/
theorem test_commit_refused :
    after (exec (.commitRequest 48 8 0x22 13) (zoned 96)) (hdr HDR.GEN 8 0x22000) = some 12 ∧
    after (exec (.commitRequest 48 8 0x22 13) (zoned 96)) (hdr HDR.COMMIT_PENDING 8 0x22000) = some 0 := by decide +kernel

/-- R64 to R66: a set that is consistent is accepted. -/
theorem test_commit_accepted :
    after (exec (.commitRequest 48 8 0x22 13) (zoned 90)) (hdr HDR.COMMIT_PENDING 8 0x22000) = some 1 := by decide +kernel

/-- R64: a request that is not the generation plus 1 is discarded. -/
theorem test_commit_of_an_old_generation :
    after (exec (.commitRequest 48 8 0x22 12) (zoned 90)) (hdr HDR.COMMIT_PENDING 8 0x22000) = some 0 := by decide +kernel

/-- R8: 0x12345678 stored at 16 has 0x78 at the lowest address. -/
theorem test_little_endian : ((State.reset.store 16 4 0x12345678).byte 16, (State.reset.store 16 4 0x12345678).byte 19) = (0x78, 0x12) := by decide

/-- R187: a scalar load of line 24,576 sets BR and leaves S[3] to be written with 0. -/
theorem test_bay_out_of_range :
    (match exec (.blds ⟨0, 0, 0⟩ 0 0) ((issuing (3 * 2 ^ 78 + 3 * 2 ^ 73)).setTum 0 0 { scal := [(0, 24576), (3, 7)] }) with
    | .next t => ((t.tum 0 0).flags, (t.tum 0 0).writes.map (fun w => (w.due, w.idx, w.value)))
    | _ => (0, [])) = (8, [(4, 3, 0)]) := by decide

/-! Every statement's hypotheses are met. -/

theorem test_hypotheses_of_CoolingOutputsFollowTheControlLoop :
    (((up.set CFAN.FAN_FIT.cl 1).fitted (0 : Fin 14).val = true) ∧ (10 ≤ (10 : Nat)) ∧ (([30000] : List Nat) = ((30000 : Nat) :: (aget (up.set CFAN.FAN_FIT.cl 1).tach (0 : Fin 14).val).getD []).take (max 1 ((up.set CFAN.FAN_FIT.cl 1).get (pprOf (0 : Fin 14).val))))) ∧
    (up.fitted (0 : Fin 14).val = false ∨ (9 : Nat) < 10) ∧
    (((0 : Fin 14).val < 12) ∧ (({ (((up.set (CFAN.ARMED.clAt 0) 1).set (CFAN.TACH_MIN.clAt 0) 500).set (COOLI.LOW_SINCE.clAt 0) 1) with clock := 10000000 }).tachLow (0 : Fin 14).val = true) ∧ (({ (((up.set (CFAN.ARMED.clAt 0) 1).set (CFAN.TACH_MIN.clAt 0) 500).set (COOLI.LOW_SINCE.clAt 0) 1) with clock := 10000000 }).heldFor (COOLI.LOW_SINCE.clAt (0 : Fin 14).val) (({ (((up.set (CFAN.ARMED.clAt 0) 1).set (CFAN.TACH_MIN.clAt 0) 500).set (COOLI.LOW_SINCE.clAt 0) 1) with clock := 10000000 }).coolTime (0 : Fin 14).val) = true) ∧ (({ (((up.set (CFAN.ARMED.clAt 0) 1).set (CFAN.TACH_MIN.clAt 0) 500).set (COOLI.LOW_SINCE.clAt 0) 1) with clock := 10000000 }).is (CFAN.FAULT.clAt (0 : Fin 14).val) = false)) ∧
    ((12 ≤ (12 : Fin 14).val) ∧ (({ (((up.set (CPUMP.ARMED.clAt 0) 1).set (CPUMP.TACH_MIN.clAt 0) 500).set (COOLI.LOW_SINCE.clAt 12) 1) with clock := 10000000 }).tachLow (12 : Fin 14).val = true) ∧ (({ (((up.set (CPUMP.ARMED.clAt 0) 1).set (CPUMP.TACH_MIN.clAt 0) 500).set (COOLI.LOW_SINCE.clAt 12) 1) with clock := 10000000 }).heldFor (COOLI.LOW_SINCE.clAt (12 : Fin 14).val) (({ (((up.set (CPUMP.ARMED.clAt 0) 1).set (CPUMP.TACH_MIN.clAt 0) 500).set (COOLI.LOW_SINCE.clAt 12) 1) with clock := 10000000 }).coolTime (12 : Fin 14).val) = true) ∧ (({ (((up.set (CPUMP.ARMED.clAt 0) 1).set (CPUMP.TACH_MIN.clAt 0) 500).set (COOLI.LOW_SINCE.clAt 12) 1) with clock := 10000000 }).is (CPUMP.FAULT.clAt ((12 : Fin 14).val - 12)) = false)) ∧
    ((up.tachLow (0 : Fin 14).val = false ∨ up.heldFor (COOLI.LOW_SINCE.clAt (0 : Fin 14).val) (up.coolTime (0 : Fin 14).val) = false ∨ up.is (faultOf (0 : Fin 14).val) = true)) ∧
    (((up.set CFAN.FLOW_FIT.cl 3).bit CFAN.FLOW_FIT.cl (0 : Fin 2).val = true)) ∧
    ((up.set CFAN.FLOW_FIT.cl 0).bit CFAN.FLOW_FIT.cl (0 : Fin 2).val = false) ∧
    ((({ (((up.set (CPUMP.FL_ARMED.clAt 0) 1).set (CPUMP.FLOW_MIN.clAt 0) 50).set (COOLI.LOW_SINCE.clAt 14) 1) with clock := 10000000 }).flowLow (0 : Fin 2).val = true) ∧ (({ (((up.set (CPUMP.FL_ARMED.clAt 0) 1).set (CPUMP.FLOW_MIN.clAt 0) 50).set (COOLI.LOW_SINCE.clAt 14) 1) with clock := 10000000 }).heldFor (COOLI.LOW_SINCE.clAt (14 + (0 : Fin 2).val)) (({ (((up.set (CPUMP.FL_ARMED.clAt 0) 1).set (CPUMP.FLOW_MIN.clAt 0) 50).set (COOLI.LOW_SINCE.clAt 14) 1) with clock := 10000000 }).coolTime (14 + (0 : Fin 2).val)) = true) ∧ (({ (((up.set (CPUMP.FL_ARMED.clAt 0) 1).set (CPUMP.FLOW_MIN.clAt 0) 50).set (COOLI.LOW_SINCE.clAt 14) 1) with clock := 10000000 }).is (CPUMP.FL_FAULT.clAt (0 : Fin 2).val) = false)) ∧
    ((up.flowLow (0 : Fin 2).val = false ∨ up.heldFor (COOLI.LOW_SINCE.clAt (14 + (0 : Fin 2).val)) (up.coolTime (14 + (0 : Fin 2).val)) = false ∨ up.is (CPUMP.FL_FAULT.clAt (0 : Fin 2).val) = true)) ∧
    (((0 : Fin 16).val < 14) ∧ ((up.set (CFAN.FAULT.clAt 0) 1).Reaches clachasel (coolFaultAt (0 : Fin 16).val).1 (coolFaultAt (0 : Fin 16).val).2.1 (coolFaultAt (0 : Fin 16).val).2.2 (1 : Requester)) ∧ ((up.set (CFAN.FAULT.clAt 0) 1).is (faultOf (0 : Fin 16).val) = true) ∧ ((up.set (CFAN.FAULT.clAt 0) 1).tachLow (0 : Fin 16).val = false)) ∧
    ((14 ≤ (14 : Fin 16).val) ∧ ((up.set (CPUMP.FL_FAULT.clAt 0) 1).Reaches clachasel (coolFaultAt (14 : Fin 16).val).1 (coolFaultAt (14 : Fin 16).val).2.1 (coolFaultAt (14 : Fin 16).val).2.2 (1 : Requester)) ∧ ((up.set (CPUMP.FL_FAULT.clAt 0) 1).is (CPUMP.FL_FAULT.clAt ((14 : Fin 16).val - 14)) = true) ∧ ((up.set (CPUMP.FL_FAULT.clAt 0) 1).flowLow ((14 : Fin 16).val - 14) = false)) ∧
    ((up.Reaches clachasel (coolFaultAt (15 : Fin 16).val).1 (coolFaultAt (15 : Fin 16).val).2.1 (coolFaultAt (15 : Fin 16).val).2.2 (1 : Requester)) ∧ (up.coolLow (15 : Fin 16).val = true ∨ up.is (if (15 : Fin 16).val < 14 then faultOf (15 : Fin 16).val else CPUMP.FL_FAULT.clAt ((15 : Fin 16).val - 14)) = false)) :=
  by and_intros <;> decide +kernel

theorem test_hypotheses_of_LeakComparatorsFilterAndTrip :
    ((up.set CFAN.LK_FIT.cl 0).bit CFAN.LK_FIT.cl (0 : Fin 4).val = false) ∧
    (((up.set CFAN.LK_FIT.cl 3).bit CFAN.LK_FIT.cl (0 : Fin 4).val = true) ∧ ((true : Bool) = (if (up.set CFAN.LK_FIT.cl 3).is (CLEAK.ALARM.clAt (0 : Fin 4).val) then decide ((150 : Nat) < (up.set CFAN.LK_FIT.cl 3).leakRelease) else decide (10 * (up.set CFAN.LK_FIT.cl 3).get HLS.LEAK_TRIP.cl ≤ (150 : Nat)))) ∧ ((false : Bool) = (if (up.set CFAN.LK_FIT.cl 3).is (CLEAK.OPEN.clAt (0 : Fin 4).val) then decide (200 < (150 : Nat)) else decide ((150 : Nat) < 100)))) ∧
    ((up.heldFor (if (true : Bool) then LEAKI.PEND_LEAK.clAt (0 : Fin 4).val else LEAKI.PEND_OPEN.clAt (0 : Fin 4).val) 20000 = false)) ∧
    ((({ (up.set (LEAKI.PEND_LEAK.clAt 0) 1) with clock := 20000 }).heldFor (LEAKI.PEND_LEAK.clAt (0 : Fin 4).val) 20000 = true) ∧ (({ (up.set (LEAKI.PEND_LEAK.clAt 0) 1) with clock := 20000 }).is (CLEAK.ALARM.clAt (0 : Fin 4).val) = true)) ∧
    ((({ (up.set (LEAKI.PEND_OPEN.clAt 0) 1) with clock := 20000 }).heldFor (LEAKI.PEND_OPEN.clAt (0 : Fin 4).val) 20000 = true) ∧ (({ (up.set (LEAKI.PEND_OPEN.clAt 0) 1) with clock := 20000 }).is (CLEAK.OPEN.clAt (0 : Fin 4).val) = true)) ∧
    ((({ ((up.set (LEAKI.PEND_LEAK.clAt 0) 1).set (CLEAK.ALARM.clAt 0) 0) with clock := 20000 }).heldFor (LEAKI.PEND_LEAK.clAt (0 : Fin 4).val) 20000 = true) ∧ (({ ((up.set (LEAKI.PEND_LEAK.clAt 0) 1).set (CLEAK.ALARM.clAt 0) 0) with clock := 20000 }).is (CLEAK.ALARM.clAt (0 : Fin 4).val) = false) ∧ (({ ((up.set (LEAKI.PEND_LEAK.clAt 0) 1).set (CLEAK.ALARM.clAt 0) 0) with clock := 20000 }).is (CLEAK.RELEASED.clAt (0 : Fin 4).val) = false)) ∧
    ((({ ((up.set (LEAKI.PEND_OPEN.clAt 0) 1).set (CLEAK.OPEN.clAt 0) 0) with clock := 20000 }).heldFor (LEAKI.PEND_OPEN.clAt (0 : Fin 4).val) 20000 = true) ∧ (({ ((up.set (LEAKI.PEND_OPEN.clAt 0) 1).set (CLEAK.OPEN.clAt 0) 0) with clock := 20000 }).is (CLEAK.OPEN.clAt (0 : Fin 4).val) = false) ∧ (({ ((up.set (LEAKI.PEND_OPEN.clAt 0) 1).set (CLEAK.OPEN.clAt 0) 0) with clock := 20000 }).is (CLEAK.RELEASED.clAt (0 : Fin 4).val) = false)) ∧
    ((({ (((up.set (LEAKI.PEND_LEAK.clAt 0) 1).set (CLEAK.ALARM.clAt 0) 0).set (CLEAK.RELEASED.clAt 0) 1) with clock := 20000 }).heldFor (LEAKI.PEND_LEAK.clAt (0 : Fin 4).val) 20000 = true) ∧ (({ (((up.set (LEAKI.PEND_LEAK.clAt 0) 1).set (CLEAK.ALARM.clAt 0) 0).set (CLEAK.RELEASED.clAt 0) 1) with clock := 20000 }).is (CLEAK.ALARM.clAt (0 : Fin 4).val) = false) ∧ (({ (((up.set (LEAKI.PEND_LEAK.clAt 0) 1).set (CLEAK.ALARM.clAt 0) 0).set (CLEAK.RELEASED.clAt 0) 1) with clock := 20000 }).is (CLEAK.RELEASED.clAt (0 : Fin 4).val) = true)) ∧
    ((({ (((up.set (LEAKI.PEND_OPEN.clAt 0) 1).set (CLEAK.OPEN.clAt 0) 0).set (CLEAK.RELEASED.clAt 0) 1) with clock := 20000 }).heldFor (LEAKI.PEND_OPEN.clAt (0 : Fin 4).val) 20000 = true) ∧ (({ (((up.set (LEAKI.PEND_OPEN.clAt 0) 1).set (CLEAK.OPEN.clAt 0) 0).set (CLEAK.RELEASED.clAt 0) 1) with clock := 20000 }).is (CLEAK.OPEN.clAt (0 : Fin 4).val) = false) ∧ (({ (((up.set (LEAKI.PEND_OPEN.clAt 0) 1).set (CLEAK.OPEN.clAt 0) 0).set (CLEAK.RELEASED.clAt 0) 1) with clock := 20000 }).is (CLEAK.RELEASED.clAt (0 : Fin 4).val) = true)) ∧
    ((([0, 1] : List Nat) = (List.range 4).filter (fun n => ({ ((up.set CFAN.LK_FIT.cl 3).set LEAKI.SETTLE_SINCE.cl 1) with clock := 2000000 }).bit CFAN.LK_FIT.cl n && !({ ((up.set CFAN.LK_FIT.cl 3).set LEAKI.SETTLE_SINCE.cl 1) with clock := 2000000 }).is (CLEAK.RELEASED.clAt n))) ∧ (([0, 1] : List Nat) ≠ []) ∧ (({ ((up.set CFAN.LK_FIT.cl 3).set LEAKI.SETTLE_SINCE.cl 1) with clock := 2000000 }).get COOLI.RELEASED.cl ≠ 1) ∧ (({ ((up.set CFAN.LK_FIT.cl 3).set LEAKI.SETTLE_SINCE.cl 1) with clock := 2000000 }).heldFor LEAKI.SETTLE_SINCE.cl ({ ((up.set CFAN.LK_FIT.cl 3).set LEAKI.SETTLE_SINCE.cl 1) with clock := 2000000 }).leakSettle = true)) ∧
    (((∀ n < 4, up.bit CFAN.LK_FIT.cl n = true → up.is (CLEAK.RELEASED.clAt n) = true) ∨ up.get COOLI.RELEASED.cl = 1 ∨ up.heldFor LEAKI.SETTLE_SINCE.cl up.leakSettle = false)) ∧
    (((up.set CFAN.LK_FIT.cl 3).bit CFAN.LK_FIT.cl (0 : Fin 4).val = true) ∧ ((up.set CFAN.LK_FIT.cl 3).get CLEAK.LEAK_WARN.cl ≤ (65535 : Nat) ∨ false = true)) ∧
    ((((up.set CFAN.LK_FIT.cl 3).set (LEAKI.BELOW.clAt 0) 9).bit CFAN.LK_FIT.cl (0 : Fin 4).val = true) ∧ ((1 : Nat) < ((up.set CFAN.LK_FIT.cl 3).set (LEAKI.BELOW.clAt 0) 9).get CLEAK.LEAK_WARN.cl) ∧ (9 ≤ ((up.set CFAN.LK_FIT.cl 3).set (LEAKI.BELOW.clAt 0) 9).get (LEAKI.BELOW.clAt (0 : Fin 4).val))) ∧
    (((up.set CFAN.LK_FIT.cl 3).bit CFAN.LK_FIT.cl (0 : Fin 4).val = true) ∧ ((1 : Nat) < (up.set CFAN.LK_FIT.cl 3).get CLEAK.LEAK_WARN.cl) ∧ ((up.set CFAN.LK_FIT.cl 3).get (LEAKI.BELOW.clAt (0 : Fin 4).val) < 9)) :=
  by and_intros <;> decide +kernel

theorem test_hypotheses_of_SuppliesPinsAndSidebandFollowTheirRules :
    (up.get POWI.SUPPLIES.cl ≠ 0xF) ∧
    (((State.reset.set POWI.SUPPLIES.cl 15).get POWI.SUPPLIES.cl = 0xF)) ∧
    ((up.get RECI.RUNS.cl ≠ 0) ∧ (up.is POWI.SLOT_LATCHED.cl = false)) ∧
    ((State.reset.get RECI.RUNS.cl = 0 ∨ State.reset.is POWI.SLOT_LATCHED.cl = true)) ∧
    (((7 : Fin 9).val < 8) ∧ (on.inReset (7 : Fin 9).val = false)) ∧
    (((8 : Fin 9).val = 8 ∨ on.inReset (8 : Fin 9).val = true)) ∧
    (((on.set (DCLK.TILE_LOCK.on 0) 1).inReset (0 : DieNo).val = false) ∧ ((on.set (DCLK.TILE_LOCK.on 0) 1).bit (DCLK.TILE_LOCK.on (0 : DieNo).val) 0 = true)) ∧
    (((on.set (DCLK.HBM_LOCK.on 0) 1).inReset (0 : DieNo).val = false) ∧ ((on.set (DCLK.HBM_LOCK.on 0) 1).bit (DCLK.HBM_LOCK.on (0 : DieNo).val) 0 = true)) ∧
    (((on.set (DCLK.WARDEN_LOCK.on 0) 1).inReset (0 : DieNo).val = false) ∧ ((on.set (DCLK.WARDEN_LOCK.on 0) 1).bit (DCLK.WARDEN_LOCK.on (0 : DieNo).val) 0 = true)) ∧
    (((on.set (DCLK.PCIE_LOCK.on 0) 1).inReset (0 : DieNo).val = false) ∧ ((on.set (DCLK.PCIE_LOCK.on 0) 1).bit (DCLK.PCIE_LOCK.on (0 : DieNo).val) 0 = true)) ∧
    ((1 ≤ (6 : Fin 11).val ∧ (6 : Fin 11).val ≤ 6) ∧ ((on.set (DCLK.LG_LOCK.on 0) 63).inReset (0 : DieNo).val = false) ∧ ((on.set (DCLK.LG_LOCK.on 0) 63).bit (DCLK.LG_LOCK.on (0 : DieNo).val) ((6 : Fin 11).val - 1) = true)) ∧
    (((on.set (HMBX.PLL_READY.on 0) 1).inReset (0 : DieNo).val = false) ∧ ((on.set (HMBX.PLL_READY.on 0) 1).bit (HMBX.PLL_READY.on (0 : DieNo).val) 0 = true)) ∧
    ((on.inReset (0 : DieNo).val = true ∨ on.bit (pllLock (0 : DieNo).val (0 : Fin 11).val).1 (pllLock (0 : DieNo).val (0 : Fin 11).val).2 = false)) ∧
    ((up.set CSB.ENABLE.cl 0).bit CSB.ENABLE.cl (0 : DieNo).val = false) ∧
    (((up.set CSB.ENABLE.cl 255).bit CSB.ENABLE.cl (0 : DieNo).val = true)) ∧
    (((up.set CSB.ENABLE.cl 255).bit CSB.ENABLE.cl (0 : DieNo).val = true) ∧ ((up.set CSB.ENABLE.cl 255).get (POWI.SB_FAILS.clAt (0 : DieNo).val) < 3)) ∧
    ((((up.set CSB.ENABLE.cl 255).set (POWI.SB_FAILS.clAt 0) 3).bit CSB.ENABLE.cl (0 : DieNo).val = true) ∧ (3 ≤ ((up.set CSB.ENABLE.cl 255).set (POWI.SB_FAILS.clAt 0) 3).get (POWI.SB_FAILS.clAt (0 : DieNo).val))) ∧
    (((up.set CCLK.CORE_LOCK.cl 0).get CCLK.CORE_LOCK.cl = 0)) ∧
    (((up.set CCLK.CORE_LOCK.cl 1).get CCLK.CORE_LOCK.cl ≠ 0)) :=
  by and_intros <;> decide +kernel

theorem test_hypotheses_of_RailsFollowTheSequencer :
    (((up.set COOLI.RELEASED.cl 1).Reaches clachasel SEQ.page SEQ.MAIN_ON 0 (1 : Requester)) ∧ ((up.set COOLI.RELEASED.cl 1).mayPower = true) ∧ ((up.set COOLI.RELEASED.cl 1).get SEQ.MAIN.cl = 0)) ∧
    ((up.Reaches clachasel SEQ.page SEQ.MAIN_ON 0 (1 : Requester)) ∧ (up.mayPower = false ∨ up.get SEQ.MAIN.cl ≠ 0)) ∧
    (up.Reaches clachasel SEQ.page SEQ.MAIN_OFF 0 (1 : Requester)) ∧
    (((up.set COOLI.RELEASED.cl 1).Reaches clachasel SEQ.page SEQ.UP 0 (1 : Requester)) ∧ ((up.set COOLI.RELEASED.cl 1).mayPower = true)) ∧
    ((up.Reaches clachasel SEQ.page SEQ.UP 0 (1 : Requester)) ∧ (up.mayPower = false)) ∧
    ((up.Reaches clachasel SEQ.page SEQ.DOWN 0 (1 : Requester)) ∧ ((∀ n ∈ diesOf (up.get SEQ.DIE_MASK.cl), up.tripped n = true))) ∧
    (((on.set SEQ.DIE_MASK.cl 1).Reaches clachasel SEQ.page SEQ.DOWN 0 (1 : Requester)) ∧ ((0 : Nat) ∈ diesOf ((on.set SEQ.DIE_MASK.cl 1).get SEQ.DIE_MASK.cl)) ∧ ((on.set SEQ.DIE_MASK.cl 1).tripped (0 : Nat) = false)) ∧
    (up.Reaches clachasel SEQ.page SEQ.SETPT_OK 0 (1 : Requester)) ∧
    (up.dieState (0 : DieNo).val ≠ 1 ∨ up.get (RAILI.STEP.clAt (0 : DieNo).val) = 0 ∨ up.get (RAILI.STEP.clAt (0 : DieNo).val) = 3) ∧
    ((((up.setDieState 0 1).set (RAILI.STEP.clAt 0) 1).dieState (0 : DieNo).val = 1) ∧ (((up.setDieState 0 1).set (RAILI.STEP.clAt 0) 1).get (RAILI.STEP.clAt (0 : DieNo).val) = 1)) ∧
    ((((up.setDieState 0 1).set (RAILI.STEP.clAt 0) 4).dieState (0 : DieNo).val = 1) ∧ (((up.setDieState 0 1).set (RAILI.STEP.clAt 0) 4).get (RAILI.STEP.clAt (0 : DieNo).val) ∉ [0, 1, 2, 3, 8])) ∧
    ((((up.setDieState 0 1).set (RAILI.STEP.clAt 0) 2).dieState (0 : DieNo).val = 1) ∧ (((up.setDieState 0 1).set (RAILI.STEP.clAt 0) 2).get (RAILI.STEP.clAt (0 : DieNo).val) = 2)) ∧
    ((((up.setDieState 0 1).set (RAILI.STEP.clAt 0) 8).dieState (0 : DieNo).val = 1) ∧ (((up.setDieState 0 1).set (RAILI.STEP.clAt 0) 8).get (RAILI.STEP.clAt (0 : DieNo).val) = 8)) ∧
    (up.dieState (0 : DieNo).val ≠ 3) ∧
    (((up.setDieState 0 3).dieState (0 : DieNo).val = 3)) ∧
    ((((up.setDieState 0 1).set (RAILI.STEP.clAt 0) 1).dieState (0 : DieNo).val = 1) ∧ (((up.setDieState 0 1).set (RAILI.STEP.clAt 0) 1).get (RAILI.STEP.clAt (0 : DieNo).val) ≠ 0) ∧ (((up.setDieState 0 1).set (RAILI.STEP.clAt 0) 1).get (RAILI.STEP.clAt (0 : DieNo).val) ≠ 3)) ∧
    ((up.dieState (0 : DieNo).val ≠ 1 ∨ up.get (RAILI.STEP.clAt (0 : DieNo).val) = 0 ∨ up.get (RAILI.STEP.clAt (0 : DieNo).val) = 3)) ∧
    ((((up.setDieState 0 1).set (RAILI.STEP.clAt 0) 3).dieState (0 : DieNo).val = 1) ∧ (((up.setDieState 0 1).set (RAILI.STEP.clAt 0) 3).get (RAILI.STEP.clAt (0 : DieNo).val) = 3)) ∧
    ((up.dieState (0 : DieNo).val ≠ 1 ∨ up.get (RAILI.STEP.clAt (0 : DieNo).val) ≠ 3)) ∧
    ((up.set (RAILI.PG.clAt 0) 511).bit (RAILI.PG.clAt (0 : DieNo).val) (0 : Fin 9).val = true) ∧
    (up.bit (RAILI.PG.clAt (0 : DieNo).val) (0 : Fin 9).val = false) ∧
    ((up.set SEQ.MAIN.cl 2).get SEQ.MAIN.cl = 2) ∧
    ((up.get SEQ.MAIN.cl ≠ 2)) ∧
    ((up.set SEQ.MAIN.cl 1).get SEQ.MAIN.cl = 1) ∧
    ((up.get SEQ.MAIN.cl ≠ 1)) :=
  by and_intros <;> decide +kernel

theorem test_hypotheses_of_PowerFailureTrayStateAndTrayReset :
    ((up.set PFAIL.PF_NOW.cl 1).is PFAIL.PF_NOW.cl = true) ∧
    (up.is PFAIL.PF_NOW.cl = false) ∧
    (up.is PFAIL.PF_NOW.cl = false) ∧
    (((up.set PFAIL.PF_NOW.cl 1).is PFAIL.PF_NOW.cl = true)) ∧
    ((0 : BitVec 8).toNat ≤ up.get HLS.IIN_TRIP.cl) ∧
    ((up.set HLS.IIN_TRIP.cl 20).get HLS.IIN_TRIP.cl < (255 : BitVec 8).toNat) ∧
    (((((up.set CSYS.TRAY_STATE.cl 2).set SEQ.MAIN.cl 2).set SEQ.DIE_STATE.cl 0o22222222).Reaches clachasel CSYS.page CSYS.TRANS_REQ 0 (4 : Requester)) ∧ ((((up.set CSYS.TRAY_STATE.cl 2).set SEQ.MAIN.cl 2).set SEQ.DIE_STATE.cl 0o22222222).transAllowed (3 : BitVec 3).toNat = true) ∧ ((3 : BitVec 3).toNat ≠ 2)) ∧
    ((((up.set CSYS.TRAY_STATE.cl 1).set CSYS.CORE_READY.cl 15).Reaches clachasel CSYS.page CSYS.TRANS_REQ 0 (4 : Requester)) ∧ (((up.set CSYS.TRAY_STATE.cl 1).set CSYS.CORE_READY.cl 15).transAllowed 2 = true)) ∧
    ((up.Reaches clachasel CSYS.page CSYS.TRANS_REQ 0 (4 : Requester)) ∧ (up.transAllowed (0 : BitVec 3).toNat = false)) ∧
    (up.Reaches clachasel CSYS.page CSYS.ARM 0 (32 : Requester)) ∧
    ((({ up.set RAILI.TRAY_RESETTING.cl 1 with armed := [(32, 5)], clock := 1005 }).Reaches clachasel CSYS.page CSYS.FIRE 0 (32 : Requester)) ∧ (aget ({ up.set RAILI.TRAY_RESETTING.cl 1 with armed := [(32, 5)], clock := 1005 }).armed (32 : Requester).val = some (5 : Nat)) ∧ (({ up.set RAILI.TRAY_RESETTING.cl 1 with armed := [(32, 5)], clock := 1005 }).clock ≤ (5 : Nat) + 1000) ∧ (({ up.set RAILI.TRAY_RESETTING.cl 1 with armed := [(32, 5)], clock := 1005 }).is RAILI.TRAY_RESETTING.cl = true ∨ ({ up.set RAILI.TRAY_RESETTING.cl 1 with armed := [(32, 5)], clock := 1005 }).get RAILI.RESET_AT.cl = ({ up.set RAILI.TRAY_RESETTING.cl 1 with armed := [(32, 5)], clock := 1005 }).clock + 1)) ∧
    ((({ up with armed := [(32, 5)], clock := 1005 }).Reaches clachasel CSYS.page CSYS.FIRE 0 (32 : Requester)) ∧ (aget ({ up with armed := [(32, 5)], clock := 1005 }).armed (32 : Requester).val = some (5 : Nat)) ∧ (({ up with armed := [(32, 5)], clock := 1005 }).clock ≤ (5 : Nat) + 1000) ∧ (({ up with armed := [(32, 5)], clock := 1005 }).is RAILI.TRAY_RESETTING.cl = false) ∧ (({ up with armed := [(32, 5)], clock := 1005 }).get RAILI.RESET_AT.cl ≠ ({ up with armed := [(32, 5)], clock := 1005 }).clock + 1)) ∧
    ((up.Reaches clachasel CSYS.page CSYS.FIRE 0 (32 : Requester)) ∧ (aget up.armed (32 : Requester).val = none ∨ up.armOpen (32 : Requester).val = false)) :=
  by and_intros <;> decide +kernel

theorem test_hypotheses_of_CoresStartAndRestartAsTheSpecSays :
    ((up.get CSYS.TRAY_STATE.cl ≠ 1 ∨ up.get CSYS.BUNDLE_OK.cl = 0 ∨ up.get COOLI.RELEASED.cl = 1 ∨ up.is COOLI.UNPROVEN.cl = true ∨ up.is RAILI.TRAY_RESETTING.cl = true ∨ (∃ n < 4, up.bit CFAN.LK_FIT.cl n = true ∧ up.is (CLEAK.RELEASED.clAt n) = false))) ∧
    (((((up.set CSYS.TRAY_STATE.cl 1).set CSYS.BUNDLE_OK.cl 1).set CFAN.LK_FIT.cl 0).get CSYS.TRAY_STATE.cl = 1) ∧ ((((up.set CSYS.TRAY_STATE.cl 1).set CSYS.BUNDLE_OK.cl 1).set CFAN.LK_FIT.cl 0).get CSYS.BUNDLE_OK.cl ≠ 0) ∧ ((((up.set CSYS.TRAY_STATE.cl 1).set CSYS.BUNDLE_OK.cl 1).set CFAN.LK_FIT.cl 0).get COOLI.RELEASED.cl ≠ 1) ∧ ((((up.set CSYS.TRAY_STATE.cl 1).set CSYS.BUNDLE_OK.cl 1).set CFAN.LK_FIT.cl 0).is COOLI.UNPROVEN.cl = false) ∧ ((((up.set CSYS.TRAY_STATE.cl 1).set CSYS.BUNDLE_OK.cl 1).set CFAN.LK_FIT.cl 0).is RAILI.TRAY_RESETTING.cl = false) ∧ ((∀ n < 4, (((up.set CSYS.TRAY_STATE.cl 1).set CSYS.BUNDLE_OK.cl 1).set CFAN.LK_FIT.cl 0).bit CFAN.LK_FIT.cl n = true → (((up.set CSYS.TRAY_STATE.cl 1).set CSYS.BUNDLE_OK.cl 1).set CFAN.LK_FIT.cl 0).is (CLEAK.RELEASED.clAt n) = true))) ∧
    (((up.set (MCCTL.RUNNING.clAt 0) 1).mcRuns (0 : McNo).val = true) ∧ ((0 : McNo).val ≠ 1 ∨ Nat.land (up.set (MCCTL.RUNNING.clAt 0) 1).mc1Sensors ((up.set (MCCTL.RUNNING.clAt 0) 1).get TEMPI.FED.cl) = (up.set (MCCTL.RUNNING.clAt 0) 1).mc1Sensors)) ∧
    ((up.mcRuns (0 : McNo).val = false ∨ (0 : McNo).val = 1 ∧ Nat.land up.mc1Sensors (up.get TEMPI.FED.cl) ≠ up.mc1Sensors)) ∧
    ((((up.set COOLI.RELEASED.cl 1).set CSYS.TRAY_STATE.cl 1).get COOLI.RELEASED.cl ≠ 0) ∧ (((up.set COOLI.RELEASED.cl 1).set CSYS.TRAY_STATE.cl 1).get CSYS.TRAY_STATE.cl = 1) ∧ (((up.set COOLI.RELEASED.cl 1).set CSYS.TRAY_STATE.cl 1).get CSYS.CORE_READY.cl ≠ 0xF)) ∧
    ((up.get COOLI.RELEASED.cl = 0 ∨ up.get CSYS.TRAY_STATE.cl ≠ 1 ∨ up.get CSYS.CORE_READY.cl = 0xF)) ∧
    (((up.set RAILI.READY_WAIT.cl 255).bit RAILI.READY_WAIT.cl (0 : DieNo).val = true) ∧ ((up.set RAILI.READY_WAIT.cl 255).bit CSYS.DIE_READY.cl (0 : DieNo).val = false)) ∧
    ((up.bit RAILI.READY_WAIT.cl (0 : DieNo).val = false ∨ up.bit CSYS.DIE_READY.cl (0 : DieNo).val = true)) ∧
    ((((up.set (MCCTL.RUNNING.clAt 0) 1).set (MCCTL.WDT_REMAIN.clAt 0) 5).Reaches clachasel MCCTL.page MCCTL.WDT_KICK (0 : McNo).val (1 : Requester)) ∧ (((up.set (MCCTL.RUNNING.clAt 0) 1).set (MCCTL.WDT_REMAIN.clAt 0) 5).mcRuns (0 : McNo).val = true) ∧ (((up.set (MCCTL.RUNNING.clAt 0) 1).set (MCCTL.WDT_REMAIN.clAt 0) 5).watchLeft (watchMc (0 : McNo).val) ≠ 0)) ∧
    ((up.Reaches clachasel MCCTL.page MCCTL.WDT_KICK (0 : McNo).val (1 : Requester)) ∧ (up.mcRuns (0 : McNo).val = false ∨ up.watchLeft (watchMc (0 : McNo).val) = 0)) ∧
    ((((on.set (WLOAD.W0_RUN.on 0) 1).set (WCORE.WDT_REMAIN.at 0 0) 5).Reaches (0 : DieNo).val WCORE.page WCORE.WDT_KICK (0 : Fin 2).val (0 : Requester)) ∧ (((on.set (WLOAD.W0_RUN.on 0) 1).set (WCORE.WDT_REMAIN.at 0 0) 5).is (wRun (0 : DieNo).val (0 : Fin 2).val) = true) ∧ (((on.set (WLOAD.W0_RUN.on 0) 1).set (WCORE.WDT_REMAIN.at 0 0) 5).watchLeft (watchW (0 : DieNo).val (0 : Fin 2).val) ≠ 0)) ∧
    ((on.Reaches (0 : DieNo).val WCORE.page WCORE.WDT_KICK (0 : Fin 2).val (0 : Requester)) ∧ (on.is (wRun (0 : DieNo).val (0 : Fin 2).val) = false ∨ on.watchLeft (watchW (0 : DieNo).val (0 : Fin 2).val) = 0)) ∧
    ((up.Reaches clachasel MCCTL.page MCCTL.WDT_KICK (0 : McNo).val (1 : Requester)) ∧ ((0 : BitVec 16).toNat ≠ 0xA5C3)) ∧
    ((on.Reaches (0 : DieNo).val WCORE.page WCORE.WDT_KICK (0 : Fin 2).val (0 : Requester)) ∧ ((0 : BitVec 16).toNat ≠ 0xA5C3)) ∧
    (((up.set COOLI.RELEASED.cl 1).mcRuns (0 : McNo).val = false) ∧ ((up.set COOLI.RELEASED.cl 1).is (MCCTL.HELD.clAt (0 : McNo).val) = false) ∧ ((up.set COOLI.RELEASED.cl 1).get COOLI.RELEASED.cl ≠ 0) ∧ ((up.set COOLI.RELEASED.cl 1).is FWI.START_HELD.cl = false) ∧ ((up.set COOLI.RELEASED.cl 1).is RAILI.TRAY_RESETTING.cl = false)) ∧
    ((up.mcRuns (0 : McNo).val = true ∨ up.is (MCCTL.HELD.clAt (0 : McNo).val) = true ∨ up.get COOLI.RELEASED.cl = 0 ∨ up.is FWI.START_HELD.cl = true ∨ up.is RAILI.TRAY_RESETTING.cl = true)) ∧
    (((on.set (FWI.RELEASED.at 0 0) 1).is (wRun (0 : DieNo).val (0 : Fin 2).val) = false) ∧ ((on.set (FWI.RELEASED.at 0 0) 1).is (wHeld (0 : DieNo).val (0 : Fin 2).val) = false) ∧ ((on.set (FWI.RELEASED.at 0 0) 1).is (FWI.RELEASED.at (0 : DieNo).val (0 : Fin 2).val) = true)) ∧
    ((on.is (wRun (0 : DieNo).val (0 : Fin 2).val) = true ∨ on.is (wHeld (0 : DieNo).val (0 : Fin 2).val) = true ∨ on.is (FWI.RELEASED.at (0 : DieNo).val (0 : Fin 2).val) = false)) ∧
    (on.inReset (0 : DieNo).val = false) ∧
    (up.inReset (0 : DieNo).val = true) :=
  by and_intros <;> decide +kernel

theorem test_hypotheses_of_BundleAndWardenImagesLoad :
    ((((up.set CSYS.TRAY_STATE.cl 1).set BLOAD.LEN.cl 1).Reaches clachasel BLOAD.page BLOAD.FETCH 0 (1 : Requester)) ∧ (((up.set CSYS.TRAY_STATE.cl 1).set BLOAD.LEN.cl 1).loadOpen = true) ∧ (0 < ((up.set CSYS.TRAY_STATE.cl 1).set BLOAD.LEN.cl 1).get BLOAD.LEN.cl) ∧ (((up.set CSYS.TRAY_STATE.cl 1).set BLOAD.LEN.cl 1).get BLOAD.LEN.cl ≤ 16777216)) ∧
    (((up.set CSYS.TRAY_STATE.cl 2).Reaches clachasel BLOAD.page BLOAD.FETCH 0 (1 : Requester)) ∧ ((up.set CSYS.TRAY_STATE.cl 2).loadOpen = false ∨ (up.set CSYS.TRAY_STATE.cl 2).get BLOAD.LEN.cl = 0 ∨ 16777216 < (up.set CSYS.TRAY_STATE.cl 2).get BLOAD.LEN.cl)) ∧
    ((up.set BLOAD.FETCHING.cl 1).is BLOAD.FETCHING.cl = true) ∧
    (((up.set BLOAD.FETCHING.cl 1).is BLOAD.FETCHING.cl = true)) ∧
    ((up.is BLOAD.FETCHING.cl = false)) ∧
    (((up.set CSYS.TRAY_STATE.cl 1).Reaches clachasel BLOAD.page BLOAD.CHECK 0 (1 : Requester)) ∧ ((up.set CSYS.TRAY_STATE.cl 1).loadOpen = true) ∧ ((up.set CSYS.TRAY_STATE.cl 1).is BLOAD.FETCHING.cl = false) ∧ ((up.set CSYS.TRAY_STATE.cl 1).is BLOAD.CHECKING.cl = false)) ∧
    (((up.set CSYS.TRAY_STATE.cl 2).Reaches clachasel BLOAD.page BLOAD.CHECK 0 (1 : Requester)) ∧ ((up.set CSYS.TRAY_STATE.cl 2).loadOpen = false ∨ (up.set CSYS.TRAY_STATE.cl 2).is BLOAD.FETCHING.cl = true ∨ (up.set CSYS.TRAY_STATE.cl 2).is BLOAD.CHECKING.cl = true)) ∧
    ((({ (up.set BLOAD.CHECKING.cl 1) with staged := some okBundle }).is BLOAD.CHECKING.cl = true) ∧ (({ (up.set BLOAD.CHECKING.cl 1) with staged := some okBundle }).staged = some (okBundle : Bundle)) ∧ ((({ (up.set BLOAD.CHECKING.cl 1) with staged := some okBundle }).set BLOAD.CHECKING.cl 0).verdict (okBundle : Bundle) = 1)) ∧
    ((({ (up.set BLOAD.CHECKING.cl 1) with staged := some { okBundle with sigOk := false } }).is BLOAD.CHECKING.cl = true) ∧ (({ (up.set BLOAD.CHECKING.cl 1) with staged := some { okBundle with sigOk := false } }).staged = some (({ okBundle with sigOk := false }) : Bundle)) ∧ ((({ (up.set BLOAD.CHECKING.cl 1) with staged := some { okBundle with sigOk := false } }).set BLOAD.CHECKING.cl 0).verdict (({ okBundle with sigOk := false }) : Bundle) ≠ 1)) ∧
    (((up.set BLOAD.CHECKING.cl 1).is BLOAD.CHECKING.cl = true) ∧ ((up.set BLOAD.CHECKING.cl 1).staged = none)) ∧
    ((up.is BLOAD.CHECKING.cl = false)) ∧
    ((on.Reaches (0 : DieNo).val WLOAD.page WLOAD.IMG_DATA 0 (1 : Requester)) ∧ (on.is (FWI.RELEASED.at (0 : DieNo).val (on.get (WLOAD.IMG_SEL.on (0 : DieNo).val))) = false) ∧ (on.get (WLOAD.IMG_ADDR.on (0 : DieNo).val) < 0x40000)) ∧
    (((on.set (FWI.RELEASED.at 0 0) 1).Reaches (0 : DieNo).val WLOAD.page WLOAD.IMG_DATA 0 (1 : Requester)) ∧ ((on.set (FWI.RELEASED.at 0 0) 1).is (FWI.RELEASED.at (0 : DieNo).val ((on.set (FWI.RELEASED.at 0 0) 1).get (WLOAD.IMG_SEL.on (0 : DieNo).val))) = true ∨ 0x40000 ≤ (on.set (FWI.RELEASED.at 0 0) 1).get (WLOAD.IMG_ADDR.on (0 : DieNo).val))) ∧
    ((on.Reaches (0 : DieNo).val WLOAD.page (wRelease (0 : Fin 2).val) 0 (1 : Requester)) ∧ (on.is (FWI.RELEASED.at (0 : DieNo).val (0 : Fin 2).val) = false) ∧ (on.sramWord (0 : DieNo).val (0 : Fin 2).val 0 ≠ 0x474D4941 ∨ on.sramWord (0 : DieNo).val (0 : Fin 2).val 3 < 64 ∨ 262144 < on.sramWord (0 : DieNo).val (0 : Fin 2).val 3 ∨ on.sramWord (0 : DieNo).val (0 : Fin 2).val 3 ≤ on.sramWord (0 : DieNo).val (0 : Fin 2).val 1)) ∧
    (((on.set (FWI.RELEASED.at 0 0) 1).Reaches (0 : DieNo).val WLOAD.page (wRelease (0 : Fin 2).val) 0 (1 : Requester)) ∧ ((on.set (FWI.RELEASED.at 0 0) 1).is (FWI.RELEASED.at (0 : DieNo).val (0 : Fin 2).val) = true)) ∧
    (((((on.setSram 0 0 0 0x474D4941).setSram 0 0 3 64).setSram 0 0 1 4).Reaches (0 : DieNo).val WLOAD.page (wRelease 0) 0 (1 : Requester)) ∧ ((((on.setSram 0 0 0 0x474D4941).setSram 0 0 3 64).setSram 0 0 1 4).is (FWI.RELEASED.at (0 : DieNo).val 0) = false) ∧ ((((on.setSram 0 0 0 0x474D4941).setSram 0 0 3 64).setSram 0 0 1 4).sramWord (0 : DieNo).val 0 0 = 0x474D4941) ∧ (64 ≤ (((on.setSram 0 0 0 0x474D4941).setSram 0 0 3 64).setSram 0 0 1 4).sramWord (0 : DieNo).val 0 3) ∧ ((((on.setSram 0 0 0 0x474D4941).setSram 0 0 3 64).setSram 0 0 1 4).sramWord (0 : DieNo).val 0 3 ≤ 262144) ∧ ((((on.setSram 0 0 0 0x474D4941).setSram 0 0 3 64).setSram 0 0 1 4).sramWord (0 : DieNo).val 0 1 < (((on.setSram 0 0 0 0x474D4941).setSram 0 0 3 64).setSram 0 0 1 4).sramWord (0 : DieNo).val 0 3)) ∧
    (((((on.setSram 0 1 0 0x474D4941).setSram 0 1 3 64).setSram 0 1 1 4).Reaches (0 : DieNo).val WLOAD.page (wRelease 1) 0 (1 : Requester)) ∧ ((((on.setSram 0 1 0 0x474D4941).setSram 0 1 3 64).setSram 0 1 1 4).is (FWI.RELEASED.at (0 : DieNo).val 1) = false) ∧ ((((on.setSram 0 1 0 0x474D4941).setSram 0 1 3 64).setSram 0 1 1 4).sramWord (0 : DieNo).val 1 0 = 0x474D4941) ∧ (64 ≤ (((on.setSram 0 1 0 0x474D4941).setSram 0 1 3 64).setSram 0 1 1 4).sramWord (0 : DieNo).val 1 3) ∧ ((((on.setSram 0 1 0 0x474D4941).setSram 0 1 3 64).setSram 0 1 1 4).sramWord (0 : DieNo).val 1 3 ≤ 262144) ∧ ((((on.setSram 0 1 0 0x474D4941).setSram 0 1 3 64).setSram 0 1 1 4).sramWord (0 : DieNo).val 1 1 < (((on.setSram 0 1 0 0x474D4941).setSram 0 1 3 64).setSram 0 1 1 4).sramWord (0 : DieNo).val 1 3)) :=
  by and_intros <;> decide +kernel

theorem test_hypotheses_of_TheEmulatedPageTakesAndServesCommands :
    (((up.set EMU.SERVED.cl 1).inReset clachasel = false) ∧ ((up.set EMU.SERVED.cl 1).is EMU.SERVED.cl = true) ∧ ((up.set EMU.SERVED.cl 1).writable clachasel EMU.page EMU.CMD 0 (48 : Requester).val = true) ∧ ((0 : Fin 32).val < 20) ∧ ((up.set EMU.SERVED.cl 1).bit EMU.PEND_MAP.cl (0 : Fin 32).val = false)) ∧
    (((up.set EMU.SERVED.cl 1).inReset clachasel = false) ∧ ((up.set EMU.SERVED.cl 1).is EMU.SERVED.cl = true) ∧ ((up.set EMU.SERVED.cl 1).writable clachasel EMU.page EMU.CMD 0 (48 : Requester).val = false ∨ 20 ≤ (20 : Fin 32).val ∨ (up.set EMU.SERVED.cl 1).bit EMU.PEND_MAP.cl (20 : Fin 32).val = true)) ∧
    ((up.inReset clachasel = false) ∧ (up.is EMU.SERVED.cl = false)) ∧
    ((up.set EMU.PEND_MAP.cl 1).bit EMU.PEND_MAP.cl (0 : Fin 20).val = true) ∧
    (up.bit EMU.PEND_MAP.cl (0 : Fin 20).val = false) ∧
    ((((up.set EMU.SERVED.cl 1).set CAL.TIME_LO.cl 1639).is EMU.STALE.cl = false) ∧ (((up.set EMU.SERVED.cl 1).set CAL.TIME_LO.cl 1639).is EMU.SERVED.cl = true) ∧ (((up.set EMU.SERVED.cl 1).set CAL.TIME_LO.cl 1639).pair EMU.PUB_TIME_LO.cl EMU.PUB_TIME_HI.cl * 1000 + 50 * 32768 < ((up.set EMU.SERVED.cl 1).set CAL.TIME_LO.cl 1639).trayTime * 1000)) ∧
    ((up.is EMU.STALE.cl = true ∨ up.is EMU.SERVED.cl = false ∨ up.trayTime * 1000 ≤ up.pair EMU.PUB_TIME_LO.cl EMU.PUB_TIME_HI.cl * 1000 + 50 * 32768)) ∧
    ((((serving 0 255).set CPUMP.FLOW_PROVEN.cl 1).CanServe 0 (⟨0, 255, 0, 0, 1⟩ : Posted)) ∧ (((serving 0 255).set CPUMP.FLOW_PROVEN.cl 1).get CSYS.TRAY_STATE.cl = 2 ∧ ((serving 0 255).set CPUMP.FLOW_PROVEN.cl 1).is CPUMP.FLOW_PROVEN.cl = true) ∧ ((⟨0, 255, 0, 0, 1⟩ : Posted).value % 256 = 0xFF)) ∧
    ((((serving 0 1).set CPUMP.FLOW_PROVEN.cl 1).CanServe 0 (⟨0, 1, 0, 0, 1⟩ : Posted)) ∧ (((serving 0 1).set CPUMP.FLOW_PROVEN.cl 1).get CSYS.TRAY_STATE.cl = 2 ∧ ((serving 0 1).set CPUMP.FLOW_PROVEN.cl 1).is CPUMP.FLOW_PROVEN.cl = true) ∧ ((⟨0, 1, 0, 0, 1⟩ : Posted).value % 256 ≠ 0xFF)) ∧
    ((((serving 1 1).set CSYS.TRAY_STATE.cl 3).CanServe 1 (⟨1, 1, 0, 0, 1⟩ : Posted)) ∧ ((((serving 1 1).set CSYS.TRAY_STATE.cl 3).get CSYS.TRAY_STATE.cl = 3 ∨ ((serving 1 1).set CSYS.TRAY_STATE.cl 3).get CSYS.TRAY_STATE.cl = 4) ∧ (∀ n < 8, ((serving 1 1).set CSYS.TRAY_STATE.cl 3).get (CTX.STATE.on n) = 0)) ∧ ((⟨1, 1, 0, 0, 1⟩ : Posted).value = 1)) ∧
    ((((serving 1 0).set CSYS.TRAY_STATE.cl 3).CanServe 1 (⟨1, 0, 0, 0, 1⟩ : Posted)) ∧ ((((serving 1 0).set CSYS.TRAY_STATE.cl 3).get CSYS.TRAY_STATE.cl = 3 ∨ ((serving 1 0).set CSYS.TRAY_STATE.cl 3).get CSYS.TRAY_STATE.cl = 4) ∧ (∀ n < 8, ((serving 1 0).set CSYS.TRAY_STATE.cl 3).get (CTX.STATE.on n) = 0)) ∧ ((⟨1, 0, 0, 0, 1⟩ : Posted).value ≠ 1)) ∧
    ((((serving 2 1).set CSYS.TRAY_STATE.cl 4).CanServe 2 (⟨2, 1, 0, 0, 1⟩ : Posted)) ∧ (((serving 2 1).set CSYS.TRAY_STATE.cl 4).get CSYS.TRAY_STATE.cl = 4) ∧ ((⟨2, 1, 0, 0, 1⟩ : Posted).value % 65536 ≠ 0 ∧ (⟨2, 1, 0, 0, 1⟩ : Posted).value % 65536 ≠ ((serving 2 1).set CSYS.TRAY_STATE.cl 4).get POWI.LAST_CTX.cl ∧ ((serving 2 1).set CSYS.TRAY_STATE.cl 4).get POWI.CTX_NUM.cl = 0)) ∧
    ((((serving 2 0).set CSYS.TRAY_STATE.cl 4).CanServe 2 (⟨2, 0, 0, 0, 1⟩ : Posted)) ∧ (((serving 2 0).set CSYS.TRAY_STATE.cl 4).get CSYS.TRAY_STATE.cl = 4) ∧ ((⟨2, 0, 0, 0, 1⟩ : Posted).value % 65536 = 0 ∨ (⟨2, 0, 0, 0, 1⟩ : Posted).value % 65536 = ((serving 2 0).set CSYS.TRAY_STATE.cl 4).get POWI.LAST_CTX.cl ∨ ((serving 2 0).set CSYS.TRAY_STATE.cl 4).get POWI.CTX_NUM.cl ≠ 0)) ∧
    ((((serving 3 65536).set CSYS.TRAY_STATE.cl 5).CanServe 3 (⟨3, 65536, 0, 0, 1⟩ : Posted)) ∧ (((serving 3 65536).set CSYS.TRAY_STATE.cl 5).get CSYS.TRAY_STATE.cl = 5) ∧ ((⟨3, 65536, 0, 0, 1⟩ : Posted).value % 65536 = ((serving 3 65536).set CSYS.TRAY_STATE.cl 5).get POWI.CTX_NUM.cl)) ∧
    ((((serving 3 1).set CSYS.TRAY_STATE.cl 5).CanServe 3 (⟨3, 1, 0, 0, 1⟩ : Posted)) ∧ (((serving 3 1).set CSYS.TRAY_STATE.cl 5).get CSYS.TRAY_STATE.cl = 5) ∧ ((⟨3, 1, 0, 0, 1⟩ : Posted).value % 65536 ≠ ((serving 3 1).set CSYS.TRAY_STATE.cl 5).get POWI.CTX_NUM.cl)) :=
  by and_intros <;> decide +kernel

theorem test_hypotheses_of_TheRecorderAdmitsDeliversAndReserves :
    ((State.reset.get RECI.RUNS.cl = 0)) ∧
    ((up.get RECI.RUNS.cl ≠ 0) ∧ (((.block) : Writer) = .block) ∧ ((16 : Fin 17).val = 16)) ∧
    ((up.get RECI.RUNS.cl ≠ 0) ∧ (((.block) : Writer) ≠ .block ∨ (15 : Fin 17).val ≠ 16) ∧ (writerMay ((.block) : Writer) (0 : BitVec 16).toNat = false)) ∧
    ((up.get RECI.RUNS.cl ≠ 0) ∧ (((.block) : Writer) ≠ .block ∨ (15 : Fin 17).val ≠ 16) ∧ (writerMay ((.block) : Writer) (0x3004 : BitVec 16).toNat = true)) ∧
    ((up.die (0 : DieNo).val).devq = []) ∧
    ((up.inReset (0 : DieNo).val = true ∨ up.bit CSB.ENABLE.cl (0 : DieNo).val = false ∨ up.is (CSB.DOWN.clAt (0 : DieNo).val) = true ∨ up.get RECI.RUNS.cl = 0 ∨ up.get EVREC.SCANNING.cl = 1)) ∧
    (((((scanned.onDie 0 (fun x => { x with devq := [⟨0x5000, 0, 0, 0, 0, 0⟩] })).set CSB.ENABLE.cl 255).die (0 : DieNo).val).devq = (⟨0x5000, 0, 0, 0, 0, 0⟩ : DieRec) :: ([] : List DieRec)) ∧ (((scanned.onDie 0 (fun x => { x with devq := [⟨0x5000, 0, 0, 0, 0, 0⟩] })).set CSB.ENABLE.cl 255).inReset (0 : DieNo).val = false) ∧ (((scanned.onDie 0 (fun x => { x with devq := [⟨0x5000, 0, 0, 0, 0, 0⟩] })).set CSB.ENABLE.cl 255).bit CSB.ENABLE.cl (0 : DieNo).val = true) ∧ (((scanned.onDie 0 (fun x => { x with devq := [⟨0x5000, 0, 0, 0, 0, 0⟩] })).set CSB.ENABLE.cl 255).is (CSB.DOWN.clAt (0 : DieNo).val) = false) ∧ (((scanned.onDie 0 (fun x => { x with devq := [⟨0x5000, 0, 0, 0, 0, 0⟩] })).set CSB.ENABLE.cl 255).get RECI.RUNS.cl ≠ 0) ∧ (((scanned.onDie 0 (fun x => { x with devq := [⟨0x5000, 0, 0, 0, 0, 0⟩] })).set CSB.ENABLE.cl 255).get EVREC.SCANNING.cl ≠ 1) ∧ ((⟨0x5000, 0, 0, 0, 0, 0⟩ : DieRec).code / 4096 ≠ 1 ∧ (⟨0x5000, 0, 0, 0, 0, 0⟩ : DieRec).code / 4096 ≠ 2)) ∧
    (((((scanned.onDie 0 (fun x => { x with devq := [⟨0x2001, 0, 0, 0, 0, 0⟩] })).set CSB.ENABLE.cl 255).die (0 : DieNo).val).devq = (⟨0x2001, 0, 0, 0, 0, 0⟩ : DieRec) :: ([] : List DieRec)) ∧ (((scanned.onDie 0 (fun x => { x with devq := [⟨0x2001, 0, 0, 0, 0, 0⟩] })).set CSB.ENABLE.cl 255).inReset (0 : DieNo).val = false) ∧ (((scanned.onDie 0 (fun x => { x with devq := [⟨0x2001, 0, 0, 0, 0, 0⟩] })).set CSB.ENABLE.cl 255).bit CSB.ENABLE.cl (0 : DieNo).val = true) ∧ (((scanned.onDie 0 (fun x => { x with devq := [⟨0x2001, 0, 0, 0, 0, 0⟩] })).set CSB.ENABLE.cl 255).is (CSB.DOWN.clAt (0 : DieNo).val) = false) ∧ (((scanned.onDie 0 (fun x => { x with devq := [⟨0x2001, 0, 0, 0, 0, 0⟩] })).set CSB.ENABLE.cl 255).get RECI.RUNS.cl ≠ 0) ∧ (((scanned.onDie 0 (fun x => { x with devq := [⟨0x2001, 0, 0, 0, 0, 0⟩] })).set CSB.ENABLE.cl 255).get EVREC.SCANNING.cl ≠ 1) ∧ ((⟨0x2001, 0, 0, 0, 0, 0⟩ : DieRec).code / 4096 = 1 ∨ (⟨0x2001, 0, 0, 0, 0, 0⟩ : DieRec).code / 4096 = 2)) ∧
    ((({ up with ring := [(0, ⟨.reserved 0, {}⟩)] }).Reaches clachasel EVWIN.page EVWIN.RESERVE (0 : McNo).val (1 : Requester)) ∧ ((({ up with ring := [(0, ⟨.reserved 0, {}⟩)] }).reservedBy (0 : McNo).val).isSome = true)) ∧
    ((up.Reaches clachasel EVWIN.page EVWIN.RESERVE (0 : McNo).val (1 : Requester)) ∧ (up.reservedBy (0 : McNo).val = none) ∧ (up.get (EVWIN.CODE.clAt (0 : McNo).val) / 4096 ≠ 3)) ∧
    ((((up.set (EVWIN.CODE.clAt 0) 0x3000).set EVREC.SCANNING.cl 1).Reaches clachasel EVWIN.page EVWIN.RESERVE (0 : McNo).val (1 : Requester)) ∧ (((up.set (EVWIN.CODE.clAt 0) 0x3000).set EVREC.SCANNING.cl 1).reservedBy (0 : McNo).val = none) ∧ (((up.set (EVWIN.CODE.clAt 0) 0x3000).set EVREC.SCANNING.cl 1).get (EVWIN.CODE.clAt (0 : McNo).val) / 4096 = 3) ∧ (((up.set (EVWIN.CODE.clAt 0) 0x3000).set EVREC.SCANNING.cl 1).get EVREC.SCANNING.cl = 1)) ∧
    (((scanned.set (EVWIN.CODE.clAt 0) 0x3000).Reaches clachasel EVWIN.page EVWIN.RESERVE (0 : McNo).val (1 : Requester)) ∧ ((scanned.set (EVWIN.CODE.clAt 0) 0x3000).reservedBy (0 : McNo).val = none) ∧ ((scanned.set (EVWIN.CODE.clAt 0) 0x3000).get (EVWIN.CODE.clAt (0 : McNo).val) / 4096 = 3) ∧ ((scanned.set (EVWIN.CODE.clAt 0) 0x3000).get EVREC.SCANNING.cl ≠ 1)) ∧
    ((({ up with ring := [(0, ⟨.reserved 0, {}⟩)] }).Reaches clachasel EVWIN.page EVWIN.COMMIT (0 : McNo).val (1 : Requester)) ∧ (({ up with ring := [(0, ⟨.reserved 0, {}⟩)] }).reservedBy (0 : McNo).val = some (0 : Nat)) ∧ (aget ({ up with ring := [(0, ⟨.reserved 0, {}⟩)] }).ring ((0 : Nat) % 4096) = some (⟨.reserved 0, {}⟩ : RingSlot))) ∧
    ((up.Reaches clachasel EVWIN.page EVWIN.COMMIT (0 : McNo).val (1 : Requester)) ∧ (up.reservedBy (0 : McNo).val = none)) ∧
    ((({ up with ring := [(0, ⟨.reserved 0, {}⟩)] }).Reaches clachasel EVWIN.page EVWIN.CANCEL (0 : McNo).val (1 : Requester)) ∧ (({ up with ring := [(0, ⟨.reserved 0, {}⟩)] }).reservedBy (0 : McNo).val = some (0 : Nat)) ∧ (aget ({ up with ring := [(0, ⟨.reserved 0, {}⟩)] }).ring ((0 : Nat) % 4096) = some (⟨.reserved 0, {}⟩ : RingSlot))) ∧
    ((up.Reaches clachasel EVWIN.page EVWIN.CANCEL (0 : McNo).val (1 : Requester)) ∧ (up.reservedBy (0 : McNo).val = none)) ∧
    ((({ up with ring := [(0, ⟨.reserved 0, {}⟩)] }).reservedBy (0 : McNo).val = some (0 : Nat)) ∧ (aget ({ up with ring := [(0, ⟨.reserved 0, {}⟩)] }).ring ((0 : Nat) % 4096) = some (⟨.reserved 0, {}⟩ : RingSlot))) ∧
    (up.reservedBy (0 : McNo).val = none) :=
  by and_intros <;> decide +kernel

theorem test_hypotheses_of_TheRecorderLimitsFlushesAndSearches :
    ((up.trayTime % 32 = 0)) ∧
    (((up.set CAL.TIME_LO.cl 1).trayTime % 32 ≠ 0)) ∧
    (((scanned.set EVREC.SWEEP_S.cl 1).get RECI.RUNS.cl ≠ 0) ∧ ((scanned.set EVREC.SWEEP_S.cl 1).get EVREC.SCANNING.cl ≠ 1) ∧ ((scanned.set EVREC.SWEEP_S.cl 1).trayTime % (32768 * (scanned.set EVREC.SWEEP_S.cl 1).get EVREC.SWEEP_S.cl) = 0)) ∧
    ((State.reset.get RECI.RUNS.cl = 0 ∨ State.reset.get EVREC.SCANNING.cl = 1 ∨ State.reset.trayTime % (32768 * State.reset.get EVREC.SWEEP_S.cl) ≠ 0)) ∧
    (((up.set EVRATE.CM_CODE.cl 0x2001).Reaches clachasel EVRATE.page EVRATE.CM_SET 0 (1 : Requester)) ∧ (classSettable ((up.set EVRATE.CM_CODE.cl 0x2001).get EVRATE.CM_CODE.cl) = true)) ∧
    (((up.set EVRATE.CM_CODE.cl 0x4001).Reaches clachasel EVRATE.page EVRATE.CM_SET 0 (1 : Requester)) ∧ (classSettable ((up.set EVRATE.CM_CODE.cl 0x4001).get EVRATE.CM_CODE.cl) = false)) ∧
    (up.Reaches clachasel EVREC.page EVREC.FLUSH 0 (1 : Requester)) ∧
    (((up.set EVREC.FLASH_FAULT.cl 1).Reaches clachasel EVREC.page EVREC.CLEAR_FLASH_FAULT 0 (1 : Requester)) ∧ ((up.set EVREC.FLASH_FAULT.cl 1).is EVREC.FLASH_FAULT.cl = true)) ∧
    ((up.Reaches clachasel EVREC.page EVREC.CLEAR_FLASH_FAULT 0 (1 : Requester)) ∧ (up.is EVREC.FLASH_FAULT.cl = false)) ∧
    (((up.set RECI.PHASE.cl 1).get RECI.PHASE.cl = 1) ∧ ((up.set RECI.PHASE.cl 1).get RECI.PF_LIMIT.cl ≠ 1)) ∧
    ((((up.set RECI.PHASE.cl 1).set RECI.PF_LIMIT.cl 1).get RECI.PHASE.cl = 1) ∧ (((up.set RECI.PHASE.cl 1).set RECI.PF_LIMIT.cl 1).get RECI.PF_LIMIT.cl = 1)) ∧
    ((up.set RECI.PHASE.cl 2).get RECI.PHASE.cl = 2) ∧
    ((up.set RECI.PHASE.cl 1).get RECI.PHASE.cl = 1) ∧
    ((up.set RECI.PHASE.cl 2).get RECI.PHASE.cl = 2) ∧
    (({ up with eraseQ := [3] }).eraseQ = (3 : Nat) :: ([] : List Nat)) ∧
    (({ up with eraseQ := [3] }).eraseQ = (3 : Nat) :: ([] : List Nat)) ∧
    (({ up with eraseQ := [3] }).eraseQ = (3 : Nat) :: ([] : List Nat)) ∧
    ((up.set PFAIL.PF_NOW.cl 1).is PFAIL.PF_NOW.cl = true) ∧
    (State.reset.get RECI.RUNS.cl = 0 ∨ State.reset.get EVREC.SCANNING.cl = 0 ∨ State.reset.is PFAIL.PF_NOW.cl = true) ∧
    (((up.set EVREC.SCANNING.cl 1).get RECI.RUNS.cl ≠ 0) ∧ ((up.set EVREC.SCANNING.cl 1).get EVREC.SCANNING.cl ≠ 0) ∧ ((up.set EVREC.SCANNING.cl 1).is PFAIL.PF_NOW.cl = false) ∧ ((up.set EVREC.SCANNING.cl 1).flash = [])) :=
  by and_intros <;> decide +kernel

theorem test_hypotheses_of_TheRecorderIsReadAndCommanded :
    ((({ (up.set EVREC.HEAD.cl 1).set EVREC.COMMITTED_TO.cl 0 with ring := [(0, ⟨.valid, {}⟩)] }).Reaches clachasel EVREAD.page EVREAD.RD_SEQ (0 : Fin 5).val (1 : Requester)) ∧ (seqSub (0 : BitVec 32).toNat (({ (up.set EVREC.HEAD.cl 1).set EVREC.COMMITTED_TO.cl 0 with ring := [(0, ⟨.valid, {}⟩)] }).get EVREC.OLDEST.cl) < 2147483648) ∧ (seqSub (0 : BitVec 32).toNat (({ (up.set EVREC.HEAD.cl 1).set EVREC.COMMITTED_TO.cl 0 with ring := [(0, ⟨.valid, {}⟩)] }).get EVREC.OLDEST.cl) < seqSub (({ (up.set EVREC.HEAD.cl 1).set EVREC.COMMITTED_TO.cl 0 with ring := [(0, ⟨.valid, {}⟩)] }).get EVREC.COMMITTED_TO.cl + 1) (({ (up.set EVREC.HEAD.cl 1).set EVREC.COMMITTED_TO.cl 0 with ring := [(0, ⟨.valid, {}⟩)] }).get EVREC.OLDEST.cl)) ∧ (aget ({ (up.set EVREC.HEAD.cl 1).set EVREC.COMMITTED_TO.cl 0 with ring := [(0, ⟨.valid, {}⟩)] }).ring ((0 : BitVec 32).toNat % 4096) = some ⟨.valid, ({} : Rec)⟩)) ∧
    ((up.Reaches clachasel EVREAD.page EVREAD.RD_SEQ (0 : Fin 5).val (1 : Requester)) ∧ (2147483648 ≤ seqSub (0x80000000 : BitVec 32).toNat (up.get EVREC.OLDEST.cl))) ∧
    ((up.Reaches clachasel EVREAD.page EVREAD.RD_SEQ (0 : Fin 5).val (1 : Requester)) ∧ (seqSub (5 : BitVec 32).toNat (up.get EVREC.OLDEST.cl) < 2147483648) ∧ (seqSub (up.get EVREC.COMMITTED_TO.cl + 1) (up.get EVREC.OLDEST.cl) ≤ seqSub (5 : BitVec 32).toNat (up.get EVREC.OLDEST.cl))) ∧
    ((({ (up.set EVREC.HEAD.cl 1).set EVREC.COMMITTED_TO.cl 0 with ring := [(0, ⟨.void, {}⟩)] }).Reaches clachasel EVREAD.page EVREAD.RD_SEQ (0 : Fin 5).val (1 : Requester)) ∧ (seqSub (0 : BitVec 32).toNat (({ (up.set EVREC.HEAD.cl 1).set EVREC.COMMITTED_TO.cl 0 with ring := [(0, ⟨.void, {}⟩)] }).get EVREC.OLDEST.cl) < 2147483648) ∧ (seqSub (0 : BitVec 32).toNat (({ (up.set EVREC.HEAD.cl 1).set EVREC.COMMITTED_TO.cl 0 with ring := [(0, ⟨.void, {}⟩)] }).get EVREC.OLDEST.cl) < seqSub (({ (up.set EVREC.HEAD.cl 1).set EVREC.COMMITTED_TO.cl 0 with ring := [(0, ⟨.void, {}⟩)] }).get EVREC.COMMITTED_TO.cl + 1) (({ (up.set EVREC.HEAD.cl 1).set EVREC.COMMITTED_TO.cl 0 with ring := [(0, ⟨.void, {}⟩)] }).get EVREC.OLDEST.cl)) ∧ (aget ({ (up.set EVREC.HEAD.cl 1).set EVREC.COMMITTED_TO.cl 0 with ring := [(0, ⟨.void, {}⟩)] }).ring ((0 : BitVec 32).toNat % 4096) = some ⟨.void, ({} : Rec)⟩)) ∧
    ((up.Reaches clachasel EVREAD.page EVREAD.FL_SEQ (0 : Fin 5).val (1 : Requester)) ∧ (up.is EVREC.PF_FLUSH.cl = false)) ∧
    (((up.set EVREC.PF_FLUSH.cl 1).Reaches clachasel EVREAD.page EVREAD.FL_SEQ (0 : Fin 5).val (1 : Requester)) ∧ ((up.set EVREC.PF_FLUSH.cl 1).is EVREC.PF_FLUSH.cl = true)) ∧
    (((up.set (EVREAD.FL_PENDING.clAt 0) 1).is (EVREAD.FL_PENDING.clAt (0 : Fin 5).val) = true) ∧ ((up.set (EVREAD.FL_PENDING.clAt 0) 1).is EVREC.PF_FLUSH.cl = false) ∧ ((List.replicate 8 0xFFFFFFFF : List Nat) = (match (none : Option (List (BitVec 32))) with | none => flashWords (aget (up.set (EVREAD.FL_PENDING.clAt 0) 1).flash ((up.set (EVREAD.FL_PENDING.clAt 0) 1).get (EVREAD.FL_SEQ.clAt (0 : Fin 5).val) % 2097152)) | some ws => ws.map BitVec.toNat))) ∧
    ((((up.set (EVREAD.FL_PENDING.clAt 0) 1).set EVREC.PF_FLUSH.cl 1).is (EVREAD.FL_PENDING.clAt (0 : Fin 5).val) = true) ∧ (((up.set (EVREAD.FL_PENDING.clAt 0) 1).set EVREC.PF_FLUSH.cl 1).is EVREC.PF_FLUSH.cl = true)) ∧
    ((up.is (EVREAD.FL_PENDING.clAt (0 : Fin 5).val) = false)) ∧
    (((serving 16 1).CanServe 16 (⟨16, 1, 0, 0, 1⟩ : Posted)) ∧ ((serving 16 1).mgmtReady = true) ∧ ((⟨16, 1, 0, 0, 1⟩ : Posted).value = 1)) ∧
    (((serving 16 0).CanServe 16 (⟨16, 0, 0, 0, 1⟩ : Posted)) ∧ ((serving 16 0).mgmtReady = true) ∧ ((⟨16, 0, 0, 0, 1⟩ : Posted).value ≠ 1)) ∧
    (((serving 17 0x2001).CanServe 17 (⟨17, 0x2001, 0, 0, 1⟩ : Posted)) ∧ ((serving 17 0x2001).mgmtReady = true) ∧ (classSettable ((⟨17, 0x2001, 0, 0, 1⟩ : Posted).value % 65536) = true)) ∧
    (((serving 17 0x4001).CanServe 17 (⟨17, 0x4001, 0, 0, 1⟩ : Posted)) ∧ ((serving 17 0x4001).mgmtReady = true) ∧ (classSettable ((⟨17, 0x4001, 0, 0, 1⟩ : Posted).value % 65536) = false)) ∧
    (((serving 18 96).CanServe 18 (⟨18, 96, 0, 0, 1⟩ : Posted)) ∧ ((serving 18 96).mgmtReady = true) ∧ (8 ≤ (⟨18, 96, 0, 0, 1⟩ : Posted).value % 128 ∧ (⟨18, 96, 0, 0, 1⟩ : Posted).value % 128 ≤ 96)) ∧
    (((serving 18 7).CanServe 18 (⟨18, 7, 0, 0, 1⟩ : Posted)) ∧ ((serving 18 7).mgmtReady = true) ∧ (¬ (8 ≤ (⟨18, 7, 0, 0, 1⟩ : Posted).value % 128 ∧ (⟨18, 7, 0, 0, 1⟩ : Posted).value % 128 ≤ 96))) ∧
    ((((serving 19 1).set EVREC.FLASH_FAULT.cl 1).CanServe 19 (⟨19, 1, 0, 0, 1⟩ : Posted)) ∧ (((serving 19 1).set EVREC.FLASH_FAULT.cl 1).mgmtReady = true) ∧ (((serving 19 1).set EVREC.FLASH_FAULT.cl 1).is EVREC.FLASH_FAULT.cl = true) ∧ ((⟨19, 1, 0, 0, 1⟩ : Posted).value = 1)) ∧
    (((serving 19 1).CanServe 19 (⟨19, 1, 0, 0, 1⟩ : Posted)) ∧ ((serving 19 1).mgmtReady = true) ∧ ((serving 19 1).is EVREC.FLASH_FAULT.cl = false)) :=
  by and_intros <;> decide +kernel

theorem test_hypotheses_of_TwoWireTransactionsStart :
    ((((((up.set (TW.OWNED.clAt 0) 1).set (TW.OWNER.clAt 0) 1).set (TW.STATE.clAt 0) 2).set CCLK.CORE_LOCK.cl 1).inReset clachasel = false) ∧ (((((up.set (TW.OWNED.clAt 0) 1).set (TW.OWNER.clAt 0) 1).set (TW.STATE.clAt 0) 2).set CCLK.CORE_LOCK.cl 1).resetting clachasel TW.page (0 : Fin 6).val = false) ∧ (((((up.set (TW.OWNED.clAt 0) 1).set (TW.OWNER.clAt 0) 1).set (TW.STATE.clAt 0) 2).set CCLK.CORE_LOCK.cl 1).is (TW.OWNED.clAt (0 : Fin 6).val) = true) ∧ (((((up.set (TW.OWNED.clAt 0) 1).set (TW.OWNER.clAt 0) 1).set (TW.STATE.clAt 0) 2).set CCLK.CORE_LOCK.cl 1).get (TW.OWNER.clAt (0 : Fin 6).val) = (1 : Requester).val) ∧ (((((up.set (TW.OWNED.clAt 0) 1).set (TW.OWNER.clAt 0) 1).set (TW.STATE.clAt 0) 2).set CCLK.CORE_LOCK.cl 1).get (TW.STATE.clAt (0 : Fin 6).val) = 2) ∧ (((((up.set (TW.OWNED.clAt 0) 1).set (TW.OWNER.clAt 0) 1).set (TW.STATE.clAt 0) 2).set CCLK.CORE_LOCK.cl 1).twRefusal (0 : Fin 6).val 0 (0 : Fin 8).val (false : Bool) = 0) ∧ (((((up.set (TW.OWNED.clAt 0) 1).set (TW.OWNER.clAt 0) 1).set (TW.STATE.clAt 0) 2).set CCLK.CORE_LOCK.cl 1).bit (TWI.SEG_DUE.clAt (0 : Fin 6).val) (0 : Fin 8).val = false)) ∧
    (((((((up.set (TW.OWNED.clAt 0) 1).set (TW.OWNER.clAt 0) 1).set (TW.STATE.clAt 0) 2).set CCLK.CORE_LOCK.cl 1).set (TWI.SEG_DUE.clAt 0) 1).inReset clachasel = false) ∧ ((((((up.set (TW.OWNED.clAt 0) 1).set (TW.OWNER.clAt 0) 1).set (TW.STATE.clAt 0) 2).set CCLK.CORE_LOCK.cl 1).set (TWI.SEG_DUE.clAt 0) 1).resetting clachasel TW.page (0 : Fin 6).val = false) ∧ ((((((up.set (TW.OWNED.clAt 0) 1).set (TW.OWNER.clAt 0) 1).set (TW.STATE.clAt 0) 2).set CCLK.CORE_LOCK.cl 1).set (TWI.SEG_DUE.clAt 0) 1).is (TW.OWNED.clAt (0 : Fin 6).val) = true) ∧ ((((((up.set (TW.OWNED.clAt 0) 1).set (TW.OWNER.clAt 0) 1).set (TW.STATE.clAt 0) 2).set CCLK.CORE_LOCK.cl 1).set (TWI.SEG_DUE.clAt 0) 1).get (TW.OWNER.clAt (0 : Fin 6).val) = (1 : Requester).val) ∧ ((((((up.set (TW.OWNED.clAt 0) 1).set (TW.OWNER.clAt 0) 1).set (TW.STATE.clAt 0) 2).set CCLK.CORE_LOCK.cl 1).set (TWI.SEG_DUE.clAt 0) 1).get (TW.STATE.clAt (0 : Fin 6).val) = 2) ∧ ((((((up.set (TW.OWNED.clAt 0) 1).set (TW.OWNER.clAt 0) 1).set (TW.STATE.clAt 0) 2).set CCLK.CORE_LOCK.cl 1).set (TWI.SEG_DUE.clAt 0) 1).twRefusal (0 : Fin 6).val 0 (0 : Fin 8).val (false : Bool) = 0) ∧ ((((((up.set (TW.OWNED.clAt 0) 1).set (TW.OWNER.clAt 0) 1).set (TW.STATE.clAt 0) 2).set CCLK.CORE_LOCK.cl 1).set (TWI.SEG_DUE.clAt 0) 1).bit (TWI.SEG_DUE.clAt (0 : Fin 6).val) (0 : Fin 8).val = true)) ∧
    (((((((up.set (TW.OWNED.clAt 0) 1).set (TW.OWNER.clAt 0) 1).set (TW.STATE.clAt 0) 2).set CCLK.CORE_LOCK.cl 1).set CCLK.CORE_LOCK.cl 0).inReset clachasel = false) ∧ ((((((up.set (TW.OWNED.clAt 0) 1).set (TW.OWNER.clAt 0) 1).set (TW.STATE.clAt 0) 2).set CCLK.CORE_LOCK.cl 1).set CCLK.CORE_LOCK.cl 0).resetting clachasel TW.page (0 : Fin 6).val = false) ∧ ((((((up.set (TW.OWNED.clAt 0) 1).set (TW.OWNER.clAt 0) 1).set (TW.STATE.clAt 0) 2).set CCLK.CORE_LOCK.cl 1).set CCLK.CORE_LOCK.cl 0).is (TW.OWNED.clAt (0 : Fin 6).val) = true) ∧ ((((((up.set (TW.OWNED.clAt 0) 1).set (TW.OWNER.clAt 0) 1).set (TW.STATE.clAt 0) 2).set CCLK.CORE_LOCK.cl 1).set CCLK.CORE_LOCK.cl 0).get (TW.OWNER.clAt (0 : Fin 6).val) = (1 : Requester).val) ∧ ((((((up.set (TW.OWNED.clAt 0) 1).set (TW.OWNER.clAt 0) 1).set (TW.STATE.clAt 0) 2).set CCLK.CORE_LOCK.cl 1).set CCLK.CORE_LOCK.cl 0).get (TW.STATE.clAt (0 : Fin 6).val) = 2) ∧ ((((((up.set (TW.OWNED.clAt 0) 1).set (TW.OWNER.clAt 0) 1).set (TW.STATE.clAt 0) 2).set CCLK.CORE_LOCK.cl 1).set CCLK.CORE_LOCK.cl 0).twRefusal (0 : Fin 6).val 0 (0 : Fin 8).val (false : Bool) ≠ 0)) ∧
    ((up.inReset clachasel = false) ∧ (up.resetting clachasel TW.page (0 : Fin 6).val = true ∨ up.is (TW.OWNED.clAt (0 : Fin 6).val) = false ∨ up.get (TW.OWNER.clAt (0 : Fin 6).val) ≠ (1 : Requester).val ∨ up.get (TW.STATE.clAt (0 : Fin 6).val) ≠ 2)) ∧
    (((((((up.set (TW.OWNED.clAt 0) 1).set (TW.OWNER.clAt 0) 1).set (TW.STATE.clAt 0) 2).set CCLK.CORE_LOCK.cl 1).set (TW.RLEN.clAt 0) 1).inReset clachasel = false) ∧ ((((((up.set (TW.OWNED.clAt 0) 1).set (TW.OWNER.clAt 0) 1).set (TW.STATE.clAt 0) 2).set CCLK.CORE_LOCK.cl 1).set (TW.RLEN.clAt 0) 1).resetting clachasel TW.page (0 : Fin 6).val = false) ∧ ((((((up.set (TW.OWNED.clAt 0) 1).set (TW.OWNER.clAt 0) 1).set (TW.STATE.clAt 0) 2).set CCLK.CORE_LOCK.cl 1).set (TW.RLEN.clAt 0) 1).is (TW.OWNED.clAt (0 : Fin 6).val) = true) ∧ ((((((up.set (TW.OWNED.clAt 0) 1).set (TW.OWNER.clAt 0) 1).set (TW.STATE.clAt 0) 2).set CCLK.CORE_LOCK.cl 1).set (TW.RLEN.clAt 0) 1).get (TW.OWNER.clAt (0 : Fin 6).val) = (1 : Requester).val) ∧ ((((((up.set (TW.OWNED.clAt 0) 1).set (TW.OWNER.clAt 0) 1).set (TW.STATE.clAt 0) 2).set CCLK.CORE_LOCK.cl 1).set (TW.RLEN.clAt 0) 1).get (TW.STATE.clAt (0 : Fin 6).val) = 2) ∧ ((((((up.set (TW.OWNED.clAt 0) 1).set (TW.OWNER.clAt 0) 1).set (TW.STATE.clAt 0) 2).set CCLK.CORE_LOCK.cl 1).set (TW.RLEN.clAt 0) 1).twRefusal (0 : Fin 6).val 1 (0 : Fin 8).val (false : Bool) = 0) ∧ ((((((up.set (TW.OWNED.clAt 0) 1).set (TW.OWNER.clAt 0) 1).set (TW.STATE.clAt 0) 2).set CCLK.CORE_LOCK.cl 1).set (TW.RLEN.clAt 0) 1).bit (TWI.SEG_DUE.clAt (0 : Fin 6).val) (0 : Fin 8).val = false)) ∧
    ((((((((up.set (TW.OWNED.clAt 0) 1).set (TW.OWNER.clAt 0) 1).set (TW.STATE.clAt 0) 2).set CCLK.CORE_LOCK.cl 1).set (TW.RLEN.clAt 0) 1).set (TWI.SEG_DUE.clAt 0) 1).inReset clachasel = false) ∧ (((((((up.set (TW.OWNED.clAt 0) 1).set (TW.OWNER.clAt 0) 1).set (TW.STATE.clAt 0) 2).set CCLK.CORE_LOCK.cl 1).set (TW.RLEN.clAt 0) 1).set (TWI.SEG_DUE.clAt 0) 1).resetting clachasel TW.page (0 : Fin 6).val = false) ∧ (((((((up.set (TW.OWNED.clAt 0) 1).set (TW.OWNER.clAt 0) 1).set (TW.STATE.clAt 0) 2).set CCLK.CORE_LOCK.cl 1).set (TW.RLEN.clAt 0) 1).set (TWI.SEG_DUE.clAt 0) 1).is (TW.OWNED.clAt (0 : Fin 6).val) = true) ∧ (((((((up.set (TW.OWNED.clAt 0) 1).set (TW.OWNER.clAt 0) 1).set (TW.STATE.clAt 0) 2).set CCLK.CORE_LOCK.cl 1).set (TW.RLEN.clAt 0) 1).set (TWI.SEG_DUE.clAt 0) 1).get (TW.OWNER.clAt (0 : Fin 6).val) = (1 : Requester).val) ∧ (((((((up.set (TW.OWNED.clAt 0) 1).set (TW.OWNER.clAt 0) 1).set (TW.STATE.clAt 0) 2).set CCLK.CORE_LOCK.cl 1).set (TW.RLEN.clAt 0) 1).set (TWI.SEG_DUE.clAt 0) 1).get (TW.STATE.clAt (0 : Fin 6).val) = 2) ∧ (((((((up.set (TW.OWNED.clAt 0) 1).set (TW.OWNER.clAt 0) 1).set (TW.STATE.clAt 0) 2).set CCLK.CORE_LOCK.cl 1).set (TW.RLEN.clAt 0) 1).set (TWI.SEG_DUE.clAt 0) 1).twRefusal (0 : Fin 6).val 1 (0 : Fin 8).val (false : Bool) = 0) ∧ (((((((up.set (TW.OWNED.clAt 0) 1).set (TW.OWNER.clAt 0) 1).set (TW.STATE.clAt 0) 2).set CCLK.CORE_LOCK.cl 1).set (TW.RLEN.clAt 0) 1).set (TWI.SEG_DUE.clAt 0) 1).bit (TWI.SEG_DUE.clAt (0 : Fin 6).val) (0 : Fin 8).val = true)) ∧
    ((((((((up.set (TW.OWNED.clAt 0) 1).set (TW.OWNER.clAt 0) 1).set (TW.STATE.clAt 0) 2).set CCLK.CORE_LOCK.cl 1).set (TW.RLEN.clAt 0) 1).set CCLK.CORE_LOCK.cl 0).inReset clachasel = false) ∧ (((((((up.set (TW.OWNED.clAt 0) 1).set (TW.OWNER.clAt 0) 1).set (TW.STATE.clAt 0) 2).set CCLK.CORE_LOCK.cl 1).set (TW.RLEN.clAt 0) 1).set CCLK.CORE_LOCK.cl 0).resetting clachasel TW.page (0 : Fin 6).val = false) ∧ (((((((up.set (TW.OWNED.clAt 0) 1).set (TW.OWNER.clAt 0) 1).set (TW.STATE.clAt 0) 2).set CCLK.CORE_LOCK.cl 1).set (TW.RLEN.clAt 0) 1).set CCLK.CORE_LOCK.cl 0).is (TW.OWNED.clAt (0 : Fin 6).val) = true) ∧ (((((((up.set (TW.OWNED.clAt 0) 1).set (TW.OWNER.clAt 0) 1).set (TW.STATE.clAt 0) 2).set CCLK.CORE_LOCK.cl 1).set (TW.RLEN.clAt 0) 1).set CCLK.CORE_LOCK.cl 0).get (TW.OWNER.clAt (0 : Fin 6).val) = (1 : Requester).val) ∧ (((((((up.set (TW.OWNED.clAt 0) 1).set (TW.OWNER.clAt 0) 1).set (TW.STATE.clAt 0) 2).set CCLK.CORE_LOCK.cl 1).set (TW.RLEN.clAt 0) 1).set CCLK.CORE_LOCK.cl 0).get (TW.STATE.clAt (0 : Fin 6).val) = 2) ∧ (((((((up.set (TW.OWNED.clAt 0) 1).set (TW.OWNER.clAt 0) 1).set (TW.STATE.clAt 0) 2).set CCLK.CORE_LOCK.cl 1).set (TW.RLEN.clAt 0) 1).set CCLK.CORE_LOCK.cl 0).twRefusal (0 : Fin 6).val 1 (0 : Fin 8).val (false : Bool) ≠ 0)) ∧
    ((up.inReset clachasel = false) ∧ (up.resetting clachasel TW.page (0 : Fin 6).val = true ∨ up.is (TW.OWNED.clAt (0 : Fin 6).val) = false ∨ up.get (TW.OWNER.clAt (0 : Fin 6).val) ≠ (1 : Requester).val ∨ up.get (TW.STATE.clAt (0 : Fin 6).val) ≠ 2)) ∧
    ((((((((up.set (TW.OWNED.clAt 0) 1).set (TW.OWNER.clAt 0) 1).set (TW.STATE.clAt 0) 2).set CCLK.CORE_LOCK.cl 1).set (TW.RLEN.clAt 0) 1).set (TW.WLEN.clAt 0) 1).inReset clachasel = false) ∧ (((((((up.set (TW.OWNED.clAt 0) 1).set (TW.OWNER.clAt 0) 1).set (TW.STATE.clAt 0) 2).set CCLK.CORE_LOCK.cl 1).set (TW.RLEN.clAt 0) 1).set (TW.WLEN.clAt 0) 1).resetting clachasel TW.page (0 : Fin 6).val = false) ∧ (((((((up.set (TW.OWNED.clAt 0) 1).set (TW.OWNER.clAt 0) 1).set (TW.STATE.clAt 0) 2).set CCLK.CORE_LOCK.cl 1).set (TW.RLEN.clAt 0) 1).set (TW.WLEN.clAt 0) 1).is (TW.OWNED.clAt (0 : Fin 6).val) = true) ∧ (((((((up.set (TW.OWNED.clAt 0) 1).set (TW.OWNER.clAt 0) 1).set (TW.STATE.clAt 0) 2).set CCLK.CORE_LOCK.cl 1).set (TW.RLEN.clAt 0) 1).set (TW.WLEN.clAt 0) 1).get (TW.OWNER.clAt (0 : Fin 6).val) = (1 : Requester).val) ∧ (((((((up.set (TW.OWNED.clAt 0) 1).set (TW.OWNER.clAt 0) 1).set (TW.STATE.clAt 0) 2).set CCLK.CORE_LOCK.cl 1).set (TW.RLEN.clAt 0) 1).set (TW.WLEN.clAt 0) 1).get (TW.STATE.clAt (0 : Fin 6).val) = 2) ∧ (((((((up.set (TW.OWNED.clAt 0) 1).set (TW.OWNER.clAt 0) 1).set (TW.STATE.clAt 0) 2).set CCLK.CORE_LOCK.cl 1).set (TW.RLEN.clAt 0) 1).set (TW.WLEN.clAt 0) 1).twRefusal (0 : Fin 6).val 2 (0 : Fin 8).val (false : Bool) = 0) ∧ (((((((up.set (TW.OWNED.clAt 0) 1).set (TW.OWNER.clAt 0) 1).set (TW.STATE.clAt 0) 2).set CCLK.CORE_LOCK.cl 1).set (TW.RLEN.clAt 0) 1).set (TW.WLEN.clAt 0) 1).bit (TWI.SEG_DUE.clAt (0 : Fin 6).val) (0 : Fin 8).val = false)) ∧
    (((((((((up.set (TW.OWNED.clAt 0) 1).set (TW.OWNER.clAt 0) 1).set (TW.STATE.clAt 0) 2).set CCLK.CORE_LOCK.cl 1).set (TW.RLEN.clAt 0) 1).set (TW.WLEN.clAt 0) 1).set (TWI.SEG_DUE.clAt 0) 1).inReset clachasel = false) ∧ ((((((((up.set (TW.OWNED.clAt 0) 1).set (TW.OWNER.clAt 0) 1).set (TW.STATE.clAt 0) 2).set CCLK.CORE_LOCK.cl 1).set (TW.RLEN.clAt 0) 1).set (TW.WLEN.clAt 0) 1).set (TWI.SEG_DUE.clAt 0) 1).resetting clachasel TW.page (0 : Fin 6).val = false) ∧ ((((((((up.set (TW.OWNED.clAt 0) 1).set (TW.OWNER.clAt 0) 1).set (TW.STATE.clAt 0) 2).set CCLK.CORE_LOCK.cl 1).set (TW.RLEN.clAt 0) 1).set (TW.WLEN.clAt 0) 1).set (TWI.SEG_DUE.clAt 0) 1).is (TW.OWNED.clAt (0 : Fin 6).val) = true) ∧ ((((((((up.set (TW.OWNED.clAt 0) 1).set (TW.OWNER.clAt 0) 1).set (TW.STATE.clAt 0) 2).set CCLK.CORE_LOCK.cl 1).set (TW.RLEN.clAt 0) 1).set (TW.WLEN.clAt 0) 1).set (TWI.SEG_DUE.clAt 0) 1).get (TW.OWNER.clAt (0 : Fin 6).val) = (1 : Requester).val) ∧ ((((((((up.set (TW.OWNED.clAt 0) 1).set (TW.OWNER.clAt 0) 1).set (TW.STATE.clAt 0) 2).set CCLK.CORE_LOCK.cl 1).set (TW.RLEN.clAt 0) 1).set (TW.WLEN.clAt 0) 1).set (TWI.SEG_DUE.clAt 0) 1).get (TW.STATE.clAt (0 : Fin 6).val) = 2) ∧ ((((((((up.set (TW.OWNED.clAt 0) 1).set (TW.OWNER.clAt 0) 1).set (TW.STATE.clAt 0) 2).set CCLK.CORE_LOCK.cl 1).set (TW.RLEN.clAt 0) 1).set (TW.WLEN.clAt 0) 1).set (TWI.SEG_DUE.clAt 0) 1).twRefusal (0 : Fin 6).val 2 (0 : Fin 8).val (false : Bool) = 0) ∧ ((((((((up.set (TW.OWNED.clAt 0) 1).set (TW.OWNER.clAt 0) 1).set (TW.STATE.clAt 0) 2).set CCLK.CORE_LOCK.cl 1).set (TW.RLEN.clAt 0) 1).set (TW.WLEN.clAt 0) 1).set (TWI.SEG_DUE.clAt 0) 1).bit (TWI.SEG_DUE.clAt (0 : Fin 6).val) (0 : Fin 8).val = true)) ∧
    (((((((((up.set (TW.OWNED.clAt 0) 1).set (TW.OWNER.clAt 0) 1).set (TW.STATE.clAt 0) 2).set CCLK.CORE_LOCK.cl 1).set (TW.RLEN.clAt 0) 1).set (TW.WLEN.clAt 0) 1).set CCLK.CORE_LOCK.cl 0).inReset clachasel = false) ∧ ((((((((up.set (TW.OWNED.clAt 0) 1).set (TW.OWNER.clAt 0) 1).set (TW.STATE.clAt 0) 2).set CCLK.CORE_LOCK.cl 1).set (TW.RLEN.clAt 0) 1).set (TW.WLEN.clAt 0) 1).set CCLK.CORE_LOCK.cl 0).resetting clachasel TW.page (0 : Fin 6).val = false) ∧ ((((((((up.set (TW.OWNED.clAt 0) 1).set (TW.OWNER.clAt 0) 1).set (TW.STATE.clAt 0) 2).set CCLK.CORE_LOCK.cl 1).set (TW.RLEN.clAt 0) 1).set (TW.WLEN.clAt 0) 1).set CCLK.CORE_LOCK.cl 0).is (TW.OWNED.clAt (0 : Fin 6).val) = true) ∧ ((((((((up.set (TW.OWNED.clAt 0) 1).set (TW.OWNER.clAt 0) 1).set (TW.STATE.clAt 0) 2).set CCLK.CORE_LOCK.cl 1).set (TW.RLEN.clAt 0) 1).set (TW.WLEN.clAt 0) 1).set CCLK.CORE_LOCK.cl 0).get (TW.OWNER.clAt (0 : Fin 6).val) = (1 : Requester).val) ∧ ((((((((up.set (TW.OWNED.clAt 0) 1).set (TW.OWNER.clAt 0) 1).set (TW.STATE.clAt 0) 2).set CCLK.CORE_LOCK.cl 1).set (TW.RLEN.clAt 0) 1).set (TW.WLEN.clAt 0) 1).set CCLK.CORE_LOCK.cl 0).get (TW.STATE.clAt (0 : Fin 6).val) = 2) ∧ ((((((((up.set (TW.OWNED.clAt 0) 1).set (TW.OWNER.clAt 0) 1).set (TW.STATE.clAt 0) 2).set CCLK.CORE_LOCK.cl 1).set (TW.RLEN.clAt 0) 1).set (TW.WLEN.clAt 0) 1).set CCLK.CORE_LOCK.cl 0).twRefusal (0 : Fin 6).val 2 (0 : Fin 8).val (false : Bool) ≠ 0)) ∧
    ((up.inReset clachasel = false) ∧ (up.resetting clachasel TW.page (0 : Fin 6).val = true ∨ up.is (TW.OWNED.clAt (0 : Fin 6).val) = false ∨ up.get (TW.OWNER.clAt (0 : Fin 6).val) ≠ (1 : Requester).val ∨ up.get (TW.STATE.clAt (0 : Fin 6).val) ≠ 2)) ∧
    (((((((up.set (TW.OWNED.clAt 0) 1).set (TW.OWNER.clAt 0) 1).set (TW.STATE.clAt 0) 2).set CCLK.CORE_LOCK.cl 1).set (TW.WLEN.clAt 0) 1).inReset clachasel = false) ∧ ((((((up.set (TW.OWNED.clAt 0) 1).set (TW.OWNER.clAt 0) 1).set (TW.STATE.clAt 0) 2).set CCLK.CORE_LOCK.cl 1).set (TW.WLEN.clAt 0) 1).resetting clachasel TW.page (0 : Fin 6).val = false) ∧ ((((((up.set (TW.OWNED.clAt 0) 1).set (TW.OWNER.clAt 0) 1).set (TW.STATE.clAt 0) 2).set CCLK.CORE_LOCK.cl 1).set (TW.WLEN.clAt 0) 1).is (TW.OWNED.clAt (0 : Fin 6).val) = true) ∧ ((((((up.set (TW.OWNED.clAt 0) 1).set (TW.OWNER.clAt 0) 1).set (TW.STATE.clAt 0) 2).set CCLK.CORE_LOCK.cl 1).set (TW.WLEN.clAt 0) 1).get (TW.OWNER.clAt (0 : Fin 6).val) = (1 : Requester).val) ∧ ((((((up.set (TW.OWNED.clAt 0) 1).set (TW.OWNER.clAt 0) 1).set (TW.STATE.clAt 0) 2).set CCLK.CORE_LOCK.cl 1).set (TW.WLEN.clAt 0) 1).get (TW.STATE.clAt (0 : Fin 6).val) = 2) ∧ ((((((up.set (TW.OWNED.clAt 0) 1).set (TW.OWNER.clAt 0) 1).set (TW.STATE.clAt 0) 2).set CCLK.CORE_LOCK.cl 1).set (TW.WLEN.clAt 0) 1).twRefusal (0 : Fin 6).val 3 (0 : Fin 8).val (false : Bool) = 0) ∧ ((((((up.set (TW.OWNED.clAt 0) 1).set (TW.OWNER.clAt 0) 1).set (TW.STATE.clAt 0) 2).set CCLK.CORE_LOCK.cl 1).set (TW.WLEN.clAt 0) 1).bit (TWI.SEG_DUE.clAt (0 : Fin 6).val) (0 : Fin 8).val = false)) ∧
    ((((((((up.set (TW.OWNED.clAt 0) 1).set (TW.OWNER.clAt 0) 1).set (TW.STATE.clAt 0) 2).set CCLK.CORE_LOCK.cl 1).set (TW.WLEN.clAt 0) 1).set (TWI.SEG_DUE.clAt 0) 1).inReset clachasel = false) ∧ (((((((up.set (TW.OWNED.clAt 0) 1).set (TW.OWNER.clAt 0) 1).set (TW.STATE.clAt 0) 2).set CCLK.CORE_LOCK.cl 1).set (TW.WLEN.clAt 0) 1).set (TWI.SEG_DUE.clAt 0) 1).resetting clachasel TW.page (0 : Fin 6).val = false) ∧ (((((((up.set (TW.OWNED.clAt 0) 1).set (TW.OWNER.clAt 0) 1).set (TW.STATE.clAt 0) 2).set CCLK.CORE_LOCK.cl 1).set (TW.WLEN.clAt 0) 1).set (TWI.SEG_DUE.clAt 0) 1).is (TW.OWNED.clAt (0 : Fin 6).val) = true) ∧ (((((((up.set (TW.OWNED.clAt 0) 1).set (TW.OWNER.clAt 0) 1).set (TW.STATE.clAt 0) 2).set CCLK.CORE_LOCK.cl 1).set (TW.WLEN.clAt 0) 1).set (TWI.SEG_DUE.clAt 0) 1).get (TW.OWNER.clAt (0 : Fin 6).val) = (1 : Requester).val) ∧ (((((((up.set (TW.OWNED.clAt 0) 1).set (TW.OWNER.clAt 0) 1).set (TW.STATE.clAt 0) 2).set CCLK.CORE_LOCK.cl 1).set (TW.WLEN.clAt 0) 1).set (TWI.SEG_DUE.clAt 0) 1).get (TW.STATE.clAt (0 : Fin 6).val) = 2) ∧ (((((((up.set (TW.OWNED.clAt 0) 1).set (TW.OWNER.clAt 0) 1).set (TW.STATE.clAt 0) 2).set CCLK.CORE_LOCK.cl 1).set (TW.WLEN.clAt 0) 1).set (TWI.SEG_DUE.clAt 0) 1).twRefusal (0 : Fin 6).val 3 (0 : Fin 8).val (false : Bool) = 0) ∧ (((((((up.set (TW.OWNED.clAt 0) 1).set (TW.OWNER.clAt 0) 1).set (TW.STATE.clAt 0) 2).set CCLK.CORE_LOCK.cl 1).set (TW.WLEN.clAt 0) 1).set (TWI.SEG_DUE.clAt 0) 1).bit (TWI.SEG_DUE.clAt (0 : Fin 6).val) (0 : Fin 8).val = true)) ∧
    ((((((((up.set (TW.OWNED.clAt 0) 1).set (TW.OWNER.clAt 0) 1).set (TW.STATE.clAt 0) 2).set CCLK.CORE_LOCK.cl 1).set (TW.WLEN.clAt 0) 1).set CCLK.CORE_LOCK.cl 0).inReset clachasel = false) ∧ (((((((up.set (TW.OWNED.clAt 0) 1).set (TW.OWNER.clAt 0) 1).set (TW.STATE.clAt 0) 2).set CCLK.CORE_LOCK.cl 1).set (TW.WLEN.clAt 0) 1).set CCLK.CORE_LOCK.cl 0).resetting clachasel TW.page (0 : Fin 6).val = false) ∧ (((((((up.set (TW.OWNED.clAt 0) 1).set (TW.OWNER.clAt 0) 1).set (TW.STATE.clAt 0) 2).set CCLK.CORE_LOCK.cl 1).set (TW.WLEN.clAt 0) 1).set CCLK.CORE_LOCK.cl 0).is (TW.OWNED.clAt (0 : Fin 6).val) = true) ∧ (((((((up.set (TW.OWNED.clAt 0) 1).set (TW.OWNER.clAt 0) 1).set (TW.STATE.clAt 0) 2).set CCLK.CORE_LOCK.cl 1).set (TW.WLEN.clAt 0) 1).set CCLK.CORE_LOCK.cl 0).get (TW.OWNER.clAt (0 : Fin 6).val) = (1 : Requester).val) ∧ (((((((up.set (TW.OWNED.clAt 0) 1).set (TW.OWNER.clAt 0) 1).set (TW.STATE.clAt 0) 2).set CCLK.CORE_LOCK.cl 1).set (TW.WLEN.clAt 0) 1).set CCLK.CORE_LOCK.cl 0).get (TW.STATE.clAt (0 : Fin 6).val) = 2) ∧ (((((((up.set (TW.OWNED.clAt 0) 1).set (TW.OWNER.clAt 0) 1).set (TW.STATE.clAt 0) 2).set CCLK.CORE_LOCK.cl 1).set (TW.WLEN.clAt 0) 1).set CCLK.CORE_LOCK.cl 0).twRefusal (0 : Fin 6).val 3 (0 : Fin 8).val (false : Bool) ≠ 0)) ∧
    ((up.inReset clachasel = false) ∧ (up.resetting clachasel TW.page (0 : Fin 6).val = true ∨ up.is (TW.OWNED.clAt (0 : Fin 6).val) = false ∨ up.get (TW.OWNER.clAt (0 : Fin 6).val) ≠ (1 : Requester).val ∨ up.get (TW.STATE.clAt (0 : Fin 6).val) ≠ 2)) :=
  by and_intros <;> decide +kernel

theorem test_hypotheses_of_TwoWireControllersAreOwnedEndAndRecover :
    ((((up.set (TW.TLOW.clAt 0) 0)).inReset clachasel = false) ∧ (((up.set (TW.TLOW.clAt 0) 0)).resetting clachasel TW.page (0 : Fin 6).val = false) ∧ (((up.set (TW.TLOW.clAt 0) 0)).is (twEnable (0 : Fin 6).val) = false) ∧ (((up.set (TW.TLOW.clAt 0) 0)).twTimingOk (0 : Fin 6).val = false)) ∧
    ((timed.inReset clachasel = false) ∧ (timed.resetting clachasel TW.page (0 : Fin 6).val = false) ∧ (timed.is (twEnable (0 : Fin 6).val) = false) ∧ (timed.twTimingOk (0 : Fin 6).val = true)) ∧
    (((up.set (twEnable 0) 1).inReset clachasel = false) ∧ ((up.set (twEnable 0) 1).resetting clachasel TW.page (0 : Fin 6).val = false) ∧ ((up.set (twEnable 0) 1).is (twEnable (0 : Fin 6).val) = true)) ∧
    ((up.Reaches clachasel TW.page TW.CLAIM (4 * (0 : Fin 6).val + (0 : McNo).val) (1 : Requester)) ∧ (up.is (TW.OWNED.clAt (0 : Fin 6).val) = false)) ∧
    (((up.set (TW.OWNED.clAt 0) 1).Reaches clachasel TW.page TW.CLAIM (4 * (0 : Fin 6).val + (0 : McNo).val) (1 : Requester)) ∧ ((up.set (TW.OWNED.clAt 0) 1).is (TW.OWNED.clAt (0 : Fin 6).val) = true)) ∧
    ((((up.set (TW.OWNED.clAt 0) 1).set (TW.OWNER.clAt 0) 1).Reaches clachasel TW.page TW.RELEASE (4 * (0 : Fin 6).val + (0 : McNo).val) (1 : Requester)) ∧ (((up.set (TW.OWNED.clAt 0) 1).set (TW.OWNER.clAt 0) 1).is (TW.OWNED.clAt (0 : Fin 6).val) = true) ∧ (((up.set (TW.OWNED.clAt 0) 1).set (TW.OWNER.clAt 0) 1).get (TW.OWNER.clAt (0 : Fin 6).val) = (0 : McNo).val + 1) ∧ (((up.set (TW.OWNED.clAt 0) 1).set (TW.OWNER.clAt 0) 1).get (TW.STATE.clAt (0 : Fin 6).val) ≠ 1) ∧ (((up.set (TW.OWNED.clAt 0) 1).set (TW.OWNER.clAt 0) 1).get (TW.STATE.clAt (0 : Fin 6).val) ≠ 3)) ∧
    (((((up.set (TW.OWNED.clAt 0) 1).set (TW.OWNER.clAt 0) 1).set (TW.STATE.clAt 0) 3).Reaches clachasel TW.page TW.RELEASE (4 * (0 : Fin 6).val + (0 : McNo).val) (1 : Requester)) ∧ ((((up.set (TW.OWNED.clAt 0) 1).set (TW.OWNER.clAt 0) 1).set (TW.STATE.clAt 0) 3).is (TW.OWNED.clAt (0 : Fin 6).val) = true) ∧ ((((up.set (TW.OWNED.clAt 0) 1).set (TW.OWNER.clAt 0) 1).set (TW.STATE.clAt 0) 3).get (TW.OWNER.clAt (0 : Fin 6).val) = (0 : McNo).val + 1) ∧ ((((up.set (TW.OWNED.clAt 0) 1).set (TW.OWNER.clAt 0) 1).set (TW.STATE.clAt 0) 3).get (TW.STATE.clAt (0 : Fin 6).val) = 1 ∨ (((up.set (TW.OWNED.clAt 0) 1).set (TW.OWNER.clAt 0) 1).set (TW.STATE.clAt 0) 3).get (TW.STATE.clAt (0 : Fin 6).val) = 3)) ∧
    ((((((up.set (TW.OWNED.clAt 0) 1).set (TW.OWNER.clAt 0) 1).set (TW.STATE.clAt 0) 3).set (TWI.GO_AT.clAt 0) 1).get (TW.STATE.clAt (0 : Fin 6).val) = 3)) ∧
    (up.get (TW.STATE.clAt (0 : Fin 6).val) ≠ 3) ∧
    ((((((up.set (TW.OWNED.clAt 0) 1).set (TW.OWNER.clAt 0) 1).set (TW.STATE.clAt 0) 3).set (TWI.GO_AT.clAt 0) 1).inReset clachasel = false) ∧ (((((up.set (TW.OWNED.clAt 0) 1).set (TW.OWNER.clAt 0) 1).set (TW.STATE.clAt 0) 3).set (TWI.GO_AT.clAt 0) 1).resetting clachasel TW.page (0 : Fin 6).val = false) ∧ (((((up.set (TW.OWNED.clAt 0) 1).set (TW.OWNER.clAt 0) 1).set (TW.STATE.clAt 0) 3).set (TWI.GO_AT.clAt 0) 1).is (TW.OWNED.clAt (0 : Fin 6).val) = true) ∧ (((((up.set (TW.OWNED.clAt 0) 1).set (TW.OWNER.clAt 0) 1).set (TW.STATE.clAt 0) 3).set (TWI.GO_AT.clAt 0) 1).get (TW.OWNER.clAt (0 : Fin 6).val) = (1 : Requester).val) ∧ (((((up.set (TW.OWNED.clAt 0) 1).set (TW.OWNER.clAt 0) 1).set (TW.STATE.clAt 0) 3).set (TWI.GO_AT.clAt 0) 1).twRunning (0 : Fin 6).val = true)) ∧
    ((((up.set (TW.OWNED.clAt 0) 1).set (TW.OWNER.clAt 0) 1).inReset clachasel = false) ∧ (((up.set (TW.OWNED.clAt 0) 1).set (TW.OWNER.clAt 0) 1).resetting clachasel TW.page (0 : Fin 6).val = false) ∧ (((up.set (TW.OWNED.clAt 0) 1).set (TW.OWNER.clAt 0) 1).is (TW.OWNED.clAt (0 : Fin 6).val) = true) ∧ (((up.set (TW.OWNED.clAt 0) 1).set (TW.OWNER.clAt 0) 1).get (TW.OWNER.clAt (0 : Fin 6).val) = (1 : Requester).val) ∧ (((up.set (TW.OWNED.clAt 0) 1).set (TW.OWNER.clAt 0) 1).twRunning (0 : Fin 6).val = false)) ∧
    ((up.inReset clachasel = false) ∧ (up.resetting clachasel TW.page (0 : Fin 6).val = true ∨ up.is (TW.OWNED.clAt (0 : Fin 6).val) = false ∨ up.get (TW.OWNER.clAt (0 : Fin 6).val) ≠ (1 : Requester).val)) ∧
    ((((((up.set (TW.OWNED.clAt 0) 1).set (TW.OWNER.clAt 0) 1).set (TW.STATE.clAt 0) 3).set (TWI.GO_AT.clAt 0) 1).get (TW.STATE.clAt (0 : Fin 6).val) = 3)) ∧
    ((({ ((((up.set (TW.OWNED.clAt 0) 1).set (TW.OWNER.clAt 0) 1).set (TW.STATE.clAt 0) 3).set (TWI.GO_AT.clAt 0) 1) with clock := 100000000 }).twRunning (0 : Fin 6).val = true) ∧ (({ ((((up.set (TW.OWNED.clAt 0) 1).set (TW.OWNER.clAt 0) 1).set (TW.STATE.clAt 0) 3).set (TWI.GO_AT.clAt 0) 1) with clock := 100000000 }).heldFor (TWI.GO_AT.clAt (0 : Fin 6).val) (({ ((((up.set (TW.OWNED.clAt 0) 1).set (TW.OWNER.clAt 0) 1).set (TW.STATE.clAt 0) 3).set (TWI.GO_AT.clAt 0) 1) with clock := 100000000 }).get (TW.XFER_MAX.clAt (0 : Fin 6).val) * 1000) = true)) ∧
    ((up.twRunning (0 : Fin 6).val = false ∨ up.heldFor (TWI.GO_AT.clAt (0 : Fin 6).val) (up.get (TW.XFER_MAX.clAt (0 : Fin 6).val) * 1000) = false)) ∧
    ((up.get (TW.STATE.clAt (0 : Fin 6).val) ≠ 3)) ∧
    ((((up.set (TW.STATE.clAt 0) 1).set (TWI.GO_NEXT.clAt 0) 1).get (TW.STATE.clAt (0 : Fin 6).val) = 1) ∧ (((up.set (TW.STATE.clAt 0) 1).set (TWI.GO_NEXT.clAt 0) 1).is (TWI.WAITS.clAt (0 : Fin 6).val) = false) ∧ (((up.set (TW.STATE.clAt 0) 1).set (TWI.GO_NEXT.clAt 0) 1).is (TWI.GO_NEXT.clAt (0 : Fin 6).val) = true) ∧ (((up.set (TW.STATE.clAt 0) 1).set (TWI.GO_NEXT.clAt 0) 1).is (TWI.RELEASES.clAt (0 : Fin 6).val) = false)) ∧
    (((up.set (TW.STATE.clAt 0) 1).get (TW.STATE.clAt (0 : Fin 6).val) = 1) ∧ ((up.set (TW.STATE.clAt 0) 1).is (TWI.WAITS.clAt (0 : Fin 6).val) = false) ∧ ((up.set (TW.STATE.clAt 0) 1).is (TWI.GO_NEXT.clAt (0 : Fin 6).val) = false ∨ (up.set (TW.STATE.clAt 0) 1).is (TWI.RELEASES.clAt (0 : Fin 6).val) = true)) ∧
    (((up.set (TW.STATE.clAt 0) 1).get (TW.STATE.clAt (0 : Fin 6).val) = 1) ∧ ((up.set (TW.STATE.clAt 0) 1).is (TWI.WAITS.clAt (0 : Fin 6).val) = false) ∧ (((up.set (TW.STATE.clAt 0) 1).get (TWI.SWITCH.clAt (0 : Fin 6).val) ≠ 0 ∧ (up.set (TW.STATE.clAt 0) 1).is (TWI.TRUNK.clAt (0 : Fin 6).val) = false ∧ (false : Bool) = true) = False)) ∧
    ((((up.set (TW.STATE.clAt 1) 1).set (TWI.SWITCH.clAt 1) 1).get (TW.STATE.clAt (1 : Fin 6).val) = 1) ∧ (((up.set (TW.STATE.clAt 1) 1).set (TWI.SWITCH.clAt 1) 1).is (TWI.WAITS.clAt (1 : Fin 6).val) = false) ∧ (((up.set (TW.STATE.clAt 1) 1).set (TWI.SWITCH.clAt 1) 1).get (TWI.SWITCH.clAt (1 : Fin 6).val) ≠ 0) ∧ (((up.set (TW.STATE.clAt 1) 1).set (TWI.SWITCH.clAt 1) 1).is (TWI.TRUNK.clAt (1 : Fin 6).val) = false)) ∧
    ((up.get (TW.STATE.clAt (0 : Fin 6).val) ≠ 1 ∨ up.is (TWI.WAITS.clAt (0 : Fin 6).val) = true)) ∧
    (((up.set (TW.STATE.clAt 0) 4).Reaches clachasel TW.page TW.CLEAR_STUCK (0 : Fin 6).val (1 : Requester)) ∧ ((up.set (TW.STATE.clAt 0) 4).get (TW.STATE.clAt (0 : Fin 6).val) ≠ 0) ∧ ((up.set (TW.STATE.clAt 0) 4).twRunning (0 : Fin 6).val = false)) ∧
    ((up.Reaches clachasel TW.page TW.CLEAR_STUCK (0 : Fin 6).val (1 : Requester)) ∧ (up.get (TW.STATE.clAt (0 : Fin 6).val) = 0 ∨ up.twRunning (0 : Fin 6).val = true)) :=
  by and_intros <;> decide +kernel

theorem test_hypotheses_of_HostCommandsForTemperatureAndCooling :
    ((((serving 4 1).set (TZONE.TRIP.clAt 1) 1600).CanServe 4 (⟨4, 1, 0, 0, 1⟩ : Posted)) ∧ (((serving 4 1).set (TZONE.TRIP.clAt 1) 1600).mgmtReady = true) ∧ (((serving 4 1).set (TZONE.TRIP.clAt 1) 1600).tripHeld ((⟨4, 1, 0, 0, 1⟩ : Posted).value % 16) = false)) ∧
    (((((serving 4 1).set (TZONE.ZEN.clAt 1) 1).set (TZONE.LEVEL.clAt 1) 3).CanServe 4 (⟨4, 1, 0, 0, 1⟩ : Posted)) ∧ ((((serving 4 1).set (TZONE.ZEN.clAt 1) 1).set (TZONE.LEVEL.clAt 1) 3).mgmtReady = true) ∧ ((((serving 4 1).set (TZONE.ZEN.clAt 1) 1).set (TZONE.LEVEL.clAt 1) 3).tripHeld ((⟨4, 1, 0, 0, 1⟩ : Posted).value % 16) = true)) ∧
    (((serving 5 1).CanServe 5 (⟨5, 1, 0, 0, 1⟩ : Posted)) ∧ ((serving 5 1).mgmtReady = true)) ∧
    (((serving 6 1).CanServe 6 (⟨6, 1, 0, 0, 1⟩ : Posted)) ∧ ((serving 6 1).mgmtReady = true)) ∧
    (((serving 7 1).CanServe 7 (⟨7, 1, 0, 0, 1⟩ : Posted)) ∧ ((serving 7 1).mgmtReady = true) ∧ ((⟨7, 1, 0, 0, 1⟩ : Posted).value % 64 < 48)) ∧
    (((serving 7 48).CanServe 7 (⟨7, 48, 0, 0, 1⟩ : Posted)) ∧ ((serving 7 48).mgmtReady = true) ∧ (48 ≤ (⟨7, 48, 0, 0, 1⟩ : Posted).value % 64)) ∧
    ((((serving 8 0x640000).set CFAN.FAN_FIT.cl 1).CanServe 8 (⟨8, 0x640000, 0, 0, 1⟩ : Posted)) ∧ (((serving 8 0x640000).set CFAN.FAN_FIT.cl 1).mgmtReady = true) ∧ ((⟨8, 0x640000, 0, 0, 1⟩ : Posted).value / 65536 % 1024 ≤ 1000) ∧ ((List.range 3).any (fun i => ((serving 8 0x640000).set CFAN.FAN_FIT.cl 1).fitted (3 * ((⟨8, 0x640000, 0, 0, 1⟩ : Posted).value % 4) + i)) = true)) ∧
    ((((serving 8 65601536).set CSYS.TRAY_STATE.cl 2).CanServe 8 (⟨8, 65601536, 0, 0, 1⟩ : Posted)) ∧ (((serving 8 65601536).set CSYS.TRAY_STATE.cl 2).mgmtReady = true) ∧ (1000 < (⟨8, 65601536, 0, 0, 1⟩ : Posted).value / 65536 % 1024 ∨ (List.range 3).any (fun i => ((serving 8 65601536).set CSYS.TRAY_STATE.cl 2).fitted (3 * ((⟨8, 65601536, 0, 0, 1⟩ : Posted).value % 4) + i)) = false)) ∧
    (((serving 9 0x640000).CanServe 9 (⟨9, 0x640000, 0, 0, 1⟩ : Posted)) ∧ ((serving 9 0x640000).mgmtReady = true) ∧ ((⟨9, 0x640000, 0, 0, 1⟩ : Posted).value / 65536 % 1024 ≤ 1000) ∧ ((serving 9 0x640000).get TRAYID.VARIANT.cl ≠ 2)) ∧
    (((serving 9 0x3FF0000).CanServe 9 (⟨9, 0x3FF0000, 0, 0, 1⟩ : Posted)) ∧ ((serving 9 0x3FF0000).mgmtReady = true) ∧ (1000 < (⟨9, 0x3FF0000, 0, 0, 1⟩ : Posted).value / 65536 % 1024 ∨ (serving 9 0x3FF0000).get TRAYID.VARIANT.cl = 2)) ∧
    (((serving 10 1).CanServe 10 (⟨10, 1, 0, 0, 1⟩ : Posted)) ∧ ((serving 10 1).mgmtReady = true) ∧ ((if (⟨10, 1, 0, 0, 1⟩ : Posted).value % 16 < 14 then (serving 10 1).tachLow ((⟨10, 1, 0, 0, 1⟩ : Posted).value % 16) else (serving 10 1).flowLow ((⟨10, 1, 0, 0, 1⟩ : Posted).value % 16 - 14)) = false)) ∧
    (((((serving 10 1).set (CFAN.ARMED.clAt 1) 1).set (CFAN.TACH_MIN.clAt 0) 9).CanServe 10 (⟨10, 1, 0, 0, 1⟩ : Posted)) ∧ ((((serving 10 1).set (CFAN.ARMED.clAt 1) 1).set (CFAN.TACH_MIN.clAt 0) 9).mgmtReady = true) ∧ ((if (⟨10, 1, 0, 0, 1⟩ : Posted).value % 16 < 14 then (((serving 10 1).set (CFAN.ARMED.clAt 1) 1).set (CFAN.TACH_MIN.clAt 0) 9).tachLow ((⟨10, 1, 0, 0, 1⟩ : Posted).value % 16) else (((serving 10 1).set (CFAN.ARMED.clAt 1) 1).set (CFAN.TACH_MIN.clAt 0) 9).flowLow ((⟨10, 1, 0, 0, 1⟩ : Posted).value % 16 - 14)) = true)) ∧
    (((serving 11 1).CanServe 11 (⟨11, 1, 0, 0, 1⟩ : Posted)) ∧ ((serving 11 1).mgmtReady = true) ∧ ((⟨11, 1, 0, 0, 1⟩ : Posted).value = 1)) ∧
    (((serving 11 0).CanServe 11 (⟨11, 0, 0, 0, 1⟩ : Posted)) ∧ ((serving 11 0).mgmtReady = true) ∧ ((⟨11, 0, 0, 0, 1⟩ : Posted).value ≠ 1)) :=
  by and_intros <;> decide +kernel

theorem test_hypotheses_of_SelfTestsArePostedAndEnd :
    (on.Reaches (0 : DieNo).val STEST.page STEST.REQ_TESTS 0 (0 : Requester)) ∧
    (((((serving 12 0x101).set CSYS.TRAY_STATE.cl 6).set CSYS.DIE_INSERV.cl 1).CanServe 12 (⟨12, 0x101, 0, 0, 1⟩ : Posted)) ∧ ((((serving 12 0x101).set CSYS.TRAY_STATE.cl 6).set CSYS.DIE_INSERV.cl 1).get CSYS.TRAY_STATE.cl = 6) ∧ ((⟨12, 0x101, 0, 0, 1⟩ : Posted).value / 256 % 8 ≠ 0) ∧ (Nat.land ((⟨12, 0x101, 0, 0, 1⟩ : Posted).value % 256) ((((serving 12 0x101).set CSYS.TRAY_STATE.cl 6).set CSYS.DIE_INSERV.cl 1).get CSYS.DIE_INSERV.cl) = (⟨12, 0x101, 0, 0, 1⟩ : Posted).value % 256)) ∧
    ((((serving 12 1).set CSYS.TRAY_STATE.cl 6).CanServe 12 (⟨12, 1, 0, 0, 1⟩ : Posted)) ∧ (((serving 12 1).set CSYS.TRAY_STATE.cl 6).get CSYS.TRAY_STATE.cl = 6) ∧ ((⟨12, 1, 0, 0, 1⟩ : Posted).value / 256 % 8 = 0 ∨ Nat.land ((⟨12, 1, 0, 0, 1⟩ : Posted).value % 256) (((serving 12 1).set CSYS.TRAY_STATE.cl 6).get CSYS.DIE_INSERV.cl) ≠ (⟨12, 1, 0, 0, 1⟩ : Posted).value % 256)) ∧
    ((((serving 13 1).set CSYS.TRAY_STATE.cl 6).CanServe 13 (⟨13, 1, 0, 0, 1⟩ : Posted)) ∧ (((serving 13 1).set CSYS.TRAY_STATE.cl 6).get CSYS.TRAY_STATE.cl = 6)) ∧
    (((serving 15 1).CanServe 15 (⟨15, 1, 0, 0, 1⟩ : Posted)) ∧ ((serving 15 1).mgmtReady = true)) ∧
    ((({ up.set (MCCTL.RUNNING.clAt 0) 1 with clock := 3600000000 }).get TESTI.PERIOD.cl ≠ 0) ∧ (({ up.set (MCCTL.RUNNING.clAt 0) 1 with clock := 3600000000 }).mcRuns 0 = true) ∧ (({ up.set (MCCTL.RUNNING.clAt 0) 1 with clock := 3600000000 }).get TESTI.LAST.cl + ({ up.set (MCCTL.RUNNING.clAt 0) 1 with clock := 3600000000 }).get TESTI.PERIOD.cl * 60000000 ≤ ({ up.set (MCCTL.RUNNING.clAt 0) 1 with clock := 3600000000 }).clock)) ∧
    ((up.get TESTI.PERIOD.cl = 0 ∨ up.mcRuns 0 = false ∨ up.clock < up.get TESTI.LAST.cl + up.get TESTI.PERIOD.cl * 60000000)) ∧
    (((on.set (STEST.TUMBLER_RUN.on 0) 1).inReset (0 : DieNo).val = false) ∧ ((on.set (STEST.TUMBLER_RUN.on 0) 1).is (STEST.TUMBLER_RUN.on (0 : DieNo).val) = true)) ∧
    (up.inReset (0 : DieNo).val = true ∨ up.is (STEST.TUMBLER_RUN.on (0 : DieNo).val) = false) ∧
    (((on.set (STEST.LINK_RUN.on 0) 1).inReset (0 : DieNo).val = false) ∧ ((on.set (STEST.LINK_RUN.on 0) 1).is (STEST.LINK_RUN.on (0 : DieNo).val) = true)) ∧
    ((up.inReset (0 : DieNo).val = true ∨ up.is (STEST.LINK_RUN.on (0 : DieNo).val) = false)) ∧
    (((on.set (STEST.MEM_RUN.on 0) 1).inReset (0 : DieNo).val = false) ∧ ((on.set (STEST.MEM_RUN.on 0) 1).is (STEST.MEM_RUN.on (0 : DieNo).val) = true)) ∧
    ((up.inReset (0 : DieNo).val = true ∨ up.is (STEST.MEM_RUN.on (0 : DieNo).val) = false)) :=
  by and_intros <;> decide +kernel

theorem test_hypotheses_of_MacSlotOperations :
    (((issuing 324518553658426726783156020576256).CanIssue (⟨0, 0, 0⟩ : Tumbler) .mac ({ slots := 1 } : Tum) (324518553658426726783156020576256 : Nat)) ∧ (mop (324518553658426726783156020576256 : Nat) = 1) ∧ (fmtOf (324518553658426726783156020576256 : Nat) ≠ 5)) ∧
    (((issuing 527342649694943431022628533436416).CanIssue (⟨0, 0, 0⟩ : Tumbler) .mac ({ slots := 1 } : Tum) (527342649694943431022628533436416 : Nat)) ∧ (mop (527342649694943431022628533436416 : Nat) = 1) ∧ (fmtOf (527342649694943431022628533436416 : Nat) = 5)) ∧
    (((issuing 649037107316853453566312041152512).CanIssue (⟨0, 0, 0⟩ : Tumbler) .mac ({ slots := 1 } : Tum) (649037107316853453566312041152512 : Nat)) ∧ (mop (649037107316853453566312041152512 : Nat) = 2)) ∧
    (((issuing 973555660975280180349468061728768).CanIssue (⟨0, 0, 0⟩ : Tumbler) .mac ({ slots := 1 } : Tum) (973555660975280180349468061728768 : Nat)) ∧ (mop (973555660975280180349468061728768 : Nat) = 3)) ∧
    (((issuing 1298074214633706907132624082305024).CanIssue (⟨0, 0, 0⟩ : Tumbler) .mac ({ slots := 1 } : Tum) (1298074214633706907132624082305024 : Nat)) ∧ (mop (1298074214633706907132624082305024 : Nat) = 4)) ∧
    (((issuing 1622592768292133633915780102881280).CanIssue (⟨0, 0, 0⟩ : Tumbler) .mac ({ slots := 1 } : Tum) (1622592768292133633915780102881280 : Nat)) ∧ (mop (1622592768292133633915780102881280 : Nat) = 5)) ∧
    (((issuing 1947111321950560360698936123457536).CanIssue (⟨0, 0, 0⟩ : Tumbler) .mac ({ slots := 1 } : Tum) (1947111321950560360698936123457536 : Nat)) ∧ (mop (1947111321950560360698936123457536 : Nat) = 6)) ∧
    (((issuing 2271629875608987087482092144033792).CanIssue (⟨0, 0, 0⟩ : Tumbler) .mac ({ slots := 1 } : Tum) (2271629875608987087482092144033792 : Nat)) ∧ (mop (2271629875608987087482092144033792 : Nat) = 7)) ∧
    (((issuing 2596148429267413814265248164610048).CanIssue (⟨0, 0, 0⟩ : Tumbler) .mac ({ slots := 1 } : Tum) (2596148429267413814265248164610048 : Nat)) ∧ (mop (2596148429267413814265248164610048 : Nat) = 8)) ∧
    (((issuing 2920666982925840541048404185186304).CanIssue (⟨0, 0, 0⟩ : Tumbler) .mac ({ slots := 1 } : Tum) (2920666982925840541048404185186304 : Nat)) ∧ (mop (2920666982925840541048404185186304 : Nat) = 9)) ∧
    (((issuing 3245185536584267267831560205762560).CanIssue (⟨0, 0, 0⟩ : Tumbler) .mac ({ slots := 1 } : Tum) (3245185536584267267831560205762560 : Nat)) ∧ (mop (3245185536584267267831560205762560 : Nat) = 10)) ∧
    (((issuing 3569704090242693994614716226338816).CanIssue (⟨0, 0, 0⟩ : Tumbler) .mac ({ slots := 1 } : Tum) (3569704090242693994614716226338816 : Nat)) ∧ (mop (3569704090242693994614716226338816 : Nat) = 11)) ∧
    (((issuing 3894222643901120721397872246915072).CanIssue (⟨0, 0, 0⟩ : Tumbler) .mac ({ slots := 1 } : Tum) (3894222643901120721397872246915072 : Nat)) ∧ (mop (3894222643901120721397872246915072 : Nat) = 12)) ∧
    (((issuing 4218741197559547448181028267491328).CanIssue (⟨0, 0, 0⟩ : Tumbler) .mac ({ slots := 1 } : Tum) (4218741197559547448181028267491328 : Nat)) ∧ (mop (4218741197559547448181028267491328 : Nat) = 13)) :=
  by and_intros <;> decide +kernel

theorem test_hypotheses_of_ScalarSlotOperations :
    (((issuing 4194304).CanIssue (⟨0, 0, 0⟩ : Tumbler) .scalar ({ slots := 64 } : Tum) (4194304 : Nat)) ∧ (sop (4194304 : Nat) = 1)) ∧
    (((issuing 12582912).CanIssue (⟨0, 0, 0⟩ : Tumbler) .scalar ({ slots := 64 } : Tum) (12582912 : Nat)) ∧ (sop (12582912 : Nat) = 3)) ∧
    (((issuing 8388608).CanIssue (⟨0, 0, 0⟩ : Tumbler) .scalar ({ slots := 64 } : Tum) (8388608 : Nat)) ∧ (sop (8388608 : Nat) = 2)) ∧
    (((issuing 16777216).CanIssue (⟨0, 0, 0⟩ : Tumbler) .scalar ({ slots := 64 } : Tum) (16777216 : Nat)) ∧ (sop (16777216 : Nat) = 4)) ∧
    (((issuing 20971520).CanIssue (⟨0, 0, 0⟩ : Tumbler) .scalar ({ slots := 64 } : Tum) (20971520 : Nat)) ∧ (sop (20971520 : Nat) = 5)) ∧
    (((issuing 25165824).CanIssue (⟨0, 0, 0⟩ : Tumbler) .scalar ({ slots := 64 } : Tum) (25165824 : Nat)) ∧ (sop (25165824 : Nat) = 6)) ∧
    (((issuing 29360128).CanIssue (⟨0, 0, 0⟩ : Tumbler) .scalar ({ slots := 64 } : Tum) (29360128 : Nat)) ∧ (sop (29360128 : Nat) = 7)) ∧
    (((issuing 33554432).CanIssue (⟨0, 0, 0⟩ : Tumbler) .scalar ({ slots := 64 } : Tum) (33554432 : Nat)) ∧ (sop (33554432 : Nat) = 8)) ∧
    (((issuing 37748736).CanIssue (⟨0, 0, 0⟩ : Tumbler) .scalar ({ slots := 64 } : Tum) (37748736 : Nat)) ∧ (sop (37748736 : Nat) = 9)) ∧
    (((issuing 41943040).CanIssue (⟨0, 0, 0⟩ : Tumbler) .scalar ({ slots := 64 } : Tum) (41943040 : Nat)) ∧ (sop (41943040 : Nat) = 10)) ∧
    (((issuing 46137344).CanIssue (⟨0, 0, 0⟩ : Tumbler) .scalar ({ slots := 64 } : Tum) (46137344 : Nat)) ∧ (sop (46137344 : Nat) = 11)) ∧
    (((issuing 50331648).CanIssue (⟨0, 0, 0⟩ : Tumbler) .scalar ({ slots := 64 } : Tum) (50331648 : Nat)) ∧ (sop (50331648 : Nat) = 12)) ∧
    (((issuing 54525952).CanIssue (⟨0, 0, 0⟩ : Tumbler) .scalar ({ slots := 64 } : Tum) (54525952 : Nat)) ∧ (sop (54525952 : Nat) = 13)) ∧
    (((issuing 58720256).CanIssue (⟨0, 0, 0⟩ : Tumbler) .scalar ({ slots := 64 } : Tum) (58720256 : Nat)) ∧ (sop (58720256 : Nat) = 14)) ∧
    (((issuing 109051904).CanIssue (⟨0, 0, 0⟩ : Tumbler) .scalar ({ slots := 64 } : Tum) (109051904 : Nat)) ∧ (sop (109051904 : Nat) = 26)) ∧
    (((issuing 113246208).CanIssue (⟨0, 0, 0⟩ : Tumbler) .scalar ({ slots := 64 } : Tum) (113246208 : Nat)) ∧ (sop (113246208 : Nat) = 27)) ∧
    (((issuing 67108864).CanIssue (⟨0, 0, 0⟩ : Tumbler) .scalar ({ slots := 64 } : Tum) (67108864 : Nat)) ∧ (sop (67108864 : Nat) = 16)) ∧
    (((issuing 71303168).CanIssue (⟨0, 0, 0⟩ : Tumbler) .scalar ({ slots := 64 } : Tum) (71303168 : Nat)) ∧ (sop (71303168 : Nat) = 17)) ∧
    (((issuing 75497472).CanIssue (⟨0, 0, 0⟩ : Tumbler) .scalar ({ slots := 64 } : Tum) (75497472 : Nat)) ∧ (sop (75497472 : Nat) = 18)) ∧
    (((issuing 79691776).CanIssue (⟨0, 0, 0⟩ : Tumbler) .scalar ({ slots := 64 } : Tum) (79691776 : Nat)) ∧ (sop (79691776 : Nat) = 19)) ∧
    (((issuing 83886080).CanIssue (⟨0, 0, 0⟩ : Tumbler) .scalar ({ slots := 64 } : Tum) (83886080 : Nat)) ∧ (sop (83886080 : Nat) = 20)) ∧
    (((issuing 88080384).CanIssue (⟨0, 0, 0⟩ : Tumbler) .scalar ({ slots := 64 } : Tum) (88080384 : Nat)) ∧ (sop (88080384 : Nat) = 21)) ∧
    (((issuing 92274688).CanIssue (⟨0, 0, 0⟩ : Tumbler) .scalar ({ slots := 64 } : Tum) (92274688 : Nat)) ∧ (sop (92274688 : Nat) = 22)) ∧
    (((issuing 96468992).CanIssue (⟨0, 0, 0⟩ : Tumbler) .scalar ({ slots := 64 } : Tum) (96468992 : Nat)) ∧ (sop (96468992 : Nat) = 23)) ∧
    (((issuing 100663296).CanIssue (⟨0, 0, 0⟩ : Tumbler) .scalar ({ slots := 64 } : Tum) (100663296 : Nat)) ∧ (sop (100663296 : Nat) = 24)) ∧
    (((issuing 104857600).CanIssue (⟨0, 0, 0⟩ : Tumbler) .scalar ({ slots := 64 } : Tum) (104857600 : Nat)) ∧ (sop (104857600 : Nat) = 25)) :=
  by and_intros <;> decide +kernel

theorem test_hypotheses_of_BaySlotOperations :
    (((issuing 302231454903657293676544).CanIssue (⟨0, 0, 0⟩ : Tumbler) .bay ({ slots := 2 } : Tum) (302231454903657293676544 : Nat)) ∧ (bop (302231454903657293676544 : Nat) = 1) ∧ (bayLine ({ slots := 2 } : Tum) (302231454903657293676544 : Nat) < bayLines)) ∧
    ((((issuing 302231454903657293676544).setTum 0 0 { scal := [(0, 24576)] }).CanIssue (⟨0, 0, 0⟩ : Tumbler) .bay ({ scal := [(0, 24576)], slots := 2 } : Tum) (302231454903657293676544 : Nat)) ∧ (bop (302231454903657293676544 : Nat) = 1) ∧ (bayLines ≤ bayLine ({ scal := [(0, 24576)], slots := 2 } : Tum) (302231454903657293676544 : Nat))) ∧
    (((issuing 906694364710971881029632).CanIssue (⟨0, 0, 0⟩ : Tumbler) .bay ({ slots := 2 } : Tum) (906694364710971881029632 : Nat)) ∧ (bop (906694364710971881029632 : Nat) = 3) ∧ (bayLine ({ slots := 2 } : Tum) (906694364710971881029632 : Nat) < bayLines)) ∧
    ((((issuing 906694364710971881029632).setTum 0 0 { scal := [(0, 24576)] }).CanIssue (⟨0, 0, 0⟩ : Tumbler) .bay ({ scal := [(0, 24576)], slots := 2 } : Tum) (906694364710971881029632 : Nat)) ∧ (bop (906694364710971881029632 : Nat) = 3) ∧ (bayLines ≤ bayLine ({ scal := [(0, 24576)], slots := 2 } : Tum) (906694364710971881029632 : Nat))) ∧
    (((issuing 604462909807314587353088).CanIssue (⟨0, 0, 0⟩ : Tumbler) .bay ({ slots := 2 } : Tum) (604462909807314587353088 : Nat)) ∧ (bop (604462909807314587353088 : Nat) = 2) ∧ (bayLine ({ slots := 2 } : Tum) (604462909807314587353088 : Nat) < bayLines)) ∧
    ((((issuing 604462909807314587353088).setTum 0 0 { scal := [(0, 24576)] }).CanIssue (⟨0, 0, 0⟩ : Tumbler) .bay ({ scal := [(0, 24576)], slots := 2 } : Tum) (604462909807314587353088 : Nat)) ∧ (bop (604462909807314587353088 : Nat) = 2) ∧ (bayLines ≤ bayLine ({ scal := [(0, 24576)], slots := 2 } : Tum) (604462909807314587353088 : Nat))) ∧
    (((issuing 1208925819614629174706176).CanIssue (⟨0, 0, 0⟩ : Tumbler) .bay ({ slots := 2 } : Tum) (1208925819614629174706176 : Nat)) ∧ (bop (1208925819614629174706176 : Nat) = 4) ∧ (bayLine ({ slots := 2 } : Tum) (1208925819614629174706176 : Nat) < bayLines)) ∧
    ((((issuing 1208925819614629174706176).setTum 0 0 { scal := [(0, 24576)] }).CanIssue (⟨0, 0, 0⟩ : Tumbler) .bay ({ scal := [(0, 24576)], slots := 2 } : Tum) (1208925819614629174706176 : Nat)) ∧ (bop (1208925819614629174706176 : Nat) = 4) ∧ (bayLines ≤ bayLine ({ scal := [(0, 24576)], slots := 2 } : Tum) (1208925819614629174706176 : Nat))) :=
  by and_intros <;> decide +kernel

theorem test_hypotheses_of_SequencerRoutesAndControl :
    ((({} : Tum) = (issuing 0).tum (⟨0, 0, 0⟩ : Tumbler).die.val (posOf (⟨0, 0, 0⟩ : Tumbler))) ∧ ((issuing 0).issues (⟨0, 0, 0⟩ : Tumbler).die.val ({} : Tum) = true) ∧ (({} : Tum).halted = false) ∧ (wholeWord ({} : Tum) ((issuing 0).uword (⟨0, 0, 0⟩ : Tumbler).die.val (posOf (⟨0, 0, 0⟩ : Tumbler)) ({} : Tum)) = true) ∧ (seqOf ((issuing 0).uword (⟨0, 0, 0⟩ : Tumbler).die.val (posOf (⟨0, 0, 0⟩ : Tumbler)) ({} : Tum)) = 0)) ∧
    ((({} : Tum) = (issuing 85070591730234615865843651857942052864).tum (⟨0, 0, 0⟩ : Tumbler).die.val (posOf (⟨0, 0, 0⟩ : Tumbler))) ∧ ((issuing 85070591730234615865843651857942052864).issues (⟨0, 0, 0⟩ : Tumbler).die.val ({} : Tum) = true) ∧ (({} : Tum).halted = false) ∧ (wholeWord ({} : Tum) ((issuing 85070591730234615865843651857942052864).uword (⟨0, 0, 0⟩ : Tumbler).die.val (posOf (⟨0, 0, 0⟩ : Tumbler)) ({} : Tum)) = true) ∧ (seqOf ((issuing 85070591730234615865843651857942052864).uword (⟨0, 0, 0⟩ : Tumbler).die.val (posOf (⟨0, 0, 0⟩ : Tumbler)) ({} : Tum)) = 1) ∧ (({} : Tum).l0Count = 0)) ∧
    ((({ l0Count := 3 } : Tum) = ((issuing 85070591730234615865843651857942052864).setTum 0 0 { l0Count := 3 }).tum (⟨0, 0, 0⟩ : Tumbler).die.val (posOf (⟨0, 0, 0⟩ : Tumbler))) ∧ (((issuing 85070591730234615865843651857942052864).setTum 0 0 { l0Count := 3 }).issues (⟨0, 0, 0⟩ : Tumbler).die.val ({ l0Count := 3 } : Tum) = true) ∧ (({ l0Count := 3 } : Tum).halted = false) ∧ (wholeWord ({ l0Count := 3 } : Tum) (((issuing 85070591730234615865843651857942052864).setTum 0 0 { l0Count := 3 }).uword (⟨0, 0, 0⟩ : Tumbler).die.val (posOf (⟨0, 0, 0⟩ : Tumbler)) ({ l0Count := 3 } : Tum)) = true) ∧ (seqOf (((issuing 85070591730234615865843651857942052864).setTum 0 0 { l0Count := 3 }).uword (⟨0, 0, 0⟩ : Tumbler).die.val (posOf (⟨0, 0, 0⟩ : Tumbler)) ({ l0Count := 3 } : Tum)) = 1) ∧ (({ l0Count := 3 } : Tum).l0Count ≠ 0)) ∧
    ((({} : Tum) = (issuing 170141183460469231731687303715884105728).tum (⟨0, 0, 0⟩ : Tumbler).die.val (posOf (⟨0, 0, 0⟩ : Tumbler))) ∧ ((issuing 170141183460469231731687303715884105728).issues (⟨0, 0, 0⟩ : Tumbler).die.val ({} : Tum) = true) ∧ (({} : Tum).halted = false) ∧ (wholeWord ({} : Tum) ((issuing 170141183460469231731687303715884105728).uword (⟨0, 0, 0⟩ : Tumbler).die.val (posOf (⟨0, 0, 0⟩ : Tumbler)) ({} : Tum)) = true) ∧ (seqOf ((issuing 170141183460469231731687303715884105728).uword (⟨0, 0, 0⟩ : Tumbler).die.val (posOf (⟨0, 0, 0⟩ : Tumbler)) ({} : Tum)) = 2) ∧ (({} : Tum).l1Count = 0)) ∧
    ((({ l1Count := 3 } : Tum) = ((issuing 170141183460469231731687303715884105728).setTum 0 0 { l1Count := 3 }).tum (⟨0, 0, 0⟩ : Tumbler).die.val (posOf (⟨0, 0, 0⟩ : Tumbler))) ∧ (((issuing 170141183460469231731687303715884105728).setTum 0 0 { l1Count := 3 }).issues (⟨0, 0, 0⟩ : Tumbler).die.val ({ l1Count := 3 } : Tum) = true) ∧ (({ l1Count := 3 } : Tum).halted = false) ∧ (wholeWord ({ l1Count := 3 } : Tum) (((issuing 170141183460469231731687303715884105728).setTum 0 0 { l1Count := 3 }).uword (⟨0, 0, 0⟩ : Tumbler).die.val (posOf (⟨0, 0, 0⟩ : Tumbler)) ({ l1Count := 3 } : Tum)) = true) ∧ (seqOf (((issuing 170141183460469231731687303715884105728).setTum 0 0 { l1Count := 3 }).uword (⟨0, 0, 0⟩ : Tumbler).die.val (posOf (⟨0, 0, 0⟩ : Tumbler)) ({ l1Count := 3 } : Tum)) = 2) ∧ (({ l1Count := 3 } : Tum).l1Count ≠ 0)) ∧
    ((({} : Tum) = (issuing 255211775190703847597530955573826158592).tum (⟨0, 0, 0⟩ : Tumbler).die.val (posOf (⟨0, 0, 0⟩ : Tumbler))) ∧ ((issuing 255211775190703847597530955573826158592).issues (⟨0, 0, 0⟩ : Tumbler).die.val ({} : Tum) = true) ∧ (({} : Tum).halted = false) ∧ (wholeWord ({} : Tum) ((issuing 255211775190703847597530955573826158592).uword (⟨0, 0, 0⟩ : Tumbler).die.val (posOf (⟨0, 0, 0⟩ : Tumbler)) ({} : Tum)) = true) ∧ (seqOf ((issuing 255211775190703847597530955573826158592).uword (⟨0, 0, 0⟩ : Tumbler).die.val (posOf (⟨0, 0, 0⟩ : Tumbler)) ({} : Tum)) = 3)) ∧
    ((({ halted := true } : Tum) = ((issuing 0).setTum 0 0 { halted := true }).tum (⟨0, 0, 0⟩ : Tumbler).die.val (posOf (⟨0, 0, 0⟩ : Tumbler))) ∧ (((issuing 0).setTum 0 0 { halted := true }).issues (⟨0, 0, 0⟩ : Tumbler).die.val ({ halted := true } : Tum) = true) ∧ (({ halted := true } : Tum).halted = true)) ∧
    ((({} : Tum) = (issuing 35184372088832).tum (⟨0, 0, 0⟩ : Tumbler).die.val (posOf (⟨0, 0, 0⟩ : Tumbler))) ∧ ((issuing 35184372088832).issues (⟨0, 0, 0⟩ : Tumbler).die.val ({} : Tum) = false ∨ wholeWord ({} : Tum) ((issuing 35184372088832).uword (⟨0, 0, 0⟩ : Tumbler).die.val (posOf (⟨0, 0, 0⟩ : Tumbler)) ({} : Tum)) = false)) ∧
    (((issuing 35184372088832).CanIssue (⟨0, 0, 0⟩ : Tumbler) .vectorSend ({ slots := 4 } : Tum) (35184372088832 : Nat)) ∧ (bitsOf (35184372088832 : Nat) 45 5 ≠ 0)) ∧
    (((issuing 4398046511104).CanIssue (⟨0, 0, 0⟩ : Tumbler) .vectorCapture ({ slots := 8 } : Tum) (4398046511104 : Nat)) ∧ (bitsOf (4398046511104 : Nat) 42 3 ≠ 0)) ∧
    (((issuing 68719476736).CanIssue (⟨0, 0, 0⟩ : Tumbler) .scalarSend ({ slots := 16 } : Tum) (68719476736 : Nat)) ∧ ((68719476736 : Nat).testBit 36 = true)) ∧
    (((issuing 2147483648).CanIssue (⟨0, 0, 0⟩ : Tumbler) .scalarCapture ({ slots := 32 } : Tum) (2147483648 : Nat)) ∧ ((2147483648 : Nat).testBit 31 = true)) ∧
    (((issuing 41538374868278621028243970633760768).CanIssue (⟨0, 0, 0⟩ : Tumbler) .control ({ slots := 128 } : Tum) (41538374868278621028243970633760768 : Nat)) ∧ (ctlOf (41538374868278621028243970633760768 : Nat) = 1)) ∧
    (((issuing 83076749736557242056487941267521536).CanIssue (⟨0, 0, 0⟩ : Tumbler) .control ({ slots := 128 } : Tum) (83076749736557242056487941267521536 : Nat)) ∧ (ctlOf (83076749736557242056487941267521536 : Nat) = 2)) ∧
    (((issuing 124615124604835863084731911901282304).CanIssue (⟨0, 0, 0⟩ : Tumbler) .control ({ slots := 128 } : Tum) (124615124604835863084731911901282304 : Nat)) ∧ (ctlOf (124615124604835863084731911901282304 : Nat) = 3)) ∧
    (((issuing 166153499473114484112975882535043072).CanIssue (⟨0, 0, 0⟩ : Tumbler) .control ({ slots := 128 } : Tum) (166153499473114484112975882535043072 : Nat)) ∧ (ctlOf (166153499473114484112975882535043072 : Nat) = 4)) :=
  by and_intros <;> decide +kernel

theorem test_hypotheses_of_DeepMemoryIsReadWrittenAndKept :
    ((on.inReset (0 : DieNo).val = false) ∧ (on.permitted (0 : DieNo).val (agentKind .training) true (0 : BitVec 40).toNat ([1, 2] : List Byte).length = true)) ∧
    ((on.inReset (0 : DieNo).val = false) ∧ (on.permitted (0 : DieNo).val (agentKind .training) false (0 : BitVec 40).toNat (4 : BitVec 32).toNat = true)) ∧
    ((on.inReset (0 : DieNo).val = false) ∧ (on.permitted (0 : DieNo).val (agentKind (.warden 0)) true (0 : BitVec 40).toNat ([1, 2] : List Byte).length = false)) ∧
    ((on.inReset (0 : DieNo).val = false) ∧ (on.permitted (0 : DieNo).val (agentKind (.warden 0)) false (0 : BitVec 40).toNat (4 : BitVec 32).toNat = false)) ∧
    ((up.inReset (0 : DieNo).val = true)) ∧
    ((((on.set (CTX.STATE.on 0) 1).set (PART.SIZE.at 0 3) 1).inReset (0 : DieNo).val = false) ∧ (((on.set (CTX.STATE.on 0) 1).set (PART.SIZE.at 0 3) 1).get (CTX.STATE.on (0 : DieNo).val) ≠ 0) ∧ ((0 : BitVec 64).toNat + (4 : BitVec 32).toNat ≤ ((on.set (CTX.STATE.on 0) 1).set (PART.SIZE.at 0 3) 1).partSize (0 : DieNo).val 3)) ∧
    ((((on.set (CTX.STATE.on 0) 1).set (PART.SIZE.at 0 3) 1).inReset (0 : DieNo).val = false) ∧ (((on.set (CTX.STATE.on 0) 1).set (PART.SIZE.at 0 3) 1).get (CTX.STATE.on (0 : DieNo).val) ≠ 0) ∧ ((0 : BitVec 64).toNat + ([1, 2] : List Byte).length ≤ ((on.set (CTX.STATE.on 0) 1).set (PART.SIZE.at 0 3) 1).partSize (0 : DieNo).val 3)) ∧
    ((on.inReset (0 : DieNo).val = false) ∧ (on.get (CTX.STATE.on (0 : DieNo).val) = 0)) ∧
    (((on.set (CTX.STATE.on 0) 1).inReset (0 : DieNo).val = false) ∧ ((on.set (CTX.STATE.on 0) 1).get (CTX.STATE.on (0 : DieNo).val) ≠ 0) ∧ ((on.set (CTX.STATE.on 0) 1).partSize (0 : DieNo).val 3 < (0 : BitVec 64).toNat + opLength (.read 4 : MemOp))) ∧
    (((on.set (HBM.TRAINED.at 0 0) 1).inReset (0 : DieNo).val = false) ∧ ((on.set (HBM.TRAINED.at 0 0) 1).is (HBM.TRAINED.at (0 : DieNo).val (0 : Fin 4).val) = true) ∧ ((on.set (HBM.TRAINED.at 0 0) 1).get (MEMI.SCRUB.at (0 : DieNo).val (0 : Fin 4).val) + 1 < scrubGranules)) ∧
    ((((on.set (HBM.TRAINED.at 0 0) 1).set (MEMI.SCRUB.at 0 0) 100663295).inReset (0 : DieNo).val = false) ∧ (((on.set (HBM.TRAINED.at 0 0) 1).set (MEMI.SCRUB.at 0 0) 100663295).is (HBM.TRAINED.at (0 : DieNo).val (0 : Fin 4).val) = true) ∧ (scrubGranules ≤ ((on.set (HBM.TRAINED.at 0 0) 1).set (MEMI.SCRUB.at 0 0) 100663295).get (MEMI.SCRUB.at (0 : DieNo).val (0 : Fin 4).val) + 1)) ∧
    (on.inReset (0 : DieNo).val = false) ∧
    (on.inReset (0 : DieNo).val = false) ∧
    ((on.Reaches (0 : DieNo).val WIN.page WIN.EN (0 : Fin 16).val (1 : Requester)) ∧ (on.is (PART.CARVE_LOCKED.on (0 : DieNo).val) = false) ∧ (on.is (WIN.EN.at (0 : DieNo).val (0 : Fin 16).val) = false)) ∧
    (((on.set (WIN.EN.at 0 0) 1).Reaches (0 : DieNo).val WIN.page WIN.EN (0 : Fin 16).val (1 : Requester)) ∧ ((on.set (WIN.EN.at 0 0) 1).is (PART.CARVE_LOCKED.on (0 : DieNo).val) = false) ∧ ((on.set (WIN.EN.at 0 0) 1).is (WIN.EN.at (0 : DieNo).val (0 : Fin 16).val) = true)) ∧
    (((on.set (PART.CARVE_LOCKED.on 0) 1).Reaches (0 : DieNo).val WIN.page WIN.EN (0 : Fin 16).val (1 : Requester)) ∧ ((on.set (PART.CARVE_LOCKED.on 0) 1).is (PART.CARVE_LOCKED.on (0 : DieNo).val) = true)) :=
  by and_intros <;> decide +kernel

theorem test_hypotheses_of_TheHeapIsBuiltAllocatedAndFreed :
    (((on.set (CTX.STATE.on 0) 1).Reaches (0 : DieNo).val HEAP.page HEAP.INIT 0 (1 : Requester)) ∧ ((on.set (CTX.STATE.on 0) 1).get (CTX.STATE.on (0 : DieNo).val) = 1) ∧ ((on.set (CTX.STATE.on 0) 1).is (MEMI.BUILT.on (0 : DieNo).val) = false) ∧ ((on.set (CTX.STATE.on 0) 1).heapUnits (0 : DieNo).val ≤ (on.set (CTX.STATE.on 0) 1).get (PART.SIZE.at (0 : DieNo).val 2)) ∧ ((List.range 9).any (fun n => decide (65536 < (on.set (CTX.STATE.on 0) 1).get (HEAP.COUNT.at (0 : DieNo).val n))) = false)) ∧
    ((on.Reaches (0 : DieNo).val HEAP.page HEAP.INIT 0 (1 : Requester)) ∧ (on.get (CTX.STATE.on (0 : DieNo).val) ≠ 1 ∨ on.is (MEMI.BUILT.on (0 : DieNo).val) = true)) ∧
    (((on.set (MEMI.BUILT.on 0) 1).inReset (0 : DieNo).val = false) ∧ ((on.set (MEMI.BUILT.on 0) 1).is (MEMI.BUILT.on (0 : DieNo).val) = true) ∧ ((on.set (MEMI.BUILT.on 0) 1).is (HEAP.INITED.on (0 : DieNo).val) = false)) ∧
    (on.inReset (0 : DieNo).val = false) ∧
    (on.Reaches (0 : DieNo).val HEAP.page HEAP.W_ALLOC (0 : Fin 3).val (0 : Requester)) ∧
    (on.Reaches (0 : DieNo).val HEAP.page HEAP.W_FREE (0 : Fin 3).val (0 : Requester)) ∧
    (((on.setGate 0 0 { tokens := [3] }).inReset (0 : DieNo).val = false) ∧ (((on.setGate 0 0 { tokens := [3] }).gate (0 : DieNo).val (0 : Fin 256).val).tokens = (3 : Nat) :: ([] : List Nat)) ∧ ((3 : Nat) % 16 ≠ 15)) ∧
    (((on.setGate 0 0 { tokens := [15] }).inReset (0 : DieNo).val = false) ∧ (((on.setGate 0 0 { tokens := [15] }).gate (0 : DieNo).val (0 : Fin 256).val).tokens = (15 : Nat) :: ([] : List Nat)) ∧ ((15 : Nat) % 16 = 15)) ∧
    ((on.Reaches (0 : DieNo).val FAULT.page FAULT.FQ_CONS 0 (512 : Requester)) ∧ (((0 : BitVec 16).toNat + 65536 - on.get (FAULT.FQ_CONS.on (0 : DieNo).val)) % 65536 ≤ (on.get (FAULT.FQ_PROD.on (0 : DieNo).val) + 65536 - on.get (FAULT.FQ_CONS.on (0 : DieNo).val)) % 65536)) ∧
    ((on.Reaches (0 : DieNo).val FAULT.page FAULT.FQ_CONS 0 (512 : Requester)) ∧ ((on.get (FAULT.FQ_PROD.on (0 : DieNo).val) + 65536 - on.get (FAULT.FQ_CONS.on (0 : DieNo).val)) % 65536 < ((1 : BitVec 16).toNat + 65536 - on.get (FAULT.FQ_CONS.on (0 : DieNo).val)) % 65536)) ∧
    (on.Reaches (0 : DieNo).val FAULT.page FAULT.FWD_POP 0 (512 : Requester)) :=
  by and_intros <;> decide +kernel

theorem test_hypotheses_of_KeyringsAreCheckedAndKeysLoaded :
    ((on.Reaches (0 : DieNo).val CSKIP.page ([CSKIP.FUSE_COL_0, CSKIP.FUSE_COL_1, CSKIP.FUSE_COL_2, CSKIP.FUSE_COL_3].getD (0 : Fin 4).val CSKIP.FUSE_COL_0) 0 (0 : Requester))) ∧
    (((on.set (CSKIP.FUSE_COL_0.on 0) 3).inReset (0 : DieNo).val = false) ∧ ((on.set (CSKIP.FUSE_COL_0.on 0) 3).resetting (0 : DieNo).val CSKIP.page 0 = false) ∧ ((on.set (CSKIP.FUSE_COL_0.on 0) 3).fuseOpen (0 : DieNo).val ([CSKIP.FUSE_COL_0, CSKIP.FUSE_COL_1, CSKIP.FUSE_COL_2, CSKIP.FUSE_COL_3].getD (0 : Fin 4).val CSKIP.FUSE_COL_0) 0 = false)) ∧
    ((on.Reaches (0 : DieNo).val KRING.page KRING.CHECK 0 (0 : Requester)) ∧ (on.is (KRING.CHECKING.on (0 : DieNo).val) = false)) ∧
    (((on.set (KRING.CHECKING.on 0) 1).Reaches (0 : DieNo).val KRING.page KRING.CHECK 0 (0 : Requester)) ∧ ((on.set (KRING.CHECKING.on 0) 1).is (KRING.CHECKING.on (0 : DieNo).val) = true)) ∧
    (((on.set (KRING.CHECKING.on 0) 1).inReset (0 : DieNo).val = false) ∧ ((on.set (KRING.CHECKING.on 0) 1).is (KRING.CHECKING.on (0 : DieNo).val) = true)) ∧
    (((on.set (STEST.TUMBLER_RUN.on 0) 1).Reaches (0 : DieNo).val ARRAY.page ARRAY.LOAD 0 (0 : Requester)) ∧ ((on.set (STEST.TUMBLER_RUN.on 0) 1).is (STEST.TUMBLER_RUN.on (0 : DieNo).val) = true ∨ (on.set (STEST.TUMBLER_RUN.on 0) 1).phaseIs (0 : DieNo).val .swap = true)) ∧
    (((on.set (KRING.VERIFIED.on 0) 1).Reaches (0 : DieNo).val ARRAY.page ARRAY.LOAD 0 (0 : Requester)) ∧ ((on.set (KRING.VERIFIED.on 0) 1).is (STEST.TUMBLER_RUN.on (0 : DieNo).val) = false) ∧ ((on.set (KRING.VERIFIED.on 0) 1).phaseIs (0 : DieNo).val .swap = false) ∧ ((on.set (KRING.VERIFIED.on 0) 1).is (KRING.VERIFIED.on (0 : DieNo).val) = true) ∧ ((on.set (KRING.VERIFIED.on 0) 1).is (ARRAY.LOADING.on (0 : DieNo).val) = false)) ∧
    ((on.Reaches (0 : DieNo).val ARRAY.page ARRAY.LOAD 0 (0 : Requester)) ∧ (on.is (STEST.TUMBLER_RUN.on (0 : DieNo).val) = false) ∧ (on.phaseIs (0 : DieNo).val .swap = false) ∧ (on.is (KRING.VERIFIED.on (0 : DieNo).val) = false ∨ on.is (ARRAY.LOADING.on (0 : DieNo).val) = true)) ∧
    (((on.set (ARRAY.LOADING.on 0) 1).inReset (0 : DieNo).val = false) ∧ ((on.set (ARRAY.LOADING.on 0) 1).is (ARRAY.LOADING.on (0 : DieNo).val) = true) ∧ ((on.set (ARRAY.LOADING.on 0) 1).is (SCAN.SCANNING.on (0 : DieNo).val) = false)) ∧
    (((on.set (SCAN.SCANNING.on 0) 1).is (ARRAY.LOADING.on (0 : DieNo).val) = false ∨ (on.set (SCAN.SCANNING.on 0) 1).is (SCAN.SCANNING.on (0 : DieNo).val) = true)) ∧
    (((((issuing 0).setTum 0 0 { cycle := 10 }).die (0 : DieNo).val).active = some (⟨1, 0, false, 10, 0, 0, 0, [(0, 0)], [(0, 1)], [(0, 0)], [], [], []⟩ : Key)) ∧ (((issuing 0).setTum 0 0 { cycle := 10 }).inReset (0 : DieNo).val = false) ∧ (((issuing 0).setTum 0 0 { cycle := 10 }).phaseIs (0 : DieNo).val .inSection = true) ∧ (((issuing 0).setTum 0 0 { cycle := 10 }).is (ARRAY.FROZEN.on (0 : DieNo).val) = false) ∧ (((issuing 0).setTum 0 0 { cycle := 10 }).is (SCAN.SCANNING.on (0 : DieNo).val) = false) ∧ (((issuing 0).setTum 0 0 { cycle := 10 }).sectionIssued (0 : DieNo).val (⟨1, 0, false, 10, 0, 0, 0, [(0, 0)], [(0, 1)], [(0, 0)], [], [], []⟩ : Key) = true)) ∧
    ((((issuing 0).die (0 : DieNo).val).active = some (⟨1, 0, false, 10, 0, 0, 0, [(0, 0)], [(0, 1)], [(0, 0)], [], [], []⟩ : Key)) ∧ ((issuing 0).is (ARRAY.FROZEN.on (0 : DieNo).val) = true ∨ (issuing 0).sectionIssued (0 : DieNo).val (⟨1, 0, false, 10, 0, 0, 0, [(0, 0)], [(0, 1)], [(0, 0)], [], [], []⟩ : Key) = false)) ∧
    ((((issuing 0).set (STRCI.SUM.on 0) 65536).inReset (0 : DieNo).val = false) ∧ (((issuing 0).set (STRCI.SUM.on 0) 65536).phaseIs (0 : DieNo).val .inSection = true) ∧ ((((issuing 0).set (STRCI.SUM.on 0) 65536).gatherStretch (0 : DieNo).val).get (STRCI.USED.on (0 : DieNo).val) + 65536 ≤ (((issuing 0).set (STRCI.SUM.on 0) 65536).gatherStretch (0 : DieNo).val).get (STRCI.SUM.on (0 : DieNo).val))) :=
  by and_intros <;> decide +kernel

theorem test_hypotheses_of_GateUnitsSendTakeMoveAndFreeze :
    ((((gated false).setGate 0 0 { ingress := [(5, 0)] }).dueStep (0 : DieNo).val (0 : Fin 256).val (0 : Fin 16).val = some ((⟨3, 2, 4, 0, false⟩ : GateStep), (3 : Nat))) ∧ ((⟨3, 2, 4, 0, false⟩ : GateStep).take = false) ∧ (((gated false).setGate 0 0 { ingress := [(5, 0)] }).gatesRun (0 : DieNo).val false = true) ∧ (sendReady (((gated false).setGate 0 0 { ingress := [(5, 0)] }).gate (0 : DieNo).val (0 : Fin 256).val) (3 : Nat) = true) ∧ ((((gated false).setGate 0 0 { ingress := [(5, 0)] }).gate (0 : DieNo).val (0 : Fin 256).val).ingress = ((5 : Nat), (0 : Nat)) :: ([] : List (Nat × Nat)))) ∧
    ((((gated false).setGate 0 0 { ones := 2 }).dueStep (0 : DieNo).val (0 : Fin 256).val (0 : Fin 16).val = some ((⟨3, 2, 4, 0, false⟩ : GateStep), (3 : Nat))) ∧ ((⟨3, 2, 4, 0, false⟩ : GateStep).take = false) ∧ (((gated false).setGate 0 0 { ones := 2 }).gatesRun (0 : DieNo).val false = true) ∧ (sendReady (((gated false).setGate 0 0 { ones := 2 }).gate (0 : DieNo).val (0 : Fin 256).val) (3 : Nat) = true) ∧ ((((gated false).setGate 0 0 { ones := 2 }).gate (0 : DieNo).val (0 : Fin 256).val).ingress = [])) ∧
    (((gated true).dueStep (0 : DieNo).val (0 : Fin 256).val (0 : Fin 16).val = some ((⟨3, 2, 4, 0, true⟩ : GateStep), (3 : Nat))) ∧ ((gated true).gateProg (0 : DieNo).val (0 : Fin 256).val = some (⟨0, 16, [⟨false, false, 0, 0, 32, 2, 0⟩, ⟨true, false, 0, 0, 32, 2, 0⟩], [⟨3, 2, 4, 0, true⟩]⟩ : GateProg)) ∧ ((⟨3, 2, 4, 0, true⟩ : GateStep).take = true) ∧ ((gated true).gatesRun (0 : DieNo).val true = true) ∧ (requestsFreeze (⟨0, 16, [⟨false, false, 0, 0, 32, 2, 0⟩, ⟨true, false, 0, 0, 32, 2, 0⟩], [⟨3, 2, 4, 0, true⟩]⟩ : GateProg) ((gated true).gate (0 : DieNo).val (0 : Fin 256).val) (⟨3, 2, 4, 0, true⟩ : GateStep) (3 : Nat) = false)) ∧
    (((windowed (gated true)).gateProg (0 : DieNo).val (0 : Fin 256).val = some (⟨0, 16, [⟨false, false, 0, 0, 32, 2, 0⟩, ⟨true, false, 0, 0, 32, 2, 0⟩], [⟨3, 2, 4, 0, true⟩]⟩ : GateProg)) ∧ (currentMem (⟨0, 16, [⟨false, false, 0, 0, 32, 2, 0⟩, ⟨true, false, 0, 0, 32, 2, 0⟩], [⟨3, 2, 4, 0, true⟩]⟩ : GateProg) ((windowed (gated true)).gate (0 : DieNo).val (0 : Fin 256).val) false = some ((0 : Nat), (⟨false, false, 0, 0, 32, 2, 0⟩ : GateMem))) ∧ ((windowed (gated true)).inReset (0 : DieNo).val = false) ∧ (((windowed (gated true)).gate (0 : DieNo).val (0 : Fin 256).val).ones = 0) ∧ (((windowed (gated true)).gate (0 : DieNo).val (0 : Fin 256).val).ingress.length + (⟨false, false, 0, 0, 32, 2, 0⟩ : GateMem).chunk / 32 ≤ splitOf (⟨0, 16, [⟨false, false, 0, 0, 32, 2, 0⟩, ⟨true, false, 0, 0, 32, 2, 0⟩], [⟨3, 2, 4, 0, true⟩]⟩ : GateProg) false) ∧ ((windowed (gated true)).chunkAt (0 : DieNo).val ((windowed (gated true)).gate (0 : DieNo).val (0 : Fin 256).val) (0 : Nat) (⟨false, false, 0, 0, 32, 2, 0⟩ : GateMem) ((aget ((windowed (gated true)).gate (0 : DieNo).val (0 : Fin 256).val).chunks (0 : Nat)).getD 0) = .at (0 : Nat)) ∧ ((windowed (gated true)).permitted (0 : DieNo).val 3 false (0 : Nat) (⟨false, false, 0, 0, 32, 2, 0⟩ : GateMem).chunk = true) ∧ (badUnits (⟨[], []⟩ : Ecc) false (0 : Nat) (⟨false, false, 0, 0, 32, 2, 0⟩ : GateMem).chunk = [])) ∧
    (((gated true).gateProg (0 : DieNo).val (0 : Fin 256).val = some (⟨0, 16, [⟨false, false, 0, 0, 32, 2, 0⟩, ⟨true, false, 0, 0, 32, 2, 0⟩], [⟨3, 2, 4, 0, true⟩]⟩ : GateProg)) ∧ (currentMem (⟨0, 16, [⟨false, false, 0, 0, 32, 2, 0⟩, ⟨true, false, 0, 0, 32, 2, 0⟩], [⟨3, 2, 4, 0, true⟩]⟩ : GateProg) ((gated true).gate (0 : DieNo).val (0 : Fin 256).val) false = some ((0 : Nat), (⟨false, false, 0, 0, 32, 2, 0⟩ : GateMem))) ∧ ((gated true).inReset (0 : DieNo).val = false) ∧ (((gated true).gate (0 : DieNo).val (0 : Fin 256).val).ones = 0) ∧ (((gated true).gate (0 : DieNo).val (0 : Fin 256).val).ingress.length + (⟨false, false, 0, 0, 32, 2, 0⟩ : GateMem).chunk / 32 ≤ splitOf (⟨0, 16, [⟨false, false, 0, 0, 32, 2, 0⟩, ⟨true, false, 0, 0, 32, 2, 0⟩], [⟨3, 2, 4, 0, true⟩]⟩ : GateProg) false) ∧ ((gated true).chunkAt (0 : DieNo).val ((gated true).gate (0 : DieNo).val (0 : Fin 256).val) (0 : Nat) (⟨false, false, 0, 0, 32, 2, 0⟩ : GateMem) ((aget ((gated true).gate (0 : DieNo).val (0 : Fin 256).val).chunks (0 : Nat)).getD 0) = .at (0 : Nat)) ∧ ((gated true).permitted (0 : DieNo).val 3 false (0 : Nat) (⟨false, false, 0, 0, 32, 2, 0⟩ : GateMem).chunk = false)) ∧
    ((((windowed (gated true)).setGate 0 0 { egress := [7] }).gateProg (0 : DieNo).val (0 : Fin 256).val = some (⟨0, 16, [⟨false, false, 0, 0, 32, 2, 0⟩, ⟨true, false, 0, 0, 32, 2, 0⟩], [⟨3, 2, 4, 0, true⟩]⟩ : GateProg)) ∧ (currentMem (⟨0, 16, [⟨false, false, 0, 0, 32, 2, 0⟩, ⟨true, false, 0, 0, 32, 2, 0⟩], [⟨3, 2, 4, 0, true⟩]⟩ : GateProg) (((windowed (gated true)).setGate 0 0 { egress := [7] }).gate (0 : DieNo).val (0 : Fin 256).val) true = some ((1 : Nat), (⟨true, false, 0, 0, 32, 2, 0⟩ : GateMem))) ∧ (((windowed (gated true)).setGate 0 0 { egress := [7] }).inReset (0 : DieNo).val = false) ∧ ((⟨true, false, 0, 0, 32, 2, 0⟩ : GateMem).chunk / 32 ≤ (((windowed (gated true)).setGate 0 0 { egress := [7] }).gate (0 : DieNo).val (0 : Fin 256).val).egress.length) ∧ (((windowed (gated true)).setGate 0 0 { egress := [7] }).chunkAt (0 : DieNo).val (((windowed (gated true)).setGate 0 0 { egress := [7] }).gate (0 : DieNo).val (0 : Fin 256).val) (1 : Nat) (⟨true, false, 0, 0, 32, 2, 0⟩ : GateMem) ((aget (((windowed (gated true)).setGate 0 0 { egress := [7] }).gate (0 : DieNo).val (0 : Fin 256).val).chunks (1 : Nat)).getD 0) = .at (0 : Nat)) ∧ (((windowed (gated true)).setGate 0 0 { egress := [7] }).permitted (0 : DieNo).val 3 true (0 : Nat) (⟨true, false, 0, 0, 32, 2, 0⟩ : GateMem).chunk = true) ∧ (badUnits (⟨[], []⟩ : Ecc) true (0 : Nat) (⟨true, false, 0, 0, 32, 2, 0⟩ : GateMem).chunk = [])) ∧
    (((gated false).dueStep (0 : DieNo).val (0 : Fin 256).val (0 : Fin 16).val = some ((⟨3, 2, 4, 0, false⟩ : GateStep), (3 : Nat))) ∧ ((gated false).gateProg (0 : DieNo).val (0 : Fin 256).val = some (⟨0, 16, [⟨false, false, 0, 0, 32, 2, 0⟩, ⟨true, false, 0, 0, 32, 2, 0⟩], [⟨3, 2, 4, 0, false⟩]⟩ : GateProg)) ∧ ((gated false).inReset (0 : DieNo).val = false) ∧ ((gated false).phaseIs (0 : DieNo).val .inSection = true) ∧ (requestsFreeze (⟨0, 16, [⟨false, false, 0, 0, 32, 2, 0⟩, ⟨true, false, 0, 0, 32, 2, 0⟩], [⟨3, 2, 4, 0, false⟩]⟩ : GateProg) ((gated false).gate (0 : DieNo).val (0 : Fin 256).val) (⟨3, 2, 4, 0, false⟩ : GateStep) (3 : Nat) = true) ∧ ((gated false).is (ARRAY.FROZEN.on (0 : DieNo).val) = false)) ∧
    (((on.set (ARRAY.FROZEN.on 0) 1).inReset (0 : DieNo).val = false) ∧ ((on.set (ARRAY.FROZEN.on 0) 1).is (ARRAY.FROZEN.on (0 : DieNo).val) = true) ∧ ((on.set (ARRAY.FROZEN.on 0) 1).is (STRCI.AT_LIMIT.on (0 : DieNo).val) = false) ∧ (((on.set (ARRAY.FROZEN.on 0) 1).die (0 : DieNo).val).freezers.any (fun e => (on.set (ARRAY.FROZEN.on 0) 1).stillRequests (0 : DieNo).val e.1 ((on.set (ARRAY.FROZEN.on 0) 1).get (STRCI.FROZEN_AT.on (0 : DieNo).val))) = false)) ∧
    (((on.set (STRCI.AT_LIMIT.on 0) 1).is (STRCI.AT_LIMIT.on (0 : DieNo).val) = true ∨ ((on.set (STRCI.AT_LIMIT.on 0) 1).die (0 : DieNo).val).freezers.any (fun e => (on.set (STRCI.AT_LIMIT.on 0) 1).stillRequests (0 : DieNo).val e.1 ((on.set (STRCI.AT_LIMIT.on 0) 1).get (STRCI.FROZEN_AT.on (0 : DieNo).val))) = true)) ∧
    (((((gated false).set (ARRAY.FROZEN.on 0) 1).set (STRCI.FROZEN_AT.on 0) 3).inReset (0 : DieNo).val = false) ∧ ((((gated false).set (ARRAY.FROZEN.on 0) 1).set (STRCI.FROZEN_AT.on 0) 3).is (ARRAY.FROZEN.on (0 : DieNo).val) = true) ∧ ((((gated false).set (ARRAY.FROZEN.on 0) 1).set (STRCI.FROZEN_AT.on 0) 3).is (STRCI.AT_LIMIT.on (0 : DieNo).val) = false) ∧ ((((gated false).set (ARRAY.FROZEN.on 0) 1).set (STRCI.FROZEN_AT.on 0) 3).stillRequests (0 : DieNo).val (0 : Fin 256).val ((((gated false).set (ARRAY.FROZEN.on 0) 1).set (STRCI.FROZEN_AT.on 0) 3).get (STRCI.FROZEN_AT.on (0 : DieNo).val)) = true) ∧ ((((gated false).set (ARRAY.FROZEN.on 0) 1).set (STRCI.FROZEN_AT.on 0) 3).get (ARRAY.FREEZE_LIMIT.on (0 : DieNo).val) * (((gated false).set (ARRAY.FROZEN.on 0) 1).set (STRCI.FROZEN_AT.on 0) 3).get (DCLK.TILE_MHZ.on (0 : DieNo).val) < (4294967295 : BitVec 32).toNat)) ∧
    ((on.is (ARRAY.FROZEN.on (0 : DieNo).val) = false ∨ on.is (STRCI.AT_LIMIT.on (0 : DieNo).val) = true ∨ on.stillRequests (0 : DieNo).val (0 : Fin 256).val (on.get (STRCI.FROZEN_AT.on (0 : DieNo).val)) = false ∨ (1 : BitVec 32).toNat ≤ on.get (ARRAY.FREEZE_LIMIT.on (0 : DieNo).val) * on.get (DCLK.TILE_MHZ.on (0 : DieNo).val))) :=
  by and_intros <;> decide +kernel

theorem test_hypotheses_of_LinksTrainFromEnableToUp :
    ((on.Reaches (0 : DieNo).val HL.page HL.EN (0 : LinkNo).val (1 : Requester)) ∧ ((on.set (HL.EN.at (0 : DieNo).val (0 : LinkNo).val) 1).linkIs (0 : DieNo).val (0 : LinkNo).val .disabled = true) ∧ ((on.set (HL.EN.at (0 : DieNo).val (0 : LinkNo).val) 1).is (LINEI.FENCING.on (0 : DieNo).val) = false)) ∧
    (((on.set (LINEI.FENCING.on 0) 1).Reaches (0 : DieNo).val HL.page HL.EN (0 : LinkNo).val (1 : Requester)) ∧ (((on.set (LINEI.FENCING.on 0) 1).set (HL.EN.at (0 : DieNo).val (0 : LinkNo).val) 1).linkIs (0 : DieNo).val (0 : LinkNo).val .disabled = true) ∧ (((on.set (LINEI.FENCING.on 0) 1).set (HL.EN.at (0 : DieNo).val (0 : LinkNo).val) 1).is (LINEI.FENCING.on (0 : DieNo).val) = true)) ∧
    ((on.Reaches (0 : DieNo).val HL.page HL.EN (0 : LinkNo).val (1 : Requester))) ∧
    ((((linked 0 7).set (HL.EN.at 0 0) 1).Reaches (0 : DieNo).val HL.page HL.RETRAIN (0 : LinkNo).val (1 : Requester)) ∧ (((linked 0 7).set (HL.EN.at 0 0) 1).linkIs (0 : DieNo).val (0 : LinkNo).val .fenced = false) ∧ (((linked 0 7).set (HL.EN.at 0 0) 1).linkIs (0 : DieNo).val (0 : LinkNo).val .isolated = false) ∧ (((linked 0 7).set (HL.EN.at 0 0) 1).is (HL.EN.at (0 : DieNo).val (0 : LinkNo).val) = true)) ∧
    (((linked 0 11).Reaches (0 : DieNo).val HL.page HL.RETRAIN (0 : LinkNo).val (1 : Requester)) ∧ ((linked 0 11).linkIs (0 : DieNo).val (0 : LinkNo).val .fenced = true)) ∧
    ((linked 0 1).trains (0 : DieNo).val (0 : LinkNo).val .detect = true) ∧
    ((linked 0 2).trains (0 : DieNo).val (0 : LinkNo).val .equalise = true) ∧
    ((((linked 0 3).onLink 0 0 (fun k => { k with rx := { k.rx with clean := 64 } })).trains (0 : DieNo).val (0 : LinkNo).val .fecAlign = true) ∧ (64 ≤ (((linked 0 3).onLink 0 0 (fun k => { k with rx := { k.rx with clean := 64 } })).linkLog (0 : DieNo).val (0 : LinkNo).val).rx.clean)) ∧
    ((((linked 0 3).linkLog (0 : DieNo).val (0 : LinkNo).val).rx.clean < 64)) ∧
    (((linked 0 4).inReset (0 : DieNo).val = false) ∧ ((linked 0 4).linkIs (0 : DieNo).val (0 : LinkNo).val .up = false) ∧ ((linked 0 4).trains (0 : DieNo).val (0 : LinkNo).val .ident = true)) ∧
    (((linked 0 7).inReset (0 : DieNo).val = false) ∧ ((linked 0 7).linkIs (0 : DieNo).val (0 : LinkNo).val .up = true)) ∧
    ((linked 0 4).trains (0 : DieNo).val (0 : LinkNo).val .ident = true) ∧
    (((linked 0 4).trains (0 : DieNo).val (0 : LinkNo).val .ident = true ∨ (linked 0 4).trains (0 : DieNo).val (0 : LinkNo).val .delay = true ∨ (linked 0 4).trains (0 : DieNo).val (0 : LinkNo).val .beatLock = true ∨ ((linked 0 4).inReset (0 : DieNo).val = false ∧ (linked 0 4).linkIs (0 : DieNo).val (0 : LinkNo).val .up = true))) ∧
    (((linked 0 5).trains (0 : DieNo).val (0 : LinkNo).val .ident = true ∨ (linked 0 5).trains (0 : DieNo).val (0 : LinkNo).val .delay = true ∨ (linked 0 5).trains (0 : DieNo).val (0 : LinkNo).val .beatLock = true ∨ ((linked 0 5).inReset (0 : DieNo).val = false ∧ (linked 0 5).linkIs (0 : DieNo).val (0 : LinkNo).val .up = true))) ∧
    (((linked 0 2).trains (0 : DieNo).val (0 : LinkNo).val .ident = false) ∧ ((linked 0 2).trains (0 : DieNo).val (0 : LinkNo).val .delay = false) ∧ ((linked 0 2).trains (0 : DieNo).val (0 : LinkNo).val .beatLock = false) ∧ ((linked 0 2).linkIs (0 : DieNo).val (0 : LinkNo).val .up = false)) ∧
    (((linked 0 5).trains (0 : DieNo).val (0 : LinkNo).val .delay = true) ∧ (((linked 0 5).linkLog (0 : DieNo).val (0 : LinkNo).val).probes.length < 64)) ∧
    (((linked 0 4).trains (0 : DieNo).val (0 : LinkNo).val .delay = false)) ∧
    (((linked 0 5).linkLog (0 : DieNo).val (0 : LinkNo).val).probes.length < 64) ∧
    ((((linked 0 5).onLink 0 0 (fun k => { k with probes := List.replicate 64 8 })).trains (0 : DieNo).val (0 : LinkNo).val .delay = true) ∧ ((List.replicate 64 8) = sortNat (((linked 0 5).onLink 0 0 (fun k => { k with probes := List.replicate 64 8 })).linkLog (0 : DieNo).val (0 : LinkNo).val).probes) ∧ (64 ≤ (List.replicate 64 8).length)) ∧
    (((((linked 0 6).set (BEAT.ROLE.on 0) 0).onLink 0 0 (fun k => { k with errs := List.replicate 16 3, peerLocked := true })).trains (0 : DieNo).val (0 : LinkNo).val .beatLock = true) ∧ ((((linked 0 6).set (BEAT.ROLE.on 0) 0).onLink 0 0 (fun k => { k with errs := List.replicate 16 3, peerLocked := true })).isParent (0 : DieNo).val (0 : LinkNo).val = true) ∧ ((((linked 0 6).set (BEAT.ROLE.on 0) 0).onLink 0 0 (fun k => { k with errs := List.replicate 16 3, peerLocked := true })).get (BEAT.DEPTH.on (0 : DieNo).val) ≤ 16) ∧ ((((linked 0 6).set (BEAT.ROLE.on 0) 0).onLink 0 0 (fun k => { k with errs := List.replicate 16 3, peerLocked := true })).withinTwo (0 : DieNo).val (0 : LinkNo).val = true) ∧ (((((linked 0 6).set (BEAT.ROLE.on 0) 0).onLink 0 0 (fun k => { k with errs := List.replicate 16 3, peerLocked := true })).linkLog (0 : DieNo).val (0 : LinkNo).val).peerLocked = true)) ∧
    (((((linked 0 6).set (BEAT.ROLE.on 0) 0).onLink 0 0 (fun k => { k with errs := List.replicate 16 3 })).trains (0 : DieNo).val (0 : LinkNo).val .beatLock = true) ∧ ((((linked 0 6).set (BEAT.ROLE.on 0) 0).onLink 0 0 (fun k => { k with errs := List.replicate 16 3 })).isParent (0 : DieNo).val (0 : LinkNo).val = true) ∧ ((((linked 0 6).set (BEAT.ROLE.on 0) 0).onLink 0 0 (fun k => { k with errs := List.replicate 16 3 })).get (BEAT.DEPTH.on (0 : DieNo).val) ≤ 16) ∧ ((((linked 0 6).set (BEAT.ROLE.on 0) 0).onLink 0 0 (fun k => { k with errs := List.replicate 16 3 })).withinTwo (0 : DieNo).val (0 : LinkNo).val = true) ∧ (((((linked 0 6).set (BEAT.ROLE.on 0) 0).onLink 0 0 (fun k => { k with errs := List.replicate 16 3 })).linkLog (0 : DieNo).val (0 : LinkNo).val).peerLocked = false)) ∧
    ((((linked 0 6).set (BEAT.ROLE.on 0) 0).isParent (0 : DieNo).val (0 : LinkNo).val = true) ∧ (16 < ((linked 0 6).set (BEAT.ROLE.on 0) 0).get (BEAT.DEPTH.on (0 : DieNo).val) ∨ ((linked 0 6).set (BEAT.ROLE.on 0) 0).withinTwo (0 : DieNo).val (0 : LinkNo).val = false)) ∧
    (((((linked 0 6).set (BEAT.ROLE.on 0) 1 |>.set (BEAT.LOCK.on 0) 2).onLink 0 0 (fun k => { k with diffs := List.replicate 16 1, peerLocked := true })).trains (0 : DieNo).val (0 : LinkNo).val .beatLock = true) ∧ ((((linked 0 6).set (BEAT.ROLE.on 0) 1 |>.set (BEAT.LOCK.on 0) 2).onLink 0 0 (fun k => { k with diffs := List.replicate 16 1, peerLocked := true })).isParent (0 : DieNo).val (0 : LinkNo).val = false) ∧ ((((linked 0 6).set (BEAT.ROLE.on 0) 1 |>.set (BEAT.LOCK.on 0) 2).onLink 0 0 (fun k => { k with diffs := List.replicate 16 1, peerLocked := true })).get (BEAT.LOCK.on (0 : DieNo).val) = 2) ∧ (((((linked 0 6).set (BEAT.ROLE.on 0) 1 |>.set (BEAT.LOCK.on 0) 2).onLink 0 0 (fun k => { k with diffs := List.replicate 16 1, peerLocked := true })).linkLog (0 : DieNo).val (0 : LinkNo).val).peerLocked = true) ∧ (16 ≤ ((((linked 0 6).set (BEAT.ROLE.on 0) 1 |>.set (BEAT.LOCK.on 0) 2).onLink 0 0 (fun k => { k with diffs := List.replicate 16 1, peerLocked := true })).linkLog (0 : DieNo).val (0 : LinkNo).val).diffs.length) ∧ (((((linked 0 6).set (BEAT.ROLE.on 0) 1 |>.set (BEAT.LOCK.on 0) 2).onLink 0 0 (fun k => { k with diffs := List.replicate 16 1, peerLocked := true })).linkLog (0 : DieNo).val (0 : LinkNo).val).diffs.any (fun n => decide (1 < n)) = false)) ∧
    (((((linked 0 6).set (BEAT.ROLE.on 0) 1 |>.set (BEAT.LOCK.on 0) 2).onLink 0 0 (fun k => { k with diffs := List.replicate 16 2, peerLocked := true })).trains (0 : DieNo).val (0 : LinkNo).val .beatLock = true) ∧ ((((linked 0 6).set (BEAT.ROLE.on 0) 1 |>.set (BEAT.LOCK.on 0) 2).onLink 0 0 (fun k => { k with diffs := List.replicate 16 2, peerLocked := true })).isParent (0 : DieNo).val (0 : LinkNo).val = false) ∧ ((((linked 0 6).set (BEAT.ROLE.on 0) 1 |>.set (BEAT.LOCK.on 0) 2).onLink 0 0 (fun k => { k with diffs := List.replicate 16 2, peerLocked := true })).get (BEAT.LOCK.on (0 : DieNo).val) = 2) ∧ (((((linked 0 6).set (BEAT.ROLE.on 0) 1 |>.set (BEAT.LOCK.on 0) 2).onLink 0 0 (fun k => { k with diffs := List.replicate 16 2, peerLocked := true })).linkLog (0 : DieNo).val (0 : LinkNo).val).peerLocked = true) ∧ (16 ≤ ((((linked 0 6).set (BEAT.ROLE.on 0) 1 |>.set (BEAT.LOCK.on 0) 2).onLink 0 0 (fun k => { k with diffs := List.replicate 16 2, peerLocked := true })).linkLog (0 : DieNo).val (0 : LinkNo).val).diffs.length) ∧ (((((linked 0 6).set (BEAT.ROLE.on 0) 1 |>.set (BEAT.LOCK.on 0) 2).onLink 0 0 (fun k => { k with diffs := List.replicate 16 2, peerLocked := true })).linkLog (0 : DieNo).val (0 : LinkNo).val).diffs.any (fun n => decide (1 < n)) = true)) ∧
    ((((linked 0 6).set (BEAT.ROLE.on 0) 1 |>.set (BEAT.LOCK.on 0) 2).isParent (0 : DieNo).val (0 : LinkNo).val = false) ∧ (((linked 0 6).set (BEAT.ROLE.on 0) 1 |>.set (BEAT.LOCK.on 0) 2).get (BEAT.LOCK.on (0 : DieNo).val) ≠ 2 ∨ (((linked 0 6).set (BEAT.ROLE.on 0) 1 |>.set (BEAT.LOCK.on 0) 2).linkLog (0 : DieNo).val (0 : LinkNo).val).peerLocked = false ∨ (((linked 0 6).set (BEAT.ROLE.on 0) 1 |>.set (BEAT.LOCK.on 0) 2).linkLog (0 : DieNo).val (0 : LinkNo).val).diffs.length < 16)) ∧
    ((({ (linked 0 4).set (HL.TRAIN_LIMIT.at 0 0) 3 with clock := 20000 }).bound (0 : DieNo).val (0 : LinkNo).val = some ((20000, 0) : Nat × Nat)) ∧ (((20000, 0) : Nat × Nat).2 + ((20000, 0) : Nat × Nat).1 ≤ ({ (linked 0 4).set (HL.TRAIN_LIMIT.at 0 0) 3 with clock := 20000 }).clock) ∧ ((({ (linked 0 4).set (HL.TRAIN_LIMIT.at 0 0) 3 with clock := 20000 }).count (HL.RETRIES.at (0 : DieNo).val (0 : LinkNo).val)).get (HL.RETRIES.at (0 : DieNo).val (0 : LinkNo).val) < (({ (linked 0 4).set (HL.TRAIN_LIMIT.at 0 0) 3 with clock := 20000 }).count (HL.RETRIES.at (0 : DieNo).val (0 : LinkNo).val)).get (HL.TRAIN_LIMIT.at (0 : DieNo).val (0 : LinkNo).val))) ∧
    ((({ (linked 0 4).set (HL.TRAIN_LIMIT.at 0 0) 1 with clock := 20000 }).bound (0 : DieNo).val (0 : LinkNo).val = some ((20000, 0) : Nat × Nat)) ∧ (((20000, 0) : Nat × Nat).2 + ((20000, 0) : Nat × Nat).1 ≤ ({ (linked 0 4).set (HL.TRAIN_LIMIT.at 0 0) 1 with clock := 20000 }).clock) ∧ ((({ (linked 0 4).set (HL.TRAIN_LIMIT.at 0 0) 1 with clock := 20000 }).count (HL.RETRIES.at (0 : DieNo).val (0 : LinkNo).val)).get (HL.TRAIN_LIMIT.at (0 : DieNo).val (0 : LinkNo).val) ≤ (({ (linked 0 4).set (HL.TRAIN_LIMIT.at 0 0) 1 with clock := 20000 }).count (HL.RETRIES.at (0 : DieNo).val (0 : LinkNo).val)).get (HL.RETRIES.at (0 : DieNo).val (0 : LinkNo).val))) ∧
    (((linked 0 4).bound (0 : DieNo).val (0 : LinkNo).val = none ∨ ((linked 0 4).bound (0 : DieNo).val (0 : LinkNo).val = some ((20000, 0) : Nat × Nat) ∧ (linked 0 4).clock < ((20000, 0) : Nat × Nat).2 + ((20000, 0) : Nat × Nat).1))) ∧
    ((({ (linked 0 4).onLink 0 0 (fun k => { k with retryWait := true }) with clock := 10000 }).inReset (0 : DieNo).val = false) ∧ ((({ (linked 0 4).onLink 0 0 (fun k => { k with retryWait := true }) with clock := 10000 }).linkLog (0 : DieNo).val (0 : LinkNo).val).retryWait = true) ∧ ((({ (linked 0 4).onLink 0 0 (fun k => { k with retryWait := true }) with clock := 10000 }).linkLog (0 : DieNo).val (0 : LinkNo).val).entered + 10000 ≤ ({ (linked 0 4).onLink 0 0 (fun k => { k with retryWait := true }) with clock := 10000 }).clock)) ∧
    ((((linked 0 4).linkLog (0 : DieNo).val (0 : LinkNo).val).retryWait = false ∨ (linked 0 4).clock < ((linked 0 4).linkLog (0 : DieNo).val (0 : LinkNo).val).entered + 10000)) :=
  by and_intros <;> decide +kernel

theorem test_hypotheses_of_BeatsAndReleasesAreAgreed :
    (((linked 0 7).inReset (0 : DieNo).val = false) ∧ ((linked 0 7).linkIs (0 : DieNo).val (0 : LinkNo).val .up = true ∨ (linked 0 7).linkIs (0 : DieNo).val (0 : LinkNo).val .beatLock = true)) ∧
    (((linked 0 7).receives (0 : DieNo).val (0 : LinkNo).val = true) ∧ (decodeCodeword ((linked 0 7).rx (0 : DieNo).val (0 : LinkNo).val).descrambler ((linked 0 7).symbolsOf (0 : DieNo).val (0 : LinkNo).val ((carried (List.replicate 272 0) (List.replicate 272 0)) : Codeword)) = (.badCrc, (0 : Nat)))) ∧
    (((linked 0 7).receives (0 : DieNo).val (0 : LinkNo).val = true) ∧ (decodeCodeword ((linked 0 7).rx (0 : DieNo).val (0 : LinkNo).val).descrambler ((linked 0 7).symbolsOf (0 : DieNo).val (0 : LinkNo).val (blank : Codeword)) = (.good (0 : Nat) (({}) : Ccb) ((List.replicate 17 (0, 0)) : List (Nat × Nat)), (blankSent.2 : Nat)))) ∧
    (((linked 0 7).receives (0 : DieNo).val (0 : LinkNo).val = true) ∧ (decodeCodeword ((linked 0 7).rx (0 : DieNo).val (0 : LinkNo).val).descrambler ((linked 0 7).symbolsOf (0 : DieNo).val (0 : LinkNo).val (garbled : Codeword)) = (.uncorrectable, (0 : Nat)))) ∧
    (((linked 0 2).receives (0 : DieNo).val (0 : LinkNo).val = false)) ∧
    (((linked 0 7).inReset (0 : DieNo).val = false) ∧ ((linked 0 7).linkIs (0 : DieNo).val (0 : LinkNo).val .up = true ∨ (linked 0 7).linkIs (0 : DieNo).val (0 : LinkNo).val .beatLock = true) ∧ (((linked 0 7).linkLog (0 : DieNo).val (0 : LinkNo).val).marked = none ∨ (true : Bool) = true)) ∧
    ((((linked 0 7).onLink 0 0 (fun k => { k with marked := some 9 })).inReset (0 : DieNo).val = false) ∧ (((linked 0 7).onLink 0 0 (fun k => { k with marked := some 9 })).linkIs (0 : DieNo).val (0 : LinkNo).val .up = true) ∧ ((((linked 0 7).onLink 0 0 (fun k => { k with marked := some 9 })).linkLog (0 : DieNo).val (0 : LinkNo).val).marked = some (9 : Nat)) ∧ ((0 : BitVec 56).toNat ≤ (9 : Nat) ∨ (9 : Nat) + 1 + (((linked 0 7).onLink 0 0 (fun k => { k with marked := some 9 })).linkLog (0 : DieNo).val (0 : LinkNo).val).lostCw < (0 : BitVec 56).toNat) ∧ ((false : Bool) = false)) ∧
    (((on.set (BEAT.ROLE.on 0) 1).inReset (0 : DieNo).val = false) ∧ ((on.set (BEAT.ROLE.on 0) 1).isRoot (0 : DieNo).val = true)) ∧
    ((((linked 0 6).set (BEAT.LOCK.on 0) 2 |>.onLink 0 0 (fun k => { k with errs := [9], latest := some 9 })).inReset (0 : DieNo).val = false) ∧ ((((linked 0 6).set (BEAT.LOCK.on 0) 2 |>.onLink 0 0 (fun k => { k with errs := [9], latest := some 9 })).linkLog (0 : DieNo).val (((linked 0 6).set (BEAT.LOCK.on 0) 2 |>.onLink 0 0 (fun k => { k with errs := [9], latest := some 9 })).parentLink (0 : DieNo).val)).latest = some (9 : Int)) ∧ (((linked 0 6).set (BEAT.LOCK.on 0) 2 |>.onLink 0 0 (fun k => { k with errs := [9], latest := some 9 })).stepping (0 : DieNo).val = true) ∧ (errOver (((linked 0 6).set (BEAT.LOCK.on 0) 2 |>.onLink 0 0 (fun k => { k with errs := [9], latest := some 9 })).linkLog (0 : DieNo).val (((linked 0 6).set (BEAT.LOCK.on 0) 2 |>.onLink 0 0 (fun k => { k with errs := [9], latest := some 9 })).parentLink (0 : DieNo).val)).errs 4 = true)) ∧
    ((((linked 0 7).set (BEAT.LOCK.on 0) 2 |>.onLink 0 0 (fun k => { k with errs := [9], latest := some 9 })).inReset (0 : DieNo).val = false) ∧ (((linked 0 7).set (BEAT.LOCK.on 0) 2 |>.onLink 0 0 (fun k => { k with errs := [9], latest := some 9 })).isRoot (0 : DieNo).val = false) ∧ ((((linked 0 7).set (BEAT.LOCK.on 0) 2 |>.onLink 0 0 (fun k => { k with errs := [9], latest := some 9 })).linkLog (0 : DieNo).val (((linked 0 7).set (BEAT.LOCK.on 0) 2 |>.onLink 0 0 (fun k => { k with errs := [9], latest := some 9 })).parentLink (0 : DieNo).val)).latest = some (9 : Int)) ∧ (((linked 0 7).set (BEAT.LOCK.on 0) 2 |>.onLink 0 0 (fun k => { k with errs := [9], latest := some 9 })).stepping (0 : DieNo).val = false) ∧ (((linked 0 7).set (BEAT.LOCK.on 0) 2 |>.onLink 0 0 (fun k => { k with errs := [9], latest := some 9 })).get (BEAT.LOCK.on (0 : DieNo).val) = 1 ∨ ((linked 0 7).set (BEAT.LOCK.on 0) 2 |>.onLink 0 0 (fun k => { k with errs := [9], latest := some 9 })).get (BEAT.LOCK.on (0 : DieNo).val) = 2) ∧ (errOver (((linked 0 7).set (BEAT.LOCK.on 0) 2 |>.onLink 0 0 (fun k => { k with errs := [9], latest := some 9 })).linkLog (0 : DieNo).val (((linked 0 7).set (BEAT.LOCK.on 0) 2 |>.onLink 0 0 (fun k => { k with errs := [9], latest := some 9 })).parentLink (0 : DieNo).val)).errs 4 = true) ∧ (((linked 0 7).set (BEAT.LOCK.on 0) 2 |>.onLink 0 0 (fun k => { k with errs := [9], latest := some 9 })).get (HASPI.SLIP_WAIT.on (0 : DieNo).val) = 0)) ∧
    (((linked 0 7).inReset (0 : DieNo).val = false) ∧ (errOver ((linked 0 7).linkLog (0 : DieNo).val ((linked 0 7).parentLink (0 : DieNo).val)).errs 4 = false)) ∧
    ((((linked 0 7).onLink 0 0 (fun k => { k with child := true })).inReset (0 : DieNo).val = false) ∧ (((linked 0 7).onLink 0 0 (fun k => { k with child := true })).linkIs (0 : DieNo).val (0 : LinkNo).val .up = true) ∧ ((((linked 0 7).onLink 0 0 (fun k => { k with child := true })).linkLog (0 : DieNo).val (0 : LinkNo).val).child = true)) ∧
    (((linked 0 7).inReset (0 : DieNo).val = false) ∧ ((linked 0 7).linkIs (0 : DieNo).val (0 : LinkNo).val .up = true) ∧ (((linked 0 7).linkLog (0 : DieNo).val (0 : LinkNo).val).child = false)) ∧
    ((((linked 0 7).set (BEAT.ROLE.on 0) 0).inReset (0 : DieNo).val = false) ∧ (((linked 0 7).set (BEAT.ROLE.on 0) 0).linkIs (0 : DieNo).val (0 : LinkNo).val .up = true) ∧ (((linked 0 7).set (BEAT.ROLE.on 0) 0).isParent (0 : DieNo).val (0 : LinkNo).val = true)) ∧
    ((((linked 0 7).set (BEAT.ROLE.on 0) 1).inReset (0 : DieNo).val = false) ∧ (((linked 0 7).set (BEAT.ROLE.on 0) 1).linkIs (0 : DieNo).val (0 : LinkNo).val .up = true) ∧ (((linked 0 7).set (BEAT.ROLE.on 0) 1).isParent (0 : DieNo).val (0 : LinkNo).val = false)) ∧
    (((on.setPhase 0 .releaseWait).inReset (0 : DieNo).val = false) ∧ ((on.setPhase 0 .releaseWait).phaseIs (0 : DieNo).val .releaseWait = true) ∧ ((on.setPhase 0 .releaseWait).is (HASPI.RELEASED.on (0 : DieNo).val) = false)) :=
  by and_intros <;> decide +kernel

theorem test_hypotheses_of_LinksAreLostAndForwardFaults :
    (((linked 0 7).inReset (0 : DieNo).val = false) ∧ ((linked 0 7).linkIs (0 : DieNo).val (0 : LinkNo).val .up = true)) ∧
    ((((linked 0 7).onLink 0 0 (fun k => { k with rx := { k.rx with bad := 8 } })).inReset (0 : DieNo).val = false) ∧ (((linked 0 7).onLink 0 0 (fun k => { k with rx := { k.rx with bad := 8 } })).linkIs (0 : DieNo).val (0 : LinkNo).val .up = true) ∧ (8 ≤ (((linked 0 7).onLink 0 0 (fun k => { k with rx := { k.rx with bad := 8 } })).linkLog (0 : DieNo).val (0 : LinkNo).val).rx.bad)) ∧
    ((((linked 0 7).onLink 0 0 (fun k => { k with missed := 4 })).inReset (0 : DieNo).val = false) ∧ (((linked 0 7).onLink 0 0 (fun k => { k with missed := 4 })).linkIs (0 : DieNo).val (0 : LinkNo).val .up = true) ∧ (4 ≤ (((linked 0 7).onLink 0 0 (fun k => { k with missed := 4 })).linkLog (0 : DieNo).val (0 : LinkNo).val).missed)) ∧
    (((linked 0 7).inReset (0 : DieNo).val = false) ∧ ((linked 0 7).linkIs (0 : DieNo).val (0 : LinkNo).val .up = true)) ∧
    (((linked 0 7).inReset (0 : DieNo).val = false) ∧ ((linked 0 7).linkIs (0 : DieNo).val (0 : LinkNo).val .up = true)) ∧
    (((linked 0 8).linkIs (0 : DieNo).val (0 : LinkNo).val .up = false) ∧ (((linked 0 8).linkLog (0 : DieNo).val (0 : LinkNo).val).leftAt ≠ some (linked 0 8).clock)) ∧
    ((((linked 0 7).linkLog (0 : DieNo).val (0 : LinkNo).val).rx.bad < 8)) ∧
    ((((linked 0 7).linkLog (0 : DieNo).val (0 : LinkNo).val).missed < 4)) ∧
    ((((linked 0 10).onLink 0 0 (fun k => { k with leftAt := some 0 })).inReset (0 : DieNo).val = false) ∧ (((linked 0 10).onLink 0 0 (fun k => { k with leftAt := some 0 })).leaving (0 : DieNo).val (0 : LinkNo).val .lost = some false)) ∧
    ((({ (linked 0 8).set (HL.AUTO_RETRAIN.at 0 0) 1 with clock := 10000 }).inReset (0 : DieNo).val = false) ∧ (({ (linked 0 8).set (HL.AUTO_RETRAIN.at 0 0) 1 with clock := 10000 }).linkIs (0 : DieNo).val (0 : LinkNo).val .lost = true) ∧ (({ (linked 0 8).set (HL.AUTO_RETRAIN.at 0 0) 1 with clock := 10000 }).is (HL.AUTO_RETRAIN.at (0 : DieNo).val (0 : LinkNo).val) = true) ∧ ((({ (linked 0 8).set (HL.AUTO_RETRAIN.at 0 0) 1 with clock := 10000 }).linkLog (0 : DieNo).val (0 : LinkNo).val).entered + 10000 ≤ ({ (linked 0 8).set (HL.AUTO_RETRAIN.at 0 0) 1 with clock := 10000 }).clock)) ∧
    (((linked 0 8).linkIs (0 : DieNo).val (0 : LinkNo).val .lost = false ∨ (linked 0 8).is (HL.AUTO_RETRAIN.at (0 : DieNo).val (0 : LinkNo).val) = false ∨ (linked 0 8).clock < ((linked 0 8).linkLog (0 : DieNo).val (0 : LinkNo).val).entered + 10000)) ∧
    (((linked 0 7).inReset (0 : DieNo).val = false) ∧ (3 ≤ (linked 0 7).get (HL.STATE.at (0 : DieNo).val (0 : LinkNo).val)) ∧ ((linked 0 7).get (HL.STATE.at (0 : DieNo).val (0 : LinkNo).val) ≤ 7)) ∧
    (((linked 0 12).inReset (0 : DieNo).val = false) ∧ ((linked 0 12).linkIs (0 : DieNo).val (0 : LinkNo).val .peerFenced = true)) ∧
    (((linked 30 7).inReset (0 : DieNo).val = false) ∧ ((linked 30 7).linkIs (0 : DieNo).val (30 : LinkNo).val .up = true) ∧ ((0 : DieNo).val ≠ 0 ∨ onTray (30 : LinkNo).val = false)) ∧
    (((linked 0 7).inReset 0 = false) ∧ ((linked 0 7).linkIs 0 (0 : LinkNo).val .up = true) ∧ (onTray (0 : LinkNo).val = true) ∧ (((linked 0 7).die 0).frags.filter (fun f => f.src == linkPeer 0 (0 : LinkNo).val && f.seq == (0 : BitVec 6).toNat) = [])) ∧
    ((((linked 0 7).onDie 0 (fun x => { x with frags := [⟨1, 0, [(0, []), (1, []), (2, [])]⟩] })).inReset 0 = false) ∧ (((linked 0 7).onDie 0 (fun x => { x with frags := [⟨1, 0, [(0, []), (1, []), (2, [])]⟩] })).linkIs 0 (0 : LinkNo).val .up = true) ∧ (onTray (0 : LinkNo).val = true) ∧ ((((linked 0 7).onDie 0 (fun x => { x with frags := [⟨1, 0, [(0, []), (1, []), (2, [])]⟩] })).die 0).frags.filter (fun g => g.src == linkPeer 0 (0 : LinkNo).val && g.seq == (0 : BitVec 6).toNat) = ((⟨1, 0, [(0, []), (1, []), (2, [])]⟩) : Frag) :: ([] : List Frag)) ∧ (4 ≤ (aput ((⟨1, 0, [(0, []), (1, []), (2, [])]⟩) : Frag).parts (3 : Fin 4).val ((List.range 4).map (fun i => (([] : List (BitVec 32)).map BitVec.toNat).getD i 0))).length)) ∧
    (((on.onDie 0 (fun x => { x with frags := [⟨0, 0, []⟩] })).inReset 0 = false) ∧ (((on.onDie 0 (fun x => { x with frags := [⟨0, 0, []⟩] })).die 0).frags.any (fun f => f.src == (0 : DieNo).val && f.seq == (0 : BitVec 6).toNat) = true)) :=
  by and_intros <;> decide +kernel

theorem test_hypotheses_of_StreamsAreDescribedSentAndReceived :
    ((on.Reaches (0 : DieNo).val SDESC.page SDESC.WRITE 0 (1 : Requester)) ∧ ((2 : Nat) = on.descRefusal (0 : DieNo).val (on.stream (0 : DieNo).val (on.get (SDESC.DSEL.on (0 : DieNo).val))) (on.stagedDesc (0 : DieNo).val)) ∧ ((2 : Nat) ≠ 0)) ∧
    (((windowed (((on.set (SDESC.STAGE.at 0 4) 1).set (SDESC.STAGE.at 0 5) 1).set (SDESC.STAGE.at 0 7) 1)).Reaches (0 : DieNo).val SDESC.page SDESC.WRITE 0 (1 : Requester)) ∧ ((0 : Nat) = (windowed (((on.set (SDESC.STAGE.at 0 4) 1).set (SDESC.STAGE.at 0 5) 1).set (SDESC.STAGE.at 0 7) 1)).get (SDESC.DSEL.on (0 : DieNo).val)) ∧ (({ chunks := 1, tail := 1, wrap := 1 } : Stream) = (windowed (((on.set (SDESC.STAGE.at 0 4) 1).set (SDESC.STAGE.at 0 5) 1).set (SDESC.STAGE.at 0 7) 1)).stagedDesc (0 : DieNo).val) ∧ ((windowed (((on.set (SDESC.STAGE.at 0 4) 1).set (SDESC.STAGE.at 0 5) 1).set (SDESC.STAGE.at 0 7) 1)).descRefusal (0 : DieNo).val ((windowed (((on.set (SDESC.STAGE.at 0 4) 1).set (SDESC.STAGE.at 0 5) 1).set (SDESC.STAGE.at 0 7) 1)).stream (0 : DieNo).val (0 : Nat)) ({ chunks := 1, tail := 1, wrap := 1 } : Stream) = 0) ∧ (streamOn ({ chunks := 1, tail := 1, wrap := 1 } : Stream) = true ∨ ((windowed (((on.set (SDESC.STAGE.at 0 4) 1).set (SDESC.STAGE.at 0 5) 1).set (SDESC.STAGE.at 0 7) 1)).stream (0 : DieNo).val (0 : Nat)).xfers = [])) ∧
    (((windowed (((on.set (SDESC.STAGE.at 0 4) 1).set (SDESC.STAGE.at 0 5) 1).set (SDESC.STAGE.at 0 7) 1) |>.setStream 0 0 { xfers := [{ seq := 0, first := 0 }] }).Reaches (0 : DieNo).val SDESC.page SDESC.WRITE 0 (1 : Requester)) ∧ ((0 : Nat) = (windowed (((on.set (SDESC.STAGE.at 0 4) 1).set (SDESC.STAGE.at 0 5) 1).set (SDESC.STAGE.at 0 7) 1) |>.setStream 0 0 { xfers := [{ seq := 0, first := 0 }] }).get (SDESC.DSEL.on (0 : DieNo).val)) ∧ (({ chunks := 1, tail := 1, wrap := 1 } : Stream) = (windowed (((on.set (SDESC.STAGE.at 0 4) 1).set (SDESC.STAGE.at 0 5) 1).set (SDESC.STAGE.at 0 7) 1) |>.setStream 0 0 { xfers := [{ seq := 0, first := 0 }] }).stagedDesc (0 : DieNo).val) ∧ ((windowed (((on.set (SDESC.STAGE.at 0 4) 1).set (SDESC.STAGE.at 0 5) 1).set (SDESC.STAGE.at 0 7) 1) |>.setStream 0 0 { xfers := [{ seq := 0, first := 0 }] }).descRefusal (0 : DieNo).val ((windowed (((on.set (SDESC.STAGE.at 0 4) 1).set (SDESC.STAGE.at 0 5) 1).set (SDESC.STAGE.at 0 7) 1) |>.setStream 0 0 { xfers := [{ seq := 0, first := 0 }] }).stream (0 : DieNo).val (0 : Nat)) ({ chunks := 1, tail := 1, wrap := 1 } : Stream) = 0) ∧ (streamOn ({ chunks := 1, tail := 1, wrap := 1 } : Stream) = false) ∧ (((windowed (((on.set (SDESC.STAGE.at 0 4) 1).set (SDESC.STAGE.at 0 5) 1).set (SDESC.STAGE.at 0 7) 1) |>.setStream 0 0 { xfers := [{ seq := 0, first := 0 }] }).stream (0 : DieNo).val (0 : Nat)).xfers ≠ [])) ∧
    (on.Reaches (0 : DieNo).val SDESC.page SDESC.READ 0 (1 : Requester)) ∧
    (((streaming 1).Reaches (0 : DieNo).val STRM.page STRM.POST_ID 0 (1 : Requester)) ∧ (streamOn ((streaming 1).stream (0 : DieNo).val (0 : BitVec 16).toNat) = true) ∧ (streamIn ((streaming 1).stream (0 : DieNo).val (0 : BitVec 16).toNat) = false) ∧ (streamSync ((streaming 1).stream (0 : DieNo).val (0 : BitVec 16).toNat) = false)) ∧
    ((on.Reaches (0 : DieNo).val STRM.page STRM.POST_ID 0 (1 : Requester)) ∧ (streamOn (on.stream (0 : DieNo).val (0 : BitVec 16).toNat) = false ∨ streamIn (on.stream (0 : DieNo).val (0 : BitVec 16).toNat) = true)) ∧
    (((on.setStream 0 0 { ctrl := 5 }).Reaches (0 : DieNo).val STRM.page STRM.POST_ID 0 (1 : Requester)) ∧ (streamOn ((on.setStream 0 0 { ctrl := 5 }).stream (0 : DieNo).val (0 : BitVec 16).toNat) = true) ∧ (streamIn ((on.setStream 0 0 { ctrl := 5 }).stream (0 : DieNo).val (0 : BitVec 16).toNat) = false) ∧ (streamSync ((on.setStream 0 0 { ctrl := 5 }).stream (0 : DieNo).val (0 : BitVec 16).toNat) = true)) ∧
    (((streaming 1).sends (0 : DieNo).val (0 : LinkNo).val = true) ∧ (((streaming 1).linkLog (0 : DieNo).val (0 : LinkNo).val).tx.slot = (0 : Fin 8).val)) ∧
    ((on.sends (0 : DieNo).val (0 : LinkNo).val = false ∨ (on.linkLog (0 : DieNo).val (0 : LinkNo).val).tx.slot ≠ (0 : Fin 8).val)) ∧
    (((streaming 1).linkIs (0 : DieNo).val (0 : LinkNo).val .up = true) ∧ (((streaming 1).slink (0 : DieNo).val (0 : LinkNo).val).state = 0) ∧ ((0 : Nat) = (streaming 1).slotEntry (0 : DieNo).val (0 : LinkNo).val ((streaming 1).beat (0 : DieNo).val) (0 : Fin 8).val % 65536) ∧ ((0 : Nat) ≠ 0xFFFF) ∧ (nextChunk ((streaming 1).stream (0 : DieNo).val (0 : Nat)) = some ((0 : Nat), false)) ∧ (((streaming 1).slink (0 : DieNo).val (0 : LinkNo).val).credits ≠ 0)) ∧
    ((((streaming 1).onSlink 0 0 (fun k => { k with credits := 0 })).linkIs (0 : DieNo).val (0 : LinkNo).val .up = true) ∧ ((((streaming 1).onSlink 0 0 (fun k => { k with credits := 0 })).slink (0 : DieNo).val (0 : LinkNo).val).state = 0) ∧ ((0 : Nat) = ((streaming 1).onSlink 0 0 (fun k => { k with credits := 0 })).slotEntry (0 : DieNo).val (0 : LinkNo).val (((streaming 1).onSlink 0 0 (fun k => { k with credits := 0 })).beat (0 : DieNo).val) (0 : Fin 8).val % 65536) ∧ ((0 : Nat) ≠ 0xFFFF) ∧ (nextChunk (((streaming 1).onSlink 0 0 (fun k => { k with credits := 0 })).stream (0 : DieNo).val (0 : Nat)) = some ((0 : Nat), (false : Bool))) ∧ ((((streaming 1).onSlink 0 0 (fun k => { k with credits := 0 })).slink (0 : DieNo).val (0 : LinkNo).val).credits = 0)) ∧
    ((((0xFFFF) : Nat) = on.slotEntry (0 : DieNo).val (0 : LinkNo).val (on.beat (0 : DieNo).val) (0 : Fin 8).val % 65536) ∧ (on.linkIs (0 : DieNo).val (0 : LinkNo).val .up = false ∨ (on.slink (0 : DieNo).val (0 : LinkNo).val).state ≠ 0 ∨ ((0xFFFF) : Nat) = 0xFFFF ∨ nextChunk (on.stream (0 : DieNo).val ((0xFFFF) : Nat)) = none)) ∧
    (((streaming 1).inReset (0 : DieNo).val = false) ∧ ((streaming 1).linkIs (0 : DieNo).val (0 : LinkNo).val .up = true) ∧ (((streaming 1).slink (0 : DieNo).val (0 : LinkNo).val).acks.length < 64) ∧ ((1 : BitVec 16).toNat ≠ 0xFFFF) ∧ ((streaming 1).slotEntry (0 : DieNo).val (0 : LinkNo).val (0 : Nat) (0 : Fin 8).val / 65536 = (1 : BitVec 16).toNat) ∧ (streamOn ((streaming 1).stream (0 : DieNo).val (1 : BitVec 16).toNat) = true) ∧ (((streaming 1).stream (0 : DieNo).val (1 : BitVec 16).toNat).state ≠ .halted) ∧ (nearestSeq ((streaming 1).stream (0 : DieNo).val (1 : BitVec 16).toNat).next (0 : BitVec 16).toNat = ((streaming 1).stream (0 : DieNo).val (1 : BitVec 16).toNat).next)) ∧
    (((streaming 1).inReset (0 : DieNo).val = false) ∧ ((streaming 1).linkIs (0 : DieNo).val (0 : LinkNo).val .up = true) ∧ (((streaming 1).slink (0 : DieNo).val (0 : LinkNo).val).acks.length < 64) ∧ ((streaming 1).slotEntry (0 : DieNo).val (0 : LinkNo).val (0 : Nat) (0 : Fin 8).val / 65536 ≠ (2 : BitVec 16).toNat)) ∧
    ((((streaming 1).onSlink 0 0 (fun k => { k with acks := [(1, 0)] })).inReset (0 : DieNo).val = false) ∧ ((((streaming 1).onSlink 0 0 (fun k => { k with acks := [(1, 0)] })).slink (0 : DieNo).val (0 : LinkNo).val).acks = ((1, 0) : Nat × Nat) :: ([] : List (Nat × Nat))) ∧ (((1, 0) : Nat × Nat).1 ≠ 65536)) ∧
    (((streaming 1).inReset (0 : DieNo).val = false) ∧ ((streaming 1).linkIs (0 : DieNo).val (0 : LinkNo).val .up = true) ∧ (((streaming 1).slink (0 : DieNo).val (0 : LinkNo).val).credits + (0 : BitVec 8).toNat ≤ 64)) ∧
    (((streaming 1).inReset (0 : DieNo).val = false) ∧ ((streaming 1).linkIs (0 : DieNo).val (0 : LinkNo).val .up = true) ∧ (64 < ((streaming 1).slink (0 : DieNo).val (0 : LinkNo).val).credits + (1 : BitVec 8).toNat)) ∧
    (((streaming 1).inReset (0 : DieNo).val = false) ∧ ((streaming 1).linkIs (0 : DieNo).val (0 : LinkNo).val .up = true) ∧ (((streaming 1).slink (0 : DieNo).val (0 : LinkNo).val).recs.find? (fun r => r.beat % 256 == (0 : BitVec 8).toNat && r.slot == (0 : Fin 8).val && decide ((streaming 1).beat (0 : DieNo).val ≤ r.beat + 16)) = none)) ∧
    ((((((streaming 1).onSlink 0 0 (fun k => { k with credits := 1, recs := [⟨0, 0, 0, 0⟩] })).setStream 0 0 { ctrl := 1, next := 1, resend := 1 }).set (STRM.RESEND_LIMIT.on 0) 3).inReset (0 : DieNo).val = false) ∧ (((((streaming 1).onSlink 0 0 (fun k => { k with credits := 1, recs := [⟨0, 0, 0, 0⟩] })).setStream 0 0 { ctrl := 1, next := 1, resend := 1 }).set (STRM.RESEND_LIMIT.on 0) 3).linkIs (0 : DieNo).val (0 : LinkNo).val .up = true) ∧ ((((((streaming 1).onSlink 0 0 (fun k => { k with credits := 1, recs := [⟨0, 0, 0, 0⟩] })).setStream 0 0 { ctrl := 1, next := 1, resend := 1 }).set (STRM.RESEND_LIMIT.on 0) 3).slink (0 : DieNo).val (0 : LinkNo).val).recs.find? (fun r => r.beat % 256 == (0 : BitVec 8).toNat && r.slot == (0 : Fin 8).val && decide (((((streaming 1).onSlink 0 0 (fun k => { k with credits := 1, recs := [⟨0, 0, 0, 0⟩] })).setStream 0 0 { ctrl := 1, next := 1, resend := 1 }).set (STRM.RESEND_LIMIT.on 0) 3).beat (0 : DieNo).val ≤ r.beat + 16)) = some (⟨0, 0, 0, 0⟩ : SlotRec)) ∧ ((((((streaming 1).onSlink 0 0 (fun k => { k with credits := 1, recs := [⟨0, 0, 0, 0⟩] })).setStream 0 0 { ctrl := 1, next := 1, resend := 1 }).set (STRM.RESEND_LIMIT.on 0) 3).slink (0 : DieNo).val (0 : LinkNo).val).credits < 64) ∧ (streamIn (((((streaming 1).onSlink 0 0 (fun k => { k with credits := 1, recs := [⟨0, 0, 0, 0⟩] })).setStream 0 0 { ctrl := 1, next := 1, resend := 1 }).set (STRM.RESEND_LIMIT.on 0) 3).stream (0 : DieNo).val (⟨0, 0, 0, 0⟩ : SlotRec).stream) = false) ∧ (streamOn (((((streaming 1).onSlink 0 0 (fun k => { k with credits := 1, recs := [⟨0, 0, 0, 0⟩] })).setStream 0 0 { ctrl := 1, next := 1, resend := 1 }).set (STRM.RESEND_LIMIT.on 0) 3).stream (0 : DieNo).val (⟨0, 0, 0, 0⟩ : SlotRec).stream) = true) ∧ ((((((streaming 1).onSlink 0 0 (fun k => { k with credits := 1, recs := [⟨0, 0, 0, 0⟩] })).setStream 0 0 { ctrl := 1, next := 1, resend := 1 }).set (STRM.RESEND_LIMIT.on 0) 3).stream (0 : DieNo).val (⟨0, 0, 0, 0⟩ : SlotRec).stream).state ≠ .halted) ∧ ((⟨0, 0, 0, 0⟩ : SlotRec).chunk < (((((streaming 1).onSlink 0 0 (fun k => { k with credits := 1, recs := [⟨0, 0, 0, 0⟩] })).setStream 0 0 { ctrl := 1, next := 1, resend := 1 }).set (STRM.RESEND_LIMIT.on 0) 3).stream (0 : DieNo).val (⟨0, 0, 0, 0⟩ : SlotRec).stream).resend) ∧ ((aget (((((streaming 1).onSlink 0 0 (fun k => { k with credits := 1, recs := [⟨0, 0, 0, 0⟩] })).setStream 0 0 { ctrl := 1, next := 1, resend := 1 }).set (STRM.RESEND_LIMIT.on 0) 3).stream (0 : DieNo).val (⟨0, 0, 0, 0⟩ : SlotRec).stream).tries (⟨0, 0, 0, 0⟩ : SlotRec).chunk).getD 0 < ((((streaming 1).onSlink 0 0 (fun k => { k with credits := 1, recs := [⟨0, 0, 0, 0⟩] })).setStream 0 0 { ctrl := 1, next := 1, resend := 1 }).set (STRM.RESEND_LIMIT.on 0) 3).get (STRM.RESEND_LIMIT.on (0 : DieNo).val))) ∧
    ((((streaming 1).onSlink 0 0 (fun k => { k with recs := [⟨0, 0, 0, 0⟩] })).inReset (0 : DieNo).val = false) ∧ (((streaming 1).onSlink 0 0 (fun k => { k with recs := [⟨0, 0, 0, 0⟩] })).linkIs (0 : DieNo).val (0 : LinkNo).val .up = true) ∧ ((((streaming 1).onSlink 0 0 (fun k => { k with recs := [⟨0, 0, 0, 0⟩] })).slink (0 : DieNo).val (0 : LinkNo).val).recs.find? (fun r => r.beat % 256 == (0 : BitVec 8).toNat && r.slot == (0 : Fin 8).val && decide (((streaming 1).onSlink 0 0 (fun k => { k with recs := [⟨0, 0, 0, 0⟩] })).beat (0 : DieNo).val ≤ r.beat + 16)) = some (⟨0, 0, 0, 0⟩ : SlotRec)) ∧ ((((streaming 1).onSlink 0 0 (fun k => { k with recs := [⟨0, 0, 0, 0⟩] })).slink (0 : DieNo).val (0 : LinkNo).val).credits = 64)) :=
  by and_intros <;> decide +kernel

theorem test_hypotheses_of_StreamSwitchesReadmissionAndLimits :
    (((linked 0 7).inReset (0 : DieNo).val = false) ∧ ((linked 0 7).linkIs (0 : DieNo).val (0 : LinkNo).val .up = true) ∧ (((linked 0 7).slink (0 : DieNo).val (0 : LinkNo).val).fixed = false)) ∧
    (((linked 0 8).linkIs (0 : DieNo).val (0 : LinkNo).val .up = false ∨ ((linked 0 8).slink (0 : DieNo).val (0 : LinkNo).val).fixed = true)) ∧
    (((on.set (STRM.SWITCH_PENDING.on 0) 1).inReset (0 : DieNo).val = false) ∧ ((on.set (STRM.SWITCH_PENDING.on 0) 1).is (STRM.SWITCH_PENDING.on (0 : DieNo).val) = true) ∧ ((on.set (STRM.SWITCH_PENDING.on 0) 1).get (STRMI.OWN.on (0 : DieNo).val) ≤ (on.set (STRM.SWITCH_PENDING.on 0) 1).beat (0 : DieNo).val)) ∧
    ((on.is (STRM.SWITCH_PENDING.on (0 : DieNo).val) = false ∨ on.beat (0 : DieNo).val < on.get (STRMI.OWN.on (0 : DieNo).val))) ∧
    ((((streaming 1).onSlink 0 0 (fun k => { k with switching := true })).inReset (0 : DieNo).val = false) ∧ ((((streaming 1).onSlink 0 0 (fun k => { k with switching := true })).slink (0 : DieNo).val (0 : LinkNo).val).switching = true) ∧ ((((streaming 1).onSlink 0 0 (fun k => { k with switching := true })).slink (0 : DieNo).val (0 : LinkNo).val).peer = none) ∧ (((streaming 1).onSlink 0 0 (fun k => { k with switching := true })).get (STRMI.OWN.on (0 : DieNo).val) ≤ ((streaming 1).onSlink 0 0 (fun k => { k with switching := true })).beat (0 : DieNo).val + 4)) ∧
    (((on.slink (0 : DieNo).val (0 : LinkNo).val).switching = false ∨ (on.slink (0 : DieNo).val (0 : LinkNo).val).peer ≠ none ∨ on.beat (0 : DieNo).val + 4 < on.get (STRMI.OWN.on (0 : DieNo).val))) ∧
    ((((streaming 1).onSlink 0 0 (fun k => { k with state := 2 })).inReset (0 : DieNo).val = false) ∧ (((streaming 1).onSlink 0 0 (fun k => { k with state := 2 })).linkIs (0 : DieNo).val (0 : LinkNo).val .up = true) ∧ ((((streaming 1).onSlink 0 0 (fun k => { k with state := 2 })).slink (0 : DieNo).val (0 : LinkNo).val).state = 2)) ∧
    ((on.Reaches (0 : DieNo).val STRM.page STRM.SCQ_CONS 0 (1 : Requester))) ∧
    (((streaming 1).inReset (0 : DieNo).val = false) ∧ (((streaming 1).stream (0 : DieNo).val (0 : BitVec 16).toNat).xfers.find? (fun t => !xferOver ((streaming 1).stream (0 : DieNo).val (0 : BitVec 16).toNat) t) = some (⟨0, 0, 0, 0, none, false, none⟩ : Xfer))) ∧
    ((((streaming 1).onSlink 0 0 (fun k => { k with credits := 0 })).inReset (0 : DieNo).val = false) ∧ ((((streaming 1).onSlink 0 0 (fun k => { k with credits := 0 })).slink (0 : DieNo).val (0 : LinkNo).val).credits = 0) ∧ ((((streaming 1).onSlink 0 0 (fun k => { k with credits := 0 })).slink (0 : DieNo).val (0 : LinkNo).val).state = 0) ∧ ((((streaming 1).onSlink 0 0 (fun k => { k with credits := 0 })).slink (0 : DieNo).val (0 : LinkNo).val).table = some (⟨0, 1, 0, List.replicate 8 65536⟩ : SlotTable)) ∧ (((⟨0, 1, 0, List.replicate 8 65536⟩ : SlotTable).entries.map (· % 65536)).any (fun id => id != 0xFFFF && (nextChunk (((streaming 1).onSlink 0 0 (fun k => { k with credits := 0 })).stream (0 : DieNo).val id)).isSome) = true)) ∧
    (((on.onDie 0 (fun x => { x with scqWait := [[0]] })).inReset (0 : DieNo).val = false) ∧ (((on.onDie 0 (fun x => { x with scqWait := [[0]] })).die (0 : DieNo).val).scqWait = ([0]) :: ([] : List (List Nat)))) :=
  by and_intros <;> decide +kernel

theorem test_hypotheses_of_ContextsOpenServeDrainAndClose :
    ((((((((((on.set (CTX.CTX_NUM.on 0) 1).set (WLOAD.W0_RUN.on 0) 1).set (WLOAD.W1_RUN.on 0) 1).set (RING.SQ_LOG2.on 0) 4).set (RING.CQ_LOG2.on 0) 4).set (FAULT.FQ_LOG2.on 0) 6).set (RING.CQ_BASE_LO.on 0) 65536).set (FAULT.FQ_BASE_LO.on 0) 131072 |>.set (PART.SIZE.at 0 5) 16).Reaches (0 : DieNo).val CTX.page CTX.OPEN 0 (512 : Requester)) ∧ (((((((((on.set (CTX.CTX_NUM.on 0) 1).set (WLOAD.W0_RUN.on 0) 1).set (WLOAD.W1_RUN.on 0) 1).set (RING.SQ_LOG2.on 0) 4).set (RING.CQ_LOG2.on 0) 4).set (FAULT.FQ_LOG2.on 0) 6).set (RING.CQ_BASE_LO.on 0) 65536).set (FAULT.FQ_BASE_LO.on 0) 131072 |>.set (PART.SIZE.at 0 5) 16).openRefusal (0 : DieNo).val = 0)) ∧
    ((on.Reaches (0 : DieNo).val CTX.page CTX.OPEN 0 (512 : Requester)) ∧ (on.openRefusal (0 : DieNo).val ≠ 0)) ∧
    (((((on.set (CTX.STATE.on 0) 1).set (KRING.VERIFIED.on 0) 1).set (HEAP.INITED.on 0) 1).Reaches (0 : DieNo).val CTX.page CTX.SERVE 0 (512 : Requester)) ∧ ((((on.set (CTX.STATE.on 0) 1).set (KRING.VERIFIED.on 0) 1).set (HEAP.INITED.on 0) 1).get (CTX.STATE.on (0 : DieNo).val) = 1) ∧ ((((on.set (CTX.STATE.on 0) 1).set (KRING.VERIFIED.on 0) 1).set (HEAP.INITED.on 0) 1).is (CTXI.CLOSING.on (0 : DieNo).val) = false) ∧ ((((on.set (CTX.STATE.on 0) 1).set (KRING.VERIFIED.on 0) 1).set (HEAP.INITED.on 0) 1).is (CTXI.BAYS_LOADING.on (0 : DieNo).val) = false) ∧ ((((on.set (CTX.STATE.on 0) 1).set (KRING.VERIFIED.on 0) 1).set (HEAP.INITED.on 0) 1).is (KRING.VERIFIED.on (0 : DieNo).val) = true) ∧ ((((on.set (CTX.STATE.on 0) 1).set (KRING.VERIFIED.on 0) 1).set (HEAP.INITED.on 0) 1).is (HEAP.INITED.on (0 : DieNo).val) = true)) ∧
    ((on.Reaches (0 : DieNo).val CTX.page CTX.SERVE 0 (512 : Requester)) ∧ (on.get (CTX.STATE.on (0 : DieNo).val) ≠ 1)) ∧
    (((on.set (CTX.STATE.on 0) 1).Reaches (0 : DieNo).val CTX.page CTX.SERVE 0 (512 : Requester)) ∧ ((on.set (CTX.STATE.on 0) 1).get (CTX.STATE.on (0 : DieNo).val) = 1) ∧ ((on.set (CTX.STATE.on 0) 1).is (CTXI.CLOSING.on (0 : DieNo).val) = false) ∧ ((on.set (CTX.STATE.on 0) 1).is (CTXI.BAYS_LOADING.on (0 : DieNo).val) = false) ∧ ((on.set (CTX.STATE.on 0) 1).is (KRING.VERIFIED.on (0 : DieNo).val) = false)) ∧
    (((on.set (CTXI.BAYS_LOADING.on 0) 1).inReset (0 : DieNo).val = false) ∧ ((on.set (CTXI.BAYS_LOADING.on 0) 1).is (CTXI.BAYS_LOADING.on (0 : DieNo).val) = true) ∧ (badUnits (⟨[], []⟩ : Ecc) false ((on.set (CTXI.BAYS_LOADING.on 0) 1).bayImages (0 : DieNo).val) (4096 * bayLines * 16) = [])) ∧
    (((on.set (CTXI.BAYS_LOADING.on 0) 1).inReset (0 : DieNo).val = false) ∧ ((on.set (CTXI.BAYS_LOADING.on 0) 1).is (CTXI.BAYS_LOADING.on (0 : DieNo).val) = true) ∧ (badUnits (⟨[], [(on.bayImages 0) / 32]⟩ : Ecc) false ((on.set (CTXI.BAYS_LOADING.on 0) 1).bayImages (0 : DieNo).val) (4096 * bayLines * 16) ≠ [])) ∧
    ((on.Reaches (0 : DieNo).val CTX.page CTX.DRAIN 0 (512 : Requester)) ∧ (on.get (CTX.STATE.on (0 : DieNo).val) ≠ 2)) ∧
    (((on.set (CTX.STATE.on 0) 2).Reaches (0 : DieNo).val CTX.page CTX.DRAIN 0 (512 : Requester)) ∧ ((on.set (CTX.STATE.on 0) 2).get (CTX.STATE.on (0 : DieNo).val) = 2) ∧ ((on.set (CTX.STATE.on 0) 2).get (CTX.DRAIN_SYNC.on (0 : DieNo).val) < (on.set (CTX.STATE.on 0) 2).get (HMBX.SYNC_NOW.on (0 : DieNo).val) + 2)) ∧
    ((((on.set (CTX.STATE.on 0) 2).set (CTX.DRAIN_SYNC.on 0) 2).Reaches (0 : DieNo).val CTX.page CTX.DRAIN 0 (512 : Requester)) ∧ (((on.set (CTX.STATE.on 0) 2).set (CTX.DRAIN_SYNC.on 0) 2).get (CTX.STATE.on (0 : DieNo).val) = 2) ∧ (((on.set (CTX.STATE.on 0) 2).set (CTX.DRAIN_SYNC.on 0) 2).get (HMBX.SYNC_NOW.on (0 : DieNo).val) + 2 ≤ ((on.set (CTX.STATE.on 0) 2).set (CTX.DRAIN_SYNC.on 0) 2).get (CTX.DRAIN_SYNC.on (0 : DieNo).val))) ∧
    (((on.set (CTX.STATE.on 0) 4).Reaches (0 : DieNo).val CTX.page CTX.CLOSE 0 (512 : Requester)) ∧ ((on.set (CTX.STATE.on 0) 4).get (CTX.STATE.on (0 : DieNo).val) = 1 ∨ (on.set (CTX.STATE.on 0) 4).get (CTX.STATE.on (0 : DieNo).val) = 4) ∧ ((on.set (CTX.STATE.on 0) 4).is (CTXI.CLOSING.on (0 : DieNo).val) = false)) ∧
    (((on.set (CTX.STATE.on 0) 2).Reaches (0 : DieNo).val CTX.page CTX.CLOSE 0 (512 : Requester)) ∧ ((on.set (CTX.STATE.on 0) 2).get (CTX.STATE.on (0 : DieNo).val) ≠ 1) ∧ ((on.set (CTX.STATE.on 0) 2).get (CTX.STATE.on (0 : DieNo).val) ≠ 4)) ∧
    (((on.set (CTXI.CLOSING.on 0) 1).inReset (0 : DieNo).val = false) ∧ ((on.set (CTXI.CLOSING.on 0) 1).is (CTXI.CLOSING.on (0 : DieNo).val) = true)) :=
  by and_intros <;> decide +kernel

theorem test_hypotheses_of_RunsAreSubmittedCopiedAndCompleted :
    ((((on.set (CTX.STATE.on 0) 1).set (RING.SQ_LOG2.on 0) 4).Reaches (0 : DieNo).val RING.page RING.SUB_PUSH 0 (512 : Requester)) ∧ (((on.set (CTX.STATE.on 0) 1).set (RING.SQ_LOG2.on 0) 4).submissionsHeld (0 : DieNo).val < 2 ^ ((on.set (CTX.STATE.on 0) 1).set (RING.SQ_LOG2.on 0) 4).get (RING.SQ_LOG2.on (0 : DieNo).val)) ∧ (((on.set (CTX.STATE.on 0) 1).set (RING.SQ_LOG2.on 0) 4).get (CTX.STATE.on (0 : DieNo).val) = 1 ∨ ((on.set (CTX.STATE.on 0) 1).set (RING.SQ_LOG2.on 0) 4).get (CTX.STATE.on (0 : DieNo).val) = 2) ∧ (((on.set (CTX.STATE.on 0) 1).set (RING.SQ_LOG2.on 0) 4).is (CTXI.CLOSING.on (0 : DieNo).val) = false) ∧ (((on.set (CTX.STATE.on 0) 1).set (RING.SQ_LOG2.on 0) 4).is (LINEI.FENCING.on (0 : DieNo).val) = false)) ∧
    (((on.set (RING.SQ_PROD.on 0) 4096).Reaches (0 : DieNo).val RING.page RING.SUB_PUSH 0 (512 : Requester)) ∧ (2 ^ (on.set (RING.SQ_PROD.on 0) 4096).get (RING.SQ_LOG2.on (0 : DieNo).val) ≤ (on.set (RING.SQ_PROD.on 0) 4096).submissionsHeld (0 : DieNo).val)) ∧
    ((((on.set (CTX.STATE.on 0) 2).set (RING.SQ_PROD.on 0) 1).inReset (0 : DieNo).val = false) ∧ (((on.set (CTX.STATE.on 0) 2).set (RING.SQ_PROD.on 0) 1).get (CTX.STATE.on (0 : DieNo).val) = 2 ∨ ((on.set (CTX.STATE.on 0) 2).set (RING.SQ_PROD.on 0) 1).get (CTX.STATE.on (0 : DieNo).val) = 3) ∧ (((on.set (CTX.STATE.on 0) 2).set (RING.SQ_PROD.on 0) 1).is (CTXI.CLOSING.on (0 : DieNo).val) = false) ∧ (((on.set (CTX.STATE.on 0) 2).set (RING.SQ_PROD.on 0) 1).submissionsHeld (0 : DieNo).val ≠ 0) ∧ ((List.range 256).find? (fun j => (((on.set (CTX.STATE.on 0) 2).set (RING.SQ_PROD.on 0) 1).run (0 : DieNo).val j).isNone) = some (0 : Nat)) ∧ ((2 : Nat) = ((on.set (CTX.STATE.on 0) 2).set (RING.SQ_PROD.on 0) 1).runRefusal (0 : DieNo).val (((on.set (CTX.STATE.on 0) 2).set (RING.SQ_PROD.on 0) 1).sqEntry (0 : DieNo).val (((on.set (CTX.STATE.on 0) 2).set (RING.SQ_PROD.on 0) 1).get (RING.SQ_CONS.on (0 : DieNo).val))) (((on.set (CTX.STATE.on 0) 2).set (RING.SQ_PROD.on 0) 1).readRun (0 : DieNo).val (((on.set (CTX.STATE.on 0) 2).set (RING.SQ_PROD.on 0) 1).sqEntry (0 : DieNo).val (((on.set (CTX.STATE.on 0) 2).set (RING.SQ_PROD.on 0) 1).get (RING.SQ_CONS.on (0 : DieNo).val)))))) ∧
    (((on.onDie 0 (fun x => { x with copyIn := [0], runs := [(0, (⟨0, 0, 0, 0, 0, 0, 0, 0, 0, 0, 0, 0, .copyIn, 0, false, false, 0, 0, 0, 0, 0, 0⟩ : Run))] })).inReset (0 : DieNo).val = false) ∧ (((on.onDie 0 (fun x => { x with copyIn := [0], runs := [(0, (⟨0, 0, 0, 0, 0, 0, 0, 0, 0, 0, 0, 0, .copyIn, 0, false, false, 0, 0, 0, 0, 0, 0⟩ : Run))] })).die (0 : DieNo).val).copyIn = (0 : Nat) :: ([] : List Nat)) ∧ ((on.onDie 0 (fun x => { x with copyIn := [0], runs := [(0, (⟨0, 0, 0, 0, 0, 0, 0, 0, 0, 0, 0, 0, .copyIn, 0, false, false, 0, 0, 0, 0, 0, 0⟩ : Run))] })).run (0 : DieNo).val (0 : Nat) = some (⟨0, 0, 0, 0, 0, 0, 0, 0, 0, 0, 0, 0, .copyIn, 0, false, false, 0, 0, 0, 0, 0, 0⟩ : Run))) ∧
    (((on.onDie 0 (fun x => { x with copyOut := [0], runs := [(0, (⟨0, 0, 0, 0, 0, 0, 0, 0, 0, 0, 0, 0, .copyIn, 0, false, false, 0, 0, 0, 0, 0, 0⟩ : Run))] })).inReset (0 : DieNo).val = false) ∧ (((on.onDie 0 (fun x => { x with copyOut := [0], runs := [(0, (⟨0, 0, 0, 0, 0, 0, 0, 0, 0, 0, 0, 0, .copyIn, 0, false, false, 0, 0, 0, 0, 0, 0⟩ : Run))] })).die (0 : DieNo).val).copyOut = (0 : Nat) :: ([] : List Nat)) ∧ ((on.onDie 0 (fun x => { x with copyOut := [0], runs := [(0, (⟨0, 0, 0, 0, 0, 0, 0, 0, 0, 0, 0, 0, .copyIn, 0, false, false, 0, 0, 0, 0, 0, 0⟩ : Run))] })).run (0 : DieNo).val (0 : Nat) = some (⟨0, 0, 0, 0, 0, 0, 0, 0, 0, 0, 0, 0, .copyIn, 0, false, false, 0, 0, 0, 0, 0, 0⟩ : Run))) ∧
    ((on.Reaches (0 : DieNo).val RING.page RING.CQ_CONS 0 (512 : Requester)) ∧ (((0 : BitVec 16).toNat + 65536 - on.get (RING.CQ_CONS.on (0 : DieNo).val)) % 65536 ≤ on.completionsHeld (0 : DieNo).val)) ∧
    ((on.Reaches (0 : DieNo).val RING.page RING.CQ_CONS 0 (512 : Requester)) ∧ (on.completionsHeld (0 : DieNo).val < ((1 : BitVec 16).toNat + 65536 - on.get (RING.CQ_CONS.on (0 : DieNo).val)) % 65536)) :=
  by and_intros <;> decide +kernel

theorem test_hypotheses_of_MailboxSlotsAreClaimedSentAndChecked :
    ((up.Reaches clachasel MBXPOST.page MBXPOST.CLAIM (0 : McNo).val (1 : Requester)) ∧ ((List.range 8).find? (fun i => up.get (MBXI.OWNER.clAt (8 * up.get (MBXPOST.DIE.clAt (0 : McNo).val) + i)) = 0) = some (0 : Nat))) ∧
    ((((List.range 8).foldl (fun s i => s.set (MBXI.OWNER.clAt i) 1) up).Reaches clachasel MBXPOST.page MBXPOST.CLAIM (0 : McNo).val (1 : Requester)) ∧ ((List.range 8).find? (fun i => ((List.range 8).foldl (fun s i => s.set (MBXI.OWNER.clAt i) 1) up).get (MBXI.OWNER.clAt (8 * ((List.range 8).foldl (fun s i => s.set (MBXI.OWNER.clAt i) 1) up).get (MBXPOST.DIE.clAt (0 : McNo).val) + i)) = 0) = none)) ∧
    ((up.Reaches clachasel MBXPOST.page MBXPOST.SEND (0 : McNo).val (1 : Requester)) ∧ (up.get (MBXI.HELD.clAt (8 * (0 : McNo).val + up.get (MBXPOST.DIE.clAt (0 : McNo).val))) = 0)) ∧
    (((on.set (MBXI.HELD.clAt 0) 1).Reaches clachasel MBXPOST.page MBXPOST.SEND (0 : McNo).val (1 : Requester)) ∧ ((0 : Nat) = (on.set (MBXI.HELD.clAt 0) 1).get (MBXPOST.DIE.clAt (0 : McNo).val)) ∧ ((on.set (MBXI.HELD.clAt 0) 1).get (MBXI.HELD.clAt (8 * (0 : McNo).val + (0 : Nat))) = (0 : Nat) + 1) ∧ ((on.set (MBXI.HELD.clAt 0) 1).tripped (0 : Nat) = false) ∧ ((on.set (MBXI.HELD.clAt 0) 1).fenced (0 : Nat) = false) ∧ ((on.set (MBXI.HELD.clAt 0) 1).is (MBXI.SENT.clAt (8 * (0 : Nat) + (0 : Nat))) = false ∨ mbxTerminal ((on.set (MBXI.HELD.clAt 0) 1).get (MBXI.SHOWN.clAt (8 * (0 : Nat) + (0 : Nat)))) = true)) ∧
    ((((on.set (MBXI.HELD.clAt 0) 1).set (MBXI.SENT.clAt 0) 1).Reaches clachasel MBXPOST.page MBXPOST.SEND (0 : McNo).val (1 : Requester)) ∧ ((0 : Nat) = ((on.set (MBXI.HELD.clAt 0) 1).set (MBXI.SENT.clAt 0) 1).get (MBXPOST.DIE.clAt (0 : McNo).val)) ∧ (((on.set (MBXI.HELD.clAt 0) 1).set (MBXI.SENT.clAt 0) 1).get (MBXI.HELD.clAt (8 * (0 : McNo).val + (0 : Nat))) = (0 : Nat) + 1) ∧ (((on.set (MBXI.HELD.clAt 0) 1).set (MBXI.SENT.clAt 0) 1).tripped (0 : Nat) = true ∨ ((on.set (MBXI.HELD.clAt 0) 1).set (MBXI.SENT.clAt 0) 1).fenced (0 : Nat) = true ∨ (((on.set (MBXI.HELD.clAt 0) 1).set (MBXI.SENT.clAt 0) 1).is (MBXI.SENT.clAt (8 * (0 : Nat) + (0 : Nat))) = true ∧ mbxTerminal (((on.set (MBXI.HELD.clAt 0) 1).set (MBXI.SENT.clAt 0) 1).get (MBXI.SHOWN.clAt (8 * (0 : Nat) + (0 : Nat)))) = false))) ∧
    ((((on.set (MBXI.HELD.clAt 0) 1).set (MBXI.SENT.clAt 0) 1).Reaches clachasel MBXPOST.page MBXPOST.RELEASE (0 : McNo).val (1 : Requester)) ∧ ((0 : Nat) = ((on.set (MBXI.HELD.clAt 0) 1).set (MBXI.SENT.clAt 0) 1).get (MBXPOST.DIE.clAt (0 : McNo).val)) ∧ (((on.set (MBXI.HELD.clAt 0) 1).set (MBXI.SENT.clAt 0) 1).get (MBXI.HELD.clAt (8 * (0 : McNo).val + (0 : Nat))) = (0 : Nat) + 1) ∧ (mbxTerminal (((on.set (MBXI.HELD.clAt 0) 1).set (MBXI.SENT.clAt 0) 1).get (MBXI.SHOWN.clAt (8 * (0 : Nat) + (0 : Nat)))) = false)) ∧
    ((((on.set (MBXI.HELD.clAt 0) 1).set (MBXI.SHOWN.clAt 0) 4).Reaches clachasel MBXPOST.page MBXPOST.RELEASE (0 : McNo).val (1 : Requester)) ∧ ((0 : Nat) = ((on.set (MBXI.HELD.clAt 0) 1).set (MBXI.SHOWN.clAt 0) 4).get (MBXPOST.DIE.clAt (0 : McNo).val)) ∧ (((on.set (MBXI.HELD.clAt 0) 1).set (MBXI.SHOWN.clAt 0) 4).get (MBXI.HELD.clAt (8 * (0 : McNo).val + (0 : Nat))) = (0 : Nat) + 1) ∧ (mbxTerminal (((on.set (MBXI.HELD.clAt 0) 1).set (MBXI.SHOWN.clAt 0) 4).get (MBXI.SHOWN.clAt (8 * (0 : Nat) + (0 : Nat)))) = true)) ∧
    ((((((on.setBit (HOLDI.DUE.on 0) 0 true).set (HMBX.S_KIND.at 0 0) 1).set (HMBX.S_H.at 0 0) 2).set (LINEI.FENCING.on 0) 1).inReset (0 : DieNo).val = false) ∧ (((((on.setBit (HOLDI.DUE.on 0) 0 true).set (HMBX.S_KIND.at 0 0) 1).set (HMBX.S_H.at 0 0) 2).set (LINEI.FENCING.on 0) 1).bit (HOLDI.DUE.on (0 : DieNo).val) (0 : Fin 8).val = true) ∧ (((((on.setBit (HOLDI.DUE.on 0) 0 true).set (HMBX.S_KIND.at 0 0) 1).set (HMBX.S_H.at 0 0) 2).set (LINEI.FENCING.on 0) 1).get (HMBX.S_KIND.at (0 : DieNo).val (0 : Fin 8).val) = 1) ∧ (((((on.setBit (HOLDI.DUE.on 0) 0 true).set (HMBX.S_KIND.at 0 0) 1).set (HMBX.S_H.at 0 0) 2).set (LINEI.FENCING.on 0) 1).is (LINEI.FENCING.on (0 : DieNo).val) = true)) ∧
    (((((on.setBit (HOLDI.DUE.on 0) 0 true).set (HMBX.S_KIND.at 0 0) 1).set (HMBX.S_H.at 0 0) 1).inReset (0 : DieNo).val = false) ∧ ((((on.setBit (HOLDI.DUE.on 0) 0 true).set (HMBX.S_KIND.at 0 0) 1).set (HMBX.S_H.at 0 0) 1).bit (HOLDI.DUE.on (0 : DieNo).val) (0 : Fin 8).val = true) ∧ ((((on.setBit (HOLDI.DUE.on 0) 0 true).set (HMBX.S_KIND.at 0 0) 1).set (HMBX.S_H.at 0 0) 1).get (HMBX.S_KIND.at (0 : DieNo).val (0 : Fin 8).val) = 1) ∧ ((((on.setBit (HOLDI.DUE.on 0) 0 true).set (HMBX.S_KIND.at 0 0) 1).set (HMBX.S_H.at 0 0) 1).is (LINEI.FENCING.on (0 : DieNo).val) = false) ∧ ((((on.setBit (HOLDI.DUE.on 0) 0 true).set (HMBX.S_KIND.at 0 0) 1).set (HMBX.S_H.at 0 0) 1).get (HMBX.S_CONTEXT.at (0 : DieNo).val (0 : Fin 8).val) = (((on.setBit (HOLDI.DUE.on 0) 0 true).set (HMBX.S_KIND.at 0 0) 1).set (HMBX.S_H.at 0 0) 1).openContext (0 : DieNo).val) ∧ ((((on.setBit (HOLDI.DUE.on 0) 0 true).set (HMBX.S_KIND.at 0 0) 1).set (HMBX.S_H.at 0 0) 1).get (HMBX.S_H.at (0 : DieNo).val (0 : Fin 8).val) < (((on.setBit (HOLDI.DUE.on 0) 0 true).set (HMBX.S_KIND.at 0 0) 1).set (HMBX.S_H.at 0 0) 1).get (HMBX.SYNC_NOW.on (0 : DieNo).val) + 2) ∧ (((((on.setBit (HOLDI.DUE.on 0) 0 true).set (HMBX.S_KIND.at 0 0) 1).set (HMBX.S_H.at 0 0) 1).setBit (HOLDI.DUE.on (0 : DieNo).val) (0 : Fin 8).val false).isRevision (0 : DieNo).val (0 : Fin 8).val = false)) ∧
    (((((on.setBit (HOLDI.DUE.on 0) 0 true).set (HMBX.S_KIND.at 0 0) 1).set (HMBX.S_H.at 0 0) 2).inReset (0 : DieNo).val = false) ∧ ((((on.setBit (HOLDI.DUE.on 0) 0 true).set (HMBX.S_KIND.at 0 0) 1).set (HMBX.S_H.at 0 0) 2).bit (HOLDI.DUE.on (0 : DieNo).val) (0 : Fin 8).val = true) ∧ ((((on.setBit (HOLDI.DUE.on 0) 0 true).set (HMBX.S_KIND.at 0 0) 1).set (HMBX.S_H.at 0 0) 2).get (HMBX.S_KIND.at (0 : DieNo).val (0 : Fin 8).val) = 1) ∧ ((((on.setBit (HOLDI.DUE.on 0) 0 true).set (HMBX.S_KIND.at 0 0) 1).set (HMBX.S_H.at 0 0) 2).is (LINEI.FENCING.on (0 : DieNo).val) = false) ∧ ((((on.setBit (HOLDI.DUE.on 0) 0 true).set (HMBX.S_KIND.at 0 0) 1).set (HMBX.S_H.at 0 0) 2).get (HMBX.S_CONTEXT.at (0 : DieNo).val (0 : Fin 8).val) = (((on.setBit (HOLDI.DUE.on 0) 0 true).set (HMBX.S_KIND.at 0 0) 1).set (HMBX.S_H.at 0 0) 2).openContext (0 : DieNo).val) ∧ ((((on.setBit (HOLDI.DUE.on 0) 0 true).set (HMBX.S_KIND.at 0 0) 1).set (HMBX.S_H.at 0 0) 2).get (HMBX.SYNC_NOW.on (0 : DieNo).val) + 2 ≤ (((on.setBit (HOLDI.DUE.on 0) 0 true).set (HMBX.S_KIND.at 0 0) 1).set (HMBX.S_H.at 0 0) 2).get (HMBX.S_H.at (0 : DieNo).val (0 : Fin 8).val))) ∧
    (((((on.setBit (HOLDI.DUE.on 0) 0 true).set (HMBX.S_KIND.at 0 0) 2).set (HMBX.S_H.at 0 0) 2).inReset (0 : DieNo).val = false) ∧ ((((on.setBit (HOLDI.DUE.on 0) 0 true).set (HMBX.S_KIND.at 0 0) 2).set (HMBX.S_H.at 0 0) 2).bit (HOLDI.DUE.on (0 : DieNo).val) (0 : Fin 8).val = true) ∧ ((((on.setBit (HOLDI.DUE.on 0) 0 true).set (HMBX.S_KIND.at 0 0) 2).set (HMBX.S_H.at 0 0) 2).get (HMBX.S_KIND.at (0 : DieNo).val (0 : Fin 8).val) = 2) ∧ ((((on.setBit (HOLDI.DUE.on 0) 0 true).set (HMBX.S_KIND.at 0 0) 2).set (HMBX.S_H.at 0 0) 2).is (LINEI.FENCING.on (0 : DieNo).val) = false) ∧ ((((on.setBit (HOLDI.DUE.on 0) 0 true).set (HMBX.S_KIND.at 0 0) 2).set (HMBX.S_H.at 0 0) 2).get (HMBX.S_CONTEXT.at (0 : DieNo).val (0 : Fin 8).val) = (((on.setBit (HOLDI.DUE.on 0) 0 true).set (HMBX.S_KIND.at 0 0) 2).set (HMBX.S_H.at 0 0) 2).openContext (0 : DieNo).val) ∧ ((((on.setBit (HOLDI.DUE.on 0) 0 true).set (HMBX.S_KIND.at 0 0) 2).set (HMBX.S_H.at 0 0) 2).get (HMBX.SYNC_NOW.on (0 : DieNo).val) + 2 ≤ (((on.setBit (HOLDI.DUE.on 0) 0 true).set (HMBX.S_KIND.at 0 0) 2).set (HMBX.S_H.at 0 0) 2).get (HMBX.S_H.at (0 : DieNo).val (0 : Fin 8).val))) ∧
    ((((((on.setBit (HOLDI.DUE.on 0) 0 true).set (HMBX.S_KIND.at 0 0) 2).set (HMBX.S_H.at 0 0) 2).set (HMBX.S_CONTEXT.at 0 0) 1).inReset (0 : DieNo).val = false) ∧ (((((on.setBit (HOLDI.DUE.on 0) 0 true).set (HMBX.S_KIND.at 0 0) 2).set (HMBX.S_H.at 0 0) 2).set (HMBX.S_CONTEXT.at 0 0) 1).bit (HOLDI.DUE.on (0 : DieNo).val) (0 : Fin 8).val = true) ∧ (((((on.setBit (HOLDI.DUE.on 0) 0 true).set (HMBX.S_KIND.at 0 0) 2).set (HMBX.S_H.at 0 0) 2).set (HMBX.S_CONTEXT.at 0 0) 1).get (HMBX.S_KIND.at (0 : DieNo).val (0 : Fin 8).val) = 2) ∧ (((((on.setBit (HOLDI.DUE.on 0) 0 true).set (HMBX.S_KIND.at 0 0) 2).set (HMBX.S_H.at 0 0) 2).set (HMBX.S_CONTEXT.at 0 0) 1).is (LINEI.FENCING.on (0 : DieNo).val) = false) ∧ (((((on.setBit (HOLDI.DUE.on 0) 0 true).set (HMBX.S_KIND.at 0 0) 2).set (HMBX.S_H.at 0 0) 2).set (HMBX.S_CONTEXT.at 0 0) 1).get (HMBX.S_CONTEXT.at (0 : DieNo).val (0 : Fin 8).val) ≠ ((((on.setBit (HOLDI.DUE.on 0) 0 true).set (HMBX.S_KIND.at 0 0) 2).set (HMBX.S_H.at 0 0) 2).set (HMBX.S_CONTEXT.at 0 0) 1).openContext (0 : DieNo).val)) ∧
    (((((on.setBit (HOLDI.DUE.on 0) 0 true).set (HMBX.S_KIND.at 0 0) 3).set (HMBX.S_H.at 0 0) 2).inReset (0 : DieNo).val = false) ∧ ((((on.setBit (HOLDI.DUE.on 0) 0 true).set (HMBX.S_KIND.at 0 0) 3).set (HMBX.S_H.at 0 0) 2).bit (HOLDI.DUE.on (0 : DieNo).val) (0 : Fin 8).val = true) ∧ ((((on.setBit (HOLDI.DUE.on 0) 0 true).set (HMBX.S_KIND.at 0 0) 3).set (HMBX.S_H.at 0 0) 2).get (HMBX.S_KIND.at (0 : DieNo).val (0 : Fin 8).val) = 3) ∧ ((((on.setBit (HOLDI.DUE.on 0) 0 true).set (HMBX.S_KIND.at 0 0) 3).set (HMBX.S_H.at 0 0) 2).is (LINEI.FENCING.on (0 : DieNo).val) = false) ∧ ((((on.setBit (HOLDI.DUE.on 0) 0 true).set (HMBX.S_KIND.at 0 0) 3).set (HMBX.S_H.at 0 0) 2).get (HMBX.S_CONTEXT.at (0 : DieNo).val (0 : Fin 8).val) = (((on.setBit (HOLDI.DUE.on 0) 0 true).set (HMBX.S_KIND.at 0 0) 3).set (HMBX.S_H.at 0 0) 2).openContext (0 : DieNo).val) ∧ ((((on.setBit (HOLDI.DUE.on 0) 0 true).set (HMBX.S_KIND.at 0 0) 3).set (HMBX.S_H.at 0 0) 2).get (HMBX.SYNC_NOW.on (0 : DieNo).val) + 2 ≤ (((on.setBit (HOLDI.DUE.on 0) 0 true).set (HMBX.S_KIND.at 0 0) 3).set (HMBX.S_H.at 0 0) 2).get (HMBX.S_H.at (0 : DieNo).val (0 : Fin 8).val)) ∧ ((((on.setBit (HOLDI.DUE.on 0) 0 true).set (HMBX.S_KIND.at 0 0) 3).set (HMBX.S_H.at 0 0) 2).get (HMBX.S_IDLE_BEATS.at (0 : DieNo).val (0 : Fin 8).val) < 8) ∧ ((((on.setBit (HOLDI.DUE.on 0) 0 true).set (HMBX.S_KIND.at 0 0) 3).set (HMBX.S_H.at 0 0) 2).get (HMBX.S_TARGET_OP.at (0 : DieNo).val (0 : Fin 8).val) = 0)) ∧
    ((((((on.setBit (HOLDI.DUE.on 0) 0 true).set (HMBX.S_KIND.at 0 0) 3).set (HMBX.S_H.at 0 0) 2).set (HMBX.S_TARGET_OP.at 0 0) 1).inReset (0 : DieNo).val = false) ∧ (((((on.setBit (HOLDI.DUE.on 0) 0 true).set (HMBX.S_KIND.at 0 0) 3).set (HMBX.S_H.at 0 0) 2).set (HMBX.S_TARGET_OP.at 0 0) 1).bit (HOLDI.DUE.on (0 : DieNo).val) (0 : Fin 8).val = true) ∧ (((((on.setBit (HOLDI.DUE.on 0) 0 true).set (HMBX.S_KIND.at 0 0) 3).set (HMBX.S_H.at 0 0) 2).set (HMBX.S_TARGET_OP.at 0 0) 1).get (HMBX.S_KIND.at (0 : DieNo).val (0 : Fin 8).val) = 3) ∧ (((((on.setBit (HOLDI.DUE.on 0) 0 true).set (HMBX.S_KIND.at 0 0) 3).set (HMBX.S_H.at 0 0) 2).set (HMBX.S_TARGET_OP.at 0 0) 1).is (LINEI.FENCING.on (0 : DieNo).val) = false) ∧ (8 ≤ ((((on.setBit (HOLDI.DUE.on 0) 0 true).set (HMBX.S_KIND.at 0 0) 3).set (HMBX.S_H.at 0 0) 2).set (HMBX.S_TARGET_OP.at 0 0) 1).get (HMBX.S_IDLE_BEATS.at (0 : DieNo).val (0 : Fin 8).val) ∨ ((((on.setBit (HOLDI.DUE.on 0) 0 true).set (HMBX.S_KIND.at 0 0) 3).set (HMBX.S_H.at 0 0) 2).set (HMBX.S_TARGET_OP.at 0 0) 1).get (HMBX.S_TARGET_OP.at (0 : DieNo).val (0 : Fin 8).val) ≠ 0)) ∧
    (((((on.setBit (HOLDI.DUE.on 0) 0 true).set (HMBX.S_KIND.at 0 0) 4).set (HMBX.S_H.at 0 0) 2).inReset (0 : DieNo).val = false) ∧ ((((on.setBit (HOLDI.DUE.on 0) 0 true).set (HMBX.S_KIND.at 0 0) 4).set (HMBX.S_H.at 0 0) 2).bit (HOLDI.DUE.on (0 : DieNo).val) (0 : Fin 8).val = true) ∧ ((((on.setBit (HOLDI.DUE.on 0) 0 true).set (HMBX.S_KIND.at 0 0) 4).set (HMBX.S_H.at 0 0) 2).get (HMBX.S_KIND.at (0 : DieNo).val (0 : Fin 8).val) = 4) ∧ ((((on.setBit (HOLDI.DUE.on 0) 0 true).set (HMBX.S_KIND.at 0 0) 4).set (HMBX.S_H.at 0 0) 2).is (LINEI.FENCING.on (0 : DieNo).val) = false) ∧ ((((on.setBit (HOLDI.DUE.on 0) 0 true).set (HMBX.S_KIND.at 0 0) 4).set (HMBX.S_H.at 0 0) 2).get (HMBX.S_CONTEXT.at (0 : DieNo).val (0 : Fin 8).val) = (((on.setBit (HOLDI.DUE.on 0) 0 true).set (HMBX.S_KIND.at 0 0) 4).set (HMBX.S_H.at 0 0) 2).openContext (0 : DieNo).val) ∧ ((((on.setBit (HOLDI.DUE.on 0) 0 true).set (HMBX.S_KIND.at 0 0) 4).set (HMBX.S_H.at 0 0) 2).get (HMBX.SYNC_NOW.on (0 : DieNo).val) + 2 ≤ (((on.setBit (HOLDI.DUE.on 0) 0 true).set (HMBX.S_KIND.at 0 0) 4).set (HMBX.S_H.at 0 0) 2).get (HMBX.S_H.at (0 : DieNo).val (0 : Fin 8).val))) :=
  by and_intros <;> decide +kernel

theorem test_hypotheses_of_OperatingPointsChangeAtHinges :
    (((on.set (HOLDI.IDLE_OP.on 0) 1).inReset (0 : DieNo).val = false) ∧ ((on.set (HOLDI.IDLE_OP.on 0) 1).get (HOLDI.IDLE_OP.on (0 : DieNo).val) ≠ 0)) ∧
    (((on.set (HOLDI.AT_HINGE.on 0) 1).inReset (0 : DieNo).val = false) ∧ ((on.set (HOLDI.AT_HINGE.on 0) 1).is (HOLDI.AT_HINGE.on (0 : DieNo).val) = true)) ∧
    ((up.set (OPI.CHECK.clAt 0) 1).is (OPI.CHECK.clAt (0 : DieNo).val) = true) ∧
    ((up.set (OPI.CHECK.clAt 0) 1).is (OPI.CHECK.clAt (0 : DieNo).val) = true) ∧
    ((((on.set (OPI.VOLT.clAt 0) 1).set (HOLDI.KIND.on 0) 1).get (OPI.VOLT.clAt (0 : DieNo).val) ≠ 0) ∧ ((((on.set (OPI.VOLT.clAt 0) 1).set (HOLDI.KIND.on 0) 1).set (OPI.VOLT.clAt (0 : DieNo).val) 0).inReset (0 : DieNo).val = false) ∧ ((((on.set (OPI.VOLT.clAt 0) 1).set (HOLDI.KIND.on 0) 1).set (OPI.VOLT.clAt (0 : DieNo).val) 0).get (HOLDI.KIND.on (0 : DieNo).val) = 1) ∧ ((((on.set (OPI.VOLT.clAt 0) 1).set (HOLDI.KIND.on 0) 1).set (OPI.VOLT.clAt (0 : DieNo).val) 0).get (HOLDI.TID.on (0 : DieNo).val) = ((on.set (OPI.VOLT.clAt 0) 1).set (HOLDI.KIND.on 0) 1).get (OPI.VOLT.clAt (0 : DieNo).val) - 1)) ∧
    (((on.set (OPI.VOLT.clAt 0) 2).get (OPI.VOLT.clAt (0 : DieNo).val) ≠ 0) ∧ (((on.set (OPI.VOLT.clAt 0) 2).set (OPI.VOLT.clAt (0 : DieNo).val) 0).get (HOLDI.TID.on (0 : DieNo).val) ≠ (on.set (OPI.VOLT.clAt 0) 2).get (OPI.VOLT.clAt (0 : DieNo).val) - 1)) ∧
    ((((on.set (HMBX.HOLD_ACTIVE.on 0) 1).set (HOLDI.KIND.on 0) 1).inReset (0 : DieNo).val = false) ∧ (((on.set (HMBX.HOLD_ACTIVE.on 0) 1).set (HOLDI.KIND.on 0) 1).is (HMBX.HOLD_ACTIVE.on (0 : DieNo).val) = true) ∧ (((((on.set (HMBX.HOLD_ACTIVE.on 0) 1).set (HOLDI.KIND.on 0) 1).set (HMBX.HOLD_ACTIVE.on (0 : DieNo).val) 0).set (HOLDI.OVER.on (0 : DieNo).val) 1).get (HOLDI.KIND.on (0 : DieNo).val) = 1)) ∧
    ((((on.set (HMBX.HOLD_ACTIVE.on 0) 1).set (HOLDI.KIND.on 0) 3).inReset (0 : DieNo).val = false) ∧ (((on.set (HMBX.HOLD_ACTIVE.on 0) 1).set (HOLDI.KIND.on 0) 3).is (HMBX.HOLD_ACTIVE.on (0 : DieNo).val) = true) ∧ (((((on.set (HMBX.HOLD_ACTIVE.on 0) 1).set (HOLDI.KIND.on 0) 3).set (HMBX.HOLD_ACTIVE.on (0 : DieNo).val) 0).set (HOLDI.OVER.on (0 : DieNo).val) 1).get (HOLDI.KIND.on (0 : DieNo).val) = 3)) ∧
    (((on.set (HOLDI.F_DONE.on 0) 1).inReset (0 : DieNo).val = false) ∧ ((on.set (HOLDI.F_DONE.on 0) 1).is (HOLDI.F_DONE.on (0 : DieNo).val) = true)) ∧
    ((((((on.set (CTX.STATE.on 0) 1).set (SCAN.SLOT.on 0) 1).set (SCAN.SLOTS.on 0) 2).set (SCAN.REGIONS.on 0) 7).Reaches (0 : DieNo).val SCAN.page SCAN.OUT 0 (0 : Requester)) ∧ (((((on.set (CTX.STATE.on 0) 1).set (SCAN.SLOT.on 0) 1).set (SCAN.SLOTS.on 0) 2).set (SCAN.REGIONS.on 0) 7).is (SCAN.SCANNING.on (0 : DieNo).val) = false) ∧ (((((on.set (CTX.STATE.on 0) 1).set (SCAN.SLOT.on 0) 1).set (SCAN.SLOTS.on 0) 2).set (SCAN.REGIONS.on 0) 7).is (SCAN.WAITING.on (0 : DieNo).val) = false) ∧ (((((on.set (CTX.STATE.on 0) 1).set (SCAN.SLOT.on 0) 1).set (SCAN.SLOTS.on 0) 2).set (SCAN.REGIONS.on 0) 7).is (CTXI.CLOSING.on (0 : DieNo).val) = false) ∧ (((((on.set (CTX.STATE.on 0) 1).set (SCAN.SLOT.on 0) 1).set (SCAN.SLOTS.on 0) 2).set (SCAN.REGIONS.on 0) 7).get (CTX.STATE.on (0 : DieNo).val) = 1) ∧ (((((on.set (CTX.STATE.on 0) 1).set (SCAN.SLOT.on 0) 1).set (SCAN.SLOTS.on 0) 2).set (SCAN.REGIONS.on 0) 7).atHinge (0 : DieNo).val = true) ∧ (((((on.set (CTX.STATE.on 0) 1).set (SCAN.SLOT.on 0) 1).set (SCAN.SLOTS.on 0) 2).set (SCAN.REGIONS.on 0) 7).get (SCAN.SLOT.on (0 : DieNo).val) ≠ 0) ∧ (((((on.set (CTX.STATE.on 0) 1).set (SCAN.SLOT.on 0) 1).set (SCAN.SLOTS.on 0) 2).set (SCAN.REGIONS.on 0) 7).get (SCAN.SLOT.on (0 : DieNo).val) < ((((on.set (CTX.STATE.on 0) 1).set (SCAN.SLOT.on 0) 1).set (SCAN.SLOTS.on 0) 2).set (SCAN.REGIONS.on 0) 7).get (SCAN.SLOTS.on (0 : DieNo).val)) ∧ (((((on.set (CTX.STATE.on 0) 1).set (SCAN.SLOT.on 0) 1).set (SCAN.SLOTS.on 0) 2).set (SCAN.REGIONS.on 0) 7).get (SCAN.REGIONS.on (0 : DieNo).val) ≠ 0)) ∧
    ((((((on.set (CTX.STATE.on 0) 4).set (SCAN.SLOT.on 0) 1).set (SCAN.SLOTS.on 0) 2).set (SCAN.REGIONS.on 0) 7).Reaches (0 : DieNo).val SCAN.page SCAN.OUT 0 (0 : Requester)) ∧ (((((on.set (CTX.STATE.on 0) 4).set (SCAN.SLOT.on 0) 1).set (SCAN.SLOTS.on 0) 2).set (SCAN.REGIONS.on 0) 7).is (SCAN.SCANNING.on (0 : DieNo).val) = false) ∧ (((((on.set (CTX.STATE.on 0) 4).set (SCAN.SLOT.on 0) 1).set (SCAN.SLOTS.on 0) 2).set (SCAN.REGIONS.on 0) 7).is (SCAN.WAITING.on (0 : DieNo).val) = false) ∧ (((((on.set (CTX.STATE.on 0) 4).set (SCAN.SLOT.on 0) 1).set (SCAN.SLOTS.on 0) 2).set (SCAN.REGIONS.on 0) 7).is (CTXI.CLOSING.on (0 : DieNo).val) = false) ∧ (((((on.set (CTX.STATE.on 0) 4).set (SCAN.SLOT.on 0) 1).set (SCAN.SLOTS.on 0) 2).set (SCAN.REGIONS.on 0) 7).get (CTX.STATE.on (0 : DieNo).val) = 4) ∧ (((((on.set (CTX.STATE.on 0) 4).set (SCAN.SLOT.on 0) 1).set (SCAN.SLOTS.on 0) 2).set (SCAN.REGIONS.on 0) 7).get (SCAN.SLOT.on (0 : DieNo).val) ≠ 0) ∧ (((((on.set (CTX.STATE.on 0) 4).set (SCAN.SLOT.on 0) 1).set (SCAN.SLOTS.on 0) 2).set (SCAN.REGIONS.on 0) 7).get (SCAN.SLOT.on (0 : DieNo).val) < ((((on.set (CTX.STATE.on 0) 4).set (SCAN.SLOT.on 0) 1).set (SCAN.SLOTS.on 0) 2).set (SCAN.REGIONS.on 0) 7).get (SCAN.SLOTS.on (0 : DieNo).val)) ∧ (((((on.set (CTX.STATE.on 0) 4).set (SCAN.SLOT.on 0) 1).set (SCAN.SLOTS.on 0) 2).set (SCAN.REGIONS.on 0) 7).get (SCAN.REGIONS.on (0 : DieNo).val) ≠ 0)) ∧
    (((on.set (SCAN.SCANNING.on 0) 1).Reaches (0 : DieNo).val SCAN.page SCAN.OUT 0 (0 : Requester)) ∧ ((on.set (SCAN.SCANNING.on 0) 1).is (SCAN.SCANNING.on (0 : DieNo).val) = true ∨ (on.set (SCAN.SCANNING.on 0) 1).is (SCAN.WAITING.on (0 : DieNo).val) = true)) ∧
    ((on.Reaches (0 : DieNo).val SCAN.page SCAN.OUT 0 (0 : Requester)) ∧ (on.is (SCAN.SCANNING.on (0 : DieNo).val) = false) ∧ (on.is (SCAN.WAITING.on (0 : DieNo).val) = false) ∧ (on.get (CTX.STATE.on (0 : DieNo).val) = 0)) ∧
    ((on.Reaches (0 : DieNo).val SCAN.page SCAN.IN 0 (0 : Requester)) ∧ (on.is (SCAN.SCANNING.on (0 : DieNo).val) = false) ∧ (on.is (SCAN.WAITING.on (0 : DieNo).val) = false) ∧ (on.get (CTX.STATE.on (0 : DieNo).val) ≠ 4)) ∧
    ((((on.set (CTX.STATE.on 0) 4).setPhase 0 .stopped).Reaches (0 : DieNo).val SCAN.page SCAN.IN 0 (0 : Requester)) ∧ (((on.set (CTX.STATE.on 0) 4).setPhase 0 .stopped).is (SCAN.SCANNING.on (0 : DieNo).val) = false) ∧ (((on.set (CTX.STATE.on 0) 4).setPhase 0 .stopped).is (SCAN.WAITING.on (0 : DieNo).val) = false) ∧ (((on.set (CTX.STATE.on 0) 4).setPhase 0 .stopped).get (CTX.STATE.on (0 : DieNo).val) = 4) ∧ (((on.set (CTX.STATE.on 0) 4).setPhase 0 .stopped).phaseIs (0 : DieNo).val .stopped = true) ∧ (((on.set (CTX.STATE.on 0) 4).setPhase 0 .stopped).is (CTXI.CLOSING.on (0 : DieNo).val) = false)) ∧
    ((((on.set (SCAN.SCANNING.on 0) 1).set (SCANI.KIND.on 0) 4).inReset (0 : DieNo).val = false) ∧ (((on.set (SCAN.SCANNING.on 0) 1).set (SCANI.KIND.on 0) 4).is (SCAN.SCANNING.on (0 : DieNo).val) = true) ∧ (((on.set (SCAN.SCANNING.on 0) 1).set (SCANI.KIND.on 0) 4).get (SCANI.KIND.on (0 : DieNo).val) = 4)) ∧
    ((((on.set (SCAN.SCANNING.on 0) 1).set (SCANI.KIND.on 0) 1).inReset (0 : DieNo).val = false) ∧ (((on.set (SCAN.SCANNING.on 0) 1).set (SCANI.KIND.on 0) 1).is (SCAN.SCANNING.on (0 : DieNo).val) = true) ∧ (((on.set (SCAN.SCANNING.on 0) 1).set (SCANI.KIND.on 0) 1).get (SCANI.KIND.on (0 : DieNo).val) = 1)) ∧
    ((((on.set (HOLDI.KIND.on 0) 4).set (HOLDI.STEP.on 0) 4).inReset (0 : DieNo).val = false) ∧ (((on.set (HOLDI.KIND.on 0) 4).set (HOLDI.STEP.on 0) 4).get (HOLDI.KIND.on (0 : DieNo).val) = 4) ∧ (((on.set (HOLDI.KIND.on 0) 4).set (HOLDI.STEP.on 0) 4).get (HOLDI.STEP.on (0 : DieNo).val) = 4) ∧ (((on.set (HOLDI.KIND.on 0) 4).set (HOLDI.STEP.on 0) 4).is (SCAN.SCANNING.on (0 : DieNo).val) = false)) :=
  by and_intros <;> decide +kernel

theorem test_hypotheses_of_TheHingeSwapsKeysAndStartsTheNext :
    ((((issuing 0).setPhase 0 .quiesce).inReset (0 : DieNo).val = false) ∧ ((((issuing 0).setPhase 0 .quiesce).die (0 : DieNo).val).active = some (⟨1, 0, false, 10, 0, 0, 0, [(0, 0)], [(0, 1)], [(0, 0)], [], [], []⟩ : Key)) ∧ (((issuing 0).setPhase 0 .quiesce).phaseIs (0 : DieNo).val .quiesce = true) ∧ (((issuing 0).setPhase 0 .quiesce).is (ARRAY.FROZEN.on (0 : DieNo).val) = false) ∧ (((issuing 0).setPhase 0 .quiesce).is (SCAN.SCANNING.on (0 : DieNo).val) = false) ∧ (4 + max 4 (⟨1, 0, false, 10, 0, 0, 0, [(0, 0)], [(0, 1)], [(0, 0)], [], [], []⟩ : Key).lmax ≤ (8 : BitVec 24).toNat) ∧ ((8 : BitVec 24).toNat ≤ (8 : BitVec 24).toNat) ∧ (((issuing 0).setPhase 0 .quiesce).takesLeft (0 : DieNo).val ((⟨1, 0, false, 10, 0, 0, 0, [(0, 0)], [(0, 1)], [(0, 0)], [], [], []⟩ : Key).cycles + (8 : BitVec 24).toNat) = false) ∧ (((issuing 0).setPhase 0 .quiesce).egressDone (0 : DieNo).val = true)) ∧
    ((((((on.set (CTX.STATE.on 0) 2).set (ARRAY.SHADOW_READY.on 0) 1).setPhase 0 .swap |>.onDie 0 (fun x => { x with shadowKey := some (⟨1, 0, false, 10, 0, 0, 0, [(0, 0)], [(0, 1)], [(0, 0)], [], [], []⟩ : Key) })).die (0 : DieNo).val).shadowKey = some (⟨1, 0, false, 10, 0, 0, 0, [(0, 0)], [(0, 1)], [(0, 0)], [], [], []⟩ : Key)) ∧ ((((on.set (CTX.STATE.on 0) 2).set (ARRAY.SHADOW_READY.on 0) 1).setPhase 0 .swap |>.onDie 0 (fun x => { x with shadowKey := some (⟨1, 0, false, 10, 0, 0, 0, [(0, 0)], [(0, 1)], [(0, 0)], [], [], []⟩ : Key) })).mayHinge (0 : DieNo).val = true)) ∧
    (((on.set (CSKIP.SKIPPING.on 0) 1).inReset (0 : DieNo).val = false) ∧ ((on.set (CSKIP.SKIPPING.on 0) 1).is (CSKIP.SKIPPING.on (0 : DieNo).val) = true)) ∧
    (((((issuing 0).setPhase 0 .releaseWait).set (HASPI.RELEASED.on 0) 1).inReset (0 : DieNo).val = false) ∧ (((((issuing 0).setPhase 0 .releaseWait).set (HASPI.RELEASED.on 0) 1).die (0 : DieNo).val).active = some (⟨1, 0, false, 10, 0, 0, 0, [(0, 0)], [(0, 1)], [(0, 0)], [], [], []⟩ : Key)) ∧ ((((issuing 0).setPhase 0 .releaseWait).set (HASPI.RELEASED.on 0) 1).phaseIs (0 : DieNo).val .releaseWait = true) ∧ ((((issuing 0).setPhase 0 .releaseWait).set (HASPI.RELEASED.on 0) 1).is (HASPI.RELEASED.on (0 : DieNo).val) = true) ∧ ((((issuing 0).setPhase 0 .releaseWait).set (HASPI.RELEASED.on 0) 1).is (HMBX.HOLD_ACTIVE.on (0 : DieNo).val) = false) ∧ ((((issuing 0).setPhase 0 .releaseWait).set (HASPI.RELEASED.on 0) 1).is (LINEI.FENCING.on (0 : DieNo).val) = false) ∧ ((((issuing 0).setPhase 0 .releaseWait).set (HASPI.RELEASED.on 0) 1).get (HASPI.START.on (0 : DieNo).val) + (((issuing 0).setPhase 0 .releaseWait).set (HASPI.RELEASED.on 0) 1).get (HMBX.IDLE_BEATS.on (0 : DieNo).val) ≤ (((issuing 0).setPhase 0 .releaseWait).set (HASPI.RELEASED.on 0) 1).beat (0 : DieNo).val)) :=
  by and_intros <;> decide +kernel

theorem test_hypotheses_of_TheAnalogueFrontEndMeasures :
    ((up.inReset clachasel = false) ∧ ((1 : Requester).val = 1 ∨ (1 : Requester).val = 2 ∨ (1 : Requester).val = 3 ∨ (1 : Requester).val = 4) ∧ (up.enabled clachasel AFECTL.page = false) ∧ (up.resetting clachasel AFECTL.page 0 = false)) ∧
    ((up.inReset clachasel = false) ∧ (4 < (9 : Requester).val)) ∧
    (up.Reaches clachasel AFECTL.page AFECTL.CAL0 0 (2 : Requester)) ∧
    (((serving 14 1).CanServe 14 (⟨14, 1, 0, 0, 1⟩ : Posted)) ∧ ((serving 14 1).mgmtReady = true)) ∧
    (((up.set (calBusy 0) 1).is (calBusy (0 : Fin 2).val) = true)) ∧
    ((((up.set afeEnabled 1).set CCLK.AFE_LOCK.cl 1).Reaches clachasel (portPage (0 : Fin 5).val) AFEPORT.REQ (0 : Fin 5).val (1 : Requester)) ∧ (((up.set afeEnabled 1).set CCLK.AFE_LOCK.cl 1).is (AFEPORT.BUSY.clAt (0 : Fin 5).val) = false) ∧ (((up.set afeEnabled 1).set CCLK.AFE_LOCK.cl 1).is afeEnabled = true) ∧ (((up.set afeEnabled 1).set CCLK.AFE_LOCK.cl 1).is CCLK.AFE_LOCK.cl = true) ∧ (((up.set afeEnabled 1).set CCLK.AFE_LOCK.cl 1).is (calBusy (pEngine (((up.set afeEnabled 1).set CCLK.AFE_LOCK.cl 1).profileWords (0 : BitVec 6).toNat))) = false)) ∧
    (((up.set (AFEPORT.BUSY.clAt 0) 1).Reaches clachasel (portPage (0 : Fin 5).val) AFEPORT.REQ (0 : Fin 5).val (1 : Requester)) ∧ ((up.set (AFEPORT.BUSY.clAt 0) 1).is (AFEPORT.BUSY.clAt (0 : Fin 5).val) = true)) ∧
    ((((up.set afeEnabled 1).set CCLK.AFE_LOCK.cl 0).Reaches clachasel (portPage (0 : Fin 5).val) AFEPORT.REQ (0 : Fin 5).val (1 : Requester)) ∧ (((up.set afeEnabled 1).set CCLK.AFE_LOCK.cl 0).is (AFEPORT.BUSY.clAt (0 : Fin 5).val) = false) ∧ (((up.set afeEnabled 1).set CCLK.AFE_LOCK.cl 0).is afeEnabled = true) ∧ (((up.set afeEnabled 1).set CCLK.AFE_LOCK.cl 0).is CCLK.AFE_LOCK.cl = false)) ∧
    (((((up.set CCLK.AFE_LOCK.cl 1).setEngine 0 { queue := [⟨0, 0, 0, false⟩] }).engine (0 : Fin 2).val).queue = (⟨0, 0, 0, false⟩ : AfeRequest) :: ([] : List AfeRequest)) ∧ ((((up.set CCLK.AFE_LOCK.cl 1).setEngine 0 { queue := [⟨0, 0, 0, false⟩] }).engine (0 : Fin 2).val).round = none) ∧ (((up.set CCLK.AFE_LOCK.cl 1).setEngine 0 { queue := [⟨0, 0, 0, false⟩] }).is (calBusy (0 : Fin 2).val) = false) ∧ (((up.set CCLK.AFE_LOCK.cl 1).setEngine 0 { queue := [⟨0, 0, 0, false⟩] }).is CCLK.AFE_LOCK.cl = true) ∧ ((((up.set CCLK.AFE_LOCK.cl 1).setEngine 0 { queue := [⟨0, 0, 0, false⟩] }).engine (1 - (0 : Fin 2).val)).round = none) ∧ ((((up.set CCLK.AFE_LOCK.cl 1).setEngine 0 { queue := [⟨0, 0, 0, false⟩] }).engine (1 - (0 : Fin 2).val)).queue = [])) ∧
    (((up.engine (0 : Fin 2).val).queue = [])) ∧
    ((((up.setEngine 0 { round := some (⟨0, 0, 0, [], [], [⟨false, false⟩], 0, 0, 0, 0⟩ : AfeRound) }).engine (0 : Fin 2).val).round = some (⟨0, 0, 0, [], [], [⟨false, false⟩], 0, 0, 0, 0⟩ : AfeRound)) ∧ ((⟨0, 0, 0, [], [], [⟨false, false⟩], 0, 0, 0, 0⟩ : AfeRound).plan = (⟨false, false⟩ : AfePhase) :: ([] : List AfePhase))) ∧
    ((((up.set CCLK.AFE_LOCK.cl 1).set (hdr HDR.ENABLE clachasel AFECTL.page.base) 1).is CCLK.AFE_LOCK.cl = true) ∧ ((((up.set CCLK.AFE_LOCK.cl 1).set (hdr HDR.ENABLE clachasel AFECTL.page.base) 1).set CCLK.AFE_LOCK.cl 0).enabled clachasel AFECTL.page = true)) ∧
    (((up.set CCLK.AFE_LOCK.cl 1).is CCLK.AFE_LOCK.cl = true) ∧ (((up.set CCLK.AFE_LOCK.cl 1).set CCLK.AFE_LOCK.cl 0).enabled clachasel AFECTL.page = false)) ∧
    (((((up.set (MCCTL.RUNNING.clAt 1) 1).set afeEnabled 1).set CAL.TIME_LO.cl 117964800).mcRuns 1 = true) ∧ ((((up.set (MCCTL.RUNNING.clAt 1) 1).set afeEnabled 1).set CAL.TIME_LO.cl 117964800).is afeEnabled = true) ∧ (3600 ≤ (((up.set (MCCTL.RUNNING.clAt 1) 1).set afeEnabled 1).set CAL.TIME_LO.cl 117964800).trayTime / 32768 - (((up.set (MCCTL.RUNNING.clAt 1) 1).set afeEnabled 1).set CAL.TIME_LO.cl 117964800).get (AFEI.LAST_CAL.clAt (0 : Fin 2).val)) ∧ ((((up.set (MCCTL.RUNNING.clAt 1) 1).set afeEnabled 1).set CAL.TIME_LO.cl 117964800).is (calBusy (1 - (0 : Fin 2).val)) = false) ∧ ((((up.set (MCCTL.RUNNING.clAt 1) 1).set afeEnabled 1).set CAL.TIME_LO.cl 117964800).is (calReg (1 - (0 : Fin 2).val)).cl = false)) ∧
    (((up.set (hdr HDR.ENABLE clachasel AFECTL.page.base) 1).is CCLK.AFE_LOCK.cl = false) ∧ ((up.set (hdr HDR.ENABLE clachasel AFECTL.page.base) 1).enabled clachasel AFECTL.page = true)) :=
  by and_intros <;> decide +kernel

theorem test_hypotheses_of_TemperaturesAreFedAndActedOn :
    (((up.set (TSTAT.F_SEL.clAt 0) 48).Reaches clachasel TSTAT.page TSTAT.F_FEED (0 : Fin 2).val (2 : Requester)) ∧ (48 ≤ (up.set (TSTAT.F_SEL.clAt 0) 48).get (TSTAT.F_SEL.clAt (0 : Fin 2).val))) ∧
    ((((up.set (TCFG.EN.clAt 0) 1).set (TCFG.FEEDER.clAt 0) 2).Reaches clachasel TSTAT.page TSTAT.F_FEED (0 : Fin 2).val (2 : Requester)) ∧ ((0 : Nat) = ((up.set (TCFG.EN.clAt 0) 1).set (TCFG.FEEDER.clAt 0) 2).get (TSTAT.F_SEL.clAt (0 : Fin 2).val)) ∧ ((0 : Nat) < 48) ∧ ((0 : Fin 2).val = 0 ∨ ((up.set (TCFG.EN.clAt 0) 1).set (TCFG.FEEDER.clAt 0) 2).mc2Feeds (0 : Nat) = true) ∧ (((up.set (TCFG.EN.clAt 0) 1).set (TCFG.FEEDER.clAt 0) 2).get (TCFG.FEEDER.clAt (0 : Nat)) ≠ (0 : Fin 2).val + 1) ∧ ((((up.set (TCFG.EN.clAt 0) 1).set (TCFG.FEEDER.clAt 0) 2).regFault clachasel TSTAT.page TSTAT.F_FEED (0 : Fin 2).val .accessErr (2 : Requester).val 1).is (TCFG.EN.clAt (0 : Nat)) = true)) ∧
    ((((up.set (TCFG.EN.clAt 0) 1).set (TCFG.FEEDER.clAt 0) 1).Reaches clachasel TSTAT.page TSTAT.F_FEED (0 : Fin 2).val (2 : Requester)) ∧ ((0 : Nat) = ((up.set (TCFG.EN.clAt 0) 1).set (TCFG.FEEDER.clAt 0) 1).get (TSTAT.F_SEL.clAt (0 : Fin 2).val)) ∧ ((0 : Nat) < 48) ∧ ((0 : Fin 2).val = 0 ∨ ((up.set (TCFG.EN.clAt 0) 1).set (TCFG.FEEDER.clAt 0) 1).mc2Feeds (0 : Nat) = true) ∧ (((up.set (TCFG.EN.clAt 0) 1).set (TCFG.FEEDER.clAt 0) 1).get (TCFG.FEEDER.clAt (0 : Nat)) = (0 : Fin 2).val + 1) ∧ (((up.set (TCFG.EN.clAt 0) 1).set (TCFG.FEEDER.clAt 0) 1).is (TCFG.EN.clAt (0 : Nat)) = true) ∧ (((up.set (TCFG.EN.clAt 0) 1).set (TCFG.FEEDER.clAt 0) 1).get (TEMPI.SAMPLE.clAt (0 : Nat)) ≤ ((up.set (TCFG.EN.clAt 0) 1).set (TCFG.FEEDER.clAt 0) 1).pair (TSTAT.F_TIME_LO.clAt (0 : Fin 2).val) (TSTAT.F_TIME_HI.clAt (0 : Fin 2).val)) ∧ (((up.set (TCFG.EN.clAt 0) 1).set (TCFG.FEEDER.clAt 0) 1).get (TSTAT.F_AFE_FLAGS.clAt (0 : Fin 2).val) % 4 = 0) ∧ (toSixteenths (((up.set (TCFG.EN.clAt 0) 1).set (TCFG.FEEDER.clAt 0) 1).get (TSTAT.F_VALUE.clAt (0 : Fin 2).val)) = some (0 : Int))) ∧
    (((((up.set (TCFG.EN.clAt 0) 1).set (TCFG.FEEDER.clAt 0) 1).set (TEMPI.SAMPLE.clAt 0) 1).Reaches clachasel TSTAT.page TSTAT.F_FEED (0 : Fin 2).val (2 : Requester)) ∧ ((0 : Nat) = (((up.set (TCFG.EN.clAt 0) 1).set (TCFG.FEEDER.clAt 0) 1).set (TEMPI.SAMPLE.clAt 0) 1).get (TSTAT.F_SEL.clAt (0 : Fin 2).val)) ∧ ((0 : Nat) < 48) ∧ ((0 : Fin 2).val = 0 ∨ (((up.set (TCFG.EN.clAt 0) 1).set (TCFG.FEEDER.clAt 0) 1).set (TEMPI.SAMPLE.clAt 0) 1).mc2Feeds (0 : Nat) = true) ∧ ((((up.set (TCFG.EN.clAt 0) 1).set (TCFG.FEEDER.clAt 0) 1).set (TEMPI.SAMPLE.clAt 0) 1).get (TCFG.FEEDER.clAt (0 : Nat)) = (0 : Fin 2).val + 1) ∧ ((((up.set (TCFG.EN.clAt 0) 1).set (TCFG.FEEDER.clAt 0) 1).set (TEMPI.SAMPLE.clAt 0) 1).is (TCFG.EN.clAt (0 : Nat)) = true) ∧ ((((up.set (TCFG.EN.clAt 0) 1).set (TCFG.FEEDER.clAt 0) 1).set (TEMPI.SAMPLE.clAt 0) 1).pair (TSTAT.F_TIME_LO.clAt (0 : Fin 2).val) (TSTAT.F_TIME_HI.clAt (0 : Fin 2).val) < (((up.set (TCFG.EN.clAt 0) 1).set (TCFG.FEEDER.clAt 0) 1).set (TEMPI.SAMPLE.clAt 0) 1).get (TEMPI.SAMPLE.clAt (0 : Nat)))) ∧
    (((((up.set (TCFG.EN.clAt 0) 1).set (TCFG.FEEDER.clAt 0) 1).set (TSTAT.F_AFE_FLAGS.clAt 0) 1).Reaches clachasel TSTAT.page TSTAT.F_FEED (0 : Fin 2).val (2 : Requester)) ∧ ((0 : Nat) = (((up.set (TCFG.EN.clAt 0) 1).set (TCFG.FEEDER.clAt 0) 1).set (TSTAT.F_AFE_FLAGS.clAt 0) 1).get (TSTAT.F_SEL.clAt (0 : Fin 2).val)) ∧ ((0 : Nat) < 48) ∧ ((0 : Fin 2).val = 0 ∨ (((up.set (TCFG.EN.clAt 0) 1).set (TCFG.FEEDER.clAt 0) 1).set (TSTAT.F_AFE_FLAGS.clAt 0) 1).mc2Feeds (0 : Nat) = true) ∧ ((((up.set (TCFG.EN.clAt 0) 1).set (TCFG.FEEDER.clAt 0) 1).set (TSTAT.F_AFE_FLAGS.clAt 0) 1).get (TCFG.FEEDER.clAt (0 : Nat)) = (0 : Fin 2).val + 1) ∧ ((((up.set (TCFG.EN.clAt 0) 1).set (TCFG.FEEDER.clAt 0) 1).set (TSTAT.F_AFE_FLAGS.clAt 0) 1).is (TCFG.EN.clAt (0 : Nat)) = true) ∧ ((((up.set (TCFG.EN.clAt 0) 1).set (TCFG.FEEDER.clAt 0) 1).set (TSTAT.F_AFE_FLAGS.clAt 0) 1).get (TEMPI.SAMPLE.clAt (0 : Nat)) ≤ (((up.set (TCFG.EN.clAt 0) 1).set (TCFG.FEEDER.clAt 0) 1).set (TSTAT.F_AFE_FLAGS.clAt 0) 1).pair (TSTAT.F_TIME_LO.clAt (0 : Fin 2).val) (TSTAT.F_TIME_HI.clAt (0 : Fin 2).val)) ∧ ((((up.set (TCFG.EN.clAt 0) 1).set (TCFG.FEEDER.clAt 0) 1).set (TSTAT.F_AFE_FLAGS.clAt 0) 1).get (TSTAT.F_AFE_FLAGS.clAt (0 : Fin 2).val) % 4 ≠ 0)) ∧
    (((up.set (TSTAT.F_SEL.clAt 1) 16).Reaches clachasel TSTAT.page TSTAT.F_FEED (1 : Fin 2).val (3 : Requester)) ∧ ((1 : Fin 2).val = 1) ∧ ((up.set (TSTAT.F_SEL.clAt 1) 16).mc2Feeds ((up.set (TSTAT.F_SEL.clAt 1) 16).get (TSTAT.F_SEL.clAt (1 : Fin 2).val)) = false)) ∧
    ((2 ≤ ((((up.set (TSTAT.STATE.clAt 0) 2).set (TEMPI.ACCEPT.clAt 0) 1).set (TCFG.MAX_AGE.clAt 0) 1).set CAL.TIME_LO.cl 100).sensorState (0 : Fin 48).val) ∧ (((((up.set (TSTAT.STATE.clAt 0) 2).set (TEMPI.ACCEPT.clAt 0) 1).set (TCFG.MAX_AGE.clAt 0) 1).set CAL.TIME_LO.cl 100).sensorState (0 : Fin 48).val ≠ 5) ∧ (((((up.set (TSTAT.STATE.clAt 0) 2).set (TEMPI.ACCEPT.clAt 0) 1).set (TCFG.MAX_AGE.clAt 0) 1).set CAL.TIME_LO.cl 100).get (TEMPI.ACCEPT.clAt (0 : Fin 48).val) ≠ 0) ∧ (((((up.set (TSTAT.STATE.clAt 0) 2).set (TEMPI.ACCEPT.clAt 0) 1).set (TCFG.MAX_AGE.clAt 0) 1).set CAL.TIME_LO.cl 100).get (TCFG.MAX_AGE.clAt (0 : Fin 48).val) * 32768 < (((((up.set (TSTAT.STATE.clAt 0) 2).set (TEMPI.ACCEPT.clAt 0) 1).set (TCFG.MAX_AGE.clAt 0) 1).set CAL.TIME_LO.cl 100).trayTime + 1 - ((((up.set (TSTAT.STATE.clAt 0) 2).set (TEMPI.ACCEPT.clAt 0) 1).set (TCFG.MAX_AGE.clAt 0) 1).set CAL.TIME_LO.cl 100).get (TEMPI.ACCEPT.clAt (0 : Fin 48).val)) * 1000)) ∧
    (((((((up.set (MCCTL.RUNNING.clAt 1) 1).set (MCCTL.RUNNING.clAt 0) 1).set (TZONE.ZEN.clAt 0) 1).set (TZONE.DIES.clAt 0) 1).set OPCTL.MODE.cl 1 |>.set (TZONE.TTT.clAt 0) 0).mcRuns 1 = true) ∧ ((((((up.set (MCCTL.RUNNING.clAt 1) 1).set (MCCTL.RUNNING.clAt 0) 1).set (TZONE.ZEN.clAt 0) 1).set (TZONE.DIES.clAt 0) 1).set OPCTL.MODE.cl 1 |>.set (TZONE.TTT.clAt 0) 0).mcRuns 0 = true) ∧ ((((((up.set (MCCTL.RUNNING.clAt 1) 1).set (MCCTL.RUNNING.clAt 0) 1).set (TZONE.ZEN.clAt 0) 1).set (TZONE.DIES.clAt 0) 1).set OPCTL.MODE.cl 1 |>.set (TZONE.TTT.clAt 0) 0).asksStep (0 : Fin 16).val = true) ∧ ((((((up.set (MCCTL.RUNNING.clAt 1) 1).set (MCCTL.RUNNING.clAt 0) 1).set (TZONE.ZEN.clAt 0) 1).set (TZONE.DIES.clAt 0) 1).set OPCTL.MODE.cl 1 |>.set (TZONE.TTT.clAt 0) 0).stepPending = false) ∧ ((((((up.set (MCCTL.RUNNING.clAt 1) 1).set (MCCTL.RUNNING.clAt 0) 1).set (TZONE.ZEN.clAt 0) 1).set (TZONE.DIES.clAt 0) 1).set OPCTL.MODE.cl 1 |>.set (TZONE.TTT.clAt 0) 0).is OPCTL.MODE.cl = true)) ∧
    ((({ (((((up.set (MCCTL.RUNNING.clAt 1) 1).set (MCCTL.RUNNING.clAt 0) 1).set (TZONE.ZEN.clAt 0) 1).set (TZONE.DIES.clAt 0) 1).set OPCTL.MODE.cl 1).set TEMPI.IDLE.cl 5 |>.set (TEMPI.COOL_SINCE.clAt 0) 1 with clock := 100000000 } : State).mcRuns 1 = true) ∧ (({ (((((up.set (MCCTL.RUNNING.clAt 1) 1).set (MCCTL.RUNNING.clAt 0) 1).set (TZONE.ZEN.clAt 0) 1).set (TZONE.DIES.clAt 0) 1).set OPCTL.MODE.cl 1).set TEMPI.IDLE.cl 5 |>.set (TEMPI.COOL_SINCE.clAt 0) 1 with clock := 100000000 } : State).mcRuns 0 = true) ∧ (({ (((((up.set (MCCTL.RUNNING.clAt 1) 1).set (MCCTL.RUNNING.clAt 0) 1).set (TZONE.ZEN.clAt 0) 1).set (TZONE.DIES.clAt 0) 1).set OPCTL.MODE.cl 1).set TEMPI.IDLE.cl 5 |>.set (TEMPI.COOL_SINCE.clAt 0) 1 with clock := 100000000 } : State).throttles (0 : Fin 16).val = true) ∧ (({ (((((up.set (MCCTL.RUNNING.clAt 1) 1).set (MCCTL.RUNNING.clAt 0) 1).set (TZONE.ZEN.clAt 0) 1).set (TZONE.DIES.clAt 0) 1).set OPCTL.MODE.cl 1).set TEMPI.IDLE.cl 5 |>.set (TEMPI.COOL_SINCE.clAt 0) 1 with clock := 100000000 } : State).get TEMPI.IDLE.cl ≠ 0) ∧ (({ (((((up.set (MCCTL.RUNNING.clAt 1) 1).set (MCCTL.RUNNING.clAt 0) 1).set (TZONE.ZEN.clAt 0) 1).set (TZONE.DIES.clAt 0) 1).set OPCTL.MODE.cl 1).set TEMPI.IDLE.cl 5 |>.set (TEMPI.COOL_SINCE.clAt 0) 1 with clock := 100000000 } : State).stepPending = false) ∧ (({ (((((up.set (MCCTL.RUNNING.clAt 1) 1).set (MCCTL.RUNNING.clAt 0) 1).set (TZONE.ZEN.clAt 0) 1).set (TZONE.DIES.clAt 0) 1).set OPCTL.MODE.cl 1).set TEMPI.IDLE.cl 5 |>.set (TEMPI.COOL_SINCE.clAt 0) 1 with clock := 100000000 } : State).is OPCTL.MODE.cl = true) ∧ ((∀ y ∈ List.range 16, (!({ (((((up.set (MCCTL.RUNNING.clAt 1) 1).set (MCCTL.RUNNING.clAt 0) 1).set (TZONE.ZEN.clAt 0) 1).set (TZONE.DIES.clAt 0) 1).set OPCTL.MODE.cl 1).set TEMPI.IDLE.cl 5 |>.set (TEMPI.COOL_SINCE.clAt 0) 1 with clock := 100000000 } : State).throttles y || ({ (((((up.set (MCCTL.RUNNING.clAt 1) 1).set (MCCTL.RUNNING.clAt 0) 1).set (TZONE.ZEN.clAt 0) 1).set (TZONE.DIES.clAt 0) 1).set OPCTL.MODE.cl 1).set TEMPI.IDLE.cl 5 |>.set (TEMPI.COOL_SINCE.clAt 0) 1 with clock := 100000000 } : State).heldFor (TEMPI.COOL_SINCE.clAt y) (({ (((((up.set (MCCTL.RUNNING.clAt 1) 1).set (MCCTL.RUNNING.clAt 0) 1).set (TZONE.ZEN.clAt 0) 1).set (TZONE.DIES.clAt 0) 1).set OPCTL.MODE.cl 1).set TEMPI.IDLE.cl 5 |>.set (TEMPI.COOL_SINCE.clAt 0) 1 with clock := 100000000 } : State).get (TZONE.RELEASE_MS.clAt y) * 1000)) = true))) ∧
    ((((((up.set (MCCTL.RUNNING.clAt 0) 1).set (TZONE.ZEN.clAt 0) 1).set (TZONE.LEVEL.clAt 0) 3).set CSYS.TRAY_STATE.cl 3).mcRuns 0 = true) ∧ (((((up.set (MCCTL.RUNNING.clAt 0) 1).set (TZONE.ZEN.clAt 0) 1).set (TZONE.LEVEL.clAt 0) 3).set CSYS.TRAY_STATE.cl 3).is (TZONE.ZEN.clAt (0 : Fin 16).val) = true) ∧ (((((up.set (MCCTL.RUNNING.clAt 0) 1).set (TZONE.ZEN.clAt 0) 1).set (TZONE.LEVEL.clAt 0) 3).set CSYS.TRAY_STATE.cl 3).get (TZONE.LEVEL.clAt (0 : Fin 16).val) = 3) ∧ (3 ≤ ((((up.set (MCCTL.RUNNING.clAt 0) 1).set (TZONE.ZEN.clAt 0) 1).set (TZONE.LEVEL.clAt 0) 3).set CSYS.TRAY_STATE.cl 3).get CSYS.TRAY_STATE.cl)) ∧
    (((up.set (MCCTL.RUNNING.clAt 0) 1).mcRuns (0 : McNo).val = true) ∧ ((up.set (MCCTL.RUNNING.clAt 0) 1).watchLeft (watchMc (0 : McNo).val) = 0)) ∧
    (((on.set (wRun 0 0) 1).inReset (0 : DieNo).val = false) ∧ ((on.set (wRun 0 0) 1).is (wRun (0 : DieNo).val (0 : Fin 2).val) = true) ∧ ((on.set (wRun 0 0) 1).watchLeft (watchW (0 : DieNo).val (0 : Fin 2).val) = 0)) ∧
    ((up.mcRuns (0 : McNo).val = false ∨ up.watchLeft (watchMc (0 : McNo).val) ≠ 0)) ∧
    ((up.is (wRun (0 : DieNo).val (0 : Fin 2).val) = false ∨ up.watchLeft (watchW (0 : DieNo).val (0 : Fin 2).val) ≠ 0)) ∧
    (((up.set (MCCTL.RUNNING.clAt 3) 1).inReset clachasel = false) ∧ ((((up.set (MCCTL.RUNNING.clAt 3) 1).set PFAIL.VIN.cl (0 : BitVec 16).toNat).set HLS.IIN.cl (0 : BitVec 8).toNat).mcRuns 3 = true)) ∧
    ((up.inReset clachasel = false) ∧ (((up.set PFAIL.VIN.cl (0 : BitVec 16).toNat).set HLS.IIN.cl (0 : BitVec 8).toNat).mcRuns 3 = false)) :=
  by and_intros <;> decide +kernel

theorem test_hypotheses_of_LinesAlertsAndSemaphoresAreDriven :
    (up.Reaches clachasel FENCE.page FENCE.FENCE_SET 0 (1 : Requester)) ∧
    (up.Reaches clachasel FENCE.page FENCE.TRIP_SET 0 (1 : Requester)) ∧
    ((up.Reaches clachasel FENCE.page FENCE.TRIP_REL 0 (1 : Requester))) ∧
    (((on.fenceLine 0 1).inReset (0 : DieNo).val = false) ∧ ((on.fenceLine 0 1).fenced (0 : DieNo).val = true) ∧ ((on.fenceLine 0 1).is (LINEI.FENCING.on (0 : DieNo).val) = false)) ∧
    (((up.set (MCCTL.RUNNING.clAt 2) 1).tripped (0 : DieNo).val = true) ∧ (((up.set (MCCTL.RUNNING.clAt 2) 1).dieReset (0 : DieNo).val).mcRuns 2 = true)) ∧
    ((up.tripped (0 : DieNo).val = true) ∧ ((up.dieReset (0 : DieNo).val).mcRuns 2 = false)) ∧
    ((up.is (LINEI.THERM.clAt (0 : DieNo).val) = false) ∧ (up.get RECI.RUNS.cl ≠ 0)) ∧
    (State.reset.is (LINEI.THERM.clAt (0 : DieNo).val) = true ∨ State.reset.get RECI.RUNS.cl = 0) ∧
    ((({ (on.set (LINEI.THERM.clAt 0) 1).set (LINEI.THERM_SINCE.clAt 0) 1 with clock := 100000000 } : State).is (LINEI.THERM.clAt (0 : DieNo).val) = true) ∧ (({ (on.set (LINEI.THERM.clAt 0) 1).set (LINEI.THERM_SINCE.clAt 0) 1 with clock := 100000000 } : State).fenced (0 : DieNo).val = false) ∧ (({ (on.set (LINEI.THERM.clAt 0) 1).set (LINEI.THERM_SINCE.clAt 0) 1 with clock := 100000000 } : State).heldFor (LINEI.THERM_SINCE.clAt (0 : DieNo).val) (({ (on.set (LINEI.THERM.clAt 0) 1).set (LINEI.THERM_SINCE.clAt 0) 1 with clock := 100000000 } : State).get HLS.TA_FENCE.cl * 1000) = true)) ∧
    ((({ (on.set (LINEI.THERM.clAt 0) 1).set (LINEI.THERM_SINCE.clAt 0) 1 with clock := 100000000 } : State).is (LINEI.THERM.clAt (0 : DieNo).val) = true) ∧ (({ (on.set (LINEI.THERM.clAt 0) 1).set (LINEI.THERM_SINCE.clAt 0) 1 with clock := 100000000 } : State).tripped (0 : DieNo).val = false) ∧ (({ (on.set (LINEI.THERM.clAt 0) 1).set (LINEI.THERM_SINCE.clAt 0) 1 with clock := 100000000 } : State).heldFor (LINEI.THERM_SINCE.clAt (0 : DieNo).val) (({ (on.set (LINEI.THERM.clAt 0) 1).set (LINEI.THERM_SINCE.clAt 0) 1 with clock := 100000000 } : State).get HLS.TA_TRIP.cl * 1000) = true)) ∧
    ((on.set (LINEI.THERM.clAt 0) 1).is (LINEI.THERM.clAt (0 : DieNo).val) = true) ∧
    ((up.is (LINEI.THERM.clAt (0 : DieNo).val) = false)) ∧
    (((on.set (DFAULT.CAUSE.on 0) 1).inReset (0 : DieNo).val = false) ∧ ((on.set (DFAULT.CAUSE.on 0) 1).get (DFAULT.CAUSE.on (0 : DieNo).val) ≠ 0) ∧ ((on.set (DFAULT.CAUSE.on 0) 1).is (LINEI.FAULT_LATCH.clAt (0 : DieNo).val) = false)) ∧
    ((up.get (DFAULT.CAUSE.on (0 : DieNo).val) = 0 ∨ up.is (LINEI.FAULT_LATCH.clAt (0 : DieNo).val) = true)) ∧
    ((({ (on.fenceLine 0 1).set (LINEI.FENCE_SINCE.clAt 0) 1 with clock := 100000000 } : State).fenced (0 : DieNo).val = true) ∧ (({ (on.fenceLine 0 1).set (LINEI.FENCE_SINCE.clAt 0) 1 with clock := 100000000 } : State).bit FENCE.FENCED.cl (0 : DieNo).val = false) ∧ (({ (on.fenceLine 0 1).set (LINEI.FENCE_SINCE.clAt 0) 1 with clock := 100000000 } : State).tripped (0 : DieNo).val = false) ∧ (({ (on.fenceLine 0 1).set (LINEI.FENCE_SINCE.clAt 0) 1 with clock := 100000000 } : State).heldFor (LINEI.FENCE_SINCE.clAt (0 : DieNo).val) (({ (on.fenceLine 0 1).set (LINEI.FENCE_SINCE.clAt 0) 1 with clock := 100000000 } : State).get HLS.FENCE_TO.cl * 1000) = true)) ∧
    ((up.inReset clachasel = false) ∧ ((∀ k ∈ limitsOf (0 : Fin 4).val, up.limitBar k (1 : Requester).val = none))) ∧
    ((({ up with spent := [(HLS.IIN_TRIP.on clachasel).key] }).inReset clachasel = false) ∧ ((∀ k ∈ limitsOf (2 : Fin 4).val, ({ up with spent := [(HLS.IIN_TRIP.on clachasel).key] }).limitBar k (1 : Requester).val = some .lockViol))) ∧
    ((((((((on.set (CTX.STATE.on 0) 2).set (ARRAY.FORM.on 0) 15).set (DFAULT.FORM_LOST.on 0) 1).set (KRING.VARIANTS.on 0) 2).set (DFAULT.FORM_SYNC.on 0) 2)).Reaches (0 : DieNo).val DFAULT.page DFAULT.FORM_GO 0 (512 : Requester)) ∧ (((((((on.set (CTX.STATE.on 0) 2).set (ARRAY.FORM.on 0) 15).set (DFAULT.FORM_LOST.on 0) 1).set (KRING.VARIANTS.on 0) 2).set (DFAULT.FORM_SYNC.on 0) 2)).formRefusal (0 : DieNo).val = 0)) ∧
    ((on.Reaches (0 : DieNo).val DFAULT.page DFAULT.FORM_GO 0 (512 : Requester)) ∧ (on.formRefusal (0 : DieNo).val ≠ 0)) ∧
    ((up.Reaches clachasel OWN.page OWN.CLAIM (0 : McNo).val (1 : Requester)) ∧ (up.is (OWN.SEM_HELD.clAt (up.get (OWN.SEM.clAt (0 : McNo).val))) = false)) ∧
    ((((up.set (OWN.SEM_HELD.clAt 0) 1).set (OWN.SEM_OWNER.clAt 0) 2).Reaches clachasel OWN.page OWN.CLAIM (0 : McNo).val (1 : Requester)) ∧ (((up.set (OWN.SEM_HELD.clAt 0) 1).set (OWN.SEM_OWNER.clAt 0) 2).is (OWN.SEM_HELD.clAt (((up.set (OWN.SEM_HELD.clAt 0) 1).set (OWN.SEM_OWNER.clAt 0) 2).get (OWN.SEM.clAt (0 : McNo).val))) = true) ∧ (((up.set (OWN.SEM_HELD.clAt 0) 1).set (OWN.SEM_OWNER.clAt 0) 2).get (OWN.SEM_OWNER.clAt (((up.set (OWN.SEM_HELD.clAt 0) 1).set (OWN.SEM_OWNER.clAt 0) 2).get (OWN.SEM.clAt (0 : McNo).val))) ≠ (0 : McNo).val + 1)) ∧
    ((((up.set (OWN.SEM_HELD.clAt 0) 1).set (OWN.SEM_OWNER.clAt 0) 1).Reaches clachasel OWN.page OWN.RELEASE (0 : McNo).val (1 : Requester)) ∧ (((up.set (OWN.SEM_HELD.clAt 0) 1).set (OWN.SEM_OWNER.clAt 0) 1).is (OWN.SEM_HELD.clAt (((up.set (OWN.SEM_HELD.clAt 0) 1).set (OWN.SEM_OWNER.clAt 0) 1).get (OWN.SEM.clAt (0 : McNo).val))) = true) ∧ (((up.set (OWN.SEM_HELD.clAt 0) 1).set (OWN.SEM_OWNER.clAt 0) 1).get (OWN.SEM_OWNER.clAt (((up.set (OWN.SEM_HELD.clAt 0) 1).set (OWN.SEM_OWNER.clAt 0) 1).get (OWN.SEM.clAt (0 : McNo).val))) = (0 : McNo).val + 1)) ∧
    ((up.Reaches clachasel OWN.page OWN.RELEASE (0 : McNo).val (1 : Requester)) ∧ (up.get (OWN.SEM_OWNER.clAt (up.get (OWN.SEM.clAt (0 : McNo).val))) ≠ (0 : McNo).val + 1)) :=
  by and_intros <;> decide +kernel

theorem test_hypotheses_of_SupervisorFramesAreReceivedAndServed :
    ((up.get RECI.RUNS.cl ≠ 0) ∧ (up.get CCLK.CORE_LOCK.cl ≠ 0)) ∧
    ((State.reset.get RECI.RUNS.cl = 0 ∨ State.reset.get CCLK.CORE_LOCK.cl = 0)) ∧
    ((up.get RECI.RUNS.cl ≠ 0) ∧ (up.get CCLK.CORE_LOCK.cl ≠ 0) ∧ ((⟨5, 0, 1, 1, [], 0⟩ : Frame).payload.length ≤ 240) ∧ ((⟨5, 0, 1, 1, [], 0⟩ : Frame).crc.toNat ≠ frameSum (⟨5, 0, 1, 1, [], 0⟩ : Frame)) ∧ ((⟨5, 0, 1, 1, [], 0⟩ : Frame).type.toNat = 1)) ∧
    ((slotted.CanReceive (framed 1 [])) ∧ ((framed 1 []).type.toNat = 1)) ∧
    ((slotted.CanReceive (framed 10 [])) ∧ (10 ≤ (framed 10 []).type.toNat)) ∧
    ((slotted.CanReceive (framed 2 [])) ∧ ((framed 2 []).type.toNat = 2)) ∧
    (((asked 2 [] 2).CanAnswer 2 0 (⟨framed 2 [], 0, 0, false, false⟩ : RxFrame)) ∧ ((asked 2 [] 2).mgmtReady = true)) ∧
    (((asked 2 [] 1).CanAnswer 2 0 (⟨framed 2 [], 0, 0, false, false⟩ : RxFrame)) ∧ ((asked 2 [] 1).mgmtReady = false)) ∧
    (((asked 2 [0] 2).CanAnswer 2 (⟨framed 2 [0], 0, 0, false, false⟩ : RxFrame).frame.payload.length (⟨framed 2 [0], 0, 0, false, false⟩ : RxFrame)) ∧ ((⟨framed 2 [0], 0, 0, false, false⟩ : RxFrame).frame.payload.length ≠ 0)) ∧
    ((slotted.CanReceive (framed 3 [])) ∧ ((framed 3 []).type.toNat = 3)) ∧
    ((((asked 3 [0, 0, 0, 0, 1, 0, 0, 0, 0, 0, 0, 0] 3).set (MCCTL.RUNNING.clAt 0) 1).CanAnswer 3 12 (⟨framed 3 [0, 0, 0, 0, 1, 0, 0, 0, 0, 0, 0, 0], 0, 0, false, false⟩ : RxFrame)) ∧ (3 ≤ ((asked 3 [0, 0, 0, 0, 1, 0, 0, 0, 0, 0, 0, 0] 3).set (MCCTL.RUNNING.clAt 0) 1).get CSYS.TRAY_STATE.cl) ∧ (((asked 3 [0, 0, 0, 0, 1, 0, 0, 0, 0, 0, 0, 0] 3).set (MCCTL.RUNNING.clAt 0) 1).is SUPV.SILENT.cl = false) ∧ (((asked 3 [0, 0, 0, 0, 1, 0, 0, 0, 0, 0, 0, 0] 3).set (MCCTL.RUNNING.clAt 0) 1).mcRuns 0 = true) ∧ (((asked 3 [0, 0, 0, 0, 1, 0, 0, 0, 0, 0, 0, 0] 3).set (MCCTL.RUNNING.clAt 0) 1).is OPCTL.MODE.cl = false) ∧ (frameLe (⟨framed 3 [0, 0, 0, 0, 1, 0, 0, 0, 0, 0, 0, 0], 0, 0, false, false⟩ : RxFrame).frame 4 1 = 1 ∨ frameLe (⟨framed 3 [0, 0, 0, 0, 1, 0, 0, 0, 0, 0, 0, 0], 0, 0, false, false⟩ : RxFrame).frame 4 1 = 4) ∧ (frameLe (⟨framed 3 [0, 0, 0, 0, 1, 0, 0, 0, 0, 0, 0, 0], 0, 0, false, false⟩ : RxFrame).frame 5 1 < 8) ∧ (frameLe (⟨framed 3 [0, 0, 0, 0, 1, 0, 0, 0, 0, 0, 0, 0], 0, 0, false, false⟩ : RxFrame).frame 9 3 = 0)) ∧
    (((asked 3 [0, 0, 0, 0, 0, 0, 0, 0, 0, 0, 0, 0] 2).CanAnswer 3 12 (⟨framed 3 [0, 0, 0, 0, 0, 0, 0, 0, 0, 0, 0, 0], 0, 0, false, false⟩ : RxFrame)) ∧ ((asked 3 [0, 0, 0, 0, 0, 0, 0, 0, 0, 0, 0, 0] 2).get CSYS.TRAY_STATE.cl < 3 ∨ (asked 3 [0, 0, 0, 0, 0, 0, 0, 0, 0, 0, 0, 0] 2).is SUPV.SILENT.cl = true ∨ (asked 3 [0, 0, 0, 0, 0, 0, 0, 0, 0, 0, 0, 0] 2).mcRuns 0 = false)) ∧
    (((((asked 3 [0, 0, 0, 0, 0, 0, 0, 0, 0, 0, 0, 0] 3).set (MCCTL.RUNNING.clAt 0) 1).set OPCTL.MODE.cl 1).CanAnswer 3 12 (⟨framed 3 [0, 0, 0, 0, 0, 0, 0, 0, 0, 0, 0, 0], 0, 0, false, false⟩ : RxFrame)) ∧ (3 ≤ (((asked 3 [0, 0, 0, 0, 0, 0, 0, 0, 0, 0, 0, 0] 3).set (MCCTL.RUNNING.clAt 0) 1).set OPCTL.MODE.cl 1).get CSYS.TRAY_STATE.cl) ∧ ((((asked 3 [0, 0, 0, 0, 0, 0, 0, 0, 0, 0, 0, 0] 3).set (MCCTL.RUNNING.clAt 0) 1).set OPCTL.MODE.cl 1).is SUPV.SILENT.cl = false) ∧ ((((asked 3 [0, 0, 0, 0, 0, 0, 0, 0, 0, 0, 0, 0] 3).set (MCCTL.RUNNING.clAt 0) 1).set OPCTL.MODE.cl 1).mcRuns 0 = true) ∧ ((((asked 3 [0, 0, 0, 0, 0, 0, 0, 0, 0, 0, 0, 0] 3).set (MCCTL.RUNNING.clAt 0) 1).set OPCTL.MODE.cl 1).is OPCTL.MODE.cl = true)) ∧
    ((((asked 3 [0, 0, 0, 0, 0, 0, 0, 0, 0, 0, 0, 0] 3).set (MCCTL.RUNNING.clAt 0) 1).CanAnswer 3 12 (⟨framed 3 [0, 0, 0, 0, 0, 0, 0, 0, 0, 0, 0, 0], 0, 0, false, false⟩ : RxFrame)) ∧ (3 ≤ ((asked 3 [0, 0, 0, 0, 0, 0, 0, 0, 0, 0, 0, 0] 3).set (MCCTL.RUNNING.clAt 0) 1).get CSYS.TRAY_STATE.cl) ∧ (((asked 3 [0, 0, 0, 0, 0, 0, 0, 0, 0, 0, 0, 0] 3).set (MCCTL.RUNNING.clAt 0) 1).is SUPV.SILENT.cl = false) ∧ (((asked 3 [0, 0, 0, 0, 0, 0, 0, 0, 0, 0, 0, 0] 3).set (MCCTL.RUNNING.clAt 0) 1).mcRuns 0 = true) ∧ (((asked 3 [0, 0, 0, 0, 0, 0, 0, 0, 0, 0, 0, 0] 3).set (MCCTL.RUNNING.clAt 0) 1).is OPCTL.MODE.cl = false) ∧ ((frameLe (⟨framed 3 [0, 0, 0, 0, 0, 0, 0, 0, 0, 0, 0, 0], 0, 0, false, false⟩ : RxFrame).frame 4 1 ≠ 1 ∧ frameLe (⟨framed 3 [0, 0, 0, 0, 0, 0, 0, 0, 0, 0, 0, 0], 0, 0, false, false⟩ : RxFrame).frame 4 1 ≠ 4) ∨ 8 ≤ frameLe (⟨framed 3 [0, 0, 0, 0, 0, 0, 0, 0, 0, 0, 0, 0], 0, 0, false, false⟩ : RxFrame).frame 5 1 ∨ frameLe (⟨framed 3 [0, 0, 0, 0, 0, 0, 0, 0, 0, 0, 0, 0], 0, 0, false, false⟩ : RxFrame).frame 9 3 ≠ 0)) ∧
    ((slotted.CanReceive (framed 4 [])) ∧ ((framed 4 []).type.toNat = 4)) ∧
    ((((asked 4 [0, 0, 0, 0, 0, 0, 0, 0] 3).set (MCCTL.RUNNING.clAt 0) 1).CanAnswer 4 8 (⟨framed 4 [0, 0, 0, 0, 0, 0, 0, 0], 0, 0, false, false⟩ : RxFrame)) ∧ (3 ≤ ((asked 4 [0, 0, 0, 0, 0, 0, 0, 0] 3).set (MCCTL.RUNNING.clAt 0) 1).get CSYS.TRAY_STATE.cl) ∧ (((asked 4 [0, 0, 0, 0, 0, 0, 0, 0] 3).set (MCCTL.RUNNING.clAt 0) 1).is SUPV.SILENT.cl = false) ∧ (((asked 4 [0, 0, 0, 0, 0, 0, 0, 0] 3).set (MCCTL.RUNNING.clAt 0) 1).mcRuns 0 = true) ∧ (((asked 4 [0, 0, 0, 0, 0, 0, 0, 0] 3).set (MCCTL.RUNNING.clAt 0) 1).is OPCTL.MODE.cl = false) ∧ (frameLe (⟨framed 4 [0, 0, 0, 0, 0, 0, 0, 0], 0, 0, false, false⟩ : RxFrame).frame 5 3 = 0)) ∧
    (((asked 4 [0, 0, 0, 0, 0, 0, 0, 0] 2).CanAnswer 4 8 (⟨framed 4 [0, 0, 0, 0, 0, 0, 0, 0], 0, 0, false, false⟩ : RxFrame)) ∧ ((asked 4 [0, 0, 0, 0, 0, 0, 0, 0] 2).get CSYS.TRAY_STATE.cl < 3 ∨ (asked 4 [0, 0, 0, 0, 0, 0, 0, 0] 2).is SUPV.SILENT.cl = true ∨ (asked 4 [0, 0, 0, 0, 0, 0, 0, 0] 2).mcRuns 0 = false)) ∧
    (((((asked 4 [0, 0, 0, 0, 0, 0, 0, 0] 3).set (MCCTL.RUNNING.clAt 0) 1).set OPCTL.MODE.cl 1).CanAnswer 4 8 (⟨framed 4 [0, 0, 0, 0, 0, 0, 0, 0], 0, 0, false, false⟩ : RxFrame)) ∧ (3 ≤ (((asked 4 [0, 0, 0, 0, 0, 0, 0, 0] 3).set (MCCTL.RUNNING.clAt 0) 1).set OPCTL.MODE.cl 1).get CSYS.TRAY_STATE.cl) ∧ ((((asked 4 [0, 0, 0, 0, 0, 0, 0, 0] 3).set (MCCTL.RUNNING.clAt 0) 1).set OPCTL.MODE.cl 1).is SUPV.SILENT.cl = false) ∧ ((((asked 4 [0, 0, 0, 0, 0, 0, 0, 0] 3).set (MCCTL.RUNNING.clAt 0) 1).set OPCTL.MODE.cl 1).mcRuns 0 = true) ∧ ((((asked 4 [0, 0, 0, 0, 0, 0, 0, 0] 3).set (MCCTL.RUNNING.clAt 0) 1).set OPCTL.MODE.cl 1).is OPCTL.MODE.cl = true)) ∧
    ((((asked 4 [0, 0, 0, 0, 0, 1, 0, 0] 3).set (MCCTL.RUNNING.clAt 0) 1).CanAnswer 4 8 (⟨framed 4 [0, 0, 0, 0, 0, 1, 0, 0], 0, 0, false, false⟩ : RxFrame)) ∧ (3 ≤ ((asked 4 [0, 0, 0, 0, 0, 1, 0, 0] 3).set (MCCTL.RUNNING.clAt 0) 1).get CSYS.TRAY_STATE.cl) ∧ (((asked 4 [0, 0, 0, 0, 0, 1, 0, 0] 3).set (MCCTL.RUNNING.clAt 0) 1).is SUPV.SILENT.cl = false) ∧ (((asked 4 [0, 0, 0, 0, 0, 1, 0, 0] 3).set (MCCTL.RUNNING.clAt 0) 1).mcRuns 0 = true) ∧ (((asked 4 [0, 0, 0, 0, 0, 1, 0, 0] 3).set (MCCTL.RUNNING.clAt 0) 1).is OPCTL.MODE.cl = false) ∧ (frameLe (⟨framed 4 [0, 0, 0, 0, 0, 1, 0, 0], 0, 0, false, false⟩ : RxFrame).frame 5 3 ≠ 0)) ∧
    ((slotted.CanReceive (framed 5 [])) ∧ ((framed 5 []).type.toNat = 5)) ∧
    ((((asked 5 [0, 0, 0, 0, 0, 0, 0, 0] 3).set (MCCTL.RUNNING.clAt 0) 1).CanAnswer 5 8 (⟨framed 5 [0, 0, 0, 0, 0, 0, 0, 0], 0, 0, false, false⟩ : RxFrame)) ∧ (3 ≤ ((asked 5 [0, 0, 0, 0, 0, 0, 0, 0] 3).set (MCCTL.RUNNING.clAt 0) 1).get CSYS.TRAY_STATE.cl) ∧ (((asked 5 [0, 0, 0, 0, 0, 0, 0, 0] 3).set (MCCTL.RUNNING.clAt 0) 1).is SUPV.SILENT.cl = false) ∧ (((asked 5 [0, 0, 0, 0, 0, 0, 0, 0] 3).set (MCCTL.RUNNING.clAt 0) 1).mcRuns 0 = true) ∧ (((asked 5 [0, 0, 0, 0, 0, 0, 0, 0] 3).set (MCCTL.RUNNING.clAt 0) 1).is OPCTL.MODE.cl = false) ∧ (frameLe (⟨framed 5 [0, 0, 0, 0, 0, 0, 0, 0], 0, 0, false, false⟩ : RxFrame).frame 6 2 = 0)) ∧
    (((asked 5 [0, 0, 0, 0, 0, 0, 0, 0] 2).CanAnswer 5 8 (⟨framed 5 [0, 0, 0, 0, 0, 0, 0, 0], 0, 0, false, false⟩ : RxFrame)) ∧ ((asked 5 [0, 0, 0, 0, 0, 0, 0, 0] 2).get CSYS.TRAY_STATE.cl < 3 ∨ (asked 5 [0, 0, 0, 0, 0, 0, 0, 0] 2).is SUPV.SILENT.cl = true ∨ (asked 5 [0, 0, 0, 0, 0, 0, 0, 0] 2).mcRuns 0 = false)) ∧
    (((((asked 5 [0, 0, 0, 0, 0, 0, 0, 0] 3).set (MCCTL.RUNNING.clAt 0) 1).set OPCTL.MODE.cl 1).CanAnswer 5 8 (⟨framed 5 [0, 0, 0, 0, 0, 0, 0, 0], 0, 0, false, false⟩ : RxFrame)) ∧ (3 ≤ (((asked 5 [0, 0, 0, 0, 0, 0, 0, 0] 3).set (MCCTL.RUNNING.clAt 0) 1).set OPCTL.MODE.cl 1).get CSYS.TRAY_STATE.cl) ∧ ((((asked 5 [0, 0, 0, 0, 0, 0, 0, 0] 3).set (MCCTL.RUNNING.clAt 0) 1).set OPCTL.MODE.cl 1).is SUPV.SILENT.cl = false) ∧ ((((asked 5 [0, 0, 0, 0, 0, 0, 0, 0] 3).set (MCCTL.RUNNING.clAt 0) 1).set OPCTL.MODE.cl 1).mcRuns 0 = true) ∧ ((((asked 5 [0, 0, 0, 0, 0, 0, 0, 0] 3).set (MCCTL.RUNNING.clAt 0) 1).set OPCTL.MODE.cl 1).is OPCTL.MODE.cl = true)) ∧
    ((((asked 5 [0, 0, 0, 0, 0, 0, 1, 0] 3).set (MCCTL.RUNNING.clAt 0) 1).CanAnswer 5 8 (⟨framed 5 [0, 0, 0, 0, 0, 0, 1, 0], 0, 0, false, false⟩ : RxFrame)) ∧ (3 ≤ ((asked 5 [0, 0, 0, 0, 0, 0, 1, 0] 3).set (MCCTL.RUNNING.clAt 0) 1).get CSYS.TRAY_STATE.cl) ∧ (((asked 5 [0, 0, 0, 0, 0, 0, 1, 0] 3).set (MCCTL.RUNNING.clAt 0) 1).is SUPV.SILENT.cl = false) ∧ (((asked 5 [0, 0, 0, 0, 0, 0, 1, 0] 3).set (MCCTL.RUNNING.clAt 0) 1).mcRuns 0 = true) ∧ (((asked 5 [0, 0, 0, 0, 0, 0, 1, 0] 3).set (MCCTL.RUNNING.clAt 0) 1).is OPCTL.MODE.cl = false) ∧ (frameLe (⟨framed 5 [0, 0, 0, 0, 0, 0, 1, 0], 0, 0, false, false⟩ : RxFrame).frame 6 2 ≠ 0)) ∧
    ((slotted.CanReceive (framed 6 [])) ∧ ((framed 6 []).type.toNat = 6)) ∧
    (((asked 6 [0, 0, 0, 0, 0, 0, 0, 0] 2).CanAnswer 6 8 (⟨framed 6 [0, 0, 0, 0, 0, 0, 0, 0], 0, 0, false, false⟩ : RxFrame)) ∧ ((⟨framed 6 [0, 0, 0, 0, 0, 0, 0, 0], 0, 0, false, false⟩ : RxFrame).frame.dst ≠ 0x7F)) ∧
    ((({ slotted.set (MCCTL.RUNNING.clAt 3) 1 |>.set CSYS.TRAY_STATE.cl 2 with rxq := [⟨⟨0x7F, 0, 6, 1, [64, 0, 0, 0, 0, 0, 0, 0], 0⟩, 0, 0, false, false⟩] } : State).CanAnswer 6 8 (⟨⟨0x7F, 0, 6, 1, [64, 0, 0, 0, 0, 0, 0, 0], 0⟩, 0, 0, false, false⟩ : RxFrame)) ∧ ((⟨⟨0x7F, 0, 6, 1, [64, 0, 0, 0, 0, 0, 0, 0], 0⟩, 0, 0, false, false⟩ : RxFrame).frame.dst = 0x7F) ∧ (({ slotted.set (MCCTL.RUNNING.clAt 3) 1 |>.set CSYS.TRAY_STATE.cl 2 with rxq := [⟨⟨0x7F, 0, 6, 1, [64, 0, 0, 0, 0, 0, 0, 0], 0⟩, 0, 0, false, false⟩] } : State).mgmtReady = true) ∧ ((⟨⟨0x7F, 0, 6, 1, [64, 0, 0, 0, 0, 0, 0, 0], 0⟩, 0, 0, false, false⟩ : RxFrame).endTime + 32 < frameLe (⟨⟨0x7F, 0, 6, 1, [64, 0, 0, 0, 0, 0, 0, 0], 0⟩, 0, 0, false, false⟩ : RxFrame).frame 0 8)) ∧
    ((({ slotted.set (MCCTL.RUNNING.clAt 3) 1 |>.set CSYS.TRAY_STATE.cl 2 with rxq := [⟨⟨0x7F, 0, 6, 1, [64, 0, 0, 0, 0, 0, 0, 0], 0⟩, 100, 0, false, false⟩] } : State).CanAnswer 6 8 (⟨⟨0x7F, 0, 6, 1, [64, 0, 0, 0, 0, 0, 0, 0], 0⟩, 100, 0, false, false⟩ : RxFrame)) ∧ ((⟨⟨0x7F, 0, 6, 1, [64, 0, 0, 0, 0, 0, 0, 0], 0⟩, 100, 0, false, false⟩ : RxFrame).frame.dst = 0x7F) ∧ (({ slotted.set (MCCTL.RUNNING.clAt 3) 1 |>.set CSYS.TRAY_STATE.cl 2 with rxq := [⟨⟨0x7F, 0, 6, 1, [64, 0, 0, 0, 0, 0, 0, 0], 0⟩, 100, 0, false, false⟩] } : State).mgmtReady = true) ∧ (frameLe (⟨⟨0x7F, 0, 6, 1, [64, 0, 0, 0, 0, 0, 0, 0], 0⟩, 100, 0, false, false⟩ : RxFrame).frame 0 8 + 32 < (⟨⟨0x7F, 0, 6, 1, [64, 0, 0, 0, 0, 0, 0, 0], 0⟩, 100, 0, false, false⟩ : RxFrame).endTime)) ∧
    ((({ slotted.set (MCCTL.RUNNING.clAt 3) 1 |>.set CSYS.TRAY_STATE.cl 2 with rxq := [⟨⟨0x7F, 0, 6, 1, [32, 0, 0, 0, 0, 0, 0, 0], 0⟩, 0, 0, false, false⟩] } : State).CanAnswer 6 8 (⟨⟨0x7F, 0, 6, 1, [32, 0, 0, 0, 0, 0, 0, 0], 0⟩, 0, 0, false, false⟩ : RxFrame)) ∧ ((⟨⟨0x7F, 0, 6, 1, [32, 0, 0, 0, 0, 0, 0, 0], 0⟩, 0, 0, false, false⟩ : RxFrame).frame.dst = 0x7F) ∧ (({ slotted.set (MCCTL.RUNNING.clAt 3) 1 |>.set CSYS.TRAY_STATE.cl 2 with rxq := [⟨⟨0x7F, 0, 6, 1, [32, 0, 0, 0, 0, 0, 0, 0], 0⟩, 0, 0, false, false⟩] } : State).mgmtReady = true) ∧ (frameLe (⟨⟨0x7F, 0, 6, 1, [32, 0, 0, 0, 0, 0, 0, 0], 0⟩, 0, 0, false, false⟩ : RxFrame).frame 0 8 ≤ (⟨⟨0x7F, 0, 6, 1, [32, 0, 0, 0, 0, 0, 0, 0], 0⟩, 0, 0, false, false⟩ : RxFrame).endTime + 32) ∧ ((⟨⟨0x7F, 0, 6, 1, [32, 0, 0, 0, 0, 0, 0, 0], 0⟩, 0, 0, false, false⟩ : RxFrame).endTime ≤ frameLe (⟨⟨0x7F, 0, 6, 1, [32, 0, 0, 0, 0, 0, 0, 0], 0⟩, 0, 0, false, false⟩ : RxFrame).frame 0 8 + 32)) ∧
    ((({ slotted.set (MCCTL.RUNNING.clAt 3) 1 |>.set CSYS.TRAY_STATE.cl 1 with rxq := [⟨⟨0x7F, 0, 6, 1, [64, 0, 0, 0, 0, 0, 0, 0], 0⟩, 0, 0, false, false⟩] } : State).CanAnswer 6 8 (⟨⟨0x7F, 0, 6, 1, [64, 0, 0, 0, 0, 0, 0, 0], 0⟩, 0, 0, false, false⟩ : RxFrame)) ∧ ((⟨⟨0x7F, 0, 6, 1, [64, 0, 0, 0, 0, 0, 0, 0], 0⟩, 0, 0, false, false⟩ : RxFrame).frame.dst = 0x7F) ∧ (({ slotted.set (MCCTL.RUNNING.clAt 3) 1 |>.set CSYS.TRAY_STATE.cl 1 with rxq := [⟨⟨0x7F, 0, 6, 1, [64, 0, 0, 0, 0, 0, 0, 0], 0⟩, 0, 0, false, false⟩] } : State).mgmtReady = false)) ∧
    ((slotted.CanReceive (framed 7 [])) ∧ ((framed 7 []).type.toNat = 7)) ∧
    (((((asked 7 [1, 0, 0, 0, 0, 0, 0, 0, 7, 0, 0, 0, 0, 0, 0, 0] 2).set TRAYID.TRAY_ID_LO.cl 7).set TRAYID.TRAY_ID_HI.cl 0).CanAnswer 7 16 (⟨framed 7 [1, 0, 0, 0, 0, 0, 0, 0, 7, 0, 0, 0, 0, 0, 0, 0], 0, 0, false, false⟩ : RxFrame)) ∧ ((((asked 7 [1, 0, 0, 0, 0, 0, 0, 0, 7, 0, 0, 0, 0, 0, 0, 0] 2).set TRAYID.TRAY_ID_LO.cl 7).set TRAYID.TRAY_ID_HI.cl 0).get CSYS.TRAY_STATE.cl = 2) ∧ (frameLe (⟨framed 7 [1, 0, 0, 0, 0, 0, 0, 0, 7, 0, 0, 0, 0, 0, 0, 0], 0, 0, false, false⟩ : RxFrame).frame 8 8 = (((asked 7 [1, 0, 0, 0, 0, 0, 0, 0, 7, 0, 0, 0, 0, 0, 0, 0] 2).set TRAYID.TRAY_ID_LO.cl 7).set TRAYID.TRAY_ID_HI.cl 0).pair TRAYID.TRAY_ID_LO.cl TRAYID.TRAY_ID_HI.cl) ∧ ((((asked 7 [1, 0, 0, 0, 0, 0, 0, 0, 7, 0, 0, 0, 0, 0, 0, 0] 2).set TRAYID.TRAY_ID_LO.cl 7).set TRAYID.TRAY_ID_HI.cl 0).is TRAYID.TAG_SET.cl = false) ∧ (frameLe (⟨framed 7 [1, 0, 0, 0, 0, 0, 0, 0, 7, 0, 0, 0, 0, 0, 0, 0], 0, 0, false, false⟩ : RxFrame).frame 0 8 ≠ 0)) ∧
    ((((((asked 7 [1, 0, 0, 0, 0, 0, 0, 0, 7, 0, 0, 0, 0, 0, 0, 0] 2).set TRAYID.TRAY_ID_LO.cl 7).set TRAYID.TRAY_ID_HI.cl 0).set TRAYID.TAG_SET.cl 1).CanAnswer 7 16 (⟨framed 7 [1, 0, 0, 0, 0, 0, 0, 0, 7, 0, 0, 0, 0, 0, 0, 0], 0, 0, false, false⟩ : RxFrame)) ∧ (((((asked 7 [1, 0, 0, 0, 0, 0, 0, 0, 7, 0, 0, 0, 0, 0, 0, 0] 2).set TRAYID.TRAY_ID_LO.cl 7).set TRAYID.TRAY_ID_HI.cl 0).set TRAYID.TAG_SET.cl 1).get CSYS.TRAY_STATE.cl = 2) ∧ (frameLe (⟨framed 7 [1, 0, 0, 0, 0, 0, 0, 0, 7, 0, 0, 0, 0, 0, 0, 0], 0, 0, false, false⟩ : RxFrame).frame 8 8 = ((((asked 7 [1, 0, 0, 0, 0, 0, 0, 0, 7, 0, 0, 0, 0, 0, 0, 0] 2).set TRAYID.TRAY_ID_LO.cl 7).set TRAYID.TRAY_ID_HI.cl 0).set TRAYID.TAG_SET.cl 1).pair TRAYID.TRAY_ID_LO.cl TRAYID.TRAY_ID_HI.cl) ∧ (((((asked 7 [1, 0, 0, 0, 0, 0, 0, 0, 7, 0, 0, 0, 0, 0, 0, 0] 2).set TRAYID.TRAY_ID_LO.cl 7).set TRAYID.TRAY_ID_HI.cl 0).set TRAYID.TAG_SET.cl 1).is TRAYID.TAG_SET.cl = true)) ∧
    (((((asked 7 [1, 0, 0, 0, 0, 0, 0, 0, 7, 0, 0, 0, 0, 0, 0, 0] 1).set TRAYID.TRAY_ID_LO.cl 7).set TRAYID.TRAY_ID_HI.cl 0).CanAnswer 7 16 (⟨framed 7 [1, 0, 0, 0, 0, 0, 0, 0, 7, 0, 0, 0, 0, 0, 0, 0], 0, 0, false, false⟩ : RxFrame)) ∧ ((((asked 7 [1, 0, 0, 0, 0, 0, 0, 0, 7, 0, 0, 0, 0, 0, 0, 0] 1).set TRAYID.TRAY_ID_LO.cl 7).set TRAYID.TRAY_ID_HI.cl 0).get CSYS.TRAY_STATE.cl ≠ 2)) ∧
    (((((asked 7 [1, 0, 0, 0, 0, 0, 0, 0, 7, 0, 0, 0, 0, 0, 0, 0] 2).set TRAYID.TRAY_ID_LO.cl 6).set TRAYID.TRAY_ID_HI.cl 0).CanAnswer 7 16 (⟨framed 7 [1, 0, 0, 0, 0, 0, 0, 0, 7, 0, 0, 0, 0, 0, 0, 0], 0, 0, false, false⟩ : RxFrame)) ∧ ((((asked 7 [1, 0, 0, 0, 0, 0, 0, 0, 7, 0, 0, 0, 0, 0, 0, 0] 2).set TRAYID.TRAY_ID_LO.cl 6).set TRAYID.TRAY_ID_HI.cl 0).get CSYS.TRAY_STATE.cl = 2) ∧ (frameLe (⟨framed 7 [1, 0, 0, 0, 0, 0, 0, 0, 7, 0, 0, 0, 0, 0, 0, 0], 0, 0, false, false⟩ : RxFrame).frame 8 8 ≠ (((asked 7 [1, 0, 0, 0, 0, 0, 0, 0, 7, 0, 0, 0, 0, 0, 0, 0] 2).set TRAYID.TRAY_ID_LO.cl 6).set TRAYID.TRAY_ID_HI.cl 0).pair TRAYID.TRAY_ID_LO.cl TRAYID.TRAY_ID_HI.cl)) ∧
    (((((asked 7 [0, 0, 0, 0, 0, 0, 0, 0, 7, 0, 0, 0, 0, 0, 0, 0] 2).set TRAYID.TRAY_ID_LO.cl 7).set TRAYID.TRAY_ID_HI.cl 0).CanAnswer 7 16 (⟨framed 7 [0, 0, 0, 0, 0, 0, 0, 0, 7, 0, 0, 0, 0, 0, 0, 0], 0, 0, false, false⟩ : RxFrame)) ∧ ((((asked 7 [0, 0, 0, 0, 0, 0, 0, 0, 7, 0, 0, 0, 0, 0, 0, 0] 2).set TRAYID.TRAY_ID_LO.cl 7).set TRAYID.TRAY_ID_HI.cl 0).get CSYS.TRAY_STATE.cl = 2) ∧ (frameLe (⟨framed 7 [0, 0, 0, 0, 0, 0, 0, 0, 7, 0, 0, 0, 0, 0, 0, 0], 0, 0, false, false⟩ : RxFrame).frame 8 8 = (((asked 7 [0, 0, 0, 0, 0, 0, 0, 0, 7, 0, 0, 0, 0, 0, 0, 0] 2).set TRAYID.TRAY_ID_LO.cl 7).set TRAYID.TRAY_ID_HI.cl 0).pair TRAYID.TRAY_ID_LO.cl TRAYID.TRAY_ID_HI.cl) ∧ ((((asked 7 [0, 0, 0, 0, 0, 0, 0, 0, 7, 0, 0, 0, 0, 0, 0, 0] 2).set TRAYID.TRAY_ID_LO.cl 7).set TRAYID.TRAY_ID_HI.cl 0).is TRAYID.TAG_SET.cl = false) ∧ (frameLe (⟨framed 7 [0, 0, 0, 0, 0, 0, 0, 0, 7, 0, 0, 0, 0, 0, 0, 0], 0, 0, false, false⟩ : RxFrame).frame 0 8 = 0)) ∧
    (((slotted.set TRAYID.TRAY_ID_LO.cl 7).CanReceive (framed 8 [7, 0, 0, 0])) ∧ ((framed 8 [7, 0, 0, 0]).type.toNat = 8) ∧ ((slotted.set TRAYID.TRAY_ID_LO.cl 7).validFrame.guard (framed 8 [7, 0, 0, 0]) = true)) ∧
    (((slotted.set TRAYID.TRAY_ID_LO.cl 7).CanReceive (framed 8 [6, 0, 0, 0])) ∧ ((framed 8 [6, 0, 0, 0]).type.toNat = 8) ∧ ((slotted.set TRAYID.TRAY_ID_LO.cl 7).validFrame.guard (framed 8 [6, 0, 0, 0]) = false)) ∧
    (((slotted.set TRAYID.TRAY_ID_LO.cl 7).CanReceive (framed 9 [7, 0, 0, 0])) ∧ ((framed 9 [7, 0, 0, 0]).type.toNat = 9) ∧ ((slotted.set TRAYID.TRAY_ID_LO.cl 7).validFrame.guard (framed 9 [7, 0, 0, 0]) = true)) ∧
    (((slotted.set TRAYID.TRAY_ID_LO.cl 7).CanReceive ((framed 9 [6, 0, 0, 0]) : Frame)) ∧ (((framed 9 [6, 0, 0, 0]) : Frame).type.toNat = 9) ∧ ((slotted.set TRAYID.TRAY_ID_LO.cl 7).validFrame.guard ((framed 9 [6, 0, 0, 0]) : Frame) = false)) :=
  by and_intros <;> decide +kernel

theorem test_hypotheses_of_TheLineTheCalendarAndTrustFollowTheirRules :
    ((({ asked 2 [] 2 with clock := 1000 } : State).rxq.findIdx? (fun y => !y.late && decide (y.arrived + 1000 ≤ ({ asked 2 [] 2 with clock := 1000 } : State).clock)) = some (0 : Nat)) ∧ (({ asked 2 [] 2 with clock := 1000 } : State).rxq[(0 : Nat)]? = some (⟨framed 2 [], 0, 0, false, false⟩ : RxFrame))) ∧
    (up.rxq.findIdx? (fun y => !y.late && decide (y.arrived + 1000 ≤ up.clock)) = none) ∧
    (up.Reaches clachasel SUPV.page SUPV.TX_COMMIT 0 (4 : Requester)) ∧
    (up.Reaches clachasel SUPV.page SUPV.RX_POP 0 (4 : Requester)) ∧
    ((up.set SUPVI.SENDING.cl 1).is SUPVI.SENDING.cl = true) ∧
    ((up.is SUPVI.SENDING.cl = false)) ∧
    ((({ up.set POWI.SILENCE_SINCE.cl 1 with clock := 2000000 } : State).get RECI.RUNS.cl ≠ 0) ∧ (({ up.set POWI.SILENCE_SINCE.cl 1 with clock := 2000000 } : State).is SUPV.SILENT.cl = false) ∧ (({ up.set POWI.SILENCE_SINCE.cl 1 with clock := 2000000 } : State).heldFor POWI.SILENCE_SINCE.cl 2000000 = true)) ∧
    ((up.is SUPV.SILENT.cl = true ∨ up.heldFor POWI.SILENCE_SINCE.cl 2000000 = false)) ∧
    (up.get CAL.SLEW.cl = 0) ∧
    ((((up.set CAL.SLEW.cl 1).set SUPVI.SLEW_PHASE.cl 31).get CAL.SLEW.cl ≠ 0) ∧ (((up.set CAL.SLEW.cl 1).set SUPVI.SLEW_PHASE.cl 31).get SUPVI.SLEW_PHASE.cl = 31)) ∧
    (((up.set CAL.SLEW.cl 1).get CAL.SLEW.cl ≠ 0) ∧ ((up.set CAL.SLEW.cl 1).get SUPVI.SLEW_PHASE.cl ≠ 31)) ∧
    ((up.Reaches clachasel CAL.page CAL.TIME_HI 0 (1 : Requester)) ∧ (up.trayTime ≤ (9 : BitVec 64).toNat)) ∧
    (((up.set CAL.TIME_LO.cl 9).Reaches clachasel CAL.page CAL.TIME_HI 0 (1 : Requester)) ∧ ((8 : BitVec 64).toNat < (up.set CAL.TIME_LO.cl 9).trayTime)) ∧
    (up.Reaches clachasel CAL.page CAL.SLEW 0 (4 : Requester)) ∧
    ((3000 : BitVec 16).toNat ≤ 3000) ∧
    (3100 < (3101 : BitVec 16).toNat) ∧
    ((3000 < (3100 : BitVec 16).toNat) ∧ ((3100 : BitVec 16).toNat ≤ 3100)) ∧
    (((2199 : BitVec 16).toNat < 2200) ∧ (up.is CAL.BAT_LOW.cl = false)) ∧
    (2300 < (2301 : BitVec 16).toNat) ∧
    (((2300 : BitVec 16).toNat ≤ 2300) ∧ (2200 ≤ (2300 : BitVec 16).toNat ∨ up.is CAL.BAT_LOW.cl = true)) ∧
    ((up.Reaches clachasel TRAYID.page TRAYID.REVOKE (0 : Fin 4).val (1 : Requester)) ∧ ((0 : Fin 4).val = up.get TRAYID.KEY_IN_FORCE.cl)) ∧
    ((({ up with spent := [fuseKey (TRAYID.REVOKE.clAt 1)] } : State).inReset clachasel = false) ∧ (({ up with spent := [fuseKey (TRAYID.REVOKE.clAt 1)] } : State).resetting clachasel TRAYID.page 0 = false) ∧ (({ up with spent := [fuseKey (TRAYID.REVOKE.clAt 1)] } : State).spent.contains (fuseKey (TRAYID.REVOKE.clAt (1 : Fin 4).val)) = true)) ∧
    ((up.Reaches clachasel TRAYID.page TRAYID.REVOKE (1 : Fin 4).val (1 : Requester)) ∧ ((1 : Fin 4).val ≠ up.get TRAYID.KEY_IN_FORCE.cl)) ∧
    ((up.Reaches clachasel TRAYID.page TRAYID.REVOKE (1 : Fin 4).val (1 : Requester)) ∧ ((1 : Fin 4).val ≠ up.get TRAYID.KEY_IN_FORCE.cl)) :=
  by and_intros <;> decide +kernel

theorem test_hypotheses_of_RegistersAreWrittenAndReadByWord :
    ((up.inReset (0 : Fin 9).val = true)) ∧
    ((up.inReset (8 : Fin 9).val = false) ∧ (pageAt (8 : Fin 9).val ((0x50000 : BitVec 24).toNat / 4 * 4) = none)) ∧
    ((up.inReset (8 : Fin 9).val = false) ∧ (pageAt (8 : Fin 9).val ((0 : BitVec 24).toNat / 4 * 4) = some ((CSYS.page : Page), (0 : Nat))) ∧ (up.unserved (8 : Fin 9).val (CSYS.page : Page) = false) ∧ ((1 : BitVec 4) ≠ 0xF)) ∧
    ((up.inReset (8 : Fin 9).val = false) ∧ (pageAt (8 : Fin 9).val ((0 : BitVec 24).toNat / 4 * 4) = some ((CSYS.page : Page), (0 : Nat))) ∧ (up.unserved (8 : Fin 9).val (CSYS.page : Page) = false) ∧ ((0 : BitVec 24).toNat / 4 * 4 - (CSYS.page : Page).at (0 : Nat) < 0x40)) ∧
    ((up.inReset (8 : Fin 9).val = false) ∧ (pageAt (8 : Fin 9).val (((BitVec.ofNat 24 (HLS.FENCE_TO.offset 0)) : BitVec 24).toNat / 4 * 4) = some ((HLS.page : Page), (0 : Nat))) ∧ (up.unserved (8 : Fin 9).val (HLS.page : Page) = false) ∧ (0x40 ≤ ((BitVec.ofNat 24 (HLS.FENCE_TO.offset 0)) : BitVec 24).toNat / 4 * 4 - (HLS.page : Page).at (0 : Nat)) ∧ (up.resetting (8 : Fin 9).val (HLS.page : Page) (0 : Nat) = false) ∧ (fieldsAt (HLS.page : Page) (((BitVec.ofNat 24 (HLS.FENCE_TO.offset 0)) : BitVec 24).toNat / 4 * 4) ≠ []) ∧ (lowPairAt (8 : Fin 9).val (((BitVec.ofNat 24 (HLS.FENCE_TO.offset 0)) : BitVec 24).toNat / 4 * 4) = none) ∧ (highPairAt (8 : Fin 9).val (((BitVec.ofNat 24 (HLS.FENCE_TO.offset 0)) : BitVec 24).toNat / 4 * 4) = none)) ∧
    ((up.inReset (8 : Fin 9).val = false) ∧ (pageAt (8 : Fin 9).val ((0x7C : BitVec 24).toNat / 4 * 4) = some ((CSYS.page : Page), (0 : Nat))) ∧ (up.unserved (8 : Fin 9).val (CSYS.page : Page) = false) ∧ (0x40 ≤ (0x7C : BitVec 24).toNat / 4 * 4 - (CSYS.page : Page).at (0 : Nat)) ∧ (up.resetting (8 : Fin 9).val (CSYS.page : Page) (0 : Nat) = true ∨ fieldsAt (CSYS.page : Page) ((0x7C : BitVec 24).toNat / 4 * 4) = [])) ∧
    ((up.inReset (8 : Fin 9).val = false) ∧ (pageAt (8 : Fin 9).val (((BitVec.ofNat 24 (CAL.SLEW.offset 0)) : BitVec 24).toNat / 4 * 4) = some ((CAL.page : Page), (0 : Nat))) ∧ (up.unserved (8 : Fin 9).val (CAL.page : Page) = false) ∧ (0x40 ≤ ((BitVec.ofNat 24 (CAL.SLEW.offset 0)) : BitVec 24).toNat / 4 * 4 - (CAL.page : Page).at (0 : Nat)) ∧ (up.resetting (8 : Fin 9).val (CAL.page : Page) (0 : Nat) = false) ∧ ((fieldsAt (CAL.page : Page) (((BitVec.ofNat 24 (CAL.SLEW.offset 0)) : BitVec 24).toNat / 4 * 4)).any (fun x => x.1.among hwUpdated && (up.barOf (8 : Fin 9).val (CAL.page : Page) (0 : Nat) x.1 x.2 (4 : Requester).val (bitsOf (0 : BitVec 32).toNat x.1.lo x.1.width)).isNone) = true)) ∧
    (((8 : BitVec 24).toNat % 8 = 0)) ∧
    ((up.inReset (8 : Fin 9).val = false) ∧ (reservedRange (8 : Fin 9).val ((0x50000 : BitVec 24).toNat / 4 * 4) = true)) ∧
    ((up.inReset (8 : Fin 9).val = false) ∧ (reservedRange (8 : Fin 9).val ((0x50000 : BitVec 24).toNat / 4 * 4) = true)) ∧
    ((up.inReset (0 : Fin 9).val = true)) ∧
    ((up.inReset (8 : Fin 9).val = false) ∧ (reservedRange (8 : Fin 9).val ((0 : BitVec 24).toNat / 4 * 4) = false) ∧ (lowPairAt (8 : Fin 9).val ((0 : BitVec 24).toNat / 4 * 4) = none) ∧ (highPairAt (8 : Fin 9).val ((0 : BitVec 24).toNat / 4 * 4) = none)) ∧
    ((up.inReset (8 : Fin 9).val = false) ∧ (reservedRange (8 : Fin 9).val ((0x50000 : BitVec 24).toNat / 4 * 4) = true)) ∧
    ((up.inReset (8 : Fin 9).val = false) ∧ (reservedRange (8 : Fin 9).val (((BitVec.ofNat 24 (CAL.TIME_LO.offset 0)) : BitVec 24).toNat / 4 * 4) = false) ∧ (lowPairAt (8 : Fin 9).val (((BitVec.ofNat 24 (CAL.TIME_LO.offset 0)) : BitVec 24).toNat / 4 * 4) = some ((CAL.TIME_LO : Reg), (CAL.TIME_HI : Reg), (0 : Nat)))) ∧
    ((({ up with capture := [((CAL.TIME_LO.at 8 0).key, 1, 77)] } : State).inReset (8 : Fin 9).val = false) ∧ (reservedRange (8 : Fin 9).val (((BitVec.ofNat 24 (CAL.TIME_HI.offset 0)) : BitVec 24).toNat / 4 * 4) = false) ∧ (lowPairAt (8 : Fin 9).val (((BitVec.ofNat 24 (CAL.TIME_HI.offset 0)) : BitVec 24).toNat / 4 * 4) = none) ∧ (highPairAt (8 : Fin 9).val (((BitVec.ofNat 24 (CAL.TIME_HI.offset 0)) : BitVec 24).toNat / 4 * 4) = some ((CAL.TIME_LO : Reg), (CAL.TIME_HI : Reg), (0 : Nat))) ∧ (pairEntry ({ up with capture := [((CAL.TIME_LO.at 8 0).key, 1, 77)] } : State).capture ((CAL.TIME_LO : Reg).at (8 : Fin 9).val (0 : Nat)).key (1 : Requester).val = some (77 : Nat))) ∧
    ((up.inReset (8 : Fin 9).val = false) ∧ (reservedRange (8 : Fin 9).val (((BitVec.ofNat 24 (CAL.TIME_HI.offset 0)) : BitVec 24).toNat / 4 * 4) = false) ∧ (lowPairAt (8 : Fin 9).val (((BitVec.ofNat 24 (CAL.TIME_HI.offset 0)) : BitVec 24).toNat / 4 * 4) = none) ∧ (highPairAt (8 : Fin 9).val (((BitVec.ofNat 24 (CAL.TIME_HI.offset 0)) : BitVec 24).toNat / 4 * 4) = some ((CAL.TIME_LO : Reg), (CAL.TIME_HI : Reg), (0 : Nat))) ∧ (pairEntry up.capture ((CAL.TIME_LO : Reg).at (8 : Fin 9).val (0 : Nat)).key (1 : Requester).val = none)) ∧
    (((8 : BitVec 24).toNat % 8 = 0)) ∧
    ((up.inReset (8 : Fin 9).val = false) ∧ (lowPairAt (8 : Fin 9).val ((BitVec.ofNat 24 (CAL.TIME_LO.offset 0)).toNat / 4 * 4) = some (CAL.TIME_LO, CAL.TIME_HI, (0 : Nat))) ∧ (pageAt (8 : Fin 9).val ((BitVec.ofNat 24 (CAL.TIME_LO.offset 0)).toNat / 4 * 4) = some (CAL.page, (0 : Nat))) ∧ (up.unserved (8 : Fin 9).val CAL.page = false) ∧ (CAL.TIME_LO.kind ≠ .ro) ∧ (up.resetting (8 : Fin 9).val CAL.page (0 : Nat) = false) ∧ (CAL.TIME_LO.accepts (0 : Nat) (1 : Requester).val = true)) ∧
    ((up.inReset (8 : Fin 9).val = false) ∧ (lowPairAt (8 : Fin 9).val (((BitVec.ofNat 24 (CAL.TIME_LO.offset 0)) : BitVec 24).toNat / 4 * 4) = some ((CAL.TIME_LO : Reg), (CAL.TIME_HI : Reg), (0 : Nat))) ∧ (pageAt (8 : Fin 9).val (((BitVec.ofNat 24 (CAL.TIME_LO.offset 0)) : BitVec 24).toNat / 4 * 4) = some ((CAL.page : Page), (0 : Nat))) ∧ (up.unserved (8 : Fin 9).val (CAL.page : Page) = false) ∧ (up.resetting (8 : Fin 9).val (CAL.page : Page) (0 : Nat) = true ∨ ((CAL.TIME_LO : Reg).kind ≠ .ro ∧ (CAL.TIME_LO : Reg).accepts (0 : Nat) (100 : Requester).val = false))) ∧
    ((up.inReset (8 : Fin 9).val = false) ∧ (lowPairAt (8 : Fin 9).val (((BitVec.ofNat 24 (BLOAD.BUNDLE_ID_LO.offset 0)) : BitVec 24).toNat / 4 * 4) = some ((BLOAD.BUNDLE_ID_LO : Reg), (BLOAD.BUNDLE_ID_HI : Reg), (0 : Nat))) ∧ (pageAt (8 : Fin 9).val (((BitVec.ofNat 24 (BLOAD.BUNDLE_ID_LO.offset 0)) : BitVec 24).toNat / 4 * 4) = some ((BLOAD.page : Page), (0 : Nat))) ∧ (up.unserved (8 : Fin 9).val (BLOAD.page : Page) = false) ∧ (up.resetting (8 : Fin 9).val (BLOAD.page : Page) (0 : Nat) = false) ∧ ((BLOAD.BUNDLE_ID_LO : Reg).kind = .ro)) ∧
    ((up.inReset (8 : Fin 9).val = false) ∧ (highPairAt (8 : Fin 9).val (((BitVec.ofNat 24 (CAL.TIME_HI.offset 0)) : BitVec 24).toNat / 4 * 4) = some ((CAL.TIME_LO : Reg), (CAL.TIME_HI : Reg), (0 : Nat))) ∧ (pageAt (8 : Fin 9).val (((BitVec.ofNat 24 (CAL.TIME_HI.offset 0)) : BitVec 24).toNat / 4 * 4) = some ((CAL.page : Page), (0 : Nat))) ∧ (up.unserved (8 : Fin 9).val (CAL.page : Page) = false) ∧ (up.resetting (8 : Fin 9).val (CAL.page : Page) (0 : Nat) = false) ∧ ((CAL.TIME_LO : Reg).kind ≠ .ro) ∧ (pairEntry up.staging ((CAL.TIME_LO : Reg).at (8 : Fin 9).val (0 : Nat)).key (1 : Requester).val = none)) ∧
    (((up.set (hdr HDR.RESETTING 8 (CAL.page.at 0)) 1).inReset (8 : Fin 9).val = false) ∧ (highPairAt (8 : Fin 9).val (((BitVec.ofNat 24 (CAL.TIME_HI.offset 0)) : BitVec 24).toNat / 4 * 4) = some ((CAL.TIME_LO : Reg), (CAL.TIME_HI : Reg), (0 : Nat))) ∧ (pageAt (8 : Fin 9).val (((BitVec.ofNat 24 (CAL.TIME_HI.offset 0)) : BitVec 24).toNat / 4 * 4) = some ((CAL.page : Page), (0 : Nat))) ∧ ((up.set (hdr HDR.RESETTING 8 (CAL.page.at 0)) 1).unserved (8 : Fin 9).val (CAL.page : Page) = false) ∧ ((up.set (hdr HDR.RESETTING 8 (CAL.page.at 0)) 1).resetting (8 : Fin 9).val (CAL.page : Page) (0 : Nat) = true)) ∧
    ((({ up with staging := [((CAL.TIME_LO.at 8 0).key, 1, 77)] } : State).inReset (8 : Fin 9).val = false) ∧ (highPairAt (8 : Fin 9).val (((BitVec.ofNat 24 (CAL.TIME_HI.offset 0)) : BitVec 24).toNat / 4 * 4) = some ((CAL.TIME_LO : Reg), (CAL.TIME_HI : Reg), (0 : Nat))) ∧ (pageAt (8 : Fin 9).val (((BitVec.ofNat 24 (CAL.TIME_HI.offset 0)) : BitVec 24).toNat / 4 * 4) = some ((CAL.page : Page), (0 : Nat))) ∧ (({ up with staging := [((CAL.TIME_LO.at 8 0).key, 1, 77)] } : State).unserved (8 : Fin 9).val (CAL.page : Page) = false) ∧ ((CAL.TIME_LO : Reg).kind ≠ .ro) ∧ (pairEntry ({ up with staging := [((CAL.TIME_LO.at 8 0).key, 1, 77)] } : State).staging ((CAL.TIME_LO : Reg).at (8 : Fin 9).val (0 : Nat)).key (1 : Requester).val = some (77 : Nat)) ∧ (({ up with staging := [((CAL.TIME_LO.at 8 0).key, 1, 77)] } : State).resetting (8 : Fin 9).val (CAL.page : Page) (0 : Nat) = false) ∧ (({ up with staging := [((CAL.TIME_LO.at 8 0).key, 1, 77)] } : State).barOf (8 : Fin 9).val (CAL.page : Page) (0 : Nat) (CAL.TIME_LO : Reg) (0 : Nat) (1 : Requester).val (77 : Nat) = none)) ∧
    ((({ up with staging := [((CAL.TIME_LO.at 8 0).key, 100, 77)] } : State).inReset (8 : Fin 9).val = false) ∧ (highPairAt (8 : Fin 9).val (((BitVec.ofNat 24 (CAL.TIME_HI.offset 0)) : BitVec 24).toNat / 4 * 4) = some ((CAL.TIME_LO : Reg), (CAL.TIME_HI : Reg), (0 : Nat))) ∧ (pageAt (8 : Fin 9).val (((BitVec.ofNat 24 (CAL.TIME_HI.offset 0)) : BitVec 24).toNat / 4 * 4) = some ((CAL.page : Page), (0 : Nat))) ∧ (({ up with staging := [((CAL.TIME_LO.at 8 0).key, 100, 77)] } : State).unserved (8 : Fin 9).val (CAL.page : Page) = false) ∧ ((CAL.TIME_LO : Reg).kind ≠ .ro) ∧ (pairEntry ({ up with staging := [((CAL.TIME_LO.at 8 0).key, 100, 77)] } : State).staging ((CAL.TIME_LO : Reg).at (8 : Fin 9).val (0 : Nat)).key (100 : Requester).val = some (77 : Nat)) ∧ (({ up with staging := [((CAL.TIME_LO.at 8 0).key, 100, 77)] } : State).resetting (8 : Fin 9).val (CAL.page : Page) (0 : Nat) = false) ∧ (({ up with staging := [((CAL.TIME_LO.at 8 0).key, 100, 77)] } : State).barOf (8 : Fin 9).val (CAL.page : Page) (0 : Nat) (CAL.TIME_LO : Reg) (0 : Nat) (100 : Requester).val (77 : Nat) = some (FaultBit.accessErr : FaultBit))) :=
  by and_intros <;> decide +kernel

theorem test_hypotheses_of_PagesAreLockedResetAndCommitted :
    ((up.inReset (8 : Fin 9).val = false) ∧ (pageAt (8 : Fin 9).val (4096 * (Fin.ofNat 4096 (HLS.page.base / 4096)).val + 0x18) = some (HLS.page, (0 : Nat))) ∧ (up.unserved (8 : Fin 9).val HLS.page = false) ∧ ((8 : Fin 9).val = 8) ∧ (HLS.page.base ≠ MCCTL.page.base)) ∧
    ((up.inReset (8 : Fin 9).val = false) ∧ (pageAt (8 : Fin 9).val (4096 * (Fin.ofNat 4096 (MCCTL.page.base / 4096)).val + 0x18) = some (MCCTL.page, (0 : Nat))) ∧ (up.unserved (8 : Fin 9).val MCCTL.page = false) ∧ ((8 : Fin 9).val = 8) ∧ (MCCTL.page.base = MCCTL.page.base) ∧ ((1 : Requester).val ≠ 1 ∨ up.get CSYS.CORE_READY.cl ≠ 0xF)) ∧
    ((on.inReset (0 : Fin 9).val = false) ∧ (pageAt (0 : Fin 9).val (4096 * ((Fin.ofNat 4096 (WCORE.page.base / 4096)) : Fin 4096).val + 0x18) = some ((WCORE.page : Page), (0 : Nat))) ∧ (on.unserved (0 : Fin 9).val (WCORE.page : Page) = false) ∧ ((0 : Fin 9).val < 8) ∧ ((WCORE.page : Page).base ≠ WCORE.page.base ∨ (0 : Requester).val = (0 : Nat))) ∧
    ((on.inReset (0 : Fin 9).val = false) ∧ (pageAt (0 : Fin 9).val (4096 * ((Fin.ofNat 4096 (WCORE.page.base / 4096)) : Fin 4096).val + 0x18) = some ((WCORE.page : Page), (0 : Nat))) ∧ (on.unserved (0 : Fin 9).val (WCORE.page : Page) = false) ∧ ((0 : Fin 9).val < 8) ∧ ((WCORE.page : Page).base = WCORE.page.base) ∧ ((1 : Requester).val ≠ (0 : Nat))) ∧
    ((up.inReset (8 : Fin 9).val = false) ∧ (pageAt (8 : Fin 9).val (4096 * ((Fin.ofNat 4096 (HLS.page.base / 4096)) : Fin 4096).val + 8) = some ((HLS.page : Page), (0 : Nat))) ∧ (up.unserved (8 : Fin 9).val (HLS.page : Page) = false) ∧ (up.resetting (8 : Fin 9).val (HLS.page : Page) (0 : Nat) = false)) ∧
    (((up.set (hdr HDR.RESETTING 8 (HLS.page.at 0)) 1).inReset (8 : Fin 9).val = false) ∧ (pageAt (8 : Fin 9).val (4096 * (Fin.ofNat 4096 (HLS.page.base / 4096)).val + 8) = some (HLS.page, (0 : Nat))) ∧ ((up.set (hdr HDR.RESETTING 8 (HLS.page.at 0)) 1).unserved (8 : Fin 9).val HLS.page = false) ∧ ((up.set (hdr HDR.RESETTING 8 (HLS.page.at 0)) 1).resetting (8 : Fin 9).val HLS.page (0 : Nat) = true)) ∧
    ((pageAt (8 : Fin 9).val (4096 * (Fin.ofNat 4096 (HLS.page.base / 4096)).val) = some (HLS.page, (0 : Nat))) ∧ ((up.set (hdr HDR.RESETTING 8 (HLS.page.at 0)) 1).resetting (8 : Fin 9).val HLS.page (0 : Nat) = true)) ∧
    ((up.inReset (8 : Fin 9).val = false) ∧ (pageAt (8 : Fin 9).val (4096 * (Fin.ofNat 4096 (TZONE.page.base / 4096)).val + 0x20) = some (TZONE.page, (0 : Nat))) ∧ (up.unserved (8 : Fin 9).val TZONE.page = false) ∧ ((8 : Fin 9).val = 8) ∧ (up.resetting (8 : Fin 9).val TZONE.page (0 : Nat) = false) ∧ (up.is (hdr HDR.COMMIT_PENDING (8 : Fin 9).val (TZONE.page.at (0 : Nat))) = false) ∧ ((1 : BitVec 32).toNat = (up.get (hdr HDR.GEN (8 : Fin 9).val (TZONE.page.at (0 : Nat))) + 1) % 4294967296) ∧ (up.consistent (8 : Fin 9).val TZONE.page (0 : Nat) = true)) ∧
    ((up.inReset (8 : Fin 9).val = false) ∧ (pageAt (8 : Fin 9).val (4096 * (Fin.ofNat 4096 (TZONE.page.base / 4096)).val + 0x20) = some (TZONE.page, (0 : Nat))) ∧ (up.unserved (8 : Fin 9).val TZONE.page = false) ∧ ((8 : Fin 9).val = 8) ∧ (up.is (hdr HDR.COMMIT_PENDING (8 : Fin 9).val (TZONE.page.at (0 : Nat))) = true ∨ (2 : BitVec 32).toNat ≠ (up.get (hdr HDR.GEN (8 : Fin 9).val (TZONE.page.at (0 : Nat))) + 1) % 4294967296)) ∧
    (((up.setShadow (CFAN.FLOOR.clAt 0) 1023).inReset (8 : Fin 9).val = false) ∧ (pageAt (8 : Fin 9).val (4096 * (Fin.ofNat 4096 (CFAN.page.base / 4096)).val + 0x20) = some (CFAN.page, (0 : Nat))) ∧ ((up.setShadow (CFAN.FLOOR.clAt 0) 1023).unserved (8 : Fin 9).val CFAN.page = false) ∧ ((8 : Fin 9).val = 8) ∧ ((up.setShadow (CFAN.FLOOR.clAt 0) 1023).resetting (8 : Fin 9).val CFAN.page (0 : Nat) = false) ∧ ((up.setShadow (CFAN.FLOOR.clAt 0) 1023).is (hdr HDR.COMMIT_PENDING (8 : Fin 9).val (CFAN.page.at (0 : Nat))) = false) ∧ ((1 : BitVec 32).toNat = ((up.setShadow (CFAN.FLOOR.clAt 0) 1023).get (hdr HDR.GEN (8 : Fin 9).val (CFAN.page.at (0 : Nat))) + 1) % 4294967296) ∧ ((up.setShadow (CFAN.FLOOR.clAt 0) 1023).consistent (8 : Fin 9).val CFAN.page (0 : Nat) = false)) ∧
    ((pageAt (8 : Fin 9).val (4096 * (Fin.ofNat 4096 (TZONE.page.base / 4096)).val) = some (TZONE.page, (0 : Nat))) ∧ ((up.set (hdr HDR.COMMIT_PENDING 8 (TZONE.page.at 0)) 1).is (hdr HDR.COMMIT_PENDING (8 : Fin 9).val (TZONE.page.at (0 : Nat))) = true) ∧ (waitsForHinge (8 : Fin 9).val TZONE.page = false)) ∧
    ((pageAt (8 : Fin 9).val (4096 * (Fin.ofNat 4096 (TZONE.page.base / 4096)).val) = some (TZONE.page, (0 : Nat))) ∧ (up.is (hdr HDR.COMMIT_PENDING (8 : Fin 9).val (TZONE.page.at (0 : Nat))) = false)) :=
  by and_intros <;> decide +kernel

theorem test_hypotheses_of_BarredWritesAreDiscarded :
    (State.reset.inReset 0 = true) ∧ (State.reset.inReset clachasel = true) ∧
    ((up.set (hdr HDR.RESETTING 8 (SEQ.page.at 0)) 1).inReset clachasel = false ∧
      (up.set (hdr HDR.RESETTING 8 (SEQ.page.at 0)) 1).writeBar clachasel SEQ.page SEQ.MAIN_ON 0 1 = some .accessErr) ∧
    ({ up with spent := [fuseKey (TRAYID.REVOKE.clAt 1)] }.inReset clachasel = false ∧
      { up with spent := [fuseKey (TRAYID.REVOKE.clAt 1)] }.writeBar clachasel TRAYID.page TRAYID.REVOKE 1 1 = some .lockViol) ∧
    (on.inReset 0 = false ∧ on.writeBar 0 HEAP.page HEAP.W_ALLOC 0 100 = some .accessErr) ∧
    (((up.set (hdr HDR.RESETTING 8 (HLS.page.at 0)) 1).inReset clachasel = false) ∧ ((∀ k ∈ limitsOf (0 : Fin 4).val, (up.set (hdr HDR.RESETTING 8 (HLS.page.at 0)) 1).limitBar k (1 : Requester).val = some (FaultBit.accessErr : FaultBit)))) ∧
    ((State.reset.inReset clachasel = true)) :=
  by and_intros <;> decide +kernel

theorem test_hypotheses_of_HostCommandsAreRefusedInOrder :
    (up.posted.find? (fun c => c.k == 0) = none) ∧
    ({ up with posted := [⟨0, 1, 0, 0, 1⟩] }.mayServe 0 = false) ∧
    (((serving 0 1).set CAL.TIME_LO.cl 40000).mayServe 0 = true ∧ 100 * 32768 < (((serving 0 1).set CAL.TIME_LO.cl 40000).trayTime - 0) * 1000) ∧
    ((serving 0 1).mayServe 0 = true ∧ ((serving 0 1).trayTime - 0) * 1000 ≤ 100 * 32768 ∧ (7 : Nat) ≠ (serving 0 1).get POWI.CTX_NUM.cl) ∧
    ((serving 0 1).CanServe 0 ⟨0, 1, 0, 0, 1⟩ ∧
      ((serving 0 1).get CSYS.TRAY_STATE.cl == 2 && (serving 0 1).is CPUMP.FLOW_PROVEN.cl) = false) :=
  ⟨by decide, by decide, by decide, by decide, by decide⟩

theorem test_hypotheses_of_ASlotWhoseGuardIsFalseIssuesNothing :
    ((issuing (2 ^ 121 + 2 ^ 122)).GuardFalse ⟨0, 0, 0⟩ 121) ∧
    ((issuing (2 ^ 120 + 2 ^ 122)).GuardFalse ⟨0, 0, 0⟩ 120) ∧
    ((issuing (2 ^ 119 + 2 ^ 122)).GuardFalse ⟨0, 0, 0⟩ 119) ∧
    ((issuing (2 ^ 118 + 2 ^ 122)).GuardFalse ⟨0, 0, 0⟩ 118) :=
  ⟨by decide, by decide, by decide, by decide⟩

theorem test_hypotheses_of_IdlingPassesAMicrosecond :
    (State.reset.pending = []) :=
  by decide

theorem test_hypotheses_of_EveryStepKeepsTheStateWellFormed :
    (State.WellFormed { State.reset with nv := [(3, 1)], mem := [(7, 9)] } ∧
    Steps { State.reset with nv := [(3, 1)], mem := [(7, 9)] } { State.reset with nv := [(3, 1)], mem := [(7, 9)], clock := 1 }) :=
  by exact ⟨⟨⟨by simp [Rising, State.reset], by simp [Rising, State.reset], by simp [Rising], by simp [Rising, State.reset]⟩, by decide⟩, rfl⟩

theorem test_hypotheses_of_EveryWellFormedStateIsSafe :
    (State.WellFormed { State.reset with nv := [(3, 1)], mem := [(7, 9)] } ∧
    Steps { State.reset with nv := [(3, 1)], mem := [(7, 9)] } { State.reset with nv := [(3, 1)], mem := [(7, 9)], clock := 1 }) :=
  by exact ⟨⟨⟨by simp [Rising, State.reset], by simp [Rising, State.reset], by simp [Rising], by simp [Rising, State.reset]⟩, by decide⟩, rfl⟩

theorem test_hypotheses_of_SpentFusesStaySpent :
    (Runs { State.reset with spent := [fuseBase + 5] } { State.reset with spent := [fuseBase + 5], clock := 1 } ∧ State.fuseSpent { State.reset with spent := [fuseBase + 5] } (fuseBase + 5)) :=
  by exact ⟨.more _ _ _ rfl (.here _), by simp [State.fuseSpent]⟩

theorem test_hypotheses_of_NoRegisterReadHasASideEffect :
    reservedRange (8 : Fin 9).val ((0 : BitVec 24).toNat / 4 * 4) = false ∧
    ((some 15 : Option (BitVec 4)) = none ∨ reservedRange (8 : Fin 9).val ((0 : BitVec 24).toNat / 4 * 4 + 4) = false) ∧
    (0 : Nat) ≠ (1 : Requester).val ∧
    ∀ lo hi i, ∀ o ∈ [(0 : BitVec 24).toNat / 4 * 4, (0 : BitVec 24).toNat / 4 * 4 + 4],
      lowPairAt (8 : Fin 9).val o = some (lo, hi, i) ∨ highPairAt (8 : Fin 9).val o = some (lo, hi, i) → 0 ≠ (lo.at (8 : Fin 9).val i).key := by
  refine ⟨by decide, by decide, by decide, fun lo hi i o h => ?_⟩
  have none_here : ∀ o ∈ [(0 : BitVec 24).toNat / 4 * 4, (0 : BitVec 24).toNat / 4 * 4 + 4],
      lowPairAt (8 : Fin 9).val o = none ∧ highPairAt (8 : Fin 9).val o = none := by decide +kernel
  rw [(none_here o h).1, (none_here o h).2]
  rintro (x | x) <;> cases x

theorem test_hypotheses_of_BayAccessBeyondTheLastLineIsNotPerformed :
    (((issuing 302231454903657293676544).setTum 0 0 { scal := [(0, 24576)] }).CanIssue ⟨0, 0, 0⟩ .bay { scal := [(0, 24576)], slots := 2 } 302231454903657293676544 ∧ bop 302231454903657293676544 = 1 ∧
    24576 ≤ bayLine { scal := [(0, 24576)], slots := 2 } 302231454903657293676544) ∧
    (((issuing 906694364710971881029632).setTum 0 0 { scal := [(0, 24576)] }).CanIssue ⟨0, 0, 0⟩ .bay { scal := [(0, 24576)], slots := 2 } 906694364710971881029632 ∧ bop 906694364710971881029632 = 3 ∧
    24576 ≤ bayLine { scal := [(0, 24576)], slots := 2 } 906694364710971881029632) ∧
    (((issuing 604462909807314587353088).setTum 0 0 { scal := [(0, 24576)] }).CanIssue ⟨0, 0, 0⟩ .bay { scal := [(0, 24576)], slots := 2 } 604462909807314587353088 ∧ bop 604462909807314587353088 = 2 ∧
    24576 ≤ bayLine { scal := [(0, 24576)], slots := 2 } 604462909807314587353088) ∧
    (((issuing 1208925819614629174706176).setTum 0 0 { scal := [(0, 24576)] }).CanIssue ⟨0, 0, 0⟩ .bay { scal := [(0, 24576)], slots := 2 } 1208925819614629174706176 ∧ bop 1208925819614629174706176 = 4 ∧
    24576 ≤ bayLine { scal := [(0, 24576)], slots := 2 } 1208925819614629174706176) :=
  ⟨by decide, by decide, by decide, by decide⟩

theorem test_hypotheses_of_CurveDemandInterpolates :
    ((curved 0).s16 (CDEM.T.clAt 0) < (curved 0).s16 (CDEM.T.clAt 1) ∧ (curved 0).s16 (CDEM.T.clAt 1) < (curved 0).s16 (CDEM.T.clAt 2) ∧
    (curved 0).s16 (CDEM.T.clAt 2) < (curved 0).s16 (CDEM.T.clAt 3) ∧ (curved 0).s16 (TZONE.T_Z.clAt 0) ≤ (curved 0).s16 (CDEM.T.clAt 0)) ∧
    ((curved 48).s16 (CDEM.T.clAt 0) < (curved 48).s16 (CDEM.T.clAt 1) ∧ (curved 48).s16 (CDEM.T.clAt 1) < (curved 48).s16 (CDEM.T.clAt 2) ∧
    (curved 48).s16 (CDEM.T.clAt 2) < (curved 48).s16 (CDEM.T.clAt 3) ∧ (curved 48).s16 (CDEM.T.clAt 3) ≤ (curved 48).s16 (TZONE.T_Z.clAt 0)) ∧
    ((curved 16).s16 (CDEM.T.clAt 0) < (curved 16).s16 (CDEM.T.clAt 1) ∧ (curved 16).s16 (CDEM.T.clAt 1) < (curved 16).s16 (CDEM.T.clAt 2) ∧
    (curved 16).s16 (CDEM.T.clAt 2) < (curved 16).s16 (CDEM.T.clAt 3) ∧ (curved 16).s16 (CDEM.T.clAt 1) ≤ (curved 16).s16 (TZONE.T_Z.clAt 0) ∧ (curved 16).s16 (TZONE.T_Z.clAt 0) ≤ (curved 16).s16 (CDEM.T.clAt 2)) :=
  ⟨by decide, by decide, by decide⟩

theorem test_hypotheses_of_AMemoryWriteStoresItsBytesAndNoOthers :
    (on.inReset 0 = false ∧ on.permitted 0 (agentKind .training) true 0 2 = true) :=
  by decide

theorem test_hypotheses_of_AResultIsReadAfterItsLatencyAndNotBefore :
    (({} : Tum).writes = []) :=
  by decide

theorem test_hypotheses_of_ACodewordSentIsReadAsItWasLaid :
    ((5 : Nat) < 2 ^ 58) ∧ ((List.replicate 17 ((1024, 7) : Nat × Nat)).length = 17) ∧
    (∀ w ∈ List.replicate 17 ((1024, 7) : Nat × Nat), w.1 < 65536 ∧ w.2 < 2 ^ 256) ∧
    (({ linkDown := true, msg := some .identOk } : Ccb).form < 2 ^ 480) :=
  by and_intros <;> decide +kernel

end Sys2Proof.Tests
end

section
/-! SUPPORT. Proofs of spec/00_scope.md: what a step can do, the one form of the tables and of memory along every run, and bytes
stored in deep memory. -/

namespace Sys2Proof.Machine

/-! Steps and runs. -/

/-- On an empty queue a step idles for a microsecond (log entry 5). -/
theorem step_of_pending_nil {s : State} (h : s.pending = []) : step s = .next { s with clock := s.clock + 1 } := by
  unfold step; rw [h]

/-- With a command in front of the queue, a step runs it on the state with the rest of the queue. -/
theorem step_of_pending_cons {s : State} {c : Instr} {rest : List Instr} (h : s.pending = c :: rest) :
    step s = exec c { s with pending := rest } := by
  unfold step; rw [h]

/-- What keeps the tables and memory in their one form keeps a well-formed state well formed. -/
theorem State.WellFormed.of_keeps {s t : State} (h : s.WellFormed) (k : Keeps s t) : t.WellFormed :=
  ⟨k.tables h.tables, k.mem h.mem⟩

/-- Neither the queue nor the clock has a part in whether a state is well formed. -/
theorem State.WellFormed.with_pending_clock {s : State} (h : s.WellFormed) (q : List Instr) (n : Nat) :
    State.WellFormed { s with pending := q, clock := n } :=
  ⟨⟨h.tables.regs, h.tables.shadow, h.tables.nv, h.tables.dies⟩, h.mem⟩

/-- Every step of a well-formed state, idling or running a command, answers a next state, and a well-formed one. -/
theorem step_next_wellFormed {s : State} (h : s.WellFormed) : ∃ t, step s = .next t ∧ t.WellFormed := by
  cases hq : s.pending with
  | nil => exact ⟨_, step_of_pending_nil hq, h.with_pending_clock s.pending (s.clock + 1)⟩
  | cons c rest =>
    obtain ⟨t, ht, hk⟩ := (keeps_exec c { s with pending := rest }).next
    exact ⟨t, (step_of_pending_cons hq).trans ht, (h.with_pending_clock rest s.clock).of_keeps hk⟩

/-- The one state that a step of a well-formed state answers is well formed. -/
theorem Steps.wellFormed {s t : State} (hs : Steps s t) (h : s.WellFormed) : t.WellFormed := by
  obtain ⟨u, hu, hw⟩ := step_next_wellFormed h
  have e : u = t := Host.Outcome.next.inj (hu.symm.trans hs)
  exact e ▸ hw

/-- What every step keeps holds in each state that a run reaches. -/
theorem Runs.keeps {P : State → Prop} (hP : ∀ s t, Steps s t → P s → P t) {s t : State} (hr : Runs s t) (h : P s) : P t := by
  induction hr with
  | here => exact h
  | more s t u hs _ ih => exact ih (hP s t hs h)

/-- Settles O47: a step answers one state, which is well formed. -/
theorem everyStepKeepsTheStateWellFormed : Obligations.EveryStepKeepsTheStateWellFormed := by
  unfold Obligations.EveryStepKeepsTheStateWellFormed
  exact fun s t h hs => hs.wellFormed h

/-- Settles O49: every state of a run is well formed, so that its step answers a next state. -/
theorem everyWellFormedStateIsSafe : Obligations.EveryWellFormedStateIsSafe := by
  unfold Obligations.EveryWellFormedStateIsSafe Safe
  intro s h t hr
  have ht : t.WellFormed := hr.keeps (fun _ _ hs => hs.wellFormed) h
  obtain ⟨u, hu, -⟩ := step_next_wellFormed ht
  exact ⟨ht, u, hu⟩

/-- Settles O46, by what every command keeps. -/
theorem everyCommandLeavesTheQueueAndTheClockAlone : Obligations.EveryCommandLeavesTheQueueAndTheClockAlone := by
  unfold Obligations.EveryCommandLeavesTheQueueAndTheClockAlone Answers
  intro c s
  obtain ⟨t, ht, hk⟩ := (keeps_exec c s).next
  exact ⟨t, ht, hk.pending, hk.clock, hk.free⟩

/-- Settles O45, by the branch of a step that finds the queue empty. -/
theorem idlingPassesAMicrosecond : Obligations.IdlingPassesAMicrosecond := by
  unfold Obligations.IdlingPassesAMicrosecond
  exact fun _ h => step_of_pending_nil h

/-! Numbers in deep memory (R8). -/

/-- Byte `i` of a stored number is its digit `i` to the base 256. -/
theorem State.byte_store_of_lt (n : Nat) : ∀ (s : State) (a v i : Nat), i < n →
    (s.store a n v).byte (a + i) = BitVec.ofNat 8 (v / 256 ^ i) := by
  induction n with
  | zero => intro s a v i h; omega
  | succ n ih =>
    intro s a v i h
    show ((s.setByte a _).store (a + 1) n _).byte (a + i) = _
    cases i with
    | zero => rw [State.byte_store_ne _ _ _ _ _ (by omega)]; simp
    | succ i =>
      have e : a + (i + 1) = a + 1 + i := by omega
      rw [e, ih _ _ _ _ (by omega), Nat.div_div_eq_div_mul, Nat.pow_succ']

/-- Bytes that are the digits of a number to the base 256 load as that number, cut to their length. -/
theorem State.load_of_digits (s : State) (n : Nat) : ∀ (a v : Nat),
    (∀ i < n, (s.byte (a + i)).toNat = v / 256 ^ i % 256) → s.load a n = v % 256 ^ n := by
  induction n with
  | zero => intro a v _; simp [State.load, Nat.mod_one]
  | succ n ih =>
    intro a v h
    have first : (s.byte a).toNat = v % 256 := by simpa using h 0 (by omega)
    have rest : s.load (a + 1) n = v / 256 % 256 ^ n := ih _ _ fun i hi => by
      have e : a + 1 + i = a + (i + 1) := by omega
      rw [e, h (i + 1) (by omega), Nat.div_div_eq_div_mul, Nat.pow_succ']
    show (s.byte a).toNat + 256 * s.load (a + 1) n = _
    rw [first, rest, Nat.pow_succ', Nat.mod_mul]

/-- Settles O54: the bytes stored are the number's digits, and such bytes load as the number. -/
theorem memoryReadsBackLittleEndian : Obligations.MemoryReadsBackLittleEndian := by
  unfold Obligations.MemoryReadsBackLittleEndian
  intro s a n v
  have digits : ∀ i < n, ((s.store a n v).byte (a + i)).toNat = v / 256 ^ i % 256 := fun i hi => by
    rw [State.byte_store_of_lt n s a v i hi]; simp
  exact ⟨digits, State.load_of_digits _ n a v digits, fun c hc => State.byte_store_ne n s a v c hc⟩

/-! Bytes written from a die-local address (R36). -/

/-- Two addresses within the 2^40 bytes of a die are one tray-global address only where they are equal. -/
theorem gaddr_inj {d a b : Nat} (ha : a < 2 ^ 40) (hb : b < 2 ^ 40) : gaddr d a = gaddr d b ↔ a = b := by
  unfold gaddr; omega

/-- A write changes memory alone. -/
theorem State.writeBytes_eq_with_mem (d : Nat) (data : List Byte) : ∀ (s : State) (a : Nat),
    s.writeBytes d a data = { s with mem := (s.writeBytes d a data).mem } := by
  induction data with
  | nil => intro s a; rfl
  | cons b data ih => intro s a; exact ih (s.setByte (gaddr d a) b) (a + 1)

/-- A write leaves every byte that is not one of its own. -/
theorem State.byte_writeBytes_ne (d c : Nat) (data : List Byte) : ∀ (s : State) (a : Nat),
    (∀ i < data.length, c ≠ gaddr d (a + i)) → (s.writeBytes d a data).byte c = s.byte c := by
  induction data with
  | nil => intro s a _; rfl
  | cons b data ih =>
    intro s a h
    show ((s.setByte (gaddr d a) b).writeBytes d (a + 1) data).byte c = _
    have later : ∀ i < data.length, c ≠ gaddr d (a + 1 + i) := fun i hi => by
      have e : a + 1 + i = a + (i + 1) := by omega
      exact e ▸ h (i + 1) (by simpa using hi)
    have first : gaddr d a ≠ c := (h 0 (by simp)).symm
    rw [ih _ _ later, State.byte_setByte_ne _ _ _ _ first]

/-- A write that stays within the die stores byte `i` of its data at its address plus `i`. -/
theorem State.byte_writeBytes_of_lt (d : Nat) (data : List Byte) : ∀ (s : State) (a : Nat),
    a + data.length ≤ 2 ^ 40 → ∀ (i : Nat) (h : i < data.length), (s.writeBytes d a data).byte (gaddr d (a + i)) = data[i] := by
  induction data with
  | nil => intro s a _ i h; simp at h
  | cons b data ih =>
    intro s a hd i h
    rw [List.length_cons] at hd h
    cases i with
    | zero =>
      show ((s.setByte (gaddr d a) b).writeBytes d (a + 1) data).byte (gaddr d a) = b
      have other : ∀ i < data.length, gaddr d a ≠ gaddr d (a + 1 + i) := fun i hi e => by
        have := (gaddr_inj (by omega) (by omega)).1 e
        omega
      rw [State.byte_writeBytes_ne d _ data _ _ other, State.byte_setByte_same]
    | succ i =>
      show ((s.setByte (gaddr d a) b).writeBytes d (a + 1) data).byte (gaddr d (a + (i + 1))) = data[i]
      have e : a + (i + 1) = a + 1 + i := by omega
      rw [e, ih _ _ (by omega) i (by omega)]

/-! Writes of an agent (R270, R279, R280). -/

/-- No unit of an access reads bad where none is in error. -/
@[simp] theorem badUnits_of_no_error (write : Bool) (a n : Nat) : badUnits ⟨[], []⟩ write a n = [] := rfl

/-- Without memory errors, nothing is counted, recorded or latched. -/
@[simp] theorem State.eccEffects_of_no_error (s : State) (d kind index src : Nat) (write : Bool) (a n : Nat) (one : Bool) :
    s.eccEffects d kind index src write a n ⟨[], []⟩ one = s := rfl

@[simp] theorem State.fillBad_nil (s : State) (d : Nat) : s.fillBad d [] = s := rfl

/-- A permitted write of an agent to a die out of reset has the effects of its errors, fills its bad units and stores its
bytes. -/
theorem exec_memoryAccess_write {s : State} {die : DieNo} {agent : Agent} {address : BitVec 40} {data : List Byte} (ecc : Ecc)
    (hr : s.inReset die.val = false) (hp : s.permitted die.val (agentKind agent) true address.toNat data.length = true) :
    exec (.memoryAccess die agent address (.write data) ecc) s = .next
      { ((s.eccEffects die.val (agentKind agent) (agentIndex agent) (agentSource agent) true address.toNat data.length ecc).fillBad
          die.val (badUnits ecc true address.toNat data.length)).writeBytes die.val address.toNat data with answer := [] } := by
  show execMemoryAccess die agent address (.write data) ecc s = _
  unfold execMemoryAccess State.access
  simp [hr, hp]

/-- Settles O55: without memory errors, the write stores its bytes and does nothing else. -/
theorem aMemoryWriteStoresItsBytesAndNoOthers : Obligations.AMemoryWriteStoresItsBytesAndNoOthers := by
  unfold Obligations.AMemoryWriteStoresItsBytesAndNoOthers Answers
  intro s die agent address data hr hp hd
  have frame := State.writeBytes_eq_with_mem die.val data s address.toNat
  refine ⟨{ s.writeBytes die.val address.toNat data with answer := [] }, ?_, ?_, ?_, ?_⟩
  · simp [exec_memoryAccess_write ⟨[], []⟩ hr hp]
  · exact State.byte_writeBytes_of_lt die.val data s address.toNat hd
  · exact fun c hc => State.byte_writeBytes_ne die.val c data s address.toNat hc
  · rw [frame]

end Sys2Proof.Machine
end

section
/-! SUPPORT. Proofs of spec/01_machine.md: registers by word, barred writes, lines and limits, the mailbox, deep memory. -/

namespace Sys2Proof.Machine

section Registers

variable {s : State} {chip : Nat} {p : Page} {inst : Nat} {req off value : Nat} {act : Page → Nat → State}

/-! Which page an access reaches (R33, R41, R159). -/

theorem State.toPage_of_inReset (h : s.inReset chip = true) : s.toPage chip req off value act = s := by
  unfold State.toPage; rw [if_pos h]

theorem State.toPage_of_noPage (h : s.inReset chip = false) (hp : pageAt chip off = none) :
    s.toPage chip req off value act = s.noPage chip req off value := by
  unfold State.toPage; rw [if_neg (by simp [h]), hp]

theorem State.toPage_of_page (h : s.inReset chip = false) (hp : pageAt chip off = some (p, inst)) (hu : s.unserved chip p = false) :
    s.toPage chip req off value act = act p inst := by
  unfold State.toPage; rw [if_neg (by simp [h]), hp]; simp [hu]

/-! A write of 32 bits (R46, R47, R54, R73). -/

section Write

variable {q : Requester} {c : Fin 9} {enables : BitVec 4} {collide : Bool}

theorem State.write32_of_inReset (h : s.inReset c.val = true) : s.write32 q c off enables value collide = s := State.toPage_of_inReset h

theorem State.write32_of_noPage (h : s.inReset c.val = false) (hp : pageAt c.val off = none) :
    s.write32 q c off enables value collide = s.noPage c.val q.val off value := State.toPage_of_noPage h hp

variable (hr : s.inReset c.val = false) (hp : pageAt c.val off = some (p, inst)) (hu : s.unserved c.val p = false)
include hr hp hu

theorem State.write32_of_partial (he : enables ≠ 0xF) :
    s.write32 q c off enables value collide = s.pageFault c.val p inst .accessErr q.val off value := by
  unfold State.write32; rw [State.toPage_of_page hr hp hu, if_pos he]

theorem State.write32_of_header (ho : off - p.at inst < 0x40) :
    s.write32 q c off 0xF value collide = s.writeHeader c.val p inst q.val (off - p.at inst) value := by
  unfold State.write32; rw [State.toPage_of_page hr hp hu, if_neg (by simp), if_pos ho]

theorem State.write32_of_block (ho : 0x40 ≤ off - p.at inst) :
    s.write32 q c off 0xF value false = s.writeBlock q c p inst off value := by
  unfold State.write32; rw [State.toPage_of_page hr hp hu, if_neg (by simp), if_neg (by omega)]; rfl

/-- A hardware update that falls in the cycle of a write is looked at once the write has been carried out (R73). -/
theorem State.write32_of_collision (ho : 0x40 ≤ off - p.at inst) :
    s.write32 q c off 0xF value true = (s.writeBlock q c p inst off value).collided s c.val p inst q.val off value := by
  unfold State.write32; rw [State.toPage_of_page hr hp hu, if_neg (by simp), if_neg (by omega)]; rfl

end Write

/-- A write of a block register is barred as a whole by a soft reset, or where no field stands (R51, R61). -/
theorem State.writeBlock_of_barred {q : Requester} {c : Fin 9} (h : s.resetting c.val p inst = true ∨ fieldsAt p off = []) :
    s.writeBlock q c p inst off value = s.pageFault c.val p inst .accessErr q.val off value := by
  unfold State.writeBlock; exact if_pos h

/-- A write of a register that is no half of a pair writes its fields (R46, R48). -/
theorem State.writeBlock_of_single {q : Requester} {c : Fin 9} (hs : s.resetting c.val p inst = false) (hf : fieldsAt p off ≠ [])
    (hl : lowPairAt c.val off = none) (hh : highPairAt c.val off = none) :
    s.writeBlock q c p inst off value = s.writeFields q c p inst off value (fieldsAt p off) := by
  unfold State.writeBlock; simp only [hs, hf, hl, hh]; rfl

/-- A hardware update of a field whose write is applied sets COLLIDE (R73). -/
theorem State.collided_of_applied {t : State} (hs : s.resetting chip p inst = false)
    (h : (fieldsAt p off).any (fun x => x.1.among hwUpdated &&
      (s.barOf chip p inst x.1 x.2 req (bitsOf value x.1.lo x.1.width)).isNone) = true) :
    t.collided s chip p inst req off value = t.pageFault chip p inst .collide req off value := by
  unfold State.collided; exact if_pos ⟨by simp [hs], h⟩

/-! A read of 32 bits (R46, R48, R49). -/

section Read

variable {enables : BitVec 4} {lo hi : Reg} {i v : Nat}

theorem State.read32_of_inReset (h : s.inReset chip = true) : s.read32 req chip off enables = { s with answer := [] } := by
  unfold State.read32; rw [if_pos h]

variable (hr : s.inReset chip = false)
include hr

theorem State.read32_of_reserved (h : reservedRange chip off = true) :
    s.read32 req chip off enables = { s.noPage chip req off 0 with answer := enabledBytes enables 0 } := by
  unfold State.read32; rw [if_neg (by simp [hr]), if_pos h]

variable (hv : reservedRange chip off = false)
include hv

theorem State.read32_of_single (hl : lowPairAt chip off = none) (hh : highPairAt chip off = none) :
    s.read32 req chip off enables = { s with answer := enabledBytes enables (s.readWord chip off) } := by
  unfold State.read32; rw [if_neg (by simp [hr]), if_neg (by simp [hv]), hl, hh]

theorem State.read32_of_low (hl : lowPairAt chip off = some (lo, hi, i)) :
    s.read32 req chip off enables = { s with
      capture := ((lo.at chip i).key, req, s.readWord chip (hi.offset i)) :: pairDrop s.capture (lo.at chip i).key req
      answer := enabledBytes enables (s.readWord chip off) } := by
  unfold State.read32; rw [if_neg (by simp [hr]), if_neg (by simp [hv]), hl]

/-- A read of the high word answers what was captured for the requester, else what the register holds, and ends the capture (R48). -/
theorem State.read32_of_high (hl : lowPairAt chip off = none) (hh : highPairAt chip off = some (lo, hi, i)) :
    s.read32 req chip off enables = { s with
      capture := pairDrop s.capture (lo.at chip i).key req
      answer := enabledBytes enables ((pairEntry s.capture (lo.at chip i).key req).getD (s.readWord chip off)) } := by
  unfold State.read32; rw [if_neg (by simp [hr]), if_neg (by simp [hv]), hl, hh]

end Read

/-! Writes of the words of a pair (R48, R57, R58, R61). -/

section Pair

variable {lo hi : Reg} {i : Nat}

/-- The low word checks soft reset and, of a pair that can be written, the requester (log entry 15). -/
theorem State.stageLow_of_barred (h : s.resetting chip p inst = true ∨ (lo.kind ≠ .ro ∧ lo.accepts i req = false)) :
    s.stageLow chip p inst lo i req off value = s.pageFault chip p inst .accessErr req off value := by
  unfold State.stageLow
  rcases h with h | ⟨hk, ha⟩
  · rw [if_pos h]
  · simp [hk, ha]

variable (hs : s.resetting chip p inst = false)
include hs

theorem State.stageLow_of_readOnly (hk : lo.kind = .ro) : s.stageLow chip p inst lo i req off value = s := by
  unfold State.stageLow; rw [if_neg (by simp [hs]), if_pos hk]

theorem State.stageLow_of_accepts (hk : lo.kind ≠ .ro) (ha : lo.accepts i req = true) :
    s.stageLow chip p inst lo i req off value =
      { s with staging := ((lo.at chip i).key, req, value) :: pairDrop s.staging (lo.at chip i).key req } := by
  unfold State.stageLow; rw [if_neg (by simp [hs]), if_neg hk, if_neg (by simp [ha])]

variable (hk : lo.kind ≠ .ro)
include hk

theorem State.writeHigh_of_unstaged (he : pairEntry s.staging (lo.at chip i).key req = none) :
    s.writeHigh chip p inst lo hi i req off value =
      s.pageFault chip p inst (if s.lockedField chip p inst lo i then .lockViol else .accessErr) req off value := by
  unfold State.writeHigh; simp only [hs, hk, he]; rfl

variable {low : Nat} (he : pairEntry s.staging (lo.at chip i).key req = some low)
include he

theorem State.writeHigh_of_barred {b : FaultBit} (hb : s.barOf chip p inst lo i req low = some b) :
    s.writeHigh chip p inst lo hi i req off value =
      State.pageFault { s with staging := pairDrop s.staging (lo.at chip i).key req } chip p inst b req off value := by
  unfold State.writeHigh; simp only [hs, hk, he, hb]; rfl

theorem State.writeHigh_of_open (hb : s.barOf chip p inst lo i req low = none) :
    s.writeHigh chip p inst lo hi i req off value =
      State.loadPair { s with staging := pairDrop s.staging (lo.at chip i).key req } chip lo hi i req (value * 4294967296 + low) := by
  unfold State.writeHigh; simp only [hs, hk, he, hb]; rfl

end Pair

theorem State.writeHigh_of_resetting {lo hi : Reg} {i : Nat} (h : s.resetting chip p inst = true) :
    s.writeHigh chip p inst lo hi i req off value = s.pageFault chip p inst .accessErr req off value := by
  unfold State.writeHigh; exact if_pos h

/-! The commands. -/

section Commands

variable {q : Requester} {c : Fin 9} {offset : BitVec 24} {word : BitVec 32}

/-- The second half of a 64-bit access stands 4 above the first (R47). -/
theorem high_offset (h : offset.toNat % 8 = 0) : (offset + 4).toNat / 4 * 4 = offset.toNat / 4 * 4 + 4 := by
  bv_omega

theorem exec_registerWrite {enables : BitVec 4} {collide : Bool} {t : State}
    (h : s.write32 q c (offset.toNat / 4 * 4) enables word.toNat collide = t) :
    exec (.registerWrite q c offset enables word collide none) s = .next t := congrArg Host.Outcome.next h

theorem exec_lowWordRead {enables : BitVec 4} {t : State} (h : s.read32 q.val c.val (offset.toNat / 4 * 4) enables = t) :
    exec (.lowWordRead q c offset enables none) s = .next t := congrArg Host.Outcome.next h

/-- A 64-bit write is a write of the lower offset, then one of the higher (R47). -/
theorem exec_registerWrite_64 {enables e : BitVec 4} {collide : Bool} {v : BitVec 32} (h : offset.toNat % 8 = 0) :
    exec (.registerWrite q c offset enables word collide (some (e, v))) s =
      exec (.registerWrite q c (offset + 4) e v false none) (s.write32 q c (offset.toNat / 4 * 4) enables word.toNat collide) := by
  rw [exec_registerWrite rfl, high_offset h]; rfl

/-- A 64-bit read is a read of the lower offset, then one of the higher, and answers the bytes of both (R47). -/
theorem exec_lowWordRead_64 {enables e : BitVec 4} {t u : State} (h : offset.toNat % 8 = 0)
    (ht : s.read32 q.val c.val (offset.toNat / 4 * 4) enables = t)
    (hu : t.read32 q.val c.val ((offset + 4).toNat / 4 * 4) e = u) :
    exec (.lowWordRead q c offset enables (some e)) s = .next { u with answer := t.answer ++ u.answer } := by
  subst ht hu
  rw [high_offset h]; rfl

theorem exec_reservedRangeAccess {write : Bool} (hr : s.inReset c.val = false) (hv : reservedRange c.val (offset.toNat / 4 * 4) = true) :
    exec (.reservedRangeAccess q c offset write word) s = .next (
      if write then s.noPage c.val q.val (offset.toNat / 4 * 4) word.toNat
      else { s.noPage c.val q.val (offset.toNat / 4 * 4) 0 with answer := wordBytes 0 }) := by
  show execReservedRangeAccess q c offset write word s = _
  unfold execReservedRangeAccess
  cases write <;> simp [hr, hv]

theorem exec_lowWordWrite {lo hi : Reg} {i : Nat} (hl : lowPairAt c.val (offset.toNat / 4 * 4) = some (lo, hi, i))
    (hr : s.inReset c.val = false) (hp : pageAt c.val (offset.toNat / 4 * 4) = some (p, inst)) (hu : s.unserved c.val p = false) :
    exec (.lowWordWrite q c offset word) s = .next (s.stageLow c.val p inst lo i q.val (offset.toNat / 4 * 4) word.toNat) := by
  show execLowWordWrite q c offset word s = _
  unfold execLowWordWrite; simp only [hl, State.toPage_of_page hr hp hu]

theorem exec_highWordWrite {lo hi : Reg} {i : Nat} (hh : highPairAt c.val (offset.toNat / 4 * 4) = some (lo, hi, i))
    (hr : s.inReset c.val = false) (hp : pageAt c.val (offset.toNat / 4 * 4) = some (p, inst)) (hu : s.unserved c.val p = false) :
    exec (.highWordWrite q c offset word) s = .next (s.writeHigh c.val p inst lo hi i q.val (offset.toNat / 4 * 4) word.toNat) := by
  show execHighWordWrite q c offset word s = _
  unfold execHighWordWrite; simp only [hh, State.toPage_of_page hr hp hu]

end Commands

end Registers

/-- Settles O39, by the cases of a 32-bit write, of a 32-bit read, and of a write of either word of a pair. -/
theorem registersAreWrittenAndReadByWord : Obligations.RegistersAreWrittenAndReadByWord := by
  unfold Obligations.RegistersAreWrittenAndReadByWord
  and_intros
  · exact fun s q c o e v hr => exec_registerWrite (State.write32_of_inReset hr)
  · exact fun s q c o e v hr hp => exec_registerWrite (State.write32_of_noPage hr hp)
  · exact fun s q c o e v p inst hr hp hu he => exec_registerWrite (State.write32_of_partial hr hp hu he)
  · exact fun s q c o v p inst hr hp hu ho => exec_registerWrite (State.write32_of_header hr hp hu ho)
  · exact fun s q c o v p inst hr hp hu ho hs hf hl hh =>
      exec_registerWrite ((State.write32_of_block hr hp hu ho).trans (State.writeBlock_of_single hs hf hl hh))
  · exact fun s q c o v p inst hr hp hu ho hb =>
      exec_registerWrite ((State.write32_of_block hr hp hu ho).trans (State.writeBlock_of_barred hb))
  · exact fun s q c o v p inst hr hp hu ho hs ha => ⟨_, exec_registerWrite (State.write32_of_block hr hp hu ho),
      exec_registerWrite ((State.write32_of_collision hr hp hu ho).trans (State.collided_of_applied hs ha))⟩
  · exact fun s q c o enables v collide e w h => ⟨_, exec_registerWrite rfl, exec_registerWrite_64 h⟩
  · exact fun s q c o v hr hv => exec_reservedRangeAccess hr hv
  · exact fun s q c o v hr hv => exec_reservedRangeAccess hr hv
  · exact fun s q c o e hr => exec_lowWordRead (State.read32_of_inReset hr)
  · exact fun s q c o e hr hv hl hh => exec_lowWordRead (State.read32_of_single hr hv hl hh)
  · exact fun s q c o e hr hv => exec_lowWordRead (State.read32_of_reserved hr hv)
  · exact fun s q c o e lo hi i hr hv hl => exec_lowWordRead (State.read32_of_low hr hv hl)
  · intro s q c o e lo hi i v hr hv hl hh captured
    exact exec_lowWordRead ((State.read32_of_high hr hv hl hh).trans (by rw [captured]; rfl))
  · intro s q c o e lo hi i hr hv hl hh empty
    exact exec_lowWordRead ((State.read32_of_high hr hv hl hh).trans (by rw [empty]; rfl))
  · exact fun s q c o enables e h => ⟨_, _, exec_lowWordRead rfl, exec_lowWordRead rfl, exec_lowWordRead_64 h rfl rfl⟩
  · exact fun s q c o v lo hi i p inst hr hl hp hu hk hs ha =>
      (exec_lowWordWrite hl hr hp hu).trans (congrArg _ (State.stageLow_of_accepts hs hk ha))
  · exact fun s q c o v lo hi i p inst hr hl hp hu hb =>
      (exec_lowWordWrite hl hr hp hu).trans (congrArg _ (State.stageLow_of_barred hb))
  · exact fun s q c o v lo hi i p inst hr hl hp hu hs hk =>
      (exec_lowWordWrite hl hr hp hu).trans (congrArg _ (State.stageLow_of_readOnly hs hk))
  · exact fun s q c o v lo hi i p inst hr hh hp hu hs hk he =>
      (exec_highWordWrite hh hr hp hu).trans (congrArg _ (State.writeHigh_of_unstaged hs hk he))
  · exact fun s q c o v lo hi i p inst hr hh hp hu hs =>
      (exec_highWordWrite hh hr hp hu).trans (congrArg _ (State.writeHigh_of_resetting hs))
  · exact fun s q c o v lo hi i p inst low hr hh hp hu hk he hs hb =>
      (exec_highWordWrite hh hr hp hu).trans (congrArg _ (State.writeHigh_of_open hs hk he hb))
  · exact fun s q c o v lo hi i p inst low b hr hh hp hu hk he hs hb =>
      (exec_highWordWrite hh hr hp hu).trans (congrArg _ (State.writeHigh_of_barred hs hk he hb))

/-! Writes that are barred; the limits (R41, R52, R58, R61, R642). -/

/-- A write is barred by a lock or by ACCESS_ERR alone (R52, R58, R61). -/
theorem State.writeBar_eq_some {s : State} {chip : Nat} {p : Page} {r : Reg} {i req : Nat} {b : FaultBit}
    (h : s.writeBar chip p r i req = some b) : b = .lockViol ∨ b = .accessErr := by
  unfold State.writeBar at h
  split at h
  · exact .inr (Option.some.inj h).symm
  · split at h
    · exact .inl (Option.some.inj h).symm
    · split at h
      · cases h
      · exact .inr (Option.some.inj h).symm

/-- Limits none of which is barred are all written (R642). -/
theorem State.writeLimits_of_open {s : State} {ks : List Nat} {req value : Nat} (h : ∀ k ∈ ks, s.limitBar k req = none) :
    s.writeLimits ks req value = s.each ks (fun u k => u.writeLimit k value) := by
  have bars : ks.filterMap (fun k => s.limitBar k req) = [] := List.filterMap_eq_nil_iff.2 h
  have open_ : ks.filter (fun k => (s.limitBar k req).isNone) = ks := List.filter_eq_self.2 fun k hk => by simp [h k hk]
  unfold State.writeLimits
  simp [bars, open_]

/-- Limits that one fault bars are all left as they are, and the fault is recorded once (R58, R70). -/
theorem State.writeLimits_of_barred {s : State} {ks : List Nat} {req value : Nat} {b : FaultBit} (hk : ks ≠ [])
    (h : ∀ k ∈ ks, s.limitBar k req = some b) :
    s.writeLimits ks req value = s.regFault clachasel HLS.page (limitField (ks.headD 0)) 0 b req value := by
  have none_open : ks.filter (fun k => (s.limitBar k req).isNone) = [] := List.filter_eq_nil_iff.2 fun k m => by simp [h k m]
  obtain ⟨k, hm⟩ := List.exists_mem_of_ne_nil ks hk
  have bars (c : FaultBit) : (ks.filterMap (fun k => s.limitBar k req)).contains c = decide (c = b) := by
    rw [Bool.eq_iff_iff, List.contains_iff_mem, List.mem_filterMap, decide_eq_true_iff]
    exact ⟨fun ⟨n, hn, e⟩ => Option.some.inj (e.symm.trans (h n hn)), fun e => ⟨k, hm, e ▸ h k hm⟩⟩
  unfold State.writeLimits
  simp only [bars, none_open]
  rcases State.writeBar_eq_some (h k hm) with rfl | rfl <;> rfl

/-- Every register of limits holds one. -/
theorem limitsOf_ne_nil (word : Fin 4) : limitsOf word.val ≠ [] := by
  revert word; decide

/-- A limit register is not written while the Clachasel is held in reset (R41). -/
theorem exec_limitWrite_of_inReset {s : State} {req : Requester} {word : Fin 4} {value : BitVec 32} (h : s.inReset clachasel = true) :
    exec (.limitWrite req word value) s = .next s := by
  show execLimitWrite req word value s = _
  unfold execLimitWrite; rw [if_pos h]

theorem exec_limitWrite {s : State} {req : Requester} {word : Fin 4} {value : BitVec 32} (h : s.inReset clachasel = false) :
    exec (.limitWrite req word value) s = .next (s.writeLimits (limitsOf word.val) req.val value.toNat) := by
  show execLimitWrite req word value s = _
  unfold execLimitWrite; rw [if_neg (by simp [h])]

/-- Settles O41: but for the limits, each of these commands is one write that its page lets through, bars or does not serve. -/
theorem barredWritesAreDiscarded : Obligations.BarredWritesAreDiscarded := by
  unfold Obligations.BarredWritesAreDiscarded
  and_intros
  on_goal 63 => exact fun _ _ _ _ hr => exec_limitWrite_of_inReset hr
  on_goal 62 => exact fun _ _ word _ _ hr hb =>
    (exec_limitWrite hr).trans (congrArg _ (State.writeLimits_of_barred (limitsOf_ne_nil word) hb))
  all_goals
    intros
    exact State.onWrite_discards _

section Lines

variable {s : State} {req : Requester} {die : DieNo} {core : McNo}

/-! The lines (R26, R39, R477, R490, R633 to R637). -/

/-- FENCE_n that reaches a die out of reset for the first time fences it. -/
theorem exec_fenceAssert (hr : s.inReset die.val = false) (hf : s.fenced die.val = true)
    (hn : s.is (LINEI.FENCING.on die.val) = false) :
    exec (.fenceAssert die) s =
      .next ((((s.set (LINEI.FENCING.on die.val) 1).fenceLinks die.val).discardAccepted die.val).tryFenced die.val) :=
  congrArg Host.Outcome.next (if_neg (by simp [hr, hf, hn]))

/-- TRIP_n at a die resets it; MC2, where it runs, empties the die's sensor. -/
theorem exec_tripAssert (h : s.tripped die.val = true) :
    exec (.tripAssert die) s = .next (
      if (s.dieReset die.val).mcRuns 2 then ((s.dieReset die.val).clearSensor (16 + die.val)).evaluate else s.dieReset die.val) :=
  congrArg Host.Outcome.next (if_neg (by simp [h]))

theorem exec_fenceTo (hf : s.fenced die.val = true) (hn : s.bit FENCE.FENCED.cl die.val = false) (ht : s.tripped die.val = false)
    (hh : s.heldFor (LINEI.FENCE_SINCE.clAt die.val) (s.get HLS.FENCE_TO.cl * 1000) = true) :
    exec (.fenceTo die) s = .next ((s.trip die.val 2).event FENCE.page 0x4111) :=
  congrArg Host.Outcome.next (if_neg (by simp [hf, hn, ht, hh]))

/-! Die faults and thermal alerts (R42, R489, R640, R641). -/

/-- A die fault that rose and is not yet latched is latched by the supervisor and by MC2, and fences (R42, R640). -/
theorem State.latchDieFault_eq (s : State) (n : Nat) :
    s.latchDieFault n =
      if s.inReset n = false ∧ s.get (DFAULT.CAUSE.on n) ≠ 0 ∧ s.is (LINEI.FAULT_LATCH.clAt n) = false then
        (((s.set (LINEI.FAULT_LATCH.clAt n) 1).set (LINEI.FAULT_MC2.clAt n) 1).event HLS.page 0x4102).fence n 2
      else s := by
  unfold State.latchDieFault
  rw [← ite_not]
  simp only [not_or, Bool.not_eq_true, ne_eq]

/-- An alert that rises first has a new die fault latched, then is latched itself. -/
theorem exec_thermAlert (ht : s.is (LINEI.THERM.clAt die.val) = false) (hr : s.get RECI.RUNS.cl ≠ 0) :
    exec (.thermAlert die) s = .next (
      let t := s.latchDieFault die.val
      let a := (t.set (LINEI.THERM.clAt die.val) 1).set (LINEI.THERM_SINCE.clAt die.val) (t.clock + 1)
      let b := (a.setBit TALERT.ALERT_NOW.cl die.val true).setBit TALERT.ALERT_SEEN.cl die.val true
      let c := (b.count (TALERT.ALERTS.clAt die.val)).setBit HLS.TA_ACTIVE.cl die.val true
      (c.event HLS.page 0x4101).coolNow) :=
  congrArg Host.Outcome.next (if_neg (by simp [ht, hr]))

theorem exec_thermAlert_of_standing (h : s.is (LINEI.THERM.clAt die.val) = true ∨ s.get RECI.RUNS.cl = 0) :
    exec (.thermAlert die) s = .next s :=
  congrArg Host.Outcome.next (if_pos h)

theorem exec_thermAlertRelease (h : s.is (LINEI.THERM.clAt die.val) = true) :
    exec (.thermAlertRelease die) s = .next (
      let u := (s.set (LINEI.THERM.clAt die.val) 0).set (LINEI.THERM_SINCE.clAt die.val) 0
      ((u.setBit TALERT.ALERT_NOW.cl die.val false).setBit HLS.TA_ACTIVE.cl die.val false).coolNow) :=
  congrArg Host.Outcome.next (if_neg (by simp [h]))

theorem exec_thermAlertRelease_of_none (h : s.is (LINEI.THERM.clAt die.val) = false) :
    exec (.thermAlertRelease die) s = .next s :=
  congrArg Host.Outcome.next (if_pos (by simp [h]))

theorem exec_thermAlertFence (ht : s.is (LINEI.THERM.clAt die.val) = true) (hf : s.fenced die.val = false)
    (hh : s.heldFor (LINEI.THERM_SINCE.clAt die.val) (s.get HLS.TA_FENCE.cl * 1000) = true) :
    exec (.thermAlertFence die) s = .next ((s.event HLS.page 0x4103).fence die.val 3) :=
  congrArg Host.Outcome.next (if_neg (by simp [ht, hf, hh]))

theorem exec_thermAlertTrip (ht : s.is (LINEI.THERM.clAt die.val) = true) (hn : s.tripped die.val = false)
    (hh : s.heldFor (LINEI.THERM_SINCE.clAt die.val) (s.get HLS.TA_TRIP.cl * 1000) = true) :
    exec (.thermAlertTrip die) s = .next ((s.event HLS.page 0x4104).trip die.val 3) :=
  congrArg Host.Outcome.next (if_neg (by simp [ht, hn, hh]))

/-! The form change (R647). -/

theorem exec_formGo_of_accepted (h : s.Reaches die.val DFAULT.page DFAULT.FORM_GO 0 req) (hc : s.formRefusal die.val = 0) :
    exec (.formGo req die) s =
      .next (((s.set (DFAULT.FORM_STATE.on die.val) 1).set (DFAULT.FORM_REFUSE.on die.val) 0).recheckRuns die.val) :=
  congrArg Host.Outcome.next ((State.onWrite_of_reaches s h).trans (if_neg (by simp [hc])))

theorem exec_formGo_of_refused (h : s.Reaches die.val DFAULT.page DFAULT.FORM_GO 0 req) (hc : s.formRefusal die.val ≠ 0) :
    exec (.formGo req die) s = .next (
      let c := s.formRefusal die.val
      let u := ((s.set (DFAULT.FORM_STATE.on die.val) 3).set (DFAULT.FORM_REFUSE.on die.val) c).dieEvent die.val DFAULT.page 0x2042
      u.regFault die.val DFAULT.page DFAULT.FORM_GO 0 .accessErr req.val 1) :=
  congrArg Host.Outcome.next ((State.onWrite_of_reaches s h).trans (if_pos hc))

/-! Semaphores (R652). -/

/-- A CLAIM reads BUSY where another core holds the semaphore, and is granted otherwise. -/
theorem exec_semClaim (h : s.Reaches clachasel OWN.page OWN.CLAIM core.val req) :
    exec (.semClaim req core) s = .next (
      let m := s.get (OWN.SEM.clAt core.val)
      if s.is (OWN.SEM_HELD.clAt m) ∧ s.get (OWN.SEM_OWNER.clAt m) ≠ core.val + 1 then s.set (OWN.RESULT.clAt core.val) 2
      else ((s.set (OWN.SEM_HELD.clAt m) 1).set (OWN.SEM_OWNER.clAt m) (core.val + 1)).set (OWN.RESULT.clAt core.val) 1) :=
  congrArg Host.Outcome.next (State.onWrite_of_reaches s h)

/-- A RELEASE frees the semaphore its core holds, and does nothing otherwise. -/
theorem exec_semRelease (h : s.Reaches clachasel OWN.page OWN.RELEASE core.val req) :
    exec (.semRelease req core) s = .next (
      let m := s.get (OWN.SEM.clAt core.val)
      if ¬ s.is (OWN.SEM_HELD.clAt m) ∨ s.get (OWN.SEM_OWNER.clAt m) ≠ core.val + 1 then s
      else ((s.set (OWN.SEM_HELD.clAt m) 0).set (OWN.SEM_OWNER.clAt m) 0).set (OWN.RESULT.clAt core.val) 3) :=
  congrArg Host.Outcome.next (State.onWrite_of_reaches s h)

end Lines

/-- Settles O36: each command is its act, or nothing, by the condition its rule names. -/
theorem linesAlertsAndSemaphoresAreDriven : Obligations.LinesAlertsAndSemaphoresAreDriven := by
  unfold Obligations.LinesAlertsAndSemaphoresAreDriven
  and_intros
  · exact fun s _ _ h => congrArg Host.Outcome.next (State.onWrite_of_reaches s h)
  · exact fun s _ _ h => congrArg Host.Outcome.next (State.onWrite_of_reaches s h)
  · exact fun s _ _ h => congrArg Host.Outcome.next (State.onWrite_of_reaches s h)
  · exact fun s die hr hf hn => exec_fenceAssert hr hf hn
  · exact fun s die ht hm => (exec_tripAssert ht).trans (by rw [if_pos hm])
  · exact fun s die ht hm => (exec_tripAssert ht).trans (by rw [if_neg (by simp [hm])])
  · intro s die ht hr
    rw [exec_thermAlert ht hr, State.latchDieFault_eq]
  · exact fun s die h => exec_thermAlert_of_standing h
  · exact fun s die ht hf hh => exec_thermAlertFence ht hf hh
  · exact fun s die ht hn hh => exec_thermAlertTrip ht hn hh
  · exact fun s die h => exec_thermAlertRelease h
  · exact fun s die h => exec_thermAlertRelease_of_none h
  · exact fun s die hr hc hl => congrArg Host.Outcome.next ((s.latchDieFault_eq die.val).trans (if_pos ⟨hr, hc, hl⟩))
  · exact fun s die h => congrArg Host.Outcome.next ((s.latchDieFault_eq die.val).trans (if_neg fun ⟨_, hc, hl⟩ => h.elim hc (by simp [hl])))
  · exact fun s die hf hn ht hh => exec_fenceTo hf hn ht hh
  · exact fun s req word value hr hb => (exec_limitWrite hr).trans (congrArg _ (State.writeLimits_of_open hb))
  · exact fun s req word value hr hb => (exec_limitWrite hr).trans (congrArg _ (State.writeLimits_of_barred (limitsOf_ne_nil word) hb))
  · exact fun s req die h hc => exec_formGo_of_accepted h hc
  · exact fun s req die h hc => exec_formGo_of_refused h hc
  · exact fun s req core h free => (exec_semClaim h).trans (by simp [free])
  · exact fun s req core h held other => (exec_semClaim h).trans (by simp [held, other])
  · exact fun s req core h held own => (exec_semRelease h).trans (by simp [held, own])
  · exact fun s req core h other => (exec_semRelease h).trans (by simp [other])

/-! The keys of fields of one chip (R45). -/

/-- Fields of one chip, both of pages or both internal, at two bit places have two keys. -/
theorem Reg.key_at_ne {r x : Reg} {chip i j : Nat} (kind : r.internal = x.internal)
    (place : 32 * r.offset i + r.lo ≠ 32 * x.offset j + x.lo) : (r.at chip i).key ≠ (x.at chip j).key := by
  simp only [Reg.at, fieldKey, Reg.chipOf, kind]
  omega

/-- An internal field has no key of a page's field. -/
theorem Reg.key_internal_ne {r x : Reg} {chip i j : Nat} (hr : r.internal = true) (hx : x.internal = false)
    (place : 32 * x.offset j + x.lo < 16 * 536870912) : (r.at chip i).key ≠ (x.at chip j).key := by
  simp only [Reg.at, fieldKey, Reg.chipOf, hr, hx, if_true, Bool.false_eq_true, if_false]
  omega

/-! The check of a request (R39, R96). -/

section Request

variable {s : State} {d j kind : Nat} {bad : Bool} {act : State → State}

/-- Noting that a request is no longer due changes no field of the mailbox or of the context. -/
theorem State.get_clearDue {r : Reg} {i : Nat} (hr : r.internal = false) (place : 32 * r.offset i + r.lo < 16 * 536870912) :
    (s.setBit (HOLDI.DUE.on d) j false).get (r.at d i) = s.get (r.at d i) :=
  s.get_setBit_ne _ _ _ _ (Reg.key_internal_ne rfl hr place)

theorem State.is_fencing_clearDue : (s.setBit (HOLDI.DUE.on d) j false).is (LINEI.FENCING.on d) = s.is (LINEI.FENCING.on d) :=
  s.is_setBit_ne _ _ _ _ (Reg.key_at_ne rfl (by decide))

theorem State.openContext_clearDue : (s.setBit (HOLDI.DUE.on d) j false).openContext d = s.openContext d := by
  have state : (s.setBit (HOLDI.DUE.on d) j false).get (CTX.STATE.on d) = s.get (CTX.STATE.on d) := State.get_clearDue rfl (by decide)
  have num : (s.setBit (HOLDI.DUE.on d) j false).get (CTX.CTX_NUM.on d) = s.get (CTX.CTX_NUM.on d) := State.get_clearDue rfl (by decide)
  unfold State.openContext; rw [state, num]

/-- A field of slot `i` of the mailbox lies below the internal fields. -/
theorem slot_place (i : Nat) : 32 * HMBX.S_CONTEXT.offset i + HMBX.S_CONTEXT.lo < 16 * 536870912 ∧
    32 * HMBX.S_H.offset i + HMBX.S_H.lo < 16 * 536870912 := by
  simp only [Reg.offset, HMBX.S_CONTEXT, HMBX.S_H, reg, Reg.arr, Reg.only]
  omega

variable (hr : s.inReset d = false) (hd : s.bit (HOLDI.DUE.on d) j = true) (hk : s.get (HMBX.S_KIND.at d j) = kind)
include hr hd hk

/-- A request that is due is checked once: for a fence, for its form, for its context, for its hinge, in that order. -/
theorem State.request_of_due :
    s.request d j kind bad act =
      let u := s.setBit (HOLDI.DUE.on d) j false
      if s.is (LINEI.FENCING.on d) then u.postResult d j .discarded 0
      else if bad then u.postResult d j .refusedBad 0
      else if s.get (HMBX.S_CONTEXT.at d j) ≠ s.openContext d then u.postResult d j .refusedStale 0
      else if ¬ u.isRevision d j ∧ s.get (HMBX.S_H.at d j) < s.get (HMBX.SYNC_NOW.on d) + 2 then u.postResult d j .refusedLate 0
      else act (u.postResult d j .accepted 0) := by
  have context := State.get_clearDue (s := s) (d := d) (j := j) (r := HMBX.S_CONTEXT) rfl (slot_place j).1
  have hinge := State.get_clearDue (s := s) (d := d) (j := j) (r := HMBX.S_H) rfl (slot_place j).2
  have now : (s.setBit (HOLDI.DUE.on d) j false).get (HMBX.SYNC_NOW.on d) = s.get (HMBX.SYNC_NOW.on d) :=
    State.get_clearDue rfl (by decide)
  unfold State.request
  rw [if_neg (by simp [hr, hd, hk])]
  simp only [State.is_fencing_clearDue, State.openContext_clearDue, context, hinge, now]

theorem State.request_of_fencing (hf : s.is (LINEI.FENCING.on d) = true) :
    s.request d j kind bad act = (s.setBit (HOLDI.DUE.on d) j false).postResult d j .discarded 0 :=
  (State.request_of_due hr hd hk).trans (if_pos hf)

variable (hf : s.is (LINEI.FENCING.on d) = false)
include hf

theorem State.request_of_bad (hb : bad = true) :
    s.request d j kind bad act = (s.setBit (HOLDI.DUE.on d) j false).postResult d j .refusedBad 0 := by
  rw [State.request_of_due hr hd hk]; simp [hf, hb]

variable (hb : bad = false)
include hb

theorem State.request_of_stale (hc : s.get (HMBX.S_CONTEXT.at d j) ≠ s.openContext d) :
    s.request d j kind bad act = (s.setBit (HOLDI.DUE.on d) j false).postResult d j .refusedStale 0 := by
  rw [State.request_of_due hr hd hk]; simp [hf, hb, hc]

variable (hc : s.get (HMBX.S_CONTEXT.at d j) = s.openContext d)
include hc

theorem State.request_of_late (hl : s.get (HMBX.S_H.at d j) < s.get (HMBX.SYNC_NOW.on d) + 2)
    (hn : (s.setBit (HOLDI.DUE.on d) j false).isRevision d j = false) :
    s.request d j kind bad act = (s.setBit (HOLDI.DUE.on d) j false).postResult d j .refusedLate 0 := by
  rw [State.request_of_due hr hd hk]; simp [hf, hb, hc, hl, hn]

theorem State.request_of_early (hl : s.get (HMBX.SYNC_NOW.on d) + 2 ≤ s.get (HMBX.S_H.at d j)) :
    s.request d j kind bad act = act ((s.setBit (HOLDI.DUE.on d) j false).postResult d j .accepted 0) := by
  rw [State.request_of_due hr hd hk]; simp [hf, hb, hc, Nat.not_lt.2 hl]

end Request

/-! The posting windows (R93, R94). -/

section Windows

variable {s : State} {req : Requester} {core : McNo} {d j : Nat}

/-- A CLAIM that finds no free slot reads BUSY. -/
theorem State.mbxClaim_of_none {k : Nat}
    (h : (List.range 8).find? (fun i => s.get (MBXI.OWNER.clAt (8 * s.get (MBXPOST.DIE.clAt k) + i)) = 0) = none) :
    s.mbxClaim k = (((s.set (MBXPOST.SLOT.clAt k) 0xFF).set (MBXPOST.CLAIM_DONE.clAt k) 1).set (MBXPOST.STATUS.clAt k) 0).set
      (MBXPOST.TID.clAt k) 0 := by
  unfold State.mbxClaim; simp only [h]

/-- A CLAIM takes the free slot it finds, with nothing sent or shown in it. -/
theorem State.mbxClaim_of_some {k : Nat}
    (h : (List.range 8).find? (fun i => s.get (MBXI.OWNER.clAt (8 * s.get (MBXPOST.DIE.clAt k) + i)) = 0) = some j) :
    s.mbxClaim k =
      let d := s.get (MBXPOST.DIE.clAt k)
      let u := (s.set (MBXI.OWNER.clAt (8 * d + j)) (k + 1)).set (MBXI.SENT.clAt (8 * d + j)) 0
      let v := (u.set (MBXI.SHOWN.clAt (8 * d + j)) 0).set (MBXI.SHOWN_TID.clAt (8 * d + j)) 0
      (v.set (MBXI.HELD.clAt (8 * k + d)) (j + 1)).showWindow k := by
  unfold State.mbxClaim; simp only [h]

/-- A window that holds no slot of its target die sends nothing. -/
theorem State.mbxSend_of_unheld {k : Nat} (h : s.get (MBXI.HELD.clAt (8 * k + s.get (MBXPOST.DIE.clAt k))) = 0) : s.mbxSend k = s :=
  if_pos (.inl h)

/-- A window that holds a slot sends, unless the die is in reset or fenced or a request that is not terminal stands in the slot. -/
theorem State.mbxSend_of_held {k : Nat} (hd : d = s.get (MBXPOST.DIE.clAt k)) (hh : s.get (MBXI.HELD.clAt (8 * k + d)) = j + 1) :
    s.mbxSend k =
      if s.tripped d = true ∨ s.fenced d = true ∨
          (s.is (MBXI.SENT.clAt (8 * d + j)) = true ∧ mbxTerminal (s.get (MBXI.SHOWN.clAt (8 * d + j))) = false) then s
      else
        let p := s.get (MBXPOST.PARAM.clAt k)
        let t := s.get (MBXPOST.TAG.clAt k)
        let a := ((s.set (HMBX.S_TARGET_OP.at d j) p).set (HMBX.S_IDLE_BEATS.at d j) (p / 256)).set (HMBX.S_HOLD_US.at d j) (p / 65536)
        let b := (a.set (HMBX.S_H.at d j) (a.get (MBXPOST.HINGE.clAt k))).set (HMBX.S_CONTEXT.at d j) t
        let c := (b.set (HMBX.S_TID.at d j) (t / 65536)).set (HMBX.S_KIND.at d j) (b.get (MBXPOST.KIND.clAt k))
        let e := (c.set (HMBX.R_STATUS.at d j) 0).set (MBXI.SHOWN.clAt (8 * d + j)) 0
        let f := (e.setBit (DEVQI.REPORT.on d) j false).devqRegs d
        ((f.set (MBXI.SENT.clAt (8 * d + j)) 1).showWindow k).slotValid d j := by
  subst hd
  unfold State.mbxSend
  simp [hh]

/-- RELEASE frees the slot its window holds where the request in it is terminal, and is discarded before. -/
theorem exec_mbxRelease_of_held (h : s.Reaches clachasel MBXPOST.page MBXPOST.RELEASE core.val req)
    (hd : d = s.get (MBXPOST.DIE.clAt core.val)) (hh : s.get (MBXI.HELD.clAt (8 * core.val + d)) = j + 1) :
    exec (.mbxRelease req core) s = .next (
      if mbxTerminal (s.get (MBXI.SHOWN.clAt (8 * d + j))) = false then s else (s.freeSlot d j).setBit (HOLDI.DUE.on d) j false) := by
  subst hd
  refine congrArg Host.Outcome.next ((State.onWrite_of_reaches s h).trans ?_)
  simp [hh]

theorem exec_mbxClaim (h : s.Reaches clachasel MBXPOST.page MBXPOST.CLAIM core.val req) :
    exec (.mbxClaim req core) s = .next (s.mbxClaim core.val) := congrArg Host.Outcome.next (State.onWrite_of_reaches s h)

theorem exec_send (h : s.Reaches clachasel MBXPOST.page MBXPOST.SEND core.val req) :
    exec (.send req core) s = .next (s.mbxSend core.val) := congrArg Host.Outcome.next (State.onWrite_of_reaches s h)

end Windows

/-- Settles O31, by what a claim finds, what a window holds, and the checks of a request in their order. -/
theorem mailboxSlotsAreClaimedSentAndChecked : Obligations.MailboxSlotsAreClaimedSentAndChecked := by
  unfold Obligations.MailboxSlotsAreClaimedSentAndChecked
  and_intros
  · exact fun s req core j h found => (exec_mbxClaim h).trans (congrArg _ (State.mbxClaim_of_some found))
  · exact fun s req core h full => (exec_mbxClaim h).trans (congrArg _ (State.mbxClaim_of_none full))
  · exact fun s req core h unheld => (exec_send h).trans (congrArg _ (State.mbxSend_of_unheld unheld))
  · exact fun s req core d j h hd hh ht hf free =>
      (exec_send h).trans (congrArg _ ((State.mbxSend_of_held hd hh).trans (if_neg (by rcases free with e | e <;> simp [ht, hf, e]))))
  · exact fun s req core d j h hd hh barred =>
      (exec_send h).trans (congrArg _ ((State.mbxSend_of_held hd hh).trans (if_pos barred)))
  · exact fun s req core d j h hd hh waits => (exec_mbxRelease_of_held h hd hh).trans (congrArg _ (if_pos waits))
  · exact fun s req core d j h hd hh ended => (exec_mbxRelease_of_held h hd hh).trans (congrArg _ (if_neg (by simp [ended])))
  · exact fun s die slot hr hd hk hf => congrArg Host.Outcome.next (State.request_of_fencing hr hd hk hf)
  · exact fun s die slot hr hd hk hf hc hl hn => congrArg Host.Outcome.next (State.request_of_late hr hd hk hf rfl hc hl hn)
  · exact fun s die slot hr hd hk hf hc hl => congrArg Host.Outcome.next (State.request_of_early hr hd hk hf rfl hc hl)
  · exact fun s die slot hr hd hk hf hc hl => congrArg Host.Outcome.next (State.request_of_early hr hd hk hf rfl hc hl)
  · exact fun s die slot hr hd hk hf hc => congrArg Host.Outcome.next (State.request_of_stale hr hd hk hf rfl hc)
  · exact fun s die slot hr hd hk hf hc hl hm ho =>
      congrArg Host.Outcome.next (State.request_of_early hr hd hk hf (by simp [ho]; omega) hc hl)
  · exact fun s die slot hr hd hk hf hb => congrArg Host.Outcome.next (State.request_of_bad hr hd hk hf (by simpa using hb))
  · exact fun s die slot hr hd hk hf hc hl => congrArg Host.Outcome.next (State.request_of_early hr hd hk hf rfl hc hl)

/-! Accesses to deep memory (R34, R44, R279, R280, R403). -/

section Access

variable {s : State} {die : DieNo} {agent : Agent} {address : BitVec 40} {ecc : Ecc} {n : BitVec 32} {data : List Byte}

/-- A permitted read of an agent has the effects of its errors and delivers its bytes, all ones in the units in error. -/
theorem exec_memoryAccess_read (hr : s.inReset die.val = false)
    (hp : s.permitted die.val (agentKind agent) false address.toNat n.toNat = true) :
    exec (.memoryAccess die agent address (.read n) ecc) s = .next
      { s.eccEffects die.val (agentKind agent) (agentIndex agent) (agentSource agent) false address.toNat n.toNat ecc with
        answer := s.readBytes die.val address.toNat n.toNat (badUnits ecc false address.toNat n.toNat) } := by
  show execMemoryAccess die agent address (.read n) ecc s = _
  unfold execMemoryAccess State.access
  simp [hr, hp]

theorem exec_memoryAccess_read_of_refused (hr : s.inReset die.val = false)
    (hp : s.permitted die.val (agentKind agent) false address.toNat n.toNat = false) :
    exec (.memoryAccess die agent address (.read n) ecc) s = .next
      { s.refuseAccess die.val (agentKind agent) (agentIndex agent) (agentSource agent) false address.toNat n.toNat with
        answer := List.replicate n.toNat 0xFF } := by
  show execMemoryAccess die agent address (.read n) ecc s = _
  unfold execMemoryAccess State.access
  simp [hr, hp]

theorem exec_memoryAccess_write_of_refused (hr : s.inReset die.val = false)
    (hp : s.permitted die.val (agentKind agent) true address.toNat data.length = false) :
    exec (.memoryAccess die agent address (.write data) ecc) s = .next
      { s.refuseAccess die.val (agentKind agent) (agentIndex agent) (agentSource agent) true address.toNat data.length with
        answer := [] } := by
  show execMemoryAccess die agent address (.write data) ecc s = _
  unfold execMemoryAccess State.access
  simp [hr, hp]

/-- What no window guards is permitted everything (R279). -/
theorem State.permitted_of_unchecked {kind d a m : Nat} {write : Bool} (h : 8 ≤ kind) : s.permitted d kind write a m = true := by
  unfold State.permitted; exact if_pos (.inr h)

variable {offset : BitVec 64} {op : MemOp}

theorem exec_bar2Access_of_inReset (hr : s.inReset die.val = true) :
    exec (.bar2Access die offset op ecc) s = .next { s with answer := [] } := if_pos hr

/-- Inside STAGE of an open context a host's read without memory errors delivers the bytes of deep memory. -/
theorem exec_bar2Access_read_of_inStage (hr : s.inReset die.val = false) (hc : s.get (CTX.STATE.on die.val) ≠ 0)
    (hi : offset.toNat + n.toNat ≤ s.partSize die.val 3) :
    exec (.bar2Access die offset (.read n) ⟨[], []⟩) s = .next
      { s with answer := s.readBytes die.val (s.partBase die.val 3 + offset.toNat) n.toNat [] } := by
  show execBar2Access die offset (.read n) ⟨[], []⟩ s = _
  unfold execBar2Access State.access
  simp [opLength, hr, hc, hi, State.permitted_of_unchecked]

/-- Inside STAGE of an open context a host's write without memory errors stores its bytes in deep memory. -/
theorem exec_bar2Access_write_of_inStage (hr : s.inReset die.val = false) (hc : s.get (CTX.STATE.on die.val) ≠ 0)
    (hi : offset.toNat + data.length ≤ s.partSize die.val 3) :
    exec (.bar2Access die offset (.write data) ⟨[], []⟩) s = .next
      { s.writeBytes die.val (s.partBase die.val 3 + offset.toNat) data with answer := [] } := by
  show execBar2Access die offset (.write data) ⟨[], []⟩ s = _
  unfold execBar2Access State.access
  simp [opLength, hr, hc, hi, State.permitted_of_unchecked]

/-- Recording an event of a die leaves the state of its context alone. -/
theorem State.get_ctxState_dieEvent {p : Page} {d code : Nat} :
    (s.dieEvent d p code).get (CTX.STATE.on d) = s.get (CTX.STATE.on d) := by
  refine s.get_dieEvent d p code 0 0 0 0 _ ?_
  simp [devqKey, Reg.on, Reg.clAt, Reg.at, Reg.offset, Reg.chipOf, fieldKey, CTX.STATE, DEVQ.FILL, DEVQ.LOST, DEVQI.LOST_SINCE, CSB.IRQ,
    reg, ireg, Reg.arr, clachasel]
  omega

/-- Outside STAGE, or with no context open, a host's access is refused, and recorded as a fault while a context is open. -/
theorem exec_bar2Access_of_refused (hr : s.inReset die.val = false)
    (h : ¬ (s.get (CTX.STATE.on die.val) ≠ 0 ∧ offset.toNat + opLength op ≤ s.partSize die.val 3)) :
    exec (.bar2Access die offset op ecc) s = .next (
      let u := { s.dieEvent die.val WIN.page 0x1510 with
        answer := if opWrites op then [] else List.replicate (opLength op) (0xFF : Byte) }
      if s.get (CTX.STATE.on die.val) = 0 then u
      else u.faultRecord die.val 4 [offset.toNat % 4294967296, offset.toNat / 4294967296, opLength op, (opWrites op).toNat, 0, 0, 0, 0]) := by
  have state (a : List Byte) : State.get { s.dieEvent die.val WIN.page 0x1510 with answer := a } (CTX.STATE.on die.val) =
    s.get (CTX.STATE.on die.val) := State.get_ctxState_dieEvent
  rw [← state]
  exact (if_neg (by simp [hr])).trans (if_neg h)

end Access

/-! The stacks and the windows (R69, R271, R275, R278). -/

section Stacks

variable {s : State} {die : DieNo} {stack : Fin 4} {req : Requester} {window : Fin 16} {rights : BitVec 3}

/-- The scrubber counts the errors of its granule and goes on to the next, or, past the last, counts a pass and begins again. -/
theorem exec_scrubRead {ecc : Ecc} (hr : s.inReset die.val = false) (ht : s.is (HBM.TRAINED.at die.val stack.val) = true) :
    exec (.scrubRead die stack ecc) s = .next (
      let j := s.get (MEMI.SCRUB.at die.val stack.val)
      let a := scrubAddr stack.val j
      let u := s.each (ecc.corrected.filter (fun k => unitIn k a 256)) (fun u k => u.countCe die.val (32 * k))
      let v := u.each (ecc.bad.filter (fun k => unitIn k a 256)) (fun u k => u.countUe die.val (32 * k))
      if j + 1 < scrubGranules then v.set (MEMI.SCRUB.at die.val stack.val) (j + 1)
      else (v.set (MEMI.SCRUB.at die.val stack.val) 0).count (HBM.SCRUB_PASSES.at die.val stack.val)) := by
  show execScrubRead die stack ecc s = _
  unfold execScrubRead
  rw [if_neg (by simp [hr, ht])]
  exact (apply_ite Host.Outcome.next _ _ _).symm

/-- The rights of a window stand apart from the bounds of windows and of partitions. -/
theorem rights_key_ne {d k i : Nat} : ∀ r ∈ [WIN.R, WIN.W, WIN.X], ∀ x ∈ [WIN.BASE, WIN.LIMIT, PART.BASE, PART.SIZE],
    (r.at d k).key ≠ (x.at d i).key := by
  intro r hr x hx
  refine Reg.key_at_ne ?_ ?_
  · revert r x; decide
  · simp only [List.mem_cons, List.not_mem_nil, or_false] at hr hx
    rcases hr with rfl | rfl | rfl <;> rcases hx with rfl | rfl | rfl | rfl <;>
      simp [Reg.offset, WIN.R, WIN.W, WIN.X, WIN.BASE, WIN.LIMIT, PART.BASE, PART.SIZE, reg, Reg.arr, Reg.shadow] <;> omega

/-- Writing the rights of a window leaves the bounds of windows and of partitions alone. -/
theorem State.get_set_rights {d k i a b c : Nat} {x : Reg} (hx : x ∈ [WIN.BASE, WIN.LIMIT, PART.BASE, PART.SIZE]) :
    (((s.set (WIN.R.at d k) a).set (WIN.W.at d k) b).set (WIN.X.at d k) c).get (x.at d i) = s.get (x.at d i) := by
  rw [State.get_set_ne _ _ _ _ (rights_key_ne WIN.X (by simp) x hx), State.get_set_ne _ _ _ _ (rights_key_ne WIN.W (by simp) x hx),
    State.get_set_ne _ _ _ _ (rights_key_ne WIN.R (by simp) x hx)]

theorem State.inPartition_set_rights {d k a b c lo hi : Nat} :
    (((s.set (WIN.R.at d k) a).set (WIN.W.at d k) b).set (WIN.X.at d k) c).inPartition d lo hi = s.inPartition d lo hi := by
  simp only [State.inPartition, State.get_set_rights (x := PART.BASE) (by simp), State.get_set_rights (x := PART.SIZE) (by simp)]

/-- A write that sets EN of a window is barred where the carve is locked, then where the window is enabled; else the rights are
written, and the window is enabled if it is sound (R275, R278). -/
theorem exec_windowEnable (h : s.Reaches die.val WIN.page WIN.EN window.val req) :
    exec (.windowEnable req die window rights) s = .next (
      if s.is (PART.CARVE_LOCKED.on die.val) then
        s.regFault die.val WIN.page WIN.EN window.val .lockViol req.val (rights.toNat + 2147483648)
      else if s.is (WIN.EN.at die.val window.val) then
        s.regFault die.val WIN.page WIN.EN window.val .accessErr req.val (rights.toNat + 2147483648)
      else
        let u := s.set (WIN.R.at die.val window.val) (rights.toNat % 2)
        let v := (u.set (WIN.W.at die.val window.val) (rights.toNat / 2 % 2)).set (WIN.X.at die.val window.val) (rights.toNat / 4)
        if s.get (WIN.BASE.at die.val window.val) ≤ s.get (WIN.LIMIT.at die.val window.val) ∧
            s.inPartition die.val (s.get (WIN.BASE.at die.val window.val)) (s.get (WIN.LIMIT.at die.val window.val)) then
          v.set (WIN.EN.at die.val window.val) 1
        else v.regFault die.val WIN.page WIN.EN window.val .cfgMismatch req.val (rights.toNat + 2147483648)) := by
  refine congrArg Host.Outcome.next ((State.onWrite_of_reaches s h).trans ?_)
  dsimp only
  rw [State.get_set_rights (x := WIN.BASE) (by simp), State.get_set_rights (x := WIN.LIMIT) (by simp), State.inPartition_set_rights]

end Stacks

/-- Settles O20, by what is permitted, by STAGE and the context, by the scrubber's place, and by the checks of a window. -/
theorem deepMemoryIsReadWrittenAndKept : Obligations.DeepMemoryIsReadWrittenAndKept := by
  unfold Obligations.DeepMemoryIsReadWrittenAndKept
  and_intros
  · exact fun s die agent a ecc data hr hp => exec_memoryAccess_write ecc hr hp
  · exact fun s die agent a ecc n hr hp => exec_memoryAccess_read hr hp
  · exact fun s die agent a ecc data hr hp => exec_memoryAccess_write_of_refused hr hp
  · exact fun s die agent a ecc n hr hp => exec_memoryAccess_read_of_refused hr hp
  · exact fun s die offset op ecc hr => exec_bar2Access_of_inReset hr
  · exact fun s die offset n hr hc hi => exec_bar2Access_read_of_inStage hr hc hi
  · exact fun s die offset data hr hc hi => exec_bar2Access_write_of_inStage hr hc hi
  · intro s die offset ecc n hr closed
    exact (exec_bar2Access_of_refused hr fun h => h.1 closed).trans (congrArg _ (if_pos closed))
  · intro s die offset ecc op hr hc outside
    exact (exec_bar2Access_of_refused hr fun h => by omega).trans (congrArg _ (if_neg hc))
  · exact fun s die stack ecc hr ht hl => (exec_scrubRead hr ht).trans (congrArg _ (if_pos hl))
  · exact fun s die stack ecc hr ht hl => (exec_scrubRead hr ht).trans (congrArg _ (if_neg (Nat.not_lt.2 hl)))
  · exact fun s die stack => rfl
  · exact fun s die stack celsius hr => if_neg (by simp [hr])
  · exact fun s die stack hr => if_neg (by simp [hr])
  · exact fun s req die w rights h hl hn => (exec_windowEnable h).trans (by simp [hl, hn])
  · exact fun s req die w rights h hl hn => (exec_windowEnable h).trans (by simp [hl, hn])
  · exact fun s req die w rights h hl => (exec_windowEnable h).trans (by simp [hl])

end Sys2Proof.Machine
end

section
/-! SUPPORT. Proofs of spec/02_register_pages.md: spent fuses, reads of registers, the state at reset, keyrings and loads, locks, soft
resets and commits, the supervisor line, the calendar and trust. -/

namespace Sys2Proof.Machine

/-! What is spent stays spent (R57, R59, R60). -/

/-- A step, idling or running a command, leaves a spent fuse spent. -/
theorem Steps.fuseSpent {s t : State} {k : Nat} (hs : Steps s t) (h : s.fuseSpent k) : t.fuseSpent k := by
  cases hq : s.pending with
  | nil =>
    have e : { s with clock := s.clock + 1 } = t := Host.Outcome.next.inj ((step_of_pending_nil hq).symm.trans hs)
    exact e ▸ h
  | cons c rest =>
    obtain ⟨u, hu, hk⟩ := (keeps_exec c { s with pending := rest }).next
    have e : u = t := Host.Outcome.next.inj (((step_of_pending_cons hq).trans hu).symm.trans hs)
    exact e ▸ hk.fused k h

/-- Settles O50: what every command keeps includes the spent fuses, and a run is steps. -/
theorem spentFusesStaySpent : Obligations.SpentFusesStaySpent := by
  unfold Obligations.SpentFusesStaySpent
  exact fun s t k hr h => hr.keeps (P := fun s => s.fuseSpent k) (fun _ _ hs => hs.fuseSpent) h

/-! Reads (R46, R47, R49). -/

/-- A 64-bit read is two reads of 32 bits, and answers the bytes of both (R47). -/
theorem exec_lowWordRead_wide {s t u : State} {req : Requester} {chip : Fin 9} {offset : BitVec 24} {enables e : BitVec 4}
    (ht : s.read32 req.val chip.val (offset.toNat / 4 * 4) enables = t)
    (hu : t.read32 req.val chip.val (offset.toNat / 4 * 4 + 4) e = u) :
    exec (.lowWordRead req chip offset enables (some e)) s = .next { u with answer := t.answer ++ u.answer } := by
  subst ht hu; rfl

/-- Settles O51: each read of 32 bits changes the captures and the answer alone, and of the captures the requester's own of the pair
that stands there. -/
theorem noRegisterReadHasASideEffect : Obligations.NoRegisterReadHasASideEffect := by
  unfold Obligations.NoRegisterReadHasASideEffect
  intro s req chip offset enables high here above
  obtain ⟨captures, a, first, frame⟩ := s.read32_captures req.val chip.val _ enables here
  cases high with
  | none =>
    exact ⟨captures, a, exec_lowWordRead first, fun k r other => frame k r (.inl other),
      fun k other => frame k _ (.inr fun lo hi i => other lo hi i _ (by simp))⟩
  | some e =>
    obtain ⟨captures', b, second, frame'⟩ :=
      State.read32_captures { s with capture := captures, answer := a } req.val chip.val _ e (above.resolve_left (by simp))
    refine ⟨captures', a ++ b, exec_lowWordRead_wide first second, fun k r other => ?_, fun k other => ?_⟩
    · exact (frame' k r (.inl other)).trans (frame k r (.inl other))
    · exact (frame' k _ (.inr fun lo hi i => other lo hi i _ (by simp))).trans
        (frame k _ (.inr fun lo hi i => other lo hi i _ (by simp)))

/-! The state at power-on reset (R59). -/

/-- The keys of the factory values rise strictly: each is below the next. -/
theorem factoryValues_rising : Rising factoryValues := by
  have next_above : factoryValues.IsChain (fun a b => a.1 < b.1) := by decide +kernel
  exact List.isChain_iff_pairwise.1 next_above

/-- Settles O48: the factory values rise by key, and no other table lists anything. -/
theorem resetIsWellFormed : Obligations.ResetIsWellFormed := by
  unfold Obligations.ResetIsWellFormed
  exact ⟨⟨⟨rising_nil, rising_nil, factoryValues_rising, rising_nil⟩, rfl⟩, rfl, rfl⟩

/-- At power-on reset a field that is no factory field reads its Reset value. -/
theorem State.get_reset {f : Field} (h : f.factory = false) : State.reset.get f = f.reset := by
  unfold State.get; rw [h]; rfl

/-- A field of a register whose array elements share one Reset value reads that value at power-on reset. -/
theorem State.get_reset_at {r : Reg} {v : Nat} (chip i : Nat) (hf : r.factory = false) (hv : r.reset = v) (hr : r.resets = []) :
    State.reset.get (r.at chip i) = v := by
  rw [State.get_reset hf, Reg.at, hr]; exact hv

/-- Settles O58: none of these registers is a factory register, so that each reads the Reset value its page table gives. -/
theorem resetValuesAreThoseOfThePages : Obligations.ResetValuesAreThoseOfThePages := by
  unfold Obligations.ResetValuesAreThoseOfThePages
  and_intros
  all_goals
    intros
    and_intros
  all_goals exact State.get_reset_at _ _ rfl rfl rfl

/-! Writes of fuses (R57, R58). -/

/-- A FUSE field listed as spent is not open. -/
theorem State.fuseOpen_of_spent {s : State} {chip i : Nat} {r : Reg} (h : s.spent.contains (fuseKey (r.at chip i)) = true) :
    s.fuseOpen chip r i = false := by
  unfold State.fuseOpen; rw [h]; rfl

/-- A write of a FUSE field that is not open is barred with LOCK_VIOL, whoever asks (R58). -/
theorem State.writeBar_of_fuse_closed {s : State} {chip i req : Nat} {p : Page} {r : Reg} (hs : s.resetting chip p (r.instOf p i) = false)
    (hk : r.kind = .fuse) (ho : s.fuseOpen chip r i = false) : s.writeBar chip p r i req = some .lockViol := by
  have locked : s.lockedField chip p (r.instOf p i) r i = true := by
    unfold State.lockedField; rw [hk, ho]; simp
  unfold State.writeBar
  rw [if_neg (by simp [hs]), if_pos locked]

/-- The fuse of a group of columns. -/
abbrev fuseCol (group : Fin 4) : Reg :=
  [CSKIP.FUSE_COL_0, CSKIP.FUSE_COL_1, CSKIP.FUSE_COL_2, CSKIP.FUSE_COL_3].getD group.val CSKIP.FUSE_COL_0

theorem fuseCol_kind (group : Fin 4) : (fuseCol group).kind = .fuse := by
  revert group; decide

theorem fuseCol_instOf (group : Fin 4) : (fuseCol group).instOf CSKIP.page 0 = 0 := by
  revert group; decide

section Keyring

variable {s : State} {req : Requester} {die : DieNo} {key : BitVec 12} {cycles : BitVec 16} {ecc : Ecc} {k : Key}

theorem exec_fuseCol {group : Fin 4} {column : BitVec 5} :
    exec (.fuseCol req die group column) s = .next (s.onWrite die.val CSKIP.page (fuseCol group) 0 req.val
      (column.toNat * 2 ^ (8 * group.val)) (fun u =>
        { (u.set ((fuseCol group).on die.val) column.toNat).setBit (CSKIP.FUSED.on die.val) group.val true with
          spent := fuseKey ((fuseCol group).on die.val) :: u.spent })) := rfl

/-! Keyring checks (R245). -/

theorem exec_keyringCheck (h : s.Reaches die.val KRING.page KRING.CHECK 0 req) :
    exec (.keyringCheck req die) s = .next (if s.is (KRING.CHECKING.on die.val) then s
      else ((s.set (KRING.CHECKING.on die.val) 1).set (KRING.VERIFIED.on die.val) 0).set (KRING.VERDICT.on die.val) 0) :=
  congrArg Host.Outcome.next (State.onWrite_of_reaches s h)

/-! Loads (R246, R247, R676). -/

/-- Writing the number of the next key changes no other field of the die's pages. -/
theorem State.is_set_nextKey {n : Nat} {x : Reg} (hx : x.internal = false)
    (place : 32 * ARRAY.NEXT_KEY.offset 0 + ARRAY.NEXT_KEY.lo ≠ 32 * x.offset 0 + x.lo) :
    (s.set (ARRAY.NEXT_KEY.on die.val) n).is (x.on die.val) = s.is (x.on die.val) :=
  s.is_set_ne _ _ _ (Reg.key_at_ne hx.symm place)

theorem State.phaseIs_set_nextKey {n : Nat} {ph : Phase} :
    (s.set (ARRAY.NEXT_KEY.on die.val) n).phaseIs die.val ph = s.phaseIs die.val ph := by
  unfold State.phaseIs; rw [s.get_set_ne (ARRAY.NEXT_KEY.on die.val) (ARRAY.PHASE.on die.val) n (Reg.key_at_ne rfl (by decide))]

/-- A write of LOAD waits during a test of the tumblers and during the steps of a hinge; at other times the load begins. -/
theorem exec_load (h : s.Reaches die.val ARRAY.page ARRAY.LOAD 0 req) :
    exec (.load req die key) s = .next (
      let u := s.set (ARRAY.NEXT_KEY.on die.val) key.toNat
      if s.is (STEST.TUMBLER_RUN.on die.val) ∨ s.phaseIs die.val .swap then
        (u.set (ARRAY.LOAD.on die.val) 1).set (ARRI.LOAD_REQ.on die.val) req.val
      else u.beginLoad die.val key.toNat req.val) := by
  refine congrArg Host.Outcome.next ((State.onWrite_of_reaches s h).trans ?_)
  dsimp only
  rw [State.is_set_nextKey rfl (by decide), State.phaseIs_set_nextKey]

theorem State.beginLoad_of_verified {d n r : Nat} (hv : s.is (KRING.VERIFIED.on d) = true) (hl : s.is (ARRAY.LOADING.on d) = false) :
    s.beginLoad d n r =
      let form := s.loadForm d n
      let v := ((s.set (ARRAY.LOADING.on d) 1).set (ARRAY.SHADOW_KEY.on d) n).set (ARRAY.SHADOW_READY.on d) 0
      let w := ((v.set (ARRI.LOAD_FORM.on d) form).set (ARRI.REFUSED.on d) 0).set (ARRI.LOADED.on d) 0
      let x := w.onDie d (fun x => { x with shadowKey := none })
      x.chooseEntry d n ((x.keyFlags (x.formAt d (x.ringBase d) form) n).testBit 0) := by
  unfold State.beginLoad; rw [if_neg (by simp [hv, hl])]

theorem State.beginLoad_of_unverified_or_loading {d n r : Nat}
    (h : s.is (KRING.VERIFIED.on d) = false ∨ s.is (ARRAY.LOADING.on d) = true) :
    s.beginLoad d n r = s.regFault d ARRAY.page ARRAY.LOAD 0 .accessErr r (n + 65536) := by
  unfold State.beginLoad; exact if_pos (h.imp (by simp [·]) id)

theorem exec_shadowReady_of_no_load (h : s.is (ARRAY.LOADING.on die.val) = false ∨ s.is (SCAN.SCANNING.on die.val) = true) :
    exec (.shadowReady die cycles ecc) s = .next s :=
  if_pos (.inr (h.imp (by simp [·]) id))

/-! The end of a section (R176, R252). -/

theorem exec_sectionEnd (ha : (s.die die.val).active = some k) :
    exec (.sectionEnd die) s =
      if s.inReset die.val ∨ ¬ s.phaseIs die.val .inSection ∨ s.is (ARRAY.FROZEN.on die.val) ∨ s.is (SCAN.SCANNING.on die.val) ∨
          ¬ s.sectionIssued die.val k then .next s
      else .next (((s.set (ARRAY.SECTION_CYCLE.on die.val) k.cycles).gatherStretch die.val).setPhase die.val .quiesce) := by
  show execSectionEnd die s = _
  unfold execSectionEnd; simp only [ha]

end Keyring

/-- Settles O22, by the branches of each command: a fuse that is open or not, a checker and a load that run or not, and the first refusal
of a check or none. -/
theorem keyringsAreCheckedAndKeysLoaded : Obligations.KeyringsAreCheckedAndKeysLoaded := by
  unfold Obligations.KeyringsAreCheckedAndKeysLoaded
  and_intros
  · exact fun s req die group column h => exec_fuseCol.trans (congrArg _ (State.onWrite_of_reaches s h))
  · exact fun s req die group column hr hs ho => exec_fuseCol.trans (congrArg _ (State.onWrite_of_barred s hr
      (State.writeBar_of_fuse_closed ((fuseCol_instOf group).symm ▸ hs) (fuseCol_kind group) ho)))
  · exact fun s req die h hc => (exec_keyringCheck h).trans (by simp [hc])
  · exact fun s req die h hc => (exec_keyringCheck h).trans (by simp [hc])
  · intro s die ecc hr hc
    show execKeyringCheckDone die ecc s = _
    unfold execKeyringCheckDone
    rw [if_neg (by simp [hr, hc])]
    dsimp only
    split -- the match of the meaning; `found` then resolves the statement's own
    next found => simp only [found]
    next found => simp only [found]
  · exact fun s req die key h waits => (exec_load h).trans (congrArg _ (if_pos waits))
  · intro s req die key h ht hp hv hl
    refine (exec_load h).trans (congrArg _ ((if_neg (by simp [ht, hp])).trans (State.beginLoad_of_verified
      ((State.is_set_nextKey rfl (by decide)).trans hv) ((State.is_set_nextKey rfl (by decide)).trans hl))))
  · intro s req die key h ht hp refused
    refine (exec_load h).trans (congrArg _ ((if_neg (by simp [ht, hp])).trans (State.beginLoad_of_unverified_or_loading
      (refused.imp (State.is_set_nextKey rfl (by decide)).trans (State.is_set_nextKey rfl (by decide)).trans))))
  · intro s die cycles ecc hr hl hc
    show execShadowReady die cycles ecc s = _
    unfold execShadowReady
    rw [if_neg (by simp [hr, hl, hc])]
    dsimp only
    split
    next found => simp only [found]
    next found => simp only [found]
  · exact fun s die cycles ecc h => exec_shadowReady_of_no_load h
  · exact fun s die k ha hr hp hf hc hi => (exec_sectionEnd ha).trans (if_neg (by simp [hr, hp, hf, hc, hi]))
  · exact fun s die k ha h => (exec_sectionEnd ha).trans (if_pos (by rcases h with h | h <;> simp [h]))
  · exact fun s die hr hp hg => if_neg (by simp [hr, hp, hg])

/-! Locks, soft resets and commits (R56, R60, R61, R64 to R66, R154): a command to the header of a page that is served acts there. -/

section Pages

variable {s : State} {chip : Nat} {c : Fin 9} {p : Page} {inst req value : Nat} {page : Fin 4096} {q : Requester} {v : BitVec 32}

theorem exec_pageLock (hr : s.inReset c.val = false) (hp : pageAt c.val (4096 * page.val + 0x18) = some (p, inst))
    (hu : s.unserved c.val p = false) : exec (.pageLock q c page) s = .next (s.lockPage c.val p inst q.val 1) :=
  congrArg Host.Outcome.next (State.toPage_of_page hr hp hu)

theorem exec_softReset (hr : s.inReset c.val = false) (hp : pageAt c.val (4096 * page.val + 8) = some (p, inst))
    (hu : s.unserved c.val p = false) : exec (.softReset q c page) s = .next (s.softReset c.val p inst) :=
  congrArg Host.Outcome.next (State.toPage_of_page hr hp hu)

theorem exec_commitRequest (hr : s.inReset c.val = false) (hp : pageAt c.val (4096 * page.val + 0x20) = some (p, inst))
    (hu : s.unserved c.val p = false) :
    exec (.commitRequest q c page v) s = .next (s.commitRequest c.val p inst q.val v.toNat) :=
  congrArg Host.Outcome.next (State.toPage_of_page hr hp hu)

theorem exec_softResetEnd (hp : pageAt c.val (4096 * page.val) = some (p, inst)) :
    exec (.softResetEnd c page) s = .next (s.softResetEnd c.val p inst) := by
  show execSoftResetEnd c page s = _
  unfold execSoftResetEnd; simp only [hp]

theorem exec_commitApply (hp : pageAt c.val (4096 * page.val) = some (p, inst)) :
    exec (.commitApply c page) s = .next (
      if s.is (hdr HDR.COMMIT_PENDING c.val (p.at inst)) ∧ ¬ waitsForHinge c.val p then s.commitApply c.val p inst else s) := by
  show execCommitApply c page s = _
  unfold execCommitApply; simp only [hp]

/-- A lock of a page of the Clachasel is set, but that MCCTL accepts it from MC0 alone, once every core is ready (R56, R154). -/
theorem State.lockPage_clachasel (hc : chip = 8) :
    s.lockPage chip p inst req 1 =
      if p.base = MCCTL.page.base ∧ (req ≠ 1 ∨ s.get CSYS.CORE_READY.cl ≠ 0xF) then
        s.pageFault chip p inst .accessErr req (p.at inst + 0x18) 1
      else s.set (hdr HDR.LOCK chip (p.at inst)) 1 := by
  unfold State.lockPage; simp [hc]

/-- A lock of a page of a die is set, but that WCORE accepts it from its own warden alone (R56, R154). -/
theorem State.lockPage_die (hc : chip < 8) :
    s.lockPage chip p inst req 1 =
      if p.base = WCORE.page.base ∧ req ≠ inst then s.pageFault chip p inst .accessErr req (p.at inst + 0x18) 1
      else s.set (hdr HDR.LOCK chip (p.at inst)) 1 := by
  unfold State.lockPage; simp [hc]

/-- A commit of a page of the Clachasel is checked for its generation, then for a consistent set (R64, R65). -/
theorem State.commitRequest_clachasel (hc : chip = 8) :
    s.commitRequest chip p inst req value =
      if s.resetting chip p inst ∨ s.is (hdr HDR.COMMIT_PENDING chip (p.at inst)) ∨
          value ≠ (s.get (hdr HDR.GEN chip (p.at inst)) + 1) % 4294967296 then
        s.pageFault chip p inst .accessErr req (p.at inst + 0x020) value
      else if ¬ s.consistent chip p inst then s.pageFault chip p inst .cfgMismatch req (p.at inst + 0x020) value
      else s.set (hdr HDR.COMMIT_PENDING chip (p.at inst)) 1 := by
  subst hc
  unfold State.commitRequest
  simp

end Pages

/-- Settles O40: each command reaches its page, and there a lock, a soft reset or a commit has its cases in order. -/
theorem pagesAreLockedResetAndCommitted : Obligations.PagesAreLockedResetAndCommitted := by
  unfold Obligations.PagesAreLockedResetAndCommitted
  and_intros
  · exact fun s q c page p inst hr hp hu hc other =>
      (exec_pageLock hr hp hu).trans (congrArg _ ((State.lockPage_clachasel hc).trans (if_neg (by simp [other]))))
  · exact fun s q c page p inst hr hp hu hc own barred =>
      (exec_pageLock hr hp hu).trans (congrArg _ ((State.lockPage_clachasel hc).trans (if_pos ⟨own, barred⟩)))
  · exact fun s q c page p inst hr hp hu hc open_ =>
      (exec_pageLock hr hp hu).trans (congrArg _ ((State.lockPage_die hc).trans (if_neg fun ⟨own, other⟩ => open_.elim (· own) other)))
  · exact fun s q c page p inst hr hp hu hc own barred =>
      (exec_pageLock hr hp hu).trans (congrArg _ ((State.lockPage_die hc).trans (if_pos ⟨own, barred⟩)))
  · exact fun s q c page p inst hr hp hu hs => (exec_softReset hr hp hu).trans (congrArg _ (if_neg (by simp [hs])))
  · exact fun s q c page p inst hr hp hu hs => (exec_softReset hr hp hu).trans (congrArg _ (if_pos hs))
  · exact fun s c page p inst hp hs => (exec_softResetEnd hp).trans (congrArg _ (if_neg (by simp [hs])))
  · exact fun s q c page v p inst hr hp hu hc hs idle next whole => (exec_commitRequest hr hp hu).trans
      (congrArg _ ((State.commitRequest_clachasel hc).trans (by simp [hs, idle, next, whole])))
  · exact fun s q c page v p inst hr hp hu hc refused => (exec_commitRequest hr hp hu).trans
      (congrArg _ ((State.commitRequest_clachasel hc).trans (if_pos (.inr refused))))
  · exact fun s q c page v p inst hr hp hu hc hs idle next bad => (exec_commitRequest hr hp hu).trans
      (congrArg _ ((State.commitRequest_clachasel hc).trans (by simp [hs, idle, next, bad])))
  · exact fun s c page p inst hp pending now => (exec_commitApply hp).trans (congrArg _ (if_pos ⟨pending, by simp [now]⟩))
  · exact fun s c page p inst hp idle => (exec_commitApply hp).trans (congrArg _ (if_neg (by simp [idle])))

/-! The supervisor line and the calendar (R608, R613 to R617). -/

section Supervisor

variable {s : State} {req : Requester} {key : Fin 4}

theorem exec_replyDeadline_of_some {i : Nat} {x : RxFrame}
    (hi : s.rxq.findIdx? (fun y => !y.late && decide (y.arrived + 1000 ≤ s.clock)) = some i) (hx : s.rxq[i]? = some x) :
    exec .replyDeadline s = .next (State.replyBusy { s with rxq := s.rxq.set i { x with late := true } } x.frame) := by
  show execReplyDeadline s = _
  unfold execReplyDeadline; simp only [hi, hx]

theorem exec_replyDeadline_of_none
    (hi : s.rxq.findIdx? (fun y => !y.late && decide (y.arrived + 1000 ≤ s.clock)) = none) : exec .replyDeadline s = .next s := by
  show execReplyDeadline s = _
  unfold execReplyDeadline; simp only [hi]

/-- A load that is let through takes its value, but for a load backwards (R614). -/
theorem exec_calendarLoad {value : BitVec 64} (h : s.Reaches clachasel CAL.page CAL.TIME_HI 0 req) :
    exec (.calendarLoad req value) s = .next (s.loadCalendar req.val value.toNat) :=
  congrArg Host.Outcome.next (State.onWrite_of_reaches s h)

theorem exec_supplySwitchover {millivolts : BitVec 16} :
    exec (.supplySwitchover millivolts) s = .next (
      if millivolts.toNat ≤ 3000 then s.set CAL.ON_VBAT.cl 1
      else if 3100 < millivolts.toNat then s.set CAL.ON_VBAT.cl 0 else s) := rfl

theorem exec_vbatSample {millivolts : BitVec 16} :
    exec (.vbatSample millivolts) s = .next (
      if millivolts.toNat < 2200 ∧ ¬ s.is CAL.BAT_LOW.cl then (s.set CAL.BAT_LOW.cl 1).event CAL.page 0x3905
      else if 2300 < millivolts.toNat then s.set CAL.BAT_LOW.cl 0 else s) := rfl

theorem exec_calendarTick :
    exec .calendarTick s = .next (
      if s.get CAL.SLEW.cl = 0 then (s.set SUPVI.SLEW_PHASE.cl 0).setPair CAL.TIME_LO.cl CAL.TIME_HI.cl (s.trayTime + 1)
      else if s.get SUPVI.SLEW_PHASE.cl = 31 then (s.set SUPVI.SLEW_PHASE.cl 0).set CAL.SLEW.cl (s.get CAL.SLEW.cl - 1)
      else (s.wrap SUPVI.SLEW_PHASE.cl).setPair CAL.TIME_LO.cl CAL.TIME_HI.cl (s.trayTime + 1)) := rfl

/-! Trust (R623, R625). -/

theorem revoke_instOf (key : Fin 4) : TRAYID.REVOKE.instOf TRAYID.page key.val = 0 := by
  revert key; decide

theorem exec_revoke {value : BitVec 1} (h : s.Reaches clachasel TRAYID.page TRAYID.REVOKE key.val req) :
    exec (.revoke req key value) s = .next (
      if key.val = s.get TRAYID.KEY_IN_FORCE.cl then s.regFault clachasel TRAYID.page TRAYID.REVOKE key.val .accessErr req.val value.toNat
      else
        let u := { s.set (TRAYID.REVOKE.clAt key.val) value.toNat with spent := fuseKey (TRAYID.REVOKE.clAt key.val) :: s.spent }
        if value = 1 then u.event TRAYID.page 0x3908 else u) :=
  congrArg Host.Outcome.next (State.onWrite_of_reaches s h)

theorem exec_revoke_of_barred {value : BitVec 1} {b : FaultBit} (hr : s.inReset clachasel = false)
    (hb : s.writeBar clachasel TRAYID.page TRAYID.REVOKE key.val req.val = some b) :
    exec (.revoke req key value) s = .next (s.regFault clachasel TRAYID.page TRAYID.REVOKE key.val b req.val value.toNat) :=
  congrArg Host.Outcome.next (State.onWrite_of_barred s hr hb)

end Supervisor

/-- Settles O38, by the branches of each row; a barred REVOKE is the write of a fuse that is spent. -/
theorem theLineTheCalendarAndTrustFollowTheirRules : Obligations.TheLineTheCalendarAndTrustFollowTheirRules := by
  unfold Obligations.TheLineTheCalendarAndTrustFollowTheirRules
  and_intros
  · exact fun s i x hi hx => exec_replyDeadline_of_some hi hx
  · exact fun s hi => exec_replyDeadline_of_none hi
  · exact fun s req h => congrArg Host.Outcome.next (State.onWrite_of_reaches s h)
  · exact fun s req h => congrArg Host.Outcome.next (State.onWrite_of_reaches s h)
  · exact fun s sending => congrArg Host.Outcome.next (if_neg (by simp [sending]))
  · exact fun s idle => congrArg Host.Outcome.next (if_pos (by simp [idle]))
  · exact fun s runs heard held => congrArg Host.Outcome.next (if_neg (by simp [runs, heard, held]))
  · exact fun s h => congrArg Host.Outcome.next (if_pos (.inr (h.imp id (by simp [·]))))
  · exact fun s steady => exec_calendarTick.trans (by simp [steady])
  · exact fun s slews phase => exec_calendarTick.trans (by simp [slews, phase])
  · exact fun s slews phase => exec_calendarTick.trans (by simp [slews, phase])
  · exact fun s req value h forward => (exec_calendarLoad h).trans (congrArg _ (if_neg (Nat.not_lt.2 forward)))
  · exact fun s req value h backward => (exec_calendarLoad h).trans (congrArg _ (if_pos backward))
  · exact fun s req ticks h => congrArg Host.Outcome.next (State.onWrite_of_reaches s h)
  · exact fun s mv low => exec_supplySwitchover.trans (congrArg _ (if_pos low))
  · exact fun s mv high => exec_supplySwitchover.trans (congrArg _ ((if_neg (by omega)).trans (if_pos high)))
  · exact fun s mv above below => exec_supplySwitchover.trans (congrArg _ ((if_neg (by omega)).trans (if_neg (by omega))))
  · exact fun s mv low first => exec_vbatSample.trans (congrArg _ (if_pos ⟨low, by simp [first]⟩))
  · exact fun s mv high => exec_vbatSample.trans (congrArg _ ((if_neg (by omega)).trans (if_pos high)))
  · exact fun s mv below h => exec_vbatSample.trans (congrArg _
      ((if_neg (by rcases h with h | h <;> simp [h])).trans (if_neg (by omega))))
  · exact fun s req key value h own => (exec_revoke h).trans (congrArg _ (if_pos own))
  · exact fun s req key value hr hs spent => exec_revoke_of_barred hr
      (State.writeBar_of_fuse_closed ((revoke_instOf key).symm ▸ hs) rfl (State.fuseOpen_of_spent spent))
  · exact fun s req key h other => (exec_revoke h).trans (congrArg _ (if_neg other))
  · exact fun s req key h other => (exec_revoke h).trans (congrArg _ (if_neg other))
  · exact fun s => rfl

end Sys2Proof.Machine
end

section
/-! SUPPORT. Proofs of spec/03_rails.md: supplies and sidebands, the sequencer, power failure and the tray reset, the emulated page,
operating points and scans, temperatures. -/

namespace Sys2Proof.Machine

/-! Supplies, PLLs and sidebands (R80, R121 to R126, R141, R639). -/

section Supplies

variable {s : State} {die : DieNo} {pll : Fin 11} {f : Field × Nat}

/-- The lock bits of the link PLLs stand in one field, in the order of the PLLs. -/
theorem pllLock_link {d k : Nat} (h : 1 ≤ k ∧ k ≤ 6) : pllLock d k = (DCLK.LG_LOCK.on d, k - 1) := by
  obtain ⟨l, u⟩ := h
  interval_cases k <;> rfl

/-- A PLL that was locked, in a die out of reset, loses its lock; it is a die fault, but for the idle PLL with no change pending. -/
theorem exec_diePllLoss_of_locked (hf : pllLock die.val pll.val = f) (hr : s.inReset die.val = false) (hl : s.bit f.1 f.2 = true) :
    exec (.diePllLoss die pll) s = .next (
      if pll.val = 10 ∧ ¬ s.changePending die.val then s.setBit f.1 f.2 false
      else ((s.setBit f.1 f.2 false).count (DCLK.LOL_COUNT.on die.val)).dieFault die.val 0) := by
  subst hf
  exact (if_neg (by simp [hr, hl])).trans (apply_ite Host.Outcome.next _ _ _).symm

/-- A change of operating point is pending while a hold runs or a request other than a THROTTLE stands accepted. -/
theorem State.changePending_iff {d : Nat} :
    s.changePending d = true ↔ s.is (HMBX.HOLD_ACTIVE.on d) = true ∨
      (List.range 8).any (fun k => s.get (HMBX.R_STATUS.at d k) = 1 && s.get (HMBX.S_KIND.at d k) % 4 != 2) = true :=
  Bool.or_eq_true_iff

/-- A good sideband frame marks the sideband up and carries results; a bad one is counted, and the fourth in a row marks it DOWN. -/
theorem exec_sidebandFrame (he : s.bit CSB.ENABLE.cl die.val = true) (crcGood : Bool) :
    exec (.sidebandFrame die crcGood) s = .next (
      if crcGood then ((s.set (POWI.SB_FAILS.clAt die.val) 0).set (CSB.UP.clAt die.val) 1).takeResults die.val
      else
        let u := s.count (CSB.CRC_ERR.clAt die.val)
        if s.get (POWI.SB_FAILS.clAt die.val) < 3 then u.count (POWI.SB_FAILS.clAt die.val)
        else (((u.set (POWI.SB_FAILS.clAt die.val) 0).set (CSB.DOWN.clAt die.val) 1).set (CSB.UP.clAt die.val) 0).event CSB.page
          0x3010) := by
  have fails : (s.count (CSB.CRC_ERR.clAt die.val)).get (POWI.SB_FAILS.clAt die.val) = s.get (POWI.SB_FAILS.clAt die.val) :=
    s.get_count_ne _ _ _ (Reg.key_internal_ne rfl rfl (by simp [Reg.offset, CSB.CRC_ERR, reg, Reg.arr]; omega)).symm
  cases crcGood with
  | true => exact if_neg (by simp [he])
  | false =>
    refine (if_neg (by simp [he])).trans ?_
    dsimp only
    rw [fails]
    exact (apply_ite Host.Outcome.next _ _ _).symm

end Supplies

/-- Settles O3, by the condition of each row. -/
theorem suppliesPinsAndSidebandFollowTheirRules : Obligations.SuppliesPinsAndSidebandFollowTheirRules := by
  unfold Obligations.SuppliesPinsAndSidebandFollowTheirRules
  and_intros
  · exact fun s => rfl
  · exact fun s => rfl
  · exact fun s h => if_pos h
  · exact fun s h => if_neg (by simp [h])
  · exact fun s pins runs new => congrArg Host.Outcome.next (if_neg (by simp [runs, new]))
  · exact fun s pins h => congrArg Host.Outcome.next (if_pos h)
  · exact fun s endpoint hd hr => congrArg Host.Outcome.next (if_pos (by simp [hd, hr]))
  · exact fun s endpoint h => congrArg Host.Outcome.next (if_neg (by rcases h with h | h <;> simp [h]))
  · exact fun s die hr hl => (exec_diePllLoss_of_locked (pll := 0) rfl hr hl).trans (congrArg _ (if_neg (by simp)))
  · exact fun s die hr hl => (exec_diePllLoss_of_locked (pll := 7) rfl hr hl).trans (congrArg _ (if_neg (by simp)))
  · exact fun s die hr hl => (exec_diePllLoss_of_locked (pll := 8) rfl hr hl).trans (congrArg _ (if_neg (by simp)))
  · exact fun s die hr hl => (exec_diePllLoss_of_locked (pll := 9) rfl hr hl).trans (congrArg _ (if_neg (by simp)))
  · exact fun s die pll link hr hl =>
      (exec_diePllLoss_of_locked (pllLock_link link) hr hl).trans (congrArg _ (if_neg (by omega)))
  · intro s die hr hl
    refine (exec_diePllLoss_of_locked (pll := 10) rfl hr hl).trans (congrArg _ ?_)
    simp only [← State.changePending_iff]
    cases s.changePending die.val <;> rfl
  · exact fun s die pll h => if_pos (h.imp id (by simp [·]))
  · exact fun s die crcGood h => if_pos (by simp [h])
  · exact fun s die he => exec_sidebandFrame he true
  · exact fun s die he few => (exec_sidebandFrame he false).trans (congrArg _ (if_pos few))
  · exact fun s die he many => (exec_sidebandFrame he false).trans (congrArg _ (if_neg (Nat.not_lt.2 many)))
  · exact fun s h => if_pos h
  · exact fun s h => if_neg h
  · exact fun s => rfl

/-! The sequencer (R83 to R90). -/

section Sequencer

variable {s : State} {req : Requester} {die : DieNo}

theorem exec_mainOn (h : s.Reaches clachasel SEQ.page SEQ.MAIN_ON 0 req) :
    exec (.mainOn req) s = .next (if s.mayPower ∧ s.get SEQ.MAIN.cl = 0 then s.set SEQ.MAIN.cl 1 else s) :=
  congrArg Host.Outcome.next (State.onWrite_of_reaches s h)

theorem exec_up (h : s.Reaches clachasel SEQ.page SEQ.UP 0 req) : exec (.up req) s = .next s.railsUp :=
  congrArg Host.Outcome.next (State.onWrite_of_reaches s h)

/-- DOWN faults the write for a die that is not in reset, then takes down the rails of those that are. -/
theorem exec_down (h : s.Reaches clachasel SEQ.page SEQ.DOWN 0 req) :
    exec (.down req) s = .next (
      (if (diesOf (s.get SEQ.DIE_MASK.cl)).any (fun n => !s.tripped n) then
        s.regFault clachasel SEQ.page SEQ.DOWN 0 .accessErr req.val 8 else s).each (diesOf (s.get SEQ.DIE_MASK.cl))
        (fun u n => if u.tripped n then u.railsDown n 0 else u)) :=
  congrArg Host.Outcome.next (State.onWrite_of_reaches s h)

/-- A rail the sequencer waits for reports power-good: the next rail follows, but for the wait at order 3 and the end after order 8. -/
theorem exec_railPowerGood (hd : s.dieState die.val = 1) {k : Nat} (hk : s.get (RAILI.STEP.clAt die.val) = k) (hw : k ≠ 0 ∧ k ≠ 3) :
    exec (.railPowerGood die) s = .next (
      let u := s.setBit (RAILI.PG.clAt die.val) k true
      let v := if k = 1 then u.thermRises die.val else u
      if k = 8 then ((v.set (RAILI.STEP.clAt die.val) 0).set (RAILI.FRESH.clAt die.val) 1).setDieState die.val 2
      else if k = 2 then v.set (RAILI.STEP.clAt die.val) 3
      else v.enableRail die.val (k + 1)) := by
  subst hk
  refine (if_neg (by simp [hd, hw])).trans ?_
  simp only [apply_ite Host.Outcome.next]

/-- In power-down the highest rail is turned off, with what hangs on it; the last one ends the power-down. -/
theorem exec_railOffStep (hd : s.dieState die.val = 3) :
    exec (.railOffStep die) s = .next (
      let n := die.val
      let k := topRail (s.get (RAILI.ON.clAt n))
      let u := (s.setBit (RAILI.ON.clAt n) k false).setBit (RAILI.PG.clAt n) k false
      let v := if k = 5 then (u.set (OPCTL.OPSEL.clAt n) 0).setBit RAILI.HOLD_TRIP.cl n false else u
      let w := if k = 1 then v.thermFalls n else v
      if w.get (RAILI.ON.clAt n) = 0 then (w.railsOff n).tryResetEnd else w.turnOff n (topRail (w.get (RAILI.ON.clAt n)))) :=
  (if_neg (by simp [hd])).trans (apply_ite Host.Outcome.next _ _ _).symm

end Sequencer

/-- Settles O4, by the bus, the state of the die and the order the sequencer stands at. -/
theorem railsFollowTheSequencer : Obligations.RailsFollowTheSequencer := by
  unfold Obligations.RailsFollowTheSequencer
  and_intros
  · exact fun s req h may off => (exec_mainOn h).trans (congrArg _ (if_pos ⟨may, off⟩))
  · exact fun s req h barred => (exec_mainOn h).trans (congrArg _ (if_neg (by rcases barred with e | e <;> simp [e])))
  · exact fun s req h => congrArg Host.Outcome.next (State.onWrite_of_reaches s h)
  · exact fun s req h may => (exec_up h).trans (congrArg _ (if_neg (by simp [may])))
  · exact fun s req h barred => (exec_up h).trans (congrArg _ (if_pos (by simp [barred])))
  · exact fun s req h all => (exec_down h).trans (by rw [if_neg (by simpa using all)])
  · exact fun s req n h hn up => (exec_down h).trans (by rw [if_pos (List.any_eq_true.2 ⟨n, hn, by simp [up]⟩)])
  · exact fun s req h => congrArg Host.Outcome.next (State.onWrite_of_reaches s h)
  · exact fun s die h => if_pos h
  · exact fun s die hd hk => exec_railPowerGood hd hk (by decide)
  · intro s die hd hk
    simp only [List.mem_cons, List.not_mem_nil, or_false, not_or] at hk
    obtain ⟨h0, h1, h2, h3, h8⟩ := hk
    exact (exec_railPowerGood hd rfl ⟨h0, h3⟩).trans (by simp only [if_neg h1, if_neg h8, if_neg h2])
  · exact fun s die hd hk => exec_railPowerGood hd hk (by decide)
  · exact fun s die hd hk => exec_railPowerGood hd hk (by decide)
  · exact fun s die h => if_pos h
  · exact fun s die hd => exec_railOffStep hd
  · exact fun s die hd h0 h3 => if_neg (by simp [hd, h0, h3])
  · exact fun s die h => if_pos h
  · exact fun s die hd h3 => if_neg (by simp [hd, h3])
  · exact fun s die h => if_pos h
  · exact fun s die rail good => if_neg (by simp [good])
  · exact fun s die rail bad => if_pos (by simp [bad])
  · exact fun s converter up => if_neg (by simp [up])
  · exact fun s converter down => if_pos down
  · exact fun s ramps => if_neg (by simp [ramps])
  · exact fun s other => if_pos other

/-! Power failure, tray states and the tray reset (R113 to R115, R132, R136 to R138). -/

section TrayReset

variable {s : State} {req : Requester} {t : Nat}

/-- The state of the tray stands apart from the fields of power failure and of contexts. -/
theorem State.get_trayState_set {f : Field} {v : Nat} (h : f ∈ [PFAIL.PF_NOW.cl, EVREC.PF_FLUSH.cl, RECI.PF_LIMIT.cl, POWI.CTX_NUM.cl]) :
    (s.set f v).get CSYS.TRAY_STATE.cl = s.get CSYS.TRAY_STATE.cl := by
  refine s.get_set_ne _ _ _ ?_
  revert f; decide

/-- Power returns: a tray in RAILS_UP or later returns to MGMT_READY. -/
theorem exec_powerFailRelease (h : s.is PFAIL.PF_NOW.cl = true) :
    exec .powerFailRelease s = .next (
      let u := ((s.set PFAIL.PF_NOW.cl 0).set EVREC.PF_FLUSH.cl 0).set RECI.PF_LIMIT.cl 0
      let v := if 3 ≤ s.get CSYS.TRAY_STATE.cl then u.toMgmt else u
      if v.get EVREC.FLUSHING.cl = 1 then v.flushPage else v) := by
  refine (if_neg (by simp [h])).trans ?_
  simp only [State.get_trayState_set, List.mem_cons, true_or, or_true]

/-- Input current above IIN_TRIP trips every die and puts the tray out of service; any reading is stored. -/
theorem exec_inputOvercurrent (amps : BitVec 8) :
    exec (.inputOvercurrent amps) s = .next (
      let u := s.set HLS.IIN.cl amps.toNat
      if amps.toNat ≤ s.get HLS.IIN_TRIP.cl then u
      else ((((u.set HLS.IIN_TRIPPED.cl 1).tripAll 5).event HLS.page 0x4203).allRailsDown 4).outOfService 5) := by
  have limit : (s.set HLS.IIN.cl amps.toNat).get HLS.IIN_TRIP.cl = s.get HLS.IIN_TRIP.cl := s.get_set_ne _ _ _ (by decide)
  show execInputOvercurrent amps s = _
  unfold execInputOvercurrent
  simp only [limit, apply_ite Host.Outcome.next]

/-- TRANS_REQ allows no state to follow itself. -/
theorem State.ne_of_transAllowed {new : Nat} (h : s.transAllowed new = true) : s.get CSYS.TRAY_STATE.cl ≠ new := by
  rintro rfl
  unfold State.transAllowed at h
  dsimp only at h
  split at h
  on_goal 10 => exact Bool.false_ne_true h
  all_goals omega

theorem State.toTrayState_of_ne {new : Nat} (h : s.get CSYS.TRAY_STATE.cl ≠ new) :
    s.toTrayState new = (s.set CSYS.TRAY_STATE.cl new).event CSYS.page 0x3004 (s.get CSYS.TRAY_STATE.cl + 256 * new) :=
  if_neg h

/-- TRANS_REQ makes an allowed transition, into MGMT_READY with no context number in force, and is discarded otherwise. -/
theorem exec_transReq {new : BitVec 3} (h : s.Reaches clachasel CSYS.page CSYS.TRANS_REQ 0 req) :
    exec (.transReq req new) s = .next (
      if s.transAllowed new.toNat then if new = 2 then s.toMgmt else s.toTrayState new.toNat
      else s.regFault clachasel CSYS.page CSYS.TRANS_REQ 0 .accessErr req.val new.toNat) :=
  congrArg Host.Outcome.next (State.onWrite_of_reaches s h)

theorem exec_fire (h : s.Reaches clachasel CSYS.page CSYS.FIRE 0 req) : exec (.fire req) s = .next (s.fireReset req.val) :=
  congrArg Host.Outcome.next (State.onWrite_of_reaches s h)

/-- The window of a requester is open for 1 ms after its ARM. -/
theorem State.armOpen_of_some {r : Nat} (h : aget s.armed r = some t) : s.armOpen r = decide (s.clock ≤ t + 1000) := by
  unfold State.armOpen; rw [h]

theorem State.armOpen_of_none {r : Nat} (h : aget s.armed r = none) : s.armOpen r = false := by
  unfold State.armOpen; rw [h]

/-- A tray reset joins the one that runs, or that was fired in the same cycle; its source shows. -/
theorem State.trayReset_of_joins {supv : Bool} (h : s.is RAILI.TRAY_RESETTING.cl = true ∨ s.get RAILI.RESET_AT.cl = s.clock + 1) :
    s.trayReset supv = s.set (if supv then CRST.TRAY_SUPV.cl else CRST.TRAY_HOST.cl) 1 :=
  if_pos (by simpa using h)

theorem State.trayReset_of_first {supv : Bool} (hr : s.is RAILI.TRAY_RESETTING.cl = false) (ha : s.get RAILI.RESET_AT.cl ≠ s.clock + 1) :
    s.trayReset supv =
      let u := ((s.put CRST.TRAY_HOST.cl (!supv)).put CRST.TRAY_SUPV.cl supv).set CRST.POR.cl 0
      let v := ((u.count CRST.TRAY_RESETS.cl).set RAILI.RESET_AT.cl (s.clock + 1)).tripAll 5
      let w := v.event CSYS.page 0x3001 (v.get CRST.TRAY_HOST.cl + 2 * v.get CRST.TRAY_SUPV.cl)
      let x := (w.each (List.range 4) (fun u k => u.set (MCCTL.RUNNING.clAt k) 0)).set EMU.MC3_RUN.cl 0
      ((x.set RAILI.TRAY_RESETTING.cl 1).allRailsDown 0).tryResetEnd := by
  have now : (((s.put CRST.TRAY_HOST.cl (!supv)).put CRST.TRAY_SUPV.cl supv).set CRST.POR.cl 0).clock = s.clock := by
    simp [State.put]
  refine (if_neg (by simp [hr, ha])).trans ?_
  simp only [now]

/-- A FIRE in the window of its requester closes the window and resets the tray. -/
theorem State.fireReset_of_open {r : Nat} (h : aget s.armed r = some t) (ht : s.clock ≤ t + 1000) :
    s.fireReset r = State.trayReset { s with armed := adel s.armed r } (r = 0x20) :=
  if_pos (by simp [State.armOpen_of_some h, ht])

end TrayReset

/-- Settles O5, by what was asserted before, what TRANS_REQ allows, and the windows that ARM opens. -/
theorem powerFailureTrayStateAndTrayReset : Obligations.PowerFailureTrayStateAndTrayReset := by
  unfold Obligations.PowerFailureTrayStateAndTrayReset
  and_intros
  · exact fun s asserted => if_pos asserted
  · exact fun s good => if_neg (by simp [good])
  · exact fun s good => if_pos (by simp [good])
  · exact fun s asserted => exec_powerFailRelease asserted
  · exact fun s amps low => (exec_inputOvercurrent amps).trans (congrArg _ (if_pos low))
  · exact fun s amps high => (exec_inputOvercurrent amps).trans (congrArg _ (if_neg (Nat.not_le.2 high)))
  · exact fun s cage => rfl
  · exact fun s cage => rfl
  · exact fun s req new h allowed other => (exec_transReq h).trans (congrArg _ ((if_pos allowed).trans
      ((if_neg fun e => other (congrArg BitVec.toNat e)).trans (State.toTrayState_of_ne (State.ne_of_transAllowed allowed)))))
  · intro s req h allowed
    have now : (s.set POWI.CTX_NUM.cl 0).get CSYS.TRAY_STATE.cl = s.get CSYS.TRAY_STATE.cl := State.get_trayState_set (by simp)
    refine (exec_transReq h).trans (congrArg _ ((if_pos allowed).trans ((if_pos rfl).trans ?_)))
    rw [← now]
    exact State.toTrayState_of_ne (now ▸ State.ne_of_transAllowed allowed)
  · exact fun s req new h barred => (exec_transReq h).trans (congrArg _ (if_neg (by simp [barred])))
  · exact fun s req h => congrArg Host.Outcome.next (State.onWrite_of_reaches s h)
  · intro s req at_ h armed inTime runs
    rw [exec_fire h, State.fireReset_of_open armed inTime,
      State.trayReset_of_joins (s := { s with armed := adel s.armed req.val }) runs]
    simp only [decide_eq_true_eq]
  · intro s req at_ h armed inTime idle before
    rw [exec_fire h, State.fireReset_of_open armed inTime,
      State.trayReset_of_first (s := { s with armed := adel s.armed req.val }) idle before]
    rfl
  · exact fun s req h barred => (exec_fire h).trans (congrArg _ (if_neg (by
      rcases barred with e | e
      · simp [State.armOpen_of_none e]
      · simp [e])))

/-! The emulated page (R159 to R165). -/

section Emulated

variable {s : State} {req : Requester} {c : Posted}

/-- A command that is posted takes the next sequence number, the context tag and the tray time. -/
theorem exec_cmdPost_of_open {k : Fin 32} {value : BitVec 32} (hr : s.inReset clachasel = false) (hs : s.is EMU.SERVED.cl = true)
    (hw : s.writable clachasel EMU.page EMU.CMD 0 req.val = true) (hk : k.val < 20) (hp : s.bit EMU.PEND_MAP.cl k.val = false) :
    exec (.cmdPost req k value) s = .next (
      let q := (s.get FWI.SEQ.cl + 1) % 65536
      let u := { s.set FWI.SEQ.cl (s.get FWI.SEQ.cl + 1) with
        posted := s.posted ++ [(⟨k.val, value.toNat, s.get EMU.CTX_TAG.cl, s.trayTime, q⟩ : Posted)] }
      ((u.setBit EMU.PEND_MAP.cl k.val true).set EMU.LAST_SEQ.cl q).set EMU.LAST_CMD.cl k.val) := by
  have seq : (s.wrap FWI.SEQ.cl).get FWI.SEQ.cl = (s.get FWI.SEQ.cl + 1) % 65536 := s.get_wrap_same _ 1
  have tag : (s.wrap FWI.SEQ.cl).get EMU.CTX_TAG.cl = s.get EMU.CTX_TAG.cl := s.get_wrap_ne _ _ 1 (by decide)
  have time : (s.wrap FWI.SEQ.cl).trayTime = s.trayTime := by
    unfold State.trayTime State.pair
    rw [s.get_wrap_ne _ _ 1 (by decide), s.get_wrap_ne _ _ 1 (by decide)]
  have posted : (s.wrap FWI.SEQ.cl).posted = s.posted := s.set_posted _ _
  refine (if_neg (by simp [hr])).trans ((if_neg (by simp [hs])).trans ((if_neg (by simp [hw, hk, hp])).trans ?_))
  simp only [seq, tag, time, posted]
  rfl

/-- A command that is not let through is discarded. -/
theorem exec_cmdPost_of_barred {k : Fin 32} {value : BitVec 32} (hr : s.inReset clachasel = false) (hs : s.is EMU.SERVED.cl = true)
    (h : s.writable clachasel EMU.page EMU.CMD 0 req.val = false ∨ 20 ≤ k.val ∨ s.bit EMU.PEND_MAP.cl k.val = true) :
    exec (.cmdPost req k value) s =
      .next (s.pageFault clachasel EMU.page 0 .accessErr req.val (0x80080 + 4 * k.val) value.toNat) :=
  (if_neg (by simp [hr])).trans ((if_neg (by simp [hs])).trans (if_pos (h.imp (by simp [·]) id)))

/-- The result published is that of the branch taken. -/
theorem State.publish_ite {p : Prop} [Decidable p] {t u : State} {m n : Nat} :
    (if p then (t, m) else (u, n)).1.publish c (if p then (t, m) else (u, n)).2 = if p then t.publish c m else u.publish c n := by
  by_cases h : p
  · simp only [if_pos h]
  · simp only [if_neg h]

/-- BRINGUP is served in MGMT_READY with flow proven: for all dies it closes the main switch, any other value it refuses. -/
theorem exec_bringup (h : s.CanServe 0 c) (hs : s.get CSYS.TRAY_STATE.cl = 2 ∧ s.is CPUMP.FLOW_PROVEN.cl = true) :
    exec .bringup s = .next (
      if c.value % 256 ≠ 0xFF then s.publish c 5
      else
        let u := s.each s.hotDies (fun u _ => u.event CSYS.page 0x3521)
        let v := (u.set SEQ.DIE_MASK.cl (s.hotDies.foldl (fun m n => withBit m n false) 0xFF)).set FWI.BRINGING.cl 1
        v.mainOn.publish c 2) := by
  exact congrArg Host.Outcome.next ((State.serve_of_canServe s h (by simp [hs])).trans State.publish_ite)

/-- POWER_DOWN is served in RAILS_UP and DIES_READY with no context open. -/
theorem exec_powerDown (h : s.CanServe 1 c) (hs : s.get CSYS.TRAY_STATE.cl = 3 ∨ s.get CSYS.TRAY_STATE.cl = 4)
    (hc : ∀ n < 8, s.get (CTX.STATE.on n) = 0) :
    exec .powerDown s = .next (
      if c.value ≠ 1 then s.publish c 5
      else ((s.each (List.range 8) (fun u n => u.trip n 1)).allRailsDown 0).publish c 2) := by
  have served : ((s.get CSYS.TRAY_STATE.cl == 3 || s.get CSYS.TRAY_STATE.cl == 4) &&
      (List.range 8).all (fun n => s.get (CTX.STATE.on n) == 0)) = true := by simpa [hs] using hc
  exact congrArg Host.Outcome.next ((State.serve_of_canServe s h served).trans State.publish_ite)

/-- CTX_OPEN is served in DIES_READY: a new number comes into force where none is. -/
theorem exec_ctxOpen (h : s.CanServe 2 c) (hs : s.get CSYS.TRAY_STATE.cl = 4) :
    exec .ctxOpen s = .next (
      let n := c.value % 65536
      if n = 0 ∨ n = s.get POWI.LAST_CTX.cl ∨ s.get POWI.CTX_NUM.cl ≠ 0 then s.publish c 5
      else ((s.set POWI.CTX_NUM.cl n).set POWI.LAST_CTX.cl n).publish c 1) := by
  exact congrArg Host.Outcome.next ((State.serve_of_canServe s h (by simp [hs])).trans State.publish_ite)

/-- CTX_CLOSE is served in CONTEXT_OPEN, for the number in force alone. -/
theorem exec_ctxClose (h : s.CanServe 3 c) (hs : s.get CSYS.TRAY_STATE.cl = 5) :
    exec .ctxClose s = .next (
      if c.value % 65536 ≠ s.get POWI.CTX_NUM.cl then s.publish c 5 else (s.set POWI.CTX_NUM.cl 0).publish c 1) := by
  exact congrArg Host.Outcome.next ((State.serve_of_canServe s h (by simp [hs])).trans State.publish_ite)

end Emulated

/-- Settles O8, by what bars a post and by the value each served command takes. -/
theorem theEmulatedPageTakesAndServesCommands : Obligations.TheEmulatedPageTakesAndServesCommands := by
  unfold Obligations.TheEmulatedPageTakesAndServesCommands
  and_intros
  · exact fun s req k value hr hs hw hk hp => exec_cmdPost_of_open hr hs hw hk hp
  · exact fun s req k value hr hs h => exec_cmdPost_of_barred hr hs h
  · exact fun s req k value hr hs => (if_neg (by simp [hr])).trans (if_pos (by simp [hs]))
  · exact fun s k pending => congrArg Host.Outcome.next (if_pos pending)
  · exact fun s k free => congrArg Host.Outcome.next (if_neg (by simp [free]))
  · exact fun s fresh served old => if_neg (by simp [fresh, served, old])
  · exact fun s h => if_pos (by rcases h with h | h | h <;> simp [h])
  · exact fun s c h hs all => (exec_bringup h hs).trans (congrArg _ (if_neg (not_not.2 all)))
  · exact fun s c h hs other => (exec_bringup h hs).trans (congrArg _ (if_pos other))
  · exact fun s c h hs one => (exec_powerDown h hs.1 hs.2).trans (congrArg _ (if_neg (not_not.2 one)))
  · exact fun s c h hs other => (exec_powerDown h hs.1 hs.2).trans (congrArg _ (if_pos other))
  · intro s c h hs fresh
    obtain ⟨nonzero, new, idle⟩ := fresh
    exact (exec_ctxOpen h hs).trans (congrArg _ (if_neg (by simp [nonzero, new, idle])))
  · exact fun s c h hs taken => (exec_ctxOpen h hs).trans (congrArg _ (if_pos taken))
  · exact fun s c h hs own => (exec_ctxClose h hs).trans (congrArg _ (if_neg (not_not.2 own)))
  · exact fun s c h hs other => (exec_ctxClose h hs).trans (congrArg _ (if_pos other))

/-! Changes of operating point and scans (R92, R99 to R103, R416 to R431). -/

section Hinges

variable {s : State} {req : Requester} {die : DieNo} {ecc : Ecc} {cycles : BitVec 24}

/-- The end of a slew that is to be checked waits to report VOLT_OK, or records that power is not good. -/
theorem exec_voltCheck (h : s.is (OPI.CHECK.clAt die.val) = true) (powerGood : Bool) :
    exec (.voltCheck die powerGood) s = .next (
      let u := (s.set (OPCTL.SLEWING.clAt die.val) 0).set (OPI.CHECK.clAt die.val) 0
      if powerGood then u.set (OPI.VOLT.clAt die.val) (u.get (OPCTL.TID.clAt die.val) + 1) else u.event OPCTL.page 0x3204) :=
  (if_neg (by simp [h])).trans (apply_ite Host.Outcome.next _ _ _).symm

/-- A VOLT_OK that is due, with the die out of reset and the transition ID current, is kept in an OP_CHANGE. -/
theorem exec_voltOk_of_current (hv : s.get (OPI.VOLT.clAt die.val) ≠ 0)
    (hr : (s.set (OPI.VOLT.clAt die.val) 0).inReset die.val = false)
    (hk : (s.set (OPI.VOLT.clAt die.val) 0).get (HOLDI.KIND.on die.val) = 1)
    (ht : (s.set (OPI.VOLT.clAt die.val) 0).get (HOLDI.TID.on die.val) = s.get (OPI.VOLT.clAt die.val) - 1) :
    exec (.voltOk die) s = .next ((s.set (OPI.VOLT.clAt die.val) 0).set (HOLDI.VOLT.on die.val) 1) := by
  have kind : ((s.set (OPI.VOLT.clAt die.val) 0).set (HOLDI.VOLT.on die.val) 1).get (HOLDI.KIND.on die.val) = 1 :=
    (State.get_set_ne _ (HOLDI.VOLT.on die.val) (HOLDI.KIND.on die.val) 1 (Reg.key_at_ne rfl (by decide))).trans hk
  show execVoltOk die s = _
  unfold execVoltOk
  dsimp only
  rw [if_neg hv, if_neg (by simp [hr, hk, ht]), if_neg (by simp [kind])]

theorem exec_voltOk_of_old (hv : s.get (OPI.VOLT.clAt die.val) ≠ 0)
    (ht : (s.set (OPI.VOLT.clAt die.val) 0).get (HOLDI.TID.on die.val) ≠ s.get (OPI.VOLT.clAt die.val) - 1) :
    exec (.voltOk die) s = .next (s.set (OPI.VOLT.clAt die.val) 0) :=
  (if_neg hv).trans (if_pos (.inr (.inr ht)))

/-- The end of a hold ends the OP_CHANGE the die acts on. -/
theorem exec_holdEnd_of_change (hr : s.inReset die.val = false) (hh : s.is (HMBX.HOLD_ACTIVE.on die.val) = true)
    (hk : ((s.set (HMBX.HOLD_ACTIVE.on die.val) 0).set (HOLDI.OVER.on die.val) 1).get (HOLDI.KIND.on die.val) = 1) :
    exec (.holdEnd die) s =
      .next (((s.set (HMBX.HOLD_ACTIVE.on die.val) 0).set (HOLDI.OVER.on die.val) 1).endChange die.val) := by
  show execHoldEnd die s = _
  unfold execHoldEnd
  rw [if_neg (by simp [hr, hh])]
  simp only [hk]

/-- The end of a hold ends the test slot, unless a test runs on, and notes whether the skip phase does. -/
theorem exec_holdEnd_of_slot (hr : s.inReset die.val = false) (hh : s.is (HMBX.HOLD_ACTIVE.on die.val) = true)
    (hk : ((s.set (HMBX.HOLD_ACTIVE.on die.val) 0).set (HOLDI.OVER.on die.val) 1).get (HOLDI.KIND.on die.val) = 3) :
    exec (.holdEnd die) s = .next (
      let u := (s.set (HMBX.HOLD_ACTIVE.on die.val) 0).set (HOLDI.OVER.on die.val) 1
      (u.put (HOLDI.LATE.on die.val) (u.is (CSKIP.SKIPPING.on die.val))).endSlot die.val) := by
  show execHoldEnd die s = _
  unfold execHoldEnd
  rw [if_neg (by simp [hr, hh])]
  simp only [hk]

/-- F_DONE is taken, and OPSEL driven down to the running point. -/
theorem exec_fDone (hr : s.inReset die.val = false) (hf : s.is (HOLDI.F_DONE.on die.val) = true) :
    exec (.fDone die) s = .next (
      let u := s.set (HOLDI.F_DONE.on die.val) 0
      u.driveOpsel die.val (u.get (HMBX.RUN_OP.on die.val)) false) := by
  have run : (s.set (HOLDI.F_DONE.on die.val) 0).get (HMBX.RUN_OP.on die.val) = s.get (HMBX.RUN_OP.on die.val) :=
    State.get_set_ne _ _ _ _ (Reg.key_internal_ne rfl rfl (by decide))
  dsimp only
  rw [run]
  exact if_neg (by simp [hr, hf])

/-- OUT checks for a scan that runs or waits, then for an open context, the slot and the regions, then starts a scan or waits. -/
theorem exec_scanOut (h : s.Reaches die.val SCAN.page SCAN.OUT 0 req) :
    exec (.scanOut req die) s = .next (
      let d := die.val
      let slot := s.get (SCAN.SLOT.on d)
      let regions := s.get (SCAN.REGIONS.on d)
      let st := s.get (CTX.STATE.on d)
      let refuse (s : State) (c : Nat) : State := (s.refuseScan d c).regFault d SCAN.page SCAN.OUT 0 .accessErr req.val 1
      if s.is (SCAN.SCANNING.on d) ∨ s.is (SCAN.WAITING.on d) then s.regFault d SCAN.page SCAN.OUT 0 .accessErr req.val 1
      else if st = 0 ∨ s.is (CTXI.CLOSING.on d) then refuse s 1
      else if slot = 0 ∨ s.get (SCAN.SLOTS.on d) ≤ slot then refuse s 2
      else if regions = 0 then refuse s.useFree s.free
      else if st = 1 ∧ s.atHinge d then s.startScan d 1 slot regions true
      else if st = 4 then (s.countLimited d).startScan d 1 slot regions (s.phaseIs d .stopped && !s.is (SCANI.MIDWAY.on d))
      else (((s.set (SCAN.WAITING.on d) 1).set (SCANI.WAIT_SLOT.on d) slot).set (SCANI.WAIT_REGIONS.on d) regions).startWaiting d) :=
  congrArg Host.Outcome.next (State.onWrite_of_reaches s h)

/-- With no scan running or waiting, IN is refused with code 1 but in FAULTED, stopped and not closing; there the image is checked. -/
theorem exec_scanIn (h : s.Reaches die.val SCAN.page SCAN.IN 0 req) (hs : s.is (SCAN.SCANNING.on die.val) = false)
    (hw : s.is (SCAN.WAITING.on die.val) = false) :
    exec (.scanIn req die ecc) s = .next (
      let d := die.val
      let slot := s.get (SCAN.SLOT.on d)
      let regions := s.get (SCAN.REGIONS.on d)
      if s.get (CTX.STATE.on d) ≠ 4 ∨ ¬ s.phaseIs d .stopped ∨ s.is (CTXI.CLOSING.on d) then s.refuseScan d 1
      else
        let c := s.imageRefusal d slot regions ecc
        let u := if c = 2 then s else s.readImage d slot ecc
        if c ≠ 0 then u.refuseScan d c else (u.restore d slot regions).startScan d 4 slot regions true) :=
  congrArg Host.Outcome.next ((State.onWrite_of_reaches s h).trans (if_neg (by simp [hs, hw])))

/-- What the end of every scan does: it counts the cycles, and the verdict is good. -/
abbrev State.scanEnded (s : State) (d cycles : Nat) : State :=
  let a := ((s.set (SCAN.SCANNING.on d) 0).set (SCANI.KIND.on d) 0).count (SCAN.SCAN_CYCLES.on d) cycles
  ((a.set (SCAN.LAST_SCAN_CYCLES.on d) cycles).set (SCAN.VERDICT.on d) 0).pageEvent d SCAN.page 8

theorem exec_scanDone_of_in (hr : s.inReset die.val = false) (hs : s.is (SCAN.SCANNING.on die.val) = true)
    (hk : s.get (SCANI.KIND.on die.val) = 4) :
    exec (.scanDone die cycles) s =
      .next ((((s.scanEnded die.val cycles.toNat).dieEvent die.val SCAN.page 0x1441).captureNext die.val).tryFenced die.val) :=
  (if_neg (by simp [hr, hs])).trans (if_pos hk)

/-- A scan-out that was asked for has its image written. -/
theorem exec_scanDone_of_out (hr : s.inReset die.val = false) (hs : s.is (SCAN.SCANNING.on die.val) = true)
    (hk : s.get (SCANI.KIND.on die.val) = 1) :
    exec (.scanDone die cycles) s = .next (
      let d := die.val
      let b := s.scanEnded d cycles.toNat
      let c := b.putImage d (s.get (SCANI.SLOT.on d)) (s.get (SCANI.REGIONS.on d)) (b.get (SCANI.QUIESCED.on d) + 8) 0
      let e := (c.setBit (SCAN.VALID_MAP.on d) (s.get (SCANI.SLOT.on d)) true).dieEvent d SCAN.page 0x1440
      ((e.stayStopped d).captureNext d).tryFenced d) := by
  refine (if_neg (by simp [hr, hs])).trans ?_
  simp only [hk]
  rfl

/-- In a forced change the tile PLL that locks switches the operating point; then the image of slot 0 is checked. -/
theorem exec_tilePllLock (hr : s.inReset die.val = false) (hk : s.get (HOLDI.KIND.on die.val) = 4)
    (hp : s.get (HOLDI.STEP.on die.val) = 4) (hs : s.is (SCAN.SCANNING.on die.val) = false) :
    exec (.tilePllLock die ecc) s = .next (
      let d := die.val
      let op := s.get (HOLDI.TARGET.on d)
      let a := (s.set (DCLK.TILE_LOCK.on d) 1).switchPoint d op
      let b := if op < s.get (HMBX.RUN_OP.on d) then a.set (HOLDI.F_DONE.on d) 1 else a
      let c := b.imageRefusal d 0 7 ecc
      let e := if c = 2 then b else b.readImage d 0 ecc
      if c ≠ 0 then ((((e.refuseScan d c).dieFault d 2).set (HOLDI.STEP.on d) 7).set (SCAN.FORCING.on d) 0).captureNext d
      else ((e.restore d 0 7).startScan d 5 0 7 true).set (HOLDI.STEP.on d) 5) :=
  (if_neg (by simp [hr, hk, hp, hs])).trans (apply_ite Host.Outcome.next _ _ _).symm

end Hinges

/-- Settles O32, by what the die acts on and by the checks of a scan in their order. -/
theorem operatingPointsChangeAtHinges : Obligations.OperatingPointsChangeAtHinges := by
  unfold Obligations.OperatingPointsChangeAtHinges
  and_intros
  · exact fun s die hr hi => if_neg (by simp [hr, hi])
  · exact fun s die hr hh => if_neg (by simp [hr, hh])
  · exact fun s die h => exec_voltCheck h true
  · exact fun s die h => exec_voltCheck h false
  · exact fun s die hv hr hk ht => exec_voltOk_of_current hv hr hk ht
  · exact fun s die hv ht => exec_voltOk_of_old hv ht
  · exact fun s die hr hh hk => exec_holdEnd_of_change hr hh hk
  · exact fun s die hr hh hk => exec_holdEnd_of_slot hr hh hk
  · exact fun s die hr hf => exec_fDone hr hf
  · exact fun s req die h hs hw hc open_ hinge hl hn hg => (exec_scanOut h).trans
      (by simp [hs, hw, hc, open_, hinge, hl, hn, hg])
  · exact fun s req die h hs hw hc faulted hl hn hg => (exec_scanOut h).trans (by simp [hs, hw, hc, faulted, hl, hn, hg])
  · exact fun s req die h busy => (exec_scanOut h).trans (congrArg _ (if_pos busy))
  · exact fun s req die h hs hw closed => (exec_scanOut h).trans
      (congrArg _ ((if_neg (by simp [hs, hw])).trans (if_pos (.inl closed))))
  · exact fun s req die ecc h hs hw other => (exec_scanIn h hs hw).trans (congrArg _ (if_pos (.inl other)))
  · exact fun s req die ecc h hs hw faulted stopped hc => (exec_scanIn h hs hw).trans
      (congrArg _ (if_neg (by simp [faulted, stopped, hc])))
  · exact fun s die cycles hr hs hk => exec_scanDone_of_in hr hs hk
  · exact fun s die cycles hr hs hk => exec_scanDone_of_out hr hs hk
  · exact fun s die ecc hr hk hp hs => exec_tilePllLock hr hk hp hs

/-! Feeds, throttling, watchdogs and the published page (R153 to R161, R477 to R494). -/

section Temperatures

variable {s : State} {req : Requester} {window : Fin 2} {k : Nat}

/-- A FEED that is discarded shows why, and is counted. -/
abbrev State.feedDiscarded (s : State) (w why : Nat) : State := (s.set (TSTAT.F_OUTCOME.clAt w) why).count TSTAT.DISCARDS.cl

/-- Noting that a feed was taken leaves its value alone. -/
theorem State.get_feedValue {w : Fin 2} :
    ((s.set (TSTAT.F_OUTCOME.clAt w.val) 1).count TSTAT.FEEDS.cl).get (TSTAT.F_VALUE.clAt w.val) = s.get (TSTAT.F_VALUE.clAt w.val) := by
  rw [State.get_count_ne _ _ _ 1 (by revert w; decide), State.get_set_ne _ _ _ _ (by revert w; decide)]

/-- A feed by MC1, or by MC2 of a readout that has power, is none that MC2 leaves out (R477). -/
theorem not_unpowered_of_feeds (h : window.val = 0 ∨ s.mc2Feeds k = true) : ¬ (window.val = 1 ∧ ¬ s.mc2Feeds k = true) :=
  fun ⟨mc2, unpowered⟩ => h.elim (by omega) unpowered

section Feed

variable (h : s.Reaches clachasel TSTAT.page TSTAT.F_FEED window.val req)
include h

/-- MC2 makes no feed of a readout that has no power. -/
theorem exec_feed_of_unpowered (hw : window.val = 1) (hp : s.mc2Feeds (s.get (TSTAT.F_SEL.clAt window.val)) = false) :
    exec (.feed req window) s = .next s :=
  congrArg Host.Outcome.next ((State.onWrite_of_reaches s h).trans (if_pos ⟨hw, by simp [hp]⟩))

/-- A feed of a sensor beyond the last is discarded. -/
theorem exec_feed_of_beyond (hk : 48 ≤ s.get (TSTAT.F_SEL.clAt window.val)) :
    exec (.feed req window) s = .next (s.feedDiscarded window.val 4) := by
  have fed : s.mc2Feeds (s.get (TSTAT.F_SEL.clAt window.val)) = true := by
    unfold State.mc2Feeds; simp; omega
  refine congrArg Host.Outcome.next ((State.onWrite_of_reaches s h).trans ?_)
  simp [fed, hk, Nat.not_lt.2 hk]

variable (hk : k = s.get (TSTAT.F_SEL.clAt window.val)) (hn : k < 48) (hp : window.val = 0 ∨ s.mc2Feeds k = true)
include hk hn hp

/-- A feed from the wrong feeder of a sensor that is on is discarded with the fault of its write. -/
theorem exec_feed_of_wrong (hf : s.get (TCFG.FEEDER.clAt k) ≠ window.val + 1)
    (he : (s.regFault clachasel TSTAT.page TSTAT.F_FEED window.val .accessErr req.val 1).is (TCFG.EN.clAt k) = true) :
    exec (.feed req window) s = .next
      ((s.regFault clachasel TSTAT.page TSTAT.F_FEED window.val .accessErr req.val 1).feedDiscarded window.val 3) := by
  subst hk
  have powered := not_unpowered_of_feeds hp
  have wrong : (s.get (TCFG.FEEDER.clAt (s.get (TSTAT.F_SEL.clAt window.val))) != window.val + 1) = true := by simp [hf]
  refine congrArg Host.Outcome.next ((State.onWrite_of_reaches s h).trans ?_)
  dsimp only
  rw [if_neg powered, if_pos (And.intro wrong hn), if_neg (by simp [he, hn]), if_pos wrong]

/-- The feed of a sensor that is on, by its feeder: one not later than the last sample is discarded, then one whose AFE flags say that
there is no new data; any other is the sample, a NaN giving a free value. -/
theorem exec_feed (hf : s.get (TCFG.FEEDER.clAt k) = window.val + 1) (he : s.is (TCFG.EN.clAt k) = true) :
    exec (.feed req window) s = .next (
      let w := window.val
      let t := s.pair (TSTAT.F_TIME_LO.clAt w) (TSTAT.F_TIME_HI.clAt w)
      let flags := s.get (TSTAT.F_AFE_FLAGS.clAt w)
      if t + 1 ≤ s.get (TEMPI.SAMPLE.clAt k) then s.feedDiscarded w 5
      else if flags % 4 ≠ 0 then s.feedDiscarded w 2
      else
        let u := (s.set (TSTAT.F_OUTCOME.clAt w) 1).count TSTAT.FEEDS.cl
        let x := toSixteenths (u.get (TSTAT.F_VALUE.clAt w))
        let v := x.getD (toSigned 16 (u.free % 65536))
        let a := if x.isNone then u.useFree else u
        let b := if w = 0 then a.setBit TEMPI.FED.cl k true else a
        (b.sample k v flags (b.is (TSTAT.F_SRC_FAULT.clAt w)) t).calBaseline) := by
  subst hk
  have right : ¬ (s.get (TCFG.FEEDER.clAt (s.get (TSTAT.F_SEL.clAt window.val))) != window.val + 1) = true := by simp [hf]
  refine congrArg Host.Outcome.next ((State.onWrite_of_reaches s h).trans ?_)
  dsimp only
  rw [if_neg (not_unpowered_of_feeds hp), if_neg fun w : _ ∧ _ => right w.1, if_neg (by simp [he, hn]), if_neg right]

end Feed

/-- A publish swap takes the measurement of the input; MC3, where it runs, publishes the values of that moment. -/
theorem exec_publishSwap {vin : BitVec 16} {iin : BitVec 8} (hr : s.inReset clachasel = false) :
    exec (.publishSwap vin iin) s = .next (
      let t := (s.set PFAIL.VIN.cl vin.toNat).set HLS.IIN.cl iin.toNat
      let a := (t.wrap EMU.PUB_SEQ.cl).setPair EMU.PUB_TIME_LO.cl EMU.PUB_TIME_HI.cl t.trayTime
      let b := a.setPair EMU.BUNDLE_ID_LO.cl EMU.BUNDLE_ID_HI.cl (t.pair BLOAD.BUNDLE_ID_LO.cl BLOAD.BUNDLE_ID_HI.cl)
      let c := ((b.set EMU.TRAY_STATE.cl (t.get CSYS.TRAY_STATE.cl)).set EMU.STBY_CAUSE.cl (t.get CSYS.STBY_CAUSE.cl)).set
        EMU.CTX_NUM.cl (t.get POWI.CTX_NUM.cl)
      let d := c.each (List.range 20) (fun u k => u.set (EMU.VAL.clAt k) (t.get (FWI.VAL.clAt k)))
      let e := (d.publishWords EMU.SUM_TEMP 0 t.sensorWords).publishWords EMU.SUM_TEMP 48 t.zoneWords
      let f := (e.publishCooling.publishWords EMU.SUM_OP 0 t.opWords).publishWords EMU.SUM_EVREC 0 t.recorderWords
      if ¬ t.mcRuns 3 then t else (f.publishWords EMU.SUM_TEST 0 t.testWords).set EMU.STALE.cl 0) := by
  show execPublishSwap vin iin s = _
  unfold execPublishSwap
  rw [if_neg (show ¬ s.inReset clachasel = true by simp [hr])]
  exact (apply_ite Host.Outcome.next _ _ _).symm

end Temperatures

/-- Settles O35, by the checks of a feed in their order, and by the condition of each other row. -/
theorem temperaturesAreFedAndActedOn : Obligations.TemperaturesAreFedAndActedOn := by
  unfold Obligations.TemperaturesAreFedAndActedOn
  and_intros
  · exact fun s req window h hk => exec_feed_of_beyond h hk
  · exact fun s req window k h hk hn hp hf he => exec_feed_of_wrong h hk hn hp hf he
  · intro s req window k v h hk hn hp hf he later good value
    refine (exec_feed h hk hn hp hf he).trans ?_
    simp only [State.get_feedValue, value]
    exact congrArg _ ((if_neg (by omega)).trans (if_neg (by simp [good])))
  · exact fun s req window k h hk hn hp hf he early => (exec_feed h hk hn hp hf he).trans (congrArg _ (if_pos early))
  · exact fun s req window k h hk hn hp hf he later flagged => (exec_feed h hk hn hp hf he).trans
      (congrArg _ ((if_neg (by omega)).trans (if_pos flagged)))
  · exact fun s req window h hw hp => exec_feed_of_unpowered h hw hp
  · exact fun s sensor h2 h5 ha old => congrArg Host.Outcome.next (if_neg (by simp [Nat.not_lt.2 h2, h5, ha, old]))
  · exact fun s zone h1 h0 asks idle mode => congrArg Host.Outcome.next (if_neg (by simp [h1, h0, asks, idle, mode]))
  · exact fun s zone h1 h0 throttles beats idle mode cool => congrArg Host.Outcome.next
      (if_neg (by simp only [List.all_eq_true.2 cool]; simp [h1, h0, throttles, beats, idle, mode]))
  · exact fun s zone h0 on_ trip up => congrArg Host.Outcome.next (if_neg (by simp [h0, on_, trip, Nat.not_lt.2 up]))
  · exact fun s k runs due => congrArg Host.Outcome.next (if_pos ⟨runs, due⟩)
  · exact fun s d k hr runs due => congrArg Host.Outcome.next (if_neg (by simp [hr, runs, due]))
  · exact fun s k h => congrArg Host.Outcome.next (if_neg fun ⟨runs, due⟩ => by simp [runs, due] at h)
  · exact fun s d k h => congrArg Host.Outcome.next (if_pos (.inr (h.imp (by simp [·]) id)))
  · exact fun s vin iin hr runs => (exec_publishSwap hr).trans (congrArg _ (if_neg (by simp [runs])))
  · exact fun s vin iin hr stopped => (exec_publishSwap hr).trans (congrArg _ (if_pos (by simp [stopped])))

end Sys2Proof.Machine
end

section
/-! SUPPORT. Proofs of spec/04_start_of_day.md: the cores from release to restart, and the frames of the supervisor line. -/

namespace Sys2Proof.Machine

/-! The cores and their watchdogs (R129 to R134, R140, R153 to R156). -/

section Cores

variable {s : State} {chip i v : Nat} {p : Page} {r : Reg} {req : Requester} {w : Watch}

/-- The standby ROM waits while a fitted leak channel is not released (R129). -/
theorem State.leakChannelWaits_iff :
    (List.range 4).any (fun n => s.bit CFAN.LK_FIT.cl n && !s.is (CLEAK.RELEASED.clAt n)) = true ↔
      ∃ n < 4, s.bit CFAN.LK_FIT.cl n = true ∧ s.is (CLEAK.RELEASED.clAt n) = false := by
  simp

theorem State.leakChannelWaits_eq_false (h : ∀ n < 4, s.bit CFAN.LK_FIT.cl n = true → s.is (CLEAK.RELEASED.clAt n) = true) :
    (List.range 4).any (fun n => s.bit CFAN.LK_FIT.cl n && !s.is (CLEAK.RELEASED.clAt n)) = false :=
  Bool.eq_false_iff.2 fun waits => by
    obtain ⟨n, hn, fitted, held⟩ := State.leakChannelWaits_iff.1 waits
    simp [h n hn fitted] at held

/-- A kick with the key reloads the count of a running core that has not run out, and no other (R153, R167). -/
theorem State.kick_of_key (h : s.Reaches chip p r i req) (hv : v = 0xA5C3) :
    s.kick chip p r i req.val v w =
      if ¬ s.is w.run ∨ s.watchLeft w = 0 then s else (s.set w.force (s.get w.timeout)).armWatch w :=
  (State.onWrite_of_reaches s h).trans (if_neg (not_not.2 hv))

theorem State.kick_of_key_running (h : s.Reaches chip p r i req) (hv : v = 0xA5C3) (runs : s.is w.run = true)
    (left : s.watchLeft w ≠ 0) : s.kick chip p r i req.val v w = (s.set w.force (s.get w.timeout)).armWatch w :=
  (State.kick_of_key h hv).trans (if_neg (by simp [runs, left]))

theorem State.kick_of_key_idle (h : s.Reaches chip p r i req) (hv : v = 0xA5C3) (idle : s.is w.run = false ∨ s.watchLeft w = 0) :
    s.kick chip p r i req.val v w = s :=
  (State.kick_of_key h hv).trans (if_pos (idle.imp_left (by simp [·])))

/-- A kick with any other value is discarded (R154). -/
theorem State.kick_of_other (h : s.Reaches chip p r i req) (hv : v ≠ 0xA5C3) :
    s.kick chip p r i req.val v w = s.regFault chip p r i .accessErr req.val v :=
  (State.onWrite_of_reaches s h).trans (if_pos hv)

end Cores

/-- Settles O6, by the condition of each row; the kicks of a management core and of a warden are one act on their watchdogs. -/
theorem coresStartAndRestartAsTheSpecSays : Obligations.CoresStartAndRestartAsTheSpecSays := by
  unfold Obligations.CoresStartAndRestartAsTheSpecSays
  and_intros
  · exact fun s h => if_pos (by rwa [State.leakChannelWaits_iff])
  · exact fun s standby checked held proven quiet released =>
      if_neg (by simp only [State.leakChannelWaits_eq_false released]; simp [standby, checked, held, proven, quiet])
  · exact fun s core runs fed => congrArg Host.Outcome.next (if_neg (by simpa [runs, or_iff_not_imp_left] using fed))
  · exact fun s core h => congrArg Host.Outcome.next (if_pos (h.imp_left (by simp [·])))
  · exact fun s released standby missing => if_neg (by simp [released, standby, missing])
  · exact fun s h => if_pos h
  · exact fun s die waits unready => if_neg (by simp [waits, unready])
  · exact fun s die h => if_pos (h.imp_left (by simp [·]))
  · exact fun s req k h runs left => congrArg Host.Outcome.next (State.kick_of_key_running h rfl runs left)
  · exact fun s req k h idle => congrArg Host.Outcome.next (State.kick_of_key_idle h rfl idle)
  · exact fun s req d k h runs left => congrArg Host.Outcome.next (State.kick_of_key_running h rfl runs left)
  · exact fun s req d k h idle => congrArg Host.Outcome.next (State.kick_of_key_idle h rfl idle)
  · exact fun s req value k h other => congrArg Host.Outcome.next (State.kick_of_other h other)
  · exact fun s req value d k h other => congrArg Host.Outcome.next (State.kick_of_other h other)
  · exact fun s k stopped free released started quiet => if_neg (by simp [stopped, free, released, started, quiet])
  · exact fun s k h => if_pos h
  · exact fun s d k stopped free released => if_neg (by simp [stopped, free, released])
  · exact fun s d k h => if_pos (h.imp_right (Or.imp_right (by simp [·])))
  · exact fun s die out => if_neg (by simp [out])
  · exact fun s die held => if_pos held

/-! The frames of the supervisor line (R601 to R608, R616, R619, R621). -/

section Frames

variable {s t : State} {f : Frame} {x : RxFrame} {type len : Nat} {ok : Bool} {act : State → State}

/-- With the core PLL lost nothing is received (R121). -/
theorem exec_frameError {framing : Bool} :
    exec (.frameError framing) s =
      .next (if s.get RECI.RUNS.cl = 0 ∨ s.get CCLK.CORE_LOCK.cl = 0 then s else s.badFrame framing) := rfl

/-- A frame whose CRC is wrong is in error (R601). -/
theorem State.receive_of_crc {server : State → State} (hr : s.get RECI.RUNS.cl ≠ 0) (hl : s.get CCLK.CORE_LOCK.cl ≠ 0)
    (hn : f.payload.length ≤ 240) (hc : f.crc.toNat ≠ frameSum f) : s.receive f server = s.badFrame false :=
  (if_neg (by simp [hr, hl])).trans ((if_neg (Nat.not_lt.2 hn)).trans (if_pos hc))

/-- A frame the tray can receive is no reply: bit 7 of its type is 0 (R603). -/
theorem State.CanReceive.type_mod (h : s.CanReceive f) : f.type.toNat % 128 = f.type.toNat := by
  obtain ⟨-, -, -, -, -, -, -, request⟩ := h
  exact Nat.mod_eq_of_lt request

theorem exec_ping (ht : f.type.toNat % 128 = 1) :
    exec (.ping f) s = .next (s.receive f (fun u => u.reply f u.pingReply)) :=
  congrArg Host.Outcome.next (if_pos ht)

theorem exec_ping_of_unknown (ht : 10 ≤ f.type.toNat % 128) :
    exec (.ping f) s = .next (s.receive f (fun u => u.replyCode f 7)) :=
  congrArg Host.Outcome.next ((if_neg (by omega)).trans (if_pos (.inr ht)))

theorem exec_resetArm (h : s.CanReceive f) (ht : f.type.toNat = 8) :
    exec (.resetArm f) s = .next (
      let u := s.validFrame
      if u.guard f then (u.armReset 0x20).replyCode f 0 else u.replyCode f 9) :=
  congrArg Host.Outcome.next ((if_neg (not_not.2 (by rw [h.type_mod, ht]))).trans (State.receive_of_canReceive s _ h))

theorem exec_resetFire (h : s.CanReceive f) (ht : f.type.toNat = 9) :
    exec (.resetFire f) s = .next (
      let u := s.validFrame
      if ¬ u.guard f then u.replyCode f 9 else (u.fireReset 0x20).replyCode f (if u.armOpen 0x20 then 0 else 3)) :=
  congrArg Host.Outcome.next ((if_neg (not_not.2 (by rw [h.type_mod, ht]))).trans (State.receive_of_canReceive s _ h))

/-- A frame of MC3's that the tray can receive is queued (R604, R608). -/
theorem State.mc3Frame_received {serve : State → RxFrame → State} (h : s.CanReceive f) (ht : f.type.toNat = type) :
    s.mc3Frame (.received f) type len serve = s.validFrame.queueFrame f :=
  (if_pos (h.type_mod.trans ht)).trans (State.receive_of_canReceive s _ h)

/-- MC3 refuses a frame of another length than its type has (R605). -/
theorem State.mc3Frame_of_length {serve : State → RxFrame → State} (h : s.CanAnswer type x.frame.payload.length x)
    (hl : x.frame.payload.length ≠ len) : s.mc3Frame .served type len serve = s.mc3Code 4 := by
  obtain ⟨head, ofType, runs, locked, -⟩ := h
  obtain ⟨rest, queue⟩ := List.head?_eq_some_iff.1 head
  unfold State.mc3Frame
  simp [queue, ofType, runs, locked, hl]

/-- What MC3 does for a frame it can answer is what the command does. -/
theorem next_mc3Frame_served {serve : State → RxFrame → State} (h : s.CanAnswer type len x) (e : serve s x = t) :
    (.next (s.mc3Frame .served type len serve) : Out) = .next t :=
  congrArg Host.Outcome.next ((State.mc3Frame_of_canAnswer s serve h).trans e)

/-! The checks of a request, in their order (R98, R604, R612). -/

theorem State.requestFrame_of_closed (h : s.get CSYS.TRAY_STATE.cl < 3 ∨ s.is SUPV.SILENT.cl = true ∨ s.mcRuns 0 = false) :
    s.requestFrame ok act = s.mc3Code 3 :=
  if_pos (h.imp_right (Or.imp_right (by simp [·])))

section Open

variable (up : 3 ≤ s.get CSYS.TRAY_STATE.cl) (heard : s.is SUPV.SILENT.cl = false) (runs : s.mcRuns 0 = true)
include up heard runs

theorem State.requestFrame_of_open :
    s.requestFrame ok act = if s.is OPCTL.MODE.cl then s.mc3Code 5 else if ¬ ok then s.mc3Code 4 else act s :=
  if_neg (by simp [heard, runs]; omega)

theorem State.requestFrame_of_mode (mode : s.is OPCTL.MODE.cl = true) : s.requestFrame ok act = s.mc3Code 5 :=
  (State.requestFrame_of_open up heard runs).trans (if_pos mode)

theorem State.requestFrame_of_range (mode : s.is OPCTL.MODE.cl = false) (h : ok = false) : s.requestFrame ok act = s.mc3Code 4 :=
  (State.requestFrame_of_open up heard runs).trans ((if_neg (by simp [mode])).trans (if_pos (by simp [h])))

theorem State.requestFrame_of_ok (mode : s.is OPCTL.MODE.cl = false) (h : ok = true) : s.requestFrame ok act = act s :=
  (State.requestFrame_of_open up heard runs).trans ((if_neg (by simp [mode])).trans (if_neg (not_not.2 h)))

end Open

/-- A broadcast TIME loads the calendar where it is ahead, slews it where it is behind, by more than 32 ticks (R616). -/
theorem exec_time_of_broadcast (h : s.CanAnswer 6 8 x) (all : x.frame.dst = 0x7F) (ready : s.mgmtReady = true) :
    exec (.time .served) s = .next (
      let n := frameLe x.frame 0 8 - x.endTime
      let back := x.endTime - frameLe x.frame 0 8
      let u := s.mc3Code 0
      if 32 < n then (u.loadCalendar 4 (u.trayTime + n)).event CAL.page 0x3902 n
      else if 32 < back then (u.set CAL.SLEW.cl (min back 0xFFFFFF)).event CAL.page 0x3903 back
      else u) :=
  next_mc3Frame_served h ((if_neg (not_not.2 all)).trans (if_neg (not_not.2 ready)))

/-- In MGMT_READY a SET_TAG that names this tray writes the tag, once, and never 0 (R619). -/
theorem exec_setTag_of_named (h : s.CanAnswer 7 16 x) (ready : s.get CSYS.TRAY_STATE.cl = 2)
    (named : frameLe x.frame 8 8 = s.pair TRAYID.TRAY_ID_LO.cl TRAYID.TRAY_ID_HI.cl) :
    exec (.setTag .served) s = .next (
      if s.is TRAYID.TAG_SET.cl then s.mc3Code 8
      else if frameLe x.frame 0 8 = 0 then s.mc3Code 4
      else (s.writeTag (frameLe x.frame 0 8)).mc3Code 0) :=
  next_mc3Frame_served h ((if_neg (not_not.2 ready)).trans (if_neg (not_not.2 named)))

end Frames

/-- Settles O37, by what is received, what MC3 can answer, and the checks of each frame in their order. -/
theorem supervisorFramesAreReceivedAndServed : Obligations.SupervisorFramesAreReceivedAndServed := by
  unfold Obligations.SupervisorFramesAreReceivedAndServed
  and_intros
  · exact fun s framing runs locked => exec_frameError.trans (congrArg _ (if_neg (by simp [runs, locked])))
  · exact fun s framing h => exec_frameError.trans (congrArg _ (if_pos h))
  · exact fun s f runs locked short bad ht =>
      (exec_ping (by rw [ht])).trans (congrArg _ (State.receive_of_crc runs locked short bad))
  · exact fun s f h ht => (exec_ping (h.type_mod.trans ht)).trans (congrArg _ (State.receive_of_canReceive s _ h))
  · exact fun s f h ht => (exec_ping_of_unknown (h.type_mod.symm ▸ ht)).trans (congrArg _ (State.receive_of_canReceive s _ h))
  · exact fun s f h ht => congrArg Host.Outcome.next (State.mc3Frame_received h ht)
  · exact fun s x h ready => next_mc3Frame_served h (if_pos ready)
  · exact fun s x h early => next_mc3Frame_served h (if_neg (by simp [early]))
  · exact fun s x h other => congrArg Host.Outcome.next (State.mc3Frame_of_length h other)
  · exact fun s f h ht => congrArg Host.Outcome.next (State.mc3Frame_received h ht)
  · exact fun s x h up heard runs mode kind op zero =>
      next_mc3Frame_served h (State.requestFrame_of_ok up heard runs mode (by simp [kind, op, zero]))
  · exact fun s x h closed => next_mc3Frame_served h (State.requestFrame_of_closed closed)
  · exact fun s x h up heard runs mode => next_mc3Frame_served h (State.requestFrame_of_mode up heard runs mode)
  · exact fun s x h up heard runs mode bad => next_mc3Frame_served h (State.requestFrame_of_range up heard runs mode (by
      rcases bad with ⟨k1, k4⟩ | op | rest
      · simp [k1, k4]
      · simp [Nat.not_lt.2 op]
      · simp [rest]))
  · exact fun s f h ht => congrArg Host.Outcome.next (State.mc3Frame_received h ht)
  · exact fun s x h up heard runs mode zero =>
      next_mc3Frame_served h (State.requestFrame_of_ok up heard runs mode (by simp [zero]))
  · exact fun s x h closed => next_mc3Frame_served h (State.requestFrame_of_closed closed)
  · exact fun s x h up heard runs mode => next_mc3Frame_served h (State.requestFrame_of_mode up heard runs mode)
  · exact fun s x h up heard runs mode rest =>
      next_mc3Frame_served h (State.requestFrame_of_range up heard runs mode (by simp [rest]))
  · exact fun s f h ht => congrArg Host.Outcome.next (State.mc3Frame_received h ht)
  · exact fun s x h up heard runs mode zero =>
      next_mc3Frame_served h (State.requestFrame_of_ok up heard runs mode (by simp [zero]))
  · exact fun s x h closed => next_mc3Frame_served h (State.requestFrame_of_closed closed)
  · exact fun s x h up heard runs mode => next_mc3Frame_served h (State.requestFrame_of_mode up heard runs mode)
  · exact fun s x h up heard runs mode rest =>
      next_mc3Frame_served h (State.requestFrame_of_range up heard runs mode (by simp [rest]))
  · exact fun s f h ht => congrArg Host.Outcome.next (State.mc3Frame_received h ht)
  · exact fun s x h named => next_mc3Frame_served h (if_pos named)
  · exact fun s x h all ready ahead => (exec_time_of_broadcast h all ready).trans (congrArg _ (if_pos (by omega)))
  · exact fun s x h all ready behind => (exec_time_of_broadcast h all ready).trans
      (congrArg _ ((if_neg (by omega)).trans (if_pos (by omega))))
  · exact fun s x h all ready ahead behind => (exec_time_of_broadcast h all ready).trans
      (congrArg _ ((if_neg (by omega)).trans (if_neg (by omega))))
  · exact fun s x h all early => next_mc3Frame_served h ((if_neg (not_not.2 all)).trans (if_pos (by simp [early])))
  · exact fun s f h ht => congrArg Host.Outcome.next (State.mc3Frame_received h ht)
  · exact fun s x h ready named fresh tag => (exec_setTag_of_named h ready named).trans
      (congrArg _ ((if_neg (by simp [fresh])).trans (if_neg tag)))
  · exact fun s x h ready named written => (exec_setTag_of_named h ready named).trans (congrArg _ (if_pos written))
  · exact fun s x h other => next_mc3Frame_served h (if_pos other)
  · exact fun s x h ready other => next_mc3Frame_served h ((if_neg (not_not.2 ready)).trans (if_pos other))
  · exact fun s x h ready named fresh zero => (exec_setTag_of_named h ready named).trans
      (congrArg _ ((if_neg (by simp [fresh])).trans (if_pos zero)))
  · exact fun s f h ht guarded => (exec_resetArm h ht).trans (congrArg _ (if_pos guarded))
  · exact fun s f h ht other => (exec_resetArm h ht).trans (congrArg _ (if_neg (by simp [other])))
  · exact fun s f h ht guarded => (exec_resetFire h ht).trans (congrArg _ (if_neg (not_not.2 guarded)))
  · exact fun s f h ht other => (exec_resetFire h ht).trans (congrArg _ (if_pos (by simp [other])))

end Sys2Proof.Machine
end

section
/-! SUPPORT. Proofs of spec/05_firmware.md: the bundle and the images of the warden cores, and the refusals of the emulated page. -/

namespace Sys2Proof.Machine

/-! The bundle (R145 to R149, R622). -/

section Bundles

variable {s : State} {req : Requester} {b : Bundle}

theorem exec_fetch (h : s.Reaches clachasel BLOAD.page BLOAD.FETCH 0 req) :
    exec (.fetch req) s = .next (
      if ¬ s.loadOpen ∨ s.get BLOAD.LEN.cl = 0 ∨ 16777216 < s.get BLOAD.LEN.cl then
        s.regFault clachasel BLOAD.page BLOAD.FETCH 0 .accessErr req.val 1
      else
        { (((s.set BLOAD.FETCHING.cl 1).set FWI.FETCH_LEN.cl (s.get BLOAD.LEN.cl)).set BLOAD.FETCHED.cl 0).set BLOAD.VERDICT.cl 0 with
          staged := none }) :=
  congrArg Host.Outcome.next (State.onWrite_of_reaches s h)

/-- A fetch that ends without a PCIe error stages as many bytes as FETCH was given. -/
theorem exec_fetchDone_of_good (h : s.is BLOAD.FETCHING.cl = true) :
    exec (.fetchDone b false) s = .next
      { (s.set BLOAD.FETCHING.cl 0).set BLOAD.FETCHED.cl 1 with
        staged := some ⟨b.bytes.take (s.get FWI.FETCH_LEN.cl), b.sigOk, b.digestOk⟩ } := by
  have length : (s.set BLOAD.FETCHING.cl 0).get FWI.FETCH_LEN.cl = s.get FWI.FETCH_LEN.cl := s.get_set_ne _ _ 0 (by decide)
  rw [← length]
  exact if_neg (not_not.2 h)

theorem exec_bundleCheck (h : s.Reaches clachasel BLOAD.page BLOAD.CHECK 0 req) :
    exec (.bundleCheck req) s = .next (
      if ¬ s.loadOpen ∨ s.is BLOAD.FETCHING.cl ∨ s.is BLOAD.CHECKING.cl then
        s.regFault clachasel BLOAD.page BLOAD.CHECK 0 .accessErr req.val 2
      else (s.set BLOAD.CHECKING.cl 1).count BLOAD.CHECKS.cl) :=
  congrArg Host.Outcome.next (State.onWrite_of_reaches s h)

/-- The check of a staged bundle ends as good or bad by its verdict. -/
theorem exec_bundleCheckDone_of_some (h : s.is BLOAD.CHECKING.cl = true) (staged : s.staged = some b) :
    exec .bundleCheckDone s = .next (
      let u := s.set BLOAD.CHECKING.cl 0
      let v := u.set BLOAD.VERDICT.cl (u.verdict b)
      if u.verdict b = 1 then v.bundleGood b else v.bundleBad) := by
  refine (if_neg (not_not.2 h)).trans (congrArg Host.Outcome.next ?_)
  simp only [State.set_staged, staged]

/-- A check ends as one of a bad signature where nothing is staged. -/
theorem exec_bundleCheckDone_of_none (h : s.is BLOAD.CHECKING.cl = true) (staged : s.staged = none) :
    exec .bundleCheckDone s = .next ((s.set BLOAD.CHECKING.cl 0).set BLOAD.VERDICT.cl 2).bundleBad := by
  refine (if_neg (not_not.2 h)).trans (congrArg Host.Outcome.next ?_)
  simp only [State.set_staged, staged]

end Bundles

/-! The images of the warden cores (R145, R151, R152). -/

section Wardens

variable {s : State} {req : Requester} {die : DieNo} {core : Fin 2}

theorem exec_imgData {value : BitVec 32} (h : s.Reaches die.val WLOAD.page WLOAD.IMG_DATA 0 req) :
    exec (.imgData req die value) s = .next (
      let k := s.get (WLOAD.IMG_SEL.on die.val)
      let a := s.get (WLOAD.IMG_ADDR.on die.val)
      if s.is (FWI.RELEASED.at die.val k) ∨ 0x40000 ≤ a then
        s.regFault die.val WLOAD.page WLOAD.IMG_DATA 0 .accessErr req.val value.toNat
      else (s.setSram die.val k (a / 4) value.toNat).set (WLOAD.IMG_ADDR.on die.val) (a + 4)) :=
  congrArg Host.Outcome.next (State.onWrite_of_reaches s h)

/-- What bars the release of a warden core: a header without MAGIC, with a LENGTH out of range, or with ENTRY outside LENGTH. -/
def State.wardenHeaderBad (s : State) (d k : Nat) : Prop :=
  s.sramWord d k 0 ≠ 0x474D4941 ∨ s.sramWord d k 3 < 64 ∨ 262144 < s.sramWord d k 3 ∨ s.sramWord d k 3 ≤ s.sramWord d k 1

/-- A core that has been released is left. -/
theorem exec_wardenRelease_of_released (h : s.Reaches die.val WLOAD.page (wRelease core.val) 0 req)
    (released : s.is (FWI.RELEASED.at die.val core.val) = true) : exec (.wardenRelease req die core) s = .next s :=
  congrArg Host.Outcome.next ((State.onWrite_of_reaches s h).trans (if_pos released))

section Held

variable (h : s.Reaches die.val WLOAD.page (wRelease core.val) 0 req) (held : s.is (FWI.RELEASED.at die.val core.val) = false)
include h held

/-- A core whose header fails is marked bad. -/
theorem exec_wardenRelease_of_bad (bad : s.wardenHeaderBad die.val core.val) :
    exec (.wardenRelease req die core) s = .next ((s.set (wBad die.val core.val) 1).dieEvent die.val WLOAD.page 0x2010) :=
  congrArg Host.Outcome.next ((State.onWrite_of_reaches s h).trans ((if_neg (by simp [held])).trans (if_pos bad)))

/-- A core whose header is valid publishes its BUNDLE_ID and starts at its RESTART; `k` lets a use write the number of
the core as a numeral. -/
theorem exec_wardenRelease_of_good {k : Nat} (hk : core.val = k) (good : ¬ s.wardenHeaderBad die.val k) :
    exec (.wardenRelease req die core) s = .next (
      let id := s.sramWord die.val k 4 + 4294967296 * s.sramWord die.val k 5
      let u := if k = 0 then s.setPair (WLOAD.BID_W0_LO.on die.val) (WLOAD.BID_W0_HI.on die.val) id
        else s.setPair (WLOAD.BID_W1_LO.on die.val) (WLOAD.BID_W1_HI.on die.val) id
      (((u.set (wBad die.val k) 0).set (FWI.RELEASED.at die.val k) 1).set (WCORE.RESTART_PC.at die.val k)
        (s.sramWord die.val k 2)).runWarden die.val k 0) := by
  subst hk
  exact congrArg Host.Outcome.next ((State.onWrite_of_reaches s h).trans ((if_neg (by simp [held])).trans (if_neg good)))

end Held

theorem State.not_wardenHeaderBad {d k : Nat} (magic : s.sramWord d k 0 = 0x474D4941) (short : 64 ≤ s.sramWord d k 3)
    (long : s.sramWord d k 3 ≤ 262144) (entry : s.sramWord d k 1 < s.sramWord d k 3) : ¬ s.wardenHeaderBad d k := by
  unfold State.wardenHeaderBad; omega

end Wardens

/-- Settles O7, by what each write and each end finds, the verdict of a staged bundle and the header of an image. -/
theorem bundleAndWardenImagesLoad : Obligations.BundleAndWardenImagesLoad := by
  unfold Obligations.BundleAndWardenImagesLoad
  and_intros
  · exact fun s req h opens nonempty fits => (exec_fetch h).trans (congrArg _ (if_neg (by simp [opens]; omega)))
  · exact fun s req h bad => (exec_fetch h).trans (congrArg _ (if_pos (bad.imp_left (by simp [·]))))
  · exact fun s b fetches => if_neg (not_not.2 fetches)
  · exact fun s b fetches => exec_fetchDone_of_good fetches
  · exact fun s b pcieError idle => if_pos (by simp [idle])
  · exact fun s req h opens still idle => (exec_bundleCheck h).trans (congrArg _ (if_neg (by simp [opens, still, idle])))
  · exact fun s req h bad => (exec_bundleCheck h).trans (congrArg _ (if_pos (bad.imp_left (by simp [·]))))
  · intro s b checks staged good
    rw [exec_bundleCheckDone_of_some checks staged]
    simp only [good, if_true]
    rfl
  · exact fun s b checks staged bad => (exec_bundleCheckDone_of_some checks staged).trans (congrArg _ (if_neg bad))
  · exact fun s checks staged => exec_bundleCheckDone_of_none checks staged
  · exact fun s idle => if_pos (by simp [idle])
  · exact fun s req die value h held room => (exec_imgData h).trans (congrArg _ (if_neg (by simp [held, room])))
  · exact fun s req die value h bad => (exec_imgData h).trans (congrArg _ (if_pos bad))
  · exact fun s req die core h held bad => exec_wardenRelease_of_bad h held bad
  · exact fun s req die core h released => exec_wardenRelease_of_released h released
  · intro s req die h held magic short long entry
    rw [exec_wardenRelease_of_good (core := 0) (k := 0) h held rfl (State.not_wardenHeaderBad magic short long entry)]
    simp only [if_true]
  · intro s req die h held magic short long entry
    rw [exec_wardenRelease_of_good (core := 1) (k := 1) h held rfl (State.not_wardenHeaderBad magic short long entry)]
    simp only [one_ne_zero, if_false]

/-- Settles O42: each command of the host is served by the one act, which refuses in order. -/
theorem hostCommandsAreRefusedInOrder : Obligations.HostCommandsAreRefusedInOrder := by
  unfold Obligations.HostCommandsAreRefusedInOrder
  and_intros
  all_goals exact fun s => s.serve_refuses

end Sys2Proof.Machine
end

section
/-! SUPPORT. Proofs of spec/06_tumbler.md: the slots of a micro-word that a guard holds back or that issue, results on their way, bay
accesses past the last line, and the sequencer with the routes. -/

namespace Sys2Proof.Machine

/-! A slot whose guard is false (R180, R183). -/

section Slots

variable {s : State} {t : Tumbler} {slot : Slot} {op : Nat → Bool} {c : Instr} {y : Tum} {w : Nat}

/-- A slot that PAPPLY marks does not issue where the predicate of PSEL is false: the note of its turn changes no predicate. -/
theorem State.guardHolds_of_guardFalse {b : Nat} (hb : slot.guardBit = some b) (g : s.GuardFalse t b) :
    guardHolds { s.tum t.die.val (posOf t) with slots := withBit (s.tum t.die.val (posOf t)).slots slot.num true }
      (s.uword t.die.val (posOf t) (s.tum t.die.val (posOf t))) slot = false := by
  obtain ⟨marked, off⟩ := g
  unfold guardHolds
  simp only [hb, marked, off, Bool.not_true, Bool.or_self]

/-- A command that is the issue of a slot does nothing where the guard of the slot is false. -/
theorem issuesNothing_of_guardFalse {b : Nat} {act : State → Nat → Nat → Tum → Nat → State}
    (hc : exec c s = .next (s.issue t slot op act)) (hb : slot.guardBit = some b) (g : s.GuardFalse t b) :
    IssuesNothing s t slot (exec c s) := by
  rw [hc]
  exact (s.issue_of_guarded (State.guardHolds_of_guardFalse hb g)).imp (congrArg _) (congrArg _)

/-- The same for a slot whose effect is on the tumbler alone. -/
theorem issuesNothing_of_guardFalse_tum {b : Nat} {act : Tum → Nat → Tum}
    (hc : exec c s = .next (s.issueTum t slot op act)) (hb : slot.guardBit = some b) (g : s.GuardFalse t b) :
    IssuesNothing s t slot (exec c s) :=
  issuesNothing_of_guardFalse hc hb g

/-! A slot that issues (R176, R180). -/

/-- A command that is the issue of a slot that can issue has the slot's effect. -/
theorem exec_of_canIssue {act : State → Nat → Nat → Tum → Nat → State} (hc : exec c s = .next (s.issue t slot op act))
    (h : s.CanIssue t slot y w) (o : op w = true) {u : State}
    (hu : act (s.setTum t.die.val (posOf t) y) t.die.val (posOf t) y w = u) : exec c s = .next u :=
  hc.trans (congrArg _ ((s.issue_of_canIssue h o).trans hu))

/-- The same for an effect on the tumbler alone. -/
theorem exec_of_canIssue_tum {act : Tum → Nat → Tum} (hc : exec c s = .next (s.issueTum t slot op act))
    (h : s.CanIssue t slot y w) (o : op w = true) {z : Tum} (hz : act y w = z) :
    exec c s = .next (s.setTum t.die.val (posOf t) z) := by
  rw [hc, s.issueTum_of_canIssue h o, hz]

/-- A scalar operation that raises no flags. -/
theorem State.scalarOp_of_no_flags {op lat : Nat} {f : Tum → Nat → Nat} (h : s.CanIssue t .scalar y w) (o : sop w = op) :
    s.scalarOp t op lat (fun x w => (f x w, {})) =
      s.setTum t.die.val (posOf t) (y.later lat .scal (destS w) 0 32 (f y w) 2) := by
  rw [s.scalarOp_of_canIssue h o, Flags.bits_empty, Tum.flag_zero]

/-- OUTER accumulates 64 cells, and 16 of a quadrant for BF16. -/
theorem exec_outer_of_canIssue (h : s.CanIssue t .mac y w) (o : mop w = 1) :
    exec (.outer t) s = .next (s.setTum t.die.val (posOf t)
      (if fmtOf w = 5 then
        y.mac w ((gridOf 4).map (fun p => (quadCell w (rowOf w % 4) p.1 p.2,
          [(elem (elem (srcA y w) 64 (groupA w)) 16 p.1, elem (elem (srcB y w) 64 (groupB w)) 16 p.2)])))
      else y.mac w ((gridOf 8).map (fun p => (cellOf w p.1 p.2,
        [(elem (elem (srcA y w) 64 (groupA w)) 8 p.1, elem (elem (srcB y w) 64 (groupB w)) 8 p.2)]))))) :=
  exec_of_canIssue_tum rfl h (by simp [o]) rfl

end Slots

/-- Settles O43: each command is the issue of its slot, and a false guard holds that back. -/
theorem aSlotWhoseGuardIsFalseIssuesNothing : Obligations.ASlotWhoseGuardIsFalseIssuesNothing := by
  unfold Obligations.ASlotWhoseGuardIsFalseIssuesNothing
  and_intros
  iterate 13 exact fun s t => issuesNothing_of_guardFalse_tum rfl rfl -- the MAC slot
  · exact fun s t _ _ => issuesNothing_of_guardFalse rfl rfl
  · exact fun s t => issuesNothing_of_guardFalse rfl rfl
  · exact fun s t _ _ => issuesNothing_of_guardFalse rfl rfl
  · exact fun s t => issuesNothing_of_guardFalse rfl rfl
  iterate 26 exact fun s t => issuesNothing_of_guardFalse_tum rfl rfl -- the scalar slot
  iterate 4 exact fun s t => issuesNothing_of_guardFalse rfl rfl -- the keyway slots

/-- Settles O16: each command is the issue of the MAC slot, whose effect the statement spells out. -/
theorem macSlotOperations : Obligations.MacSlotOperations := by
  unfold Obligations.MacSlotOperations
  refine ⟨fun s t y w h o f => ?outer, fun s t y w h o f => ?outerBf16, ?others⟩
  case outer => rw [exec_outer_of_canIssue h o, if_neg f]
  case outerBf16 => rw [exec_outer_of_canIssue h o, if_pos f]
  case others =>
    and_intros
    all_goals exact fun s t y w h o => exec_of_canIssue_tum rfl h (by simp [o]) rfl

/-- Settles O17: each command is the issue of the scalar slot, with a result for Sd or for Pd, or a counter to set. -/
theorem scalarSlotOperations : Obligations.ScalarSlotOperations := by
  unfold Obligations.ScalarSlotOperations
  and_intros
  iterate 12 exact fun s t y w h o => congrArg Host.Outcome.next (State.scalarOp_of_no_flags h o) -- ADD to SHLI
  · exact fun s t y w h o => congrArg Host.Outcome.next (s.scalarOp_of_canIssue h o)
  · exact fun s t y w h o => congrArg Host.Outcome.next (s.scalarOp_of_canIssue h o)
  · exact fun s t y w h o => congrArg Host.Outcome.next (State.scalarOp_of_no_flags h o)
  · exact fun s t y w h o => congrArg Host.Outcome.next (s.scalarOp_of_canIssue h o)
  iterate 9 exact fun s t y w h o => congrArg Host.Outcome.next (s.predOp_of_canIssue h o) -- the compares, PAND, POR and PNOT
  · exact fun s t y w h o => exec_of_canIssue_tum rfl h (by simp [o]) rfl

/-! Bay accesses (R186, R187, R266). -/

section Bays

variable {s : State} {t : Tumbler} {corrected bad : BitVec 4} {y : Tum} {w : Nat}

theorem exec_bld_of_beyond (h : s.CanIssue t .bay y w) (o : bop w = 1) (far : bayLines ≤ bayLine y w) :
    exec (.bld t corrected bad) s = .next (s.setTum t.die.val (posOf t)
      (((y.later 4 .vec (bayReg w) (128 * (baySub w % 2)) 128 0 0).inc w).flag 8)) :=
  exec_of_canIssue rfl h (by simp [o]) ((if_pos far).trans (s.setTum_setTum _ _ _ _))

theorem exec_blds_of_beyond (h : s.CanIssue t .bay y w) (o : bop w = 3) (far : bayLines ≤ bayLine y w) :
    exec (.blds t corrected bad) s = .next (s.setTum t.die.val (posOf t)
      (((y.later 4 .scal (bayReg w % 16) 0 32 0 0).inc w).flag 8)) :=
  exec_of_canIssue rfl h (by simp [o]) ((if_pos far).trans (s.setTum_setTum _ _ _ _))

theorem exec_bst_of_beyond (h : s.CanIssue t .bay y w) (o : bop w = 2) (far : bayLines ≤ bayLine y w) :
    exec (.bst t) s = .next (s.setTum t.die.val (posOf t) ((y.inc w).flag 8)) :=
  exec_of_canIssue rfl h (by simp [o]) ((if_pos far).trans (s.setTum_setTum _ _ _ _))

theorem exec_bsts_of_beyond (h : s.CanIssue t .bay y w) (o : bop w = 4) (far : bayLines ≤ bayLine y w) :
    exec (.bsts t) s = .next (s.setTum t.die.val (posOf t) ((y.inc w).flag 8)) :=
  exec_of_canIssue rfl h (by simp [o]) ((if_pos far).trans (s.setTum_setTum _ _ _ _))

end Bays

/-- Settles O18, by whether the line is within the bay. -/
theorem baySlotOperations : Obligations.BaySlotOperations := by
  unfold Obligations.BaySlotOperations
  and_intros
  · exact fun s t corrected bad y w h o near =>
      exec_of_canIssue rfl h (by simp [o]) (if_neg (Nat.not_le.2 near))
  · exact fun s t corrected bad y w => exec_bld_of_beyond
  · exact fun s t corrected bad y w h o near =>
      exec_of_canIssue rfl h (by simp [o]) (if_neg (Nat.not_le.2 near))
  · exact fun s t corrected bad y w => exec_blds_of_beyond
  · exact fun s t y w h o near => exec_of_canIssue rfl h (by simp [o]) (if_neg (Nat.not_le.2 near))
  · exact fun s t y w => exec_bst_of_beyond
  · exact fun s t y w h o near => exec_of_canIssue rfl h (by simp [o]) (if_neg (Nat.not_le.2 near))
  · exact fun s t y w => exec_bsts_of_beyond

/-- INC reads S[SB], which a flag does not touch, so that the two commute. -/
theorem Tum.flag_inc (x : Tum) (w bits : Nat) : (x.inc w).flag bits = (x.flag bits).inc w := by
  unfold Tum.inc
  split <;> rfl

/-- Writing a tumbler changes no line of a bay. -/
theorem State.bays_setTum (s : State) (d p : Nat) (x : Tum) (e : Nat) : ((s.setTum d p x).die e).bays = (s.die e).bays := by
  by_cases same : d = e
  · subst same
    unfold State.setTum
    rw [s.die_onDie_same]
  · exact congrArg Die.bays (s.die_onDie_ne d e _ same)

/-- A command that only writes its tumbler, and that with INC done and BR set, changes no line of a bay and lets INC apply. -/
theorem answers_of_inc_flag {s : State} {t : Tumbler} {c : Instr} {x : Tum} {w : Nat}
    (hc : exec c s = .next (s.setTum t.die.val (posOf t) ((x.inc w).flag 8))) :
    Answers c s (fun u => (∀ d : Nat, (u.die d).bays = (s.die d).bays) ∧
      ∃ z : Tum, u.tum t.die.val (posOf t) = z.inc w ∧ z.flags = x.flags ||| 8 ∧ z.vec = x.vec ∧ z.scal = x.scal ∧ z.preds = x.preds ∧
        z.writes = x.writes) :=
  ⟨_, hc, fun d => s.bays_setTum _ _ _ d, x.flag 8, (s.tum_setTum _ _ _).trans (x.flag_inc w 8), rfl, rfl, rfl, rfl, rfl⟩

/-- Settles O52: past the last line an access is the write of the tumbler alone. -/
theorem bayAccessBeyondTheLastLineIsNotPerformed : Obligations.BayAccessBeyondTheLastLineIsNotPerformed := by
  unfold Obligations.BayAccessBeyondTheLastLineIsNotPerformed
  and_intros
  · exact fun s t corrected bad y w h far o => answers_of_inc_flag (exec_bld_of_beyond h o far)
  · exact fun s t corrected bad y w h far o => answers_of_inc_flag (exec_blds_of_beyond h o far)
  · exact fun s t y w h far o => answers_of_inc_flag (exec_bst_of_beyond h o far)
  · exact fun s t y w h far o => answers_of_inc_flag (exec_bsts_of_beyond h o far)

/-! Results on their way (R197, R199). -/

section Writes

variable {x : Tum} {k : RegWrite} {free c : Nat}

/-- Of one write that reaches a register, that one is kept. -/
theorem keptWrite_singleton (h : k.rank ≤ 9) : keptWrite free [k] = some k := by
  have first : min 9 k.rank = k.rank := Nat.min_eq_right h
  simp [keptWrite, first, Nat.mod_one]

/-- A write that is not due stays on its way, and nothing lands. -/
theorem Tum.arrive_of_not_due (hw : x.writes = [k]) (h : c < k.due) : x.arrive free c = x := by
  simp only [Tum.arrive, hw, List.filter_cons, List.filter_nil, Nat.not_le.2 h, h, decide_true, decide_false, if_true]
  rw [← hw]
  rfl

/-- A write that is due, the only one on its way, lands. -/
theorem Tum.arrive_of_due (hw : x.writes = [k]) (hr : k.rank ≤ 9) (h : k.due ≤ c) :
    x.arrive free c = ({ x with writes := [] }).land k := by
  simp [Tum.arrive, hw, landAll, h, Nat.not_lt.2 h, sameReg, keptWrite_singleton hr]

/-- A word with its low 32 bits replaced has those low bits. -/
theorem withField_low_mod (v n : Nat) : withField v 0 32 n % 2 ^ 32 = n % 2 ^ 32 := by
  simp only [withField, bitsOf, pow_zero, Nat.div_one, Nat.mul_one]
  omega

end Writes

/-- A scalar register reads what was put into it, and the others as before. -/
theorem Tum.s_land (x : Tum) (k : RegWrite) (h : k.file = .scal) (j : Nat) :
    (x.land k).s j = if j = k.idx then withField (x.s j) k.lo k.width k.value else x.s j := by
  have landed : (x.land k).scal = aputD x.scal k.idx 0 (withField (x.s k.idx) k.lo k.width k.value) := by
    unfold Tum.land; rw [h]
  unfold Tum.s at landed ⊢
  rw [landed]
  split
  next e => rw [e, aget_aputD_same]
  next e => rw [aget_aputD_ne _ _ _ _ _ (Ne.symm e)]

/-- Settles O57: before its cycle the one write on its way stays there, and from that cycle on it has landed. -/
theorem aResultIsReadAfterItsLatencyAndNotBefore : Obligations.AResultIsReadAfterItsLatencyAndNotBefore := by
  unfold Obligations.AResultIsReadAfterItsLatencyAndNotBefore
  intro x free c lat i v rank idle hr
  have alone : (x.later lat .scal i 0 32 v rank).writes = [⟨x.cycle + lat, .scal, i, 0, 32, v % 2 ^ 32, rank⟩] := by
    simp [Tum.later, idle]
  by_cases early : c < x.cycle + lat
  · rw [Tum.arrive_of_not_due alone early, if_pos early]
    exact ⟨rfl, fun _ _ => rfl, rfl, rfl, rfl⟩
  · rw [Tum.arrive_of_due alone hr (Nat.not_lt.1 early), if_neg early]
    refine ⟨?_, fun j other => ?_, rfl, rfl, rfl⟩
    · rw [Tum.s_land _ _ rfl, if_pos rfl, withField_low_mod, Nat.mod_mod]
    · rw [Tum.s_land _ _ rfl, if_neg other]; rfl

/-! The sequencer (R176, R182, R200). -/

/-- Writing a tumbler changes no register field. -/
@[simp] theorem State.get_setTum (s : State) (d p : Nat) (x : Tum) (f : Field) : (s.setTum d p x).get f = s.get f := rfl

section Sequencer

variable {s : State} {t : Tumbler} {c : Instr} {x : Tum} {op : Nat → Bool} {go : Tum → Nat → Tum}

/-- The state where the cycle of the tumbler `x` ends that its sequencer left as `y`: the next cycle begins with every slot to issue, the
writes due land, and the words presented to it are gone. -/
def State.endCycle (s : State) (t : Tumbler) (x y : Tum) : State :=
  let z := ({ y with cycle := x.cycle + 1, slots := 0 }).arrive s.free (x.cycle + 1)
  let v := (s.useFree.setTum t.die.val (posOf t) z).set (ARRAY.SECTION_CYCLE.on t.die.val)
    (max ((s.useFree.setTum t.die.val (posOf t) z).get (ARRAY.SECTION_CYCLE.on t.die.val)) (x.cycle + 1))
  v.onDie t.die.val (fun e =>
    { e with flights := e.flights.filter (fun f => f.gate || f.dst != posOf t || x.cycle + 1 ≤ f.due) })

/-- Once the whole word has issued the act of the sequencer ends the cycle; a halted tumbler stays as it is. -/
theorem State.sequence_of_wholeWord (hx : x = s.tum t.die.val (posOf t)) (issues : s.issues t.die.val x = true)
    (whole : wholeWord x (s.uword t.die.val (posOf t) x) = true) (o : op (s.uword t.die.val (posOf t) x) = true) :
    s.sequence t op go = s.endCycle t x (if x.halted then x
      else (go { x with lastAddr := x.addr } (s.uword t.die.val (posOf t) x)).setLoop x.addr) := by
  subst hx
  unfold State.endCycle
  simp only [State.get_setTum, State.get_useFree]
  exact if_pos (by simp only [issues, whole, o, Bool.and_self])

/-- A command that is an act of the sequencer of a running tumbler ends the cycle with that act, and then the word's LOOPI. -/
theorem exec_of_wholeWord (hc : exec c s = .next (s.sequence t op go)) (hx : x = s.tum t.die.val (posOf t))
    (issues : s.issues t.die.val x = true) (running : x.halted = false)
    (whole : wholeWord x (s.uword t.die.val (posOf t) x) = true) (o : op (s.uword t.die.val (posOf t) x) = true) :
    exec c s = .next (s.endCycle t x
      ((go { x with lastAddr := x.addr } (s.uword t.die.val (posOf t) x)).setLoop x.addr)) := by
  rw [hc, State.sequence_of_wholeWord hx issues whole o, if_neg (by simp [running])]

/-- Before the whole word has issued, or where the tumbler issues nothing, the sequencer does not act. -/
theorem State.sequence_of_not_wholeWord (hx : x = s.tum t.die.val (posOf t))
    (h : s.issues t.die.val x = false ∨ wholeWord x (s.uword t.die.val (posOf t) x) = false) : s.sequence t op go = s := by
  subst hx
  exact if_neg (by rcases h with h | h <;> simp [h])

/-- The all-NOP word holds no operation, so that it has always issued. -/
theorem wholeWord_zero : wholeWord x 0 = true := by
  have nop : ∀ k : Slot, holdsOp 0 k = false := by intro k; cases k <;> decide
  simp [wholeWord, nop]

/-- A halted tumbler goes on to its next cycle (R182). -/
theorem exec_next_of_halted (hx : x = s.tum t.die.val (posOf t)) (issues : s.issues t.die.val x = true) (halted : x.halted = true) :
    exec (.next t) s = .next (s.endCycle t x x) := by
  have nop : s.uword t.die.val (posOf t) x = 0 := if_pos halted
  refine congrArg Host.Outcome.next ((State.sequence_of_wholeWord hx issues ?_ ?_).trans ?_)
  · rw [nop]; exact wholeWord_zero
  · rw [nop]; rfl
  · rw [if_pos halted]

end Sequencer

/-- Settles O19: an act of the sequencer ends the cycle or is none; each send and capture is the issue of its slot. -/
theorem sequencerRoutesAndControl : Obligations.SequencerRoutesAndControl := by
  unfold Obligations.SequencerRoutesAndControl
  and_intros
  · intro s t x hx issues running whole o
    rw [exec_of_wholeWord (c := .next t) rfl hx issues running whole (by simp [o])]
    rfl
  · intro s t x hx issues running whole o last
    rw [exec_of_wholeWord (c := .loopEnd t) rfl hx issues running whole (by simp [o]), if_pos o, if_pos last]
    rfl
  · intro s t x hx issues running whole o more
    rw [exec_of_wholeWord (c := .loopEnd t) rfl hx issues running whole (by simp [o]), if_pos o, if_neg more]
    rfl
  · intro s t x hx issues running whole o last
    rw [exec_of_wholeWord (c := .loopEnd t) rfl hx issues running whole (by simp [o]), if_neg (by simp [o]), if_pos last]
    rfl
  · intro s t x hx issues running whole o more
    rw [exec_of_wholeWord (c := .loopEnd t) rfl hx issues running whole (by simp [o]), if_neg (by simp [o]), if_neg more]
    rfl
  · intro s t x hx issues running whole o
    rw [exec_of_wholeWord (c := .halt t) rfl hx issues running whole (by simp [o])]
    rfl
  · intro s t x hx issues halted
    rw [exec_next_of_halted hx issues halted]
    simp only [State.endCycle, State.get_setTum, State.get_useFree]
  · exact fun s t x hx h => ⟨congrArg Host.Outcome.next (State.sequence_of_not_wholeWord hx h),
      congrArg Host.Outcome.next (State.sequence_of_not_wholeWord hx h),
      congrArg Host.Outcome.next (State.sequence_of_not_wholeWord hx h)⟩
  · exact fun s t y w h o => exec_of_canIssue rfl h (by simp [o]) rfl
  · exact fun s t y w h o => exec_of_canIssue rfl h (by simp [o]) rfl
  · exact fun s t y w h o => exec_of_canIssue rfl h (by simp [o]) rfl
  · intro s t y w h o
    refine exec_of_canIssue rfl h (by simp [o]) ?_
    dsimp only
    cases (s.setTum t.die.val (posOf t) y).presented t.die.val false (posOf t) .scalar y.cycle <;> rfl
  · exact fun s t y w h o => exec_of_canIssue rfl h (by simp [o]) rfl
  · exact fun s t y w h o => exec_of_canIssue rfl h (by simp [o]) rfl
  · exact fun s t y w h o => exec_of_canIssue rfl h (by simp [o]) rfl
  · exact fun s t y w h o => exec_of_canIssue rfl h (by simp [o]) rfl

end Sys2Proof.Machine
end

section
/-! SUPPORT. Proofs of spec/07_keyway.md: the commands of the context, and the array from the end of a quiesce to the start of the next
key. -/

namespace Sys2Proof.Machine

/-! The commands of the context (R383 to R388). -/

section Contexts

variable {s : State} {req : Requester} {die : DieNo}

/-- A command that is a write let through answers what its act answers. -/
theorem exec_of_reaches {c : Instr} {chip i v : Nat} {p : Page} {r : Reg} {act : State → State} {t : State}
    (hc : exec c s = .next (s.onWrite chip p r i req.val v act)) (h : s.Reaches chip p r i req) (ha : act s = t) :
    exec c s = .next t :=
  hc.trans (congrArg _ ((State.onWrite_of_reaches s h).trans ha))

/-- In OPEN, not closing and with no images on their way, SERVE looks at the keyring, then at the heap. -/
theorem exec_serve_of_open (h : s.Reaches die.val CTX.page CTX.SERVE 0 req) (open_ : s.get (CTX.STATE.on die.val) = 1)
    (hc : s.is (CTXI.CLOSING.on die.val) = false) (hb : s.is (CTXI.BAYS_LOADING.on die.val) = false) :
    exec (.serve req die) s = .next (
      if ¬ s.is (KRING.VERIFIED.on die.val) then s.refuseCtx die.val CTX.SERVE 7 req.val 2
      else if ¬ s.is (HEAP.INITED.on die.val) ∧ (List.range 9).any (fun n => s.get (HEAP.COUNT.at die.val n) != 0) then
        s.refuseCtx die.val CTX.SERVE 8 req.val 2
      else s.set (CTXI.BAYS_LOADING.on die.val) 1) :=
  exec_of_reaches rfl h (if_neg (by simp [open_, hc, hb]))

end Contexts

/-- Settles O29, by the causes of refusal of each command in their order, and by whether a unit of the bay images is in error. -/
theorem contextsOpenServeDrainAndClose : Obligations.ContextsOpenServeDrainAndClose := by
  unfold Obligations.ContextsOpenServeDrainAndClose
  and_intros
  · exact fun s req die h accepted => exec_of_reaches rfl h (if_neg (not_not.2 accepted))
  · exact fun s req die h refused => exec_of_reaches rfl h (if_pos refused)
  · exact fun s req die h open_ hc hb verified inited => (exec_serve_of_open h open_ hc hb).trans (by simp [verified, inited])
  · exact fun s req die h other => exec_of_reaches rfl h (if_pos (.inl other))
  · exact fun s req die h open_ hc hb unverified => (exec_serve_of_open h open_ hc hb).trans (by simp [unverified])
  · intro s die ecc hr hb good
    show execBayImageLoaded die ecc s = _
    unfold execBayImageLoaded
    rw [if_neg (by simp [hr, hb])]
    dsimp only
    rw [good, if_neg (not_not.2 rfl), State.each_nil]
  · exact fun s die ecc hr hb bad => (if_neg (by simp [hr, hb])).trans (if_pos bad)
  · exact fun s req die h other => exec_of_reaches rfl h (if_pos other)
  · exact fun s req die h serving early => exec_of_reaches rfl h ((if_neg (not_not.2 serving)).trans (if_pos early))
  · exact fun s req die h serving ahead => exec_of_reaches rfl h ((if_neg (not_not.2 serving)).trans (if_neg ahead.not_gt))
  · exact fun s req die h hs hc => exec_of_reaches rfl h (if_pos ⟨hs, by simp [hc]⟩)
  · exact fun s req die h notOpen notFaulted => exec_of_reaches rfl h (if_neg (by simp [notOpen, notFaulted]))
  · exact fun s die hr hc => if_neg (by simp [hr, hc])

/-- Settles O33: with its key at hand and no condition that holds it back, each command does the act that its rule names. -/
theorem theHingeSwapsKeysAndStartsTheNext : Obligations.TheHingeSwapsKeysAndStartsTheNext := by
  unfold Obligations.TheHingeSwapsKeysAndStartsTheNext
  and_intros
  · intro s die enabled total key hr active hp hf hs long within hl he
    show execQuiesceEnd die enabled total s = _
    unfold execQuiesceEnd
    simp only [active]
    exact if_neg (by simp [hr, hp, hf, hs, long.not_gt, within.not_gt, hl, he])
  · intro s die waited key shadow may
    show execHinge die waited s = _
    unfold execHinge
    simp only [shadow]
    -- every branch of the hinge answers a next state
    rw [if_neg (not_not.2 may), ← apply_ite Host.Outcome.next, ← apply_ite Host.Outcome.next]
  · exact fun s die cycles ecc hr hs => if_neg (by simp [hr, hs])
  · intro s die waited key hr active hp released hh hf due
    show execKeyStart die waited s = _
    unfold execKeyStart
    simp only [active]
    exact if_neg (by simp [hr, hp, released, hh, hf, due.not_gt])

end Sys2Proof.Machine
end

section
/-! SUPPORT. Proofs of spec/08_keys_hinges.md: the issues of the gate units, the chunks of their memory side and the global freeze. -/

namespace Sys2Proof.Machine

/-! The steps of a gate unit (R244). -/

/-- A SEND that is due and finds a word drives the oldest of the queue, or one of those owed where the queue is empty. -/
theorem exec_guSend_of_ready {s : State} {die : DieNo} {gate : Fin 256} {step : Fin 16} {x : GateStep} {n : Nat}
    (due : s.dueStep die.val gate.val step.val = some (x, n)) (send : x.take = false)
    (runs : s.gatesRun die.val false = true) (ready : sendReady (s.gate die.val gate.val) n = true) :
    exec (.guSend die gate step) s = .next (
      let g := countIssue (s.gate die.val gate.val) step.val
      match g.ingress with
      | (w, _) :: rest => ((s.setGate die.val gate.val { g with ingress := rest, inRead := g.inRead + 1 }).gateDrive die.val
          gate.val x.port n w).reach die.val n
      | [] => ((s.setGate die.val gate.val { g with ones := g.ones - 1 }).gateDrive die.val gate.val x.port n
          (2 ^ 256 - 1)).reach die.val n) := by
  show execGuSend die gate step s = _
  unfold execGuSend
  simp only [due]
  rw [if_neg (by simp [send, runs, ready])]
  cases (countIssue (s.gate die.val gate.val) step.val).ingress <;> rfl

/-- Counting a capture from a tap that no route serves changes no gate unit. -/
@[simp] theorem State.gate_captureCount (s : State) (d net : Nat) (gate : Bool) (dst e k : Nat) :
    (s.captureCount d net gate dst).gate e k = s.gate e k := by
  unfold State.captureCount
  split
  · rfl
  · exact congrArg (fun x : Die => (aget x.gates k).getD {}) (s.die_set _ _ e)

/-! The chunks of a gate unit (R243, R279, R281). -/

/-- An ingress chunk whose address is known, with room for it and no word owed, is refused, in error or put into the queue. -/
theorem exec_guIngressChunk_of_at {s : State} {die : DieNo} {gate : Fin 256} {ecc : Ecc} {p : GateProg} {i : Nat} {m : GateMem}
    {a : Nat} (prog : s.gateProg die.val gate.val = some p)
    (mem : currentMem p (s.gate die.val gate.val) false = some (i, m)) (hr : s.inReset die.val = false)
    (ones : (s.gate die.val gate.val).ones = 0)
    (room : (s.gate die.val gate.val).ingress.length + m.chunk / 32 ≤ splitOf p false)
    (lies : s.chunkAt die.val (s.gate die.val gate.val) i m ((aget (s.gate die.val gate.val).chunks i).getD 0) = .at a) :
    exec (.guIngressChunk die gate ecc) s = .next (
      let g := s.gate die.val gate.val
      let c := (aget g.chunks i).getD 0
      let seen := s.chunkErrors die.val gate.val false a m.chunk ecc
      let ws := (wordsOf (s.readBytes die.val a m.chunk []) (m.chunk / 32)).map (fun w => (w, s.sendableFrom die.val))
      if ¬ s.permitted die.val 3 false a m.chunk then
        (s.refuseAccess die.val 3 gate.val 0 false a m.chunk).faultDesc die.val gate.val i m c
      else if badUnits ecc false a m.chunk ≠ [] then seen.faultDesc die.val gate.val i m c
      else seen.setGate die.val gate.val
        { g with ingress := g.ingress ++ ws, inWrite := g.inWrite + ws.length, chunks := aput g.chunks i (c + 1) }) := by
  show execGuIngressChunk die gate ecc s = _
  unfold execGuIngressChunk
  simp only [prog, mem, lies]
  -- past the guard every branch answers a next state
  rw [if_neg (by simp [hr, ones, room]), apply_ite Host.Outcome.next, apply_ite Host.Outcome.next]

/-! The cycles of a freeze (R250). -/

/-- Counting the cycles of a freeze takes no time. -/
@[simp] theorem State.countFreeze_clock (s : State) (d cycles : Nat) (held : List (Nat × Nat)) :
    (s.countFreeze d cycles held).clock = s.clock := by
  unfold State.countFreeze
  refine foldl_keeps (fun u : State => u.clock = s.clock) _ ?unit _ _ ?total
  case unit => exact fun _ _ h => h
  case total => simp [State.carriedFreeze, State.count]

/-- Settles O23, by what each step, chunk and end finds: its guard holds it back, or it does the act that its rule names. -/
theorem gateUnitsSendTakeMoveAndFreeze : Obligations.GateUnitsSendTakeMoveAndFreeze := by
  unfold Obligations.GateUnitsSendTakeMoveAndFreeze
  and_intros
  · intro s die gate step x n w m rest due send runs ready oldest
    rw [exec_guSend_of_ready due send runs ready]
    simp only [countIssue, oldest]
  · intro s die gate step x n due send runs ready empty
    rw [exec_guSend_of_ready due send runs ready]
    simp only [countIssue, empty]
  · intro s die gate step x n p due prog take runs room
    -- the unit captures the same whether or not the capture was counted
    have unit : (if x.port = 0 then s else s.captureCount die.val (x.port - 1) true gate.val).gate die.val gate.val =
        s.gate die.val gate.val := by split <;> simp
    show execGuTake die gate step s = _
    unfold execGuTake
    simp only [due, prog, unit]
    exact if_neg (by simp [take, runs, room])
  · exact fun s die gate ecc p i m a prog mem hr ones room lies may good =>
      (exec_guIngressChunk_of_at prog mem hr ones room lies).trans
        (congrArg _ ((if_neg (not_not.2 may)).trans (if_neg (not_not.2 good))))
  · exact fun s die gate ecc p i m a prog mem hr ones room lies barred =>
      (exec_guIngressChunk_of_at prog mem hr ones room lies).trans (congrArg _ (if_pos (by simp [barred])))
  · intro s die gate ecc p i m a prog mem hr words lies may good
    show execGuEgressAck die gate ecc s = _
    unfold execGuEgressAck
    simp only [prog, mem, lies]
    rw [if_neg (by simp [hr, words]), if_neg (not_not.2 may), if_neg (not_not.2 good)]
  · intro s die gate step x n p due prog hr hp request hf
    show execGlobalFreeze die gate step s = _
    unfold execGlobalFreeze
    simp only [due, prog]
    exact if_neg (by simp [hr, hp, request, hf])
  · exact fun s die cycles held hr hf hl still => if_neg (by simp [hr, hf, hl, still])
  · exact fun s die cycles held h => if_pos (by rcases h with h | h <;> simp [h])
  · intro s die gate cycles held hr hf hl request beyond
    refine (if_neg (by simp [hr, hf, hl, request, beyond])).trans ?_
    rw [State.countFreeze_clock]
  · exact fun s die gate cycles held h => if_pos (by rcases h with h | h | h | h <;> simp [h])

end Sys2Proof.Machine
end

section
/-! SUPPORT. Proofs of spec/09_memory.md: the heap, its allocator, and the host's side of the fault ring. -/

namespace Sys2Proof.Machine

/-! The tokens of a gate unit (R287). -/

/-- A gate unit passes its oldest token to the allocator where the token is of the kind asked for. -/
theorem State.passToken_of_kind {s : State} {d k t : Nat} {free : Bool} {rest : List Nat}
    (oldest : (s.gate d k).tokens = t :: rest) (kind : (t % 16 == 15) = free) :
    s.passToken d k free =
      (s.setGate d k { s.gate d k with tokens := rest }).askHeap d ⟨16 + k, bitsOf t 4 2, t % 16, 0⟩ := by
  unfold State.passToken
  simp only [oldest]
  exact if_pos kind

/-- Settles O21: a write that its page lets through does the act that its rule names, and past its guard each end and service does its. -/
theorem theHeapIsBuiltAllocatedAndFreed : Obligations.TheHeapIsBuiltAllocatedAndFreed := by
  unfold Obligations.TheHeapIsBuiltAllocatedAndFreed
  and_intros
  · exact fun s req die h open_ unbuilt fits small =>
      exec_of_reaches rfl h ((if_neg (by simp [open_, unbuilt])).trans (if_neg (not_or.2 ⟨fits.not_gt, by simp [small]⟩)))
  · exact fun s req die h barred => exec_of_reaches rfl h (if_pos barred)
  · exact fun s die hr built uninited => if_neg (by simp [hr, built, uninited])
  · exact fun s die hr => if_neg (by simp [hr])
  · exact fun s req die window h => exec_of_reaches rfl h rfl
  · exact fun s req die window h => exec_of_reaches rfl h rfl
  · exact fun s die gate t rest hr oldest alloc =>
      (if_neg (by simp [hr])).trans (congrArg _ (State.passToken_of_kind oldest (by simp [alloc])))
  · intro s die gate t rest hr oldest free
    have passed := State.passToken_of_kind (free := true) oldest (by simp [free])
    rw [free] at passed
    exact (if_neg (by simp [hr])).trans (congrArg _ passed)
  · exact fun s req die value h within => exec_of_reaches rfl h (if_neg within.not_gt)
  · exact fun s req die value h beyond => exec_of_reaches rfl h (if_pos beyond)
  · exact fun s req die h => exec_of_reaches rfl h rfl

end Sys2Proof.Machine
end

section
/-! SUPPORT. Proofs of spec/10_hasp_links.md: the codewords of a link from the message to its words; links that train, are lost and
forward fault records; streams described, sent and received. -/

namespace Sys2Proof.Machine

/-! The words and the CRC of a codeword (R304, R306). -/

/-- Each pair of a tag and a word takes 272 bits. -/
theorem wordsForm_lt {words : List (Nat × Nat)} (fits : ∀ w ∈ words, w.1 < 65536 ∧ w.2 < 2 ^ 256) :
    wordsForm words < 2 ^ (272 * words.length) := by
  induction words with
  | nil => exact Nat.one_pos
  | cons w t ih =>
    obtain ⟨tag, word⟩ := fits w (by simp)
    have below := append_lt 272 _ (w.1 + 65536 * w.2) _ (by omega) (ih (fun x hx => fits x (by simp [hx])))
    rwa [wordsForm, List.length_cons, Nat.mul_succ, Nat.add_comm (272 * _), Nat.mul_comm (2 ^ 272)]

/-- The tags and words are read as they were laid. -/
theorem pairsOf_wordsForm {words : List (Nat × Nat)} (fits : ∀ w ∈ words, w.1 < 65536 ∧ w.2 < 2 ^ 256) :
    pairsOf words.length (wordsForm words) = words := by
  induction words with
  | nil => rfl
  | cons w t ih =>
    obtain ⟨tag, word⟩ := fits w (by simp)
    have low : (w.1 + 65536 * w.2 + 2 ^ 272 * wordsForm t) % 65536 = w.1 := by omega
    have mid : (w.1 + 65536 * w.2 + 2 ^ 272 * wordsForm t) / 65536 % 2 ^ 256 = w.2 := by omega
    have high : (w.1 + 65536 * w.2 + 2 ^ 272 * wordsForm t) / 2 ^ 272 = wordsForm t := by omega
    rw [wordsForm, List.length_cons, pairsOf, low, mid, high, ih (fun x hx => fits x (by simp [hx]))]

/-- The bits of a CRC step stay below 2^32. -/
theorem crcBits_lt (n : Nat) {c : Nat} (h : c < 2 ^ 32) : crcBits n c < 2 ^ 32 := by
  induction n generalizing c with
  | zero => exact h
  | succ n ih =>
    rw [crcBits, forced_eq]
    exact ih (Nat.xor_lt_two_pow (by omega) (by omega))

/-- A running CRC over bytes stays below 2^32. -/
theorem crcBytes_lt {l : List Nat} (bytes : ∀ b ∈ l, b < 256) {c : Nat} (h : c < 2 ^ 32) : crcBytes l c < 2 ^ 32 := by
  induction l generalizing c with
  | nil => exact h
  | cons b t ih =>
    rw [crcBytes, forced_eq]
    exact ih (fun x hx => bytes x (by simp [hx]))
      (crcBits_lt 8 (Nat.xor_lt_two_pow h ((bytes b (by simp)).trans (by decide))))

theorem lt_of_mem_bytesOf {n v b : Nat} (h : b ∈ bytesOf n v) : b < 256 := by
  induction n generalizing v with
  | zero => cases h
  | succ n ih =>
    rcases List.mem_cons.1 h with h | h
    · omega
    · exact ih h

/-- The CRC of a CCB and its words has 32 bits. -/
theorem ccbCrc_lt (ccb words : Nat) : ccbCrc ccb words < 2 ^ 32 := by
  refine Nat.xor_lt_two_pow (crcBytes_lt (fun b hb => ?_) (by decide)) (by decide)
  rcases List.mem_append.1 hb with h | h <;> exact lt_of_mem_bytesOf h

/-! A message, and the codeword that carries it (R304, R307). -/

/-- The CCB, its CRC and the words fill a message up to its last four bits, and are read where they were laid. -/
theorem messageOf_parts {c : Ccb} {words : List (Nat × Nat)} (hc : c.form < 2 ^ 480) (hw : wordsForm words < 2 ^ 4624) :
    messageOf c words < 2 ^ 5140 ∧ messageOf c words % 2 ^ 480 = c.form ∧
      messageOf c words / 2 ^ 480 % 2 ^ 32 = ccbCrc c.form (wordsForm words) ∧
      messageOf c words / 2 ^ 512 % 2 ^ 4624 = wordsForm words := by
  have crc := ccbCrc_lt c.form (wordsForm words)
  unfold messageOf
  dsimp only
  generalize ccbCrc c.form (wordsForm words) = r at *
  generalize wordsForm words = w at *
  have head := append_lt 480 32 c.form r hc crc
  refine ⟨?_, ?_, ?_, ?_⟩
  · have all := append_lt 512 4624 (c.form + r * 2 ^ 480) w head hw
    rw [Nat.mul_comm _ r, Nat.mul_comm _ w]
    exact all.trans_le (Nat.pow_le_pow_right (by decide) (by decide))
  · omega
  · omega
  · rw [Nat.mul_comm _ r, Nat.add_mul_div_left _ _ (Nat.pow_pos (by decide)), Nat.div_eq_of_lt head, Nat.zero_add, Nat.mod_eq_of_lt hw]

/-- What the symbols of an encoded message hold before their parity is the message. -/
theorem packed_take_rsEncode {v : Nat} (h : v < 2 ^ 5140) : packed ((rsEncode (unpacked 514 v)).take 514) = v := by
  rw [rsEncode, List.take_left' (length_unpacked 514 v), packed_unpacked, show (1024 : Nat) = 2 ^ 10 from rfl, ← Nat.pow_mul]
  exact Nat.mod_eq_of_lt h

/-- A word with a codeword near it that descrambles to `d` decodes to what `d` spells, where the CRC in `d` is that of its parts. -/
theorem decodeCodeword_of_rsDecode {h : Nat} {symbols : List Nat} {r : List Nat × Nat} {d : Nat × Nat}
    (hr : rsDecode symbols = some r) (hd : descramble h 5140 (packed (r.1.take 514)) = d) :
    decodeCodeword h symbols =
      (if ccbCrc (d.1 % 2 ^ 480) (d.1 / 2 ^ 512 % 2 ^ 4624) = d.1 / 2 ^ 480 % 2 ^ 32 then
          .good r.2 (ccbOf (d.1 % 2 ^ 480)) (pairsOf 17 (d.1 / 2 ^ 512 % 2 ^ 4624)) else .badCrc, d.2) := by
  subst hd
  unfold decodeCodeword
  simp only [hr]

/-- The codeword of a message is decoded as it stands, no symbol corrected. -/
theorem rsDecode_codewordOf (h m : Nat) : rsDecode (codewordOf h m).1 = some ((codewordOf h m).1, 0) := rsDecode_encode _

/-- What the symbols of a message's codeword carry descrambles to the message, and leaves the descrambler where the scrambler ended. -/
theorem descramble_codewordOf {h m : Nat} (hh : h < 2 ^ 58) (hm : m < 2 ^ 5140) :
    descramble h 5140 (packed ((codewordOf h m).1.take 514)) = (m, (codewordOf h m).2) := by
  unfold codewordOf
  dsimp only
  rw [packed_take_rsEncode (scramble_lt h m hh), descramble_scramble h m hh, Nat.mod_eq_of_lt hm]

/-- Settles O59: the parity, the scrambler and the CRC are each taken back, and the CCB and the words lie apart in the message. -/
theorem aCodewordSentIsReadAsItWasLaid : Obligations.ACodewordSentIsReadAsItWasLaid := by
  unfold Obligations.ACodewordSentIsReadAsItWasLaid
  intro h c words hh len fits hc
  have hw : wordsForm words < 2 ^ 4624 := (wordsForm_lt fits).trans_le (Nat.pow_le_pow_right (by decide) (by omega))
  obtain ⟨below, ccb, crc, tagged⟩ := messageOf_parts hc hw
  rw [decodeCodeword_of_rsDecode (rsDecode_codewordOf h _) (descramble_codewordOf hh below), ccb, crc, tagged, if_pos rfl, ← len,
    pairsOf_wordsForm fits]

/-! Links from DETECT to UP (R308, R309, R312, R316, R326). -/

@[simp] theorem length_insertNat (x : Nat) (l : List Nat) : (insertNat x l).length = l.length + 1 := by
  induction l with
  | nil => rfl
  | cons y t ih =>
    rw [insertNat]
    split
    · rfl
    · rw [List.length_cons, ih, List.length_cons]

@[simp] theorem length_sortNat (l : List Nat) : (sortNat l).length = l.length := by
  induction l with
  | nil => rfl
  | cons x t ih => rw [sortNat, List.foldr_cons, length_insertNat, ← sortNat, ih, List.length_cons]

section Training

variable {s : State} {die : DieNo} {link : LinkNo}

/-- The parent link, its boundary within 2 tile cycles over 16 markers, makes a die that is not too deep LOCKED, and goes UP with its
partner (R313, R316). -/
theorem exec_beatLockDone_of_parent (trains : s.trains die.val link.val .beatLock = true) (parent : s.isParent die.val link.val = true)
    (shallow : s.get (BEAT.DEPTH.on die.val) ≤ 16) (near : s.withinTwo die.val link.val = true) :
    exec (.beatLockDone die link) s = .next (
      let u := (s.set (BEAT.LOCK.on die.val) 2).set (HASPI.RELOCK.on die.val) 0
      if (s.linkLog die.val link.val).peerLocked then (u.linkUp die.val link.val).agree die.val else u) :=
  (if_neg (not_not.2 trains)).trans ((if_pos parent).trans (if_neg (by simp [shallow.not_gt, near])))

/-- On a link that is not the parent's, of a LOCKED die with a LOCKED partner, 16 beat numbers decide between UP and a refusal with
code 9 (R308, R316). -/
theorem exec_beatLockDone_of_other (trains : s.trains die.val link.val .beatLock = true) (other : s.isParent die.val link.val = false)
    (locked : s.get (BEAT.LOCK.on die.val) = 2) (both : (s.linkLog die.val link.val).peerLocked = true)
    (heard : 16 ≤ (s.linkLog die.val link.val).diffs.length) :
    exec (.beatLockDone die link) s =
      if (s.linkLog die.val link.val).diffs.any (fun n => decide (1 < n)) then .next (s.refuseLink die.val link.val 9)
      else .next (s.linkUp die.val link.val) :=
  (if_neg (not_not.2 trains)).trans ((if_neg (by simp [other])).trans (if_neg (by simp [locked, both, heard.not_gt])))

/-- A training state past its bound counts a retry: the link waits to train again, or is FAILED (R308). -/
theorem exec_trainTimeout_of_due {b : Nat × Nat} (bound : s.bound die.val link.val = some b) (due : b.2 + b.1 ≤ s.clock) :
    exec (.trainTimeout die link) s = (
      let u := s.count (HL.RETRIES.at die.val link.val)
      if u.get (HL.TRAIN_LIMIT.at die.val link.val) ≤ u.get (HL.RETRIES.at die.val link.val) then
        .next ((u.dieEvent die.val HL.page 0x1707 0 0 0 link.val).toLink die.val link.val .failed)
      else .next (u.onLink die.val link.val (fun k => { k with retryWait := true, entered := u.clock }))) := by
  show execTrainTimeout die link s = _
  unfold execTrainTimeout
  simp only [bound]
  exact if_neg due.not_gt

end Training

/-- Settles O24, by what each command finds: its condition fails and the link stays as it was, or the link does what its rule names. -/
theorem linksTrainFromEnableToUp : Obligations.LinksTrainFromEnableToUp := by
  unfold Obligations.LinksTrainFromEnableToUp
  and_intros
  · exact fun s req die link h disabled free =>
      exec_of_reaches rfl h ((if_neg (not_not.2 disabled)).trans (if_neg (by simp [free])))
  · exact fun s req die link h disabled fencing => exec_of_reaches rfl h ((if_neg (not_not.2 disabled)).trans (if_pos fencing))
  · exact fun s req die link h => exec_of_reaches rfl h rfl
  · exact fun s req die link h fenced isolated enabled =>
      exec_of_reaches rfl h ((if_neg (by simp [fenced, isolated])).trans (if_neg (not_not.2 enabled)))
  · exact fun s req die link h fenced => exec_of_reaches rfl h (if_pos (.inl fenced))
  · exact fun s die link trains => congrArg Host.Outcome.next (if_pos trains)
  · exact fun s die link swapped precodes snr0 snr1 trains => if_neg (not_not.2 trains)
  · exact fun s die link trains clean => if_neg (by simp [trains, clean])
  · exact fun s die link few => if_pos (.inr few)
  · exact fun s die link ident hr notUp trains =>
      congrArg Host.Outcome.next ((if_neg (by simp [hr])).trans ((if_neg (by simp [notUp])).trans (if_neg (not_not.2 trains))))
  · exact fun s die link ident hr up => congrArg Host.Outcome.next ((if_neg (by simp [hr])).trans (if_pos up))
  · exact fun s die link trains => congrArg Host.Outcome.next (if_pos trains)
  · exact fun s die link code h => congrArg Host.Outcome.next
      (if_pos (h.imp_right (Or.imp_right (Or.imp_right (fun ⟨hr, up⟩ => ⟨by simp [hr], .inl up⟩)))))
  · exact fun s die link stamp turnaround h => congrArg Host.Outcome.next
      (if_pos (h.imp_right (Or.imp_right (Or.imp_right (fun ⟨hr, up⟩ => ⟨by simp [hr], up⟩)))))
  · exact fun s die link stamp turnaround ident delay lock notUp =>
      congrArg Host.Outcome.next (if_neg (by simp [ident, delay, lock, notUp]))
  · exact fun s die link stamp turnaround time trains few => congrArg Host.Outcome.next (if_pos ⟨trains, few⟩)
  · exact fun s die link stamp turnaround time idle => congrArg Host.Outcome.next (if_neg (by simp [idle]))
  · exact fun s die link few => if_pos (.inr ((length_sortNat _).trans_lt few))
  · rintro s die link p trains rfl whole
    exact if_neg (not_or.2 ⟨not_not.2 trains, whole.not_gt⟩)
  · exact fun s die link trains parent shallow near both =>
      (exec_beatLockDone_of_parent trains parent shallow near).trans (congrArg _ (if_pos both))
  · exact fun s die link trains parent shallow near alone =>
      (exec_beatLockDone_of_parent trains parent shallow near).trans (congrArg _ (if_neg (by simp [alone])))
  · intro s die link parent h
    exact ite_eq_left_iff.2 fun _ => (if_pos parent).trans (if_pos (h.imp_right (by simp [·])))
  · exact fun s die link trains other locked both heard same =>
      (exec_beatLockDone_of_other trains other locked both heard).trans (if_neg (by simp [same]))
  · exact fun s die link trains other locked both heard apart =>
      (exec_beatLockDone_of_other trains other locked both heard).trans (if_pos apart)
  · intro s die link other h
    exact ite_eq_left_iff.2 fun _ => (if_neg (by simp [other])).trans (if_pos (h.imp_right (Or.imp_left (by simp [·]))))
  · intro s die link b bound due below
    rw [exec_trainTimeout_of_due bound due]
    exact (if_neg below.not_ge).trans (by simp [State.count])
  · exact fun s die link b bound due limit => (exec_trainTimeout_of_due bound due).trans (if_pos limit)
  · intro s die link b h
    show execTrainTimeout die link s = _
    unfold execTrainTimeout
    rcases h with h | ⟨h, early⟩
    · simp only [h]
    · simp only [h]
      exact if_pos early
  · exact fun s die link hr waits due => congrArg Host.Outcome.next (if_pos ⟨by simp [hr], waits, due⟩)
  · intro s die link h
    refine congrArg Host.Outcome.next (if_neg ?_)
    rintro ⟨-, waits, due⟩
    rcases h with h | h
    · simp [h] at waits
    · omega

/-! Links that leave UP, and fault records forwarded (R321, R322, R324, R329, R404). -/

/-- A command answers the state it found where it holds back, and where what it does then changes nothing. -/
theorem ite_next_self {c : Prop} [Decidable c] {s t : State} (same : t = s) : (if c then .next s else .next t : Out) = .next s :=
  (ite_congr rfl (fun _ => rfl) (fun _ => congrArg Host.Outcome.next same)).trans (ite_self _)

section Leaving

variable {s : State} {d l : Nat}

/-- A cause acts on an UP link, and the link takes the state. -/
theorem State.leaving_of_up (up : s.linkIs d l .up = true) (x : HlState) : s.leaving d l x = some true := if_pos up

/-- No cause acts on a link that is not UP and has not left UP in this cycle. -/
theorem State.leaving_of_away (down : s.linkIs d l .up = false) (away : (s.linkLog d l).leftAt ≠ some s.clock) (x : HlState) :
    s.leaving d l x = none :=
  (if_neg (by simp [down])).trans (if_neg (not_and_of_not_left _ away))

/-- An UP link that is lost shows its cause and goes to LOST (R321). -/
theorem State.loseLink_of_up (up : s.linkIs d l .up = true) (cause : Nat) :
    s.loseLink d l cause = (((s.dieEvent d HL.page 0x1702 cause 0 0 l).set (HL.CAUSE.at d l) cause).count
      (HL.LOSSES.at d l)).toLink d l .lost := by
  unfold State.loseLink
  rw [State.leaving_of_up up]
  rfl

/-- Where a cause that comes first has taken the link from UP, a loss is an event alone (R329). -/
theorem State.loseLink_of_outranked (ranked : s.leaving d l .lost = some false) (cause : Nat) :
    s.loseLink d l cause = s.dieEvent d HL.page 0x1702 cause 0 0 l := by
  unfold State.loseLink
  rw [ranked]
  rfl

/-- A link that is not UP and has not left UP in this cycle is not lost. -/
theorem State.loseLink_of_away (down : s.linkIs d l .up = false) (away : (s.linkLog d l).leftAt ≠ some s.clock) (cause : Nat) :
    s.loseLink d l cause = s := by
  unfold State.loseLink
  rw [State.leaving_of_away down away]

end Leaving

/-- Settles O26, by whether the link is UP, has just left UP or neither, and by the fragments that a record has. -/
theorem linksAreLostAndForwardFaults : Obligations.LinksAreLostAndForwardFaults := by
  unfold Obligations.LinksAreLostAndForwardFaults
  and_intros
  · exact fun s die link hr up => (if_neg (by simp [hr])).trans (congrArg _ (State.loseLink_of_up up 1))
  · exact fun s die link hr up eighth => (if_neg (by simp [hr, eighth])).trans (congrArg _ (State.loseLink_of_up up 2))
  · exact fun s die link hr up fourth => (if_neg (by simp [hr, fourth])).trans (congrArg _ (State.loseLink_of_up up 3))
  · exact fun s die link hr up => (if_neg (by simp [hr])).trans (congrArg _ (State.loseLink_of_up up 4))
  · exact fun s die link hr up => (if_neg (by simp [hr])).trans (congrArg _ (State.loseLink_of_up up 5))
  · intro s die link down away
    have same := State.loseLink_of_away down away
    exact ⟨ite_next_self (same 1), ite_next_self (same 2), ite_next_self (same 3), ite_next_self (same 4), ite_next_self (same 5)⟩
  · exact fun s die link fewer => if_pos (.inr fewer)
  · exact fun s die link fewer => if_pos (.inr fewer)
  · exact fun s die link hr ranked => (if_neg (by simp [hr])).trans (congrArg _ (State.loseLink_of_outranked ranked 1))
  · exact fun s die link hr lost auto due => congrArg Host.Outcome.next (if_pos ⟨by simp [hr], lost, auto, due⟩)
  · intro s die link h
    refine congrArg Host.Outcome.next (if_neg ?_)
    rintro ⟨-, lost, auto, due⟩
    rcases h with h | h | h
    · simp [h] at lost
    · simp [h] at auto
    · omega
  · exact fun s die link hr low high => congrArg Host.Outcome.next (if_pos ⟨by simp [hr], by simp [low, high]⟩)
  · exact fun s die link hr fenced => congrArg Host.Outcome.next (if_pos ⟨by simp [hr], fenced⟩)
  · intro s die link fragment seq words hr up elsewhere
    exact congrArg Host.Outcome.next ((if_neg (by simp [hr, up])).trans (if_pos (elsewhere.imp_right (by simp [·]))))
  · intro s link fragment seq words hr up tray first
    refine congrArg Host.Outcome.next ((if_neg (by simp [hr, up])).trans ((if_neg (by simp [tray])).trans ?_))
    simp only [first]
    exact if_pos (by simp [aput])
  · intro s link fragment seq words f l hr up tray had whole
    refine congrArg Host.Outcome.next ((if_neg (by simp [hr, up])).trans ((if_neg (by simp [tray])).trans ?_))
    simp only [had]
    exact if_neg whole.not_gt
  · exact fun s src seq hr some_ => if_neg (by simp [hr, some_])

/-! Streams (R338, R340, R347, R351, R352, R354). -/

section Streams

variable {s : State} {die : DieNo} {link : LinkNo}

/-- Changing a link of the stream engine changes no stream. -/
@[simp] theorem State.stream_onSlink (d l id : Nat) (f : SLink → SLink) : (s.onSlink d l f).stream d id = s.stream d id := by
  unfold State.stream State.onSlink
  rw [State.die_onDie_same]

@[simp] theorem State.get_onSlink (d l : Nat) (f : SLink → SLink) (g : Field) : (s.onSlink d l f).get g = s.get g := rfl

/-- A WRITE that is not refused shows that, forgets the stream's writes on their way, and ends the transfers now or at the next beat (R340,
R374). -/
theorem exec_sdescWrite_of_taken {req : Requester} {id : Nat} {x : Stream} (h : s.Reaches die.val SDESC.page SDESC.WRITE 0 req)
    (hid : id = s.get (SDESC.DSEL.on die.val)) (hx : x = s.stagedDesc die.val)
    (taken : s.descRefusal die.val (s.stream die.val id) x = 0) :
    exec (.sdescWrite req die) s = .next (
      let old := s.stream die.val id
      let u := (s.put (SDESC.REFUSED.on die.val) false).set (SDESC.REASON.on die.val) 0
      let v := u.onDie die.val (fun y => { y with slinks := y.slinks.map (fun e =>
        (e.1, { e.2 with acks := e.2.acks.map (fun a => if a.1 = id then (65536, a.2) else a) })) })
      if ¬ streamOn x ∧ old.xfers ≠ [] then
        v.setStream die.val id { x with xfers := old.xfers, link := old.link, alt := old.alt, aborting := true }
      else ((v.endXfers die.val id .aborted).setStream die.val id x).serveStarts die.val) := by
  subst hid hx
  refine exec_of_reaches rfl h ?_
  dsimp only
  rw [taken]
  exact if_neg (not_not.2 rfl)

/-- On an UP link in service, what an assigned slot carries is up to the next chunk of its stream and the credits (R343, R351, R368). -/
theorem State.fillSlot_of_chunk {d l slot id c : Nat} {again : Bool} {ecc : Ecc} (up : s.linkIs d l .up = true)
    (serves : (s.slink d l).state = 0) (assigned : id = s.slotEntry d l (s.beat d) slot % 65536) (hid : id ≠ 0xFFFF)
    (chunk : nextChunk (s.stream d id) = some (c, again)) :
    s.fillSlot d l slot ecc =
      if (s.slink d l).credits = 0 then (s.creditWaits d l, none)
      else if again ∧ s.get (STRM.RESEND_LIMIT.on d) < (aget (s.stream d id).tries c).getD 0 + 1 then (s.haltStream d id c .damaged, none)
      else ((s.placeChunk d l slot id c again ecc).1, some (s.placeChunk d l slot id c again ecc).2) := by
  subst assigned
  unfold State.fillSlot
  dsimp only
  rw [if_neg (by simp [up, serves, hid]), chunk]

/-- A NAK on an UP link that names a slot's record is a credit violation, or loses the chunk of that slot (R354, R355). -/
theorem State.takeNak_of_named {d l : Nat} {beat : BitVec 8} {slot : Fin 8} {q : SlotRec} (hr : s.inReset d = false)
    (up : s.linkIs d l .up = true) (named : (s.slink d l).recs.find?
      (fun r => r.beat % 256 == beat.toNat && r.slot == slot.val && decide (s.beat d ≤ r.beat + 16)) = some q) :
    s.takeNak d l beat slot = if 64 < (s.slink d l).credits + 1 then s.creditViolation d l else s.nakChunk d l q := by
  unfold State.takeNak
  dsimp only
  rw [if_neg (by simp [hr, up]), named]

/-- A lost chunk below the resend point returns its credit, and its stream sends again from it (R354). -/
theorem State.nakChunk_of_below {d l : Nat} {q : SlotRec} (sends : streamIn (s.stream d q.stream) = false)
    (on : streamOn (s.stream d q.stream) = true) (below : q.chunk < (s.stream d q.stream).resend)
    (again : (aget (s.stream d q.stream).tries q.chunk).getD 0 < s.get (STRM.RESEND_LIMIT.on d)) :
    s.nakChunk d l q = (
      let u := s.onSlink d l (fun k => { k with
        credits := k.credits + 1
        open_ := if k.open_.contains q then k.open_.filter (fun o => decide (o ≠ q)) else k.open_.drop 1 })
      let x := u.stream d q.stream
      u.setStream d q.stream { x with resend := q.chunk, acked := min x.acked q.chunk }) := by
  unfold State.nakChunk
  simp only [State.stream_onSlink, State.get_onSlink]
  rw [if_neg (by simp [sends, on]), if_neg (by simp [again]), if_pos below]

end Streams

/-- Settles O27, by whether a descriptor is taken, what a slot finds to carry, and where an arriving chunk, credit or NAK falls. -/
theorem streamsAreDescribedSentAndReceived : Obligations.StreamsAreDescribedSentAndReceived := by
  unfold Obligations.StreamsAreDescribedSentAndReceived
  and_intros
  · rintro s req die r h rfl refused
    exact exec_of_reaches rfl h (if_pos refused)
  · exact fun s req die id x h hid hx taken ends => (exec_sdescWrite_of_taken h hid hx taken).trans
      (congrArg _ (if_neg (by rcases ends with e | e <;> simp [e])))
  · exact fun s req die id x h hid hx taken off open_ => (exec_sdescWrite_of_taken h hid hx taken).trans
      (congrArg _ (if_pos ⟨by simp [off], open_⟩))
  · exact fun s req die h => exec_of_reaches rfl h rfl
  · exact fun s req die id h on sends posted =>
      exec_of_reaches rfl h ((if_neg (by simp [on, sends])).trans (if_neg (by simp [posted])))
  · exact fun s req die id h barred => exec_of_reaches rfl h (if_pos (barred.imp_left (by simp [·])))
  · exact fun s req die id h on sends sync => exec_of_reaches rfl h ((if_neg (by simp [on, sends])).trans (if_pos sync))
  · exact fun s die link slot idle phase time ecc sends turn => if_neg (by simp [sends, turn])
  · exact fun s die link slot idle phase time ecc h => if_pos (h.imp_left (by simp [·]))
  · intro s die link slot ecc id c up serves assigned hid chunk credit
    rw [State.fillSlot_of_chunk up serves assigned hid chunk, if_neg credit, if_neg (by simp)]
    unfold State.placeChunk
    simp only [Bool.false_eq_true, if_false, Bool.toNat_false]
  · intro s die link slot ecc id c again up serves assigned hid chunk none_
    rw [State.fillSlot_of_chunk up serves assigned hid chunk, if_pos none_]
    rfl
  · rintro s die link slot ecc id rfl (down | out | unassigned | idle)
    · exact if_pos (.inl (by simp [down]))
    · exact if_pos (.inr (.inl out))
    · exact if_pos (.inr (.inr unassigned))
    · unfold State.fillSlot
      dsimp only
      rw [idle]
      exact ite_self _
  · exact fun s die link beat slot id seq data hr up room hid assigned on live order => congrArg Host.Outcome.next
      ((if_neg (by simp [hr, up])).trans ((if_neg room.not_ge).trans ((if_neg (by simp [assigned, hid])).trans
        ((if_neg (by simp [on, live])).trans (if_pos order)))))
  · exact fun s die link beat slot id seq data hr up room other => congrArg Host.Outcome.next
      ((if_neg (by simp [hr, up])).trans ((if_neg room.not_ge).trans (if_pos (.inr other.symm))))
  · intro s die link a rest hr oldest live
    show execChunkWriteAck die link s = _
    unfold execChunkWriteAck
    simp only [oldest]
    rw [if_neg (by simp [hr]), if_neg live]
  · exact fun s die link credits hr up within => congrArg Host.Outcome.next ((if_neg (by simp [hr, up])).trans (if_neg within.not_gt))
  · exact fun s die link credits hr up beyond => congrArg Host.Outcome.next ((if_neg (by simp [hr, up])).trans (if_pos beyond))
  · intro s die link beat slot hr up unnamed
    refine congrArg Host.Outcome.next ((if_neg (by simp [hr, up])).trans ?_)
    rw [unnamed]
  · exact fun s die link beat slot q hr up named room sends on live below again => congrArg Host.Outcome.next
      ((State.takeNak_of_named hr up named).trans ((if_neg (by omega)).trans (State.nakChunk_of_below sends on below again)))
  · exact fun s die link beat slot q hr up named full => congrArg Host.Outcome.next
      ((State.takeNak_of_named hr up named).trans (if_pos (by omega)))

end Sys2Proof.Machine
end

section
/-! SUPPORT. Proofs of spec/11_streams.md: switches to alternate sets, readmission, and the limits of transfers, credits and
completions. -/

namespace Sys2Proof.Machine

/-- Settles O28, by whether a switch, a hinge or a limit finds the link, the stream or the queue that its rule names. -/
theorem streamSwitchesReadmissionAndLimits : Obligations.StreamSwitchesReadmissionAndLimits := by
  unfold Obligations.StreamSwitchesReadmissionAndLimits
  and_intros
  · exact fun s die link beat hr up free => congrArg Host.Outcome.next (if_neg (by simp [hr, up, free]))
  · exact fun s die link beat h => congrArg Host.Outcome.next (if_pos (.inr (h.imp_left (by simp [·]))))
  · intro s die hr pending due
    refine (if_neg (by simp [hr, pending, due.not_gt])).trans ?_
    exact (apply_ite Host.Outcome.next _ _ _).symm
  · exact fun s die h => if_pos (.inr (h.imp_left (by simp [·])))
  · exact fun s die link hr switching unheard due => if_neg (by simp [hr, switching, unheard, due.not_gt])
  · exact fun s die link h => if_pos (.inr (h.imp_left (by simp [·])))
  · exact fun s die link k hr up back => congrArg Host.Outcome.next (if_neg (by simp [hr, up, back]))
  · exact fun s req die value h => exec_of_reaches rfl h rfl
  · intro s die id q hr open_
    show execXferTo die id s = _
    unfold execXferTo
    simp only [open_]
    exact if_neg (by simp [hr])
  · intro s die link t hr credits serves table ready
    show execCreditTo die link s = _
    unfold execCreditTo
    simp only [table]
    exact if_neg (by simp [hr, credits, serves, ready])
  · intro s die w ws hr oldest
    show execScqTo die s = _
    unfold execScqTo
    simp only [oldest]
    exact if_neg (by simp [hr])

end Sys2Proof.Machine
end

section
/-! SUPPORT. Proofs of spec/12_context_runs.md: runs from their submission to the consumption of their records. -/

namespace Sys2Proof.Machine

/-- Settles O30, by whether the rings have room and by the run that a table entry or a copy names. -/
theorem runsAreSubmittedCopiedAndCompleted : Obligations.RunsAreSubmittedCopiedAndCompleted := by
  unfold Obligations.RunsAreSubmittedCopiedAndCompleted
  and_intros
  · intro s req die h room state opens awake
    refine exec_of_reaches rfl h (if_neg ?_)
    rcases state with state | state <;> simp [state, opens, awake, room]
  · exact fun s req die h full => exec_of_reaches rfl h (if_pos (.inl full))
  · rintro s die i c hr state opens some_ free rfl
    have serves : ¬ (s.get (CTX.STATE.on die.val) ≠ 2 ∧ s.get (CTX.STATE.on die.val) ≠ 3) := by omega
    show execRunTake die s = _
    unfold execRunTake
    simp only [free]
    rw [if_neg (by simp [hr, serves, opens, some_]), ← apply_ite Host.Outcome.next]
  · intro s die ecc i rest r hr oldest run
    show execInputCopyDone die ecc s = _
    unfold execInputCopyDone
    simp only [oldest, run]
    rw [if_neg (by simp [hr]), ← apply_ite Host.Outcome.next]
  · intro s die ecc i rest r hr oldest run
    show execOutputCopyDone die ecc s = _
    unfold execOutputCopyDone
    simp only [oldest, run]
    exact if_neg (by simp [hr])
  · exact fun s req die value h within => exec_of_reaches rfl h (if_neg within.not_gt)
  · exact fun s req die value h beyond => exec_of_reaches rfl h (if_pos beyond)

end Sys2Proof.Machine
end

section
/-! SUPPORT. Proofs of spec/14_afe.md: calibration, requests and rounds, and the clock of the analogue front end. -/

namespace Sys2Proof.Machine

/-- A command of the emulated page that can be served and is permitted answers its act's state, with the act's result published. -/
theorem exec_of_canServe {s t : State} {c : Instr} {k n : Nat} {x : Posted} {permitted : State → Bool}
    {act : State → Nat → State × Nat} (hc : exec c s = .next (s.serve k permitted act)) (h : s.CanServe k x)
    (may : permitted s = true) (ha : act s x.value = (t, n)) : exec c s = .next (t.publish x n) := by
  rw [hc, s.serve_of_canServe h may, ha]

section Afe

variable {s : State}

/-- The oldest request of an idle engine begins its round while the other engine neither runs nor queues (R451, R452). -/
theorem State.roundStart_of_free {e : Nat} {q : AfeRequest} {rest : List AfeRequest} (oldest : (s.engine e).queue = q :: rest)
    (idle : (s.engine e).round = none) (ready : s.is (calBusy e) = false) (clock : s.is CCLK.AFE_LOCK.cl = true)
    (round : (s.engine (1 - e)).round = none) (queue : (s.engine (1 - e)).queue = []) :
    s.roundStart e = s.beginRound e q rest := by
  unfold State.roundStart
  simp only [oldest, idle, round, queue]
  rw [if_neg (by simp [ready, clock])]
  rfl

theorem State.roundStart_of_nil {e : Nat} (none_ : (s.engine e).queue = []) : s.roundStart e = s := by
  unfold State.roundStart
  simp only [none_]

theorem State.conversionDone_of_round {e : Nat} {r : AfeRound} {ph : AfePhase} {rest : List AfePhase} (code : BitVec 32)
    (outA outB : Bool) (round : (s.engine e).round = some r) (plan : r.plan = ph :: rest) :
    s.conversionDone e code outA outB = s.conversion e r ph rest (toSigned 32 code.toNat) outA outB := by
  unfold State.conversionDone
  simp only [round, plan]

end Afe

/-- Settles O34, by the state of the clock, the port or the engine that each write, request and end finds. -/
theorem theAnalogueFrontEndMeasures : Obligations.TheAnalogueFrontEndMeasures := by
  unfold Obligations.TheAnalogueFrontEndMeasures
  and_intros
  · exact fun s req hr core off awake => congrArg Host.Outcome.next ((if_neg (by simp [hr])).trans
      ((if_pos (by simpa using core)).trans ((if_neg (by simp [off])).trans (if_neg (by simp [awake])))))
  · exact fun s req hr other => congrArg Host.Outcome.next ((if_neg (by simp [hr])).trans (if_neg (by simp; omega)))
  · exact fun s req engines h => exec_of_reaches rfl h rfl
  · exact fun s c h ready => exec_of_canServe rfl h ready rfl
  · intro s engine zero full tia busy
    refine congrArg (fun u : State => Host.Outcome.next u.mc1Turn) ((if_neg (not_not.2 busy)).trans ?_)
    rfl
  · exact fun s req port profile h free enabled clock ready => exec_of_reaches rfl h ((if_neg (by simp [free, enabled])).trans
      ((if_neg (by simp [clock])).trans (if_neg (by simp [enabled, ready]))))
  · exact fun s req port profile h busy => exec_of_reaches rfl h (if_pos (.inl busy))
  · exact fun s req port profile h free enabled lost => exec_of_reaches rfl h ((if_neg (by simp [free, enabled])).trans
      (if_pos (by simp [lost])))
  · exact fun s engine q rest oldest idle ready clock round queue => congrArg (fun u : State => Host.Outcome.next u.mc1Turn)
      (State.roundStart_of_free oldest idle ready clock round queue)
  · exact fun s engine none_ => congrArg (fun u : State => Host.Outcome.next u.mc1Turn) (State.roundStart_of_nil none_)
  · exact fun s engine code outA outB r ph rest round plan => congrArg (fun u : State => Host.Outcome.next u.mc1Turn)
      (State.conversionDone_of_round code outA outB round plan)
  · exact fun s locked enabled => congrArg Host.Outcome.next ((if_neg (not_not.2 locked)).trans (if_pos enabled))
  · exact fun s locked off => congrArg Host.Outcome.next ((if_neg (not_not.2 locked)).trans (if_neg (by simp [off])))
  · exact fun s engine runs enabled due free idle => congrArg Host.Outcome.next (if_pos (by simp [runs, enabled, due, free, idle]))
  · exact fun s lost enabled => congrArg Host.Outcome.next (if_neg (by simp [lost, enabled]))

end Sys2Proof.Machine
end

section
/-! SUPPORT. Proofs of spec/15_temperature.md: the host's commands for temperature and cooling. -/

namespace Sys2Proof.Machine

/-- Settles O14, by the value of each command and by what bars its act. -/
theorem hostCommandsForTemperatureAndCooling : Obligations.HostCommandsForTemperatureAndCooling := by
  unfold Obligations.HostCommandsForTemperatureAndCooling
  and_intros
  · exact fun s c h ready gone => exec_of_canServe rfl h ready (if_neg (by simp [gone]))
  · exact fun s c h ready held => exec_of_canServe rfl h ready (if_pos held)
  · intro s c h ready
    refine (congrArg Host.Outcome.next (s.serve_of_canServe h ready)).trans ?_
    -- the page is committed, or its shadow copy put back
    dsimp only
    split <;> rfl
  · exact fun s c h ready => exec_of_canServe rfl h ready rfl
  · exact fun s c h ready sensor => exec_of_canServe rfl h ready (if_neg sensor.not_ge)
  · exact fun s c h ready beyond => exec_of_canServe rfl h ready (if_pos beyond)
  · exact fun s c h ready within fits => exec_of_canServe rfl h ready (if_neg (by simp only [within.not_gt, fits]; decide))
  · exact fun s c h ready bad => exec_of_canServe rfl h ready (if_pos (bad.imp_right ne_true_of_eq_false))
  · exact fun s c h ready within pumps => exec_of_canServe rfl h ready (if_neg (not_or.2 ⟨within.not_gt, pumps⟩))
  · exact fun s c h ready bad => exec_of_canServe rfl h ready (if_pos bad)
  · exact fun s c h ready gone => exec_of_canServe rfl h ready (if_neg (ne_true_of_eq_false gone))
  · exact fun s c h ready persists => exec_of_canServe rfl h ready (if_pos persists)
  · exact fun s c h ready one => exec_of_canServe rfl h ready (if_neg (not_not.2 one))
  · exact fun s c h ready other => exec_of_canServe rfl h ready (if_pos other)

end Sys2Proof.Machine
end

section
/-! SUPPORT. Proofs of spec/16_cooling.md: the demand curve, the outputs, tachometers and flow, and the leak comparators. -/

namespace Sys2Proof.Machine

/-! The demand curve (R510). -/

/-- A value is the linear interpolation between two points, rounded to the nearest unit with halves rounded up (R510). -/
def RoundsCurve (t t0 d0 t1 d1 v : Int) : Prop :=
  2 * (t1 - t0) * v ≤ 2 * (d0 * (t1 - t0) + (d1 - d0) * (t - t0)) + (t1 - t0) ∧
    2 * (d0 * (t1 - t0) + (d1 - d0) * (t - t0)) + (t1 - t0) < 2 * (t1 - t0) * (v + 1)

theorem roundsCurve_interpolate {t t0 d0 t1 d1 : Int} (h : t0 < t1) : RoundsCurve t t0 d0 t1 d1 (interpolate t t0 d0 t1 d1) :=
  ⟨Int.mul_ediv_self_le (by omega), by rw [mul_add_one]; exact Int.lt_mul_ediv_self_add (by omega)⟩

/-- The curve is at a point what the point says, from either side. -/
theorem roundsCurve_left {t0 d0 t1 d1 : Int} (h : t0 < t1) : RoundsCurve t0 t0 d0 t1 d1 d0 := by
  constructor <;> nlinarith

theorem roundsCurve_right {t0 d0 t1 d1 : Int} (h : t0 < t1) : RoundsCurve t1 t0 d0 t1 d1 d1 := by
  constructor <;> nlinarith

theorem interpolate_right {t0 d0 t1 d1 : Int} (h : t0 < t1) : interpolate t1 t0 d0 t1 d1 = d1 := by
  have exact_ : 2 * (d0 * (t1 - t0) + (d1 - d0) * (t1 - t0)) + (t1 - t0) = (t1 - t0) + 2 * (t1 - t0) * d1 := by ring
  unfold interpolate
  rw [exact_, Int.add_mul_ediv_left _ _ (by omega), Int.ediv_eq_zero_of_lt (by omega) (by omega), zero_add]

/-- Settles O53: a temperature is below the points, above them or between two, and a point is read alike from both its sides. -/
theorem curveDemandInterpolates : Obligations.CurveDemandInterpolates := by
  unfold Obligations.CurveDemandInterpolates
  intro s z T D t h01 h12 h23
  have demand : s.curveDemand z.val =
      if t ≤ T 0 then D 0 else if t ≤ T 1 then interpolate t (T 0) (D 0) (T 1) (D 1)
      else if t ≤ T 2 then interpolate t (T 1) (D 1) (T 2) (D 2)
      else if t < T 3 then interpolate t (T 2) (D 2) (T 3) (D 3) else D 3 := rfl
  rw [demand]
  refine ⟨fun low => if_pos low, fun high => ?_, fun i hi from_ upTo => ?_⟩
  · rw [if_neg (by omega), if_neg (by omega), if_neg (by omega), if_neg (by omega)]
  show RoundsCurve t (T i) (D i) (T (i + 1)) (D (i + 1)) _
  interval_cases i
  · rcases from_.eq_or_lt with at_ | above
    · rw [if_pos at_.ge, ← at_]
      exact roundsCurve_left h01
    · rw [if_neg above.not_ge, if_pos upTo]
      exact roundsCurve_interpolate h01
  · rcases from_.eq_or_lt with at_ | above
    · rw [if_neg (by omega), if_pos at_.ge, ← at_, interpolate_right h01]
      exact roundsCurve_left h12
    · rw [if_neg (by omega), if_neg above.not_ge, if_pos upTo]
      exact roundsCurve_interpolate h12
  · rcases from_.eq_or_lt with at_ | above
    · rw [if_neg (by omega), if_neg (by omega), if_pos at_.ge, ← at_, interpolate_right h12]
      exact roundsCurve_left h23
    · rw [if_neg (by omega), if_neg (by omega), if_neg above.not_ge]
      rcases upTo.eq_or_lt with at_ | below
      · rw [if_neg at_.not_lt, at_]
        exact roundsCurve_right h23
      · rw [if_pos below]
        exact roundsCurve_interpolate h23

/-! What a PWM period changes (R505, R507, R516, R517). -/

/-- The keys of the marks and flags that arm the checks and time their conditions. -/
def armingKey (k : Nat) : Bool :=
  (List.range 14).any (fun i => k == (COOLI.ARM_SINCE.clAt i).key || k == (armedOf i).key) || k == COOLI.FLOW_SINCE.cl.key ||
    (List.range 2).any (fun i => k == (CPUMP.FL_ARMED.clAt i).key) || (List.range 16).any (fun i => k == (COOLI.LOW_SINCE.clAt i).key)

/-- A change of register fields alone, of those whose keys pass. -/
structure LoadsOnly (K : Nat → Bool) (s t : State) : Prop where
  get : ∀ f : Field, K f.key = false → t.get f = s.get f
  mem : t.mem = s.mem
  dies : t.dies = s.dies
  clock : t.clock = s.clock

section Loads

variable {K : Nat → Bool} {s0 s : State}

theorem LoadsOnly.refl (s : State) : LoadsOnly K s s := ⟨fun _ _ => rfl, rfl, rfl, rfl⟩

theorem loadsOnly_set {g : Field} {v : Nat} (hg : K g.key = true) (h : LoadsOnly K s0 s) : LoadsOnly K s0 (s.set g v) :=
  ⟨fun f hf => (s.get_set_ne g f v (fun e => by simp [← e, hg] at hf)).trans (h.get f hf), (s.set_mem g v).trans h.mem,
    (s.set_dies g v).trans h.dies, (s.set_clock g v).trans h.clock⟩

theorem loadsOnly_put {g : Field} {b : Bool} (hg : K g.key = true) (h : LoadsOnly K s0 s) : LoadsOnly K s0 (s.put g b) :=
  loadsOnly_set hg h

theorem loadsOnly_count {g : Field} {n : Nat} (hg : K g.key = true) (h : LoadsOnly K s0 s) : LoadsOnly K s0 (s.count g n) :=
  loadsOnly_set hg h

theorem loadsOnly_ite {c : Prop} [Decidable c] {t : State} (hs : LoadsOnly K s0 s) (ht : LoadsOnly K s0 t) :
    LoadsOnly K s0 (if c then s else t) := by split <;> assumption

theorem loadsOnly_markWhile {g : Field} {c : Bool} (hg : K g.key = true) (h : LoadsOnly K s0 s) :
    LoadsOnly K s0 (s.markWhile g c) := by
  unfold State.markWhile
  exact loadsOnly_ite (loadsOnly_ite (loadsOnly_set hg h) h) (loadsOnly_set hg h)

theorem loadsOnly_each {l : List Nat} {f : State → Nat → State} (hf : ∀ u, ∀ n ∈ l, LoadsOnly K s0 u → LoadsOnly K s0 (f u n))
    (h : LoadsOnly K s0 s) : LoadsOnly K s0 (s.each l f) := by
  induction l generalizing s with
  | nil => exact h
  | cons n l ih => exact ih (fun u m hm => hf u m (List.mem_cons_of_mem n hm)) (hf s n List.mem_cons_self h)

end Loads

theorem loadsOnly_coolArm {s0 s : State} (h : LoadsOnly armingKey s0 s) : LoadsOnly armingKey s0 s.coolArm := by
  have marks : ∀ k ∈ List.range 14, armingKey (COOLI.ARM_SINCE.clAt k).key = true ∧ armingKey (armedOf k).key = true := by decide
  have flow : ∀ f ∈ List.range 2, armingKey (CPUMP.FL_ARMED.clAt f).key = true := by decide
  refine loadsOnly_each (fun u f hf hu => loadsOnly_put (flow f hf) hu) (loadsOnly_markWhile (by decide) ?_)
  exact loadsOnly_each (fun u k hk hu => loadsOnly_put (marks k hk).2 (loadsOnly_markWhile (marks k hk).1 hu)) h

theorem loadsOnly_coolWatch {s0 s : State} (h : LoadsOnly armingKey s0 s) : LoadsOnly armingKey s0 s.coolWatch := by
  have marks : ∀ k ∈ List.range 16, armingKey (COOLI.LOW_SINCE.clAt k).key = true := by decide
  exact loadsOnly_each (fun u k hk hu => loadsOnly_markWhile (marks k hk) hu) h

/-- Of fields each loaded once, with values that none of these loads changes, each reads its value. -/
theorem State.get_each_set {f : Nat → Field} {v : State → Nat → Nat} {l : List Nat}
    (apart : l.Pairwise (fun i j => (f i).key ≠ (f j).key)) (same : ∀ u, ∀ i ∈ l, ∀ x, ∀ j ∈ l, v (u.set (f i) x) j = v u j)
    {s : State} {k : Nat} (hk : k ∈ l) :
    (s.each l (fun u k => u.set (f k) (v u k))).get (f k) = v s k % 2 ^ (f k).width := by
  induction l generalizing s with
  | nil => cases hk
  | cons n l ih =>
    obtain ⟨first, apart⟩ := List.pairwise_cons.1 apart
    rcases List.mem_cons.1 hk with rfl | hk
    · rw [State.each_cons, State.get_each _ _ _ _ (fun u m hm => u.get_set_ne _ _ _ (first m hm).symm), State.get_set_same]
    · rw [State.each_cons, ih apart (fun u i hi x j hj => same u i (List.mem_cons_of_mem n hi) x j (List.mem_cons_of_mem n hj)) hk,
        same s n List.mem_cons_self _ k (List.mem_cons_of_mem n hk)]

/-- The keys of the driven duties. -/
def dutyKey (k : Nat) : Bool := (List.range 14).any (fun i => k == (dutyOf i).key)

theorem loadsOnly_duties (s : State) (v : State → Nat → Nat) :
    LoadsOnly dutyKey s (s.each (List.range 14) (fun u k => u.set (dutyOf k) (v u k))) := by
  have duties : ∀ k ∈ List.range 14, dutyKey (dutyOf k).key = true := by decide
  exact loadsOnly_each (fun u k hk hu => loadsOnly_set (duties k hk) hu) (LoadsOnly.refl s)

/-- The duty that a PWM period drives on an output. -/
def State.drivenDuty (s : State) (k : Nat) : Nat := if s.fitted k then s.get (COOLI.CMD.clAt k) else 0

/-- Neither what is fitted nor what is commanded changes as another duty is driven. -/
theorem State.drivenDuty_set_duty (s : State) {i : Nat} (hi : i ∈ List.range 14) (x : Nat) {j : Nat} (hj : j ∈ List.range 14) :
    (s.set (dutyOf i) x).drivenDuty j = s.drivenDuty j := by
  have apart : ∀ i ∈ List.range 14, (dutyOf i).key ≠ CFAN.FAN_FIT.cl.key ∧ (dutyOf i).key ≠ CFAN.PUMP_FIT.cl.key ∧
      ∀ j ∈ List.range 14, (dutyOf i).key ≠ (COOLI.CMD.clAt j).key := by decide
  obtain ⟨fan, pump, cmd⟩ := apart i hi
  unfold State.drivenDuty State.fitted State.bit
  rw [State.get_set_ne _ _ _ _ fan, State.get_set_ne _ _ _ _ pump, State.get_set_ne _ _ _ _ (cmd j hj)]

/-- Settles O56: no load of a PWM period reaches a commanded duty, a target or what is fitted, and each duty is loaded once. -/
theorem pwmPeriodDrivesTheCommandedDuties : Obligations.PwmPeriodDrivesTheCommandedDuties := by
  unfold Obligations.PwmPeriodDrivesTheCommandedDuties
  intro s
  have driven := loadsOnly_duties s State.drivenDuty
  have armed := loadsOnly_coolWatch (loadsOnly_coolArm (LoadsOnly.refl (s.each (List.range 14) (fun u k =>
    u.set (dutyOf k) (u.drivenDuty k)))))
  refine ⟨_, rfl, fun k => ?_, fun k => ?_, fun g => ?_, armed.mem.trans driven.mem, armed.dies.trans driven.dies⟩
  · have duties : (List.range 14).Pairwise (fun i j => (dutyOf i).key ≠ (dutyOf j).key) := by decide
    have key : ∀ k : Fin 14, armingKey (dutyOf k.val).key = false ∧ (dutyOf k.val).width = 10 := by decide
    refine (armed.get _ (key k).1).trans ?_
    rw [State.get_each_set duties (fun u i hi x j hj => u.drivenDuty_set_duty hi x hj) (List.mem_range.2 k.isLt), (key k).2]
    exact apply_ite (· % 2 ^ 10) _ _ _
  · have key : ∀ k : Fin 14, armingKey (COOLI.CMD.clAt k).key = false ∧ dutyKey (COOLI.CMD.clAt k).key = false := by decide
    exact (armed.get _ (key k).1).trans (driven.get _ (key k).2)
  · have key : ∀ g : Fin 4, armingKey (CFAN.TARGET.clAt g).key = false ∧ dutyKey (CFAN.TARGET.clAt g).key = false := by decide
    exact (armed.get _ (key g).1).trans (driven.get _ (key g).2)

/-! Tachometers, flow and their faults (R508, R516 to R518). -/

/-- An armed channel that has stood below TACH_MIN for TACH_TIME is faulted, and two faulted pumps are an event of their own. -/
theorem exec_tachFault_of_due {s : State} {channel : Fin 14} {f : Field} (hf : faultOf channel.val = f)
    (low : s.tachLow channel.val = true)
    (held : s.heldFor (COOLI.LOW_SINCE.clAt channel.val) (s.coolTime channel.val) = true) (fresh : s.is f = false) :
    exec (.tachFault channel) s = .next (
      let v := s.set f 1
      let u := (if channel.val < 12 then v.event CFAN.page 0x3601 else v.event CPUMP.page 0x3602).pageEvent clachasel CFAN.page 8
      (if 12 ≤ channel.val ∧ u.is (CPUMP.FAULT.clAt 0) ∧ u.is (CPUMP.FAULT.clAt 1) then u.event CPUMP.page 0x3605
        else u).coolNow) := by
  subst hf
  exact if_neg (by simp [low, held, fresh])

section Clear

variable {s : State} {f : Field} {p : Page} {held : Bool}

theorem State.clearFault_of_gone (faulted : s.is f = true) (gone : held = false) :
    s.clearFault f p held = ((s.set f 0).event p 0x3606).coolNow :=
  if_neg (by simp [faulted, gone])

theorem State.clearFault_of_stays (stays : held = true ∨ s.is f = false) : s.clearFault f p held = s :=
  if_pos (stays.symm.imp_left (by simp [·]))

end Clear

theorem State.clearCoolFault_tach {s : State} {ch : Nat} (tach : ch < 14) :
    s.clearCoolFault ch = s.clearFault (faultOf ch) (if ch < 12 then CFAN.page else CPUMP.page) (s.tachLow ch) := by
  unfold State.clearCoolFault
  rw [if_pos tach]
  split <;> rfl

theorem State.clearCoolFault_flow {s : State} {ch : Nat} (flow : 14 ≤ ch) :
    s.clearCoolFault ch = s.clearFault (CPUMP.FL_FAULT.clAt (ch - 14)) CPUMP.page (s.flowLow (ch - 14)) := by
  unfold State.clearCoolFault
  rw [if_neg (by omega), if_neg flow.not_gt]

/-- Settles O1: each period and edge does what its rule names, and a fault or a clear past its guard does its own. -/
theorem coolingOutputsFollowTheControlLoop : Obligations.CoolingOutputsFollowTheControlLoop := by
  unfold Obligations.CoolingOutputsFollowTheControlLoop
  and_intros
  · exact fun s => rfl
  · exact fun s => rfl
  · rintro s channel us width last fits long rfl
    exact if_neg (by simp [fits, long])
  · exact fun s channel us width h => if_pos (h.imp_left (by simp [·]))
  · intro s channel fan low held fresh
    rw [exec_tachFault_of_due (if_pos fan) low held fresh]
    dsimp only
    rw [if_pos fan, if_neg (not_and_of_not_left _ fan.not_ge)]
  · intro s channel pump low held fresh
    rw [exec_tachFault_of_due (if_neg pump.not_gt) low held fresh]
    simp only [if_neg pump.not_gt, pump, true_and]
  · exact fun s channel h => if_pos (h.imp (by simp [·]) (Or.imp_left (by simp [·])))
  · exact fun s input fits => if_neg (by simp [fits])
  · exact fun s input bare => if_pos (by simp [bare])
  · exact fun s input low held fresh => if_neg (by simp [low, held, fresh])
  · exact fun s input h => if_pos (h.imp (by simp [·]) (Or.imp_left (by simp [·])))
  · exact fun s req channel tach h faulted gone =>
      exec_of_reaches rfl h ((State.clearCoolFault_tach tach).trans (State.clearFault_of_gone faulted gone))
  · exact fun s req channel flow h faulted gone =>
      exec_of_reaches rfl h ((State.clearCoolFault_flow flow).trans (State.clearFault_of_gone faulted gone))
  · intro s req channel h stays
    refine exec_of_reaches rfl h ?_
    unfold State.coolLow at stays
    by_cases tach : channel.val < 14
    · rw [if_pos tach, if_pos tach] at stays
      exact (State.clearCoolFault_tach tach).trans (State.clearFault_of_stays stays)
    · rw [if_neg tach, if_neg tach] at stays
      exact (State.clearCoolFault_flow (not_lt.1 tach)).trans (State.clearFault_of_stays stays)

/-! Leaks (R522 to R527). -/

section Leaks

variable {s : State} {channel : Fin 4} {leak : Bool}

/-- The mark of the filter of the leak comparator of a channel, or of its open comparator. -/
def leakPend (leak : Bool) (n : Nat) : Field := if leak then LEAKI.PEND_LEAK.clAt n else LEAKI.PEND_OPEN.clAt n

/-- The side that a comparator of a channel is on. -/
def leakSide (leak : Bool) (n : Nat) : Field := if leak then CLEAK.ALARM.clAt n else CLEAK.OPEN.clAt n

/-- That a comparator of a channel has left its alarm side. -/
def leakLeft (leak : Bool) (n : Nat) : Field := if leak then LEAKI.LEFT_LEAK.clAt n else LEAKI.LEFT_OPEN.clAt n

/-- The current stored at a crossing changes none of what its filters depend on. -/
theorem State.get_set_leakCurrent {v : Nat} {f : Field}
    (hf : f ∈ [CLEAK.ALARM.clAt channel.val, CLEAK.OPEN.clAt channel.val, HLS.LEAK_TRIP.cl, HLS.LEAK_REL.cl,
      LEAKI.PEND_LEAK.clAt channel.val, LEAKI.PEND_OPEN.clAt channel.val]) :
    (s.set (LEAKI.CUR.clAt channel.val) v).get f = s.get f := by
  have apart : ∀ n : Fin 4, ∀ f ∈ [CLEAK.ALARM.clAt n.val, CLEAK.OPEN.clAt n.val, HLS.LEAK_TRIP.cl, HLS.LEAK_REL.cl,
      LEAKI.PEND_LEAK.clAt n.val, LEAKI.PEND_OPEN.clAt n.val], (LEAKI.CUR.clAt n.val).key ≠ f.key := by decide
  exact s.get_set_ne _ _ _ (apart channel f hf)

/-- Counting a glitch of a channel leaves the mark of its open comparator. -/
theorem State.get_count_glitch : (s.count (CLEAK.GLITCHES.clAt channel.val)).get (LEAKI.PEND_OPEN.clAt channel.val) =
    s.get (LEAKI.PEND_OPEN.clAt channel.val) := by
  have apart : ∀ n : Fin 4, (CLEAK.GLITCHES.clAt n.val).key ≠ (LEAKI.PEND_OPEN.clAt n.val).key := by decide
  exact s.get_count_ne _ _ _ (apart channel)

/-- A crossing on a fitted channel counts the glitches of the filters that it ends, and starts or ends each (R523). -/
theorem exec_leakCrossing_of_fitted {current : Nat} {op : Bool} (fits : s.bit CFAN.LK_FIT.cl channel.val = true)
    (hleak : leak = (if s.is (CLEAK.ALARM.clAt channel.val) then decide (current < s.leakRelease)
      else decide (10 * s.get HLS.LEAK_TRIP.cl ≤ current)))
    (hop : op = (if s.is (CLEAK.OPEN.clAt channel.val) then decide (200 < current) else decide (current < 100))) :
    exec (.leakCrossing channel current) s = .next (
      let u := s.set (LEAKI.CUR.clAt channel.val) current
      let v := if s.get (LEAKI.PEND_LEAK.clAt channel.val) ≠ 0 ∧ leak = false then u.count (CLEAK.GLITCHES.clAt channel.val) else u
      let w := if s.get (LEAKI.PEND_OPEN.clAt channel.val) ≠ 0 ∧ op = false then v.count (CLEAK.GLITCHES.clAt channel.val) else v
      (w.markWhile (LEAKI.PEND_LEAK.clAt channel.val) leak).markWhile (LEAKI.PEND_OPEN.clAt channel.val) op) := by
  have alarm : (s.set (LEAKI.CUR.clAt channel.val) current).is (CLEAK.ALARM.clAt channel.val) =
      s.is (CLEAK.ALARM.clAt channel.val) := congrArg (· != 0) (State.get_set_leakCurrent (by simp))
  have open_ : (s.set (LEAKI.CUR.clAt channel.val) current).is (CLEAK.OPEN.clAt channel.val) =
      s.is (CLEAK.OPEN.clAt channel.val) := congrArg (· != 0) (State.get_set_leakCurrent (by simp))
  have release : (s.set (LEAKI.CUR.clAt channel.val) current).leakRelease = s.leakRelease := by
    unfold State.leakRelease
    rw [State.get_set_leakCurrent (by simp), State.get_set_leakCurrent (by simp)]
  have trip : (s.set (LEAKI.CUR.clAt channel.val) current).get HLS.LEAK_TRIP.cl = s.get HLS.LEAK_TRIP.cl :=
    State.get_set_leakCurrent (by simp)
  have pendLeak : (s.set (LEAKI.CUR.clAt channel.val) current).get (LEAKI.PEND_LEAK.clAt channel.val) =
      s.get (LEAKI.PEND_LEAK.clAt channel.val) := State.get_set_leakCurrent (by simp)
  have pendOpen : ∀ (c : Prop) [Decidable c], (if c then (s.set (LEAKI.CUR.clAt channel.val) current).count
      (CLEAK.GLITCHES.clAt channel.val) else s.set (LEAKI.CUR.clAt channel.val) current).get
      (LEAKI.PEND_OPEN.clAt channel.val) = s.get (LEAKI.PEND_OPEN.clAt channel.val) := by
    intro c _
    split
    · exact State.get_count_glitch.trans (State.get_set_leakCurrent (by simp))
    · exact State.get_set_leakCurrent (by simp)
  refine (if_neg (not_not.2 fits)).trans ?_
  simp only [alarm, open_, release, trip, pendLeak, pendOpen, ← hleak, ← hop]
  -- the two sides differ only in how they say that a comparator's crossing is gone
  congr! 6
  all_goals simp only [Bool.not_eq_true]

/-- A comparator whose filter has run changes side (R523, R525, R526). -/
theorem exec_leakFilterDone_of_due (due : s.heldFor (leakPend leak channel.val) 20000 = true) :
    exec (.leakFilterDone channel leak) s = (
      let u := (s.set (leakPend leak channel.val) 0).pageEvent clachasel CLEAK.page 8
      let v := (u.set (leakSide leak channel.val) 1).flowProven
      if s.is (leakSide leak channel.val) then
        .next (((u.set (leakSide leak channel.val) 0).set (leakLeft leak channel.val) 1).leakReleased channel.val).flowProven
      else if s.is (CLEAK.RELEASED.clAt channel.val) = false then .next v
      else if leak then .next (v.leakTrip channel.val) else .next (v.event HLS.page 0x4003)) := by
  have apart : ∀ (b : Bool) (n : Fin 4), ((leakPend b n.val).key ≠ (leakSide b n.val).key ∧
      (hdr HDR.EVENT clachasel (CLEAK.page.at 0)).key ≠ (leakSide b n.val).key) ∧
      ∀ f ∈ [leakPend b n.val, hdr HDR.EVENT clachasel (CLEAK.page.at 0), leakSide b n.val, CPUMP.FLOW_PROVEN.cl],
        f.key ≠ (CLEAK.RELEASED.clAt n.val).key := by decide
  obtain ⟨⟨pendSide, eventSide⟩, released⟩ := apart leak channel
  simp only [List.forall_mem_cons, List.not_mem_nil, false_implies, implies_true, and_true] at released
  obtain ⟨pend, event, side, proven⟩ := released
  have sideIs : ((s.set (leakPend leak channel.val) 0).pageEvent clachasel CLEAK.page 8).is (leakSide leak channel.val) =
      s.is (leakSide leak channel.val) := by
    rw [State.is_pageEvent_ne _ _ _ _ _ _ eventSide, State.is_set_ne _ _ _ _ pendSide]
  have releasedIs : (((s.set (leakPend leak channel.val) 0).pageEvent clachasel CLEAK.page 8).set
      (leakSide leak channel.val) 1).flowProven.is (CLEAK.RELEASED.clAt channel.val) =
      s.is (CLEAK.RELEASED.clAt channel.val) := by
    unfold State.flowProven
    rw [State.is_put_ne _ _ _ _ proven, State.is_set_ne _ _ _ _ side, State.is_pageEvent_ne _ _ _ _ _ _ event,
      State.is_set_ne _ _ _ _ pend]
  refine (if_neg (not_not.2 due)).trans (if_congr (by rw [← sideIs]; rfl) rfl ?_)
  refine if_congr ?_ rfl rfl
  rw [← releasedIs, Bool.not_eq_true]
  rfl

/-- Storing a measurement changes neither LEAK_WARN nor the results counted below it. -/
theorem State.get_set_leakMeasured {v : Nat} :
    (s.set (LEAKI.MEAS.clAt channel.val) v).get CLEAK.LEAK_WARN.cl = s.get CLEAK.LEAK_WARN.cl ∧
      (s.set (LEAKI.MEAS.clAt channel.val) v).get (LEAKI.BELOW.clAt channel.val) = s.get (LEAKI.BELOW.clAt channel.val) := by
  have apart : ∀ n : Fin 4, (LEAKI.MEAS.clAt n.val).key ≠ CLEAK.LEAK_WARN.cl.key ∧
      (LEAKI.MEAS.clAt n.val).key ≠ (LEAKI.BELOW.clAt n.val).key := by decide
  exact ⟨s.get_set_ne _ _ _ (apart channel).1, s.get_set_ne _ _ _ (apart channel).2⟩

/-- A measurement of a fitted channel warns, counts a result below LEAK_WARN, or ends the warning (R527). -/
theorem exec_leakMeasure_of_fitted {value : Nat} {ovr : Bool} (fits : s.bit CFAN.LK_FIT.cl channel.val = true) :
    exec (.leakMeasure channel value ovr) s = (
      let u := s.set (LEAKI.MEAS.clAt channel.val) (min value 65535)
      if s.get CLEAK.LEAK_WARN.cl ≤ value ∨ ovr then
        .next (((u.set (CLEAK.WARN.clAt channel.val) 1).set (LEAKI.BELOW.clAt channel.val) 0).event CLEAK.page 0x3610)
      else if 9 ≤ s.get (LEAKI.BELOW.clAt channel.val) then
        .next ((u.set (LEAKI.BELOW.clAt channel.val) 10).set (CLEAK.WARN.clAt channel.val) 0)
      else .next (u.count (LEAKI.BELOW.clAt channel.val))) := by
  refine (if_neg (not_not.2 fits)).trans ?_
  dsimp only
  rw [State.get_set_leakMeasured.1, State.get_set_leakMeasured.2]

end Leaks

/-- Settles O2, by whether a channel is fitted, its filter has run, and which side its comparator is on. -/
theorem leakComparatorsFilterAndTrip : Obligations.LeakComparatorsFilterAndTrip := by
  unfold Obligations.LeakComparatorsFilterAndTrip
  and_intros
  · exact fun s channel current bare => if_pos (by simp [bare])
  · exact fun s channel current leak op fits hleak hop => exec_leakCrossing_of_fitted fits hleak hop
  · exact fun s channel leak early => if_pos (by simp [early])
  · exact fun s channel due alarm => (exec_leakFilterDone_of_due (leak := true) due).trans (if_pos alarm)
  · exact fun s channel due open_ => (exec_leakFilterDone_of_due (leak := false) due).trans (if_pos open_)
  · exact fun s channel due quiet held => (exec_leakFilterDone_of_due (leak := true) due).trans
      ((if_neg (ne_true_of_eq_false quiet)).trans (if_pos held))
  · exact fun s channel due quiet held => (exec_leakFilterDone_of_due (leak := false) due).trans
      ((if_neg (ne_true_of_eq_false quiet)).trans (if_pos held))
  · exact fun s channel due quiet released => (exec_leakFilterDone_of_due (leak := true) due).trans
      ((if_neg (ne_true_of_eq_false quiet)).trans (if_neg (by simp [released])))
  · exact fun s channel due quiet released => (exec_leakFilterDone_of_due (leak := false) due).trans
      ((if_neg (ne_true_of_eq_false quiet)).trans (if_neg (by simp [released])))
  · rintro s bad rfl some_ early settled
    exact if_neg (by simp only [some_, early, settled]; decide)
  · rintro s (all | released | early)
    · exact if_pos (.inl (by simpa [List.filter_eq_nil_iff] using all))
    · exact if_pos (.inr (.inl released))
    · exact if_pos (.inr (.inr (by simp [early])))
  · exact fun s channel value ovr fits high => (exec_leakMeasure_of_fitted fits).trans (if_pos high)
  · exact fun s channel value fits low tenth => (exec_leakMeasure_of_fitted fits).trans
      ((if_neg (by simp [low])).trans (if_pos tenth))
  · exact fun s channel value fits low few => (exec_leakMeasure_of_fitted fits).trans
      ((if_neg (by simp [low])).trans (if_neg few.not_ge))

end Sys2Proof.Machine
end

section
/-! SUPPORT. Proofs of spec/17_two_wire.md: how a transaction starts, and how a controller is owned, ends and recovers. -/

namespace Sys2Proof.Machine

/-! The start of a transaction (R544, R547, R548, R553). -/

/-- The keys that the acceptance of a GO on TWk loads, before the transaction or a recovery runs. -/
def twGoKey (k key : Nat) : Bool :=
  [TW.OP, TW.PEC, TW.ADDR, TW.SEG, TWI.SWITCH, TW.TRANSACTIONS, TW.XCOUNT, TW.RESULT, TW.REASON, TWI.GO_AT].any
    (fun r => key == (r.clAt k).key)

section Go

variable {s t : State} {k : Fin 6} {op req seg addr : Nat} {pec : Bool}

/-- What refuses a GO, and whether its segment is due a recovery, do not depend on what the GO loads. -/
theorem twGo_reads (h : LoadsOnly (twGoKey k.val) s t) : t.twRefusal k.val op seg pec = s.twRefusal k.val op seg pec ∧
    t.bit (TWI.SEG_DUE.clAt k.val) seg = s.bit (TWI.SEG_DUE.clAt k.val) seg := by
  have apart : ∀ k : Fin 6, ∀ f ∈ [TW.WLEN.clAt k.val, TW.RLEN.clAt k.val, TW.SEG_FIT.clAt k.val, TW.SEG_STUCK.clAt k.val,
      TW.BUS_STUCK.clAt k.val, CCLK.CORE_LOCK.cl, TWI.SEG_DUE.clAt k.val], twGoKey k.val f.key = false := by decide
  have get := fun f hf => h.get f (apart k f hf)
  simp only [List.forall_mem_cons, List.not_mem_nil, false_implies, implies_true, and_true] at get
  obtain ⟨wlen, rlen, fit, stuck, bus, lock, due⟩ := get
  unfold State.twRefusal State.twSegFit State.bit State.is
  rw [wlen, rlen, fit, stuck, bus, lock, due]
  exact ⟨rfl, rfl⟩

/-- The state in which a GO of TWk is accepted, but for its STATE. -/
def State.twAccepted (s : State) (k op : Nat) (pec : Bool) (addr seg : Nat) : State :=
  let u := ((s.set (TW.OP.clAt k) op).put (TW.PEC.clAt k) pec).set (TW.ADDR.clAt k) addr
  let v := (u.set (TW.SEG.clAt k) seg).set (TWI.SWITCH.clAt k) (twSwitch k seg)
  let w := ((v.count (TW.TRANSACTIONS.clAt k)).set (TW.XCOUNT.clAt k) 0).set (TW.RESULT.clAt k) 0
  (w.set (TW.REASON.clAt k) 0).set (TWI.GO_AT.clAt k) (s.clock + 1)

section Idle

variable (hr : s.inReset clachasel = false) (awake : s.resetting clachasel TW.page k.val = false)
  (owned : s.is (TW.OWNED.clAt k.val) = true) (owner : s.get (TW.OWNER.clAt k.val) = req) (idle : s.get (TW.STATE.clAt k.val) = 2)
include hr awake owned owner idle

/-- A GO by the owner of an idle controller is refused, waits for the recovery of its segment, or runs. -/
theorem State.twGo_of_idle : s.twGo k.val op req pec addr seg =
    if s.twRefusal k.val op seg pec ≠ 0 then
      ((((((s.set (TW.OP.clAt k.val) op).put (TW.PEC.clAt k.val) pec).set (TW.ADDR.clAt k.val) addr).set (TW.SEG.clAt k.val) seg).set
        (TW.REASON.clAt k.val) (s.twRefusal k.val op seg pec))).twResult k.val 10
    else if s.bit (TWI.SEG_DUE.clAt k.val) seg then
      (((s.twAccepted k.val op pec addr seg).setBit (TWI.SEG_DUE.clAt k.val) seg false).set (TWI.GO_NEXT.clAt k.val) 1).twRecover k.val
    else (s.twAccepted k.val op pec addr seg).set (TW.STATE.clAt k.val) 3 := by
  have key : ∀ k : Fin 6, ∀ r ∈ [TW.OP, TW.PEC, TW.ADDR, TW.SEG, TWI.SWITCH, TW.TRANSACTIONS, TW.XCOUNT, TW.RESULT, TW.REASON,
      TWI.GO_AT], twGoKey k.val (r.clAt k.val).key = true := by decide
  have taken : LoadsOnly (twGoKey k.val) s ((((s.set (TW.OP.clAt k.val) op).put (TW.PEC.clAt k.val) pec).set (TW.ADDR.clAt k.val)
      addr).set (TW.SEG.clAt k.val) seg) :=
    loadsOnly_set (key k _ (by simp)) (loadsOnly_set (key k _ (by simp)) (loadsOnly_put (key k _ (by simp))
      (loadsOnly_set (key k _ (by simp)) (LoadsOnly.refl s))))
  have counted : LoadsOnly (twGoKey k.val) s (((((((s.set (TW.OP.clAt k.val) op).put (TW.PEC.clAt k.val) pec).set
      (TW.ADDR.clAt k.val) addr).set (TW.SEG.clAt k.val) seg).set (TWI.SWITCH.clAt k.val) (twSwitch k.val seg)).count
      (TW.TRANSACTIONS.clAt k.val)).set (TW.XCOUNT.clAt k.val) 0) :=
    loadsOnly_set (key k _ (by simp)) (loadsOnly_count (key k _ (by simp)) (loadsOnly_set (key k _ (by simp)) taken))
  have accepted : LoadsOnly (twGoKey k.val) s (s.twAccepted k.val op pec addr seg) :=
    loadsOnly_set (key k _ (by simp)) (loadsOnly_set (key k _ (by simp)) (loadsOnly_set (key k _ (by simp)) counted))
  rw [← (twGo_reads (op := op) (pec := pec) accepted).2]
  unfold State.twGo State.twAccepted
  rw [if_neg (by simp [hr]), if_neg (by simp [awake, owned, owner, idle])]
  simp only [(twGo_reads taken).1, counted.clock]

theorem State.twGo_of_clean (ok : s.twRefusal k.val op seg pec = 0) (clean : s.bit (TWI.SEG_DUE.clAt k.val) seg = false) :
    s.twGo k.val op req pec addr seg = (s.twAccepted k.val op pec addr seg).set (TW.STATE.clAt k.val) 3 :=
  (State.twGo_of_idle hr awake owned owner idle).trans ((if_neg (not_not.2 ok)).trans (if_neg (ne_true_of_eq_false clean)))

theorem State.twGo_of_due (ok : s.twRefusal k.val op seg pec = 0) (due : s.bit (TWI.SEG_DUE.clAt k.val) seg = true) :
    s.twGo k.val op req pec addr seg =
      (((s.twAccepted k.val op pec addr seg).setBit (TWI.SEG_DUE.clAt k.val) seg false).set (TWI.GO_NEXT.clAt k.val) 1).twRecover
        k.val :=
  (State.twGo_of_idle hr awake owned owner idle).trans ((if_neg (not_not.2 ok)).trans (if_pos due))

theorem State.twGo_of_refused (bad : s.twRefusal k.val op seg pec ≠ 0) : s.twGo k.val op req pec addr seg =
    (((((s.set (TW.OP.clAt k.val) op).put (TW.PEC.clAt k.val) pec).set (TW.ADDR.clAt k.val) addr).set (TW.SEG.clAt k.val) seg).set
      (TW.REASON.clAt k.val) (s.twRefusal k.val op seg pec)).twResult k.val 10 :=
  (State.twGo_of_idle hr awake owned owner idle).trans (if_pos bad)

end Idle

/-- A GO that the controller cannot take is discarded. -/
theorem State.twGo_of_barred (hr : s.inReset clachasel = false) (barred : s.resetting clachasel TW.page k.val = true ∨
      s.is (TW.OWNED.clAt k.val) = false ∨ s.get (TW.OWNER.clAt k.val) ≠ req ∨ s.get (TW.STATE.clAt k.val) ≠ 2) :
    s.twGo k.val op req pec addr seg = s.regFault clachasel TW.page TW.GO k.val .accessErr req
      (1 + 16 * op + 128 * pec.toNat + 256 * addr + 65536 * seg) :=
  (if_neg (by simp [hr])).trans (if_pos (barred.imp_right (Or.imp_left (by simp [·]))))

end Go

/-- Settles O12: the four operations are one GO, which is barred, refused, waits for a recovery or runs. -/
theorem twoWireTransactionsStart : Obligations.TwoWireTransactionsStart := by
  unfold Obligations.TwoWireTransactionsStart
  and_intros
  · exact fun s req bus pec address segment hr awake owned owner idle ok clean =>
      congrArg Host.Outcome.next (State.twGo_of_clean hr awake owned owner idle ok clean)
  · exact fun s req bus pec address segment hr awake owned owner idle ok due =>
      congrArg Host.Outcome.next (State.twGo_of_due hr awake owned owner idle ok due)
  · exact fun s req bus pec address segment hr awake owned owner idle bad =>
      congrArg Host.Outcome.next (State.twGo_of_refused hr awake owned owner idle bad)
  · exact fun s req bus pec address segment hr barred => congrArg Host.Outcome.next (State.twGo_of_barred hr barred)
  · exact fun s req bus pec address segment hr awake owned owner idle ok clean =>
      congrArg Host.Outcome.next (State.twGo_of_clean hr awake owned owner idle ok clean)
  · exact fun s req bus pec address segment hr awake owned owner idle ok due =>
      congrArg Host.Outcome.next (State.twGo_of_due hr awake owned owner idle ok due)
  · exact fun s req bus pec address segment hr awake owned owner idle bad =>
      congrArg Host.Outcome.next (State.twGo_of_refused hr awake owned owner idle bad)
  · exact fun s req bus pec address segment hr barred => congrArg Host.Outcome.next (State.twGo_of_barred hr barred)
  · exact fun s req bus pec address segment hr awake owned owner idle ok clean =>
      congrArg Host.Outcome.next (State.twGo_of_clean hr awake owned owner idle ok clean)
  · exact fun s req bus pec address segment hr awake owned owner idle ok due =>
      congrArg Host.Outcome.next (State.twGo_of_due hr awake owned owner idle ok due)
  · exact fun s req bus pec address segment hr awake owned owner idle bad =>
      congrArg Host.Outcome.next (State.twGo_of_refused hr awake owned owner idle bad)
  · exact fun s req bus pec address segment hr barred => congrArg Host.Outcome.next (State.twGo_of_barred hr barred)
  · exact fun s req bus pec address segment hr awake owned owner idle ok clean =>
      congrArg Host.Outcome.next (State.twGo_of_clean hr awake owned owner idle ok clean)
  · exact fun s req bus pec address segment hr awake owned owner idle ok due =>
      congrArg Host.Outcome.next (State.twGo_of_due hr awake owned owner idle ok due)
  · exact fun s req bus pec address segment hr awake owned owner idle bad =>
      congrArg Host.Outcome.next (State.twGo_of_refused hr awake owned owner idle bad)
  · exact fun s req bus pec address segment hr barred => congrArg Host.Outcome.next (State.twGo_of_barred hr barred)

/-! How controllers are owned, end and recover (R543 to R553). -/

section Ends

variable {s : State} {k : Fin 6}

/-- The read bytes of a bus lie apart from the operation and PEC of a transaction. -/
theorem rxbuf_key_ne (n : Nat) : (TW.RXBUF.clAt n).key ≠ (TW.OP.clAt k.val).key ∧ (TW.RXBUF.clAt n).key ≠ (TW.PEC.clAt k.val).key := by
  constructor <;>
  · simp only [Reg.clAt, Reg.at, fieldKey, Reg.chipOf, Reg.offset, clachasel, TW.RXBUF, TW.OP, TW.PEC, Reg.arr, reg]
    omega

/-- Storing what a transaction moved changes neither its operation nor its PEC. -/
theorem State.get_twStore {count : Nat} {bytes : List Nat} {f : Field} (hf : f = TW.OP.clAt k.val ∨ f = TW.PEC.clAt k.val) :
    ((s.set (TW.XCOUNT.clAt k.val) count).twStore k.val bytes).get f = s.get f := by
  have apart : ∀ k : Fin 6, (TW.XCOUNT.clAt k.val).key ≠ (TW.OP.clAt k.val).key ∧
      (TW.XCOUNT.clAt k.val).key ≠ (TW.PEC.clAt k.val).key := by decide
  have stored : ∀ u : State, (u.twStore k.val bytes).get f = u.get f := fun u =>
    u.get_each f _ _ (fun v i _ => v.get_set_ne _ _ _ (by
      rcases hf with rfl | rfl
      · exact (rxbuf_key_ne _).1
      · exact (rxbuf_key_ne _).2))
  refine (stored _).trans (s.get_set_ne _ _ _ ?_)
  rcases hf with rfl | rfl
  · exact (apart k).1
  · exact (apart k).2

/-- Storing the block count changes neither either. -/
theorem State.get_set_rxcount {c : Prop} [Decidable c] {v : Nat} {f : Field} (hf : f = TW.OP.clAt k.val ∨ f = TW.PEC.clAt k.val) :
    (if c then s.set (TW.RXCOUNT.clAt k.val) v else s).get f = s.get f := by
  have apart : ∀ k : Fin 6, (TW.RXCOUNT.clAt k.val).key ≠ (TW.OP.clAt k.val).key ∧
      (TW.RXCOUNT.clAt k.val).key ≠ (TW.PEC.clAt k.val).key := by decide
  split
  · refine s.get_set_ne _ _ _ ?_
    rcases hf with rfl | rfl
    · exact (apart k).1
    · exact (apart k).2
  · rfl

theorem State.is_pec_stored {c : Prop} [Decidable c] {count v : Nat} {bytes : List Nat} :
    (if c then ((s.set (TW.XCOUNT.clAt k.val) count).twStore k.val bytes).set (TW.RXCOUNT.clAt k.val) v
      else (s.set (TW.XCOUNT.clAt k.val) count).twStore k.val bytes).is (TW.PEC.clAt k.val) = s.is (TW.PEC.clAt k.val) :=
  congrArg (· != 0) ((State.get_set_rxcount (.inr rfl)).trans (State.get_twStore (.inr rfl)))

/-- Counting a recovery changes neither what waits for it nor whether the bus is released after it. -/
theorem State.is_count_recoveries : (s.count (TW.RECOVERIES.clAt k.val)).is (TWI.GO_NEXT.clAt k.val) = s.is (TWI.GO_NEXT.clAt k.val) ∧
    (s.count (TW.RECOVERIES.clAt k.val)).is (TWI.RELEASES.clAt k.val) = s.is (TWI.RELEASES.clAt k.val) := by
  have apart : ∀ k : Fin 6, (TW.RECOVERIES.clAt k.val).key ≠ (TWI.GO_NEXT.clAt k.val).key ∧
      (TW.RECOVERIES.clAt k.val).key ≠ (TWI.RELEASES.clAt k.val).key := by decide
  exact ⟨s.is_count_ne _ _ _ (apart k).1, s.is_count_ne _ _ _ (apart k).2⟩

/-- The keys that CLEAR_STUCK loads before a recovery. -/
def twClearKey (k key : Nat) : Bool :=
  [TWI.SEG_DUE, TW.SEG_STUCK, TW.BUS_STUCK, TW.CAUSE].any (fun r => key == (r.clAt k).key)

/-- CLEAR_STUCK forgets what is stuck, and recovers the trunk of a controller that is enabled and has no transaction (R553). -/
theorem exec_clearStuck {req : Requester} (h : s.Reaches clachasel TW.page TW.CLEAR_STUCK k.val req) :
    exec (.clearStuck req k) s = .next (
      let due := Nat.lor (s.get (TWI.SEG_DUE.clAt k.val)) (s.get (TW.SEG_STUCK.clAt k.val))
      let u := ((s.set (TWI.SEG_DUE.clAt k.val) due).set (TW.SEG_STUCK.clAt k.val) 0).set (TW.BUS_STUCK.clAt k.val) 0
      let v := u.set (TW.CAUSE.clAt k.val) 0
      if s.get (TW.STATE.clAt k.val) = 0 ∨ s.twRunning k.val then v
      else ((v.set (TWI.SWITCH.clAt k.val) 0).set (TWI.TRUNK.clAt k.val) 1).twRecover k.val) := by
  have key : ∀ k : Fin 6, ∀ r ∈ [TWI.SEG_DUE, TW.SEG_STUCK, TW.BUS_STUCK, TW.CAUSE], twClearKey k.val (r.clAt k.val).key = true := by
    decide
  have apart : ∀ k : Fin 6, twClearKey k.val (TW.STATE.clAt k.val).key = false ∧
      twClearKey k.val (TWI.GO_NEXT.clAt k.val).key = false := by decide
  have cleared : LoadsOnly (twClearKey k.val) s ((((s.set (TWI.SEG_DUE.clAt k.val) (Nat.lor (s.get (TWI.SEG_DUE.clAt k.val))
      (s.get (TW.SEG_STUCK.clAt k.val)))).set (TW.SEG_STUCK.clAt k.val) 0).set (TW.BUS_STUCK.clAt k.val) 0).set
      (TW.CAUSE.clAt k.val) 0) :=
    loadsOnly_set (key k _ (by simp)) (loadsOnly_set (key k _ (by simp)) (loadsOnly_set (key k _ (by simp))
      (loadsOnly_set (key k _ (by simp)) (LoadsOnly.refl s))))
  refine exec_of_reaches rfl h ?_
  dsimp only
  unfold State.twRunning State.is
  rw [cleared.get _ (apart k).1, cleared.get _ (apart k).2]

end Ends

/-- Settles O13, by the owner and the state that each write, end and timeout finds. -/
theorem twoWireControllersAreOwnedEndAndRecover : Obligations.TwoWireControllersAreOwnedEndAndRecover := by
  unfold Obligations.TwoWireControllersAreOwnedEndAndRecover
  and_intros
  · exact fun s req bus hr awake off bad => congrArg Host.Outcome.next ((if_neg (by simp [hr])).trans
      ((if_neg (by simp [awake])).trans ((if_neg (by simp [off])).trans (if_pos (by simp [bad])))))
  · exact fun s req bus hr awake off good => congrArg Host.Outcome.next ((if_neg (by simp [hr])).trans
      ((if_neg (by simp [awake])).trans ((if_neg (by simp [off])).trans (if_neg (by simp [good])))))
  · exact fun s req bus hr awake on => congrArg Host.Outcome.next ((if_neg (by simp [hr])).trans
      ((if_neg (by simp [awake])).trans (if_pos on)))
  · exact fun s req bus core h free => exec_of_reaches rfl h (if_pos (by simp [free]))
  · exact fun s req bus core h owned => exec_of_reaches rfl h (if_neg (by simp [owned]))
  · exact fun s req bus core h owned owner still idle => exec_of_reaches rfl h ((if_neg (by simp [owned, owner])).trans
      (if_neg (by simp [still, idle])))
  · exact fun s req bus core h owned owner busy => exec_of_reaches rfl h ((if_neg (by simp [owned, owner])).trans (if_pos busy))
  · intro s bus result count data blockCount pec runs
    refine (if_neg (not_not.2 runs)).trans ?_
    simp only [State.get_set_rxcount, State.get_twStore, State.is_pec_stored, true_or]
  · exact fun s bus result count data blockCount pec idle => if_pos idle
  · exact fun s req bus hr awake owned owner runs => (if_neg (by simp [hr])).trans
      ((if_neg (by simp [awake, owned, owner])).trans (congrArg _ (if_pos runs)))
  · exact fun s req bus hr awake owned owner idle => (if_neg (by simp [hr])).trans
      ((if_neg (by simp [awake, owned, owner])).trans (congrArg _ (if_neg (by simp [idle]))))
  · exact fun s req bus hr barred => (if_neg (by simp [hr])).trans (if_pos (barred.imp_right (Or.imp_left (by simp [·]))))
  · exact fun s bus runs => congrArg Host.Outcome.next (if_pos runs)
  · exact fun s bus runs due => congrArg Host.Outcome.next (if_pos ⟨runs, due⟩)
  · exact fun s bus h => congrArg Host.Outcome.next (if_neg (by rcases h with h | h <;> simp [h]))
  · exact fun s bus idle => congrArg Host.Outcome.next (if_neg idle)
  · exact fun s bus scl trunkHigh recovers locked next held => (if_neg (by simp [recovers, locked])).trans ((if_pos rfl).trans
      (if_pos (by simp [State.is_count_recoveries, next, held])))
  · exact fun s bus scl trunkHigh recovers locked ends => (if_neg (by simp [recovers, locked])).trans ((if_pos rfl).trans
      (if_neg (by rcases ends with ends | ends <;> simp [State.is_count_recoveries, ends])))
  · exact fun s bus scl trunkHigh recovers locked trunk => (if_neg (by simp [recovers, locked])).trans
      ((if_neg Bool.false_ne_true).trans (if_neg fun ⟨⟨segment, first⟩, high⟩ => trunk.mp ⟨segment, by simpa using first, high⟩))
  · exact fun s bus scl recovers locked segment first => (if_neg (by simp [recovers, locked])).trans
      ((if_neg Bool.false_ne_true).trans (if_pos ⟨⟨segment, by simp [first]⟩, rfl⟩))
  · exact fun s bus ok scl trunkHigh h => if_pos h
  · exact fun s req bus h on idle => (exec_clearStuck h).trans (congrArg Host.Outcome.next (if_neg (by simp [on, idle])))
  · exact fun s req bus h busy => (exec_clearStuck h).trans (congrArg Host.Outcome.next (if_pos busy))

end Sys2Proof.Machine
end

section
/-! SUPPORT. Proofs of spec/18_event_recorder.md: admission and reservation, limits, flushes and the start-up search, reading. -/

namespace Sys2Proof.Machine

/-! Admission, die records and reservations (R567 to R572, R586). -/

/-- A die out of reset whose sideband is enabled and up delivers to a recorder that runs and does not scan (R571). -/
abbrev State.Delivers (s : State) (d : Nat) : Prop :=
  s.inReset d = false ∧ s.bit CSB.ENABLE.cl d = true ∧ s.is (CSB.DOWN.clAt d) = false ∧ s.get RECI.RUNS.cl ≠ 0 ∧
    s.get EVREC.SCANNING.cl ≠ 1

section Deliveries

variable {s : State} {die : DieNo} {r : DieRec} {rest : List DieRec}

theorem State.Delivers.not_barred {d : Nat} (h : s.Delivers d) : ¬ (s.inReset d = true ∨ ¬ s.bit CSB.ENABLE.cl d = true ∨
    s.is (CSB.DOWN.clAt d) = true ∨ s.get RECI.RUNS.cl = 0 ∨ s.get EVREC.SCANNING.cl = 1) := by
  obtain ⟨hr, enabled, up, runs, scans⟩ := h
  simp [hr, enabled, up, runs, scans]

/-- A record that no die may write is dropped. -/
theorem exec_dieRecord_of_badCode (oldest : (s.die die.val).devq = r :: rest) (h : s.Delivers die.val)
    (bad : r.code / 4096 ≠ 1 ∧ r.code / 4096 ≠ 2) :
    exec (.dieRecord die) s = .next (
      ((s.onDie die.val (fun x => { x with devq := rest })).devqRegs die.val).count EVREC.BAD_CODE.cl) := by
  show execDieRecord die s = _
  unfold execDieRecord
  simp only [oldest]
  rw [if_neg h.not_barred, if_pos bad]

/-- A record of a die's own code is admitted, suppressed or kept for another try. -/
theorem exec_dieRecord_of_dieCode (oldest : (s.die die.val).devq = r :: rest) (h : s.Delivers die.val)
    (good : r.code / 4096 = 1 ∨ r.code / 4096 = 2) :
    exec (.dieRecord die) s = .next (
      let p := s.admitRecord .valid ⟨0, r.code, if s.ageOf r = 65535 then 3 else 1, s.trayTime - usToTicks (s.ageOf r), r.origin, 0,
        r.aux, r.arg0, r.arg1⟩
      let v := (p.1.onDie die.val (fun x => { x with devq := rest })).devqRegs die.val
      match p.2 with
      | .busy => p.1.count (DEVQ.BUSY_RETRIES.on die.val)
      | .suppressed => v
      | .admitted => (v.count (DEVQ.SENT.on die.val)).dieAdmitted die.val r) := by
  show execDieRecord die s = _
  unfold execDieRecord
  simp only [oldest]
  rw [if_neg h.not_barred, if_neg (by omega)]
  rcases s.admitRecord _ _ with ⟨u, a⟩
  cases a <;> rfl

theorem exec_dieRecord_of_barred (h : ¬ s.Delivers die.val) : exec (.dieRecord die) s = .next s := by
  show execDieRecord die s = _
  unfold execDieRecord
  dsimp only
  split
  · rfl
  · refine if_pos ?_
    by_contra free
    exact h (by simpa using free)

end Deliveries

section Reservations

variable {s : State} {req : Requester} {core : McNo} {k q : Nat} {slot : RingSlot}

/-- A reservation that is voided leaves its slot void and its cause in an event. -/
theorem State.voidReservation_of_some {cause : Nat} (held : s.reservedBy k = some q) (at_ : aget s.ring (q % 4096) = some slot) :
    s.voidReservation k cause =
      ((({ s with ring := aput s.ring (q % 4096) ⟨.void, slot.body⟩ }.ringRegs).set (EVWIN.RESULT.clAt k) 6).event EVWIN.page 0x3803
        (k + 256 * cause)).flushPage := by
  unfold State.voidReservation
  simp only [held, at_]

theorem State.voidReservation_of_none {cause : Nat} (none_ : s.reservedBy k = none) : s.voidReservation k cause = s := by
  unfold State.voidReservation
  simp only [none_]

/-- With nothing reserved, RESERVE looks at the code, then at the search, then applies admission (R569). -/
theorem exec_reserve_of_none (h : s.Reaches clachasel EVWIN.page EVWIN.RESERVE core.val req)
    (none_ : s.reservedBy core.val = none) :
    exec (.reserve req core) s = .next (
      if s.get (EVWIN.CODE.clAt core.val) / 4096 ≠ 3 then (s.set (EVWIN.RESULT.clAt core.val) 4).count EVREC.BAD_CODE.cl
      else if s.get EVREC.SCANNING.cl = 1 then s.set (EVWIN.RESULT.clAt core.val) 2
      else
        let p := s.admitRecord (.reserved core.val) ⟨0, s.get (EVWIN.CODE.clAt core.val), 0, s.trayTime,
          windowOrigin (s.get (EVWIN.ORIGIN.clAt core.val)), 0, s.get (EVWIN.AUX.clAt core.val),
          s.get (EVWIN.ARG0.clAt core.val), s.get (EVWIN.ARG1.clAt core.val)⟩
        match p.2 with
        | .busy => p.1.set (EVWIN.RESULT.clAt core.val) 2
        | .suppressed => p.1.set (EVWIN.RESULT.clAt core.val) 3
        | .admitted => (p.1.set (EVWIN.RESULT.clAt core.val) 1).set (EVWIN.SEQ.clAt core.val) ((p.1.reservedBy core.val).getD 0)) := by
  refine exec_of_reaches rfl h ?_
  simp only [none_]
  refine if_congr Iff.rfl rfl (if_congr Iff.rfl rfl ?_)
  rcases s.admitRecord _ _ with ⟨u, a⟩
  cases a <;> rfl

end Reservations

/-- Settles O9, by what bars a record, a delivery or a reservation, and by what becomes of one that is presented. -/
theorem theRecorderAdmitsDeliversAndReserves : Obligations.TheRecorderAdmitsDeliversAndReserves := by
  unfold Obligations.TheRecorderAdmitsDeliversAndReserves
  and_intros
  · exact fun s writer code origin arg0 arg1 aux waiting off => if_pos off
  · exact fun s writer code origin arg0 arg1 aux waiting runs block full => (if_neg runs).trans (if_pos ⟨block, full⟩)
  · exact fun s writer code origin arg0 arg1 aux waiting runs room bad =>
      (if_neg runs).trans ((if_neg (not_and_or.2 room)).trans (if_pos (ne_true_of_eq_false bad)))
  · exact fun s writer code origin arg0 arg1 aux waiting runs room good =>
      (if_neg runs).trans ((if_neg (not_and_or.2 room)).trans (if_neg (not_not.2 good)))
  · intro s die empty
    show execDieRecord die s = _
    unfold execDieRecord
    simp only [empty]
  · exact fun s die h => exec_dieRecord_of_barred (by
      rintro ⟨hr, enabled, up, runs, scans⟩
      simp [hr, enabled, up, runs, scans] at h)
  · exact fun s die r rest oldest hr enabled up runs scans bad =>
      exec_dieRecord_of_badCode oldest ⟨hr, enabled, up, runs, scans⟩ bad
  · intro s die r rest oldest hr enabled up runs scans good
    rw [exec_dieRecord_of_dieCode oldest ⟨hr, enabled, up, runs, scans⟩ good]
    rcases s.admitRecord _ _ with ⟨u, a⟩
    cases a <;> rfl
  · intro s req core h held
    obtain ⟨q, hq⟩ := Option.isSome_iff_exists.1 held
    exact exec_of_reaches rfl h (by simp only [hq])
  · exact fun s req core h none_ bad => (exec_reserve_of_none h none_).trans (congrArg _ (if_pos bad))
  · exact fun s req core h none_ good scans =>
      (exec_reserve_of_none h none_).trans (congrArg _ ((if_neg (not_not.2 good)).trans (if_pos scans)))
  · intro s req core h none_ good done
    rw [exec_reserve_of_none h none_, if_neg (not_not.2 good), if_neg done]
    rcases s.admitRecord _ _ with ⟨u, a⟩
    cases a <;> rfl
  · exact fun s req core q slot h held at_ => exec_of_reaches rfl h (by simp only [held, at_])
  · exact fun s req core h none_ => exec_of_reaches rfl h (by simp only [none_])
  · exact fun s req core q slot h held at_ => exec_of_reaches rfl h (State.voidReservation_of_some held at_)
  · exact fun s req core h none_ => exec_of_reaches rfl h (State.voidReservation_of_none none_)
  · exact fun s core q slot held at_ => congrArg Host.Outcome.next (State.voidReservation_of_some held at_)
  · exact fun s core none_ => congrArg Host.Outcome.next (State.voidReservation_of_none none_)

/-! Limits, flushes and the start-up search (R573 to R584). -/

/-- The start-up search of an empty flash starts at sequence number 1 and skips no page (R583, R584). -/
theorem exec_startupSearchDone_of_empty (s : State)
    (runs : s.get RECI.RUNS.cl ≠ 0) (scans : s.get EVREC.SCANNING.cl ≠ 0) (power : s.is PFAIL.PF_NOW.cl = false)
    (found : s.highestSeq = none) :
    exec .startupSearchDone s = .next (
      let u := ((s.set EVREC.SCANNING.cl 0).set EVREC.HEAD.cl 1).set EVREC.START_SEQ.cl 1
      let v := ((((u.set EVREC.FLUSH_NEXT.cl 1).ringRegs).startErase 0).startErase 1).startErase 2
      let w := v.event EVREC.page 0x3806 0 0 0
      w.heldRecs.foldl (fun u r =>
        match u.admitRecord .valid ⟨0, r.code, 0, r.entered, r.origin, 0, r.aux, r.arg0, r.arg1⟩ with
        | (u, .busy) => u.loseRecord 0
        | (u, _) => u) { w with heldRecs := [] }) := by
  show execStartupSearchDone s = _
  unfold execStartupSearchDone
  rw [if_neg (by simp [runs, scans, power]), found]
  extract_lets none_ h start f dirty skip head a b c d e held u v w
  have hskip : skip = 0 := if_neg (by simp [none_])
  have hhead : head = 1 := by rw [show head = (start + skip) % 4294967296 from rfl, hskip]; rfl
  have hh : h = 0 := rfl
  have hc : c = b.startErase 0 := if_pos rfl
  have first : flashBlock 1 = 0 := by decide
  have hd : d = v := by simp only [d, hc, b, a, hhead, first]; rfl
  have he : e = w := by simp only [e, w, hd, hskip, hh]
  simp only [held, he] <;> rfl

/-- Settles O10, by the time, the phase, the queue of erases or the flash that each command finds. -/
theorem theRecorderLimitsFlushesAndSearches : Obligations.TheRecorderLimitsFlushesAndSearches := by
  unfold Obligations.TheRecorderLimitsFlushesAndSearches
  and_intros
  · exact fun s due => if_neg (not_not.2 due)
  · exact fun s early => if_pos early
  · exact fun s runs done due => if_neg (by simp [runs, done, due])
  · exact fun s barred => if_pos barred
  · exact fun s req h settable => exec_of_reaches rfl h (if_pos settable)
  · exact fun s req h fixed => exec_of_reaches rfl h (if_neg (ne_true_of_eq_false fixed))
  · exact fun s req h => exec_of_reaches rfl h rfl
  · exact fun s req h fault => exec_of_reaches rfl h (if_neg (not_not.2 fault))
  · exact fun s req h good => exec_of_reaches rfl h (if_pos (by simp [good]))
  · intro s data early
    show execPageProgramDone true s = _
    unfold execPageProgramDone
    simp only [data]
    exact (if_neg (by simp)).trans (if_neg early)
  · intro s data late
    show execPageProgramDone true s = _
    unfold execPageProgramDone
    simp only [data]
    exact (if_neg (by simp)).trans (if_pos late)
  · intro s marks
    show execPageProgramDone true s = _
    unfold execPageProgramDone
    simp only [marks]
    exact if_neg (by simp)
  · intro s data
    show execPageProgramDone false s = _
    unfold execPageProgramDone
    simp only [data]
    exact if_pos (by simp)
  · intro s marks
    show execPageProgramDone false s = _
    unfold execPageProgramDone
    simp only [marks]
    exact if_pos (by simp)
  · intro s b rest oldest
    show execEraseDone true s = _
    unfold execEraseDone
    simp only [oldest]
    exact if_neg (by simp)
  · intro s b rest oldest
    show execEraseDone false s = _
    unfold execEraseDone
    simp only [oldest]
    exact if_pos (by simp)
  · intro s b rest oldest
    show execEraseTimeout s = _
    unfold execEraseTimeout
    simp only [oldest]
  · exact fun s fails => if_neg (not_not.2 fails)
  · exact fun s barred => if_pos barred
  · intro s runs scans power erased
    have found : s.highestSeq = none := by unfold State.highestSeq; rw [erased]; rfl
    exact exec_startupSearchDone_of_empty s runs scans power found

/-! Reading, and the commands of the host (R585 to R588). -/

section Reading

variable {s : State} {window : Fin 5}

/-- Storing the number asked for changes neither bound of the ring. -/
theorem State.get_set_rdSeq {q : Nat} {f : Field} (hf : f ∈ [EVREC.OLDEST.cl, EVREC.COMMITTED_TO.cl]) :
    (s.set (EVREAD.RD_SEQ.clAt window.val) q).get f = s.get f := by
  have apart : ∀ w : Fin 5, ∀ f ∈ [EVREC.OLDEST.cl, EVREC.COMMITTED_TO.cl], (EVREAD.RD_SEQ.clAt w.val).key ≠ f.key := by decide
  exact s.get_set_ne _ _ _ (apart window f hf)

theorem State.is_set_flSeq {q : Nat} : (s.set (EVREAD.FL_SEQ.clAt window.val) q).is EVREC.PF_FLUSH.cl = s.is EVREC.PF_FLUSH.cl := by
  have apart : ∀ w : Fin 5, (EVREAD.FL_SEQ.clAt w.val).key ≠ EVREC.PF_FLUSH.cl.key := by decide
  exact s.is_set_ne _ _ _ (apart window)

/-- A read of the ring is before OLDEST, not yet committed, or finds a slot (R585, R586). -/
theorem exec_rdSeq {req : Requester} {seq : BitVec 32} (h : s.Reaches clachasel EVREAD.page EVREAD.RD_SEQ window.val req) :
    exec (.rdSeq req window seq) s = .next (
      let u := s.set (EVREAD.RD_SEQ.clAt window.val) seq.toNat
      if 2147483648 ≤ seqSub seq.toNat (s.get EVREC.OLDEST.cl) then u.set (EVREAD.RD_STATUS.clAt window.val) 1
      else if seqSub (s.get EVREC.COMMITTED_TO.cl + 1) (s.get EVREC.OLDEST.cl) ≤ seqSub seq.toNat (s.get EVREC.OLDEST.cl) then
        u.set (EVREAD.RD_STATUS.clAt window.val) 2
      else match aget s.ring (seq.toNat % 4096) with
        | some ⟨.valid, r⟩ => (u.each (List.range 8) (fun v i =>
            v.set (EVREAD.RD_DATA.clAt (8 * window.val + i)) (r.words.getD i 0))).set (EVREAD.RD_STATUS.clAt window.val) 0
        | _ => u.set (EVREAD.RD_STATUS.clAt window.val) 3) := by
  refine exec_of_reaches rfl h ?_
  dsimp only
  rw [State.get_set_rdSeq (by simp), State.get_set_rdSeq (by simp), State.set_ring] <;> rfl

/-- What a flash slot reads as is no report of a busy flash. -/
theorem flashStatus_ne_busy (words : List Nat) (q : Nat) : flashStatus words q ≠ 4 := by
  unfold flashStatus
  dsimp only
  split_ifs <;> decide

end Reading

/-- Settles O11, by where a number lies in the ring, what the flash returned, and the value of each command. -/
theorem theRecorderIsReadAndCommanded : Obligations.TheRecorderIsReadAndCommanded := by
  unfold Obligations.TheRecorderIsReadAndCommanded
  and_intros
  · intro s req window seq r h kept committed valid
    rw [exec_rdSeq h, if_neg kept.not_ge, if_neg committed.not_ge, valid]
  · exact fun s req window seq h old => (exec_rdSeq h).trans (congrArg Host.Outcome.next (if_pos old))
  · exact fun s req window seq h kept early => (exec_rdSeq h).trans
      (congrArg Host.Outcome.next ((if_neg kept.not_ge).trans (if_pos early)))
  · intro s req window seq r h kept committed void
    rw [exec_rdSeq h, if_neg kept.not_ge, if_neg committed.not_ge, void]
  · exact fun s req window seq h idle => exec_of_reaches rfl h (if_neg (by simp [State.is_set_flSeq, idle]))
  · exact fun s req window seq h flushes => exec_of_reaches rfl h (if_pos (State.is_set_flSeq.trans flushes))
  · rintro s window read words pending idle rfl
    refine (if_neg (not_not.2 pending)).trans ?_
    simp only [idle, Bool.false_eq_true, if_false, if_neg (flashStatus_ne_busy _ _)]
    cases read <;> rfl
  · intro s window read pending flushes
    refine (if_neg (not_not.2 pending)).trans ?_
    simp only [flushes, if_true]
  · exact fun s window read idle => if_pos (by simp [idle])
  · exact fun s c h ready one => exec_of_canServe rfl h ready (if_pos one)
  · exact fun s c h ready other => exec_of_canServe rfl h ready (if_neg other)
  · exact fun s c h ready settable => exec_of_canServe rfl h ready (if_pos settable)
  · exact fun s c h ready fixed => exec_of_canServe rfl h ready (if_neg (ne_true_of_eq_false fixed))
  · exact fun s c h ready within => exec_of_canServe rfl h ready (if_pos within)
  · exact fun s c h ready beyond => exec_of_canServe rfl h ready (if_neg beyond)
  · exact fun s c h ready fault one => exec_of_canServe rfl h ready ((if_neg (not_not.2 fault)).trans (if_pos one))
  · exact fun s c h ready good => exec_of_canServe rfl h ready (if_pos (ne_true_of_eq_false good))

end Sys2Proof.Machine
end

section
/-! SUPPORT. Proofs of spec/21_self_test.md. -/

namespace Sys2Proof.Machine

/-- A die out of reset with its test running is not passed over at the end of the test. -/
theorem not_inReset_or_not_running {inReset runs : Bool} (alive : inReset = false) (running : runs = true) :
    ¬ (inReset = true ∨ ¬ runs = true) :=
  not_or.2 ⟨ne_true_of_eq_false alive, not_not.2 running⟩

/-- Settles O15, by whether the test runs, the tests and dies a command names, and the period. -/
theorem selfTestsArePostedAndEnd : Obligations.SelfTestsArePostedAndEnd := by
  unfold Obligations.SelfTestsArePostedAndEnd
  and_intros
  · exact fun s req die tests h => exec_of_reaches rfl h rfl
  · exact fun s c h serving named inService => exec_of_canServe rfl h (beq_iff_eq.2 serving)
      (if_neg (not_or.2 ⟨named, not_not.2 inService⟩))
  · exact fun s c h serving unfit => exec_of_canServe rfl h (beq_iff_eq.2 serving) (if_pos unfit)
  · exact fun s c h serving => exec_of_canServe rfl h (beq_iff_eq.2 serving) rfl
  · exact fun s c h ready => exec_of_canServe rfl h ready rfl
  · intro s period runs due
    have inService : (s.set TESTI.LAST.cl s.clock).get CSYS.DIE_INSERV.cl = s.get CSYS.DIE_INSERV.cl :=
      s.get_set_ne _ _ _ (by decide)
    refine (congrArg Host.Outcome.next (if_neg (not_or.2 ⟨period, not_or.2 ⟨not_not.2 runs, due.not_gt⟩⟩))).trans ?_
    simp only [inService]
  · exact fun s idle => congrArg Host.Outcome.next (if_pos (idle.imp_right (Or.imp_left ne_true_of_eq_false)))
  · exact fun s die failures fixed alive runs => congrArg Host.Outcome.next (if_neg (not_inReset_or_not_running alive runs))
  · exact fun s die failures fixed idle => congrArg Host.Outcome.next (if_pos (idle.imp_right ne_true_of_eq_false))
  · intro s die spans alive runs
    refine (congrArg Host.Outcome.next (if_neg (not_inReset_or_not_running alive runs))).trans ?_
    simp only [Bool.not_eq_true]
  · exact fun s die spans idle => congrArg Host.Outcome.next (if_pos (idle.imp_right ne_true_of_eq_false))
  · exact fun s die units ecc alive runs => congrArg Host.Outcome.next (if_neg (not_inReset_or_not_running alive runs))
  · exact fun s die units ecc idle => congrArg Host.Outcome.next (if_pos (idle.imp_right ne_true_of_eq_false))

end Sys2Proof.Machine
end

section
/-! SUPPORT. Proof of spec/95_what_each_step_holds.md: the command in front of the queue. -/

namespace Sys2Proof.Machine

/-- Settles O44, by the branch of a step that finds a command in front of the queue. -/
theorem stepRunsTheCommandInFront : Obligations.StepRunsTheCommandInFront := by
  unfold Obligations.StepRunsTheCommandInFront
  exact fun c rest s => step_of_pending_cons rfl

end Sys2Proof.Machine
end
